-- ==== Sys2Proof/Word.lean ====
section
/-! DEFINITION. The word types of the device: a register is 32 bits wide (R5, R299) and memory is
counted in bytes. -/

namespace Sys2Proof

/-- A register word; bit 31 is the most significant (R5). -/
abbrev Word := BitVec 32

/-- A byte of memory or an octet of a line; ITU bit 1 sits in bit 7 (R6). -/
abbrev Byte := BitVec 8

end Sys2Proof
end

