-- ==== Sys2Proof/Syntax.lean ====
section
/-! DEFINITION. The commands of the block: one constructor of `Instr` per row of the command table, with the
operands each carries, and the types of those operands. -/

namespace Sys2Proof

/-! ## Operands -/

/-- How a module-bus transaction ends (R50). -/
inductive MmbEnd where
  | done | nack | stuck | absent | timeout
deriving DecidableEq, Repr

/-- What lies at a context's place in one received line frame, in the order of arrival: octets before the frame's
pointer word or justification bytes; the pointer word and, for a VC-4-Xc, those of the other positions, when a
pointer period begins in the frame (R105, R108), or the justification bytes JC1 up, when a justification
multiframe ends in it (R116, R117), with the stamp of the octet that completes them; the octets of the negative
justification opportunity (H3, V3 or NJO); the octets after these.  Each run of octets comes with the stamp of
its first one.  Which of them are the container's is the mapper's to say.  `odu` is the place in its ODUj frame of the
first of them that is data, where the mapper has found that frame's alignment; `poison` that the octets came in words that a transfer error had struck (R14). -/
structure RxUnit where
  ctx    : Nat
  ptr    : List Nat
  jc     : List Nat
  stamp  : Nat
  before : List (Nat × List Byte)
  just   : Nat × List Byte
  after  : List (Nat × List Byte)
  odu    : Option Nat
  poison : Bool
deriving DecidableEq, Repr

/-- A received frame of the aligned line: the stamp of its first octet, its octets after descrambling, what it
carried for the engine's contexts, and the offsets of its octets that came in words that a transfer error had
struck (R14). -/
structure RxFrame where
  start  : Nat
  octets : List Byte
  units  : List RxUnit
  bad    : List Nat
deriving DecidableEq, Repr

/-- What comes with a transmit frame start: the Device Time at which its first bit leaves, the octets that
the mapper lays into the frame (offset in the frame and octets), and the body octets that an underrun has
left missing (offset and count). -/
structure TxFrame where
  stamp  : Nat
  laid   : List (Nat × List Byte)
  missAt : Nat
  missed : Nat
deriving DecidableEq, Repr

/-- What comes with a transmit pointer period: justification units that entered the elastic store less those
that left it, the line script's octets at the container's frame positions, and the body octets that the prefetch
buffer lacks at their time: the place of the first and how many (R205). -/
structure TxUnit where
  units  : Int
  line   : List Byte
  missAt : Nat
  missed : Nat
deriving DecidableEq, Repr


/-- A PTP message's kind (R237); `other` is any that R238 has the device ignore. -/
inductive PtpKind where
  | sync | followUp | delayReq | delayResp | pdelayReq | pdelayResp | pdelayFollow | announce | other
deriving DecidableEq, Repr

/-- A received PTP message: its kind and transport, domain, the sender's port identity, sequence number,
two-step flag, correction and the time it carries (both in ticks), the requester's port identity in a
response, and what an Announce says: grandmasterIdentity, then priority1, clockClass, clockAccuracy,
offsetScaledLogVariance, priority2, grandmasterIdentity and stepsRemoved as the comparison takes them. -/
structure PtpMsg where
  kind      : PtpKind
  transport : Nat
  domain    : Nat
  src       : Nat
  seq       : Nat
  twoStep   : Bool
  corr      : Int
  time      : Int
  req       : Nat
  gm        : Nat
  rank      : List Nat
deriving DecidableEq, Repr

/-- The PTP messages the device sends at an interval (R237). -/
inductive PtpTx where
  | sync | announce | delay
deriving DecidableEq, Repr

/-! ## Fenene requests (R265, R283) -/

/-- How far the active processor comes with a request before it fails (R319, R325, R327): it runs; it stops with
the journal entry written and nothing done; it stops with the effects made and the entry not marked; or it stops
with the entry applied and its reply in the cache but not sent. -/
inductive PavStop where
  | runs | logged | acted | cached
deriving DecidableEq, Repr

/-- How the locked sequence of a REG_MODIFY ends (R218, R284): its write-unlock is performed; it comes after the lock
has been released by force; or its locked read returns POISONED. -/
inductive ModLock where
  | kept | late | poisoned
deriving DecidableEq, Repr

/-- The header of a request (R265) and what arrived with it: host port, source UDP port; whether the packet
has the right form (R269), its tag verifies (R267) and its TLVs have the right form (R266); whether a cached
reply reads POISONED; how far the processor comes; and how the locked sequence of a REG_MODIFY ends. -/
structure Hdr where
  unit    : Nat
  session : Nat
  seq     : Nat
  tandem  : Bool
  port    : Nat
  udp     : Nat
  fmtOk   : Bool
  tagOk   : Bool
  tlvOk   : Bool
  poison  : Bool
  stop    : PavStop
  lock    : ModLock
deriving DecidableEq, Repr

/-- An ENTRY of TRIB_MAP: a context and the images of TRB_CFG to TRB_GMP_TX in address order. -/
structure TribEntry where
  ctx    : Nat
  images : List Nat
deriving DecidableEq, Repr

/-- What a configuration bundle says (R261, R364): the host port settings, operator keys, the owner key
record and the key of a REVOKE record. -/
structure BundleBody where
  mode    : Nat
  rsfec25 : Bool
  jumbo   : Bool
  kr      : Bool
  ipv4    : Nat
  ipv6    : Nat
  cmdPort : Nat
  roPort  : Nat
  opKeys  : List Nat
  ownKeys : List Nat
  revoke  : Option Nat
deriving DecidableEq, Repr

/-- What the flash and the checks of a staged object bring: its body digest, both signatures, what its body says if it
is a bundle (R358, R363), and the 64 KiB flash blocks that failed to erase or program meanwhile (R360). -/
structure Verdict where
  digestOk : Bool
  ecdsaOk  : Bool
  lmsOk    : Bool
  body     : BundleBody
  failed   : List Nat
deriving DecidableEq, Repr

/-- A request's opcode and parameters (R283).  Key parameters are numbers; a signature or a key agreement is
the verdict on it. -/
inductive Req where
  | hello
  | sessionOpen (role hostKey nonce : Nat) (sigOk : Bool)
  | sessionClose
  | regRead (addr : Nat)
  | regWrite (addr width value : Nat)
  | regReadBlock (addr count : Nat)
  | regWriteBlock (addr bytes : Nat) (values : List Nat)
  | regModify (addr width mask value : Nat)
  | portConfig (lane cfg rate tx : Nat) (ppm quad : Option Nat) (enable : Nat)
  | channelConfig (engine : Nat) (images : List (Option Nat)) (enable : Nat)
  | tribMap (entries : List TribEntry)
  | apsCommand (engine cmd chan : Nat)
  | deskewConfig (engine base size : Nat)
  | huntControl (engine action : Nat) (index : Option Nat)
  | captureArm (region : Nat)
  | captureStop (region : Nat)
  | captureReadout (region first count burst port : Nat)
  | regionConfig (kind region cfg : Nat) (src : Option Nat) (base size : Nat) (pre post : Option Nat)
  | patternLoad (region offset : Nat) (data : List Byte) (complete : Option Nat)
  | patternQueue (engine region sub fstart : Nat) (time : Option Nat)
  | injectError (engine : Nat) (record : List Byte) (count every : Nat) (time : Option Nat)
  | timeSet (value : Nat)
  | timeStep (step : Option Int) (measured : Option Nat)
  | eventRead (from_ : Option Nat) (max : Nat)
  | counterSnapshot (addr len : Nat)
  | fwStage (kind offset : Nat) (data : List Byte) (final : Option Nat) (verdict : Verdict)
  | fwActivate
  | attestNew (nonce : List Byte)
  | attestPart (report part : Nat)
  | ledgerRead (first count : Nat)
  | spareSubstitute (kind old : Nat) (new : Option Nat)
  | tandemJoin (role minLanes : Nat)
  | tandemSplit
  | gatehouseStatus
  | failoverRequest
  | unknown (opcode : Nat)
deriving DecidableEq, Repr

/-- A readout acknowledgement (R291) and the host port that it arrives on. -/
structure Ack where
  port    : Nat
  session : Nat
  seq     : Nat
  stream  : Nat
  ackNo   : Nat
  cum     : Nat
  high    : Nat
  missing : List Nat
  tagOk   : Bool
deriving DecidableEq, Repr

/-- A packet that the Gatehouse may hold (R324). -/
inductive Packet where
  | request (h : Hdr) (r : Req)
  | ack (a : Ack)
deriving DecidableEq, Repr

/-- A block that completes its bring-up (R382). -/
inductive BootBlk where
  | gatehouse | yard | service | engine (e : Nat) | time | lanes (g : Nat) | hostLanes | tandemLanes | tandem
  | stack (s : Nat) | host
deriving DecidableEq, Repr

/-- What the boot ROM finds (R359, R364, R365, R370): whether the slot of each processor still passes,
whether the pending bundle does, whether power is lost between the two burns of a revocation, and the LMS
state records that are not valid, as tree and record. -/
structure BootIn where
  slotA   : Bool
  slotB   : Bool
  pending : Bool
  cut     : Bool
  badLms  : List (Nat × Nat)
deriving DecidableEq, Repr

/-- The reply of the follower to a forwarded request (R343). -/
structure PeerReply where
  status : Nat
  params : List (Nat × List Byte)
deriving DecidableEq, Repr

/-- What a new active processor reads (R320, R325): for each checkpoint slot whether it is readable and its
digest matches, and the first journal index that reads POISONED. -/
structure TakeIn where
  slot0 : Bool
  slot1 : Bool
  badAt : Option Nat
deriving DecidableEq, Repr

/-- The verdict of a vote (R390). -/
inductive Vote where
  | engine | first | second | none
deriving DecidableEq, Repr

/-- A frame on a host port that is neither Fenene nor PTP (R262). -/
inductive HostFrame where
  | arp | neighbour | echo4 | echo6 | pause | fragment | tagged | other
deriving DecidableEq, Repr

/-- A read of an engine's elastic buffer for the Stall: the engine, and its error check (R14): 0 passed, 1 corrected,
2 uncorrectable. -/
structure EbRead where
  engine : Nat
  ecc    : Nat
deriving DecidableEq, Repr

/-! ## The commands -/

/-- The commands of the block, one constructor per row of the command table, in its order.  `sess` is the session
that a register access belongs to, `w` the word that a register write brings (its action bit is set or cleared
by the command itself), `h : Hdr` a packet's header. -/
inductive Instr where
  | powerGoodChange (vinL vinH regOk : Bool)
  | nresetChange (high : Bool) (low : Nat)
  | brownOut (high : Bool)
  | railMeasurement (mvL aL mvH aH power : Nat)
  | tempReading (tj : Int)
  | blockReady (b : BootBlk)
  | pavilionBoot (b : BootIn)
  | laneEnable (sess n : Nat) (w : Word)
  | laneDisable (sess n : Nat) (w : Word)
  | recal (sess n : Nat) (w : Word)
  | laneCalibrationDone (g : Nat)
  | signalChange (n : Nat) (trans : Bool) (freq : Int)
  | losSetExpiry (n : Nat)
  | losClrExpiry (n : Nat)
  | cdrLock (n : Nat)
  | lockLoss (n : Nat)
  | txclkSlewDone (n : Nat)
  | losTimerConfig (sess n : Nat) (clr : Bool) (w : Word)
  | moduleSignalChange (k : Nat) (prs int : Bool)
  | mmbGo (sess k : Nat) (w : Word)
  | mmbDone (k : Nat) (how : MmbEnd) (n : Nat) (data : List Byte)
  | mmbStretchTimeout (k n : Nat) (data : List Byte)
  | lineWord (n : Nat) (w : Word) (stamp : Nat) (poison : Bool)
  | lofSetExpiry (e : Nat)
  | lofClrExpiry (e : Nat)
  | lofTimerConfig (sess e : Nat) (w : Word)
  | rehunt (sess e : Nat)
  | force (sess e idx : Nat)
  | snap (sess e : Nat)
  | rxFrame (e : Nat) (fr : RxFrame)
  | txFrameStart (e : Nat) (fr : TxFrame)
  | ohpCommit (sess e : Nat)
  | ttiIdxWrite (sess e : Nat) (w : Word)
  | ttiStore (sess e : Nat)
  | ttiFmtWrite (sess e : Nat) (w : Word)
  | contextEnable (sess t : Nat) (w : Word)
  | contextDisable (sess t : Nat) (w : Word)
  | seqGo (sess e t : Nat)
  | seqStop (sess e t : Nat)
  | pointerPeriodStart (t : Nat) (u : TxUnit)
  | defectSetExpiry (path : Bool) (n b : Nat)
  | defectClrExpiry (path : Bool) (n b : Nat)
  | integTimeConfig (sess e : Nat) (path : Bool) (w : Word)
  | bipWindowEnd (e : Nat) (sd : Bool)
  | sfSdWindowConfig (sess e k : Nat) (w : Word)
  | pmSecondEnd (e : Nat)
  | pmSecondCounted (e : Nat)
  | apsGroupEnable (sess h : Nat) (w : Word)
  | apsGroupDisable (sess h : Nat) (w : Word)
  | apsMemberWrite (sess h : Nat) (w : Word)
  | lockout (sess h chan : Nat)
  | forceSwitch (sess h chan : Nat)
  | manual (sess h chan : Nat)
  | exercise (sess h chan : Nat)
  | clear (sess h chan : Nat)
  | holdoffExpiry (h chan : Nat)
  | wtrExpiry (h : Nat)
  | fopDeclare (h : Nat)
  | selectorChange (h : Nat)
  | deskewFrame (h path time : Nat) (octets : List Byte)
  | deskewNoMatch (h : Nat)
  | rebaseDone (h : Nat)
  | stallPush (x : EbRead)
  | stallPop (e : Nat) (flips : List Byte) (side : Nat)
  | lossEpisodeEnd (e : Nat)
  | baleFlushTimeout (r : Nat)
  | baleWriteReply (r seq : Nat) (ok : Bool)
  | pendingBaleRetry (r : Nat)
  | termHoldExpiry (cb i : Nat)
  | globalTriggerLine (n : Nat)
  | combinerEnable (sess e : Nat) (w : Word)
  | hostTrigger (sess e bits : Nat)
  | clearFired (sess e : Nat)
  | timeCompareArm (sess e : Nat) (w : Word)
  | timeCompareFire (k : Nat)
  | regionEnable (sess e : Nat) (w : Word)
  | regionDisable (sess e : Nat) (w : Word)
  | arm (sess e : Nat) (w : Word)
  | stop (sess e : Nat) (w : Word)
  | readoutAck (a : Ack)
  | readoutResendTimeout (num : Nat)
  | patternRegionEnable (sess e : Nat) (w : Word)
  | patternRegionDisable (sess e : Nat) (w : Word)
  | push (sess e : Nat) (w : Word)
  | flush (sess e sub : Nat)
  | abort (sess e sub : Nat)
  | injStop (sess e : Nat)
  | entryReady (e sub : Nat)
  | scriptLaunch (e sub t sent : Nat)
  | patternReadReply (e sub a n : Nat) (ces ues : List Nat)
  | injectArm (sess e : Nat) (w : Word)
  | yardRequest (m tag : Nat) (write : Bool) (code a len : Nat) (data : List Byte)
  | yardGrant (p : Nat)
  | yardReply (m tag : Nat) (ces ues : List Nat) (remote : List Byte)
  | lockedRead (m tag code a len : Nat)
  | writeUnlock (m tag a : Nat) (data : List Byte)
  | lockTimeout (p : Nat)
  | yardTimeout (m tag : Nat)
  | fenceGraceEnd (p : Nat)
  | fenceEnd (p : Nat)
  | scrubBlock (st pc blk err : Nat)
  | scrubPassEnd (st : Nat)
  | migrationCopy (st : Nat)
  | migrationComplete (st : Nat)
  | ptpMessageRx (m : PtpMsg)
  | announceReceiptTimeout
  | ptpMessageTx (k : PtpTx)
  | ppsLoss (p : Nat)
  | ref10mLock (p : Nat) (f : Int)
  | refLoss (p : Nat)
  | step (sess : Nat)
  | stepMeas (sess : Nat)
  | set (sess : Nat)
  | hold (sess : Nat)
  | release (sess : Nat)
  | catchupDone
  | timeUnitEnable (sess : Nat) (w : Word)
  | timeUnitDisable (sess : Nat) (w : Word)
  | tpEdge (p frac width : Nat)
  | ppsOutPulse (p : Nat)
  | triggerOutArm (sess p : Nat) (w : Word)
  | triggerOutFire (p : Nat)
  | tpEnable (sess p : Nat) (w : Word)
  | hostLinkChange (p : Nat) (up : Bool)
  | hostAddressAnswer (p : Nat) (k : HostFrame)
  | fenenePacketDrop (p : Packet)
  | requestHold (h : Hdr) (r : Req)
  | requestDuplicate (h : Hdr) (r : Req)
  | sessionIdleTimeout (n : Nat)
  | hello (h : Hdr)
  | sessionOpen (h : Hdr) (role hostKey nonce : Nat) (sigOk : Bool)
  | sessionClose (h : Hdr)
  | regRead (h : Hdr) (addr : Nat)
  | regWrite (h : Hdr) (addr width value : Nat)
  | regReadBlock (h : Hdr) (addr count : Nat)
  | regWriteBlock (h : Hdr) (addr bytes : Nat) (values : List Nat)
  | regModify (h : Hdr) (addr width mask value : Nat)
  | portConfig (h : Hdr) (lane cfg rate tx : Nat) (ppm quad : Option Nat) (enable : Nat)
  | channelConfig (h : Hdr) (engine : Nat) (images : List (Option Nat)) (enable : Nat)
  | tribMap (h : Hdr) (entries : List TribEntry)
  | apsCommand (h : Hdr) (engine cmd chan : Nat)
  | deskewConfig (h : Hdr) (engine base size : Nat)
  | huntControl (h : Hdr) (engine action : Nat) (index : Option Nat)
  | captureArm (h : Hdr) (region : Nat)
  | captureStop (h : Hdr) (region : Nat)
  | captureReadout (h : Hdr) (region first count burst port : Nat)
  | regionConfig (h : Hdr) (kind region cfg : Nat) (src : Option Nat) (base size : Nat) (pre post : Option Nat)
  | patternLoad (h : Hdr) (region offset : Nat) (data : List Byte) (complete : Option Nat)
  | patternQueue (h : Hdr) (engine region sub fstart : Nat) (time : Option Nat)
  | injectError (h : Hdr) (engine : Nat) (record : List Byte) (count every : Nat) (time : Option Nat)
  | timeSet (h : Hdr) (value : Nat)
  | timeStep (h : Hdr) (ticks : Option Int) (measured : Option Nat)
  | eventRead (h : Hdr) (from_ : Option Nat) (max : Nat)
  | counterSnapshot (h : Hdr) (addr len : Nat)
  | fwStage (h : Hdr) (kind offset : Nat) (data : List Byte) (final : Option Nat) (verdict : Verdict)
  | fwActivate (h : Hdr)
  | attest (h : Hdr) (nonce : List Byte) (report part : Nat)
  | ledgerRead (h : Hdr) (first count : Nat)
  | spareSubstitute (h : Hdr) (kind old : Nat) (new : Option Nat)
  | tandemJoin (h : Hdr) (role minLanes : Nat)
  | tandemSplit (h : Hdr)
  | gatehouseStatus (h : Hdr)
  | failoverRequest (h : Hdr)
  | registerWrite (sess addr : Nat) (w : Word)
  | rcRegisterRead (sess addr : Nat)
  | glbLockWrite (sess : Nat) (w : Word)
  | engineEnable (sess e : Nat) (w : Word)
  | engineDisable (sess e : Nat) (w : Word)
  | engineReset (sess e : Nat) (w : Word)
  | engineResetDone (e : Nat)
  | clusterPowerDown (sess c : Nat)
  | clusterPowerUp (sess c : Nat)
  | heartbeat
  | heartbeatMiss
  | fatalError
  | takeoverResume (t : TakeIn)
  | takeoverFail (fault : Bool)
  | gatehouseAnswer (h : Hdr) (r : Req)
  | checkpointWrite (fail : Bool)
  | replacedResetEnd
  | selfTestDone (pass : Bool)
  | tandemLaneUp (n : Nat)
  | tandemLaneDown (n fails : Nat)
  | tandemHandshake (unit fw : Nat) (follower : Bool) (minLanes : Nat)
  | joinTimeout
  | splitHoldEnter
  | forwardedReply (n : Nat) (r : PeerReply)
  | tdmCfgWrite (sess : Nat) (w : Word)
  | tdmXmemberWrite (sess : Nat) (w : Word)
  | uidBurn (sess newId : Nat)
  | ledgerBurnDone
  | understudyStart (k : Nat)
  | understudyPass (k : Nat)
  | understudySkip (k : Nat)
  | understudyMismatch (k : Nat)
  | voteEnd (k : Nat) (v : Vote)
  | cutover (old : Nat)
  | subTimeout (old lost : Nat)
  | failoverPacketHold (p : Packet)
deriving DecidableEq, Repr

end Sys2Proof
end

