-- ==== Sys2Proof/Config.lean ====
section
/-! DEFINITION. What the spec leaves open.  A free value has no body, so nothing can be proved about
which value it is; `State` holds the counter that picks a fresh one (log entry 1). -/

namespace Sys2Proof.Config

/-- The free value number `n` of width `w`: a value the hardware produces and the spec does not
state (log entry 1). -/
opaque freeValue : (w : Nat) → Nat → BitVec w

end Sys2Proof.Config
end

