-- ==== Sys2Proof/Machine/State.lean ====
section
/-! DEFINITION. The state of the device as plain data: every register, queue, buffer, counter, timer
and pin state the spec gives it, the queue of waiting commands, and `State.reset`, the device at the
instant power is applied (the bring-up of R382 then runs by BLOCK_READY commands). -/

namespace Sys2Proof.Machine

/-! ## Sparse tables -/

/-- A sparse table in canonical form: keys strictly rising, and no entry equal to what an unlisted
key reads as. -/
abbrev SMap (α : Type) := List (Nat × α)

namespace SMap

/-- The entry of `k`, or `d` where the table lists none. -/
def get {α : Type} (d : α) : SMap α → Nat → α
  | [], _ => d
  | (k', v) :: m, k => if k' = k then v else get d m k

/-- Drops every entry of `k`. -/
def erase {α : Type} : SMap α → Nat → SMap α
  | [], _ => []
  | (k', v) :: m, k => if k' = k then erase m k else (k', v) :: erase m k

/-- Puts `v` at `k`, keeping the keys in order. -/
def insert {α : Type} (k : Nat) (v : α) : SMap α → SMap α
  | [] => [(k, v)]
  | (k', v') :: m =>
    if k < k' then (k, v) :: (k', v') :: m
    else if k' = k then (k, v) :: m
    else (k', v') :: insert k v m

/-- Writes `v` at `k`; writing what an unlisted key reads as drops the entry. -/
def put {α : Type} [DecidableEq α] (d : α) (m : SMap α) (k : Nat) (v : α) : SMap α :=
  if v = d then erase m k else insert k v m

/-- The keys are strictly rising from above `lo`, and no entry equals the default. -/
def wfFrom {α : Type} [DecidableEq α] (d : Nat → α) : Option Nat → SMap α → Bool
  | _, [] => true
  | lo, (k, v) :: m =>
    (match lo with | none => true | some l => decide (l < k)) && decide (v ≠ d k) && wfFrom d (some k) m

/-- The canonical form, for a table whose unlisted key `k` reads as `d k`. -/
def wf {α : Type} [DecidableEq α] (d : Nat → α) (m : SMap α) : Bool := wfFrom d none m

end SMap

/-! ## Registers -/

/-- The register blocks of R294, and the indexed objects reached through a register of theirs. -/
inductive Blk where
  | glb | svc | led | yrd | tim | hst | pav | gth | tdm | eng | lane | trb | tp
  | rgn | comb | tcmp | mat | prgn | obyte | tslot | seqStep | msi | xmem | stack | pc | yport | slot
deriving DecidableEq, Repr

/-- The number of a block, used in a register's key. -/
def Blk.code : Blk → Nat
  | .glb => 0 | .svc => 1 | .led => 2 | .yrd => 3 | .tim => 4 | .hst => 5 | .pav => 6 | .gth => 7
  | .tdm => 8 | .eng => 9 | .lane => 10 | .trb => 11 | .tp => 12 | .rgn => 13 | .comb => 14
  | .tcmp => 15 | .mat => 16 | .prgn => 17 | .obyte => 18 | .tslot => 19 | .seqStep => 20
  | .msi => 21 | .xmem => 22 | .stack => 23 | .pc => 24 | .yport => 25 | .slot => 26

/-- A register: its block, the index of the engine, lane window, context or object, and its offset
within the alias period (R296). -/
structure RegId where
  blk : Blk
  idx : Nat
  off : Nat
deriving DecidableEq, Repr

/-- The key of a register in the register table. -/
def RegId.key (r : RegId) : Nat := r.blk.code * 2 ^ 48 + r.idx % 2 ^ 36 * 2 ^ 12 + r.off % 2 ^ 12

/-- One row of a register table of the spec: offset, access masks (R9) and reset value (R11). -/
structure Row where
  off   : Nat
  rw    : Nat
  cd    : Nat
  w1c   : Nat
  rc    : Nat
  wo    : Nat
  ot    : Nat
  ro    : Nat
  reset : Nat
deriving DecidableEq, Repr

/-! ## Outcomes of requests, events -/

/-- The status codes of R278. -/
inductive Status where
  | ok | badOpcode | badParam | badAlign | decodeError | sessionReset | busy | notPermitted
  | notReady | notAppliedEnabled | locked | lockTimeout | targetReset | indeterminate
  | unavailable | poisoned | tandemSplit | stepRefused | ledgerFull | noSpare | authFail
  | signatureFail | rollback | tooLate
deriving DecidableEq, Repr

/-- The numeric code of a status (R278). -/
def Status.code : Status → Nat
  | .ok => 0x00 | .badOpcode => 0x01 | .badParam => 0x02 | .badAlign => 0x03 | .decodeError => 0x04
  | .sessionReset => 0x05 | .busy => 0x06 | .notPermitted => 0x07 | .notReady => 0x08
  | .notAppliedEnabled => 0x09 | .locked => 0x0A | .lockTimeout => 0x0B | .targetReset => 0x0C
  | .indeterminate => 0x0D | .unavailable => 0x0E | .poisoned => 0x0F | .tandemSplit => 0x10
  | .stepRefused => 0x11 | .ledgerFull => 0x12 | .noSpare => 0x13 | .authFail => 0x14
  | .signatureFail => 0x15 | .rollback => 0x16 | .tooLate => 0x17

/-- One entry of the event log (R281, R282); `ext` is bytes 24-39 read as one big-endian number. -/
structure Event where
  seq  : Nat
  src  : Nat
  time : Nat
  code : Nat
  ctx  : Nat
  det  : Nat
  ext  : Nat
deriving DecidableEq, Repr

/-- The event log: the number of the next entry (GLB_EVENT_SEQ, R27) and the entries held, the
newest first, at most 65,536. -/
structure EvLog where
  next    : Nat
  entries : List Event
deriving DecidableEq, Repr

/-- One Fenene reply (R265, R283): header fields and parameter TLVs. -/
structure Reply where
  session   : Nat
  seq       : Nat
  opcode    : Nat
  status    : Status
  attn      : Nat
  gatehouse : Bool
  tandem    : Bool
  params    : List (Nat × List Byte)
deriving DecidableEq, Repr

/-- What the device sent or answered in the last command (a field of the model's own, log entry 3). -/
inductive Out where
  | answer (status : Status) (value : Option Word)
  | reply (r : Reply) (port udp : Nat) (packet : List Byte)
  | burst (port udp session seq stream index : Nat) (last truncated : Bool) (bales packet : List Byte)
  | ptp (port kind : Nat) (fields : List Int)
  | hostFrame (port kind : Nat)
  | pulse (port time width : Nat)
  | mmb (bus : Nat) (write : Bool) (offset : Nat) (data : List Byte)
  | octets (engine : Nat) (data : List Byte)
  | lane (n : Nat) (freq : Int) (data : List Byte)
  | container (ctx ptr just : Nat) (data : List Byte)
  | slip (ctx : Nat) (octets : Int)
  | stallWord (engine : Nat) (data : List Byte)
  | yard (master tag : Nat) (status : Status) (data : List Byte) (marks : List Nat)
deriving DecidableEq, Repr

/-! ## Memory (R207) -/

/-- The bytes of the Yard's memories in canonical form, the 32-byte ECC blocks that hold a
correctable error and those that hold an uncorrectable one (R224, R225).  A block is numbered by its
Yard address divided by 32. -/
structure Mem where
  bytes : List Host.Cell
  ce    : List Nat
  ue    : List Nat
deriving DecidableEq, Repr

/-! ## Line lanes (chapter 2) -/

/-- A lane's receiver, detector, calibration and transmit clock (R31-R45, R417).  `since` is the core
cycle of the last change of the raw condition (or of the enable); `meas` is the last frequency measured
while a signal was present, `txHold` the frequency held in transmit-clock holdover, `slewFrom` the core
cycle at which the slew back began, and `loop` the octets that a near-end loopback has carried to the
receiver and that no word has taken yet (R45). -/
structure Lane where
  ready    : Bool
  calBusy  : Bool
  trans    : Bool
  freq     : Int
  lock     : Bool
  present  : Bool
  since    : Nat
  los      : Bool
  meas     : Int
  txHold   : Option Int
  slewFrom : Option Nat
  loop     : List Byte
deriving DecidableEq, Repr

/-- A lane before calibration, without a signal. -/
def Lane.init : Lane :=
  ⟨false, false, false, 0, false, false, 0, false, 0, none, none, []⟩

/-- A module-management bus (R50): the running transaction and the core cycle at which it began. -/
structure Mmb where
  busy   : Bool
  write  : Bool
  offset : Nat
  length : Nat
  start  : Nat
deriving DecidableEq, Repr

/-- A bus with no transaction. -/
def Mmb.init : Mmb := ⟨false, false, 0, 0, 0⟩

/-! ## The run-ahead hunter (chapter 3) -/

/-- The hunter's state (R60). -/
inductive HSt where
  | oof | ambiguous | inFrame
deriving DecidableEq, Repr

/-- A live candidate (R56): its stream, the bit position of its next expected check window, its
count, the Device Time and bit position of its first sighting, the logical lane number it
carried at its first sighting on an OTL lane (R75), and the stamp of the last window that matched. -/
structure Cand where
  stream : Nat
  next   : Nat
  count  : Nat
  time   : Nat
  first  : Nat
  laneId : Nat
  seen   : Nat
deriving DecidableEq, Repr

/-- The entry of a table that holds no candidate. -/
def Cand.init : Cand := ⟨0, 0, 0, 0, 0, 0, 0⟩

/-- One bit stream that the hunter searches: one for a lane, five on OTL4.4 (R74).  `nb` is how many bits
it has received, `hist` the last of them, `base` the first bit after the last mark; `decl` is the next
expected window of the declared alignment and `declT` the stamp of the last one; `lead` the entry of the
leading candidate (R65), `forced` the entry that FORCE named. -/
structure HStream where
  nb     : Nat
  base   : Nat
  hist   : Nat
  st     : HSt
  decl   : Option Nat
  declT  : Nat
  errRun : Nat
  laneId : Option Nat
  lead   : Option Nat
  forced : Option Nat
deriving DecidableEq, Repr

/-- A stream at the start of a search. -/
def HStream.init : HStream := ⟨0, 0, 0, .oof, none, 0, 0, none, none, none⟩

/-- A word in the 512-octet hold of R55: its 32 bits, its stamp (R19), the bit position of its first bit,
and whether it arrived poisoned (R14). -/
structure HWord where
  bits   : Nat
  stamp  : Nat
  pos    : Nat
  poison : Bool
deriving DecidableEq, Repr

/-- The alignment that the stages behind the hunter run on (R66): a frame start that is its origin, the
first bit of framed output, and from which bit the octets are confirmed. -/
structure Align where
  origin : Nat
  start  : Nat
  conf   : Option Nat
deriving DecidableEq, Repr

/-- A channel engine's run-ahead hunter and the descrambler behind it.  No streams means IDLE.  `since` is
the core cycle of the last change between IN_FRAME and OOF (R63); `logged` that the search episode of
R58 has logged its HUNT_OVERFLOW; `prev` the word that left the hold last; `outAt` the bit position of
the next octet to leave; `last4` the last confirmed or tentative payload octets (R171), `lastN` how many
there are and `lastC` how many of the newest are confirmed; `pmat` the pattern matchers in force; `groupIn` and `groupErr` the OTL group's verdict (R76, R77), `groupTent`
that it has tentative output (R78). -/
structure Hunter where
  streams  : List HStream
  cands    : SMap Cand
  bits     : Nat
  lof      : Bool
  since    : Nat
  logged   : Bool
  align    : Option Align
  held     : List HWord
  prev     : Option HWord
  outAt    : Nat
  lastOut  : Nat
  scr      : Nat
  last4    : Nat
  lastN    : Nat
  lastC    : Nat
  pmat     : List (Nat × Nat)
  groupIn  : Bool
  groupErr : Bool
  groupTent : Bool
  k3       : Bool
deriving DecidableEq, Repr

/-- A hunter in IDLE. -/
def Hunter.init : Hunter :=
  ⟨[], [], 0, false, 0, false, none, [], none, 0, 0, 0, 0, 0, 0, [], false, false, false, false⟩

/-! ## Capture (chapter 7) -/

/-- What a Stall word carries besides octets: data, or a token that rides through the elastic buffer
and the Stall in the sub-channel's order (R159, R70, R71, R393). -/
inductive Token where
  | data
  | gap (lost first last cause : Nat)
  | retract (reason stamp : Nat)
  | confirm
  | subst (old new slot stamp : Nat)
deriving DecidableEq, Repr

/-- One Stall word (R155): up to 32 octets of one sub-channel, the tags of the sideband, whether the unit was in
tandem split hold, its place in the order of an OTL group's line (R162), and the two parity bits.  `tags` gives each
octet's own stamp and position (R165, R168). -/
structure SWord where
  sub    : Nat
  octets : List Byte
  tags   : List (Nat × Nat)
  tent   : Bool
  resync : Bool
  poison : Bool
  brk    : Bool
  split  : Bool
  token  : Token
  ord    : Nat
  par0   : Bool
  par1   : Bool
deriving DecidableEq, Repr

/-- Octets a sub-channel has lost in the running loss episode (R159). -/
structure Loss where
  sub   : Nat
  lost  : Nat
  first : Nat
  last  : Nat
  tent  : Bool
deriving DecidableEq, Repr

/-- The capture side of a channel engine: the elastic buffer and the Stall (oldest first), their
peaks, the running loss episode, and the core cycle of the last push (R156).  Of the head of an OTL group: the next
place in the order of the group's line, the bale its tap forms and the octets in it (R162). -/
structure Cap where
  eb      : List SWord
  ebPeak  : Nat
  stall   : List SWord
  stlPeak : Nat
  losing  : Bool
  losses  : List Loss
  brks    : List (Nat × Bool)
  pushed  : Option Nat
  ord     : Nat
  bale    : Nat
  inBale  : Nat
deriving DecidableEq, Repr

/-- Empty capture buffers. -/
def Cap.init : Cap := ⟨[], 0, [], 0, false, [], [], none, 0, 0, 0⟩

/-- The tag of an octet in an open bale: its stamp, its position, and whether it is poisoned. -/
structure OTag where
  stamp  : Nat
  pos    : Nat
  poison : Bool
deriving DecidableEq, Repr

/-- The bale a writer has open for a region (R160): its octets with their tags, its flags, the place of the trigger
octet, and the core cycle at which it was opened. -/
structure OpenBale where
  octets   : List Byte
  tags     : List OTag
  flags    : Nat
  trigPos  : Nat
  opened   : Nat
deriving DecidableEq, Repr

/-- A closed bale: the fields of its header (R163) and its payload. -/
structure Bale where
  seq     : Nat
  time    : Nat
  flags   : Nat
  engine  : Nat
  pos     : Nat
  trigPos : Nat
  pmap    : Nat
  payload : List Byte
deriving DecidableEq, Repr

/-- A bale whose write is not complete (R180, R181, R222).  `sent` is a write in flight; one that is not
is pending.  `fold` marks a GAP bale whose fold is open, with `lost` octets between the stamps `first`
and `last`; `marker` a bale that is never folded. -/
structure BaleWr where
  bale   : Bale
  sent   : Bool
  marker : Bool
  fold   : Bool
  folded : Bool
  lost   : Nat
  first  : Nat
  last   : Nat
deriving DecidableEq, Repr

/-- The states of a capture region (R178). -/
inductive RSt where
  | idle | pre | armed | post | pinned | stopped
deriving DecidableEq, Repr

/-- A capture region's ring (R177-R181).  `next` is the next SEQ to be given, `done` counts the bales
whose own and all earlier writes have completed, `acc` the later ones completed out of order, and
`first` the first held SEQ.  `trigs` are the firings whose octet has not come yet, and `mark` one that the next bale
to be opened carries because its octet was written before (R174); `ordNext` and `waits` put the words of an OTL
group's line back into order (R162). -/
structure Rgn where
  st       : RSt
  armT     : Nat
  next     : Nat
  done     : Nat
  acc      : List Nat
  first    : Nat
  open_    : Option OpenBale
  q        : List BaleWr
  trigs    : List (Nat × Bool)
  mark     : Option Bool
  trigSeq  : Nat
  trigged  : Bool
  late     : Bool
  trigTent : Bool
  shortPre : Bool
  tent0    : Option Nat
  lastStamp : Nat
  resync   : Bool
  ordNext  : Nat
  waits    : List SWord
deriving DecidableEq, Repr

/-- A region in IDLE. -/
def Rgn.init : Rgn :=
  ⟨.idle, 0, 0, 0, [], 0, none, [], [], none, 0, false, false, false, false, none, 0, false, 0, []⟩

/-- A combiner of a cluster (R172): how long each event term holds true and with which T, what the result was, and
the last core cycle in which it is known to have been true. -/
structure Comb where
  fired  : Bool
  tent   : Bool
  occ    : Nat
  result : Bool
  until_ : List Nat
  termT  : List Nat
  termTent : List Bool
  last   : Option Nat
deriving DecidableEq, Repr

/-- A combiner at reset. -/
def Comb.init : Comb := ⟨false, false, 0, false, [0, 0, 0, 0], [0, 0, 0, 0], [false, false, false, false], none⟩

/-- A firing on its way over a global trigger line (R172): line, T, tentative, and the core cycle at
which every cluster sees it. -/
structure LineFire where
  line : Nat
  t    : Nat
  tent : Bool
  due  : Nat
deriving DecidableEq, Repr

/-- The capture writer of a cluster (R160): the Stall its round-robin looks at next, and the core cycle of its last
pop with the Stalls it popped in that cycle. -/
structure Writer where
  next   : Nat
  cycle  : Nat
  popped : List Nat
deriving DecidableEq, Repr

/-- A writer at reset. -/
def Writer.init : Writer := ⟨0, 0, []⟩

/-! ## The Yard and the Hayloft (chapter 9) -/

/-- What a Yard transaction does (R211, R217). -/
inductive TKind where
  | read | write | lockRead | unlock
deriving DecidableEq, Repr

/-- The traffic classes of R213. -/
inductive TClass where
  | rt | cap | gen
deriving DecidableEq, Repr

/-- An outstanding transaction of a master (R216): where it goes, what it carries, when it was asked
for, when it was granted, and the answer its target has given while earlier replies to its master are still to
come: the response, the data and the blocks marked poisoned (R212, R216). -/
structure Txn where
  master : Nat
  tag    : Nat
  kind   : TKind
  cls    : TClass
  addr   : Nat
  len    : Nat
  data   : List Byte
  target : Nat
  asked  : Nat
  grant  : Option Nat
  done   : Option (Status × List Byte × List Nat)
deriving DecidableEq, Repr

/-- A lock on a target port (R217). -/
structure YLock where
  master : Nat
  addr   : Nat
  len    : Nat
  since  : Nat
deriving DecidableEq, Repr

/-- A fence of a target port (R220): its grace period, then its reset. -/
structure Fence where
  since : Nat
  reset : Option Nat
deriving DecidableEq, Repr

/-- The Yard: outstanding transactions in the order asked, the last master granted and the
round-robin places per target, locks per target, the answers that a pending write-unlock of a master
whose lock has ended will get (R218), fences per target, and the ports that a spare stands in for. -/
structure Yard where
  txns   : List Txn
  parked : SMap Nat
  rr     : SMap Nat
  locks  : SMap (Option YLock)
  broken : SMap (Option Status)
  fences : SMap (Option Fence)
  mSub   : Option Nat
  tSub   : SMap (Option Nat)
deriving DecidableEq, Repr

/-- An idle Yard. -/
def Yard.init : Yard := ⟨[], [], [], [], [], [], none, []⟩

/-- A running migration of a logical pseudo-channel (R228). -/
structure Mig where
  lpc   : Nat
  from_ : Nat
  dest  : Nat
  pos   : Nat
  cmd   : Bool
  slot  : Nat
deriving DecidableEq, Repr

/-- A Hayloft stack: readiness, which physical pseudo-channel serves each logical one (R210), the
retired and the worn ones, the running migration, those that wait for it with their ledger reason, and those that
were abandoned, with their reason and whether a fence was the cause (R229). -/
structure Stack where
  ready   : Bool
  map     : List Nat
  retired : List Nat
  worn    : List Nat
  mig     : Option Mig
  waiting : List (Nat × Nat)
  aborted : List (Nat × Nat × Bool)
deriving DecidableEq, Repr

/-- A stack before it is trained, with its reset mapping (R210). -/
def Stack.init : Stack := ⟨false, List.range 30, [], [], none, [], []⟩

/-! ## Defects, performance, protection, deskew (chapter 6) -/

/-- A defect's criterion (R123): whether detection (`some true`) or clearing (`some false`) holds and
since which core cycle, the runs of frames that lead to each, and the core cycle of the last declaration
or clearing (R134). -/
structure DefT where
  crit  : Option Bool
  since : Nat
  det   : Nat
  clr   : Nat
  flip  : Option Nat
deriving DecidableEq, Repr

/-- A criterion that has no value. -/
def DefT.init : DefT := ⟨none, 0, 0, 0, none⟩

/-- A defect: bit `k` of an engine's DEF_STATUS (or 0x80 and above, of DEF_TCM, numbered as R282), or bit
`b` of a context's DEF_PATH_STATUS. -/
inductive DKey where
  | line (e k : Nat)
  | path (ctx b : Nat)
deriving DecidableEq, Repr

/-- The key of a defect in the table of criteria. -/
def DKey.key : DKey → Nat
  | .line e k => e * 4096 + k
  | .path t b => 2 ^ 32 + t * 64 + b

/-- One SF or SD window (R131): frames and errors of the window in progress, windows below CLR, the
WINDOW, SET and CLR it runs with. -/
structure Win where
  frames : Nat
  errs   : Nat
  below  : Nat
  window : Nat
  set    : Nat
  clr    : Nat
deriving DecidableEq, Repr

/-- No window in progress. -/
def Win.init : Win := ⟨0, 0, 0, 0, 0, 0⟩

/-- A second of a performance layer that is not yet counted finally (R135-R137). -/
structure PmSec where
  sec : Nat
  es  : Bool
  ses : Bool
  bbe : Nat
deriving DecidableEq, Repr

/-- A performance layer: blocks checked and errored and a defect in the running second, the seconds
pending, and whether the layer is in an unavailable period. -/
structure PmLayer where
  blocks  : Nat
  errored : Nat
  defect  : Bool
  pend    : List PmSec
  unavail : Bool
deriving DecidableEq, Repr

/-- A layer that has seen nothing. -/
def PmLayer.init : PmLayer := ⟨0, 0, false, [], false⟩

/-- An engine's defect monitor: SF and SD windows and their layer, the performance layers, the running
second and the seconds that wait to be counted, the multiframe state behind LOM and LOOMFI, and the
PN-11 search of OTU-AIS (R127). -/
structure DefMon where
  sf     : Win
  sd     : Win
  layer  : Nat
  pm     : List PmLayer
  sec    : Nat
  waits  : List Nat
  pmCtx  : Nat
  pmCfg  : Nat
  mfas   : Option Nat
  mfBad  : Nat
  mfGood : Nat
  oom    : Option Bool
  omfi   : Option Nat
  omBad  : Nat
  omGood : Nat
  oomfi  : Option Bool
  pn     : Nat
  pnBits : Nat
  pnErrs : Nat
  pnHit  : Nat
  pnMiss : Nat
deriving DecidableEq, Repr

/-- A defect monitor at reset; DEF_SF_WIN.LAYER resets to 1. -/
def DefMon.init : DefMon :=
  ⟨Win.init, Win.init, 1, [PmLayer.init, PmLayer.init, PmLayer.init, PmLayer.init], 0, [], 0, 0,
   none, 0, 0, none, none, 0, 0, none, 0, 0, 0, 0, 0⟩

/-- The states of a protection group (R145). -/
inductive GSt where
  | disabled | nr | switched | wtr | dnr
deriving DecidableEq, Repr

/-- The requests of R140, highest first. -/
inductive PReq where
  | lo | sfP | fs | sfH | sfL | sdH | sdL | ms | wtr | exer | rr | dnr | nr
deriving DecidableEq, Repr

/-- A request for a channel. -/
structure ReqCh where
  req  : PReq
  chan : Nat
deriving DecidableEq, Repr

/-- A hold-off timer of a channel (0 is protect): for SD or SF, and the core cycles at which it began
and at which it expires (R143). -/
structure HoldOff where
  chan  : Nat
  sd    : Bool
  due   : Nat
deriving DecidableEq, Repr

/-- A protection group, at its host engine: its state and the request it serves, the stored command,
the SF and SD conditions seen and raised per channel, hold-off and WTR timers, the accepted received
value, what it transmits, the selector and a decided change of it. -/
structure Group where
  st      : GSt
  served  : Option (ReqCh × Bool)
  cmd     : Option ReqCh
  sfSeen  : List Nat
  sdSeen  : List Nat
  sfUp    : List Nat
  sdUp    : List Nat
  holds   : List HoldOff
  wtrDue  : Option Nat
  rx      : Option Nat
  top     : ReqCh
  tx      : ReqCh
  bridged : Nat
  sel     : Nat
  next    : Option Nat
  fopFrom : Option Nat
  fop     : Bool
  mm      : Bool
  ever    : Bool
deriving DecidableEq, Repr

/-- A disabled group. -/
def Group.init : Group :=
  ⟨.disabled, none, none, [], [], [], [], [], none, none, ⟨.nr, 0⟩, ⟨.nr, 0⟩, 0, 0, none, none, false,
   false, false⟩

/-- A frame's signature in the deskew engine (R148): its start stamp and CRC-32. -/
structure Sig where
  time : Nat
  crc  : Nat
deriving DecidableEq, Repr

/-- A frame in a delay line (R148): its path, 0 working and 1 protect, its start stamp, and where its octets lie. -/
structure DFrame where
  path : Nat
  time : Nat
  at_  : Nat
  len  : Nat
deriving DecidableEq, Repr

/-- The deskew engine's part of a group (R148-R154): the signatures of the working and the protect path,
newest first, the measured delay, the delay each path is given, a re-base that runs and ends at a
core cycle, the run of aligned frame pairs that differ, the frames in the delay line, oldest first, how many each
path has written there, and the output time of the last frame that the selected stream took. -/
structure Dsk where
  sigW   : List Sig
  sigP   : List Sig
  delay  : Int
  lagW   : Nat
  lagP   : Nat
  rebase : Option Nat
  miss   : Nat
  from_  : Nat
  line   : List DFrame
  nW     : Nat
  nP     : Nat
  out    : Nat
deriving DecidableEq, Repr

/-- Deskew off. -/
def Dsk.init : Dsk := ⟨[], [], 0, 64000, 64000, none, 0, 0, [], 0, 0, 0⟩

/-! ## Overhead and tributary contexts (chapters 4 and 5) -/

/-- A value seen in a row, and how often (R89, R91, R106, R115). -/
structure Seen where
  val : Nat
  n   : Nat
deriving DecidableEq, Repr

/-- Nothing seen. -/
def Seen.init : Seen := ⟨0, 0⟩

/-- A trace slot: its three buffers, the message being assembled and whether its alignment is known, the last
whole message and its run (R88, R89), and the place in the transmitted message. -/
structure Trace where
  exp   : List Byte
  acc   : List Byte
  tx    : List Byte
  part  : List Byte
  sync  : Bool
  last  : List Byte
  run   : Nat
  txAt  : Nat
  txNow : List Byte
deriving DecidableEq, Repr

/-- A trace slot at reset: buffers of zeros. -/
def Trace.init : Trace :=
  ⟨List.replicate 64 0, List.replicate 64 0, List.replicate 64 0, [], false, [], 0, 0, []⟩

/-- The states of the PRBS-31, PRBS-23 and PRBS-15 generators at reset (log entry 16). -/
def prbsInit : List Nat := [0x7FFFFFFF, 0x7FFFFF, 0x7FFF]

/-- An engine's overhead processor: the last confirmed frame, the BIPs over the frames before the next
one (none where they were not processed in full, R67), its multiframe count (R91), the persistence
runs, the error counts of the last frame checked (R86), the applied byte entries (R93), and the
transmit side's own BIPs and multiframe count, the octets of the frame being sent, the states of its PRBS
generators (R192), and the core cycles of the COMMITs that wait for a frame start (R93). -/
structure Ohp where
  frame   : List Byte
  b1      : Option Nat
  b2      : Option (List Nat)
  opu1    : Option Nat
  opu2    : Option Nat
  mf      : Option Nat
  omf     : Option Nat
  aps     : Seen
  apsAcc  : Bool
  s1      : Seen
  pt      : Seen
  labAcc  : Bool
  msi     : SMap Seen
  msiAcc  : SMap Nat
  rei     : List Nat
  applied : SMap Nat
  txMf    : Nat
  txOmf   : Nat
  txB1    : Nat
  txB2    : List Nat
  txOpu1  : Nat
  txOpu2  : Nat
  txNow   : List Byte
  prbs    : List Nat
  commit  : List Nat
deriving DecidableEq, Repr

/-- An overhead processor at reset. -/
def Ohp.init : Ohp :=
  ⟨[], none, none, none, none, none, none, Seen.init, false, Seen.init, Seen.init, false, [], [],
   [], [], 0, 0, 0, [], 0, 0, [], prbsInit, []⟩

/-- The states of a pointer interpreter (R106). -/
inductive PtrSt where
  | inactive | acquire | norm | lop | ais | parentFail
deriving DecidableEq, Repr

/-- The code of TRB_STATUS.PTR_STATE. -/
def PtrSt.code : PtrSt → Nat
  | .inactive => 0 | .acquire => 1 | .norm => 2 | .lop => 3 | .ais => 4 | .parentFail => 5

/-- A pointer interpreter (R105, R106) or a concatenation position's (R108): state, accepted pointer,
the runs of R106, and the periods since the last accepted adjustment or new pointer (to 3). -/
structure Ptr where
  st    : PtrSt
  ptr   : Nat
  same  : Seen
  newp  : Seen
  bad   : Nat
  inv   : Nat
  ndf   : Nat
  acq   : Nat
  ais   : Nat
  gap   : Nat
deriving DecidableEq, Repr

/-- An interpreter in INACTIVE. -/
def Ptr.init : Ptr := ⟨.inactive, 0, Seen.init, Seen.init, 0, 0, 0, 0, 0, 3⟩

/-- A pointer sequence program that runs (R112): the step, the repetitions made, the pointer periods
still to wait, and a stop asked for. -/
structure SeqRun where
  step : Nat
  reps : Nat
  wait : Nat
  stop : Bool
deriving DecidableEq, Repr

/-- A tributary context: its interpreter and concatenation positions, their working copies (R97), the last valid Cm
and its working copy (R117), the justification that the next opportunity carries (1 positive, 2 negative) and the octets still to skip, the place
of the next octet in the container's span or in the justification multiframe, the place in an ODUj frame, the octets
of the container that has begun (R119), the label run, the MSI verdict, multiframe tracking (`h4` to `oom`: of H4, or of an ODUj's own MFAS, whose last value is
`mfLast` and whose running count is `h4`), the last two confirmed containers, how many there were, and BIPs over them, the error
counts to send back, and the transmit generator (R109-R113, R118) with the pointer word or justification bytes
it sends, the number of its source's container that it takes next and the one it sent last (R111), the pointer edits of a script and
of an injection that wait for it and the overhead edits of the next container (R195, R204). -/
structure Ctx where
  ptr    : Ptr
  conc   : List Ptr
  wptr   : Ptr
  wconc  : List Ptr
  cm     : Nat
  wcm    : Nat
  just   : Nat
  skip   : Nat
  at_    : Option Nat
  odu    : Option Nat
  part   : Option (List Byte)
  lab    : Seen
  labVal : Option Nat
  labNew : Bool
  msim   : Bool
  h4     : Option Nat
  h4Bad  : Nat
  h4Good : Nat
  oom    : Bool
  mfLast : Option Nat
  msi    : SMap Seen
  msiAcc : SMap Nat
  unit   : List Byte
  unit0  : List Byte
  units  : Nat
  bip1   : Option Nat
  bip2   : Option Nat
  rei    : Nat
  txPtr  : Nat
  txGap  : Nat
  txJc   : List Nat
  took   : Nat
  lastC  : List Byte
  seq    : Option SeqRun
  edit   : Option Nat
  edit2  : Option Nat
  oh     : List (Nat × Nat × Nat)
  fill   : Int
  ppm    : Int
  src    : Nat
  txBip1 : Nat
  txBip2 : Nat
  txMf   : Nat
  prbs   : List Nat
deriving DecidableEq, Repr

/-- A context at reset. -/
def Ctx.init : Ctx :=
  ⟨Ptr.init, [], Ptr.init, [], 0, 0, 0, 0, none, none, none, Seen.init, none, false, false, none, 0, 0, false, none, [], [], [], [], 0,
   none, none, 0, 0, 3, [], 0, [], none, none, none, [], 0, 0, 0, 0, 0, 0, prbsInit⟩

/-! ## Pattern generation (chapter 8) -/

/-- A queue entry (R196): pattern region, sub-channel, launch time if timed, FRAME_START, whether
its first segment has been fetched, whether its launch time passed before (R201), and whether its header or edit
records came back poisoned (R205). -/
structure QEntry where
  rgn    : Nat
  sub    : Nat
  time   : Option Nat
  fstart : Bool
  ready  : Bool
  missed : Bool
  bad    : Bool
deriving DecidableEq, Repr

/-- A running script (R191-R202): its region, the segment running and its offset in the region, the
repetition, the pass, the frame within the repetition, whether that frame is being sent, whether it
waits for the launch time of a timed segment, and the Device Time at which the segment was reached. -/
structure Run' where
  sub    : Nat
  rgn    : Nat
  seg    : Nat
  segOff : Nat
  rep    : Nat
  pass   : Nat
  frame  : Nat
  live   : Bool
  wait   : Bool
  since  : Nat
deriving DecidableEq, Repr

/-- An injection (R203): the record held, armed for a time or for the next frame start, the frames
counted since its first edited frame, the frames edited, and INJ_STOP asked for. -/
structure Inj where
  kind   : Nat
  len    : Nat
  tgt    : Nat
  val    : Nat
  count  : Nat
  every  : Nat
  time   : Option Nat
  run    : Bool
  seen   : Nat
  done   : Nat
  stop   : Bool
deriving DecidableEq, Repr

/-- An engine's pattern controller: queue, running scripts, injection, sub-channels whose script ABORT
stops, whether the through source is lost, and the frame store of through mode with the frame it sent last
(R188). -/
structure Pat where
  queue  : List QEntry
  runs   : List Run'
  inj    : Option Inj
  aborts : List Nat
  lost   : Bool
  store  : List (List Byte)
  lastFr : List Byte
  injCnt : Nat
deriving DecidableEq, Repr

/-- A pattern controller at reset. -/
def Pat.init : Pat := ⟨[], [], none, [], false, [], [], 0⟩
/-! ## The repair ledger (chapter 15) -/

/-- A reservation of a ledger slot (R372), its fields coded as R371; `ready` when the substitution has
completed and the slot waits to be burned. -/
structure Resv where
  slot    : Nat
  kind    : Nat
  reason  : Nat
  init    : Nat
  old     : Nat
  new     : Nat
  session : Nat
  time    : Nat
  ready   : Bool
deriving DecidableEq, Repr

/-- A fused slot: its 32 bytes, and whether its CHECK fails (torn). -/
structure LSlot where
  bytes : List Byte
  torn  : Bool
deriving DecidableEq, Repr

/-- An unwritten slot. -/
def LSlot.init : LSlot := ⟨[], false⟩

/-- The repair ledger: the fused slots of 32 bytes, the reservations in the order made, and the core
cycle at which the running burn began. -/
structure Ledger where
  fused : SMap LSlot
  resv  : List Resv
  burn  : Option Nat
deriving DecidableEq, Repr

/-- An empty ledger. -/
def Ledger.init : Ledger := ⟨[], [], none⟩

/-! ## Device Time and the timing ports (chapter 10) -/

/-- The servo's states (R236). -/
inductive TSt where
  | freerun | tracking | holdover | master
deriving DecidableEq, Repr

/-- The code of TIM_STATUS.STATE. -/
def TSt.code : TSt → Nat
  | .freerun => 0 | .tracking => 1 | .holdover => 2 | .master => 3

/-- A clock heard by its Announce messages (R237, R245): its port identity, the fields the best master
clock algorithm compares, its grandmaster, how many Announces count, and the core cycle of the last. -/
structure Foreign where
  src  : Nat
  rank : List Nat
  gm   : Nat
  n    : Nat
  last : Nat
deriving DecidableEq, Repr

/-- A backward catch-up (R251): elapsed ticks still to run, Device Time before the step, and `D`. -/
structure Catchup where
  left   : Nat
  before : Nat
  amount : Int
deriving DecidableEq, Repr

/-- The time unit.  `causes` are the holdover causes in force and `cause` the last one (HOLD_CAUSE);
`frac` the fraction of Device Time in 2^-32 tick; `freq` the frequency estimate or held frequency in 0.001
ppm; `phase` what the servo still removes, in 2^-32 tick, at most `slew` ppm at a time; `withheld` the
offsets withheld in a row (R244) and `within` the samples within the threshold in a row; `hist` the
frequency estimates of TRACKING with their core cycles (R248); `mpd` the accepted mean path delay,
`window` the last delay samples and `run` the consistent ones (R246); `lastOut` that the last delay sample
was an outlier; `sync` a two-step Sync that waits for its Follow_Up (identity, sequence, receive stamp,
correction), `pair` the last Sync's send and receive time, `fresh` that it has not been judged; `dreq` the
outstanding delay request (sequence, send stamp) and `presp` the peer's answer (sequence, its receive
time, our receive stamp, correction). -/
structure Tim where
  ready    : Bool
  st       : TSt
  locked   : Bool
  setDone  : Bool
  stepPend : Bool
  pathHold : Bool
  cause    : Nat
  causes   : List Nat
  frac     : Nat
  freq     : Int
  slew     : Nat
  phase    : Int
  back     : Option Catchup
  inRun    : Nat
  outRun   : Nat
  withheld : List Int
  within   : Nat
  hist     : List (Nat × Int)
  mpd      : Option Int
  window   : List Int
  run      : List Int
  lastOut  : Bool
  refLock  : Bool
  ref      : Int
  masters  : List Foreign
  sel      : Option Nat
  annT     : Nat
  sync     : Option (Nat × Nat × Int × Int)
  pair     : Option (Int × Int)
  fresh    : Bool
  dreq     : Option (Nat × Int)
  presp    : Option (Nat × Int × Int × Int)
  txSeq    : List Nat
  txT      : List Nat
deriving DecidableEq, Repr

/-- The time unit before it is ready. -/
def Tim.init : Tim :=
  ⟨false, .freerun, false, false, false, false, 0, [], 0, 0, 100, 0, none, 0, 0, [], 0, [], none, [], [],
   false, false, 0, [], none, 0, none, none, false, none, none, [0, 0, 0], [0, 0, 0]⟩

/-- A timing port (R254-R258).  Times of the input are elapsed quarter nanoseconds: the input inactive
from `idle` on, no report until it has re-armed, the qualified level held until `level`, the last reported
edge, the edge from which the loss of PPS is counted.  `sec` and `off` are the whole second of the next PPS
pulse and its offset; `armed` the trigger time that a trigger out waits for. -/
structure Tp where
  idle  : Nat
  await : Bool
  level : Nat
  rep   : Option Nat
  watch : Option Nat
  ppsOk : Bool
  refOk : Bool
  sec   : Nat
  off   : Int
  armed : Option Nat
deriving DecidableEq, Repr

/-- A timing port at reset. -/
def Tp.init : Tp := ⟨0, false, 0, none, none, false, false, 0, 0, none⟩

/-! ## The host port, sessions and readout streams (chapter 11) -/

/-- An open session (R270-R277): its number and role, the next sequence number E, its event read position
and the core cycle of its last valid request; requests held for later numbers; cached replies, newest first;
whether a loss of state has reset it (R328); and the sequence number of a request whose reply the follower
still owes, with whether repeating it is harmless (R343, R350). -/
structure Session where
  num   : Nat
  owner : Bool
  next  : Nat
  evPos : Nat
  last  : Nat
  held  : List (Hdr × Req)
  cache : List Reply
  reset : Bool
  wait  : Option (Hdr × Bool)
deriving DecidableEq, Repr

/-- A readout stream (R289-R292): the request it belongs to, its region, first SEQ, bales and burst size; the host
port and the UDP port that it is sent to; the next burst to form; bursts kept until acknowledged; the last acknowledgement number, CUM, the core cycle at
which CUM last advanced, resends without progress; the index of the last burst once it is known; and whether it
ended early. -/
structure Stream where
  num     : Nat
  session : Nat
  seq     : Nat
  region  : Nat
  first   : Nat
  bales   : Nat
  per     : Nat
  port    : Nat
  udp     : Nat
  next    : Nat
  kept    : List (Nat × Nat × List Byte)
  ackNo   : Nat
  cum     : Nat
  moved   : Nat
  resends : Nat
  end_    : Option Nat
  trunc   : Bool
deriving DecidableEq, Repr

/-- Valid nonces with the core cycle of their issue (R270), newest first; sessions and streams; the last
session number and stream number given; and the ports whose link is up. -/
structure HostP where
  ready    : Bool
  link     : List Nat
  sessions : List Session
  streams  : List Stream
  nonces   : List (Nat × Nat)
  lastNum  : Nat
  lastStr  : Nat
deriving DecidableEq, Repr

/-- The host port before it is ready. -/
def HostP.init : HostP := ⟨false, [], [], [], [], 0, 0⟩

/-! ## Firmware trust and attestation (chapter 15) -/

/-- A firmware image in a flash slot (R357): version, security version, checkpoint formats it accepts, and
whether its digest and both signatures verify. -/
structure FwImage where
  version : Nat
  svn     : Nat
  ckMin   : Nat
  ckMax   : Nat
  good    : Bool
deriving DecidableEq, Repr

/-- A configuration bundle (R357, R364). -/
structure Bundle where
  bsn   : Nat
  slot  : Nat
  body  : BundleBody
deriving DecidableEq, Repr

/-- The fused settings (R356, R367): unit ID and changes left, anti-rollback counter, revoked owner slots,
the owner key of each slot fused so far, LMS high-water marks in blocks, and the base MAC address. -/
structure Fuses where
  unitId   : Nat
  uidLeft  : Nat
  rollback : Nat
  revoked  : Nat
  keys     : List Nat
  hwm      : List Nat
  mac      : Nat
deriving DecidableEq, Repr

/-- What the flash keeps (R318, R360, R364, R370): both firmware slots, the active and the pending bundle,
spare blocks left and bad blocks, the LMS state records of each tree, and the owner key record (R356). -/
structure Flash where
  slotA  : FwImage
  slotB  : FwImage
  bundle : Option Bundle
  pend   : Option Bundle
  spares : Nat
  bad    : List Nat
  leaf   : List (Option Nat × Option Nat)
  ownKeys : List Nat
deriving DecidableEq, Repr

/-- The staged states of R363. -/
inductive StageSt where
  | none | partial_ | verified | failed
deriving DecidableEq, Repr

/-- The code of LED_STAGE. -/
def StageSt.code : StageSt → Nat
  | .none => 0 | .partial_ => 1 | .verified => 2 | .failed => 3

/-- A staged object: its state and the bytes written so far. -/
structure Stage where
  st    : StageSt
  bytes : SMap Byte
  image : Option FwImage
deriving DecidableEq, Repr

/-- Nothing staged. -/
def Stage.init : Stage := ⟨.none, [], none⟩

/-- Firmware trust and attestation: fuses, flash, the two staged objects, the last leaf of each tree, held
reports newest first, the next report number and the core cycle of the last report. -/
structure Sec where
  fuse    : Fuses
  flash   : Flash
  image   : Stage
  bundle  : Stage
  leaf    : List Nat
  reports : List (Nat × List Byte)
  nextId  : Nat
  lastRep : Option Nat
  bootOk  : Bool
deriving DecidableEq, Repr

/-- The fuses as manufactured, with the values of log entry 2 where the spec gives none. -/
def Fuses.init : Fuses := ⟨1, 8, 0, 0, [0], [0, 0, 0, 0], 0⟩
/-- The flash as manufactured (log entry 2). -/
def Flash.init : Flash :=
  ⟨⟨0x10000, 0, 1, 1, true⟩, ⟨0x10000, 0, 1, 1, true⟩, none, none, 256, [],
   [(some 0, some 0), (some 0, some 0), (some 0, some 0), (some 0, some 0)], [0]⟩

/-- Firmware trust at reset. -/
def Sec.init : Sec := ⟨Fuses.init, Flash.init, Stage.init, Stage.init, [0, 0, 0, 0], [], 1, none, false⟩

/-! ## The Pavilion and the Gatehouse (chapter 13) -/

/-- The command state that a checkpoint covers and a journal entry rebuilds (R320): sessions with their E and
read positions, nonces, staged transfers and reports. -/
structure CmdState where
  sessions : List Session
  nonces   : List (Nat × Nat)
  lastNum  : Nat
  image    : Stage
  bundle   : Stage
  reports  : List (Nat × List Byte)
  nextId   : Nat
  lastRep  : Option Nat
deriving DecidableEq, Repr

/-- A journal entry (R319): index, request, whether it is applied and repeats harmlessly, and the command
state after it. -/
structure Jent where
  idx     : Nat
  hdr     : Hdr
  req     : Option Req
  applied : Bool
  idem    : Bool
  result  : Option CmdState
deriving DecidableEq, Repr

/-- A checkpoint slot (R320). -/
structure Ckpt where
  seq    : Nat
  jidx   : Nat
  sealed : Bool
  state  : Option CmdState
deriving DecidableEq, Repr

/-- The state of the processor that is not active (R317, R329). -/
inductive Stby where
  | ready | preparing | none
deriving DecidableEq, Repr

/-- The code of GTH_STATUS.STANDBY. -/
def Stby.code : Stby → Nat
  | .ready => 0 | .preparing => 1 | .none => 2

/-- The command processors: whether the active one has booted, and whether it has stopped; the active one (0
PA, 1 PB); retired ones, and those that no ledger slot records yet (R331); the standby; the journal, newest first, and its next index; the last applied index;
entries applied since the last seal, and its core cycle; the checkpoint slots; and a loss of state since
reset. -/
structure Pav where
  booted  : Bool
  dead    : Bool
  active  : Nat
  retired : List Nat
  unrec   : List Nat
  stby    : Stby
  jrnl    : List Jent
  head    : Nat
  applied : Nat
  since   : Nat
  sealT   : Nat
  ckpts   : List Ckpt
  loss    : Bool
deriving DecidableEq, Repr

/-- The Pavilion before it boots. -/
def Pav.init : Pav :=
  ⟨false, false, 0, [], [], .ready, [], 0, 0xFFFFFFFF, 0, 0, [⟨0, 0, false, none⟩, ⟨0, 0, false, none⟩], false⟩

/-- The states of the Gatehouse (R335). -/
inductive GthSt where
  | running | failover | hold
deriving DecidableEq, Repr

/-- The code of GTH_STATUS.STATE. -/
def GthSt.code : GthSt → Nat
  | .running => 0 | .failover => 1 | .hold => 2

/-- The Gatehouse: its state, the core cycle of the last heartbeat toggle and of the declaration, the cause,
the request of a deliberate failover (with whether it activates firmware); packets held, and whether any was
dropped, in the last gap; replies held; the processor in its reset or self-test with the core cycle at which
that began; and the flags of R336 since system reset. -/
structure Gth where
  ready   : Bool
  st      : GthSt
  beat    : Nat
  declT   : Nat
  cause   : Nat
  asked   : Option (Hdr × Bool)
  held    : List Packet
  dropped : Bool
  outbox  : List Out
  test    : Option (Nat × Nat × Bool)
  cnt     : Nat
  gap     : Nat
  peak    : Nat
  fault   : Bool
  lost    : Bool
deriving DecidableEq, Repr

/-- The Gatehouse before it is ready. -/
def Gth.init : Gth :=
  ⟨false, .running, 0, 0, 0, none, [], false, [], none, 0, 0, 0, false, false⟩

/-! ## Tandem mode (chapter 14) -/

/-- The tandem bridge beside its registers: ready, lanes up, the core cycles at which PENDING and a shortage
of lanes began, the MIN_LANES that governs the pair (the lead's, R340); whether split hold lasts on in PENDING
until the pair rejoins, and the core cycle at which it was entered; the peer's engines whose SF and SD reach
this unit (R346); and the core cycle at which each lane last went down (R337). -/
structure Tdm where
  ready   : Bool
  up      : List Nat
  pendT   : Nat
  shortT  : Option Nat
  minEff  : Nat
  hold    : Bool
  holdT   : Nat
  sf      : List Nat
  sd      : List Nat
  downT   : SMap (Option Nat)
deriving DecidableEq, Repr

/-- The bridge at reset. -/
def Tdm.init : Tdm := ⟨false, [], 0, none, 4, false, 0, [], [], []⟩

/-! ## Bring-up, spares and power (chapter 16) -/

/-- An understudy check (R388-R390): the spare, the engine, the core cycle at which it began; the second
spare of a vote and the core cycle at which the vote began. -/
structure Check where
  spare  : Nat
  engine : Nat
  start  : Nat
  second : Option Nat
  vote   : Nat
deriving DecidableEq, Repr

/-- An engine substitution (R392): old, new, ledger slot, the core cycle at which it began, and once it has
cut over, whether that was at SUB_TMO. -/
structure EngSub where
  old   : Nat
  new   : Nat
  slot  : Nat
  start : Nat
  cut   : Option Bool
deriving DecidableEq, Repr

/-- The service master: the ledger applied, the spare pool, retired engines, engines from the one checked
least recently, checks, substitutions that run, and of the last substitution old, new, slot and TIMEOUT. -/
structure Svc where
  ready   : Bool
  spares  : List Nat
  retired : List Nat
  order   : List Nat
  checks  : List Check
  subs    : List EngSub
  last    : Option (Nat × Nat × Nat × Bool)
deriving DecidableEq, Repr

/-- The service master before it is ready. -/
def Svc.init : Svc := ⟨false, [], [], List.range 136, [], [], none⟩

/-- Power and reset: VIN_L_OK, VIN_H_OK and REG_OK; PWR_GOOD and the level of nRESET; the device held in reset
by its temperature; consecutive readings at the shutdown level; the causes THERM_WARN and THERM_CRIT; clusters
powered down; the engines in reset or self-test, with the core cycles at which each ends; and the readiness of
the core clock, the Yard and the flash controller. -/
structure Pwr where
  vinL    : Bool
  vinH    : Bool
  regOk   : Bool
  good    : Bool
  nReset  : Bool
  thermal : Bool
  hot     : Nat
  warn    : Bool
  crit    : Bool
  off     : List Nat
  engT    : SMap (Nat × Nat)
  yard    : Bool
deriving DecidableEq, Repr

/-- Rails good and nRESET high: the device at t0 (R379). -/
def Pwr.init : Pwr := ⟨true, true, true, true, true, false, 0, false, false, [], [], false⟩

/-! ## The whole -/

/-- Everything but the waiting commands and the bytes of memory. -/
structure Chip where
  core   : Nat
  dt     : Nat
  free   : Nat
  out    : List Out
  regs   : SMap Word
  log    : EvLog
  lanes  : SMap Lane
  mmbs   : SMap Mmb
  cals   : SMap (List Nat)
  hunters : SMap Hunter
  caps   : SMap Cap
  writers : SMap Writer
  rgns   : SMap Rgn
  combs  : SMap Comb
  cmps   : SMap Bool
  lines  : List LineFire
  mats   : SMap Bool
  yard   : Yard
  hbm    : SMap Stack
  defts  : SMap DefT
  paths  : SMap Nat
  mons   : SMap DefMon
  groups : SMap Group
  dsks   : SMap Dsk
  traces : SMap Trace
  ohps   : SMap Ohp
  ctxs   : SMap Ctx
  pats   : SMap Pat
  engRdy : List Nat
  ledger : Ledger
  tim    : Tim
  tps    : SMap Tp
  host   : HostP
  sec    : Sec
  pav    : Pav
  gth    : Gth
  tdm    : Tdm
  svc    : Svc
  pwr    : Pwr
deriving DecidableEq, Repr

/-- The chip at t0 with nothing brought up (R379, R381, R382); its registers are at the reset values of their
tables, and GLB_RST_CAUSE reads power-on. -/
def Chip.init : Chip where
  core := 0
  dt := 0
  free := 0
  out := []
  regs := [(0x070, 1)]
  log := ⟨0, []⟩
  lanes := []
  mmbs := []
  cals := []
  hunters := []
  caps := []
  writers := []
  rgns := []
  combs := []
  cmps := []
  lines := []
  mats := []
  yard := Yard.init
  hbm := []
  defts := []
  paths := []
  mons := []
  groups := []
  dsks := []
  traces := []
  ohps := []
  ctxs := []
  pats := []
  engRdy := []
  ledger := Ledger.init
  tim := Tim.init
  tps := []
  host := HostP.init
  sec := Sec.init
  pav := Pav.init
  gth := Gth.init
  tdm := Tdm.init
  svc := Svc.init
  pwr := Pwr.init

/-- The device without its waiting commands: the chip and the bytes of memory. -/
structure Dev where
  chip : Chip
  mem  : Mem
deriving DecidableEq, Repr

/-- The whole state: the commands that wait, first in first out, and the device they act on. -/
structure State where
  pending : List Instr
  dev     : Dev
deriving DecidableEq, Repr

/-- The device right after power-on reset: the reset state of R381 at t0, no command waiting. -/
def State.reset : State := ⟨[], ⟨Chip.init, ⟨[], [], []⟩⟩⟩

/-- Why a command ends the run.  Raised by a command whose operand names an engine, lane, port or other resource
that the device does not have; no such event can reach the device, so stopping is safe. -/
inductive Fault where
  | noSuchResource
deriving DecidableEq, Repr

/-- What the model refuses.  Raised by the arm of a command that has no meaning yet; safe. -/
inductive Refusal where
  | notModelled (mnemonic : String)
deriving DecidableEq, Repr

end Sys2Proof.Machine
end

