-- ==== Sys2Proof/Machine/RegMap.lean ====
section
/-! DEFINITION. The register map of the device as the spec's register tables give it: for each block
the offset, access masks (R9, R10) and reset value (R11) of every register, and a name for each.
A mask bit is set where the register's table gives that bit the access code: `rw` (RW and RW/CD),
`cd` (any code paired with CD), `w1c`, `rc`, `wo`, `ot`; `ro` marks the read-only bits.  A bit in no
mask is reserved: it reads 0 and ignores writes. -/

namespace Sys2Proof.Machine


namespace RegMap

/-- Registers of the block `glb`. -/
def glbRows0 : List Row := [
  ⟨0x000, 0x0, 0x0, 0x0, 0x0, 0x0, 0x0, 0xFFFFFFFF, 0x1C07128⟩ /- GLB_ID -/,
  ⟨0x004, 0x0, 0x0, 0x0, 0x0, 0x0, 0x0, 0x1FFFF, 0x0⟩ /- GLB_UNIT -/,
  ⟨0x008, 0x0, 0x0, 0x0, 0x0, 0x0, 0x0, 0xFFFFFFFF, 0x0⟩ /- GLB_FW_VER -/,
  ⟨0x00C, 0x0, 0x0, 0x0, 0x0, 0x0, 0x0, 0x1FFF, 0x0⟩ /- GLB_READY -/,
  ⟨0x010, 0x0, 0x0, 0x0, 0x0, 0x0, 0x0, 0xFFFFFFFF, 0x0⟩ /- GLB_ENG_READY0 -/,
  ⟨0x014, 0x0, 0x0, 0x0, 0x0, 0x0, 0x0, 0xFFFFFFFF, 0x0⟩ /- GLB_ENG_READY1 -/,
  ⟨0x018, 0x0, 0x0, 0x0, 0x0, 0x0, 0x0, 0xFFFFFFFF, 0x0⟩ /- GLB_ENG_READY2 -/,
  ⟨0x01C, 0x0, 0x0, 0x0, 0x0, 0x0, 0x0, 0xFFFFFFFF, 0x0⟩ /- GLB_ENG_READY3 -/,
  ⟨0x020, 0x0, 0x0, 0x0, 0x0, 0x0, 0x0, 0xFF, 0x0⟩ /- GLB_ENG_READY4 -/,
  ⟨0x024, 0x0, 0x0, 0x0, 0x0, 0x0, 0x0, 0xFFFFFFFF, 0x0⟩ /- GLB_LANE_READY0 -/,
  ⟨0x028, 0x0, 0x0, 0x0, 0x0, 0x0, 0x0, 0xFFFFFFFF, 0x0⟩ /- GLB_LANE_READY1 -/,
  ⟨0x02C, 0x0, 0x0, 0x0, 0x0, 0x0, 0x0, 0xFFFFFFFF, 0x0⟩ /- GLB_LANE_READY2 -/,
  ⟨0x030, 0x0, 0x0, 0x0, 0x0, 0x0, 0x0, 0xFFFFFFFF, 0x0⟩ /- GLB_LANE_READY3 -/,
  ⟨0x034, 0xFFFFFFFF, 0x0, 0x0, 0x0, 0x0, 0x0, 0x0, 0x0⟩ /- GLB_SCRATCH -/,
  ⟨0x040, 0x0, 0x0, 0x3F, 0x0, 0x0, 0x0, 0x0, 0x0⟩ /- GLB_EVENT -/,
  ⟨0x044, 0x0, 0x0, 0x0, 0x0, 0x0, 0x7, 0x0, 0x0⟩ /- GLB_LOCK -/,
  ⟨0x048, 0xFFFFFFFF, 0x0, 0x0, 0x0, 0x0, 0x0, 0x0, 0x40800806⟩ /- GLB_FAULT_CFG -/,
  ⟨0x04C, 0x0, 0x0, 0x0, 0x0, 0x0, 0x0, 0xFF0F, 0x0⟩ /- GLB_FAULT_STATUS -/,
  ⟨0x050, 0x1FFFF, 0x0, 0x0, 0x0, 0x0, 0x0, 0x0, 0x0⟩ /- GLB_PWR_CTRL -/,
  ⟨0x054, 0x0, 0x0, 0x0, 0x0, 0x0, 0x0, 0xFFFFF, 0x0⟩ /- GLB_PWR_STATUS -/,
  ⟨0x058, 0x0, 0x0, 0x0, 0x0, 0x0, 0x0, 0xFFFFFFFF, 0x0⟩ /- GLB_VIN_L -/,
  ⟨0x05C, 0x0, 0x0, 0x0, 0x0, 0x0, 0x0, 0xFFFFFFFF, 0x0⟩ /- GLB_VIN_H -/,
  ⟨0x060, 0x0, 0x0, 0x0, 0x0, 0x0, 0x0, 0xFFFF, 0x0⟩ /- GLB_POWER -/,
  ⟨0x064, 0x0, 0x0, 0x0, 0x0, 0x0, 0x0, 0xFFF, 0x0⟩ /- GLB_TEMP -/,
  ⟨0x068, 0xFFFF, 0x0, 0x0, 0x0, 0x0, 0x0, 0x0, 0x6964⟩ /- GLB_THERM_CFG -/,
  ⟨0x06C, 0x0, 0x0, 0x0, 0x0, 0x0, 0x0, 0x3FFFFF, 0x0⟩ /- GLB_SEC_STATUS -/,
  ⟨0x070, 0x0, 0x0, 0x0, 0x0, 0x0, 0x0, 0xF, 0x0⟩ /- GLB_RST_CAUSE -/,
  ⟨0x074, 0x0, 0x0, 0x0, 0x0, 0x0, 0x0, 0xFFFFFFFF, 0x0⟩ /- GLB_EVENT_SEQ -/,
  ⟨0x078, 0x0, 0x0, 0x0, 0xFFFFFFFF, 0x0, 0x0, 0x0, 0x0⟩ /- GLB_REFUSE_CNT -/,
  ⟨0x07C, 0x0, 0x0, 0x0, 0x0, 0x0, 0x0, 0xFFFFFFFF, 0x0⟩ /- GLB_REFUSE_ADDR -/,
  ⟨0x080, 0x0, 0x0, 0x0, 0x0, 0x0, 0x0, 0xFFFFFFFF, 0x0⟩ /- GLB_REFUSE_INFO -/]

/-- Every register of the block `glb`. -/
def glbRows : List Row := glbRows0

/-- Registers of the block `svc`. -/
def svcRows0 : List Row := [
  ⟨0x000, 0xFF03, 0x0, 0x0, 0x0, 0x0, 0x0, 0x0, 0x6403⟩ /- SVC_CFG -/,
  ⟨0x004, 0x0, 0x0, 0x0, 0x0, 0x0, 0x0, 0x3FF, 0x0⟩ /- SVC_STATUS -/,
  ⟨0x008, 0x0, 0x0, 0x7FF, 0x0, 0x0, 0x0, 0x0, 0x0⟩ /- SVC_EVENT -/,
  ⟨0x00C, 0x0, 0x0, 0x0, 0x0, 0x0, 0x0, 0x7FFFF, 0x0⟩ /- SVC_UND_LAST -/,
  ⟨0x010, 0x0, 0x0, 0x0, 0xFFFFFFFF, 0x0, 0x0, 0x0, 0x0⟩ /- SVC_UND_PASS_CNT -/,
  ⟨0x014, 0x0, 0x0, 0x0, 0xFFFFFFFF, 0x0, 0x0, 0x0, 0x0⟩ /- SVC_UND_MISMATCH_CNT -/,
  ⟨0x018, 0x0, 0x0, 0x0, 0xFFFFFFFF, 0x0, 0x0, 0x0, 0x0⟩ /- SVC_UND_SKIP_CNT -/,
  ⟨0x01C, 0x0, 0x0, 0x0, 0x0, 0x0, 0x0, 0xFFFFFF, 0x0⟩ /- SVC_SUB -/,
  ⟨0x020, 0x0, 0x0, 0x0, 0x0, 0x0, 0x0, 0xFFFFFFFF, 0x0⟩ /- SVC_SPARE0 -/,
  ⟨0x024, 0x0, 0x0, 0x0, 0x0, 0x0, 0x0, 0xFFFFFFFF, 0x0⟩ /- SVC_SPARE1 -/,
  ⟨0x028, 0x0, 0x0, 0x0, 0x0, 0x0, 0x0, 0xFFFFFFFF, 0x0⟩ /- SVC_SPARE2 -/,
  ⟨0x02C, 0x0, 0x0, 0x0, 0x0, 0x0, 0x0, 0xFFFFFFFF, 0x0⟩ /- SVC_SPARE3 -/,
  ⟨0x030, 0x0, 0x0, 0x0, 0x0, 0x0, 0x0, 0xFF, 0x0⟩ /- SVC_SPARE4 -/,
  ⟨0x034, 0x0, 0x0, 0x0, 0x0, 0x0, 0x0, 0xFFFFFFFF, 0x0⟩ /- SVC_RETIRED0 -/,
  ⟨0x038, 0x0, 0x0, 0x0, 0x0, 0x0, 0x0, 0xFFFFFFFF, 0x0⟩ /- SVC_RETIRED1 -/,
  ⟨0x03C, 0x0, 0x0, 0x0, 0x0, 0x0, 0x0, 0xFFFFFFFF, 0x0⟩ /- SVC_RETIRED2 -/,
  ⟨0x040, 0x0, 0x0, 0x0, 0x0, 0x0, 0x0, 0xFFFFFFFF, 0x0⟩ /- SVC_RETIRED3 -/,
  ⟨0x044, 0x0, 0x0, 0x0, 0x0, 0x0, 0x0, 0xFFFFFFFF, 0x0⟩ /- SVC_RETIRED4 -/]

/-- Every register of the block `svc`. -/
def svcRows : List Row := svcRows0

/-- Registers of the block `led`. -/
def ledRows0 : List Row := [
  ⟨0x000, 0x0, 0x0, 0x0, 0x0, 0x0, 0x0, 0x7FFF, 0x0⟩ /- LED_STATUS -/,
  ⟨0x004, 0x0, 0x0, 0x1FF, 0x0, 0x0, 0x0, 0x0, 0x0⟩ /- LED_EVENT -/,
  ⟨0x008, 0x0, 0x0, 0x0, 0x0, 0x80000FFF, 0x0, 0x0, 0x0⟩ /- LED_UID_CMD -/,
  ⟨0x00C, 0x0, 0x0, 0x0, 0x0, 0x0, 0x0, 0xDFFFFF, 0x0⟩ /- LED_LMS -/,
  ⟨0x010, 0x0, 0x0, 0x0, 0x0, 0x0, 0x0, 0xFFFFF, 0x0⟩ /- LED_LMS_HWM -/,
  ⟨0x014, 0x0, 0x0, 0x0, 0x0, 0x0, 0x0, 0xFFFFFFFF, 0x0⟩ /- LED_BSN -/,
  ⟨0x018, 0x0, 0x0, 0x0, 0x0, 0x0, 0x0, 0xFFFFFFFF, 0x0⟩ /- LED_BSN_PEND -/,
  ⟨0x01C, 0x0, 0x0, 0x0, 0x0, 0x0, 0x0, 0xF, 0x0⟩ /- LED_STAGE -/,
  ⟨0x020, 0x3F, 0x0, 0x0, 0x0, 0x0, 0x0, 0x0, 0x0⟩ /- LED_SLOT_IDX -/,
  ⟨0x024, 0x0, 0x0, 0x0, 0x0, 0x0, 0x0, 0xFFFFFFFF, 0x0⟩ /- LED_SLOT0 -/,
  ⟨0x028, 0x0, 0x0, 0x0, 0x0, 0x0, 0x0, 0xFFFFFFFF, 0x0⟩ /- LED_SLOT1 -/,
  ⟨0x02C, 0x0, 0x0, 0x0, 0x0, 0x0, 0x0, 0xFFFFFFFF, 0x0⟩ /- LED_SLOT2 -/,
  ⟨0x030, 0x0, 0x0, 0x0, 0x0, 0x0, 0x0, 0xFFFFFFFF, 0x0⟩ /- LED_SLOT3 -/,
  ⟨0x034, 0x0, 0x0, 0x0, 0x0, 0x0, 0x0, 0xFFFFFFFF, 0x0⟩ /- LED_SLOT4 -/,
  ⟨0x038, 0x0, 0x0, 0x0, 0x0, 0x0, 0x0, 0xFFFFFFFF, 0x0⟩ /- LED_SLOT5 -/,
  ⟨0x03C, 0x0, 0x0, 0x0, 0x0, 0x0, 0x0, 0xFFFFFFFF, 0x0⟩ /- LED_SLOT6 -/,
  ⟨0x040, 0x0, 0x0, 0x0, 0x0, 0x0, 0x0, 0xFFFFFFFF, 0x0⟩ /- LED_SLOT7 -/,
  ⟨0x044, 0x0, 0x0, 0x0, 0xFFFFFFFF, 0x0, 0x0, 0x0, 0x0⟩ /- LED_ATTEST_CNT -/]

/-- Every register of the block `led`. -/
def ledRows : List Row := ledRows0

/-- Registers of the block `yrd`. -/
def yrdRows0 : List Row := [
  ⟨0x000, 0xFF00FF, 0x0, 0x0, 0x0, 0x0, 0x0, 0x0, 0x200040⟩ /- YRD_CFG -/,
  ⟨0x004, 0x0, 0x0, 0x3F, 0x0, 0x0, 0x0, 0x0, 0x0⟩ /- YRD_EVENT -/,
  ⟨0x008, 0x0, 0x0, 0x0, 0xFFFFFFFF, 0x0, 0x0, 0x0, 0x0⟩ /- YRD_DECODE_CNT -/,
  ⟨0x00C, 0x0, 0x0, 0x0, 0xFFFFFFFF, 0x0, 0x0, 0x0, 0x0⟩ /- YRD_LOCK_TMO_CNT -/,
  ⟨0x010, 0x0, 0x0, 0x0, 0xFFFFFFFF, 0x0, 0x0, 0x0, 0x0⟩ /- YRD_TIMEOUT_CNT -/,
  ⟨0x014, 0x0, 0x0, 0x0, 0x0, 0x0, 0x0, 0xFFFFFFFF, 0x0⟩ /- YRD_ERR_LO -/,
  ⟨0x018, 0x0, 0x0, 0x0, 0x0, 0x0, 0x0, 0x1FFFFF, 0x0⟩ /- YRD_ERR_HI -/,
  ⟨0x020, 0x13F, 0x0, 0x0, 0x0, 0x0, 0x0, 0x0, 0x0⟩ /- YRD_PORT_IDX -/,
  ⟨0x024, 0x0, 0x0, 0x0, 0x0, 0x0, 0x0, 0x7FFFFF, 0x0⟩ /- YRD_PORT_STATUS -/,
  ⟨0x100, 0x1F03, 0x0, 0x0, 0x0, 0x0, 0x0, 0x0, 0x0⟩ /- HAY_IDX -/,
  ⟨0x104, 0x0, 0x0, 0x0, 0x0, 0x0, 0x0, 0xFF000F, 0x8⟩ /- HAY_STATUS -/,
  ⟨0x108, 0x0, 0x0, 0x3FF, 0x0, 0x0, 0x0, 0x0, 0x0⟩ /- HAY_EVENT -/,
  ⟨0x10C, 0xFF3FFFF, 0x0, 0x0, 0x0, 0x0, 0x0, 0x0, 0x430100⟩ /- HAY_CFG -/,
  ⟨0x110, 0xFF, 0x0, 0x0, 0x0, 0x0, 0x0, 0xFFFF0000, 0x18⟩ /- HAY_SCRUB -/,
  ⟨0x114, 0x0, 0x0, 0x0, 0x0, 0x0, 0x0, 0x1FFFFF, 0x0⟩ /- HAY_SCRUB_POS -/,
  ⟨0x118, 0x0, 0x0, 0x0, 0x0, 0x0, 0x0, 0xFF, 0x0⟩ /- HAY_PC_STATUS -/,
  ⟨0x11C, 0x0, 0x0, 0x0, 0xFFFFFFFF, 0x0, 0x0, 0x0, 0x0⟩ /- HAY_PC_CE -/,
  ⟨0x120, 0x0, 0x0, 0x0, 0x0, 0x0, 0x0, 0xFFFF, 0x0⟩ /- HAY_PC_CE_PASS -/,
  ⟨0x124, 0x0, 0x0, 0x0, 0xFFFFFFFF, 0x0, 0x0, 0x0, 0x0⟩ /- HAY_PC_UE -/,
  ⟨0x128, 0x0, 0x0, 0x0, 0x0, 0x0, 0x0, 0xFFFFFFFF, 0x0⟩ /- HAY_UE_LO -/,
  ⟨0x12C, 0x0, 0x0, 0x0, 0x0, 0x0, 0x0, 0x1FFF, 0x0⟩ /- HAY_UE_HI -/,
  ⟨0x130, 0x0, 0x0, 0x0, 0x0, 0x0, 0x0, 0xFFFF, 0x0⟩ /- HAY_MIG -/,
  ⟨0x134, 0x0, 0x0, 0x0, 0x0, 0x0, 0x0, 0x1FFFFF, 0x0⟩ /- HAY_MIG_POS -/]

/-- Every register of the block `yrd`. -/
def yrdRows : List Row := yrdRows0

/-- Registers of the block `tim`. -/
def timRows0 : List Row := [
  ⟨0x000, 0xFFFFF, 0xFFFFE, 0x0, 0x0, 0x0, 0x0, 0x0, 0x8000⟩ /- TIM_CFG -/,
  ⟨0x004, 0x0, 0x0, 0x0, 0x0, 0x1F, 0x0, 0x0, 0x0⟩ /- TIM_CTRL -/,
  ⟨0x008, 0x0, 0x0, 0x0, 0x0, 0x0, 0x0, 0x1FFF, 0x0⟩ /- TIM_STATUS -/,
  ⟨0x00C, 0x0, 0x0, 0x3FF, 0x0, 0x0, 0x0, 0x0, 0x0⟩ /- TIM_EVENT -/,
  ⟨0x010, 0x0, 0x0, 0x0, 0x0, 0x0, 0x0, 0xFFFFFFFF, 0x0⟩ /- TIM_NOW_LO -/,
  ⟨0x014, 0x0, 0x0, 0x0, 0x0, 0x0, 0x0, 0xFFFFFFFF, 0x0⟩ /- TIM_NOW_HI -/,
  ⟨0x018, 0x1FF, 0x0, 0x0, 0x0, 0x0, 0x0, 0x0, 0x64⟩ /- TIM_SLEW -/,
  ⟨0x01C, 0x3FFFFFFF, 0x0, 0x0, 0x0, 0x0, 0x0, 0x0, 0x3E8⟩ /- TIM_STEP_THR -/,
  ⟨0x020, 0xFFFFF, 0x0, 0x0, 0x0, 0x0, 0x0, 0x0, 0xC8⟩ /- TIM_PATH_THR -/,
  ⟨0x024, 0xFFFFFFFF, 0x0, 0x0, 0x0, 0x0, 0x0, 0x0, 0x0⟩ /- TIM_STEP_LO -/,
  ⟨0x028, 0xFFFFFFFF, 0x0, 0x0, 0x0, 0x0, 0x0, 0x0, 0x0⟩ /- TIM_STEP_HI -/,
  ⟨0x02C, 0xFFFFFFFF, 0x0, 0x0, 0x0, 0x0, 0x0, 0x0, 0x0⟩ /- TIM_SET_LO -/,
  ⟨0x030, 0xFFFFFFFF, 0x0, 0x0, 0x0, 0x0, 0x0, 0x0, 0x0⟩ /- TIM_SET_HI -/,
  ⟨0x034, 0x0, 0x0, 0x0, 0x0, 0x0, 0x0, 0xFFFFFFFF, 0x0⟩ /- TIM_OFFSET_LO -/,
  ⟨0x038, 0x0, 0x0, 0x0, 0x0, 0x0, 0x0, 0xFFFFFFFF, 0x0⟩ /- TIM_OFFSET_HI -/,
  ⟨0x03C, 0x0, 0x0, 0x0, 0x0, 0x0, 0x0, 0xFFFFFFFF, 0x0⟩ /- TIM_MPD -/,
  ⟨0x040, 0x0, 0x0, 0x0, 0x0, 0x0, 0x0, 0xFFFFFFFF, 0x0⟩ /- TIM_FREQ -/,
  ⟨0x044, 0xFFFF, 0xFFFF, 0x0, 0x0, 0x0, 0x0, 0x0, 0x30CC⟩ /- TIM_PTP_IVL -/,
  ⟨0x048, 0xFFFFFFFF, 0xFFFFFFFF, 0x0, 0x0, 0x0, 0x0, 0x0, 0xF8808000⟩ /- TIM_PTP_DS -/,
  ⟨0x050, 0xFFFFFFFF, 0x0, 0x0, 0x0, 0x0, 0x0, 0x0, 0x0⟩ /- TIM_PTP_IN_LAT0 -/,
  ⟨0x054, 0xFFFFFFFF, 0x0, 0x0, 0x0, 0x0, 0x0, 0x0, 0x0⟩ /- TIM_PTP_OUT_LAT0 -/,
  ⟨0x058, 0xFFFFFFFF, 0x0, 0x0, 0x0, 0x0, 0x0, 0x0, 0x0⟩ /- TIM_PTP_IN_LAT1 -/,
  ⟨0x05C, 0xFFFFFFFF, 0x0, 0x0, 0x0, 0x0, 0x0, 0x0, 0x0⟩ /- TIM_PTP_OUT_LAT1 -/,
  ⟨0x060, 0xFFFFFFFF, 0x0, 0x0, 0x0, 0x0, 0x0, 0x0, 0x0⟩ /- TIM_PTP_IN_LAT2 -/,
  ⟨0x064, 0xFFFFFFFF, 0x0, 0x0, 0x0, 0x0, 0x0, 0x0, 0x0⟩ /- TIM_PTP_OUT_LAT2 -/,
  ⟨0x068, 0xFFFFFFFF, 0x0, 0x0, 0x0, 0x0, 0x0, 0x0, 0x0⟩ /- TIM_PTP_IN_LAT3 -/,
  ⟨0x06C, 0xFFFFFFFF, 0x0, 0x0, 0x0, 0x0, 0x0, 0x0, 0x0⟩ /- TIM_PTP_OUT_LAT3 -/,
  ⟨0x070, 0x0, 0x0, 0x0, 0x0, 0x0, 0x0, 0xFFFFFFFF, 0x0⟩ /- TIM_GM_ID_LO -/,
  ⟨0x074, 0x0, 0x0, 0x0, 0x0, 0x0, 0x0, 0xFFFFFFFF, 0x0⟩ /- TIM_GM_ID_HI -/,
  ⟨0x078, 0x0, 0x0, 0x0, 0xFFFFFFFF, 0x0, 0x0, 0x0, 0x0⟩ /- TIM_OUTLIER_CNT -/,
  ⟨0x07C, 0x0, 0x0, 0x0, 0xFFFFFFFF, 0x0, 0x0, 0x0, 0x0⟩ /- TIM_STEP_REF_CNT -/,
  ⟨0x080, 0x0, 0x0, 0x0, 0xFFFFFFFF, 0x0, 0x0, 0x0, 0x0⟩ /- TIM_GM_CHG_CNT -/]

/-- Every register of the block `tim`. -/
def timRows : List Row := timRows0

/-- Registers of the block `hst`. -/
def hstRows0 : List Row := [
  ⟨0x000, 0x0, 0x0, 0x0, 0x0, 0x0, 0x0, 0x3F, 0x0⟩ /- HST_CFG -/,
  ⟨0x004, 0xFF0FFF, 0x0, 0x0, 0x0, 0x0, 0x0, 0x0, 0xA003C⟩ /- HST_TMO -/,
  ⟨0x008, 0x0, 0x0, 0x0, 0x0, 0x0, 0x0, 0x1FFFF, 0x0⟩ /- HST_STATUS -/,
  ⟨0x00C, 0x0, 0x0, 0xF, 0x0, 0x0, 0x0, 0x0, 0x0⟩ /- HST_EVENT -/,
  ⟨0x010, 0x0, 0x0, 0x0, 0x0, 0x0, 0x0, 0xFFFFFFFF, 0x0⟩ /- HST_MAC_LO -/,
  ⟨0x014, 0x0, 0x0, 0x0, 0x0, 0x0, 0x0, 0xFFFFFFFF, 0x0⟩ /- HST_MAC_HI -/,
  ⟨0x018, 0x0, 0x0, 0x0, 0x0, 0x0, 0x0, 0xFFFFFFFF, 0x0⟩ /- HST_IPV4 -/,
  ⟨0x020, 0x0, 0x0, 0x0, 0x0, 0x0, 0x0, 0xFFFFFFFF, 0x0⟩ /- HST_IPV6_0 -/,
  ⟨0x024, 0x0, 0x0, 0x0, 0x0, 0x0, 0x0, 0xFFFFFFFF, 0x0⟩ /- HST_IPV6_1 -/,
  ⟨0x028, 0x0, 0x0, 0x0, 0x0, 0x0, 0x0, 0xFFFFFFFF, 0x0⟩ /- HST_IPV6_2 -/,
  ⟨0x02C, 0x0, 0x0, 0x0, 0x0, 0x0, 0x0, 0xFFFFFFFF, 0x0⟩ /- HST_IPV6_3 -/,
  ⟨0x030, 0x0, 0x0, 0x0, 0x0, 0x0, 0x0, 0xFFFFFFFF, 0x0⟩ /- HST_UDP -/,
  ⟨0x040, 0x0, 0x0, 0x0, 0xFFFFFFFF, 0x0, 0x0, 0x0, 0x0⟩ /- HST_RX_CNT -/,
  ⟨0x044, 0x0, 0x0, 0x0, 0xFFFFFFFF, 0x0, 0x0, 0x0, 0x0⟩ /- HST_TX_CNT -/,
  ⟨0x048, 0x0, 0x0, 0x0, 0xFFFFFFFF, 0x0, 0x0, 0x0, 0x0⟩ /- HST_FMT_DROP_CNT -/,
  ⟨0x04C, 0x0, 0x0, 0x0, 0xFFFFFFFF, 0x0, 0x0, 0x0, 0x0⟩ /- HST_AUTH_DROP_CNT -/,
  ⟨0x050, 0x0, 0x0, 0x0, 0xFFFFFFFF, 0x0, 0x0, 0x0, 0x0⟩ /- HST_SEQ_DROP_CNT -/,
  ⟨0x054, 0x0, 0x0, 0x0, 0xFFFFFFFF, 0x0, 0x0, 0x0, 0x0⟩ /- HST_RO_RESEND_CNT -/,
  ⟨0x058, 0x0, 0x0, 0x0, 0xFFFFFFFF, 0x0, 0x0, 0x0, 0x0⟩ /- HST_FEC_CORR_CNT -/,
  ⟨0x05C, 0x0, 0x0, 0x0, 0xFFFFFFFF, 0x0, 0x0, 0x0, 0x0⟩ /- HST_FEC_UNCORR_CNT -/]

/-- Every register of the block `hst`. -/
def hstRows : List Row := hstRows0

/-- Registers of the block `pav`. -/
def pavRows0 : List Row := [
  ⟨0x000, 0x0, 0x0, 0x0, 0x0, 0x0, 0x0, 0x3, 0x0⟩ /- PAV_STATUS -/,
  ⟨0x004, 0x0, 0x0, 0x7, 0x0, 0x0, 0x0, 0x0, 0x0⟩ /- PAV_EVENT -/,
  ⟨0x008, 0x0, 0x0, 0x0, 0x0, 0x0, 0x0, 0xFFFFFFFF, 0x0⟩ /- PAV_JRNL_HEAD -/,
  ⟨0x00C, 0x0, 0x0, 0x0, 0x0, 0x0, 0x0, 0xFFFFFFFF, 0x0⟩ /- PAV_JRNL_APPLIED -/,
  ⟨0x010, 0x0, 0x0, 0x0, 0x0, 0x0, 0x0, 0xFFFFFFFF, 0x0⟩ /- PAV_CKPT_SEQ0 -/,
  ⟨0x014, 0x0, 0x0, 0x0, 0x0, 0x0, 0x0, 0xFFFFFFFF, 0x0⟩ /- PAV_CKPT_SEQ1 -/,
  ⟨0x018, 0x0, 0x0, 0x0, 0x0, 0x0, 0x0, 0x7, 0x0⟩ /- PAV_CKPT_STATUS -/,
  ⟨0x020, 0xFF01FF, 0x0, 0x0, 0x0, 0x0, 0x0, 0x0, 0xA0100⟩ /- PAV_CKPT_CFG -/,
  ⟨0x024, 0x0, 0x0, 0x0, 0xFFFFFFFF, 0x0, 0x0, 0x0, 0x0⟩ /- PAV_CKPT_FAIL_CNT -/,
  ⟨0x028, 0x0, 0x0, 0x0, 0x0, 0x0, 0x0, 0xFFFFFFFF, 0x0⟩ /- PAV_FW_A -/,
  ⟨0x02C, 0x0, 0x0, 0x0, 0x0, 0x0, 0x0, 0xFFFFFFFF, 0x0⟩ /- PAV_FW_B -/,
  ⟨0x030, 0x0, 0x0, 0x0, 0xFFFFFFFF, 0x0, 0x0, 0x0, 0x0⟩ /- PAV_INDET_CNT -/]

/-- Every register of the block `pav`. -/
def pavRows : List Row := pavRows0

/-- Registers of the block `gth`. -/
def gthRows0 : List Row := [
  ⟨0x000, 0x1F, 0x0, 0x0, 0x0, 0x0, 0x0, 0x0, 0x2⟩ /- GTH_CFG -/,
  ⟨0x004, 0x0, 0x0, 0x0, 0x0, 0x0, 0x0, 0x3FF, 0x0⟩ /- GTH_STATUS -/,
  ⟨0x008, 0x0, 0x0, 0x7, 0x0, 0x0, 0x0, 0x0, 0x0⟩ /- GTH_EVENT -/,
  ⟨0x00C, 0x0, 0x0, 0x0, 0x0, 0x0, 0x0, 0xFFFFFFFF, 0x0⟩ /- GTH_FAILOVER_CNT -/,
  ⟨0x010, 0x0, 0x0, 0x0, 0x0, 0x0, 0x0, 0xFFFF, 0x0⟩ /- GTH_LAST_GAP -/,
  ⟨0x014, 0x0, 0x0, 0x0, 0x0, 0x0, 0x0, 0xFFFFFFFF, 0x0⟩ /- GTH_LAST_LO -/,
  ⟨0x018, 0x0, 0x0, 0x0, 0x0, 0x0, 0x0, 0xFFFFFFFF, 0x0⟩ /- GTH_LAST_HI -/,
  ⟨0x01C, 0x0, 0x0, 0x0, 0xFFFFFFFF, 0x0, 0x0, 0x0, 0x0⟩ /- GTH_DROP_CNT -/,
  ⟨0x020, 0x0, 0x0, 0x0, 0x0, 0x0, 0x0, 0x1FF, 0x0⟩ /- GTH_HELD_PEAK -/]

/-- Every register of the block `gth`. -/
def gthRows : List Row := gthRows0

/-- Registers of the block `tdm`. -/
def tdmRows0 : List Row := [
  ⟨0x000, 0xFF0F, 0x0, 0x0, 0x0, 0x0, 0x0, 0x0, 0xA04⟩ /- TDM_CFG -/,
  ⟨0x004, 0x0, 0x0, 0x0, 0x0, 0x0, 0x0, 0x3FFFF, 0x0⟩ /- TDM_STATUS -/,
  ⟨0x008, 0x0, 0x0, 0x3F, 0x0, 0x0, 0x0, 0x0, 0x0⟩ /- TDM_EVENT -/,
  ⟨0x00C, 0x0, 0x0, 0x0, 0x0, 0x0, 0x0, 0x1FFF, 0x0⟩ /- TDM_PEER -/,
  ⟨0x010, 0x0, 0x0, 0x0, 0x0, 0x0, 0x0, 0xFFFF, 0x0⟩ /- TDM_CAPACITY -/,
  ⟨0x014, 0x0, 0x0, 0x0, 0x0, 0x0, 0x0, 0xFFFFFFFF, 0x0⟩ /- TDM_RT_LOAD -/,
  ⟨0x018, 0x0, 0x0, 0x0, 0x0, 0x0, 0x0, 0xFFFFFFFF, 0x0⟩ /- TDM_CAP_LOAD -/,
  ⟨0x01C, 0x3F, 0x0, 0x0, 0x0, 0x0, 0x0, 0x0, 0x0⟩ /- TDM_XMEM_IDX -/,
  ⟨0x020, 0x3FFFFF, 0x0, 0x0, 0x0, 0x0, 0x0, 0x0, 0x0⟩ /- TDM_XMEMBER -/,
  ⟨0x024, 0x0, 0x0, 0x0, 0xFFFFFFFF, 0x0, 0x0, 0x0, 0x0⟩ /- TDM_SPLIT_CNT -/,
  ⟨0x028, 0x0, 0x0, 0x0, 0xFFFFFFFF, 0x0, 0x0, 0x0, 0x0⟩ /- TDM_LINK_ERR_CNT -/,
  ⟨0x02C, 0x0, 0x0, 0x0, 0x0, 0x0, 0x0, 0xFFFFFFFF, 0x0⟩ /- TDM_SPLIT_TIME_LO -/,
  ⟨0x030, 0x0, 0x0, 0x0, 0x0, 0x0, 0x0, 0xFFFFFFFF, 0x0⟩ /- TDM_SPLIT_TIME_HI -/]

/-- Every register of the block `tdm`. -/
def tdmRows : List Row := tdmRows0

/-- Registers of the block `eng`, part 0. -/
def engRows0 : List Row := [
  ⟨0x000, 0x1, 0x0, 0x0, 0x0, 0x2, 0x0, 0x0, 0x0⟩ /- ENG_CTRL -/,
  ⟨0x004, 0x0, 0x0, 0x0, 0x0, 0x0, 0x0, 0x3, 0x0⟩ /- ENG_STATUS -/,
  ⟨0x008, 0x0, 0x0, 0x1, 0x0, 0x0, 0x0, 0x0, 0x0⟩ /- ENG_EVENT -/,
  ⟨0x00C, 0x0, 0x0, 0x0, 0xFFFFFFFF, 0x0, 0x0, 0x0, 0x0⟩ /- ENG_EB_CE_CNT -/,
  ⟨0x040, 0x3FFF, 0x3FFF, 0x0, 0x0, 0x0, 0x0, 0x0, 0x1352⟩ /- HNT_CFG -/,
  ⟨0x044, 0x7F7F, 0x0, 0x0, 0x0, 0x0, 0x0, 0x0, 0xC0C⟩ /- HNT_LOF -/,
  ⟨0x048, 0x0, 0x0, 0x0, 0x0, 0x3F07, 0x0, 0x0, 0x0⟩ /- HNT_CTRL -/,
  ⟨0x04C, 0x0, 0x0, 0x0, 0x0, 0x0, 0x0, 0x1FFFFF, 0x3⟩ /- HNT_STATUS -/,
  ⟨0x050, 0x0, 0x0, 0x3FF, 0x0, 0x0, 0x0, 0x0, 0x0⟩ /- HNT_EVENT -/,
  ⟨0x054, 0x0, 0x0, 0x0, 0xFFFFFFFF, 0x0, 0x0, 0x0, 0x0⟩ /- HNT_EVICT_CNT -/,
  ⟨0x058, 0x0, 0x0, 0x0, 0xFFFFFFFF, 0x0, 0x0, 0x0, 0x0⟩ /- HNT_DROP_CNT -/,
  ⟨0x05C, 0x0, 0x0, 0x0, 0xFFFFFFFF, 0x0, 0x0, 0x0, 0x0⟩ /- HNT_RETRACT_CNT -/,
  ⟨0x060, 0x0, 0x0, 0x0, 0xFFFFFFFF, 0x0, 0x0, 0x0, 0x0⟩ /- HNT_OOF_CNT -/,
  ⟨0x064, 0x0, 0x0, 0x0, 0xFFFFFFFF, 0x0, 0x0, 0x0, 0x0⟩ /- HNT_ERRFR_CNT -/,
  ⟨0x068, 0x0, 0x0, 0x0, 0x0, 0x0, 0x0, 0x1F, 0x0⟩ /- HNT_ALIGN -/,
  ⟨0x06C, 0x0, 0x0, 0x0, 0x0, 0x0, 0x0, 0xFFFFFFFF, 0x0⟩ /- HNT_DECL_TIME_LO -/,
  ⟨0x070, 0x0, 0x0, 0x0, 0x0, 0x0, 0x0, 0xFFFFFFFF, 0x0⟩ /- HNT_DECL_TIME_HI -/,
  ⟨0x074, 0x0, 0x0, 0x0, 0x0, 0x0, 0x0, 0x1FFFFFF, 0x1FFFFFF⟩ /- HNT_OTL_LANES -/,
  ⟨0x078, 0x0, 0x0, 0x0, 0x0, 0x0, 0x0, 0xFFF, 0x0⟩ /- HNT_OTL_SKEW -/,
  ⟨0x07C, 0x0, 0x0, 0x6, 0x0, 0x0, 0x0, 0xFFF0001, 0x0⟩ /- HNT_OTL_GROUP -/,
  ⟨0x080, 0x0, 0x0, 0x0, 0x0, 0x0, 0x0, 0x3FF, 0x0⟩ /- STL_COUNT -/,
  ⟨0x084, 0x0, 0x0, 0x0, 0x3FF, 0x0, 0x0, 0x0, 0x0⟩ /- STL_PEAK -/,
  ⟨0x088, 0x0, 0x0, 0x0, 0xFFFFFFFF, 0x0, 0x0, 0x0, 0x0⟩ /- STL_PARITY_CNT -/,
  ⟨0x08C, 0x0, 0x0, 0x0, 0xFFF0000, 0x0, 0x0, 0xFFF, 0x0⟩ /- CAP_EB -/,
  ⟨0x090, 0x1FFFFF, 0x100000, 0x0, 0x0, 0x0, 0x0, 0x0, 0x1003E8⟩ /- CAP_CFG -/,
  ⟨0x094, 0x0, 0x0, 0x0, 0x0, 0x0, 0x0, 0x3FF, 0x0⟩ /- CAP_STATUS -/,
  ⟨0x098, 0x0, 0x0, 0x73F, 0x0, 0x0, 0x0, 0x0, 0x0⟩ /- CAP_EVENT -/,
  ⟨0x09C, 0x0, 0x0, 0x0, 0xFFFFFFFF, 0x0, 0x0, 0x0, 0x0⟩ /- CAP_GAP_CNT -/,
  ⟨0x0A0, 0x0, 0x0, 0x0, 0x0, 0x0, 0x0, 0xFFFFFFFF, 0x0⟩ /- CAP_LOST_LO -/,
  ⟨0x0A4, 0x0, 0x0, 0x0, 0x0, 0x0, 0x0, 0xFFFFFFFF, 0x0⟩ /- CAP_LOST_HI -/,
  ⟨0x0A8, 0xFFFFFFFF, 0x0, 0x0, 0x0, 0x0, 0x0, 0x0, 0x0⟩ /- CAP_TRG_TIME_LO -/,
  ⟨0x0AC, 0x8000FFFF, 0x0, 0x0, 0x0, 0x0, 0x0, 0x0, 0x0⟩ /- CAP_TRG_TIME_HI -/,
  ⟨0x0B0, 0xFFF, 0x0, 0x0, 0x0, 0x0, 0x0, 0x0, 0x0⟩ /- CAP_RGN_IDX -/,
  ⟨0x0B4, 0x1FF9, 0x1FF8, 0x0, 0x0, 0x6, 0x0, 0x0, 0x0⟩ /- CAP_RGN_CFG -/,
  ⟨0x0B8, 0xFFFF01FF, 0xFFFF01FF, 0x0, 0x0, 0x0, 0x0, 0x0, 0x0⟩ /- CAP_RGN_SRC -/,
  ⟨0x0BC, 0x1FFFFF, 0x1FFFFF, 0x0, 0x0, 0x0, 0x0, 0x0, 0x0⟩ /- CAP_RGN_BASE -/,
  ⟨0x0C0, 0x1FFFFF, 0x1FFFFF, 0x0, 0x0, 0x0, 0x0, 0x0, 0x0⟩ /- CAP_RGN_SIZE -/,
  ⟨0x0C4, 0xFFFFFFF, 0xFFFFFFF, 0x0, 0x0, 0x0, 0x0, 0x0, 0x0⟩ /- CAP_RGN_PRE -/,
  ⟨0x0C8, 0xFFFFFFF, 0xFFFFFFF, 0x0, 0x0, 0x0, 0x0, 0x0, 0x1⟩ /- CAP_RGN_POST -/,
  ⟨0x0CC, 0x0, 0x0, 0x0, 0x0, 0x0, 0x0, 0x3F, 0x0⟩ /- CAP_RGN_STATE -/]

/-- Registers of the block `eng`, part 1. -/
def engRows1 : List Row := [
  ⟨0x0D0, 0x0, 0x0, 0x0, 0x0, 0x0, 0x0, 0xFFFFFFF, 0x0⟩ /- CAP_RGN_START -/,
  ⟨0x0D4, 0x0, 0x0, 0x0, 0x0, 0x0, 0x0, 0xFFFFFFF, 0x0⟩ /- CAP_RGN_COUNT -/,
  ⟨0x0D8, 0x0, 0x0, 0x0, 0x0, 0x0, 0x0, 0xFFFFFFFF, 0x0⟩ /- CAP_RGN_SEQ -/,
  ⟨0x0DC, 0x0, 0x0, 0x0, 0x0, 0x0, 0x0, 0xFFFFFFFF, 0x0⟩ /- CAP_RGN_TRIG_SEQ -/,
  ⟨0x0E0, 0x3FFF3, 0x0, 0x0, 0x0, 0x0, 0x0, 0x0, 0x110⟩ /- CAP_MATCH_IDX -/,
  ⟨0x0E4, 0xFFFFFFFF, 0x0, 0x0, 0x0, 0x0, 0x0, 0x0, 0x0⟩ /- CAP_MATCH_VAL -/,
  ⟨0x0E8, 0xFFFFFFFF, 0x0, 0x0, 0x0, 0x0, 0x0, 0x0, 0x0⟩ /- CAP_MATCH_MASK -/,
  ⟨0x0EC, 0x37, 0x0, 0x0, 0x0, 0x0, 0x0, 0x0, 0x0⟩ /- CAP_TRG_IDX -/,
  ⟨0x0F0, 0xFFFFFFF, 0xFFFFFFE, 0x0, 0x0, 0x0, 0x0, 0x0, 0x1000⟩ /- CAP_TRG_CFG -/,
  ⟨0x0F4, 0xFFFFFFFF, 0xFFFFFFFF, 0x0, 0x0, 0x0, 0x0, 0x0, 0x0⟩ /- CAP_TRG_SRC -/,
  ⟨0x0F8, 0x0, 0x0, 0x0, 0x0, 0x0, 0x0, 0xF3F, 0x0⟩ /- CAP_TRG_STATUS -/,
  ⟨0x0FC, 0x0, 0x0, 0x0, 0x0, 0x1FF, 0x0, 0x0, 0x0⟩ /- CAP_TRG_CMD -/,
  ⟨0x200, 0xF73FFF, 0xF73FFF, 0x0, 0x0, 0x0, 0x0, 0x0, 0x300002⟩ /- OHP_CFG -/,
  ⟨0x204, 0x0, 0x0, 0x0, 0x0, 0x1, 0x0, 0x0, 0x0⟩ /- OHP_CTRL -/,
  ⟨0x208, 0x0, 0x0, 0x0, 0x0, 0x0, 0x0, 0xFF01, 0x0⟩ /- OHP_STATUS -/,
  ⟨0x20C, 0x0, 0x0, 0x70F, 0x0, 0x0, 0x0, 0x0, 0x0⟩ /- OHP_EVENT -/,
  ⟨0x210, 0x0, 0x0, 0x0, 0x0, 0x0, 0x0, 0xFFFFFFFF, 0x0⟩ /- OHP_APS -/,
  ⟨0x214, 0x0, 0x0, 0x0, 0x0, 0x0, 0x0, 0x800000FF, 0x0⟩ /- OHP_LABEL -/,
  ⟨0x218, 0x0, 0x0, 0x0, 0xFFFFFFFF, 0x0, 0x0, 0x0, 0x0⟩ /- OHP_CNT_0 -/,
  ⟨0x21C, 0x0, 0x0, 0x0, 0xFFFFFFFF, 0x0, 0x0, 0x0, 0x0⟩ /- OHP_CNT_1 -/,
  ⟨0x220, 0x0, 0x0, 0x0, 0xFFFFFFFF, 0x0, 0x0, 0x0, 0x0⟩ /- OHP_CNT_2 -/,
  ⟨0x224, 0x0, 0x0, 0x0, 0xFFFFFFFF, 0x0, 0x0, 0x0, 0x0⟩ /- OHP_CNT_3 -/,
  ⟨0x230, 0x0, 0x0, 0x0, 0xFFFFFFFF, 0x0, 0x0, 0x0, 0x0⟩ /- OHP_TCM1_BIP -/,
  ⟨0x234, 0x0, 0x0, 0x0, 0xFFFFFFFF, 0x0, 0x0, 0x0, 0x0⟩ /- OHP_TCM1_BEI -/,
  ⟨0x238, 0x0, 0x0, 0x0, 0xFFFFFFFF, 0x0, 0x0, 0x0, 0x0⟩ /- OHP_TCM2_BIP -/,
  ⟨0x23C, 0x0, 0x0, 0x0, 0xFFFFFFFF, 0x0, 0x0, 0x0, 0x0⟩ /- OHP_TCM2_BEI -/,
  ⟨0x240, 0x0, 0x0, 0x0, 0xFFFFFFFF, 0x0, 0x0, 0x0, 0x0⟩ /- OHP_TCM3_BIP -/,
  ⟨0x244, 0x0, 0x0, 0x0, 0xFFFFFFFF, 0x0, 0x0, 0x0, 0x0⟩ /- OHP_TCM3_BEI -/,
  ⟨0x248, 0x0, 0x0, 0x0, 0xFFFFFFFF, 0x0, 0x0, 0x0, 0x0⟩ /- OHP_TCM4_BIP -/,
  ⟨0x24C, 0x0, 0x0, 0x0, 0xFFFFFFFF, 0x0, 0x0, 0x0, 0x0⟩ /- OHP_TCM4_BEI -/,
  ⟨0x250, 0x0, 0x0, 0x0, 0xFFFFFFFF, 0x0, 0x0, 0x0, 0x0⟩ /- OHP_TCM5_BIP -/,
  ⟨0x254, 0x0, 0x0, 0x0, 0xFFFFFFFF, 0x0, 0x0, 0x0, 0x0⟩ /- OHP_TCM5_BEI -/,
  ⟨0x258, 0x0, 0x0, 0x0, 0xFFFFFFFF, 0x0, 0x0, 0x0, 0x0⟩ /- OHP_TCM6_BIP -/,
  ⟨0x25C, 0x0, 0x0, 0x0, 0xFFFFFFFF, 0x0, 0x0, 0x0, 0x0⟩ /- OHP_TCM6_BEI -/,
  ⟨0x260, 0x38FFF, 0x0, 0x0, 0x0, 0x0, 0x0, 0x0, 0x0⟩ /- OHP_TTI_IDX -/,
  ⟨0x264, 0x0, 0x0, 0x0, 0x0, 0x1, 0x0, 0x0, 0x0⟩ /- OHP_TTI_CMD -/,
  ⟨0x268, 0x3F, 0x0, 0x400, 0x0, 0x0, 0x0, 0x300, 0x8⟩ /- OHP_TTI_SLOT -/,
  ⟨0x26C, 0x3FFF7FFF, 0x0, 0x0, 0x0, 0x0, 0x0, 0x0, 0x11⟩ /- OHP_BYTE_IDX -/,
  ⟨0x270, 0x7FF, 0x400, 0x0, 0x0, 0x0, 0x0, 0x80FF0000, 0x0⟩ /- OHP_BYTE_CFG -/,
  ⟨0x2C0, 0x3, 0x3, 0x0, 0x0, 0x0, 0x0, 0x0, 0x0⟩ /- MAP_CFG -/]

/-- Registers of the block `eng`, part 2. -/
def engRows2 : List Row := [
  ⟨0x2C4, 0x0, 0x0, 0x0, 0x0, 0xFFFF, 0x0, 0x0, 0x0⟩ /- MAP_CTRL -/,
  ⟨0x2C8, 0x0, 0x0, 0x0, 0x0, 0x0, 0x0, 0x7FFF, 0x0⟩ /- MAP_STATUS -/,
  ⟨0x2CC, 0x0, 0x0, 0x103, 0x0, 0x0, 0x0, 0x0, 0x0⟩ /- MAP_EVENT -/,
  ⟨0x2D0, 0x3FF, 0x0, 0x0, 0x0, 0x0, 0x0, 0x0, 0x0⟩ /- MAP_SEQ_IDX -/,
  ⟨0x2D4, 0xFFFF3FFF, 0x0, 0x0, 0x0, 0x0, 0x0, 0x0, 0x10000⟩ /- MAP_SEQ_DATA -/,
  ⟨0x2D8, 0x7F, 0x0, 0x0, 0x0, 0x0, 0x0, 0x0, 0x1⟩ /- MAP_MSI_IDX -/,
  ⟨0x2DC, 0x0, 0x0, 0x0, 0x0, 0x0, 0x0, 0x1FFFF, 0x0⟩ /- MAP_MSI -/,
  ⟨0x2E0, 0xFF, 0xFF, 0x0, 0x0, 0x0, 0x0, 0x0, 0x0⟩ /- DEF_CFG -/,
  ⟨0x2E4, 0x3F, 0x0, 0x0, 0x0, 0x0, 0x0, 0x0, 0x3⟩ /- DEF_ACT -/,
  ⟨0x2E8, 0x3FFF3FFF, 0x0, 0x0, 0x0, 0x0, 0x0, 0x0, 0x0⟩ /- DEF_INTEG_LINE -/,
  ⟨0x2EC, 0x3FFF3FFF, 0x0, 0x0, 0x0, 0x0, 0x0, 0x0, 0x0⟩ /- DEF_INTEG_PATH -/,
  ⟨0x2F0, 0x0, 0x0, 0x0, 0x0, 0x0, 0x0, 0xFFFFFFFF, 0x0⟩ /- DEF_STATUS -/,
  ⟨0x2F4, 0x0, 0x0, 0xCCFFFFFF, 0x0, 0x0, 0x0, 0x0, 0x0⟩ /- DEF_EVENT -/,
  ⟨0x2F8, 0x0, 0x0, 0x0, 0x0, 0x0, 0x0, 0x3FFFFFFF, 0x0⟩ /- DEF_TCM -/,
  ⟨0x2FC, 0x1FFFFF, 0x0, 0x0, 0x0, 0x0, 0x0, 0x0, 0x110000⟩ /- DEF_SF_WIN -/,
  ⟨0x300, 0xFFFFFFFF, 0x0, 0x0, 0x0, 0x0, 0x0, 0x0, 0x0⟩ /- DEF_SF_SET -/,
  ⟨0x304, 0xFFFFFFFF, 0x0, 0x0, 0x0, 0x0, 0x0, 0x0, 0x0⟩ /- DEF_SF_CLR -/,
  ⟨0x308, 0xFFFFF, 0x0, 0x0, 0x0, 0x0, 0x0, 0x0, 0x10000⟩ /- DEF_SD_WIN -/,
  ⟨0x30C, 0xFFFFFFFF, 0x0, 0x0, 0x0, 0x0, 0x0, 0x0, 0x0⟩ /- DEF_SD_SET -/,
  ⟨0x310, 0xFFFFFFFF, 0x0, 0x0, 0x0, 0x0, 0x0, 0x0, 0x0⟩ /- DEF_SD_CLR -/,
  ⟨0x314, 0x3FFF, 0x0, 0x0, 0x0, 0x0, 0x0, 0x0, 0x0⟩ /- DEF_PATH_IDX -/,
  ⟨0x318, 0x0, 0x0, 0x0, 0x0, 0x0, 0x0, 0x80000FFF, 0x0⟩ /- DEF_PATH_STATUS -/,
  ⟨0x31C, 0x7F7FFF, 0x0, 0x0, 0x0, 0x0, 0x0, 0x0, 0x0⟩ /- DEF_PM_CFG -/,
  ⟨0x320, 0x0, 0x0, 0x0, 0xFFFFFFFF, 0x0, 0x0, 0x0, 0x0⟩ /- DEF_PM_L0_ES -/,
  ⟨0x324, 0x0, 0x0, 0x0, 0xFFFFFFFF, 0x0, 0x0, 0x0, 0x0⟩ /- DEF_PM_L0_SES -/,
  ⟨0x328, 0x0, 0x0, 0x0, 0xFFFFFFFF, 0x0, 0x0, 0x0, 0x0⟩ /- DEF_PM_L0_BBE -/,
  ⟨0x32C, 0x0, 0x0, 0x0, 0xFFFFFFFF, 0x0, 0x0, 0x0, 0x0⟩ /- DEF_PM_L0_UAS -/,
  ⟨0x330, 0x0, 0x0, 0x0, 0xFFFFFFFF, 0x0, 0x0, 0x0, 0x0⟩ /- DEF_PM_L1_ES -/,
  ⟨0x334, 0x0, 0x0, 0x0, 0xFFFFFFFF, 0x0, 0x0, 0x0, 0x0⟩ /- DEF_PM_L1_SES -/,
  ⟨0x338, 0x0, 0x0, 0x0, 0xFFFFFFFF, 0x0, 0x0, 0x0, 0x0⟩ /- DEF_PM_L1_BBE -/,
  ⟨0x33C, 0x0, 0x0, 0x0, 0xFFFFFFFF, 0x0, 0x0, 0x0, 0x0⟩ /- DEF_PM_L1_UAS -/,
  ⟨0x340, 0x0, 0x0, 0x0, 0xFFFFFFFF, 0x0, 0x0, 0x0, 0x0⟩ /- DEF_PM_L2_ES -/,
  ⟨0x344, 0x0, 0x0, 0x0, 0xFFFFFFFF, 0x0, 0x0, 0x0, 0x0⟩ /- DEF_PM_L2_SES -/,
  ⟨0x348, 0x0, 0x0, 0x0, 0xFFFFFFFF, 0x0, 0x0, 0x0, 0x0⟩ /- DEF_PM_L2_BBE -/,
  ⟨0x34C, 0x0, 0x0, 0x0, 0xFFFFFFFF, 0x0, 0x0, 0x0, 0x0⟩ /- DEF_PM_L2_UAS -/,
  ⟨0x350, 0x0, 0x0, 0x0, 0xFFFFFFFF, 0x0, 0x0, 0x0, 0x0⟩ /- DEF_PM_L3_ES -/,
  ⟨0x354, 0x0, 0x0, 0x0, 0xFFFFFFFF, 0x0, 0x0, 0x0, 0x0⟩ /- DEF_PM_L3_SES -/,
  ⟨0x358, 0x0, 0x0, 0x0, 0xFFFFFFFF, 0x0, 0x0, 0x0, 0x0⟩ /- DEF_PM_L3_BBE -/,
  ⟨0x35C, 0x0, 0x0, 0x0, 0xFFFFFFFF, 0x0, 0x0, 0x0, 0x0⟩ /- DEF_PM_L3_UAS -/,
  ⟨0x360, 0x0, 0x0, 0x0, 0x0, 0x0, 0x0, 0xFFFFFF0F, 0x0⟩ /- DEF_PM_STATUS -/]

/-- Registers of the block `eng`, part 3. -/
def engRows3 : List Row := [
  ⟨0x364, 0x1FFF, 0x1FFF, 0x0, 0x0, 0x0, 0x0, 0x0, 0x400⟩ /- PAT_CFG -/,
  ⟨0x368, 0x0, 0x0, 0x0, 0x0, 0x7FFFF, 0x0, 0x0, 0x0⟩ /- PAT_CTRL -/,
  ⟨0x36C, 0x0, 0x0, 0x0, 0x0, 0x0, 0x0, 0x3FFFF, 0x8000⟩ /- PAT_STATUS -/,
  ⟨0x370, 0x0, 0x0, 0x3FFF, 0x0, 0x0, 0x0, 0x0, 0x0⟩ /- PAT_EVENT -/,
  ⟨0x374, 0xFFFF0FFF, 0x0, 0x0, 0x0, 0x0, 0x0, 0x0, 0x0⟩ /- PAT_Q_DESC -/,
  ⟨0x378, 0xFFFFFFFF, 0x0, 0x0, 0x0, 0x0, 0x0, 0x0, 0x0⟩ /- PAT_Q_TIME_LO -/,
  ⟨0x37C, 0xFFFF, 0x0, 0x0, 0x0, 0x80000000, 0x0, 0x0, 0x0⟩ /- PAT_Q_TIME_HI -/,
  ⟨0x380, 0xFFF, 0xFFE, 0x0, 0x0, 0x0, 0x0, 0x0, 0x450⟩ /- APS_CFG -/,
  ⟨0x384, 0x3FF007F, 0x0, 0x0, 0x0, 0x0, 0x0, 0x0, 0x12C0000⟩ /- APS_TIMERS -/,
  ⟨0x388, 0x0, 0x0, 0x0, 0x0, 0xF0F, 0x0, 0x0, 0x0⟩ /- APS_CMD -/,
  ⟨0x38C, 0x0, 0x0, 0x0, 0x0, 0x0, 0x0, 0x7FFFFFF7, 0x0⟩ /- APS_STATUS -/,
  ⟨0x390, 0x0, 0x0, 0x31F, 0x0, 0x0, 0x0, 0x0, 0x0⟩ /- APS_EVENT -/,
  ⟨0x394, 0x3FFF, 0x0, 0x0, 0x0, 0x0, 0x0, 0x0, 0x0⟩ /- APS_MEMBER -/,
  ⟨0x398, 0x0, 0x0, 0x0, 0xFFFFFFFF, 0x0, 0x0, 0x0, 0x0⟩ /- APS_SW_CNT -/,
  ⟨0x39C, 0x0, 0x0, 0x0, 0x0, 0x0, 0x0, 0xFFFFFFFF, 0x0⟩ /- APS_SW_TIME_LO -/,
  ⟨0x3A0, 0x0, 0x0, 0x0, 0x0, 0x0, 0x0, 0xFFFFFFFF, 0x0⟩ /- APS_SW_TIME_HI -/,
  ⟨0x3A4, 0x0, 0x0, 0x0, 0x0, 0x0, 0x0, 0xFFFFFFFF, 0x0⟩ /- APS_TX -/,
  ⟨0x3B0, 0xFF01FFFF, 0xFF01FFFF, 0x0, 0x0, 0x0, 0x0, 0x0, 0x0⟩ /- DSK_CFG -/,
  ⟨0x3BC, 0x0, 0x0, 0x0, 0x0, 0x0, 0x0, 0x3F, 0x0⟩ /- DSK_STATUS -/,
  ⟨0x3C0, 0x0, 0x0, 0x1F, 0x0, 0x0, 0x0, 0x0, 0x0⟩ /- DSK_EVENT -/,
  ⟨0x3C4, 0x0, 0x0, 0x0, 0x0, 0x0, 0x0, 0xFFFFFFFF, 0x0⟩ /- DSK_DELAY -/,
  ⟨0x3C8, 0x3FF, 0x0, 0x0, 0x0, 0x0, 0x0, 0x0, 0x0⟩ /- PAT_RGN_IDX -/,
  ⟨0x3CC, 0x1, 0x0, 0x0, 0x0, 0x0, 0x0, 0x6, 0x0⟩ /- PAT_RGN_CFG -/,
  ⟨0x3D0, 0x1FFFFF, 0x1FFFFF, 0x0, 0x0, 0x0, 0x0, 0x0, 0x0⟩ /- PAT_RGN_BASE -/,
  ⟨0x3D4, 0x1FFFFF, 0x1FFFFF, 0x0, 0x0, 0x0, 0x0, 0x0, 0x0⟩ /- PAT_RGN_SIZE -/,
  ⟨0x3D8, 0x0, 0x0, 0x0, 0x0, 0x0, 0x0, 0xFFFFFFFF, 0x0⟩ /- PAT_LAST_LO -/,
  ⟨0x3DC, 0x0, 0x0, 0x0, 0x0, 0x0, 0x0, 0xFFFFFFFF, 0x0⟩ /- PAT_LAST_HI -/,
  ⟨0x3E0, 0x37F, 0x37F, 0x0, 0x0, 0x0, 0x0, 0x0, 0x0⟩ /- SWB_RX_BIND -/,
  ⟨0x3E4, 0x0, 0x0, 0x1, 0x0, 0x0, 0x0, 0x2, 0x0⟩ /- SWB_RX_STATUS -/,
  ⟨0x3E8, 0x0, 0x0, 0x0, 0xFFFFFFFF, 0x0, 0x0, 0x0, 0x0⟩ /- PAT_CNT -/,
  ⟨0x3EC, 0xFFFFFFFF, 0x0, 0x0, 0x0, 0x0, 0x0, 0x0, 0x0⟩ /- PAT_INJ_TGT -/,
  ⟨0x3F0, 0xFFFFFFFF, 0x0, 0x0, 0x0, 0x0, 0x0, 0x0, 0x0⟩ /- PAT_INJ_VAL -/,
  ⟨0x3F4, 0xFFFFFF3F, 0x0, 0x0, 0x0, 0x40, 0x0, 0x0, 0x1000100⟩ /- PAT_INJ_CFG -/,
  ⟨0x3F8, 0x0, 0x0, 0x0, 0x0, 0x0, 0x0, 0x1FFFF, 0x0⟩ /- PAT_INJ_STATUS -/,
  ⟨0x3FC, 0x0, 0x0, 0x0, 0x0, 0x0, 0x0, 0x803FFFFF, 0x0⟩ /- PAT_CUR -/]

/-- Every register of the block `eng`. -/
def engRows : List Row := engRows0 ++ engRows1 ++ engRows2 ++ engRows3

/-- Registers of the block `lane`. -/
def laneRows0 : List Row := [
  ⟨0x000, 0x3, 0x4, 0x0, 0x0, 0x4, 0x0, 0x0, 0x0⟩ /- LN_CTRL -/,
  ⟨0x004, 0xFF, 0xFF, 0x0, 0x0, 0x0, 0x0, 0x0, 0x0⟩ /- LN_CFG -/,
  ⟨0x008, 0x1FFFFFF, 0x1FFFFFF, 0x0, 0x0, 0x0, 0x0, 0x0, 0x0⟩ /- LN_RATE -/,
  ⟨0x00C, 0x1FF7F03, 0x1FF7F03, 0x0, 0x0, 0x0, 0x0, 0x0, 0x0⟩ /- LN_TX -/,
  ⟨0x010, 0xFFFF, 0x0, 0x0, 0x0, 0x0, 0x0, 0x0, 0x0⟩ /- LN_TX_PPM -/,
  ⟨0x014, 0xFFFFF, 0x0, 0x0, 0x0, 0x0, 0x0, 0x0, 0x64⟩ /- LN_LOS_SET -/,
  ⟨0x018, 0xFFFFF, 0x0, 0x0, 0x0, 0x0, 0x0, 0x0, 0x4E2⟩ /- LN_LOS_CLR -/,
  ⟨0x020, 0x0, 0x0, 0x0, 0x0, 0x0, 0x0, 0xFF, 0x40⟩ /- LN_STATUS -/,
  ⟨0x024, 0x0, 0x0, 0x30F, 0x0, 0x0, 0x0, 0x0, 0x0⟩ /- LN_EVENT -/,
  ⟨0x028, 0x0, 0x0, 0x0, 0x0, 0x0, 0x0, 0xFFFF, 0x0⟩ /- LN_FREQ_MEAS -/,
  ⟨0x030, 0x0, 0x0, 0x0, 0xFFFFFFFF, 0x0, 0x0, 0x0, 0x0⟩ /- LN_LOS_CNT -/,
  ⟨0x034, 0x0, 0x0, 0x0, 0xFFFFFFFF, 0x0, 0x0, 0x0, 0x0⟩ /- LN_LOCK_LOSS_CNT -/,
  ⟨0x038, 0x0, 0x0, 0x0, 0xFFFFFFFF, 0x0, 0x0, 0x0, 0x0⟩ /- LN_FLAP_CNT -/,
  ⟨0x100, 0x1, 0x1, 0x0, 0x0, 0x0, 0x0, 0x0, 0x0⟩ /- LN_QUAD_MODE -/,
  ⟨0x104, 0xC, 0x0, 0x0, 0x0, 0x0, 0x0, 0x3, 0x8⟩ /- LN_QUAD_MOD -/,
  ⟨0x108, 0xFF03, 0x0, 0x0, 0x0, 0x0, 0x0, 0x0, 0xA01⟩ /- LN_MMB_CFG -/,
  ⟨0x10C, 0x0, 0x0, 0x0, 0x0, 0x8001FFFF, 0x0, 0x0, 0x0⟩ /- LN_MMB_CMD -/,
  ⟨0x110, 0x0, 0x0, 0x7E, 0x0, 0x0, 0x0, 0xFF01, 0x0⟩ /- LN_MMB_STATUS -/]

/-- Every register of the block `lane`. -/
def laneRows : List Row := laneRows0

/-- Registers of the block `trb`. -/
def trbRows0 : List Row := [
  ⟨0x000, 0xFFFFFFF, 0xFFFFFFE, 0x0, 0x0, 0x0, 0x0, 0x0, 0x0⟩ /- TRB_CFG -/,
  ⟨0x004, 0x7FFFFF, 0x7FFFFF, 0x0, 0x0, 0x0, 0x0, 0x0, 0x0⟩ /- TRB_POS -/,
  ⟨0x008, 0xFFFFFFFF, 0xFFFFFFFF, 0x0, 0x0, 0x0, 0x0, 0x0, 0x0⟩ /- TRB_TS0 -/,
  ⟨0x00C, 0xFFFFFFFF, 0xFFFFFFFF, 0x0, 0x0, 0x0, 0x0, 0x0, 0x0⟩ /- TRB_TS1 -/,
  ⟨0x010, 0xFFFF, 0xFFFF, 0x0, 0x0, 0x0, 0x0, 0x0, 0x0⟩ /- TRB_TS2 -/,
  ⟨0x014, 0xFFFF1FFF, 0xFFFF1FFF, 0x0, 0x0, 0x0, 0x0, 0x0, 0x0⟩ /- TRB_PATH -/,
  ⟨0x018, 0x3FFFFFFF, 0x3FFFFFFC, 0x0, 0x0, 0x0, 0x0, 0x0, 0x1000000⟩ /- TRB_TX -/,
  ⟨0x01C, 0xFFFFFFFF, 0xFFFFFFFF, 0x0, 0x0, 0x0, 0x0, 0x0, 0x1⟩ /- TRB_TX2 -/,
  ⟨0x020, 0x3FFF3FFF, 0x3FFF3FFF, 0x0, 0x0, 0x0, 0x0, 0x0, 0x3FFF0000⟩ /- TRB_GMP -/,
  ⟨0x024, 0x3FFF, 0x3FFF, 0x0, 0x0, 0x0, 0x0, 0x3FFF0000, 0x0⟩ /- TRB_GMP_TX -/,
  ⟨0x028, 0x0, 0x0, 0x0, 0x0, 0x0, 0x0, 0x7FFFFFF, 0x0⟩ /- TRB_STATUS -/,
  ⟨0x02C, 0x0, 0x0, 0xFFF, 0x0, 0x0, 0x0, 0x0, 0x0⟩ /- TRB_EVENT -/,
  ⟨0x030, 0x0, 0x0, 0x0, 0xFFFFFFFF, 0x0, 0x0, 0x0, 0x0⟩ /- TRB_BIP_CNT -/,
  ⟨0x034, 0x0, 0x0, 0x0, 0xFFFFFFFF, 0x0, 0x0, 0x0, 0x0⟩ /- TRB_REI_CNT -/,
  ⟨0x038, 0x0, 0x0, 0x0, 0xFFFFFFFF, 0x0, 0x0, 0x0, 0x0⟩ /- TRB_JUST_CNT -/,
  ⟨0x03C, 0x0, 0x0, 0x0, 0xFFFFFFFF, 0x0, 0x0, 0x0, 0x0⟩ /- TRB_ERR_CNT -/]

/-- Every register of the block `trb`. -/
def trbRows : List Row := trbRows0

/-- Registers of the block `tp`. -/
def tpRows0 : List Row := [
  ⟨0x000, 0x3F, 0x1E, 0x0, 0x0, 0x0, 0x0, 0x0, 0x0⟩ /- TP_CFG -/,
  ⟨0x004, 0xFFFFFFFF, 0x0, 0x0, 0x0, 0x0, 0x0, 0x0, 0x8186A0⟩ /- TP_WIDTH -/,
  ⟨0x008, 0xFFFFFFFF, 0x0, 0x0, 0x0, 0x0, 0x0, 0x0, 0x0⟩ /- TP_OUT_OFFSET -/,
  ⟨0x00C, 0xFFFFFFFF, 0x0, 0x0, 0x0, 0x0, 0x0, 0x0, 0x0⟩ /- TP_TIME_LO -/,
  ⟨0x010, 0x8000FFFF, 0x0, 0x0, 0x0, 0x0, 0x0, 0x0, 0x0⟩ /- TP_TIME_HI -/,
  ⟨0x014, 0xFFFFFFFF, 0x0, 0x0, 0x0, 0x0, 0x0, 0x0, 0x0⟩ /- TP_PERIOD -/,
  ⟨0x018, 0x0, 0x0, 0x0, 0x0, 0x0, 0x0, 0x7, 0x0⟩ /- TP_STATUS -/,
  ⟨0x01C, 0x0, 0x0, 0x37F, 0x0, 0x0, 0x0, 0x0, 0x0⟩ /- TP_EVENT -/,
  ⟨0x020, 0x0, 0x0, 0x0, 0x0, 0x0, 0x0, 0xFFFFFFFF, 0x0⟩ /- TP_LAST_LO -/,
  ⟨0x024, 0x0, 0x0, 0x0, 0x0, 0x0, 0x0, 0xFFFFFFFF, 0x0⟩ /- TP_LAST_HI -/,
  ⟨0x028, 0x0, 0x0, 0x0, 0xFFFFFFFF, 0x0, 0x0, 0x0, 0x0⟩ /- TP_EDGE_CNT -/,
  ⟨0x02C, 0x0, 0x0, 0x0, 0xFFFFFFFF, 0x0, 0x0, 0x0, 0x0⟩ /- TP_MERGE_CNT -/,
  ⟨0x030, 0x0, 0x0, 0x0, 0xFFFFFFFF, 0x0, 0x0, 0x0, 0x0⟩ /- TP_GLITCH_CNT -/]

/-- Every register of the block `tp`. -/
def tpRows : List Row := tpRows0

end RegMap

/-- The registers that arrays of equal registers hold: HNT_CAND0-63, OHP_TTI_DATA0-15 and
LN_MMB_DATA0-31. -/
def Row.array (b : Blk) (off : Nat) : Option Row :=
  match b with
  | .eng =>
    if 0x100 ≤ off ∧ off ≤ 0x1FC ∧ off % 4 = 0 then some ⟨off, 0, 0, 0, 0, 0, 0, 0xFFFF3FFF, 0⟩
    else if 0x280 ≤ off ∧ off ≤ 0x2BC ∧ off % 4 = 0 then some ⟨off, 0xFFFFFFFF, 0, 0, 0, 0, 0, 0, 0⟩
    else none
  | .lane =>
    if 0x180 ≤ off ∧ off ≤ 0x1FC ∧ off % 4 = 0 then some ⟨off, 0xFFFFFFFF, 0, 0, 0, 0, 0, 0, 0⟩
    else none
  | _ => none

/-- The rows of a block.  The indexed objects (capture regions, combiners, time compares, matchers,
pattern regions, overhead bytes, sequence steps and so on) have the rows of the registers they are
reached through. -/
def Blk.rows : Blk → List Row
  | .glb => RegMap.glbRows
  | .svc => RegMap.svcRows
  | .led => RegMap.ledRows
  | .yrd => RegMap.yrdRows
  | .tim => RegMap.timRows
  | .hst => RegMap.hstRows
  | .pav => RegMap.pavRows
  | .gth => RegMap.gthRows
  | .tdm => RegMap.tdmRows
  | .eng => RegMap.engRows
  | .lane => RegMap.laneRows
  | .trb => RegMap.trbRows
  | .tp => RegMap.tpRows
  | .rgn | .comb | .tcmp | .mat | .prgn | .obyte | .tslot | .seqStep | .msi => RegMap.engRows
  | .xmem => RegMap.tdmRows
  | .stack | .pc | .yport => RegMap.yrdRows
  | .slot => RegMap.ledRows

/-- The row of a register, or `none` for a reserved word (R297). -/
def RegId.row (r : RegId) : Option Row :=
  match r.blk.rows.find? (fun x => x.off == r.off) with
  | some x => some x
  | none => Row.array r.blk r.off

/-- The reset value of a register (R11); a reserved word holds 0. -/
def RegId.resetWord (r : RegId) : Word :=
  match r.row with
  | some x =>
    -- CAP resets to 1 for every transport overhead byte and to 0 in the contexts (R92)
    if r.blk = .obyte ∧ r.idx < 2 ^ 24 then 0x400 else BitVec.ofNat 32 x.reset
  | none => 0

/-! Names of the registers, by block; the argument is the index of the engine, lane window,
context or timing port. -/
namespace R

def GLB_ID : RegId := ⟨.glb, 0, 0x000⟩
def GLB_UNIT : RegId := ⟨.glb, 0, 0x004⟩
def GLB_FW_VER : RegId := ⟨.glb, 0, 0x008⟩
def GLB_READY : RegId := ⟨.glb, 0, 0x00C⟩
def GLB_ENG_READY0 : RegId := ⟨.glb, 0, 0x010⟩
def GLB_ENG_READY1 : RegId := ⟨.glb, 0, 0x014⟩
def GLB_ENG_READY2 : RegId := ⟨.glb, 0, 0x018⟩
def GLB_ENG_READY3 : RegId := ⟨.glb, 0, 0x01C⟩
def GLB_ENG_READY4 : RegId := ⟨.glb, 0, 0x020⟩
def GLB_LANE_READY0 : RegId := ⟨.glb, 0, 0x024⟩
def GLB_LANE_READY1 : RegId := ⟨.glb, 0, 0x028⟩
def GLB_LANE_READY2 : RegId := ⟨.glb, 0, 0x02C⟩
def GLB_LANE_READY3 : RegId := ⟨.glb, 0, 0x030⟩
def GLB_SCRATCH : RegId := ⟨.glb, 0, 0x034⟩
def GLB_EVENT : RegId := ⟨.glb, 0, 0x040⟩
def GLB_LOCK : RegId := ⟨.glb, 0, 0x044⟩
def GLB_FAULT_CFG : RegId := ⟨.glb, 0, 0x048⟩
def GLB_FAULT_STATUS : RegId := ⟨.glb, 0, 0x04C⟩
def GLB_PWR_CTRL : RegId := ⟨.glb, 0, 0x050⟩
def GLB_PWR_STATUS : RegId := ⟨.glb, 0, 0x054⟩
def GLB_VIN_L : RegId := ⟨.glb, 0, 0x058⟩
def GLB_VIN_H : RegId := ⟨.glb, 0, 0x05C⟩
def GLB_POWER : RegId := ⟨.glb, 0, 0x060⟩
def GLB_TEMP : RegId := ⟨.glb, 0, 0x064⟩
def GLB_THERM_CFG : RegId := ⟨.glb, 0, 0x068⟩
def GLB_SEC_STATUS : RegId := ⟨.glb, 0, 0x06C⟩
def GLB_RST_CAUSE : RegId := ⟨.glb, 0, 0x070⟩
def GLB_EVENT_SEQ : RegId := ⟨.glb, 0, 0x074⟩
def GLB_REFUSE_CNT : RegId := ⟨.glb, 0, 0x078⟩
def GLB_REFUSE_ADDR : RegId := ⟨.glb, 0, 0x07C⟩
def GLB_REFUSE_INFO : RegId := ⟨.glb, 0, 0x080⟩
def SVC_CFG : RegId := ⟨.svc, 0, 0x000⟩
def SVC_STATUS : RegId := ⟨.svc, 0, 0x004⟩
def SVC_EVENT : RegId := ⟨.svc, 0, 0x008⟩
def SVC_UND_LAST : RegId := ⟨.svc, 0, 0x00C⟩
def SVC_UND_PASS_CNT : RegId := ⟨.svc, 0, 0x010⟩
def SVC_UND_MISMATCH_CNT : RegId := ⟨.svc, 0, 0x014⟩
def SVC_UND_SKIP_CNT : RegId := ⟨.svc, 0, 0x018⟩
def SVC_SUB : RegId := ⟨.svc, 0, 0x01C⟩
def SVC_SPARE0 : RegId := ⟨.svc, 0, 0x020⟩
def SVC_SPARE1 : RegId := ⟨.svc, 0, 0x024⟩
def SVC_SPARE2 : RegId := ⟨.svc, 0, 0x028⟩
def SVC_SPARE3 : RegId := ⟨.svc, 0, 0x02C⟩
def SVC_SPARE4 : RegId := ⟨.svc, 0, 0x030⟩
def SVC_RETIRED0 : RegId := ⟨.svc, 0, 0x034⟩
def SVC_RETIRED1 : RegId := ⟨.svc, 0, 0x038⟩
def SVC_RETIRED2 : RegId := ⟨.svc, 0, 0x03C⟩
def SVC_RETIRED3 : RegId := ⟨.svc, 0, 0x040⟩
def SVC_RETIRED4 : RegId := ⟨.svc, 0, 0x044⟩
def LED_STATUS : RegId := ⟨.led, 0, 0x000⟩
def LED_EVENT : RegId := ⟨.led, 0, 0x004⟩
def LED_UID_CMD : RegId := ⟨.led, 0, 0x008⟩
def LED_LMS : RegId := ⟨.led, 0, 0x00C⟩
def LED_LMS_HWM : RegId := ⟨.led, 0, 0x010⟩
def LED_BSN : RegId := ⟨.led, 0, 0x014⟩
def LED_BSN_PEND : RegId := ⟨.led, 0, 0x018⟩
def LED_STAGE : RegId := ⟨.led, 0, 0x01C⟩
def LED_SLOT_IDX : RegId := ⟨.led, 0, 0x020⟩
def LED_SLOT0 : RegId := ⟨.led, 0, 0x024⟩
def LED_SLOT1 : RegId := ⟨.led, 0, 0x028⟩
def LED_SLOT2 : RegId := ⟨.led, 0, 0x02C⟩
def LED_SLOT3 : RegId := ⟨.led, 0, 0x030⟩
def LED_SLOT4 : RegId := ⟨.led, 0, 0x034⟩
def LED_SLOT5 : RegId := ⟨.led, 0, 0x038⟩
def LED_SLOT6 : RegId := ⟨.led, 0, 0x03C⟩
def LED_SLOT7 : RegId := ⟨.led, 0, 0x040⟩
def LED_ATTEST_CNT : RegId := ⟨.led, 0, 0x044⟩
def YRD_CFG : RegId := ⟨.yrd, 0, 0x000⟩
def YRD_EVENT : RegId := ⟨.yrd, 0, 0x004⟩
def YRD_DECODE_CNT : RegId := ⟨.yrd, 0, 0x008⟩
def YRD_LOCK_TMO_CNT : RegId := ⟨.yrd, 0, 0x00C⟩
def YRD_TIMEOUT_CNT : RegId := ⟨.yrd, 0, 0x010⟩
def YRD_ERR_LO : RegId := ⟨.yrd, 0, 0x014⟩
def YRD_ERR_HI : RegId := ⟨.yrd, 0, 0x018⟩
def YRD_PORT_IDX : RegId := ⟨.yrd, 0, 0x020⟩
def YRD_PORT_STATUS : RegId := ⟨.yrd, 0, 0x024⟩
def HAY_IDX : RegId := ⟨.yrd, 0, 0x100⟩
def HAY_STATUS : RegId := ⟨.yrd, 0, 0x104⟩
def HAY_EVENT : RegId := ⟨.yrd, 0, 0x108⟩
def HAY_CFG : RegId := ⟨.yrd, 0, 0x10C⟩
def HAY_SCRUB : RegId := ⟨.yrd, 0, 0x110⟩
def HAY_SCRUB_POS : RegId := ⟨.yrd, 0, 0x114⟩
def HAY_PC_STATUS : RegId := ⟨.yrd, 0, 0x118⟩
def HAY_PC_CE : RegId := ⟨.yrd, 0, 0x11C⟩
def HAY_PC_CE_PASS : RegId := ⟨.yrd, 0, 0x120⟩
def HAY_PC_UE : RegId := ⟨.yrd, 0, 0x124⟩
def HAY_UE_LO : RegId := ⟨.yrd, 0, 0x128⟩
def HAY_UE_HI : RegId := ⟨.yrd, 0, 0x12C⟩
def HAY_MIG : RegId := ⟨.yrd, 0, 0x130⟩
def HAY_MIG_POS : RegId := ⟨.yrd, 0, 0x134⟩
def TIM_CFG : RegId := ⟨.tim, 0, 0x000⟩
def TIM_CTRL : RegId := ⟨.tim, 0, 0x004⟩
def TIM_STATUS : RegId := ⟨.tim, 0, 0x008⟩
def TIM_EVENT : RegId := ⟨.tim, 0, 0x00C⟩
def TIM_NOW_LO : RegId := ⟨.tim, 0, 0x010⟩
def TIM_NOW_HI : RegId := ⟨.tim, 0, 0x014⟩
def TIM_SLEW : RegId := ⟨.tim, 0, 0x018⟩
def TIM_STEP_THR : RegId := ⟨.tim, 0, 0x01C⟩
def TIM_PATH_THR : RegId := ⟨.tim, 0, 0x020⟩
def TIM_STEP_LO : RegId := ⟨.tim, 0, 0x024⟩
def TIM_STEP_HI : RegId := ⟨.tim, 0, 0x028⟩
def TIM_SET_LO : RegId := ⟨.tim, 0, 0x02C⟩
def TIM_SET_HI : RegId := ⟨.tim, 0, 0x030⟩
def TIM_OFFSET_LO : RegId := ⟨.tim, 0, 0x034⟩
def TIM_OFFSET_HI : RegId := ⟨.tim, 0, 0x038⟩
def TIM_MPD : RegId := ⟨.tim, 0, 0x03C⟩
def TIM_FREQ : RegId := ⟨.tim, 0, 0x040⟩
def TIM_PTP_IVL : RegId := ⟨.tim, 0, 0x044⟩
def TIM_PTP_DS : RegId := ⟨.tim, 0, 0x048⟩
def TIM_PTP_IN_LAT0 : RegId := ⟨.tim, 0, 0x050⟩
def TIM_PTP_OUT_LAT0 : RegId := ⟨.tim, 0, 0x054⟩
def TIM_PTP_IN_LAT1 : RegId := ⟨.tim, 0, 0x058⟩
def TIM_PTP_OUT_LAT1 : RegId := ⟨.tim, 0, 0x05C⟩
def TIM_PTP_IN_LAT2 : RegId := ⟨.tim, 0, 0x060⟩
def TIM_PTP_OUT_LAT2 : RegId := ⟨.tim, 0, 0x064⟩
def TIM_PTP_IN_LAT3 : RegId := ⟨.tim, 0, 0x068⟩
def TIM_PTP_OUT_LAT3 : RegId := ⟨.tim, 0, 0x06C⟩
def TIM_GM_ID_LO : RegId := ⟨.tim, 0, 0x070⟩
def TIM_GM_ID_HI : RegId := ⟨.tim, 0, 0x074⟩
def TIM_OUTLIER_CNT : RegId := ⟨.tim, 0, 0x078⟩
def TIM_STEP_REF_CNT : RegId := ⟨.tim, 0, 0x07C⟩
def TIM_GM_CHG_CNT : RegId := ⟨.tim, 0, 0x080⟩
def HST_CFG : RegId := ⟨.hst, 0, 0x000⟩
def HST_TMO : RegId := ⟨.hst, 0, 0x004⟩
def HST_STATUS : RegId := ⟨.hst, 0, 0x008⟩
def HST_EVENT : RegId := ⟨.hst, 0, 0x00C⟩
def HST_MAC_LO : RegId := ⟨.hst, 0, 0x010⟩
def HST_MAC_HI : RegId := ⟨.hst, 0, 0x014⟩
def HST_IPV4 : RegId := ⟨.hst, 0, 0x018⟩
def HST_IPV6_0 : RegId := ⟨.hst, 0, 0x020⟩
def HST_IPV6_1 : RegId := ⟨.hst, 0, 0x024⟩
def HST_IPV6_2 : RegId := ⟨.hst, 0, 0x028⟩
def HST_IPV6_3 : RegId := ⟨.hst, 0, 0x02C⟩
def HST_UDP : RegId := ⟨.hst, 0, 0x030⟩
def HST_RX_CNT : RegId := ⟨.hst, 0, 0x040⟩
def HST_TX_CNT : RegId := ⟨.hst, 0, 0x044⟩
def HST_FMT_DROP_CNT : RegId := ⟨.hst, 0, 0x048⟩
def HST_AUTH_DROP_CNT : RegId := ⟨.hst, 0, 0x04C⟩
def HST_SEQ_DROP_CNT : RegId := ⟨.hst, 0, 0x050⟩
def HST_RO_RESEND_CNT : RegId := ⟨.hst, 0, 0x054⟩
def HST_FEC_CORR_CNT : RegId := ⟨.hst, 0, 0x058⟩
def HST_FEC_UNCORR_CNT : RegId := ⟨.hst, 0, 0x05C⟩
def PAV_STATUS : RegId := ⟨.pav, 0, 0x000⟩
def PAV_EVENT : RegId := ⟨.pav, 0, 0x004⟩
def PAV_JRNL_HEAD : RegId := ⟨.pav, 0, 0x008⟩
def PAV_JRNL_APPLIED : RegId := ⟨.pav, 0, 0x00C⟩
def PAV_CKPT_SEQ0 : RegId := ⟨.pav, 0, 0x010⟩
def PAV_CKPT_SEQ1 : RegId := ⟨.pav, 0, 0x014⟩
def PAV_CKPT_STATUS : RegId := ⟨.pav, 0, 0x018⟩
def PAV_CKPT_CFG : RegId := ⟨.pav, 0, 0x020⟩
def PAV_CKPT_FAIL_CNT : RegId := ⟨.pav, 0, 0x024⟩
def PAV_FW_A : RegId := ⟨.pav, 0, 0x028⟩
def PAV_FW_B : RegId := ⟨.pav, 0, 0x02C⟩
def PAV_INDET_CNT : RegId := ⟨.pav, 0, 0x030⟩
def GTH_CFG : RegId := ⟨.gth, 0, 0x000⟩
def GTH_STATUS : RegId := ⟨.gth, 0, 0x004⟩
def GTH_EVENT : RegId := ⟨.gth, 0, 0x008⟩
def GTH_FAILOVER_CNT : RegId := ⟨.gth, 0, 0x00C⟩
def GTH_LAST_GAP : RegId := ⟨.gth, 0, 0x010⟩
def GTH_LAST_LO : RegId := ⟨.gth, 0, 0x014⟩
def GTH_LAST_HI : RegId := ⟨.gth, 0, 0x018⟩
def GTH_DROP_CNT : RegId := ⟨.gth, 0, 0x01C⟩
def GTH_HELD_PEAK : RegId := ⟨.gth, 0, 0x020⟩
def TDM_CFG : RegId := ⟨.tdm, 0, 0x000⟩
def TDM_STATUS : RegId := ⟨.tdm, 0, 0x004⟩
def TDM_EVENT : RegId := ⟨.tdm, 0, 0x008⟩
def TDM_PEER : RegId := ⟨.tdm, 0, 0x00C⟩
def TDM_CAPACITY : RegId := ⟨.tdm, 0, 0x010⟩
def TDM_RT_LOAD : RegId := ⟨.tdm, 0, 0x014⟩
def TDM_CAP_LOAD : RegId := ⟨.tdm, 0, 0x018⟩
def TDM_XMEM_IDX : RegId := ⟨.tdm, 0, 0x01C⟩
def TDM_XMEMBER : RegId := ⟨.tdm, 0, 0x020⟩
def TDM_SPLIT_CNT : RegId := ⟨.tdm, 0, 0x024⟩
def TDM_LINK_ERR_CNT : RegId := ⟨.tdm, 0, 0x028⟩
def TDM_SPLIT_TIME_LO : RegId := ⟨.tdm, 0, 0x02C⟩
def TDM_SPLIT_TIME_HI : RegId := ⟨.tdm, 0, 0x030⟩
def ENG_CTRL (i : Nat) : RegId := ⟨.eng, i, 0x000⟩
def ENG_STATUS (i : Nat) : RegId := ⟨.eng, i, 0x004⟩
def ENG_EVENT (i : Nat) : RegId := ⟨.eng, i, 0x008⟩
def ENG_EB_CE_CNT (i : Nat) : RegId := ⟨.eng, i, 0x00C⟩
def HNT_CFG (i : Nat) : RegId := ⟨.eng, i, 0x040⟩
def HNT_LOF (i : Nat) : RegId := ⟨.eng, i, 0x044⟩
def HNT_CTRL (i : Nat) : RegId := ⟨.eng, i, 0x048⟩
def HNT_STATUS (i : Nat) : RegId := ⟨.eng, i, 0x04C⟩
def HNT_EVENT (i : Nat) : RegId := ⟨.eng, i, 0x050⟩
def HNT_EVICT_CNT (i : Nat) : RegId := ⟨.eng, i, 0x054⟩
def HNT_DROP_CNT (i : Nat) : RegId := ⟨.eng, i, 0x058⟩
def HNT_RETRACT_CNT (i : Nat) : RegId := ⟨.eng, i, 0x05C⟩
def HNT_OOF_CNT (i : Nat) : RegId := ⟨.eng, i, 0x060⟩
def HNT_ERRFR_CNT (i : Nat) : RegId := ⟨.eng, i, 0x064⟩
def HNT_ALIGN (i : Nat) : RegId := ⟨.eng, i, 0x068⟩
def HNT_DECL_TIME_LO (i : Nat) : RegId := ⟨.eng, i, 0x06C⟩
def HNT_DECL_TIME_HI (i : Nat) : RegId := ⟨.eng, i, 0x070⟩
def HNT_OTL_LANES (i : Nat) : RegId := ⟨.eng, i, 0x074⟩
def HNT_OTL_SKEW (i : Nat) : RegId := ⟨.eng, i, 0x078⟩
def HNT_OTL_GROUP (i : Nat) : RegId := ⟨.eng, i, 0x07C⟩
def STL_COUNT (i : Nat) : RegId := ⟨.eng, i, 0x080⟩
def STL_PEAK (i : Nat) : RegId := ⟨.eng, i, 0x084⟩
def STL_PARITY_CNT (i : Nat) : RegId := ⟨.eng, i, 0x088⟩
def CAP_EB (i : Nat) : RegId := ⟨.eng, i, 0x08C⟩
def CAP_CFG (i : Nat) : RegId := ⟨.eng, i, 0x090⟩
def CAP_STATUS (i : Nat) : RegId := ⟨.eng, i, 0x094⟩
def CAP_EVENT (i : Nat) : RegId := ⟨.eng, i, 0x098⟩
def CAP_GAP_CNT (i : Nat) : RegId := ⟨.eng, i, 0x09C⟩
def CAP_LOST_LO (i : Nat) : RegId := ⟨.eng, i, 0x0A0⟩
def CAP_LOST_HI (i : Nat) : RegId := ⟨.eng, i, 0x0A4⟩
def CAP_TRG_TIME_LO (i : Nat) : RegId := ⟨.eng, i, 0x0A8⟩
def CAP_TRG_TIME_HI (i : Nat) : RegId := ⟨.eng, i, 0x0AC⟩
def CAP_RGN_IDX (i : Nat) : RegId := ⟨.eng, i, 0x0B0⟩
def CAP_RGN_CFG (i : Nat) : RegId := ⟨.eng, i, 0x0B4⟩
def CAP_RGN_SRC (i : Nat) : RegId := ⟨.eng, i, 0x0B8⟩
def CAP_RGN_BASE (i : Nat) : RegId := ⟨.eng, i, 0x0BC⟩
def CAP_RGN_SIZE (i : Nat) : RegId := ⟨.eng, i, 0x0C0⟩
def CAP_RGN_PRE (i : Nat) : RegId := ⟨.eng, i, 0x0C4⟩
def CAP_RGN_POST (i : Nat) : RegId := ⟨.eng, i, 0x0C8⟩
def CAP_RGN_STATE (i : Nat) : RegId := ⟨.eng, i, 0x0CC⟩
def CAP_RGN_START (i : Nat) : RegId := ⟨.eng, i, 0x0D0⟩
def CAP_RGN_COUNT (i : Nat) : RegId := ⟨.eng, i, 0x0D4⟩
def CAP_RGN_SEQ (i : Nat) : RegId := ⟨.eng, i, 0x0D8⟩
def CAP_RGN_TRIG_SEQ (i : Nat) : RegId := ⟨.eng, i, 0x0DC⟩
def CAP_MATCH_IDX (i : Nat) : RegId := ⟨.eng, i, 0x0E0⟩
def CAP_MATCH_VAL (i : Nat) : RegId := ⟨.eng, i, 0x0E4⟩
def CAP_MATCH_MASK (i : Nat) : RegId := ⟨.eng, i, 0x0E8⟩
def CAP_TRG_IDX (i : Nat) : RegId := ⟨.eng, i, 0x0EC⟩
def CAP_TRG_CFG (i : Nat) : RegId := ⟨.eng, i, 0x0F0⟩
def CAP_TRG_SRC (i : Nat) : RegId := ⟨.eng, i, 0x0F4⟩
def CAP_TRG_STATUS (i : Nat) : RegId := ⟨.eng, i, 0x0F8⟩
def CAP_TRG_CMD (i : Nat) : RegId := ⟨.eng, i, 0x0FC⟩
def HNT_CAND (i k : Nat) : RegId := ⟨.eng, i, 0x100 + 4 * k⟩
def OHP_CFG (i : Nat) : RegId := ⟨.eng, i, 0x200⟩
def OHP_CTRL (i : Nat) : RegId := ⟨.eng, i, 0x204⟩
def OHP_STATUS (i : Nat) : RegId := ⟨.eng, i, 0x208⟩
def OHP_EVENT (i : Nat) : RegId := ⟨.eng, i, 0x20C⟩
def OHP_APS (i : Nat) : RegId := ⟨.eng, i, 0x210⟩
def OHP_LABEL (i : Nat) : RegId := ⟨.eng, i, 0x214⟩
def OHP_CNT_0 (i : Nat) : RegId := ⟨.eng, i, 0x218⟩
def OHP_CNT_1 (i : Nat) : RegId := ⟨.eng, i, 0x21C⟩
def OHP_CNT_2 (i : Nat) : RegId := ⟨.eng, i, 0x220⟩
def OHP_CNT_3 (i : Nat) : RegId := ⟨.eng, i, 0x224⟩
def OHP_TCM1_BIP (i : Nat) : RegId := ⟨.eng, i, 0x230⟩
def OHP_TCM1_BEI (i : Nat) : RegId := ⟨.eng, i, 0x234⟩
def OHP_TCM2_BIP (i : Nat) : RegId := ⟨.eng, i, 0x238⟩
def OHP_TCM2_BEI (i : Nat) : RegId := ⟨.eng, i, 0x23C⟩
def OHP_TCM3_BIP (i : Nat) : RegId := ⟨.eng, i, 0x240⟩
def OHP_TCM3_BEI (i : Nat) : RegId := ⟨.eng, i, 0x244⟩
def OHP_TCM4_BIP (i : Nat) : RegId := ⟨.eng, i, 0x248⟩
def OHP_TCM4_BEI (i : Nat) : RegId := ⟨.eng, i, 0x24C⟩
def OHP_TCM5_BIP (i : Nat) : RegId := ⟨.eng, i, 0x250⟩
def OHP_TCM5_BEI (i : Nat) : RegId := ⟨.eng, i, 0x254⟩
def OHP_TCM6_BIP (i : Nat) : RegId := ⟨.eng, i, 0x258⟩
def OHP_TCM6_BEI (i : Nat) : RegId := ⟨.eng, i, 0x25C⟩
def OHP_TTI_IDX (i : Nat) : RegId := ⟨.eng, i, 0x260⟩
def OHP_TTI_CMD (i : Nat) : RegId := ⟨.eng, i, 0x264⟩
def OHP_TTI_SLOT (i : Nat) : RegId := ⟨.eng, i, 0x268⟩
def OHP_BYTE_IDX (i : Nat) : RegId := ⟨.eng, i, 0x26C⟩
def OHP_BYTE_CFG (i : Nat) : RegId := ⟨.eng, i, 0x270⟩
def OHP_TTI_DATA (i k : Nat) : RegId := ⟨.eng, i, 0x280 + 4 * k⟩
def MAP_CFG (i : Nat) : RegId := ⟨.eng, i, 0x2C0⟩
def MAP_CTRL (i : Nat) : RegId := ⟨.eng, i, 0x2C4⟩
def MAP_STATUS (i : Nat) : RegId := ⟨.eng, i, 0x2C8⟩
def MAP_EVENT (i : Nat) : RegId := ⟨.eng, i, 0x2CC⟩
def MAP_SEQ_IDX (i : Nat) : RegId := ⟨.eng, i, 0x2D0⟩
def MAP_SEQ_DATA (i : Nat) : RegId := ⟨.eng, i, 0x2D4⟩
def MAP_MSI_IDX (i : Nat) : RegId := ⟨.eng, i, 0x2D8⟩
def MAP_MSI (i : Nat) : RegId := ⟨.eng, i, 0x2DC⟩
def DEF_CFG (i : Nat) : RegId := ⟨.eng, i, 0x2E0⟩
def DEF_ACT (i : Nat) : RegId := ⟨.eng, i, 0x2E4⟩
def DEF_INTEG_LINE (i : Nat) : RegId := ⟨.eng, i, 0x2E8⟩
def DEF_INTEG_PATH (i : Nat) : RegId := ⟨.eng, i, 0x2EC⟩
def DEF_STATUS (i : Nat) : RegId := ⟨.eng, i, 0x2F0⟩
def DEF_EVENT (i : Nat) : RegId := ⟨.eng, i, 0x2F4⟩
def DEF_TCM (i : Nat) : RegId := ⟨.eng, i, 0x2F8⟩
def DEF_SF_WIN (i : Nat) : RegId := ⟨.eng, i, 0x2FC⟩
def DEF_SF_SET (i : Nat) : RegId := ⟨.eng, i, 0x300⟩
def DEF_SF_CLR (i : Nat) : RegId := ⟨.eng, i, 0x304⟩
def DEF_SD_WIN (i : Nat) : RegId := ⟨.eng, i, 0x308⟩
def DEF_SD_SET (i : Nat) : RegId := ⟨.eng, i, 0x30C⟩
def DEF_SD_CLR (i : Nat) : RegId := ⟨.eng, i, 0x310⟩
def DEF_PATH_IDX (i : Nat) : RegId := ⟨.eng, i, 0x314⟩
def DEF_PATH_STATUS (i : Nat) : RegId := ⟨.eng, i, 0x318⟩
def DEF_PM_CFG (i : Nat) : RegId := ⟨.eng, i, 0x31C⟩
def DEF_PM_L0_ES (i : Nat) : RegId := ⟨.eng, i, 0x320⟩
def DEF_PM_L0_SES (i : Nat) : RegId := ⟨.eng, i, 0x324⟩
def DEF_PM_L0_BBE (i : Nat) : RegId := ⟨.eng, i, 0x328⟩
def DEF_PM_L0_UAS (i : Nat) : RegId := ⟨.eng, i, 0x32C⟩
def DEF_PM_L1_ES (i : Nat) : RegId := ⟨.eng, i, 0x330⟩
def DEF_PM_L1_SES (i : Nat) : RegId := ⟨.eng, i, 0x334⟩
def DEF_PM_L1_BBE (i : Nat) : RegId := ⟨.eng, i, 0x338⟩
def DEF_PM_L1_UAS (i : Nat) : RegId := ⟨.eng, i, 0x33C⟩
def DEF_PM_L2_ES (i : Nat) : RegId := ⟨.eng, i, 0x340⟩
def DEF_PM_L2_SES (i : Nat) : RegId := ⟨.eng, i, 0x344⟩
def DEF_PM_L2_BBE (i : Nat) : RegId := ⟨.eng, i, 0x348⟩
def DEF_PM_L2_UAS (i : Nat) : RegId := ⟨.eng, i, 0x34C⟩
def DEF_PM_L3_ES (i : Nat) : RegId := ⟨.eng, i, 0x350⟩
def DEF_PM_L3_SES (i : Nat) : RegId := ⟨.eng, i, 0x354⟩
def DEF_PM_L3_BBE (i : Nat) : RegId := ⟨.eng, i, 0x358⟩
def DEF_PM_L3_UAS (i : Nat) : RegId := ⟨.eng, i, 0x35C⟩
def DEF_PM_STATUS (i : Nat) : RegId := ⟨.eng, i, 0x360⟩
def PAT_CFG (i : Nat) : RegId := ⟨.eng, i, 0x364⟩
def PAT_CTRL (i : Nat) : RegId := ⟨.eng, i, 0x368⟩
def PAT_STATUS (i : Nat) : RegId := ⟨.eng, i, 0x36C⟩
def PAT_EVENT (i : Nat) : RegId := ⟨.eng, i, 0x370⟩
def PAT_Q_DESC (i : Nat) : RegId := ⟨.eng, i, 0x374⟩
def PAT_Q_TIME_LO (i : Nat) : RegId := ⟨.eng, i, 0x378⟩
def PAT_Q_TIME_HI (i : Nat) : RegId := ⟨.eng, i, 0x37C⟩
def APS_CFG (i : Nat) : RegId := ⟨.eng, i, 0x380⟩
def APS_TIMERS (i : Nat) : RegId := ⟨.eng, i, 0x384⟩
def APS_CMD (i : Nat) : RegId := ⟨.eng, i, 0x388⟩
def APS_STATUS (i : Nat) : RegId := ⟨.eng, i, 0x38C⟩
def APS_EVENT (i : Nat) : RegId := ⟨.eng, i, 0x390⟩
def APS_MEMBER (i : Nat) : RegId := ⟨.eng, i, 0x394⟩
def APS_SW_CNT (i : Nat) : RegId := ⟨.eng, i, 0x398⟩
def APS_SW_TIME_LO (i : Nat) : RegId := ⟨.eng, i, 0x39C⟩
def APS_SW_TIME_HI (i : Nat) : RegId := ⟨.eng, i, 0x3A0⟩
def APS_TX (i : Nat) : RegId := ⟨.eng, i, 0x3A4⟩
def DSK_CFG (i : Nat) : RegId := ⟨.eng, i, 0x3B0⟩
def DSK_STATUS (i : Nat) : RegId := ⟨.eng, i, 0x3BC⟩
def DSK_EVENT (i : Nat) : RegId := ⟨.eng, i, 0x3C0⟩
def DSK_DELAY (i : Nat) : RegId := ⟨.eng, i, 0x3C4⟩
def PAT_RGN_IDX (i : Nat) : RegId := ⟨.eng, i, 0x3C8⟩
def PAT_RGN_CFG (i : Nat) : RegId := ⟨.eng, i, 0x3CC⟩
def PAT_RGN_BASE (i : Nat) : RegId := ⟨.eng, i, 0x3D0⟩
def PAT_RGN_SIZE (i : Nat) : RegId := ⟨.eng, i, 0x3D4⟩
def PAT_LAST_LO (i : Nat) : RegId := ⟨.eng, i, 0x3D8⟩
def PAT_LAST_HI (i : Nat) : RegId := ⟨.eng, i, 0x3DC⟩
def SWB_RX_BIND (i : Nat) : RegId := ⟨.eng, i, 0x3E0⟩
def SWB_RX_STATUS (i : Nat) : RegId := ⟨.eng, i, 0x3E4⟩
def PAT_CNT (i : Nat) : RegId := ⟨.eng, i, 0x3E8⟩
def PAT_INJ_TGT (i : Nat) : RegId := ⟨.eng, i, 0x3EC⟩
def PAT_INJ_VAL (i : Nat) : RegId := ⟨.eng, i, 0x3F0⟩
def PAT_INJ_CFG (i : Nat) : RegId := ⟨.eng, i, 0x3F4⟩
def PAT_INJ_STATUS (i : Nat) : RegId := ⟨.eng, i, 0x3F8⟩
def PAT_CUR (i : Nat) : RegId := ⟨.eng, i, 0x3FC⟩
def LN_CTRL (i : Nat) : RegId := ⟨.lane, i, 0x000⟩
def LN_CFG (i : Nat) : RegId := ⟨.lane, i, 0x004⟩
def LN_RATE (i : Nat) : RegId := ⟨.lane, i, 0x008⟩
def LN_TX (i : Nat) : RegId := ⟨.lane, i, 0x00C⟩
def LN_TX_PPM (i : Nat) : RegId := ⟨.lane, i, 0x010⟩
def LN_LOS_SET (i : Nat) : RegId := ⟨.lane, i, 0x014⟩
def LN_LOS_CLR (i : Nat) : RegId := ⟨.lane, i, 0x018⟩
def LN_STATUS (i : Nat) : RegId := ⟨.lane, i, 0x020⟩
def LN_EVENT (i : Nat) : RegId := ⟨.lane, i, 0x024⟩
def LN_FREQ_MEAS (i : Nat) : RegId := ⟨.lane, i, 0x028⟩
def LN_LOS_CNT (i : Nat) : RegId := ⟨.lane, i, 0x030⟩
def LN_LOCK_LOSS_CNT (i : Nat) : RegId := ⟨.lane, i, 0x034⟩
def LN_FLAP_CNT (i : Nat) : RegId := ⟨.lane, i, 0x038⟩
def LN_QUAD_MODE (i : Nat) : RegId := ⟨.lane, i, 0x100⟩
def LN_QUAD_MOD (i : Nat) : RegId := ⟨.lane, i, 0x104⟩
def LN_MMB_CFG (i : Nat) : RegId := ⟨.lane, i, 0x108⟩
def LN_MMB_CMD (i : Nat) : RegId := ⟨.lane, i, 0x10C⟩
def LN_MMB_STATUS (i : Nat) : RegId := ⟨.lane, i, 0x110⟩
def LN_MMB_DATA (i k : Nat) : RegId := ⟨.lane, i, 0x180 + 4 * k⟩
def TRB_CFG (i : Nat) : RegId := ⟨.trb, i, 0x000⟩
def TRB_POS (i : Nat) : RegId := ⟨.trb, i, 0x004⟩
def TRB_TS0 (i : Nat) : RegId := ⟨.trb, i, 0x008⟩
def TRB_TS1 (i : Nat) : RegId := ⟨.trb, i, 0x00C⟩
def TRB_TS2 (i : Nat) : RegId := ⟨.trb, i, 0x010⟩
def TRB_PATH (i : Nat) : RegId := ⟨.trb, i, 0x014⟩
def TRB_TX (i : Nat) : RegId := ⟨.trb, i, 0x018⟩
def TRB_TX2 (i : Nat) : RegId := ⟨.trb, i, 0x01C⟩
def TRB_GMP (i : Nat) : RegId := ⟨.trb, i, 0x020⟩
def TRB_GMP_TX (i : Nat) : RegId := ⟨.trb, i, 0x024⟩
def TRB_STATUS (i : Nat) : RegId := ⟨.trb, i, 0x028⟩
def TRB_EVENT (i : Nat) : RegId := ⟨.trb, i, 0x02C⟩
def TRB_BIP_CNT (i : Nat) : RegId := ⟨.trb, i, 0x030⟩
def TRB_REI_CNT (i : Nat) : RegId := ⟨.trb, i, 0x034⟩
def TRB_JUST_CNT (i : Nat) : RegId := ⟨.trb, i, 0x038⟩
def TRB_ERR_CNT (i : Nat) : RegId := ⟨.trb, i, 0x03C⟩
def TP_CFG (i : Nat) : RegId := ⟨.tp, i, 0x000⟩
def TP_WIDTH (i : Nat) : RegId := ⟨.tp, i, 0x004⟩
def TP_OUT_OFFSET (i : Nat) : RegId := ⟨.tp, i, 0x008⟩
def TP_TIME_LO (i : Nat) : RegId := ⟨.tp, i, 0x00C⟩
def TP_TIME_HI (i : Nat) : RegId := ⟨.tp, i, 0x010⟩
def TP_PERIOD (i : Nat) : RegId := ⟨.tp, i, 0x014⟩
def TP_STATUS (i : Nat) : RegId := ⟨.tp, i, 0x018⟩
def TP_EVENT (i : Nat) : RegId := ⟨.tp, i, 0x01C⟩
def TP_LAST_LO (i : Nat) : RegId := ⟨.tp, i, 0x020⟩
def TP_LAST_HI (i : Nat) : RegId := ⟨.tp, i, 0x024⟩
def TP_EDGE_CNT (i : Nat) : RegId := ⟨.tp, i, 0x028⟩
def TP_MERGE_CNT (i : Nat) : RegId := ⟨.tp, i, 0x02C⟩
def TP_GLITCH_CNT (i : Nat) : RegId := ⟨.tp, i, 0x030⟩

/-! The indexed objects: `i` is the region, combiner (cluster * 8 + n), time compare
(cluster * 4 + n), matcher (engine * 4 + n) and so on. -/
def rgn_CAP_RGN_CFG (i : Nat) : RegId := ⟨.rgn, i, 0x0B4⟩
def rgn_CAP_RGN_SRC (i : Nat) : RegId := ⟨.rgn, i, 0x0B8⟩
def rgn_CAP_RGN_BASE (i : Nat) : RegId := ⟨.rgn, i, 0x0BC⟩
def rgn_CAP_RGN_SIZE (i : Nat) : RegId := ⟨.rgn, i, 0x0C0⟩
def rgn_CAP_RGN_PRE (i : Nat) : RegId := ⟨.rgn, i, 0x0C4⟩
def rgn_CAP_RGN_POST (i : Nat) : RegId := ⟨.rgn, i, 0x0C8⟩
def comb_CAP_TRG_CFG (i : Nat) : RegId := ⟨.comb, i, 0x0F0⟩
def comb_CAP_TRG_SRC (i : Nat) : RegId := ⟨.comb, i, 0x0F4⟩
def tcmp_CAP_TRG_TIME_LO (i : Nat) : RegId := ⟨.tcmp, i, 0x0A8⟩
def tcmp_CAP_TRG_TIME_HI (i : Nat) : RegId := ⟨.tcmp, i, 0x0AC⟩
def mat_CAP_MATCH_IDX (i : Nat) : RegId := ⟨.mat, i, 0x0E0⟩
def mat_CAP_MATCH_VAL (i : Nat) : RegId := ⟨.mat, i, 0x0E4⟩
def mat_CAP_MATCH_MASK (i : Nat) : RegId := ⟨.mat, i, 0x0E8⟩
def prgn_PAT_RGN_CFG (i : Nat) : RegId := ⟨.prgn, i, 0x3CC⟩
def prgn_PAT_RGN_BASE (i : Nat) : RegId := ⟨.prgn, i, 0x3D0⟩
def prgn_PAT_RGN_SIZE (i : Nat) : RegId := ⟨.prgn, i, 0x3D4⟩
def obyte_OHP_BYTE_CFG (i : Nat) : RegId := ⟨.obyte, i, 0x270⟩
def tslot_OHP_TTI_SLOT (i : Nat) : RegId := ⟨.tslot, i, 0x268⟩
def seqStep_MAP_SEQ_DATA (i : Nat) : RegId := ⟨.seqStep, i, 0x2D4⟩
def msi_MAP_MSI (i : Nat) : RegId := ⟨.msi, i, 0x2DC⟩
def xmem_TDM_XMEMBER (i : Nat) : RegId := ⟨.xmem, i, 0x020⟩

end R

end Sys2Proof.Machine
end

