-- ==== Sys2Proof/Machine/RegAddr.lean ====
section
/-! DEFINITION. Register addresses: the blocks of the register space, the default-target ranges, and the
alias periods (R294-R297). -/

namespace Sys2Proof.Machine

/-- The register that an address reaches, with its offset in the alias period; none in a default-target
range (R294, R295, R296).  The offset may be that of a reserved word (R297). -/
def decodeAddr (a : Nat) : Option RegId :=
  if a < 0x4000 then some ⟨.glb, 0, a % 0x400⟩
  else if a < 0x8000 then some ⟨.svc, 0, a % 0x400⟩
  else if a < 0xC000 then some ⟨.led, 0, a % 0x400⟩
  else if a < 0x10000 then none
  else if a < 0x20000 then some ⟨.yrd, 0, a % 0x400⟩
  else if a < 0x24000 then some ⟨.tim, 0, a % 0x400⟩
  else if a < 0x28000 then some ⟨.hst, 0, a % 0x400⟩
  else if a < 0x30000 then none
  else if a < 0x34000 then some ⟨.pav, 0, a % 0x400⟩
  else if a < 0x38000 then some ⟨.gth, 0, a % 0x400⟩
  else if a < 0x3C000 then some ⟨.tdm, 0, a % 0x400⟩
  else if a < 0x100000 then none
  else if a < 0x188000 then some ⟨.eng, (a - 0x100000) / 0x1000, a % 0x400⟩
  else if a < 0x200000 then none
  else if a < 0x248000 then
    let w := (a - 0x200000) / 0x800
    if 140 ≤ w then some ⟨.tp, w - 140, a % 0x200⟩ else some ⟨.lane, w, a % 0x200⟩
  else if a < 0x300000 then none
  else if a < 0x400000 then some ⟨.trb, (a - 0x300000) / 0x40, a % 0x40⟩
  else none

end Sys2Proof.Machine
end

