-- ==== Sys2Proof/Machine/Operands.lean ====
section
/-! DEFINITION. Fields of register words, byte and octet packing, signed values, and the checks and
codes the spec computes over octets. -/

namespace Sys2Proof.Machine

/-- Field [hi:lo] of a register word (R5). -/
def fld (w : Word) (hi lo : Nat) : Nat := (w.toNat / 2 ^ lo) % 2 ^ (hi + 1 - lo)

/-- Bit `i` of a register word. -/
def bit (w : Word) (i : Nat) : Bool := w.toNat.testBit i

/-- The word with field [hi:lo] set to `v`. -/
def setFld (w : Word) (hi lo v : Nat) : Word :=
  BitVec.ofNat 32 (w.toNat - fld w hi lo * 2 ^ lo + (v % 2 ^ (hi + 1 - lo)) * 2 ^ lo)

/-- A Bool as 0 or 1. -/
def b2n (b : Bool) : Nat := if b then 1 else 0

/-- A word from a number. -/
def w32 (n : Nat) : Word := BitVec.ofNat 32 n

/-- The two's-complement value of the low `n` bits of `v`. -/
def sgn (n v : Nat) : Int :=
  let u := v % 2 ^ n
  if u < 2 ^ (n - 1) then (u : Int) else (u : Int) - (2 ^ n : Nat)

/-- The low `n` bits of an integer. -/
def unsgn (n : Nat) (i : Int) : Nat := (i % ((2 ^ n : Nat) : Int)).toNat

/-- `v` held within `lo` to `hi`: a value beyond a limit is stored as the nearer limit. -/
def clamp (lo hi v : Nat) : Nat := if v < lo then lo else if hi < v then hi else v

/-- A signed value held within a range. -/
def clampI (lo hi v : Int) : Int := if v < lo then lo else if hi < v then hi else v

/-- Integer division rounded up. -/
def ceilDiv (a b : Nat) : Nat := (a + b - 1) / b

/-- Integer division rounded to the nearest. -/
def roundDiv (a b : Nat) : Nat := (a + b / 2) / b

/-- The `n` bytes of `v`, the most significant first (R8). -/
def beBytes : Nat → Nat → List Byte
  | 0, _ => []
  | n + 1, v => BitVec.ofNat 8 (v / 256 ^ n) :: beBytes n v

/-- The number that bytes spell, the most significant first (R8). -/
def ofBytes (l : List Byte) : Nat := l.foldl (fun a b => a * 256 + b.toNat) 0

/-- The first `n` items, padded with `d`. -/
def padTo {α : Type} (n : Nat) (d : α) (l : List α) : List α := (l ++ List.replicate (n - l.length) d).take n

/-- Item `i` replaced. -/
def setAt {α : Type} : List α → Nat → α → List α
  | [], _, _ => []
  | _ :: l, 0, v => v :: l
  | a :: l, i + 1, v => a :: setAt l i v

/-- Even parity over the bits of a number below 256. -/
def parity8 (n : Nat) : Bool :=
  let a := n ^^^ (n >>> 4)
  let b := a ^^^ (a >>> 2)
  let c := b ^^^ (b >>> 1)
  c.testBit 0

/-- The number of ones in the low `n` bits. -/
def ones : Nat → Nat → Nat
  | 0, _ => 0
  | n + 1, v => b2n (v.testBit n) + ones n v

/-- The exclusive or of octets: a BIP-8 over them. -/
def xorBytes (l : List Byte) : Nat := l.foldl (fun a b => a ^^^ b.toNat) 0

/-- Parity of the octets at even and at odd places of a Stall word (R155). -/
def parEven : List Byte → Bool
  | [] => false
  | [a] => parity8 a.toNat
  | a :: _ :: l => (parity8 a.toNat).xor (parEven l)

/-- Parity of the octets at odd places. -/
def parOdd : List Byte → Bool
  | [] => false
  | _ :: l => parEven l

/-- One octet into a reflected CRC of the given polynomial. -/
def crcStep (poly : Nat) : Nat → Nat → Nat
  | 0, c => c
  | n + 1, c => crcStep poly n (if c % 2 = 1 then (c / 2) ^^^ poly else c / 2)

/-- The IEEE 802.3 frame check sequence of octets (R166). -/
def crc32 (l : List Byte) : Nat :=
  (l.foldl (fun c b => crcStep 0xEDB88320 8 (c ^^^ b.toNat)) 0xFFFFFFFF) ^^^ 0xFFFFFFFF

/-- One octet into a most-significant-first CRC of width `w`. -/
def crcMsbStep (w poly : Nat) : Nat → Nat → Nat
  | 0, c => c
  | n + 1, c =>
    crcMsbStep w poly n (if c.testBit (w - 1) then ((c * 2) % 2 ^ w) ^^^ poly else (c * 2) % 2 ^ w)

/-- A most-significant-first CRC over octets, from an initial value. -/
def crcMsb (w poly init : Nat) (l : List Byte) : Nat :=
  l.foldl (fun c b => crcMsbStep w poly 8 (c ^^^ (b.toNat * 2 ^ (w - 8)))) init

/-- `a` mod `m` differs from `b` by the signed `w`-bit difference `a - b`. -/
def sdiff (w a b : Nat) : Int := sgn w ((a % 2 ^ w + 2 ^ w - b % 2 ^ w) % 2 ^ w)

end Sys2Proof.Machine
end

