-- ==== Sys2Proof/Machine/Flags.lean ====
section
/-! DEFINITION. Register access inside the device: stored words, fields, sticky flags and saturating
counters (R9, R42, R87). -/

namespace Sys2Proof.Machine

/-- The stored word of a register. -/
def Chip.rd (d : Chip) (r : RegId) : Word := SMap.get r.resetWord d.regs r.key

/-- Stores a word in a register. -/
def Chip.wr (d : Chip) (r : RegId) (w : Word) : Chip :=
  { d with regs := SMap.put r.resetWord d.regs r.key w }

/-- Field [hi:lo] of a register. -/
def Chip.rf (d : Chip) (r : RegId) (hi lo : Nat) : Nat := fld (d.rd r) hi lo

/-- Bit `i` of a register. -/
def Chip.rb (d : Chip) (r : RegId) (i : Nat) : Bool := bit (d.rd r) i

/-- Sets field [hi:lo] of a register. -/
def Chip.sf (d : Chip) (r : RegId) (hi lo v : Nat) : Chip := d.wr r (setFld (d.rd r) hi lo v)

/-- Sets one bit of a register: a sticky flag of an event register, or a status bit. -/
def Chip.flag (d : Chip) (r : RegId) (i : Nat) : Chip := d.sf r i i 1

/-- Clears one bit of a register. -/
def Chip.unflag (d : Chip) (r : RegId) (i : Nat) : Chip := d.sf r i i 0

/-- Writes one bit of a register. -/
def Chip.sbit (d : Chip) (r : RegId) (i : Nat) (b : Bool) : Chip := d.sf r i i (b2n b)

/-- Adds to a 32-bit counter that saturates at 0xFFFF_FFFF. -/
def Chip.count (d : Chip) (r : RegId) (n : Nat := 1) : Chip :=
  d.wr r (w32 (min ((d.rd r).toNat + n) 0xFFFFFFFF))

/-- A 64-bit value held in a pair of registers (R307). -/
def Chip.pair (d : Chip) (lo hi : RegId) : Nat := (d.rd lo).toNat + (d.rd hi).toNat * 2 ^ 32

/-- Replaces a pair of registers whole (R308). -/
def Chip.setPair (d : Chip) (lo hi : RegId) (v : Nat) : Chip :=
  (d.wr lo (w32 v)).wr hi (w32 (v / 2 ^ 32))

/-- A register access is answered with a status, and a read with a value. -/
def Chip.answer (d : Chip) (st : Status) (v : Option Word := none) : Chip :=
  { d with out := d.out ++ [.answer st v] }

/-- Something the device sends. -/
def Chip.emit (d : Chip) (o : Out) : Chip := { d with out := d.out ++ [o] }

/-- A free value of `w` bits, and the device with the counter advanced (log entry 1). -/
def Chip.fresh (d : Chip) (w : Nat) : BitVec w × Chip :=
  (Sys2Proof.Config.freeValue w d.free, { d with free := d.free + 1 })

end Sys2Proof.Machine
end

