-- ==== Sys2Proof/Machine/Ops.lean ====
section
/-! DEFINITION. The named operations that every family uses: line formats and rates, which engine
listens to which lane, access to the sparse tables of the state, memory, the capture tap and the
event log. -/

namespace Sys2Proof.Machine

/-! ## Tables of the state -/

/-- A lane's state. -/
def Chip.lane (d : Chip) (n : Nat) : Lane := SMap.get Lane.init d.lanes n
/-- Replaces a lane's state. -/
def Chip.setLane (d : Chip) (n : Nat) (l : Lane) : Chip :=
  { d with lanes := SMap.put Lane.init d.lanes n l }
/-- An engine's hunter. -/
def Chip.hunter (d : Chip) (e : Nat) : Hunter := SMap.get Hunter.init d.hunters e
/-- Replaces an engine's hunter. -/
def Chip.setHunter (d : Chip) (e : Nat) (h : Hunter) : Chip :=
  { d with hunters := SMap.put Hunter.init d.hunters e h }
/-- An engine's capture buffers. -/
def Chip.cap (d : Chip) (e : Nat) : Cap := SMap.get Cap.init d.caps e
/-- Replaces an engine's capture buffers. -/
def Chip.setCap (d : Chip) (e : Nat) (c : Cap) : Chip :=
  { d with caps := SMap.put Cap.init d.caps e c }
/-- A capture region. -/
def Chip.rgn (d : Chip) (r : Nat) : Rgn := SMap.get Rgn.init d.rgns r
/-- Replaces a capture region. -/
def Chip.setRgn (d : Chip) (r : Nat) (x : Rgn) : Chip :=
  { d with rgns := SMap.put Rgn.init d.rgns r x }
/-- A combiner: `cluster * 8 + n`. -/
def Chip.comb (d : Chip) (c : Nat) : Comb := SMap.get Comb.init d.combs c
/-- Replaces a combiner. -/
def Chip.setComb (d : Chip) (c : Nat) (x : Comb) : Chip :=
  { d with combs := SMap.put Comb.init d.combs c x }

/-- An engine's overhead processor. -/
def Chip.ohp (d : Chip) (e : Nat) : Ohp := SMap.get Ohp.init d.ohps e
/-- Replaces an overhead processor. -/
def Chip.setOhp (d : Chip) (e : Nat) (x : Ohp) : Chip := { d with ohps := SMap.put Ohp.init d.ohps e x }
/-- A tributary context. -/
def Chip.ctx (d : Chip) (t : Nat) : Ctx := SMap.get Ctx.init d.ctxs t
/-- Replaces a tributary context. -/
def Chip.setCtx (d : Chip) (t : Nat) (x : Ctx) : Chip := { d with ctxs := SMap.put Ctx.init d.ctxs t x }
/-- A trace slot: `engine * 8 + slot` of the local ones, 4096 and above in the shared store. -/
def Chip.trace (d : Chip) (k : Nat) : Trace := SMap.get Trace.init d.traces k
/-- A trace's run starts anew, on an alignment still to be found (R89). -/
def Trace.restart (t : Trace) : Trace := { t with part := [], sync := false, run := 0, last := [] }
/-- Replaces a trace slot. -/
def Chip.setTrace (d : Chip) (k : Nat) (x : Trace) : Chip :=
  { d with traces := SMap.put Trace.init d.traces k x }
/-- An engine's pattern controller. -/
def Chip.pat (d : Chip) (e : Nat) : Pat := SMap.get Pat.init d.pats e
/-- Replaces a pattern controller. -/
def Chip.setPat (d : Chip) (e : Nat) (x : Pat) : Chip := { d with pats := SMap.put Pat.init d.pats e x }
/-- A defect's criterion. -/
def Chip.defT (d : Chip) (k : DKey) : DefT := SMap.get DefT.init d.defts k.key
/-- Replaces a defect's criterion. -/
def Chip.setDefT (d : Chip) (k : DKey) (x : DefT) : Chip :=
  { d with defts := SMap.put DefT.init d.defts k.key x }
/-- An engine's defect monitor. -/
def Chip.mon (d : Chip) (e : Nat) : DefMon := SMap.get DefMon.init d.mons e
/-- Replaces a defect monitor. -/
def Chip.setMon (d : Chip) (e : Nat) (x : DefMon) : Chip :=
  { d with mons := SMap.put DefMon.init d.mons e x }

/-! ## Tributary contexts by their registers (R98, R99) -/

/-- ENABLE of a context. -/
def Chip.ctxEn (d : Chip) (t : Nat) : Bool := d.rb (R.TRB_CFG t) 0
/-- TYPE of a context. -/
def Chip.ctxType (d : Chip) (t : Nat) : Nat := d.rf (R.TRB_CFG t) 4 1
/-- Owner engine of a context. -/
def Chip.ctxOwner (d : Chip) (t : Nat) : Nat := d.rf (R.TRB_CFG t) 12 5
/-- TOP of a context: its parent is the line. -/
def Chip.ctxTop (d : Chip) (t : Nat) : Bool := d.rb (R.TRB_CFG t) 13
/-- The parent context when TOP is 0. -/
def Chip.ctxParent (d : Chip) (t : Nat) : Nat := d.rf (R.TRB_CFG t) 27 14
/-- A TYPE of the SDH containers. -/
def sdhType (ty : Nat) : Bool := 1 ≤ ty ∧ ty ≤ 8
/-- A TYPE of the ODU containers. -/
def oduType (ty : Nat) : Bool := 9 ≤ ty ∧ ty ≤ 14

/-- Every enabled context, lowest number first. -/
def Chip.enabledCtxs (d : Chip) : List Nat :=
  d.regs.filterMap (fun x =>
    if x.1 / 2 ^ 48 = Blk.trb.code ∧ x.1 % 2 ^ 12 = 0 ∧ bit x.2 0 = true then some (x.1 / 2 ^ 12 % 2 ^ 36) else none)

/-- The enabled contexts an engine owns. -/
def Chip.ownedCtxs (d : Chip) (e : Nat) : List Nat := d.enabledCtxs.filter (fun t => d.ctxOwner t = e)

/-! ## Memory -/

/-- One byte of memory at a Yard address; an address that nothing has written reads 0. -/
def Mem.rd1 (m : Mem) (a : Nat) : Byte := SMap.get 0 m.bytes a

/-- Writes one byte. -/
def Mem.wr1 (m : Mem) (a : Nat) (b : Byte) : Mem := { m with bytes := SMap.put 0 m.bytes a b }

/-- `n` bytes from an address up. -/
def Mem.rdN (m : Mem) (a : Nat) : Nat → List Byte
  | 0 => []
  | n + 1 => m.rd1 a :: m.rdN (a + 1) n

/-- Writes bytes from an address up. -/
def Mem.wrN (m : Mem) (a : Nat) : List Byte → Mem
  | [] => m
  | b :: l => (m.wr1 a b).wrN (a + 1) l

/-- Marks cleared: the ECC blocks that the bytes `a` to `a + n - 1` fill are written anew (R224). -/
def Mem.fresh (m : Mem) (a n : Nat) : Mem :=
  { m with ce := m.ce.filter (fun b => ¬ (a / 32 ≤ b ∧ b < ceilDiv (a + n) 32)),
           ue := m.ue.filter (fun b => ¬ (a / 32 ≤ b ∧ b < ceilDiv (a + n) 32)) }

/-- A write of whole bytes with their check bits. -/
def Mem.store (m : Mem) (a : Nat) (l : List Byte) : Mem := (m.wrN a l).fresh a l.length

/-- The canonical form of memory. -/
def Mem.wf (m : Mem) : Bool := SMap.wf (fun _ => (0 : Byte)) m.bytes

/-! ## Lines, lanes and engines -/

/-- An SDH or SONET format code of R31. -/
def isSdh (f : Nat) : Bool := 1 ≤ f ∧ f ≤ 4
/-- An OTN format code of R31. -/
def isOtn (f : Nat) : Bool := 8 ≤ f ∧ f ≤ 0xC
/-- An OTL format code. -/
def isOtl (f : Nat) : Bool := f = 0xB ∨ f = 0xC
/-- A framed format. -/
def isFramed (f : Nat) : Bool := isSdh f || isOtn f
/-- N of an STM-N format code. -/
def stmN (f : Nat) : Nat := 4 ^ (f - 1)

/-- The nominal lane rate of a format in kb/s (R31); the raw rate is `raw`. -/
def fmtRate (f raw : Nat) : Nat :=
  match f with
  | 0x1 => 155520 | 0x2 => 622080 | 0x3 => 2488320 | 0x4 => 9953280 | 0x8 => 2666057
  | 0x9 => 10709225 | 0xA => 11095728 | 0xB => 10754603 | 0xC => 27952493 | 0xF => raw
  | _ => 0

/-- The FORMAT code of a lane. -/
def Chip.laneFmt (d : Chip) (n : Nat) : Nat := d.rf (R.LN_CFG n) 3 0
/-- The nominal rate of a lane in kb/s. -/
def Chip.laneRate (d : Chip) (n : Nat) : Nat := fmtRate (d.laneFmt n) (d.rf (R.LN_RATE n) 24 0)
/-- MODE of the host port, from the active bundle; without one 100G (R261). -/
def Chip.hostMode (d : Chip) : Nat := (d.sec.flash.bundle.map (fun b => b.body.mode)).getD 0

/-- The host ports that the mode has (R261). -/
def Chip.hostPorts (d : Chip) : Nat := if d.hostMode = 1 then 4 else 1
/-- A lane's ENABLE.  In windows 128 to 131 it is 1 for a host lane that the mode uses, in windows 132 to 139
always 1 (R264, R355). -/
def Chip.laneEn (d : Chip) (n : Nat) : Bool :=
  if n < 128 then d.rb (R.LN_CTRL n) 0 else if n < 132 then decide (n = 128 ∨ d.hostMode ≠ 2) else true

/-- The stamp of octet `k` after an octet stamped `t`, at `rate` kb/s, to the nearest tick (R165). -/
def octStamp (rate t k : Nat) : Nat := if rate = 0 then t else t + roundDiv (k * 32000000) rate

/-- An engine's ENABLE. -/
def Chip.engEn (d : Chip) (e : Nat) : Bool := d.rb (R.ENG_CTRL e) 0
/-- The lane an engine listens to. -/
def Chip.boundLane (d : Chip) (e : Nat) : Option Nat :=
  if d.rb (R.SWB_RX_BIND e) 8 then some (d.rf (R.SWB_RX_BIND e) 6 0) else none
/-- The format of an engine's bound lane, 0 when unbound. -/
def Chip.engFmt (d : Chip) (e : Nat) : Nat :=
  match d.boundLane e with
  | some n => d.laneFmt n
  | none => 0
/-- The rate of an engine's bound lane. -/
def Chip.engRate (d : Chip) (e : Nat) : Nat :=
  match d.boundLane e with
  | some n => d.laneRate n
  | none => 0
/-- An engine is a member of an OTL gang (R47). -/
def Chip.ganged (d : Chip) (e : Nat) : Bool := d.rb (R.SWB_RX_BIND e) 9
/-- The engine that stands for the line: the gang's lowest-numbered engine, or the engine. -/
def Chip.head (d : Chip) (e : Nat) : Nat := if d.ganged e then e / 4 * 4 else e

/-- The engines bound to a lane (R46), without spares: the outputs of a spare that shadows an engine reach
nothing (R388). -/
def Chip.listeners (d : Chip) (n : Nat) : List Nat :=
  d.regs.filterMap (fun e =>
    if e.1 / 2 ^ 48 = Blk.eng.code ∧ e.1 % 2 ^ 12 = 0x3E0 ∧ bit e.2 8 = true ∧ fld e.2 6 0 = n
      ∧ d.svc.spares.contains (e.1 / 2 ^ 12 % 2 ^ 36) = false
    then some (e.1 / 2 ^ 12 % 2 ^ 36) else none)

/-- Octets in one frame of a format (R53). -/
def frameOctets (f : Nat) : Nat := if isSdh f then 2430 * stmN f else 16320

/-! ## Overhead bytes (R92) -/

/-- The index of a transport overhead byte's entry. -/
def obyteIdx (e row col : Nat) : Nat := e * 2 ^ 14 + row * 2 ^ 10 + col
/-- The index of a context's overhead byte. -/
def ctxByteIdx (t row col : Nat) : Nat := 2 ^ 24 + t * 2 ^ 14 + row * 2 ^ 10 + col
/-- CAP of a transport overhead byte. -/
def Chip.capSel (d : Chip) (e row col : Nat) : Bool := d.rb (R.obyte_OHP_BYTE_CFG (obyteIdx e row col)) 10

/-- Row and column, from 1, of octet `i` of a frame. -/
def rowCol (f i : Nat) : Nat × Nat :=
  if isSdh f then (i / (270 * stmN f) + 1, i % (270 * stmN f) + 1) else (i / 4080 + 1, i % 4080 + 1)

/-- Octet `i` of a frame is a transport overhead byte. -/
def isToh (f i : Nat) : Bool :=
  if isSdh f then decide ((rowCol f i).2 ≤ 9 * stmN f) else decide ((rowCol f i).2 ≤ 16)

/-- Octet `i` of a frame is captured in PAYLOAD mode (R168). -/
def isPay (f i : Nat) : Bool :=
  if isSdh f then decide (9 * stmN f < (rowCol f i).2)
  else decide (15 ≤ (rowCol f i).2 ∧ (rowCol f i).2 ≤ 3824)

/-- Octet `i` of a frame is captured in OVERHEAD mode. -/
def Chip.ohCap (d : Chip) (e f i : Nat) : Bool := isToh f i && d.capSel e (rowCol f i).1 (rowCol f i).2

/-- The index of an overhead byte among its frame's selected bytes (R168). -/
def Chip.ohIndex (d : Chip) (e f i : Nat) : Nat := ((List.range i).filter (d.ohCap e f)).length

/-! ## The capture tap and the elastic buffer (R159) -/

/-- A region in PRE, ARMED or POST is armed. -/
def Rgn.live (r : Rgn) : Bool :=
  match r.st with
  | .pre | .armed | .post => true
  | _ => false

/-- The armed region of an engine's sub-channel. -/
def Chip.armedRgn (d : Chip) (e sub : Nat) : Option Nat :=
  (d.rgns.find? (fun x => x.2.live && decide (d.rf (R.rgn_CAP_RGN_SRC x.1) 8 0 = e)
    && decide (d.rf (R.rgn_CAP_RGN_SRC x.1) 31 16 = sub))).map (·.1)

/-- The armed sub-channels of an engine. -/
def Chip.armedSubs (d : Chip) (e : Nat) : List Nat :=
  d.rgns.filterMap (fun x =>
    if x.2.live && decide (d.rf (R.rgn_CAP_RGN_SRC x.1) 8 0 = e)
    then some (d.rf (R.rgn_CAP_RGN_SRC x.1) 31 16) else none)

/-- A region that has ended, PINNED or STOPPED, still holds tentative bales of a candidate that is neither confirmed
nor withdrawn (R179). -/
def Rgn.unresolved (r : Rgn) : Bool :=
  (match r.st with
    | .pinned | .stopped => true
    | _ => false) && r.tent0.isSome

/-- The ended regions of an engine's sub-channel with unresolved tentative bales. -/
def Chip.endedRgns (d : Chip) (e sub : Nat) : List Nat :=
  d.rgns.filterMap (fun x =>
    if x.2.unresolved && decide (d.rf (R.rgn_CAP_RGN_SRC x.1) 8 0 = e) && decide (d.rf (R.rgn_CAP_RGN_SRC x.1) 31 16 = sub)
    then some x.1 else none)

/-- The sub-channels of an engine that a confirmation or a retraction concerns: those that are armed, and those
whose ended regions hold unresolved tentative bales. -/
def Chip.tentSubs (d : Chip) (e : Nat) : List Nat :=
  let ended := d.rgns.filterMap (fun x =>
    if x.2.unresolved && decide (d.rf (R.rgn_CAP_RGN_SRC x.1) 8 0 = e)
    then some (d.rf (R.rgn_CAP_RGN_SRC x.1) 31 16) else none)
  (ended.foldl (fun (l : List Nat) s => if l.contains s then l else l ++ [s]) (d.armedSubs e)).filter (fun s => s ≠ 1 ∧ s ≠ 2)

/-- The capture mode of a region. -/
def Chip.rgnMode (d : Chip) (r : Nat) : Nat := d.rf (R.rgn_CAP_RGN_CFG r) 6 3

/-- STATE of TDM_STATUS: 0 ALONE, 1 PENDING, 2 JOINED, 3 DEGRADED, 4 SPLIT_HOLD. -/
def Chip.tdmSt (d : Chip) : Nat := d.rf R.TDM_STATUS 2 0

/-- The unit is in split hold; one that has asked to rejoin stays in it until the pair has rejoined (R349,
R352). -/
def Chip.splitHold (d : Chip) : Bool := decide (d.tdmSt = 4) || (decide (d.tdmSt = 1) && d.tdm.hold)

/-- A Stall word of octets with their tags. -/
def SWord.data (sub : Nat) (l : List Byte) (tags : List (Nat × Nat)) (tent poison : Bool) : SWord :=
  ⟨sub, l, tags, tent, false, poison, false, false, .data, 0, false, false⟩

/-- A Stall word that carries a token. -/
def SWord.mark (sub : Nat) (t : Token) (tent : Bool := true) : SWord :=
  ⟨sub, [], [], tent, false, false, true, false, t, 0, false, false⟩

/-- The stamp of a word's first octet. -/
def SWord.stamp (w : SWord) : Nat := (w.tags.headD (0, 0)).1

/-- The engines that carry an engine's line: the gang's four, or itself. -/
def Chip.lineEngs (d : Chip) (e : Nat) : List Nat :=
  if d.ganged e then (List.range 4).map (fun i => e / 4 * 4 + i) else [e]

/-- Two runs of octets join into one Stall word of at most 32 octets. -/
def SWord.join (a b : SWord) : Option SWord :=
  if a.sub = b.sub ∧ a.token = .data ∧ b.token = .data ∧ a.tent = b.tent ∧ a.poison = b.poison ∧ a.split = b.split
    ∧ b.brk = false ∧ b.resync = false ∧ a.octets.length + b.octets.length ≤ 32
  then some { a with octets := a.octets ++ b.octets, tags := a.tags ++ b.tags } else none

/-- The octets in an elastic buffer. -/
def Cap.fill (c : Cap) : Nat := c.eb.foldl (fun n w => n + w.octets.length) 0

/-- An elastic buffer with its peak, in 32-byte units, brought up to date. -/
def Cap.withEb (c : Cap) (eb : List SWord) : Cap :=
  let x := { c with eb := eb }
  { x with ebPeak := max c.ebPeak (ceilDiv x.fill 32) }

/-- The octets that an elastic buffer holds: 64 KiB (R23). -/
def ebBytes : Nat := 65536

/-- Adds octets to a running loss (R159). -/
def lossAdd (ls : List Loss) (w : SWord) : List Loss :=
  let last := (w.tags.getLast?.getD (0, 0)).1
  if ls.any (fun l => l.sub = w.sub) then
    ls.map (fun l => if l.sub = w.sub then { l with lost := l.lost + w.octets.length, last := last, tent := l.tent || w.tent } else l)
  else ls ++ [⟨w.sub, w.octets.length, w.stamp, last, w.tent⟩]

/-- The gap token of a loss (R159 step 3). -/
def Loss.token (l : Loss) (cause : Nat) : SWord := SWord.mark l.sub (.gap l.lost l.first l.last cause) l.tent

/-- The octets of a sub-channel of an OTL group's line are carried by all four engines (R162). -/
def Chip.shared (d : Chip) (e sub : Nat) : Bool := d.ganged e && decide (sub = 0)

/-- The engines whose buffers carry a sub-channel. -/
def Chip.bufsOf (d : Chip) (e sub : Nat) : List Nat := if d.shared e sub then d.lineEngs e else [e]

/-- A word enters the elastic buffer of engine `g`: `join` says that it may continue the last one.  A word of a
group's line takes its place in the group's order (R162). -/
def Chip.ebPut (d : Chip) (g : Nat) (join : Bool) (w : SWord) : Chip :=
  let c := d.cap g
  match (if join then c.eb.getLast?.bind (fun a => a.join w) else none) with
  | some x => d.setCap g (c.withEb (c.eb.dropLast ++ [x]))
  | none =>
    if d.shared g w.sub then
      let h := d.cap (g / 4 * 4)
      let d1 := d.setCap (g / 4 * 4) { h with ord := h.ord + 1 }
      d1.setCap g ((d1.cap g).withEb ((d1.cap g).eb ++ [{ w with ord := h.ord }]))
    else d.setCap g (c.withEb (c.eb ++ [w]))

/-- Octets of a word are lost: they count in the episode of engine `x`, and in CAP_LOST of engine `e` (R159). -/
def Chip.lose (d : Chip) (e x : Nat) (w : SWord) : Chip :=
  let c := d.cap x
  let n := d.pair (R.CAP_LOST_LO e) (R.CAP_LOST_HI e) + w.octets.length
  ((d.setCap x { c with losing := true, losses := lossAdd c.losses w }).sf (R.CAP_LOST_LO e) 31 0 (n % 2 ^ 32)).sf
    (R.CAP_LOST_HI e) 31 0 (n / 2 ^ 32)

/-- Octets that a tap has formed go into the elastic buffer, or are lost: an episode begins when there is no room,
and runs on until it ends (R159).  Bale `k` of a group's line goes through engine `k` modulo 4 of the gang, and an
episode in any of the four loses the group's octets (R162). -/
def Chip.tapData (d : Chip) (e : Nat) (w : SWord) : Chip :=
  let h := d.cap e
  let gang := d.shared e w.sub
  let brk := h.brks.find? (fun b => b.1 = w.sub)
  let turn := gang && decide (h.inBale ≠ 0) && (brk.isSome || decide (480 ≤ h.inBale))
  let k := h.bale + b2n turn
  let g := if gang then e / 4 * 4 + k % 4 else e
  match (d.bufsOf e w.sub).find? (fun x => (d.cap x).losing) with
  | some x => d.lose e x w
  | none =>
    if ebBytes < (d.cap g).fill + w.octets.length then d.lose e g w
    else
      let w' := match brk with
        | some b => { w with brk := true, resync := w.resync || b.2 }
        | none => w
      let h1 := { h with brks := h.brks.filter (fun b => b.1 ≠ w.sub) }
      let h2 := if gang then { h1 with bale := k, inBale := (if turn then 0 else h.inBale) + w.octets.length } else h1
      (d.setCap e h2).ebPut g (!turn) w'

/-- A token goes into the elastic buffer after the gap token of its own sub-channel; in a group's line a token that
makes a bale is the next bale (R162). -/
def Chip.tapToken (d : Chip) (e : Nat) (w : SWord) : Chip :=
  let bufs := d.bufsOf e w.sub
  let gaps := bufs.flatMap (fun x => ((d.cap x).losses.filter (fun l => l.sub = w.sub)).map (Loss.token · 1))
  let d1 := bufs.foldl (fun (y : Chip) x =>
    y.setCap x { y.cap x with losses := (y.cap x).losses.filter (fun l => l.sub ≠ w.sub) }) d
  (gaps ++ [w]).foldl (fun (y : Chip) t =>
    if y.shared e w.sub then
      let h := y.cap e
      let k := h.bale + b2n (decide (h.inBale ≠ 0))
      let own := decide (t.token ≠ .confirm)
      (y.setCap e { h with bale := k + b2n own, inBale := 0 }).ebPut (e / 4 * 4 + (if own then k else h.bale) % 4) false t
    else y.ebPut e false t) d1

/-- Puts a word that a tap has formed into an engine's elastic buffer (R159); it carries whether the unit is in
tandem split hold (R164). -/
def Chip.tapWord (d : Chip) (e : Nat) (w0 : SWord) : Chip :=
  let w := { w0 with split := d.splitHold }
  if w.token = .data then d.tapData e w else d.tapToken e w

/-- One octet with its stamp and position goes to the tap. -/
def Chip.tapOne (d : Chip) (e sub : Nat) (o : Byte) (stamp pos : Nat) (tent poison : Bool) : Chip :=
  d.tapWord e (SWord.data sub [o] [(stamp, pos)] tent poison)

/-- The sub-channel of a context (R169). -/
def ctxSub (t : Nat) : Nat := 0x8000 + t

/-- The next octets of a sub-channel begin a new bale, with or without RESYNC (R161). -/
def Chip.breakBale (d : Chip) (e sub : Nat) (resync : Bool) : Chip :=
  let c := d.cap e
  let had := c.brks.any (fun b => b.1 = sub && b.2)
  d.setCap e { c with brks := c.brks.filter (fun b => b.1 ≠ sub) ++ [(sub, resync || had)] }

/-- A break in every armed sub-channel of an engine's own line; `mark` says that it also breaks the bits
that a RAW region takes from the lane, which the hunter does not touch (R161, R168). -/
def Chip.breakLine (d : Chip) (e : Nat) (resync : Bool) (mark : Bool := false) : Chip :=
  ((d.armedSubs e).filter (fun s => s ≠ 2 ∧ s ≠ 1 ∧ (mark = true ∨ s ≠ 0 ∨ (d.armedRgn e 0).map d.rgnMode ≠ some 1))).foldl
    (fun d s => d.breakBale e s resync) d

/-! ## The event log (R27, R281, R282) -/

/-- The engines whose event stream carries an event of this source (R170): the engine itself, the
engines bound to a line lane, the eight engines of a cluster. -/
def Chip.eventEngines (d : Chip) (src : Nat) : List Nat :=
  if src < 0x1000 then [src]
  else if src < 0x1080 then d.listeners (src - 0x1000)
  else if 0x3000 ≤ src then (List.range 8).map (fun k => (src - 0x3000) * 8 + k)
  else []

/-- The 16-byte event record of R170. -/
def Event.record (v : Event) : List Byte :=
  beBytes 8 v.time ++ beBytes 2 v.code ++ beBytes 2 v.ctx ++ beBytes 4 v.det

/-- Logs an event with a given Device Time, and gives it to the event streams that carry it. -/
def Chip.evtAt (d : Chip) (time src code ctx det ext : Nat) : Chip :=
  let v : Event := ⟨d.log.next % 2 ^ 32, src, time, code, ctx, det, ext⟩
  let d1 := { d with log := ⟨d.log.next + 1, (v :: d.log.entries).take 65536⟩ }
  (d.eventEngines src).foldl (fun x e =>
    match x.armedRgn e 2 with
    | some _ => x.tapWord e (SWord.data 2 v.record (List.replicate 16 (time, 0x3FFFF)) false false)
    | none => x) d1

/-- Logs an event stamped with the present Device Time. -/
def Chip.evt (d : Chip) (src code ctx det ext : Nat) : Chip := d.evtAt d.dt src code ctx det ext

/-- Logs an event without a context or extension. -/
def Chip.ev (d : Chip) (src code det : Nat) : Chip := d.evt src code 0xFFFF det 0

/-- Event sources of R281. -/
def srcLane (n : Nat) : Nat := 0x1000 + n

end Sys2Proof.Machine
end

