-- ==== Sys2Proof/Machine/Bale.lean ====
section
/-! DEFINITION. Bales: the registers of a region, where a bale lies, its 512 bytes, and how an open bale is closed,
given its SEQ and put in line for the Yard, or folded (R160-R167, R177-R181, R222). -/

namespace Sys2Proof.Machine

/-! ## Regions -/

/-- What the registers of a region say (R185). -/
structure RCfg where
  rgn      : Nat
  eng      : Nat
  sub      : Nat
  mode     : Nat
  trigMode : Nat
  trigSel  : Nat
  global   : Bool
  base     : Nat
  slots    : Nat
  pre      : Nat
  post     : Nat
  rate     : Nat
deriving DecidableEq, Repr

/-- A region's configuration; `slots` is S of the ring (SIZE × 128). -/
def Chip.rcfg (d : Chip) (r : Nat) : RCfg :=
  let c := d.rd (R.rgn_CAP_RGN_CFG r)
  let s := d.rd (R.rgn_CAP_RGN_SRC r)
  { rgn := r, eng := fld s 8 0, sub := fld s 31 16, mode := fld c 6 3, trigMode := fld c 8 7,
    trigSel := fld c 11 9, global := bit c 12, base := d.rf (R.rgn_CAP_RGN_BASE r) 20 0,
    slots := d.rf (R.rgn_CAP_RGN_SIZE r) 20 0 * 128, pre := d.rf (R.rgn_CAP_RGN_PRE r) 27 0,
    post := d.rf (R.rgn_CAP_RGN_POST r) 27 0, rate := d.engRate (fld s 8 0) }

/-- Bale flags of R164. -/
def fTent : Nat := 0x001
def fRetract : Nat := 0x002
def fGap : Nat := 0x004
def fPoison : Nat := 0x008
def fSplit : Nat := 0x010
def fSubst : Nat := 0x020
def fTrigger : Nat := 0x040
def fDeskewed : Nat := 0x080
def fTrigTent : Nat := 0x100
def fResync : Nat := 0x200
def fHdrPoison : Nat := 0x400

/-! ## Where a bale lies -/

/-- The stack of a Hayloft user-space address (R209). -/
def stackOf (a : Nat) : Nat := a / 0x5A0000000

/-- The stack and physical pseudo-channel that serve a user-space address (R210). -/
def Chip.pcOf (d : Chip) (a : Nat) : Nat :=
  let st := SMap.get Stack.init d.hbm (stackOf a)
  st.map.getD ((a % 0x5A0000000) / 512 % 30) 0

/-- The Yard target port of an address: YT0-YT31 of the Hayloft, YT32 configuration space, YT33 flash,
YT34 shared SRAM, YT35 the tandem bridge; `none` for the default target (R209, R210). -/
def Chip.targetOf (d : Chip) (a : Nat) : Option Nat :=
  if a < 0x1680000000 then some (8 * stackOf a + d.pcOf a / 4)
  else if a < 0x2D00000000 then
    (if 2 ≤ d.tdmSt ∨ d.splitHold then some 35 else none)
  else if 0x4000000000 ≤ a ∧ a < 0x4004000000 then some 34
  else if 0x4100000000 ≤ a ∧ a < 0x4110000000 then some 33
  else if 0x4200000000 ≤ a ∧ a < 0x4200400000 then some 32
  else none

/-- A target port is fenced (R220); YT35 is fenced in tandem split hold (R349). -/
def Chip.fenced (d : Chip) (port : Nat) : Bool :=
  (SMap.get none d.yard.fences port).isSome || (decide (port = 35) && d.splitHold)

/-- The user-space address of the slot of a region's bale. -/
def RCfg.slotAddr (c : RCfg) (seq : Nat) : Nat :=
  c.base * 65536 + (if c.slots = 0 then 0 else seq % c.slots) * 512

/-- A write to a region's slot would be refused: its stack port is fenced. -/
def Chip.slotFenced (d : Chip) (c : RCfg) (seq : Nat) : Bool :=
  match d.targetOf (c.slotAddr seq) with
  | some p => d.fenced p
  | none => true

/-! ## The 512 bytes of a bale -/

/-- The header of a bale (R163, R166). -/
def Bale.header (b : Bale) (c : RCfg) : List Byte :=
  let h := beBytes 2 (b.time / 2 ^ 48 % 2 ^ 16) ++ beBytes 6 (b.time % 2 ^ 48) ++ beBytes 2 b.flags
    ++ beBytes 2 b.engine ++ beBytes 2 c.sub ++ beBytes 2 (c.mode * 4096 + c.rgn)
    ++ beBytes 4 (b.seq % 2 ^ 32) ++ beBytes 2 b.payload.length ++ beBytes 2 b.pmap
    ++ beBytes 4 (b.trigPos * 2 ^ 18 + b.pos)
  h ++ beBytes 4 (crc32 h)

/-- A bale as stored: header, payload, zeros to 512 bytes. -/
def Bale.bytes (b : Bale) (c : RCfg) : List Byte := b.header c ++ padTo 480 0 b.payload

/-- The payload of a GAP bale (R167). -/
def gapPayload (lost last cause : Nat) : List Byte :=
  beBytes 8 lost ++ beBytes 8 last ++ beBytes 1 cause ++ beBytes 7 0

/-- LOST of a GAP bale whose count is unknown. -/
def lostUnknown : Nat := 2 ^ 64 - 1

/-- The payload of a RETRACT bale (R167). -/
def retractPayload (first last reason : Nat) : List Byte :=
  beBytes 4 (first % 2 ^ 32) ++ beBytes 4 (last % 2 ^ 32) ++ beBytes 1 reason ++ beBytes 3 0

/-- The payload of a SUBSTITUTED bale (R167). -/
def substPayload (old new slot : Nat) : List Byte :=
  beBytes 2 old ++ beBytes 2 new ++ beBytes 1 slot ++ beBytes 3 0

/-! ## The ring -/

/-- The region writes nothing more: it is not armed, or its Q post-trigger bales have been given
their SEQ (R178). -/
def Rgn.full (r : Rgn) (c : RCfg) : Bool :=
  !r.live || (decide (r.st = .post) && r.trigged && decide (r.trigSeq + c.post ≤ r.next))

/-- A pending write waits in the region. -/
def Rgn.pending (r : Rgn) : Bool := r.q.any (fun x => !x.sent)

/-- The SEQ of the fold that a discarded data bale counts in: the one opened after the most recent marker. -/
def Rgn.foldSeq (r : Rgn) : Option Nat :=
  match (r.q.filter (fun x => !x.sent)).getLast? with
  | some x => if x.fold then some x.bale.seq else none
  | none => none

/-- The flags that a bale leaves on the GAP bale that stands for it (R164, R181). -/
def foldFlags (f : Nat) : Nat := f &&& (fTent ||| fSplit ||| fTrigger ||| fTrigTent)

/-- Adds a discarded data bale to the fold of a SEQ (R222). -/
def foldInto (q : List BaleWr) (seq : Nat) (b : Bale) (octs last : Nat) : List BaleWr :=
  q.map (fun x => if x.bale.seq = seq then { x with lost := x.lost + octs, last := last,
                                                    bale := { x.bale with flags := x.bale.flags ||| foldFlags b.flags } } else x)

/-- The GAP bale that stands for refused data bales (R181). -/
def foldOf (b : Bale) (octs last : Nat) : BaleWr :=
  ⟨{ b with flags := fGap ||| foldFlags b.flags, pos := 0x3FFFF, pmap := 0, trigPos := 0, payload := [] },
    false, false, true, true, octs, b.time, last⟩

/-- Trailing refused data bales fold into one at the first refused SEQ, whose later SEQ numbers are given out again;
a TRIGGER that is folded moves to that SEQ (R178, R181). -/
def mergeTail : Nat → Rgn → Rgn
  | 0, r => r
  | n + 1, r =>
    match r.q.reverse with
    | b :: a :: rest =>
      if !a.sent ∧ !b.sent ∧ a.fold ∧ b.fold ∧ b.bale.seq + 1 = r.next ∧ a.bale.seq + 1 = b.bale.seq then
        let bale := { a.bale with flags := a.bale.flags ||| foldFlags b.bale.flags }
        mergeTail n { r with q := rest.reverse ++ [{ a with lost := a.lost + b.lost, last := b.last, bale := bale }],
                             next := r.next - 1, trigSeq := if r.trigSeq = b.bale.seq then a.bale.seq else r.trigSeq }
      else r
    | _ => r

/-- Gives a closed bale its SEQ and puts its write into the region's queue.  A bale whose slot lies
behind a fence is refused at once; while an earlier bale is pending, data bales are discarded into
the fold and marker bales wait in line (R181, R222). -/
def Chip.enqueue (d : Chip) (c : RCfg) (b : Bale) (marker : Bool) (last : Nat) : Chip :=
  let r := d.rgn c.rgn
  if r.full c then d else
  let b := { b with seq := r.next, engine := c.eng }
  let tent0 := fun (seq : Nat) => if (b.flags &&& fTent) ≠ 0 ∧ r.tent0.isNone then some seq else r.tent0
  let octs := b.payload.length
  if marker then
    let q := r.q.map (fun x => if x.sent then x else { x with fold := false })
    let sent := !r.pending && !d.slotFenced c r.next
    d.setRgn c.rgn { r with q := q ++ [⟨b, sent, true, false, false, 0, b.time, last⟩], next := r.next + 1,
                            tent0 := tent0 r.next, lastStamp := max r.lastStamp last }
  else match r.pending, r.foldSeq with
  | true, some f =>
    d.setRgn c.rgn { r with q := foldInto r.q f b octs last, resync := true, lastStamp := last, tent0 := tent0 f,
                            trigSeq := if (b.flags &&& fTrigger) ≠ 0 then f else r.trigSeq }
  | p, _ =>
    if p ∨ d.slotFenced c r.next then
      d.setRgn c.rgn { r with q := r.q ++ [foldOf b octs last], next := r.next + 1, resync := true,
                              tent0 := tent0 r.next, lastStamp := last }
    else
      d.setRgn c.rgn { r with q := r.q ++ [⟨b, true, false, false, false, 0, b.time, last⟩], next := r.next + 1,
                              tent0 := tent0 r.next, lastStamp := last }

/-! ## The open bale -/

/-- The payload groups that hold a poisoned octet (POISON_MAP of R163). -/
def poisonMap (l : List OTag) : Nat :=
  (List.range 15).foldl (fun m i => if ((l.drop (32 * i)).take 32).any (·.poison) then m ||| 2 ^ i else m) 0

/-- An open bale as it is closed: the header fields follow from its octets' tags (R163, R165). -/
def OpenBale.bale (o : OpenBale) (seq eng : Nat) : Bale :=
  let t := o.tags.headD ⟨0, 0x3FFFF, false⟩
  ⟨seq, t.stamp, o.flags ||| (if o.tags.any (·.poison) then fPoison else 0), eng, t.pos, o.trigPos, poisonMap o.tags, o.octets⟩

/-- Closes the open bale of a region, short or full (R160, R161). -/
def Chip.closeBale (d : Chip) (r : Nat) : Chip :=
  let c := d.rcfg r
  let x := d.rgn r
  match x.open_ with
  | none => d
  | some o => (d.setRgn r { x with open_ := none }).enqueue c (o.bale x.next c.eng) false (o.tags.getLast?.getD ⟨0, 0, false⟩).stamp

/-- The flags of a bale that begins now: TENTATIVE, SPLIT, RESYNC but on the first bale of an arm, DESKEWED, and the
TRIGGER of a firing that came too late for its own octet (R161, R164, R174). -/
def Chip.openFlags (d : Chip) (r : Nat) (tent split : Bool) : Nat :=
  let x := d.rgn r
  (if tent then fTent else 0) ||| (if split then fSplit else 0) ||| (if x.resync && x.next ≠ 0 then fResync else 0)
    ||| (match x.mark with
      | some tt => fTrigger ||| (if tt then fTrigTent else 0)
      | none => 0)
    ||| (if (d.rcfg r).sub = 1 ∧ d.rf (R.DSK_STATUS (d.rcfg r).eng) 1 0 = 2 then fDeskewed else 0)

/-- Opens a bale that holds octets `l` so far: none, or what a bale split at a trigger leaves. -/
def Chip.openWith (d : Chip) (r : Nat) (tent split : Bool) (l : List Byte) (tags : List OTag) : Chip :=
  let x := d.rgn r
  d.setRgn r { x with open_ := some ⟨l, tags, d.openFlags r tent split, 0, d.core⟩, resync := false, mark := none,
                      trigSeq := if x.mark.isSome then x.next else x.trigSeq, trigged := x.trigged || x.mark.isSome }

/-- Marks octet `k` of the open bale as the trigger octet (R174). -/
def Chip.markTrigger (d : Chip) (r k : Nat) (tent : Bool) : Chip :=
  let x := d.rgn r
  match x.open_ with
  | none => d
  | some o =>
    let flags := o.flags ||| fTrigger ||| (if tent then fTrigTent else 0)
    d.setRgn r { x with open_ := some { o with flags := flags, trigPos := k }, trigSeq := x.next, trigged := true }

end Sys2Proof.Machine
end

