-- ==== Sys2Proof/Machine/Trigger.lean ====
section
/-! DEFINITION. Trigger sources, combiners, global lines and what a firing does to the regions that
wait for it (R171-R176). -/

namespace Sys2Proof.Machine

/-! ## Regions as a trigger sees them -/

/-- A firing with time T reaches a region (R174, R178).  In an open bale that already holds the octet the mark is set
at once, and in CONTINUOUS mode the bale is split there (R161); where the octet lies in a closed bale the next bale
opened carries it. -/
def Chip.fireRgn (d : Chip) (r t : Nat) (tent : Bool) : Chip :=
  let c := d.rcfg r
  let x := d.rgn r
  if t < x.armT ∨ c.trigMode = 1 ∨ (x.st ≠ .pre ∧ x.st ≠ .armed) then d else
  let cont := decide (c.trigMode = 2)
  let x1 := { x with st := if cont then x.st else .post, shortPre := x.shortPre || decide (x.st = .pre), trigTent := tent }
  if x.lastStamp ≠ 0 ∧ t ≤ x.lastStamp then
    (d.setRgn r { x1 with late := true, mark := some (tent || x.mark.getD false) }).flag (R.CAP_EVENT c.eng) 4
  else
    let wait := d.setRgn r { x1 with trigs := x.trigs ++ [(t, tent)] }
    match x.open_ with
    | none => wait
    | some o =>
      match o.tags.findIdx? (fun g => decide (t ≤ g.stamp)) with
      | none => wait
      | some k =>
        if cont ∧ k ≠ 0 then
          let d1 := (d.setRgn r { x1 with open_ := some { o with octets := o.octets.take k, tags := o.tags.take k } }).closeBale r
          (d1.openWith r (decide (o.flags &&& fTent ≠ 0)) (decide (o.flags &&& fSplit ≠ 0)) (o.octets.drop k)
            (o.tags.drop k)).markTrigger r 0 tent
        else (d.setRgn r x1).markTrigger r k tent

/-- Every region that waits for a combiner or a global line receives its firing. -/
def Chip.fireRegions (d : Chip) (global : Bool) (sel cluster t : Nat) (tent : Bool) : Chip :=
  d.rgns.foldl (fun x e =>
    let c := d.rcfg e.1
    if c.global = global ∧ c.trigSel = sel ∧ (global = true ∨ c.eng / 8 = cluster) then x.fireRgn e.1 t tent else x) d

/-! ## Combiners -/

/-- A source index of R171 that is a level. -/
def srcIsLevel (i : Nat) : Bool := decide (i < 192) && [0, 1, 2, 4, 5, 6, 7, 8, 15, 16].contains (i % 24)

/-- An overhead matcher is true; `tent` also counts what it saw on tentative data (R175). -/
def Chip.matched (d : Chip) (e sel : Nat) (tent : Bool) : Bool :=
  SMap.get false d.mats (e * 4 + sel) || (tent && SMap.get false d.mats (2 ^ 20 + e * 4 + sel))

/-- A level source is true: the declared defects of the engine, or an overhead matcher. -/
def Chip.level (d : Chip) (cluster i : Nat) (tent : Bool) : Bool :=
  let e := cluster * 8 + i / 24
  let st := d.rd (R.DEF_STATUS e)
  match i % 24 with
  | 0 => bit st 0
  | 1 => bit st 1
  | 2 => bit st 2
  | 4 => bit st 5 || bit st 6 || bit st 12
  | 5 => bit st 7 || bit st 9 || bit st 15
  | 6 => bit st 8 || bit st 16
  | 7 => bit st 24
  | 8 => bit st 25
  | 15 => d.matched e 0 tent
  | 16 => d.matched e 1 tent
  | _ => false

/-- The source index of term `i` of a combiner. -/
def Chip.termSrc (d : Chip) (cb i : Nat) : Nat := d.rf (R.comb_CAP_TRG_SRC cb) (8 * i + 7) (8 * i)

/-- A term is enabled. -/
def Chip.termEn (d : Chip) (cb i : Nat) : Bool := d.rb (R.comb_CAP_TRG_CFG cb) (2 + i)

/-- A term of a combiner is true at core cycle `c`: a level, inverted by INV, or an event within its hold. -/
def Chip.term (d : Chip) (cb c i : Nat) : Bool :=
  let s := d.termSrc cb i
  if srcIsLevel s then (d.level (cb / 8) s (d.rb (R.comb_CAP_TRG_CFG cb) 10)).xor (d.rb (R.comb_CAP_TRG_CFG cb) (6 + i))
  else decide (c < (d.comb cb).until_.getD i 0)

/-- The combined result of the enabled terms at core cycle `c`: any, or all (R172). -/
def Chip.combResult (d : Chip) (cb c : Nat) : Bool :=
  let ts := ((List.range 4).filter (d.termEn cb)).map (d.term cb c)
  if d.rb (R.comb_CAP_TRG_CFG cb) 1 then ts.all id && !ts.isEmpty else ts.any id

/-- The hold of an event term in core cycles; 0 holds for its own cycle. -/
def Chip.combHold (d : Chip) (cb : Nat) : Nat := max 1 (d.rf (R.comb_CAP_TRG_CFG cb) 27 20 * 1000)

/-- T of a firing: the latest of the times of the terms that complete the condition in this cycle
(R173). -/
def Chip.combTime (d : Chip) (cb t : Nat) : Nat :=
  ((List.range 4).filter (fun i => d.termEn cb i && !srcIsLevel (d.termSrc cb i)
    && decide ((d.comb cb).until_.getD i 0 = d.core + d.combHold cb))).foldl
    (fun a i => max a ((d.comb cb).termT.getD i 0)) t

/-- A firing of a combiner: FIRED, the TRIGGER event, the regions, the global line (R172-R174). -/
def Chip.combFire (d : Chip) (cb t : Nat) (tent : Bool) : Chip :=
  let cfg := d.rd (R.comb_CAP_TRG_CFG cb)
  let x := d.comb cb
  let d1 := d.setComb cb { x with fired := true, tent := tent, occ := 0 }
  let d2 := d1.evt (0x3000 + cb / 8) 0x0604 0xFFFF (cb % 8 + if tent then 256 else 0) (t * 2 ^ 64)
  let d3 := if bit cfg 19 then { d2 with lines := d2.lines ++ [⟨fld cfg 18 16, t, tent, d2.core + 4⟩] } else d2
  d3.fireRegions false (cb % 8) (cb / 8) t tent

/-- Evaluates one combiner: an occurrence is a change of the result to true, and the COUNT-th fires.  A result that
was true in the cycle before has not become true (R172).  Answers T and the tentative mark of a firing; a firing is
tentative when a term that is true now is (R175). -/
def Chip.combEval (d : Chip) (cb t : Nat) (tent : Bool) : Option (Nat × Bool) × Chip :=
  let cfg := d.rd (R.comb_CAP_TRG_CFG cb)
  if ¬ bit cfg 0 then (none, d) else
  let x := d.comb cb
  if ¬ d.combResult cb d.core then
    -- the last cycle in which it was true, where that is the one before this
    let was := decide (x.result ∧ 0 < d.core ∧ d.combResult cb (d.core - 1) = true)
    (none, d.setComb cb { x with result := false, last := if was then some (d.core - 1) else x.last })
  else if x.result ∨ (0 < d.core ∧ x.last = some (d.core - 1)) ∨ (x.fired ∧ ¬ bit cfg 11) then
    (none, d.setComb cb { x with result := true })
  else
    let n := if fld cfg 15 12 = 0 then 16 else fld cfg 15 12
    if x.occ + 1 < n then (none, d.setComb cb { x with result := true, occ := x.occ + 1 })
    else
      let at_ := d.combTime cb t
      let tt := tent || (List.range 4).any (fun i => d.termEn cb i && d.term cb d.core i && x.termTent.getD i false)
      (some (at_, tt), (d.setComb cb { x with result := true, occ := 0 }).combFire cb at_ tt)

/-- Puts an event on the terms of a combiner that name its source. -/
def Chip.termEvent (d : Chip) (cb i t : Nat) (tent : Bool) : Chip :=
  let x := d.comb cb
  let hit := fun k => d.termEn cb k && decide (d.termSrc cb k = i)
  let upd := fun (l : List Nat) v => (List.range 4).map (fun k => if hit k then v else l.getD k 0)
  d.setComb cb { x with until_ := upd x.until_ (d.core + d.combHold cb), termT := upd x.termT t,
                        termTent := (List.range 4).map (fun k => if hit k then tent else x.termTent.getD k false) }

/-- An event source of a cluster is true in this cycle with time T: the terms that name it, the
combiners they complete, and the combiners that name those (R171, R172). -/
def Chip.raiseN (d : Chip) (cluster : Nat) : Nat → Nat → Nat → Bool → Chip
  | 0, _, _, _ => d
  | fuel + 1, i, t, tent =>
    (List.range 8).foldl (fun x n =>
      let cb := cluster * 8 + n
      let cfg := x.rd (R.comb_CAP_TRG_CFG cb)
      if bit cfg 0 && (!tent || bit cfg 10) && decide (i ≠ 0xC0 + n)
          && (List.range 4).any (fun k => x.termEn cb k && decide (x.termSrc cb k = i)) then
        let y := (x.combEval cb t false).2
        let z := (y.termEvent cb i t tent).combEval cb t tent
        match z.1 with
        | some f => z.2.raiseN cluster fuel (0xC0 + n) f.1 f.2
        | none => z.2
      else x) d

/-- An event source of a cluster occurs. -/
def Chip.raise (d : Chip) (cluster i t : Nat) (tent : Bool := false) : Chip := d.raiseN cluster 8 i t tent

/-- Event source `s` of an engine occurs. -/
def Chip.raiseEng (d : Chip) (e s t : Nat) (tent : Bool := false) : Chip :=
  d.raise (e / 8) (24 * (e % 8) + s) t tent

/-- The levels of a cluster may have changed at time T: every combiner is evaluated. -/
def Chip.levels (d : Chip) (cluster t : Nat) (tent : Bool := false) : Chip :=
  (List.range 8).foldl (fun x n =>
    let z := x.combEval (cluster * 8 + n) t tent
    match z.1 with
    | some f => z.2.raise cluster (0xC0 + n) f.1 f.2
    | none => z.2) d

/-- The levels of an engine may have changed. -/
def Chip.engLevels (d : Chip) (e t : Nat) : Chip := d.levels (e / 8) t

end Sys2Proof.Machine
end

