-- ==== Sys2Proof/Machine/Writer.lean ====
section
/-! DEFINITION. The capture writer: Stall words into bales, marker bales, writes as they complete or are
refused (R155-R170, R178-R181, R222). -/

namespace Sys2Proof.Machine

/-! ## Events of a written bale -/

/-- The context an event about a sub-channel carries (R282). -/
def subCtx (sub : Nat) : Nat := if 0x8000 ≤ sub then sub - 0x8000 else 0xFFFF

/-- A GAP bale has been written: counters, CAP_EVENT, the GAP event and its trigger source. -/
def Chip.gapWritten (d : Chip) (c : RCfg) (seq lost : Nat) : Chip :=
  ((((d.count (R.CAP_GAP_CNT c.eng)).flag (R.CAP_EVENT c.eng) 0).evt c.eng 0x0600 (subCtx c.sub)
    (seq % 2 ^ 32) (lost * 2 ^ 64)).raiseEng c.eng 19 d.dt)

/-- A bale with POISON has been written. -/
def Chip.poisonWritten (d : Chip) (c : RCfg) (seq : Nat) : Chip :=
  ((d.flag (R.CAP_EVENT c.eng) 1).evt c.eng 0x0601 (subCtx c.sub) (seq % 2 ^ 32) 0).raiseEng c.eng 20 d.dt

/-- A retraction is counted and logged (R71 step 4). -/
def Chip.retractLogged (d : Chip) (c : RCfg) (first last reason : Nat) : Chip :=
  ((d.count (R.HNT_RETRACT_CNT c.eng)).flag (R.HNT_EVENT c.eng) 6).evt c.eng 0x0206 (subCtx c.sub)
    (first % 2 ^ 32) ((first % 2 ^ 32) * 2 ^ 96 + (last % 2 ^ 32) * 2 ^ 64 + reason * 2 ^ 56)

/-- A RETRACT bale has been written (R71). -/
def Chip.retractWritten (d : Chip) (c : RCfg) (first last reason : Nat) : Chip :=
  (d.retractLogged c first last reason).raiseEng c.eng 21 d.dt

/-- A confirmation of tentative bales is logged (R70). -/
def Chip.confirmLogged (d : Chip) (c : RCfg) (first last : Nat) : Chip :=
  d.evt c.eng 0x0207 (subCtx c.sub) (first % 2 ^ 32) ((first % 2 ^ 32) * 2 ^ 96 + (last % 2 ^ 32) * 2 ^ 64)

/-- The tentative bales that a sub-channel's ended regions hold are resolved by the event alone, RETRACT with its
reason or TENT_CONFIRM (R179). -/
def Chip.resolveEnded (d : Chip) (e sub : Nat) (reason : Option Nat) : Chip :=
  (d.endedRgns e sub).foldl (fun (x : Chip) r =>
    let y := x.rgn r
    let x1 := x.setRgn r { y with tent0 := none }
    match reason with
    | some n => x1.retractLogged (x.rcfg r) (y.tent0.getD 0) (y.next - 1) n
    | none => x1.confirmLogged (x.rcfg r) (y.tent0.getD 0) (y.next - 1)) d

/-- Octets lost in a fold or a stopped region (R181). -/
def Chip.addLost (d : Chip) (e n : Nat) : Chip :=
  d.setPair (R.CAP_LOST_LO e) (R.CAP_LOST_HI e) ((d.pair (R.CAP_LOST_LO e) (R.CAP_LOST_HI e) + n) % 2 ^ 64)

/-! ## Packing -/

/-- An octet joins the open bale. -/
def Chip.putOct (d : Chip) (r : Nat) (o : Byte) (g : OTag) : Chip :=
  let x := d.rgn r
  match x.open_ with
  | none => d
  | some b => d.setRgn r { x with open_ := some { b with octets := b.octets ++ [o], tags := b.tags ++ [g] } }

/-- Octets in the open bale. -/
def Rgn.used (x : Rgn) : Nat :=
  match x.open_ with
  | some o => o.octets.length
  | none => 0

/-- One octet of a word goes into its region's bales (R160, R161, R165, R174, R178).  Octets stamped before the arm
took effect belong to no bale; in CONTINUOUS mode a trigger octet begins a new bale without RESYNC. -/
def Chip.packOct (d : Chip) (r : Nat) (w : SWord) (o : Byte) (g : Nat × Nat) : Chip :=
  let c := d.rcfg r
  let x := d.rgn r
  if x.full c ∨ g.1 < x.armT then d else
  let hit := x.trigs.filter (fun t => t.1 ≤ g.1)
  let new := match x.open_ with
    | some b => decide (((b.flags &&& fTent) ≠ 0) ≠ (w.tent = true)) || decide (((b.flags &&& fSplit) ≠ 0) ≠ (w.split = true))
        || (decide (c.trigMode = 2) && !hit.isEmpty)
    | none => true
  let d1 := if new then d.closeBale r else d
  if (d1.rgn r).full c then d1 else
  let d2 := if new then d1.openWith r w.tent w.split [] [] else d1
  let y := d2.rgn r
  let d3 := if hit.isEmpty then d2
    else (d2.setRgn r { y with trigs := y.trigs.filter (fun t => ¬ t.1 ≤ g.1) }).markTrigger r y.used (hit.any (·.2))
  let d4 := d3.putOct r o ⟨g.1, g.2, w.poison⟩
  if (d4.rgn r).used = 480 then d4.closeBale r else d4

/-- A trigger time within lost octets puts TRIGGER on the GAP bale (R174). -/
def Chip.gapTrigger (d : Chip) (r last : Nat) : Nat × Chip :=
  let x := d.rgn r
  let hit := x.trigs.filter (fun t => t.1 ≤ last)
  if hit.isEmpty then (0, d)
  else (fTrigger ||| (if hit.any (·.2) then fTrigTent else 0),
    d.setRgn r { x with trigs := x.trigs.filter (fun t => ¬ t.1 ≤ last), trigSeq := x.next, trigged := true })

/-- Writes a GAP bale at a sub-channel's place (R159 step 4, R167). -/
def Chip.writeGap (d : Chip) (r lost first last cause : Nat) (tent split : Bool) : Chip :=
  let c := d.rcfg r
  let d0 := d.closeBale r
  let x := d0.rgn r
  if x.full c then d0 else
  let (tf, d1) := d0.gapTrigger r last
  let d2 := d1.enqueue c ⟨x.next, first, fGap ||| tf ||| (if tent then fTent else 0) ||| (if split then fSplit else 0),
    c.eng, 0x3FFFF, 0, 0, gapPayload lost last cause⟩ true last
  let y := d2.rgn r
  (d2.setRgn r { y with resync := true }).gapWritten c x.next lost

/-- Withdraws the tentative bales of a sub-channel with a RETRACT bale (R71). -/
def Chip.writeRetract (d : Chip) (r reason stamp : Nat) (split : Bool) : Chip :=
  let c := d.rcfg r
  let d0 := d.closeBale r
  let x := d0.rgn r
  match x.tent0 with
  | none => d0
  | some f =>
    let last := x.next - 1
    let d1 := d0.enqueue c ⟨x.next, stamp, fRetract ||| (if split then fSplit else 0), c.eng, 0x3FFFF, 0, 0, retractPayload f last reason⟩ true stamp
    let y := d1.rgn r
    let d2 := d1.setRgn r { y with tent0 := none }
    if x.full c then d2.retractLogged c f last reason else d2.retractWritten c f last reason

/-- The tentative bales of the confirmed candidate stand: closes the open one and names them in a
TENT_CONFIRM event (R70). -/
def Chip.confirmTent (d : Chip) (r : Nat) : Chip :=
  let c := d.rcfg r
  let d0 := d.closeBale r
  let x := d0.rgn r
  match x.tent0 with
  | none => d0
  | some f =>
    (d0.setRgn r { x with tent0 := none }).confirmLogged c f (x.next - 1)

/-- Writes a SUBSTITUTED bale (R393). -/
def Chip.writeSubst (d : Chip) (r old new slot stamp : Nat) (split : Bool) : Chip :=
  let c := d.rcfg r
  let d0 := d.closeBale r
  let x := d0.rgn r
  d0.enqueue c ⟨x.next, stamp, fSubst ||| (if split then fSplit else 0), c.eng, 0x3FFFF, 0, 0, substPayload old new slot⟩ true stamp

/-! ## Popping a Stall word -/

/-- The engine whose region holds a sub-channel of engine `e`: an event stream is each engine's own, everything else
belongs to the head of a gang (R162, R170). -/
def Chip.subOwner (d : Chip) (e sub : Nat) : Nat := if sub = 2 then e else d.head e

/-- The writer takes a Stall word of engine `e` with the octets it read and whether the check failed,
and gives it to the region of its sub-channel. -/
def Chip.takeNow (d : Chip) (e : Nat) (w : SWord) : Chip :=
  let h := d.subOwner e w.sub
  match d.armedRgn h w.sub with
  | none =>
    match w.token with
    | .retract reason _ => d.resolveEnded h w.sub (some reason)
    | .confirm => d.resolveEnded h w.sub none
    | _ => d
  | some r =>
    match w.token with
    | .data =>
      let d0 := if w.brk || w.resync then d.closeBale r else d
      let x := d0.rgn r
      let d1 := if w.resync then d0.setRgn r { x with resync := true } else d0
      (List.zip w.octets w.tags).foldl (fun (y : Chip) p => y.packOct r w p.1 p.2) d1
    | .gap lost first last cause => d.writeGap r lost first last cause w.tent w.split
    | .retract reason stamp => (d.resolveEnded h w.sub (some reason)).writeRetract r reason stamp w.split
    | .confirm => (d.resolveEnded h w.sub none).confirmTent r
    | .subst old new slot stamp => d.writeSubst r old new slot stamp w.split

/-- Words of a group's line that have come are taken as far as their order reaches (R162). -/
def Chip.takeWaits (d : Chip) (e r : Nat) : Nat → Chip
  | 0 => d
  | n + 1 =>
    let x := d.rgn r
    match x.waits.find? (fun w => w.ord = x.ordNext) with
    | none => d
    | some w =>
      ((d.setRgn r { x with waits := x.waits.filter (fun y => y.ord ≠ x.ordNext), ordNext := x.ordNext + 1 }).takeNow e w).takeWaits
        e r n

/-- The writer takes a Stall word; the words of a group's line, which come through four Stalls, are put back into
their order first (R162). -/
def Chip.takeWord (d : Chip) (e : Nat) (w : SWord) : Chip :=
  match (if d.shared e w.sub then d.armedRgn (d.head e) w.sub else none) with
  | none => d.takeNow e w
  | some r =>
    let x := d.rgn r
    if w.ord < x.ordNext then d.takeNow e w
    else (d.setRgn r { x with waits := x.waits ++ [w] }).takeWaits e r (x.waits.length + 1)

/-- Every armed sub-channel of an engine receives a GAP bale of unknown count (R157). -/
def Chip.tagError (d : Chip) (e : Nat) : Chip :=
  let d1 := ((d.flag (R.CAP_EVENT e) 2).ev e 0x0602 0)
  let gap := fun (x : Chip) (h s : Nat) =>
    match x.armedRgn h s with
    | some r => x.writeGap r lostUnknown x.dt x.dt 0x03 false x.splitHold
    | none => x
  let d2 := (d1.armedSubs (d1.head e)).foldl (fun x s => if s = 2 then x else gap x (x.head e) s) d1
  gap d2 e 2

/-! ## Completing writes -/

/-- The transitions of R178 that bales written bring: PRE to ARMED, POST to PINNED; and the ring keeps
its last S bales. -/
def Chip.advanceRgn (d : Chip) (r : Nat) : Chip :=
  let c := d.rcfg r
  let x := d.rgn r
  let n := (List.range (x.acc.length + 1)).findIdx (fun k => !(x.acc.contains (x.done + k)))
  let done := x.done + n
  let x1 := { x with done := done, acc := x.acc.filter (fun s => done ≤ s), first := max x.first (done - c.slots) }
  match x1.st with
  | .pre => d.setRgn r (if c.pre ≤ done then { x1 with st := .armed } else x1)
  | .post =>
    if x1.trigged ∧ x1.trigSeq + c.post ≤ done then
      let x2 := { x1 with st := .pinned, open_ := none, q := [], trigs := [], mark := none, waits := [],
                          first := max x1.first (x1.trigSeq - min c.pre x1.trigSeq) }
      (if c.eng < 136 then (d.setRgn r x2).flag (R.CAP_EVENT c.eng) 3 else d.setRgn r x2).ev c.eng 0x0603 r
    else d.setRgn r x1
  | _ => d.setRgn r x1

/-- Acts on the chip alone. -/
def Dev.on (s : Dev) (f : Chip → Chip) : Dev := { s with chip := f s.chip }

/-- A bale write is accepted: its 512 bytes are in the slot and it joins the region's accepted bales
(R180). -/
def Dev.accept (s : Dev) (r : Nat) (w : BaleWr) : Dev :=
  let c := s.chip.rcfg r
  let b := if w.folded then { w.bale with payload := gapPayload w.lost w.last 0x02 } else w.bale
  let x := s.chip.rgn r
  let d := s.chip.setRgn r { x with q := x.q.filter (fun y => y.bale.seq ≠ w.bale.seq), acc := x.acc ++ [w.bale.seq] }
  let d1 := if w.folded then (d.addLost c.eng w.lost).gapWritten c w.bale.seq w.lost
    else if (w.bale.flags &&& fPoison) ≠ 0 then d.poisonWritten c w.bale.seq else d
  ⟨d1.advanceRgn r, s.mem.store (c.slotAddr w.bale.seq) (b.bytes { c with eng := b.engine })⟩

/-- The pending bales of a region are tried in SEQ order until one is refused (R222). -/
def Dev.tryPending (s : Dev) (r : Nat) : Nat → Dev
  | 0 => s
  | n + 1 =>
    let x := s.chip.rgn r
    match x.q.find? (fun w => !w.sent) with
    | none => s
    | some w =>
      if s.chip.slotFenced (s.chip.rcfg r) w.bale.seq then s
      else (s.accept r w).tryPending r n

/-- A write of the peer's engine's writer that completes the slot of the next SEQ of a region held here is a bale of
that region: SEQ, held range and TRIGGER follow as for a local engine (R178, R345). -/
def Chip.remoteBale (d : Chip) (m : Mem) (r a n : Nat) : Chip :=
  let c := d.rcfg r
  let x := d.rgn r
  if ¬ x.live ∨ c.eng < 136 ∨ x.full c ∨ a + n ≠ c.slotAddr x.next + 512 then d else
  let flags := (m.rd1 (c.slotAddr x.next + 8)).toNat * 256 + (m.rd1 (c.slotAddr x.next + 9)).toNat
  let trig := decide (flags &&& fTrigger ≠ 0)
  let x1 := { x with next := x.next + 1, acc := x.acc ++ [x.next] }
  let x2 := if trig then
      { x1 with trigSeq := x.next, trigged := true, shortPre := x.shortPre || decide (x.st = .pre),
                trigTent := decide (flags &&& fTrigTent ≠ 0), st := if c.trigMode = 2 then x.st else .post }
    else x1
  (d.setRgn r x2).advanceRgn r

/-- A bale write is refused: a data bale begins or joins a fold, a marker bale waits (R181, R222). -/
def Chip.refuseBale (d : Chip) (r seq : Nat) : Chip :=
  let x := d.rgn r
  let q := x.q.map (fun w =>
    if w.bale.seq = seq ∧ w.sent then
      if w.marker then { w with sent := false }
      else foldOf w.bale w.bale.payload.length w.last
    else w)
  d.setRgn r { (mergeTail q.length { x with q := q }) with resync := true }

/-- A bale that fills while others are pending first gives the pending ones a chance (R181). -/
def Dev.settle (s : Dev) (r : Nat) : Dev := s.tryPending r ((s.chip.rgn r).q.length)

end Sys2Proof.Machine
end

