-- ==== Sys2Proof/Machine/Aps.lean ====
section
/-! DEFINITION. The protection controller and the deskew engine (R138-R154): requests, group states, the
selector, hold-off and wait-to-restore, commands, failure of protocol, and hitless deskew. -/

namespace Sys2Proof.Machine

/-! ## Requests (R140) -/

/-- The priority of a request, 1 the highest. -/
def PReq.rank : PReq → Nat
  | .lo => 1 | .sfP => 2 | .fs => 3 | .sfH => 4 | .sfL => 5 | .sdH => 6 | .sdL => 7 | .ms => 8
  | .wtr => 9 | .exer => 10 | .rr => 11 | .dnr => 12 | .nr => 13

/-- K1 bits 1-4 of a request. -/
def PReq.k1 : PReq → Nat
  | .lo => 0xF | .sfP => 0xC | .fs => 0xE | .sfH => 0xD | .sfL => 0xC | .sdH => 0xB | .sdL => 0xA
  | .ms => 0x8 | .wtr => 0x6 | .exer => 0x4 | .rr => 0x2 | .dnr => 0x1 | .nr => 0x0

/-- OTN APS byte 1 bits 1-4 of a request. -/
def PReq.otn : PReq → Nat
  | .lo => 0xF | .sfP => 0xD | .fs => 0xE | .sfH => 0xD | .sfL => 0xD | .sdH => 0xB | .sdL => 0xB
  | .ms => 0x7 | .wtr => 0x5 | .exer => 0x4 | .rr => 0x2 | .dnr => 0x1 | .nr => 0x0

/-- The request that K1 bits 1-4 and a channel spell; a code the table does not list is NR, channel 0. -/
def ofK1 (code chan : Nat) : ReqCh :=
  match code with
  | 0xF => ⟨.lo, chan⟩
  | 0xE => ⟨.fs, chan⟩
  | 0xD => ⟨.sfH, chan⟩
  | 0xC => if chan = 0 then ⟨.sfP, 0⟩ else ⟨.sfL, chan⟩
  | 0xB => ⟨.sdH, chan⟩
  | 0xA => ⟨.sdL, chan⟩
  | 0x8 => ⟨.ms, chan⟩
  | 0x6 => ⟨.wtr, chan⟩
  | 0x4 => ⟨.exer, chan⟩
  | 0x2 => ⟨.rr, chan⟩
  | 0x1 => ⟨.dnr, chan⟩
  | 0x0 => ⟨.nr, chan⟩
  | _ => ⟨.nr, 0⟩

/-- The request that OTN APS byte 1 bits 1-4 and a signal number spell. -/
def ofOtn (code chan : Nat) : ReqCh :=
  match code with
  | 0xF => ⟨.lo, chan⟩
  | 0xE => ⟨.fs, chan⟩
  | 0xD => if chan = 0 then ⟨.sfP, 0⟩ else ⟨.sfH, chan⟩
  | 0xB => ⟨.sdH, chan⟩
  | 0x7 => ⟨.ms, chan⟩
  | 0x5 => ⟨.wtr, chan⟩
  | 0x4 => ⟨.exer, chan⟩
  | 0x2 => ⟨.rr, chan⟩
  | 0x1 => ⟨.dnr, chan⟩
  | 0x0 => ⟨.nr, chan⟩
  | _ => ⟨.nr, 0⟩

/-- One request ranks above another; between equal requests the lower channel wins (R140). -/
def ReqCh.above (a b : ReqCh) : Bool :=
  decide (a.req.rank < b.req.rank) || (decide (a.req.rank = b.req.rank) && decide (a.chan < b.chan))

/-- The highest of several requests. -/
def topOf (l : List ReqCh) : ReqCh := l.foldl (fun a b => if b.above a then b else a) ⟨.nr, 0⟩

/-- FS, SF, SD and MS: the requests that switch (R145). -/
def PReq.switches : PReq → Bool
  | .fs | .sfH | .sfL | .sdH | .sdL | .ms => true
  | _ => false

/-! ## Groups -/

/-- A protection group, by its host engine. -/
def Chip.group (d : Chip) (h : Nat) : Group := SMap.get Group.init d.groups h
/-- Replaces a group. -/
def Chip.setGroup (d : Chip) (h : Nat) (g : Group) : Chip :=
  { d with groups := SMap.put Group.init d.groups h g }
/-- The deskew engine's part of a group. -/
def Chip.dsk (d : Chip) (h : Nat) : Dsk := SMap.get Dsk.init d.dsks h
/-- Replaces the deskew part of a group. -/
def Chip.setDsk (d : Chip) (h : Nat) (x : Dsk) : Chip := { d with dsks := SMap.put Dsk.init d.dsks h x }

/-- ARCH of a group (R138). -/
def Chip.apsArch (d : Chip) (h : Nat) : Nat := d.rf (R.APS_CFG h) 2 1
/-- A group with HITLESS = 1. -/
def Chip.apsHitless (d : Chip) (h : Nat) : Bool := d.rb (R.APS_CFG h) 5
/-- OTN APS signalling. -/
def Chip.apsOtn (d : Chip) (h : Nat) : Bool := d.rb (R.APS_CFG h) 3
/-- Revertive; 1:N always is (R145). -/
def Chip.apsRev (d : Chip) (h : Nat) : Bool := decide (d.apsArch h = 2) || d.rb (R.APS_CFG h) 4
/-- N of a group. -/
def Chip.apsN (d : Chip) (h : Nat) : Nat := d.rf (R.APS_CFG h) 9 6

/-- Joined to a peer: JOINED, DEGRADED or SPLIT_HOLD. -/
def Chip.joined (d : Chip) : Bool := decide (2 ≤ d.tdmSt)

/-- A cross-unit group is frozen in split hold (R349). -/
def Chip.apsFrozen (d : Chip) (h : Nat) : Bool := d.rb (R.APS_CFG h) 11 && d.splitHold

/-- A member of a group: its channel, its engine (136 and above on the peer unit) and its priority. -/
structure Member where
  chan : Nat
  eng  : Nat
  prio : Bool
deriving DecidableEq, Repr

/-- The local members of a group: the engines whose APS_MEMBER names the host with VALID. -/
def Chip.localMembers (d : Chip) (h : Nat) : List Member :=
  d.regs.filterMap (fun e =>
    if e.1 / 2 ^ 48 = Blk.eng.code ∧ e.1 % 2 ^ 12 = 0x394 ∧ bit e.2 12 = true ∧ fld e.2 7 0 = h
      ∧ d.svc.spares.contains (e.1 / 2 ^ 12 % 2 ^ 36) = false
    then some ⟨fld e.2 11 8, e.1 / 2 ^ 12 % 2 ^ 36, bit e.2 13⟩ else none)

/-- The remote members of a cross-unit group, from the TDM_XMEMBER table (R346). -/
def Chip.remoteMembers (d : Chip) (h : Nat) : List Member :=
  if d.rb (R.APS_CFG h) 11 then
    d.regs.filterMap (fun e =>
      if e.1 / 2 ^ 48 = Blk.xmem.code ∧ bit e.2 21 = true ∧ fld e.2 7 0 = h
      then some ⟨fld e.2 19 16, 136 + fld e.2 15 8, bit e.2 20⟩ else none)
  else []

/-- Every member of a group. -/
def Chip.members (d : Chip) (h : Nat) : List Member := d.localMembers h ++ d.remoteMembers h

/-- The engine of a channel of a group; 0 is the protect line, the host. -/
def Chip.chanEngine (d : Chip) (h n : Nat) : Option Nat :=
  if n = 0 then some h else ((d.members h).find? (fun m => m.chan = n)).map (·.eng)

/-- READY of an engine: its bring-up is complete, and it is neither a spare nor retired (R387). -/
def Chip.engReady (d : Chip) (e : Nat) : Bool :=
  d.engRdy.contains e && !d.svc.spares.contains e && !d.svc.retired.contains e

/-- SF of an engine as a group sees it: its SF summary, or an engine that is disabled or not ready; a
remote engine counts as SF once the pair is split (R139, R352). -/
def Chip.engSf (d : Chip) (e : Nat) : Bool :=
  if e < 136 then !d.engEn e || !d.engReady e || d.rb (R.DEF_STATUS e) 24 else !d.joined || d.tdm.sf.contains e

/-- SD of an engine as a group sees it. -/
def Chip.engSd (d : Chip) (e : Nat) : Bool :=
  if e < 136 then d.engEn e && d.engReady e && d.rb (R.DEF_STATUS e) 25 else d.joined && d.tdm.sd.contains e

/-- The engine is IN_FRAME; an OTL group is when its group is aligned (R76). -/
def Chip.inFrame (d : Chip) (e : Nat) : Bool :=
  if d.ganged e then (d.hunter (d.head e)).groupIn
  else
    let h := d.hunter e
    !h.streams.isEmpty && h.streams.all (fun s => s.st = .inFrame)

/-- The engine whose stream a 1+1 group selects. -/
def Chip.selectedEngine (d : Chip) (h : Nat) : Option Nat :=
  let g := d.group h
  if g.st = .disabled then none
  else if d.apsArch h = 2 then (if g.sel = 0 then none else some h)
  else if g.sel = 0 then d.chanEngine h 1 else some h

/-- The accepted received request, its channel, and the received bridged channel. -/
def Chip.apsRxDec (d : Chip) (h : Nat) : Option (ReqCh × Nat) :=
  match (d.group h).rx with
  | none => none
  | some v =>
    if d.apsOtn h then some (ofOtn (v / 2 ^ 28 % 16) (v / 2 ^ 16 % 256), v / 2 ^ 8 % 256)
    else some (ofK1 (v / 2 ^ 28 % 16) (v / 2 ^ 24 % 16), v / 2 ^ 20 % 16)

/-- The received request that takes part: none in 1+1 unidirectional, on MODE_MISMATCH, or RR
(R138, R141, R146). -/
def Chip.apsRxReq (d : Chip) (h : Nat) : Option ReqCh :=
  if d.apsArch h = 0 ∨ (d.group h).mm then none
  else match d.apsRxDec h with
  | some (r, _) => if r.req = .rr then none else some r
  | none => none

/-- The local requests of a group: the stored command, SF and SD raised, WTR or DNR (R140). -/
def Chip.apsLocal (d : Chip) (h : Nat) : List ReqCh :=
  let g := d.group h
  let ms := d.members h
  let prio := fun c => match ms.find? (fun m => m.chan = c) with
    | some m => m.prio
    | none => false
  (match g.cmd with | some c => [c] | none => [])
  ++ g.sfUp.map (fun c => if c = 0 then ⟨.sfP, 0⟩ else ⟨if prio c then .sfH else .sfL, c⟩)
  ++ (if d.rb (R.APS_CFG h) 10 then
        (g.sdUp.filter (· ≠ 0)).map (fun c => ⟨if prio c then .sdH else .sdL, c⟩) else [])
  ++ (match g.st, g.served with
      | .wtr, some s => [⟨.wtr, s.1.chan⟩]
      | .dnr, some s => [⟨.dnr, s.1.chan⟩]
      | _, _ => [])

/-- A received OTN SF or SD ranks equal to a local one of either priority (R140). -/
def otnRank (otn : Bool) (loc rx : ReqCh) : ReqCh :=
  if otn then
    match rx.req, loc.req with
    | .sfH, .sfL => ⟨.sfL, rx.chan⟩
    | .sdH, .sdL => ⟨.sdL, rx.chan⟩
    | _, _ => rx
  else rx

/-- The state that a top request brings (R145); `local_` tells whether it is a local request. -/
def nextSt (g : Group) (rev : Bool) (top : ReqCh) (local_ : Bool) : GSt × Option (ReqCh × Bool) :=
  match top.req with
  | .lo | .sfP => (.nr, none)
  | .fs | .sfH | .sfL | .sdH | .sdL | .ms => (.switched, some (top, local_))
  | _ =>
    match g.st, g.served with
    | .switched, some (s, true) =>
      if s.req = .fs ∨ s.req = .ms then (if rev then (.nr, none) else (.dnr, some (s, true)))
      else if rev then (.wtr, some (s, true)) else (.dnr, some (s, true))
    | .switched, some (s, false) =>
      if (top.req = .wtr ∨ top.req = .dnr) ∧ top.chan = s.chan then (.switched, some (s, false))
      else (.nr, none)
    | .switched, none => (.nr, none)
    | st, sv => (st, sv)

/-- APS_STATUS of a host (R139's register table). -/
def Chip.apsStatus (d : Chip) (h : Nat) : Word :=
  let g := d.group h
  let st := match g.st with
    | .disabled => 0 | .nr => 1 | .switched => 2 | .wtr => 3 | .dnr => 4
  let rx := match d.apsRxDec h with
    | some (r, _) => r
    | none => ⟨.nr, 0⟩
  w32 (st + g.top.req.k1 * 2 ^ 4 + (g.top.chan % 16) * 2 ^ 8 + rx.req.k1 * 2 ^ 12 + (rx.chan % 16) * 2 ^ 16
    + (g.sel % 16) * 2 ^ 20 + (g.bridged % 16) * 2 ^ 24 + b2n g.fop * 2 ^ 28 + b2n g.mm * 2 ^ 29
    + b2n (d.apsHitless h && decide (d.rf (R.DSK_STATUS h) 1 0 = 2)) * 2 ^ 30)

/-- The bytes the host transmits, in the layout of OHP_APS (R140). -/
def Chip.apsTx (d : Chip) (h : Nat) : Option Nat :=
  let g := d.group h
  if !g.ever then none
  else if d.apsOtn h then
    some ((g.tx.req.otn * 16 + 8 + b2n (decide (d.apsArch h = 2)) * 4 + b2n (decide (d.apsArch h ≠ 0)) * 2
      + b2n (d.apsRev h)) * 2 ^ 24 + (g.tx.chan % 256) * 2 ^ 16 + (g.bridged % 256) * 2 ^ 8)
  else some ((g.tx.req.k1 * 16 + g.tx.chan % 16) * 2 ^ 24
    + ((g.bridged % 16) * 16 + b2n (decide (d.apsArch h = 2)) * 8) * 2 ^ 16)

/-! ## The selector (R142, R147, R153) -/

/-- The channel the selector should take from protect. -/
def Chip.apsTarget (d : Chip) (h : Nat) (top : ReqCh) : Nat :=
  let c := top.req.switches || decide (top.req = .wtr) || decide (top.req = .dnr)
  if !c ∨ top.chan = 0 ∨ d.apsN h < top.chan then 0
  else if d.apsArch h = 2 then
    match d.apsRxDec h with
    | some (_, br) => if br = top.chan then top.chan else 0
    | none => 0
  else top.chan

/-- A decided selector change takes effect: counters, the SWITCH event, the trigger source, a new bale
of the selected stream; unaligned unless the group is LOCKED (R153, R154, R161). -/
def Chip.applySel (d : Chip) (h tgt : Nat) : Chip :=
  let g := d.group h
  let locked := d.apsHitless h && decide (d.rf (R.DSK_STATUS h) 1 0 = 2)
  let d1 := (d.setGroup h { g with sel := tgt, next := none }).count (R.APS_SW_CNT h)
  let d2 := (d1.setPair (R.APS_SW_TIME_LO h) (R.APS_SW_TIME_HI h) d1.dt).flag (R.APS_EVENT h) 0
  let d3 := (d2.ev h 0x0510 (d2.apsStatus h).toNat).breakBale h 1 (!locked)
  let d4 := if d.apsHitless h ∧ ¬ locked then (d3.flag (R.DSK_EVENT h) 4).ev h 0x0523 (d3.rd (R.DSK_STATUS h)).toNat else d3
  let d5 := if d.apsHitless h then d4.sbit (R.DSK_STATUS h) 5 (tgt ≠ 0) else d4
  d5.raiseEng h 14 d5.dt

/-- A stream has frame boundaries: IN_FRAME, or for an engine of the peer unit, that the bridge is up and reports no
SF of it (R147). -/
def Chip.streamIn (d : Chip) (e : Nat) : Bool :=
  if e < 136 then d.inFrame e else d.joined && !d.splitHold && !d.tdm.sf.contains e

/-- The selector is to take a channel: at the next frame boundary of the stream it selects, or at once
when that stream has none (R147). -/
def Chip.setSel (d : Chip) (h tgt : Nat) : Chip :=
  let g := d.group h
  if tgt = g.sel then d.setGroup h { g with next := none }
  else
    let stream := if tgt = 0 then (d.chanEngine h g.sel).getD h else h
    let locked := d.apsHitless h && decide (d.rf (R.DSK_STATUS h) 1 0 = 2)
    if locked ∨ d.streamIn stream then d.setGroup h { g with next := some tgt }
    else d.applySel h tgt

/-! ## Deciding (R141, R142, R145, R146) -/

/-- Whether the group is failing the protocol check at this moment: the transmitted request channel
and the received bridged channel differ (R146). -/
def Chip.fopDiffers (d : Chip) (h : Nat) : Bool :=
  let g := d.group h
  decide (d.apsArch h ≠ 0) &&
    (match d.apsRxDec h with
     | some (_, br) => decide (br ≠ g.tx.chan)
     | none => decide (g.tx.chan ≠ 0))

/-- One pass of the decision: the top request, a stored MS that a higher request removes, and the
state it brings.  Answers the top and whether anything moved. -/
def Chip.apsPass (d : Chip) (h : Nat) : Bool × ReqCh × Chip :=
  let g := d.group h
  let loc := topOf (d.apsLocal h)
  let (top, isLoc) := match d.apsRxReq h with
    | none => (loc, true)
    | some r =>
      let r' := otnRank (d.apsOtn h) loc r
      if r'.above loc then (r, false) else (loc, true)
  match g.cmd with
  | some ⟨.ms, _⟩ =>
    if top.req.rank < PReq.ms.rank then (true, top, d.setGroup h { g with cmd := none })
    else
      let (st, sv) := nextSt g (d.apsRev h) top isLoc
      let due := if st = .wtr then (if g.st = .wtr then g.wtrDue else some (d.core + d.rf (R.APS_TIMERS h) 25 16 * 1000000000)) else none
      (decide (st ≠ g.st ∨ sv ≠ g.served), top, d.setGroup h { g with st := st, served := sv, wtrDue := due })
  | _ =>
    let (st, sv) := nextSt g (d.apsRev h) top isLoc
    let due := if st = .wtr then (if g.st = .wtr then g.wtrDue else some (d.core + d.rf (R.APS_TIMERS h) 25 16 * 1000000000)) else none
    (decide (st ≠ g.st ∨ sv ≠ g.served), top, d.setGroup h { g with st := st, served := sv, wtrDue := due })

/-- Passes until nothing moves. -/
def Chip.apsPasses (d : Chip) (h : Nat) : Nat → ReqCh × Chip
  | 0 => (⟨.nr, 0⟩, d)
  | n + 1 =>
    match d.apsPass h with
    | (true, _, d') => if n = 0 then ((d'.apsPass h).2.1, d') else d'.apsPasses h n
    | (false, top, d') => (top, d')

/-- The protection controller forms the top request and moves the group, what it transmits, the bridge
and the selector (R141, R142, R145). -/
def Chip.apsEval (d : Chip) (h : Nat) : Chip :=
  if (d.group h).st = .disabled ∨ d.apsFrozen h then d else
  let (top, d1) := d.apsPasses h 4
  let g := d1.group h
  let loc := topOf (d1.apsLocal h)
  let tx := match d1.apsRxReq h with
    | none => loc
    | some r =>
      if (otnRank (d1.apsOtn h) loc r).above loc ∧ r.req ≠ .dnr ∧ r.req ≠ .nr then ⟨.rr, r.chan⟩ else loc
  let bridged :=
    if d1.apsArch h = 2 then
      match d1.apsRxDec h with
      | some (r, _) => if r.chan ≤ d1.apsN h then r.chan else 0
      | none => 0
    else tx.chan
  let d2 := d1.setGroup h { g with top := top, tx := tx, bridged := bridged }
  let differs := d2.fopDiffers h
  let g2 := d2.group h
  let d3 := d2.setGroup h { g2 with
    fopFrom := if differs then (match g2.fopFrom with | some t => some t | none => some d2.core) else none,
    fop := g2.fop && differs }
  if (d3.group h).fop then d3 else d3.setSel h (d3.apsTarget h top)

/-- SF and SD of the group's members and host, with their hold-off timers (R139, R143). -/
def Chip.apsInputs (d : Chip) (h : Nat) : Chip :=
  let g := d.group h
  if g.st = .disabled ∨ d.apsFrozen h then d else
  let chans := 0 :: (d.members h).map (·.chan)
  let eng := fun c => (d.chanEngine h c).getD h
  let sf := chans.filter (fun c => d.engSf (eng c))
  let sd := chans.filter (fun c => d.engSd (eng c))
  let hold := d.rf (R.APS_TIMERS h) 6 0 * 100000000
  let newSf := sf.filter (fun c => !g.sfSeen.contains c)
  let newSd := sd.filter (fun c => !g.sdSeen.contains c)
  let keep := g.holds.filter (fun t => if t.sd then sd.contains t.chan else sf.contains t.chan)
  let due := d.core + hold
  let g1 := { g with
    sfSeen := sf, sdSeen := sd,
    sfUp := g.sfUp.filter (fun c => sf.contains c) ++ (if hold = 0 then newSf else []),
    sdUp := g.sdUp.filter (fun c => sd.contains c) ++ (if hold = 0 then newSd else []),
    holds := keep ++ (if hold = 0 then [] else newSf.map (⟨·, false, due⟩) ++ newSd.map (⟨·, true, due⟩)) }
  (d.setGroup h g1).apsEval h

/-- The groups that an engine hosts or is a member of see its SF and SD. -/
def Chip.apsEngine (d : Chip) (e : Nat) : Chip :=
  let hosts := d.groups.filterMap (fun x =>
    if x.1 = e ∨ (d.members x.1).any (fun m => m.eng = e) then some x.1 else none)
  hosts.foldl (fun x h => x.apsInputs h) d

/-- The accepted received mode differs from the group's own (R146). -/
def Chip.apsModeDiffers (d : Chip) (h : Nat) : Bool :=
  match (d.group h).rx with
  | none => false
  | some v =>
    if d.apsArch h = 0 then false
    else if d.apsOtn h then
      decide (v.testBit 26 ≠ decide (d.apsArch h = 2)) || decide (v.testBit 25 ≠ true)
    else decide (v.testBit 19 ≠ decide (d.apsArch h = 2))

/-- MODE_MISMATCH is declared or cleared by an accepted value (R146). -/
def Chip.apsMode (d : Chip) (h : Nat) : Chip :=
  let g := d.group h
  let mm := d.apsModeDiffers h
  let d1 := d.setGroup h { g with mm := mm }
  if mm ∧ ¬ g.mm then (d1.flag (R.APS_EVENT h) 4).ev h 0x0513 0 else d1

/-- An accepted APS value reaches the protection controller (R91). -/
def Chip.apsRx (d : Chip) (h v : Nat) : Chip :=
  let d1 := d.setGroup h { d.group h with rx := some v }
  if (d1.group h).st = .disabled then d1 else (d1.apsMode h).apsEval h

/-! ## Enabling and disabling a group (R139, R150, R347) -/

/-- The rate of a whole line of a format: four lanes on OTL. -/
def pathRate (f rate : Nat) : Nat := if isOtl f then 4 * rate else rate

/-- The delay line size a path of a rate needs, in MiB (R150). -/
def dskSize (rate : Nat) : Nat := 2 * ceilDiv (ceilDiv (rate * 256) 1000) 1048576

/-- The enabled hitless groups other than `h`. -/
def Chip.hitlessGroups (d : Chip) (h : Nat) : List Nat :=
  d.groups.filterMap (fun x => if x.2.st ≠ .disabled ∧ d.apsHitless x.1 = true ∧ x.1 ≠ h then some x.1 else none)

/-- A delay line's first and last-plus-one MiB. -/
def Chip.dskLine (d : Chip) (h : Nat) : Nat × Nat :=
  let b := d.rf (R.DSK_CFG h) 16 0
  (b, b + d.rf (R.DSK_CFG h) 31 24)

/-- The rates of the paths of a hitless group, those of the peer unit among them (R149, R346). -/
def Chip.hitlessRate (d : Chip) (h : Nat) : Nat :=
  let r := pathRate (d.engFmt h) (d.engRate h)
  r * ((d.members h).length + 1)

/-- MIN_LANES in force: the pair's, or the unit's own while it is not joined (R340). -/
def Chip.minLanes (d : Chip) : Nat := if 2 ≤ d.tdmSt then d.tdm.minEff else d.rf R.TDM_CFG 3 0

/-- The RT demand in kb/s of the cross-unit member streams that flow to groups hosted here, with `h`
enabled (R347). -/
def Chip.rtDemandIn (d : Chip) (h : Nat) : Nat :=
  let hs := h :: d.groups.filterMap (fun x => if x.2.st ≠ .disabled ∧ x.1 ≠ h then some x.1 else none)
  (hs.map (fun g => (d.remoteMembers g).length * pathRate (d.engFmt g) (d.engRate g))).foldl (· + ·) 0

/-- The checks of R139. -/
def Chip.apsChecks (d : Chip) (h : Nat) : Bool :=
  let arch := d.apsArch h
  let n := d.apsN h
  let ms := d.members h
  let loc := d.localMembers h
  let f := d.engFmt h
  let hosts := fun e => decide ((d.group e).st ≠ .disabled)
  (decide (arch ≠ 3) && (if arch = 2 then decide (1 ≤ n ∧ n ≤ 14) else decide (n = 1))
  && decide (ms.length = n) && (List.range n).all (fun i => ms.any (fun m => m.chan = i + 1))
  && !d.rb (R.APS_MEMBER h) 12 && loc.all (fun m => decide (m.eng ≠ h) && !hosts m.eng)
  && (d.remoteMembers h).all (fun m => ((d.regs.filter (fun e => decide (e.1 / 2 ^ 48 = Blk.xmem.code)
        && bit e.2 21 && decide (136 + fld e.2 15 8 = m.eng))).length == 1))
  && loc.all (fun m => d.engFmt m.eng = f) && isFramed f && (d.apsOtn h == isOtn f)
  && (!d.ganged h || decide (h % 4 = 0))
  && (!d.apsHitless h ||
      (decide (arch ≠ 2)
       && decide (dskSize (pathRate f (d.engRate h)) ≤ d.rf (R.DSK_CFG h) 31 24)
       && decide ((d.dskLine h).2 ≤ 92160)
       && (d.hitlessGroups h).all (fun g => decide ((d.dskLine h).2 ≤ (d.dskLine g).1 ∨ (d.dskLine g).2 ≤ (d.dskLine h).1))
       && decide (((h :: d.hitlessGroups h).map d.hitlessRate).foldl (· + ·) 0 ≤ 1600000000)))
  && (!d.rb (R.APS_CFG h) 11 || decide (d.rtDemandIn h ≤ d.minLanes * 50468750)))

/-- The group enters NR with all channels on their working lines (R145). -/
def Chip.apsEnter (d : Chip) (h : Nat) : Chip :=
  let g := { Group.init with st := .nr, rx := (d.group h).rx, ever := true }
  let d1 := d.setGroup h g
  let d2 := if d.apsHitless h then
      (d1.setDsk h { Dsk.init with from_ := d.dt }).wr (R.DSK_STATUS h) (w32 1)
    else d1
  ((d2.apsMode h).apsInputs h).apsEval h

/-- The group goes to DISABLED: selector to working at the next frame boundary, NR sent (R145). -/
def Chip.apsLeave (d : Chip) (h : Nat) : Chip :=
  let g := d.group h
  let d1 := d.setGroup h { Group.init with rx := g.rx, sel := g.sel, ever := g.ever }
  let d2 := if d.apsHitless h then (d1.setDsk h Dsk.init).wr (R.DSK_STATUS h) (w32 0) else d1
  if g.sel = 0 then d2 else d2.setSel h 0

/-! ## Commands (R144) -/

/-- The request an APS_CMD code asks for. -/
def apsCmdReq (cmd chan : Nat) : Option ReqCh :=
  match cmd with
  | 1 => some ⟨.lo, 0⟩
  | 2 => some ⟨.fs, chan⟩
  | 3 => some ⟨.ms, chan⟩
  | 4 => some ⟨.exer, chan⟩
  | _ => none

/-- APS_CMD and APS_COMMAND: CLEAR, LOCKOUT, FORCE, MANUAL and EXERCISE, accepted or rejected with
NOT_PERMITTED and CMD_REJECT. -/
def Chip.apsCommand (d : Chip) (h cmd chan : Nat) : Status × Chip :=
  let g := d.group h
  let loc := d.apsLocal h
  let rx := match d.apsRxReq h with | some r => [r] | none => []
  let top := topOf (loc ++ rx)
  let lim := decide (1 ≤ chan ∧ chan ≤ d.apsN h)
  let blocked := (loc ++ rx).any (fun r => decide (r.req = .lo ∨ r.req = .sfP))
  let ok := decide (g.st ≠ .disabled) &&
    (match cmd with
     | 0 => true
     | 1 => true
     | 2 => lim && !blocked
     | 3 => lim && decide (PReq.ms.rank < top.req.rank)
     | 4 => lim && decide (PReq.exer.rank < top.req.rank)
     | _ => false)
  if ok then (.ok, (d.setGroup h { g with cmd := apsCmdReq cmd chan }).apsEval h)
  else (.notPermitted, d.flag (R.APS_EVENT h) 1)

/-! ## Timers (R143, R145, R146) -/

/-- A channel's hold-off timers that have run out raise their requests if the defect is still declared
(R143). -/
def Chip.holdExpire (d : Chip) (h chan : Nat) : Chip :=
  let g := d.group h
  if d.apsFrozen h then d else
  let due := g.holds.filter (fun t => t.chan = chan ∧ t.due ≤ d.core)
  if due.isEmpty then d else
  let g1 := { g with
    holds := g.holds.filter (fun t => ¬ (t.chan = chan ∧ t.due ≤ d.core)),
    sfUp := g.sfUp ++ (due.filter (fun t => !t.sd)).map (·.chan),
    sdUp := g.sdUp ++ (due.filter (fun t => t.sd)).map (·.chan) }
  (d.setGroup h g1).apsEval h

/-- The wait-to-restore timer has run out: the group returns to NR (R145). -/
def Chip.wtrExpire (d : Chip) (h : Nat) : Chip :=
  let g := d.group h
  match g.st, g.wtrDue with
  | .wtr, some t =>
    if d.core < t ∨ d.apsFrozen h then d
    else (((d.setGroup h { g with st := .nr, served := none, wtrDue := none }).flag (R.APS_EVENT h) 2).ev h 0x0511 0).apsEval h
  | _, _ => d

/-- The channels have differed for 50 ms: failure of protocol (R146). -/
def Chip.fopExpire (d : Chip) (h : Nat) : Chip :=
  let g := d.group h
  match g.fopFrom with
  | some t =>
    if d.core < t + 50000000 ∨ g.fop ∨ d.apsFrozen h then d
    else ((d.setGroup h { g with fop := true }).flag (R.APS_EVENT h) 3).ev h 0x0512 0
  | none => d

/-! ## The deskew engine (R148-R152) -/

/-- Ticks in 16 µs, 2.0 ms, 2.016 ms and 16 ms. -/
def t16us : Nat := 64000
def t2ms : Nat := 8000000
def t2016 : Nat := 8064000
def t16ms : Nat := 64000000

/-- The offsets at which the newest eight frames of one path match eight consecutive frames of the
other (R148). -/
def sigMatches (a b : List Sig) : List Nat :=
  if a.length < 8 then [] else
  (List.range (b.length - 7)).filter (fun k =>
    (List.range 8).all (fun i => decide ((a[i]?).map (·.crc) = (b[k + i]?).map (·.crc))))

/-- DSK_DELAY as a register: signed ticks. -/
def Chip.setDelay (d : Chip) (h : Nat) (v : Int) : Chip := d.wr (R.DSK_DELAY h) (w32 (unsgn 32 v))

/-- DSK_STATUS.STATE. -/
def Chip.setDskSt (d : Chip) (h st : Nat) : Chip := d.sf (R.DSK_STATUS h) 1 0 st

/-- The group leaves LOCKED for SEEK (R151). -/
def Chip.dskUnlock (d : Chip) (h : Nat) : Chip :=
  let x := d.dsk h
  let d1 := ((d.setDsk h { x with miss := 0, from_ := d.dt, rebase := none, sigW := [], sigP := [] }).setDskSt h 1).unflag (R.DSK_STATUS h) 4
  ((d1.flag (R.DSK_EVENT h) 1).ev h 0x0521 (d1.rd (R.DSK_STATUS h)).toNat).breakBale h 1 false

/-- RANGE is set: a delay above 2.0 ms. -/
def Chip.dskRange (d : Chip) (h : Nat) : Chip := (d.flag (R.DSK_STATUS h) 2).flag (R.DSK_EVENT h) 2

/-- The paths lie in a known relation: LOCKED, with a re-base of the selected path when it must grow
(R152). -/
def Chip.dskLock (d : Chip) (h : Nat) (delta : Int) : Chip :=
  let x := d.dsk h
  let onP := decide ((d.group h).sel ≠ 0)
  -- output time: working arrival + lagW = protect arrival + lagP
  let sel : Int := if onP then x.lagP else x.lagW
  let other := if onP then sel + delta else sel - delta
  let d0 := (d.unflag (R.DSK_STATUS h) 3).unflag (R.DSK_STATUS h) 2
  let lockEv := fun (y : Chip) => ((y.flag (R.DSK_EVENT h) 0).evt h 0x0520 0xFFFF (y.rd (R.DSK_STATUS h)).toNat
    (unsgn 64 delta * 2 ^ 64)).breakBale h 1 false
  if (t16us : Int) ≤ other ∧ other ≤ (t2016 : Int) then
    let o := other.toNat
    lockEv (((d0.setDsk h { x with delay := delta, lagW := if onP then o else x.lagW, lagP := if onP then x.lagP else o, miss := 0 }).setDelay h delta).setDskSt h 2)
  else
    -- the path that lags gets its 16 µs, and the other the delay between them on top
    let lead : Int := if onP then -delta else delta
    let g := ((t16us : Int) + max 0 lead).toNat
    let o := ((t16us : Int) + max 0 (-lead)).toNat
    let pause := (g - sel.toNat) / 4
    let d1 := ((d0.setDsk h { x with delay := delta, lagW := if onP then o else g, lagP := if onP then g else o,
                                     rebase := some (d.core + pause), miss := 0 }).setDelay h delta).setDskSt h 2
    let d2 := ((d1.flag (R.DSK_STATUS h) 4).flag (R.DSK_EVENT h) 3)
    (lockEv ((d2.ev h 0x0522 (d2.rd (R.DSK_STATUS h)).toNat))).breakBale h 1 true

/-- The part of a distance in ticks that moves in one frame: whole octets, at most four (R151). -/
def octetStep (rate : Nat) (diff : Int) : Int :=
  let n := ((List.range 5).filter (fun k => octStamp rate 0 k ≤ diff.natAbs)).foldl max 0
  if diff < 0 then -(octStamp rate 0 n : Int) else octStamp rate 0 n

/-- A frame of one path of a hitless group reaches the deskew engine: `path` 0 is working, 1 protect
(R148, R151). -/
def Chip.dskFrame (d : Chip) (h path time crc : Nat) : Chip :=
  if (d.group h).st = .disabled ∨ d.apsHitless h = false then d else
  let x := d.dsk h
  let cut := fun (l : List Sig) => l.filter (fun s => d.dt ≤ s.time + t16ms)
  let s : Sig := ⟨time, crc⟩
  let x1 := if path = 0 then { x with sigW := s :: cut x.sigW, sigP := cut x.sigP }
            else { x with sigP := s :: cut x.sigP, sigW := cut x.sigW }
  let d1 := d.setDsk h x1
  let mine := if path = 0 then x1.sigW else x1.sigP
  let other := if path = 0 then x1.sigP else x1.sigW
  if d.rf (R.DSK_STATUS h) 1 0 = 2 then
    -- LOCKED: the counterpart is the frame that starts nearest the held offset
    let want : Int := if path = 0 then (time : Int) + x.delay else (time : Int) - x.delay
    let rate := pathRate (d.engFmt h) (d.engRate h)
    let half : Int := (octStamp rate 0 (frameOctets (d.engFmt h)) / 2 : Nat)
    match other.find? (fun y => (y.time : Int) - want ≤ half ∧ want - (y.time : Int) ≤ half) with
    | none => d1
    | some y =>
      let working := d.engSf ((d.chanEngine h 1).getD h)
      if working ∨ d.engSf h then d1
      else if y.crc ≠ crc then
        if x1.miss + 1 ≥ 8 then (d1.setDsk h { x1 with miss := 8 }).dskUnlock h
        else d1.setDsk h { x1 with miss := x1.miss + 1 }
      else
        let meas : Int := if path = 0 then (y.time : Int) - time else (time : Int) - y.time
        let onP := decide ((d.group h).sel ≠ 0)
        let now : Int := if onP then x1.lagW else x1.lagP
        -- the delay that aligns the non-selected path with the selected one
        let want : Int := if onP then (x1.lagP : Int) + meas else (x1.lagW : Int) - meas
        if want < t16us ∨ (t2016 : Int) < want then
          let d2 := ((d1.setDsk h { x1 with miss := 0, delay := meas }).setDelay h meas).dskUnlock h
          if (t2ms : Int) < meas ∨ meas < -(t2ms : Int) then d2.dskRange h else d2
        else
          let o := (now + octetStep rate (want - now)).toNat
          (d1.setDsk h { x1 with miss := 0, delay := meas, lagW := if onP then o else x1.lagW,
                                 lagP := if onP then x1.lagP else o }).setDelay h meas
  else
    match sigMatches mine other with
    | [] => d1
    | [k] =>
      match other[k]? with
      | none => d1
      | some y =>
        let delta : Int := if path = 0 then (y.time : Int) - time else (time : Int) - y.time
        if (t2ms : Int) < delta ∨ delta < -(t2ms : Int) then ((d1.setDskSt h 1).setDelay h delta).dskRange h
        else d1.dskLock h delta
    | _ => (d1.setDskSt h 1).flag (R.DSK_STATUS h) 3

/-- No offset within 16 ms matches (R148). -/
def Chip.dskNoMatch (d : Chip) (h : Nat) : Chip :=
  let x := d.dsk h
  if d.rf (R.DSK_STATUS h) 1 0 = 1 ∧ x.from_ + t16ms ≤ d.dt ∧ 8 ≤ x.sigW.length ∧ 8 ≤ x.sigP.length
    ∧ (sigMatches x.sigW x.sigP).isEmpty ∧ (sigMatches x.sigP x.sigW).isEmpty
  then d.setDskSt h 3 else d

/-- A re-base has paused long enough: aligned output resumes (R152). -/
def Chip.rebaseDone (d : Chip) (h : Nat) : Chip :=
  let x := d.dsk h
  match x.rebase with
  | some t => if d.core < t then d else (d.setDsk h { x with rebase := none }).unflag (R.DSK_STATUS h) 4
  | none => d

end Sys2Proof.Machine
end

