-- ==== Sys2Proof/Machine/Defects.lean ====
section
/-! DEFINITION. The defect monitor (R123-R137): criteria and integration, declarations and clearings, the
SF and SD summaries, consequent actions, BIP windows and the performance layers. -/

namespace Sys2Proof.Machine

/-! ## Defects and where they show (R126-R129) -/

/-- The engine a defect belongs to. -/
def Chip.defEng (d : Chip) : DKey → Nat
  | .line e _ => e
  | .path t _ => d.ctxOwner t

/-- Defects declared on a context, as DEF_PATH_STATUS.DEFECTS. -/
def Chip.pathBits (d : Chip) (t : Nat) : Nat := SMap.get 0 d.paths t

/-- The place of a TCM defect in DEF_TCM: five bits per level. -/
def tcmBit (k : Nat) : Nat := (k - 0x80) / 8 * 5 + (k - 0x80) % 8

/-- A defect is declared. -/
def Chip.defUp (d : Chip) : DKey → Bool
  | .line e k => if k < 0x80 then d.rb (R.DEF_STATUS e) k else d.rb (R.DEF_TCM e) (tcmBit k)
  | .path t b => (d.pathBits t).testBit b

/-- Declared LOS, LOF, LOL or OTU-AIS masks the frozen defects of an engine (R125). -/
def Chip.masked (d : Chip) (e : Nat) : Bool :=
  let s := d.rd (R.DEF_STATUS e)
  bit s 0 || bit s 2 || bit s 3 || bit s 5

/-- A line defect is declared and not masked. -/
def Chip.defEff (d : Chip) (e k : Nat) : Bool :=
  d.rb (R.DEF_STATUS e) k && (decide (k ≤ 3) || decide (k = 5) || !d.masked e)

/-- The inputs of the SF summary (R127). -/
def Chip.sfNow (d : Chip) (e : Nat) : Bool :=
  let tim := d.rb (R.DEF_ACT e) 3
  [0, 2, 3, 4, 5, 6, 12, 13, 14, 20, 22].any (d.defEff e) || (tim && (d.defEff e 8 || d.defEff e 16))

/-- The inputs of the SD summary. -/
def Chip.sdNow (d : Chip) (e : Nat) : Bool := d.defEff e 21 || d.defEff e 23

/-- DEF_STATUS.SF and SD follow their inputs and reach the protection controller and the trigger levels
(R127, R130, R147). -/
def Chip.defSummary (d : Chip) (e : Nat) : Chip :=
  ((((d.sbit (R.DEF_STATUS e) 24 (d.sfNow e)).sbit (R.DEF_STATUS e) 25 (d.sdNow e)).apsEngine e).engLevels e d.dt)

/-! ## Performance layers (R135) -/

/-- The defects of layer L0. -/
def Chip.pmDef0 (d : Chip) (e : Nat) : Bool := [0, 1, 2, 3, 4, 5, 8].any (d.defEff e)
/-- The defects of layer L1. -/
def Chip.pmDef1 (d : Chip) (e : Nat) : Bool := d.pmDef0 e || [6, 12, 13, 14, 16, 17].any (d.defEff e)
/-- The defects of layer L2. -/
def Chip.pmDef2 (d : Chip) (e : Nat) : Bool := [7, 15].any (d.defEff e)
/-- The defects of layer L3: of L1, and of the context but RDI and RFI. -/
def Chip.pmDef3 (d : Chip) (e : Nat) : Bool :=
  d.pmDef1 e || (!d.masked e && [0, 1, 2, 3, 4, 5, 6, 9, 10, 11].any (fun b => (d.pathBits (d.mon e).pmCtx).testBit b))

/-- Whether layer `l` has a defect now. -/
def Chip.pmDef (d : Chip) (e l : Nat) : Bool :=
  match l with
  | 0 => d.pmDef0 e
  | 1 => d.pmDef1 e
  | 2 => d.pmDef2 e
  | _ => (d.mon e).pmCfg.testBit 14 && d.pmDef3 e

/-- The running second of every layer that has a defect is a defect second. -/
def Chip.pmNote (d : Chip) (e : Nat) : Chip :=
  let m := d.mon e
  d.setMon e { m with pm := m.pm.mapIdx (fun l x => { x with defect := x.defect || d.pmDef e l }) }

/-- A block of layer `l` has been checked (R135). -/
def Chip.pmBlock (d : Chip) (e l : Nat) (errored : Bool) : Chip :=
  let m := d.mon e
  d.setMon e { m with pm := m.pm.mapIdx (fun i x =>
    if i = l then { x with blocks := x.blocks + 1, errored := x.errored + b2n errored } else x) }

/-! ## Declaring and clearing (R123-R126) -/

/-- A defect is declared or cleared: its status and event bits, the DEFECT event, the summaries. -/
def Chip.defFlip (d : Chip) (k : DKey) (on : Bool) : Chip :=
  if d.defUp k = on then d else
  let d0 := d.setDefT k { d.defT k with flip := some d.core }
  match k with
  | .line e n =>
    let d1 := if n < 0x80 then (d0.sbit (R.DEF_STATUS e) n on) else d0.sbit (R.DEF_TCM e) (tcmBit n) on
    let d2 := if n < 24 then d1.flag (R.DEF_EVENT e) n else d1.flag (R.DEF_EVENT e) 26
    (((d2.evt e 0x0500 0xFFFF (n + b2n on * 256) 0).pmNote e).defSummary e)
  | .path t b =>
    let e := d0.ctxOwner t
    let old := d0.pathBits t
    let new := if on then old ||| 2 ^ b else old - 2 ^ b
    let d1 := { d0 with paths := SMap.put 0 d0.paths t new }
    let d2 := (d1.flag (R.DEF_EVENT e) 27).evt e 0x0500 t (0x40 + b + b2n on * 256) 0
    let d3 := d2.pmNote e
    if on then d3.raiseEng e 11 d3.dt else d3

/-- A defect whose criterion is not frozen while the hunter is not IN_FRAME (R125). -/
def DKey.live : DKey → Bool
  | .line _ k => decide (k ≤ 3) || decide (k = 5)
  | .path _ _ => false

/-- A criterion is evaluated: the engine is enabled and, but for those of R125, IN_FRAME. -/
def Chip.defEval (d : Chip) (k : DKey) : Bool := d.engEn (d.defEng k) && (k.live || d.inFrame (d.defEng k))

/-- How long a criterion must hold before the declaration (`on`) or the clearing (R124, R127, R129). -/
def Chip.defTime (d : Chip) (k : DKey) (on : Bool) : Nat :=
  match k with
  | .line e n =>
    let w := d.rd (R.DEF_INTEG_LINE e)
    let integ := (if on then fld w 13 0 else fld w 29 16) * 100000
    if n = 3 then (if on then d.rf (R.HNT_LOF e) 6 0 else d.rf (R.HNT_LOF e) 14 8) * 250000
    else if n = 4 ∨ n = 18 then 3000000 + integ
    else integ
  | .path t b =>
    let w := d.rd (R.DEF_INTEG_PATH (d.ctxOwner t))
    let integ := (if on then fld w 13 0 else fld w 29 16) * 100000
    if b = 9 then 1000000 + integ else integ

/-- A criterion takes a value, where it is evaluated (R125, R126): its timer restarts at every change, and without
integration time the defect follows at once. -/
def Chip.defCrit (d : Chip) (k : DKey) (c : Option Bool) : Chip :=
  let t := d.defT k
  if t.crit = c ∨ ¬ d.defEval k then d else
  let d1 := d.setDefT k { t with crit := c, since := d.core }
  match c with
  | some b => if d.defTime k b = 0 then d1.defFlip k b else d1
  | none => d1

/-- One frame's value of a criterion that needs `need` frames in a row for either. -/
def Chip.defRun (d : Chip) (k : DKey) (need : Nat) (cond : Bool) : Chip :=
  let t := d.defT k
  let det := if cond then min 15 (t.det + 1) else 0
  let clr := if cond then 0 else min 15 (t.clr + 1)
  let c := if need ≤ det then some true else if need ≤ clr then some false else none
  (d.setDefT k { t with det := det, clr := clr }).defCrit k c

/-- The integration time of a criterion has passed (R123). -/
def Chip.defExpire (d : Chip) (k : DKey) (on : Bool) : Chip :=
  let t := d.defT k
  if d.defEval k ∧ t.crit = some on ∧ d.defUp k ≠ on ∧ t.since + d.defTime k on ≤ d.core then d.defFlip k on else d

/-! ## Defects of contexts, and their parents (R106, R117, R129) -/

/-- The state a context shows: the worse of its pointer and its concatenation positions (R108). -/
def Ctx.worst (x : Ctx) : PtrSt :=
  let all := x.ptr.st :: x.conc.map (·.st)
  if x.ptr.st = .inactive ∨ x.ptr.st = .parentFail then x.ptr.st
  else if all.contains .lop then .lop
  else if all.contains .ais then .ais
  else if all.contains .acquire then .acquire
  else .norm

/-- The criteria that follow a context's state. -/
def Chip.ctxSync (d : Chip) (t : Nat) : Chip :=
  let st := (d.ctx t).worst
  let d1 := if sdhType (d.ctxType t) then
      (d.defCrit (.path t 0) (some (st = .lop))).defCrit (.path t 1) (some (st = .ais))
    else d
  (d1.defCrit (.path t 11) (some (st = .parentFail))).defCrit (.path t 10) (some (d.ctx t).msim)

/-- The cause that holds a context in PARENT_FAIL. -/
def Chip.parentBad (d : Chip) (t : Nat) : Bool :=
  let e := d.ctxOwner t
  let ty := d.ctxType t
  let p := d.ctxParent t
  let up := !d.ctxTop t
  if sdhType ty then
    d.rb (R.DEF_STATUS e) 6 || (up && decide ((d.ctx p).worst ≠ .norm))
      || (up && (decide (ty = 7) || decide (ty = 8)) && (d.pathBits p).testBit 9)
  else if up then
    (d.ctx t).msim || decide ((d.ctx p).worst ≠ .norm) || [1, 3, 4].any (fun b => (d.pathBits p).testBit b)
  else (d.ctx t).msim || [12, 13, 14, 18].any (fun k => d.rb (R.DEF_STATUS e) k)

/-- An interpreter restarts in a state with its counts at 0. -/
def Ptr.enter (p : Ptr) (st : PtrSt) : Ptr :=
  { p with st := st, same := Seen.init, newp := Seen.init, bad := 0, inv := 0, ndf := 0, acq := 0, ais := 0, gap := 3 }

/-- A context moves into or out of PARENT_FAIL. -/
def Chip.parentStep (d : Chip) (t : Nat) : Chip :=
  let x := d.ctx t
  if x.ptr.st = .inactive then d
  else if d.parentBad t then
    (if x.ptr.st = .parentFail then d
     else (d.setCtx t { x with ptr := { x.ptr with st := .parentFail } }).ctxSync t)
  else if x.ptr.st = .parentFail then
    (d.setCtx t { x with ptr := x.ptr.enter .acquire, conc := x.conc.map (·.enter .acquire) }).ctxSync t
  else d

/-- Every context of an IN_FRAME engine is held against its parent, parents first. -/
def Chip.parents (d : Chip) (e : Nat) : Chip :=
  if d.engEn e ∧ d.inFrame e then
    (List.range 3).foldl (fun x _ => (x.ownedCtxs e).foldl (fun y t => y.parentStep t) x) d
  else d

/-- The state that a context's working copy shows (R97). -/
def Ctx.wworst (x : Ctx) : PtrSt := ({ x with ptr := x.wptr, conc := x.wconc } : Ctx).worst

/-- A working copy leaves NORM: the context's tentative bales are withdrawn (R97, R167). -/
def Chip.workLeft (d : Chip) (t : Nat) : Chip :=
  let e := d.ctxOwner t
  if (d.ctx t).wworst = .norm ∧ (d.tentSubs e).contains (ctxSub t) = true then
    d.tapWord e (SWord.mark (ctxSub t) (.retract 0x07 (SMap.get Hunter.init d.hunters e).lastOut))
  else d

/-- The working copy of a context moves into or out of PARENT_FAIL with the working copy of its parent; what the
defect monitor has declared stays as it is on the lead (R97, R106, R125). -/
def Chip.workStep (d : Chip) (t : Nat) : Chip :=
  let x := d.ctx t
  let p := d.ctxParent t
  -- the parent's own state is taken from its working copy
  let y := { d with ctxs := SMap.put Ctx.init d.ctxs p { d.ctx p with ptr := (d.ctx p).wptr, conc := (d.ctx p).wconc } }
  if x.wptr.st = .inactive then d
  else if (if d.ctxTop t then d.parentBad t else y.parentBad t) then
    (if x.wptr.st = .parentFail then d
     else (d.workLeft t).setCtx t { x with wptr := { x.wptr with st := .parentFail } })
  else if x.wptr.st = .parentFail then
    d.setCtx t { x with wptr := x.wptr.enter .acquire, wconc := x.wconc.map (·.enter .acquire) }
  else d

/-- The working copies of an engine's contexts are held against their parents (R97). -/
def Chip.workParents (d : Chip) (e : Nat) : Chip :=
  (List.range 3).foldl (fun (x : Chip) _ => (x.ownedCtxs e).foldl (fun y t => y.workStep t) x) d

/-- A defect of an engine's line or context changes by a criterion outside a frame. -/
def Chip.defSettle (d : Chip) (k : DKey) : Chip := d.parents (d.defEng k)

/-! ## LOS, OOF and LOF (R127), the freeze of R125 -/

/-- LOS, OOF and LOF of a line follow its lanes and hunters. -/
def Chip.syncLine (d : Chip) (e : Nat) : Chip :=
  let h := d.head e
  if ¬ d.engEn h ∨ ¬ isFramed (d.engFmt h) then d else
  let es := d.lineEngs h
  let los := es.any (fun x => match d.boundLane x with | some n => (d.lane n).los | none => false)
  let lof := es.any (fun x => (d.hunter x).lof)
  (((d.defFlip (.line h 0) los).defFlip (.line h 1) (!d.inFrame h)).defFlip (.line h 2) lof).parents h

/-- A criterion judged at an acceptance: TIM, PLM, UNEQ (R125). -/
def DKey.atAccept : DKey → Bool
  | .line _ k => decide (k = 8) || decide (k = 16) || decide (k = 17) || (decide (26 ≤ k) && decide (k ≤ 31))
  | .path _ b => decide (b = 2) || decide (b = 5) || decide (b = 6)

/-- A criterion reached by a run of frames. -/
def DKey.byRun : DKey → Bool
  | .line _ k => [6, 7, 9, 10, 11, 12, 13, 14, 15].contains k || decide (0x80 ≤ k)
  | .path _ b => [3, 4, 7, 8].contains b

/-- At the IN_FRAME declaration runs and timers restart from zero, and what is judged at an acceptance has
no value until the next one (R125). -/
def Chip.defThaw (d : Chip) (e : Nat) : Chip :=
  let upd := fun (d : Chip) (k : DKey) =>
    let t := d.defT k
    if t = DefT.init ∨ k.live then d
    else d.setDefT k { t with det := 0, clr := 0, since := d.core, crit := if k.atAccept ∨ k.byRun then none else t.crit }
  let m := d.mon e
  let d0 := d.setMon e { m with mfBad := 0, mfGood := 0, omBad := 0, omGood := 0 }
  let d1 := ((List.range 32) ++ (List.range 48).map (· + 0x80)).foldl (fun x k => upd x (.line e k)) d0
  (d1.ownedCtxs e).foldl (fun x t => (List.range 12).foldl (fun y b => upd y (.path t b)) x) d1

/-- The search for OTU-AIS begins anew (R126, R127). -/
def DefMon.pnReset (m : DefMon) : DefMon := { m with pn := 0, pnBits := 0, pnErrs := 0, pnHit := 0, pnMiss := 0 }

/-- Every declared defect of an engine and of its contexts clears, and no criterion is evaluated until the next
enable (R126). -/
def Chip.defClearAll (d0 : Chip) (e : Nat) : Chip :=
  let d := d0.setMon e (d0.mon e).pnReset
  let d1 := ((List.range 24) ++ (List.range 6).map (· + 26) ++ (List.range 48).map (· + 0x80)).foldl
    (fun (x : Chip) (k : Nat) => if k < 0x80 ∨ (k - 0x80) % 8 < 5 then
        (x.defFlip (.line e k) false).setDefT (.line e k) DefT.init else x) d
  (d1.ownedCtxs e).foldl (fun x t => (List.range 12).foldl (fun y b =>
    ((y.defFlip (.path t b) false).setDefT (.path t b) DefT.init)) x) d1

/-! ## Consequent actions (R132-R134) -/

/-- A defect acts on a transmit frame that starts now: it was declared at least four core cycles ago, or
cleared less than four ago (R134). -/
def Chip.acts (d : Chip) (k : DKey) : Bool :=
  let up := d.defUp k
  match (d.defT k).flip with
  | some t => if d.core < t + 4 then !up else up
  | none => up

/-- A line defect acts and is not masked. -/
def Chip.actsLine (d : Chip) (e k : Nat) : Bool :=
  d.acts (.line e k) && (decide (k ≤ 3) || decide (k = 5) || !d.masked e)

/-- Downstream AIS for the whole line of a through source (R132). -/
def Chip.downLine (d : Chip) (e : Nat) : Bool :=
  let tim := d.rb (R.DEF_ACT e) 2
  d.actsLine e 1 || (d.rb (R.DEF_ACT e) 0 &&
    ([0, 2, 3, 4, 5, 6, 12, 13, 14, 17].any (d.actsLine e) || (tim && (d.actsLine e 8 || d.actsLine e 16))))

/-- Downstream AIS for a context (R132). -/
def Chip.downCtx (d : Chip) (t : Nat) : Bool :=
  let e := d.ctxOwner t
  d.rb (R.DEF_ACT e) 0 && !d.masked e &&
    ([0, 1, 2, 3, 4, 6, 10, 11].any (fun b => d.acts (.path t b)) || (d.rb (R.DEF_ACT e) 2 && d.acts (.path t 5)))

/-- MS-RDI or SM BDI (R133, R134). -/
def Chip.backLine (d : Chip) (e : Nat) : Bool :=
  let otn := isOtn (d.engFmt e)
  d.rb (R.DEF_ACT e) 5 || (d.rb (R.DEF_ACT e) 1 &&
    ((if otn then [0, 2, 3, 4, 5] else [0, 2, 3, 6]).any (d.actsLine e) || (d.rb (R.DEF_ACT e) 2 && d.actsLine e 8)))

/-- PM BDI of the line's own ODU (R133). -/
def Chip.backPm (d : Chip) (e : Nat) : Bool :=
  d.rb (R.DEF_ACT e) 1 && ([12, 13, 14].any (d.actsLine e) || (d.rb (R.DEF_ACT e) 2 && d.actsLine e 16))

/-- RDI or BDI of a context (R133). -/
def Chip.backCtx (d : Chip) (t : Nat) : Bool :=
  let e := d.ctxOwner t
  d.rb (R.DEF_ACT e) 1 && !d.masked e &&
    ([0, 1, 2, 3, 4].any (fun b => d.acts (.path t b)) || (d.rb (R.DEF_ACT e) 2 && d.acts (.path t 5)))

/-! ## SF and SD windows (R130, R131) -/

/-- The register triple of a window: SF or SD. -/
def Chip.winCfg (d : Chip) (e : Nat) (sd : Bool) : Nat × Nat × Nat × Nat :=
  if sd then (d.rf (R.DEF_SD_WIN e) 15 0, (d.rd (R.DEF_SD_SET e)).toNat, (d.rd (R.DEF_SD_CLR e)).toNat, d.rf (R.DEF_SD_WIN e) 19 16)
  else (d.rf (R.DEF_SF_WIN e) 15 0, (d.rd (R.DEF_SF_SET e)).toNat, (d.rd (R.DEF_SF_CLR e)).toNat, d.rf (R.DEF_SF_WIN e) 19 16)

/-- The window of an engine. -/
def DefMon.win (m : DefMon) (sd : Bool) : Win := if sd then m.sd else m.sf
/-- Replaces a window. -/
def DefMon.setWin (m : DefMon) (sd : Bool) (w : Win) : DefMon := if sd then { m with sd := w } else { m with sf := w }

/-- The defect that a window feeds: SF_L0, SD_L0, SF_L1 or SD_L1. -/
def winDef (layer : Nat) (sd : Bool) : Nat := 20 + 2 * layer + b2n sd

/-- A new LAYER takes effect: the former layer's defects clear, the windows start empty (R131). -/
def Chip.layerChange (d : Chip) (e : Nat) : Chip :=
  let m := d.mon e
  let new := d.rf (R.DEF_SF_WIN e) 20 20
  if m.layer = new then d else
  let d1 := (d.defFlip (.line e (winDef m.layer false)) false).defFlip (.line e (winDef m.layer true)) false
  d1.setMon e { d1.mon e with layer := new, sf := Win.init, sd := Win.init }

/-- A window of evaluated frames ends (R131). -/
def Chip.winEnd (d : Chip) (e : Nat) (sd : Bool) : Chip :=
  let m := d.mon e
  let w := m.win sd
  if w.window = 0 ∨ w.frames < w.window ∨ ¬ d.engEn e then d else
  let k := DKey.line e (winDef m.layer sd)
  let hit := decide (w.set ≠ 0 ∧ w.set ≤ w.errs)
  let below := if hit then 0 else if w.errs < w.clr then w.below + 1 else 0
  let clrW := max 1 (d.winCfg e sd).2.2.2
  let d1 := d.setMon e (m.setWin sd { Win.init with below := below })
  let d2 := if hit then d1.defFlip k true else if clrW ≤ below then d1.defFlip k false else d1
  if sd then d2 else d2.layerChange e

/-- A frame with an evaluated BIP of `errs` errors is added to a window; the first frame of a window
latches its configuration. -/
def Chip.winFrame (d : Chip) (e : Nat) (sd : Bool) (errs : Nat) : Chip :=
  let d := d.winEnd e sd
  let m := d.mon e
  let w := m.win sd
  let c := d.winCfg e sd
  if c.1 = 0 then d else
  let w := if w.frames = 0 then { w with window := c.1, set := c.2.1, clr := c.2.2.1 } else w
  d.setMon e (m.setWin sd { w with frames := w.frames + 1, errs := w.errs + errs })

/-- A frame whose BIP of layer `l` was evaluated feeds SF and SD (R130). -/
def Chip.winFrames (d : Chip) (e l errs : Nat) : Chip :=
  if (d.mon e).layer = l then (d.winFrame e false errs).winFrame e true errs else d

/-- A write to the SF or SD window registers (R131). -/
def Chip.winWrite (d : Chip) (e : Nat) (sd : Bool) : Chip :=
  let m := d.mon e
  let d1 := if (d.winCfg e sd).1 = 0 then
      (d.setMon e (m.setWin sd Win.init)).defFlip (.line e (winDef m.layer sd)) false
    else d
  if ¬ sd ∧ ((d1.mon e).sf.frames = 0) then d1.layerChange e else d1

/-! ## Seconds (R135-R137) -/

/-- The Device Time ticks of a second. -/
def secTicks : Nat := 4000000000

/-- The SES threshold of a layer in per cent. -/
def Chip.sesPct (d : Chip) (e l : Nat) : Nat :=
  let m := d.mon e
  let p := m.pmCfg / 2 ^ 16 % 128
  let otn := if l = 3 then oduType (d.ctxType m.pmCtx) else isOtn (d.engFmt e)
  if p ≠ 0 then p else if otn then 15 else 30

/-- The second of a layer that has ended, as it is classified; none when it is not evaluated (R136). -/
def PmLayer.classify (x : PmLayer) (sec pct : Nat) (skip : Bool) : Option PmSec :=
  if skip ∨ (x.blocks = 0 ∧ ¬ x.defect) then none
  else
    let ses := x.defect || (decide (x.blocks ≠ 0) && decide (pct * x.blocks ≤ x.errored * 100))
    some ⟨sec, x.defect || decide (1 ≤ x.errored), ses, x.errored⟩

/-- A second of Device Time has ended (R135, R136). -/
def Chip.secondEnd (d : Chip) (e : Nat) : Chip :=
  let m := d.mon e
  let now := d.dt / secTicks
  if now = m.sec then d else
  let l1def := match m.pm[1]? with
    | some x => x.defect
    | none => false
  let pm := m.pm.mapIdx (fun l x =>
    let skip := (decide (l = 2) && l1def) || (decide (l = 3) && !m.pmCfg.testBit 14)
    let pend := match x.classify m.sec (d.sesPct e l) skip with
      | some s => x.pend ++ [s]
      | none => x.pend
    { x with blocks := 0, errored := 0, defect := false, pend := pend })
  let cfg := (d.rd (R.DEF_PM_CFG e)).toNat
  (d.setMon e { m with pm := pm, sec := now, waits := m.waits ++ [m.sec], pmCfg := cfg, pmCtx := cfg % 2 ^ 14 }).pmNote e

/-- The counters of a layer: ES, SES, BBE and UAS. -/
def pmReg (e l i : Nat) : RegId := ⟨.eng, e, 0x320 + 16 * l + 4 * i⟩

/-- The availability of a second at the head of a layer's pending ones, and whether the layer stays in or
enters an unavailable period (R135). -/
def PmLayer.unavailAt (x : PmLayer) : Bool :=
  let ten := x.pend.take 10
  if x.unavail then !(decide (ten.length = 10) && ten.all (fun s => !s.ses))
  else decide (ten.length = 10) && ten.all (·.ses)

/-- One layer's part of a final count. -/
def Chip.countLayer (d : Chip) (e l sec : Nat) : Chip :=
  match (d.mon e).pm[l]? with
  | none => d
  | some x =>
    match x.pend with
    | [] => d
    | s :: rest =>
      if s.sec ≠ sec then d else
      let un := x.unavailAt
      let m := d.mon e
      let d1 := d.setMon e { m with pm := setAt m.pm l { x with pend := rest, unavail := un } }
      let d2 := if un then d1.count (pmReg e l 3)
        else ((d1.count (pmReg e l 0) (b2n s.es)).count (pmReg e l 1) (b2n s.ses)).count (pmReg e l 2) (if s.ses then 0 else s.bbe)
      d2.sbit (R.DEF_PM_STATUS e) l un

/-- Ten seconds after a second ended it is counted, once and finally (R137). -/
def Chip.secondCounted (d : Chip) (e : Nat) : Chip :=
  let m := d.mon e
  match m.waits with
  | [] => d
  | s :: rest =>
    if d.dt < (s + 11) * secTicks then d
    else
      let d1 := d.setMon e { m with waits := rest }
      let d2 := (List.range 4).foldl (fun x l => x.countLayer e l s) d1
      d2.sf (R.DEF_PM_STATUS e) 31 8 s

/-! ## OTU-AIS (R127) -/

/-- One received bit of the PN-11 search: the generator 1 + x⁹ + x¹¹ is seeded from the first eleven bits
of an interval that follows one in which it was not found. -/
def DefMon.pnBit (m : DefMon) (b : Bool) : DefMon :=
  let m1 :=
    if m.pnHit = 0 ∧ m.pnBits < 11 then { m with pn := (m.pn * 2 + b2n b) % 2048, pnBits := m.pnBits + 1 }
    else
      let pred := (m.pn.testBit 8).xor (m.pn.testBit 10)
      { m with pn := (m.pn * 2 + b2n pred) % 2048, pnBits := m.pnBits + 1,
               pnErrs := m.pnErrs + b2n (pred != b || decide (m.pn = 0)) }
  if m1.pnBits = 8192 then
    if m1.pnErrs ≤ 256 then { m1 with pnBits := 0, pnErrs := 0, pnHit := min 3 (m1.pnHit + 1), pnMiss := 0 }
    else { m1 with pnBits := 0, pnErrs := 0, pnHit := 0, pnMiss := min 3 (m1.pnMiss + 1), pn := 0 }
  else m1

/-- The bits of a received word pass the PN-11 search. -/
def DefMon.pnWord (m : DefMon) (w : Nat) : DefMon :=
  (List.range 32).foldl (fun m i => m.pnBit (w.testBit (31 - i))) m

/-- What the searches of several lanes say together: found when every one has found it, not found when any has not. -/
def pnVerdict (l : List DefMon) : Option Bool :=
  if l.all (fun m => decide (m.pnHit = 3)) then some true
  else if l.any (fun m => decide (m.pnMiss = 3)) then some false else none

/-- OTU-AIS is searched on every word of an OTN line, whatever the hunter state.  DESIGN CHOICE: an OTL group, whose
lanes no FAS aligns, is searched lane by lane, and its OTU-AIS is found when every lane's search finds it (log entry
69). -/
def Chip.pnSearch (d : Chip) (e w : Nat) : Chip :=
  if ¬ d.engEn e ∨ ¬ isOtn (d.engFmt e) then d else
  let d1 := d.setMon e ((d.mon e).pnWord w)
  d1.defCrit (.line (d.head e) 5) (pnVerdict ((d1.lineEngs e).map d1.mon))

end Sys2Proof.Machine
end

