-- ==== Sys2Proof/Machine/Hunter.lean ====
section
/-! DEFINITION. The run-ahead hunter (R52-R79): search on every bit, candidates, declarations, the lead,
retraction, the 512-octet hold, the descrambler, OTL groups, and the capture tap on the aligned line. -/

namespace Sys2Proof.Machine

/-! ## Check windows (R53, R54) -/

/-- What a hunter looks for: the width in bits of its check window, how far the window starts behind the
frame start, the frame period in bits, the pattern, the bits compared, how many logical lanes the window's last
octet names (0: none), and how that octet was scrambled. -/
structure Scan where
  width  : Nat
  off    : Nat
  period : Nat
  pat    : Nat
  mask   : Nat
  otl    : Nat
  scr    : Nat
deriving DecidableEq, Repr

/-- `n` copies of an octet. -/
def octets : Nat → Nat → Nat
  | 0, _ => 0
  | n + 1, v => octets n v * 256 + v

/-- The check window of SDH with k octets of A1 and of A2. -/
def sdhScan (f k : Nat) : Scan :=
  { width := 16 * k, off := (3 * stmN f - k) * 8, period := 2430 * stmN f * 8,
    pat := octets k 0xF6 * 256 ^ k + octets k 0x28, mask := 2 ^ (16 * k) - 1, otl := 0, scr := 0 }

/-- The scan of a format: SDH, OTN, OTL3.4 (the MFAS octet names the lane) and OTL4.4 (the sixth octet
is the marker, not compared); log entry 8.  The MFAS octet is the first that the OTN scrambler covers, from the
state 0xFFFF, so on the lane it is inverted unless scrambling is off (R73). -/
def scanOf (f k : Nat) (scrDis : Bool) : Scan :=
  if isSdh f then sdhScan f k
  else if f = 0xB then
    { width := 56, off := 0, period := 130560, pat := 0xF6F6F628282800, mask := 0xFFFFFFFFFFFF00, otl := 4,
      scr := if scrDis then 0 else 0xFF }
  else if f = 0xC then
    { width := 48, off := 0, period := 130560, pat := 0xF6F6F6282800, mask := 0xFFFFFFFFFF00, otl := 20, scr := 0 }
  else
    { width := 48, off := 0, period := 130560, pat := 0xF6F6F6282828, mask := 0xFFFFFFFFFFFF, otl := 0, scr := 0 }

/-- A1A2_K is invalid on the bound lane's format (R54, R79). -/
def Chip.kBad (d : Chip) (e : Nat) : Bool :=
  let k := d.rf (R.HNT_CFG e) 11 8
  let f := d.engFmt e
  isSdh f && (decide (k = 0 ∨ 6 < k) || (decide (f = 1) && decide (3 < k)))

/-- k in force: A1A2_K, or 3 where the lane's format has made it invalid since the enable (R79). -/
def Chip.huntK (d : Chip) (e : Nat) : Nat := if (d.hunter e).k3 || d.kBad e then 3 else d.rf (R.HNT_CFG e) 11 8

/-- The scan of an engine. -/
def Chip.scan (d : Chip) (e : Nat) : Scan := scanOf (d.engFmt e) (d.huntK e) (d.rb (R.HNT_CFG e) 13)

/-- N of R60. -/
def Chip.huntN (d : Chip) (e : Nat) : Nat := d.rf (R.HNT_CFG e) 3 0
/-- M of R60. -/
def Chip.huntM (d : Chip) (e : Nat) : Nat := d.rf (R.HNT_CFG e) 7 4
/-- TENT_EN of R69. -/
def Chip.tentEn (d : Chip) (e : Nat) : Bool := d.rb (R.HNT_CFG e) 12

/-- A stream receives bits; answers where a check window matched, with its last octet. -/
def HStream.feed (c : Scan) : List Bool → HStream → List (Nat × Nat) → HStream × List (Nat × Nat)
  | [], s, m => (s, m)
  | b :: l, s, m =>
    let s1 := { s with nb := s.nb + 1, hist := (s.hist * 2 + b2n b) % 2 ^ 96 }
    let hit := decide (s1.base + c.width ≤ s1.nb) && decide ((s1.hist % 2 ^ c.width) &&& c.mask = c.pat)
    HStream.feed c l s1 (if hit then m ++ [(s1.nb - c.width, s1.hist % 256)] else m)

/-- The bits of a word that belong to stream `i` of `n`, in order of arrival (R74). -/
def streamBits (n i start w : Nat) : List Bool :=
  (List.range 32).filterMap (fun j => if (start + j) % n = i then some (w.testBit (31 - j)) else none)

/-- The logical lane number that a window's last octet names (R75). -/
def Scan.lane (c : Scan) (b : Nat) : Nat := if c.otl = 0 then 0 else (b ^^^ c.scr) % c.otl

/-! ## Streams and the table -/

/-- Stream `i` of a hunter. -/
def Hunter.stream (h : Hunter) (i : Nat) : HStream := h.streams.getD i HStream.init
/-- Replaces a stream. -/
def Hunter.setStream (h : Hunter) (i : Nat) (s : HStream) : Hunter := { h with streams := setAt h.streams i s }
/-- The candidates of a stream, by entry. -/
def Hunter.candsOf (h : Hunter) (i : Nat) : SMap Cand := h.cands.filter (fun c => c.2.stream = i)
/-- Removes an entry. -/
def Hunter.dropCand (h : Hunter) (k : Nat) : Hunter := { h with cands := SMap.erase h.cands k }
/-- Every stream is IN_FRAME. -/
def Hunter.allIn (h : Hunter) : Bool := !h.streams.isEmpty && h.streams.all (fun s => s.st = .inFrame)

/-- What follows on the alignment starts anew: no payload octet has been seen yet. -/
def Hunter.cutOut (h : Hunter) : Hunter := { h with last4 := 0, lastN := 0, lastC := 0 }

/-- Replaces stream `i` of an engine. -/
def Chip.setStream (d : Chip) (e i : Nat) (s : HStream) : Chip := d.setHunter e ((d.hunter e).setStream i s)

/-- The code of HNT_STATUS.STATE: OOF if any stream is, else AMBIGUOUS if any is, IDLE without streams. -/
def Hunter.state (h : Hunter) : Nat :=
  if h.streams.isEmpty then 3
  else if h.streams.any (fun s => s.st = .oof) then 0
  else if h.streams.any (fun s => s.st = .ambiguous) then 1 else 2

/-- HNT_STATUS. -/
def Chip.hntStatus (d : Chip) (e : Nat) : Word :=
  let h := d.hunter e
  let lead := h.streams.findSome? (·.lead)
  let err := (h.streams.map (·.errRun)).foldl max 0
  w32 (h.state + b2n (h.lof && !h.streams.isEmpty) * 4 + b2n lead.isSome * 8 + h.cands.length * 2 ^ 4
    + lead.getD 0 * 2 ^ 11 + (err % 16) * 2 ^ 17)

/-! ## Retraction and the running state behind the hunter (R66, R67, R71) -/

/-- The BIP accumulators start anew: no frame before this one was processed in full. -/
def Chip.cutBips (d : Chip) (e : Nat) : Chip :=
  let o := d.ohp e
  let d1 := d.setOhp e { o with b1 := none, b2 := none, opu1 := none, opu2 := none, mf := none }
  (d1.ownedCtxs e).foldl (fun x t => x.setCtx t { x.ctx t with bip1 := none, bip2 := none, at_ := none, part := none }) d1

/-- What the overhead matchers saw on a candidate's tentative data ends with the candidate (R68, R175). -/
def Chip.tentOff (d : Chip) (h : Nat) : Chip :=
  let d1 := { d with mats := d.mats.filter (fun x => x.1 / 2 ^ 20 = 0 ∨ x.1 % 2 ^ 20 / 4 ≠ h) }
  if d1.mats = d.mats then d else d1.engLevels h d1.dt

/-- The tentative bales of a lead are withdrawn: a retract token in every sub-channel of the line and of its
contexts that is armed or holds tentative bales (R71, R179). -/
def Chip.retract (d : Chip) (e reason : Nat) : Chip :=
  let h := d.head e
  let t := (d.hunter h).lastOut
  (d.tentSubs h).foldl
    (fun (x : Chip) s => x.tapWord h (SWord.mark s (.retract reason t))) (d.tentOff h)

/-- The working copies of the contexts restart where they stood in NORM (R97). -/
def Chip.workStart (d : Chip) (e : Nat) : Chip :=
  (d.ownedCtxs e).foldl (fun x t =>
    let c := x.ctx t
    let go := fun (p : Ptr) => if p.st = .norm then p.enter .acquire else p
    x.setCtx t { c with wptr := go c.ptr, wconc := c.conc.map go, wcm := c.cm, at_ := none, part := none }) d

/-- The working copies pass into the contexts (R97), and persistence counts restart (R81). -/
def Chip.workDone (d : Chip) (e : Nat) : Chip :=
  let o := d.ohp e
  let d1 := d.setOhp e { o with aps := Seen.init, s1 := Seen.init, pt := Seen.init, msi := [] }
  let slots := (List.range 8).map (fun k => e * 8 + k) ++ (d.ownedCtxs e).map (fun t => 4096 + d.rf (R.TRB_PATH t) 11 0)
  let d2 := slots.foldl (fun (x : Chip) k =>
    if SMap.get Trace.init x.traces k = Trace.init then x
    else x.setTrace k (x.trace k).restart) d1
  (d2.ownedCtxs e).foldl (fun x t =>
    let c := x.ctx t
    (x.setCtx t { c with ptr := c.wptr, conc := c.wconc, cm := c.wcm, lab := Seen.init, msi := [], h4Bad := 0, h4Good := 0 }).ctxSync t) d2

/-- A confirm token in these sub-channels of a line (R70). -/
def Chip.confirmIn (d : Chip) (h : Nat) (subs : List Nat) : Chip :=
  subs.foldl
    (fun (x : Chip) s => x.tapWord h (SWord.mark s .confirm)) d

/-- The tentative bales of the declared candidate are confirmed, in every sub-channel of the line and of its
contexts that is armed or holds tentative bales (R70, R179). -/
def Chip.confirmSubs (d : Chip) (h : Nat) : Chip := d.confirmIn h (d.tentSubs h)

/-- The tentative bales that only ended regions hold are confirmed at once: no octet in the hold belongs to them
(R70, R179). -/
def Chip.confirmEnded (d : Chip) (h : Nat) : Chip :=
  let live := d.armedSubs h
  d.confirmIn h ((d.tentSubs h).filter (fun s => !live.contains s))

/-- Alignment is declared and its first confirmed octet is still in the hold, behind tentative octets. -/
def Hunter.confDue (h : Hunter) : Bool :=
  match h.align with
  | some a => (match a.conf with
    | some c => decide (a.start < c) && decide (h.outAt ≤ c)
    | none => false)
  | none => false

/-- A declared alignment ends before its first confirmed octet has left the hold: its tentative bales stand all
the same (R70). -/
def Chip.confirmEarly (d : Chip) (e : Nat) : Chip :=
  if ¬ d.ganged e ∧ (d.hunter e).confDue ∧ d.tentEn e then d.confirmSubs e else d

/-- The hosts of the 1+1 groups without deskew whose selected stream is an engine's line (R154). -/
def Chip.hostsOf (d : Chip) (e : Nat) : List Nat :=
  d.groups.filterMap (fun x =>
    if x.2.st ≠ .disabled ∧ d.apsArch x.1 ≠ 2 ∧ ¬ d.apsHitless x.1 ∧ d.selectedEngine x.1 = some e then some x.1 else none)

/-- The streams of a gang, with their engines. -/
def Chip.gangStreams (d : Chip) (h : Nat) : List (Nat × HStream) :=
  (d.lineEngs h).flatMap (fun e => (d.hunter e).streams.map (fun s => (e, s)))

/-- The stamp of the octet that completed a declaration: the last of the latest of the windows that matched (R173). -/
def Chip.declStamp (d : Chip) (h : Nat) : Nat :=
  let c := d.scan h
  let n := (d.hunter h).streams.length
  octStamp (d.engRate h) (((d.gangStreams h).map (·.2.declT)).foldl max 0) ((c.width / 8 - 1) * n)

/-- The line of a head engine is declared IN_FRAME: the frozen criteria start anew, the working copies
pass, the trigger source is raised.  The tentative bales of a group and of ended regions are confirmed; the
others of a single lane are when the first confirmed octet leaves the hold (R55, R70). -/
def Chip.lineIn (d : Chip) (h : Nat) (tent : Bool) : Chip :=
  let d1 := (((d.defThaw h).workDone h).tentOff h)
  let d2 := if ¬ tent then d1.breakLine h true else if d1.ganged h then d1.confirmSubs h else d1.confirmEnded h
  let d3 := (d2.hostsOf h).foldl (fun (x : Chip) g => x.breakBale g 1 true) d2
  (d3.syncLine h).raiseEng h 3 (d3.declStamp h)

/-- The line of a head engine goes to OOF. -/
def Chip.lineOut (d : Chip) (h : Nat) : Chip := (d.workStart h).syncLine h

/-! ## OTL groups (R75-R78) -/

/-- The lag of a frame start behind a reference, within one period of `period` bits, in octets of a logical lane. -/
def lagOctets (rate period : Nat) (t0 t : Int) : Int :=
  let p := octStamp rate 0 (period / 8)
  let a : Int := ((t - t0 + p / 2) % p) - p / 2
  if p = 0 then 0 else a * rate / 32000000

/-- The rate of one logical lane in kb/s. -/
def laneLogRate (f rate : Nat) : Nat := if f = 0xC then rate / 5 else rate

/-- How many logical lanes an OTL group has (R76). -/
def otlLanes (f : Nat) : Nat := if f = 0xC then 20 else 4

/-- What is known of a logical lane of a gang: its number, and when its frame start last passed: of the declared
alignment, or of the lead where there is none. -/
def Hunter.laneSeen (h : Hunter) (s : HStream) : Option (Nat × Nat) :=
  if s.st = .inFrame then s.laneId.map (fun (l : Nat) => (l, s.declT))
  else s.lead.map (fun (k : Nat) => ((SMap.get Cand.init h.cands k).laneId, (SMap.get Cand.init h.cands k).seen))

/-- The lag of every stream of a gang behind its earliest, by engine.  Logical lane `l` carries the FAS of every
frame whose number is `l` modulo the lane count, so its frame starts are taken back by `l` frames, each of
16,320 octets over all the lanes (R53, R75-R77). -/
def Chip.gangLags (d : Chip) (h : Nat) : List (Nat × Nat) :=
  let f := d.engFmt h
  let rate := laneLogRate f (d.engRate h)
  let at_ : List (Nat × Int) := (d.gangStreams h).map (fun s =>
    match (d.hunter s.1).laneSeen s.2 with
    | some (l, t) => (s.1, (t : Int) - octStamp rate 0 (l * (16320 / otlLanes f)))
    | none => (s.1, 0))
  let t0 := (at_.map (·.2)).headD 0
  let raw := at_.map (fun (x : Nat × Int) => (x.1, lagOctets rate 130560 t0 x.2))
  let low := (raw.map (·.2)).foldl min 0
  raw.map (fun (x : Nat × Int) => (x.1, (x.2 - low).toNat))

/-- The group's lane numbers are distinct and complete. -/
def idsOk (n : Nat) (ids : List (Option Nat)) : Bool :=
  decide (ids.length = n) && (List.range n).all (fun i => ids.contains (some i))

/-- Every logical lane of the group has a leading candidate, with distinct lane numbers and a skew within the limit
(R78). -/
def Chip.gangTent (d : Chip) (h : Nat) : Bool :=
  idsOk (otlLanes (d.engFmt h)) ((d.gangStreams h).map (fun s => ((d.hunter s.1).laneSeen s.2).map (·.1)))
    && decide (((d.gangLags h).map (·.2)).foldl max 0 ≤ 2048)

/-- The group's verdict after a change of any of its streams (R76-R78). -/
def Chip.gang (d : Chip) (e : Nat) : Chip :=
  if ¬ d.ganged e then d else
  let h := d.head e
  let ss := d.gangStreams h
  let n := otlLanes (d.engFmt h)
  let all := decide (ss.length = n) && ss.all (fun s => s.2.st = .inFrame)
  let idok := idsOk n (ss.map (·.2.laneId))
  let lags := d.gangLags h
  let top : Nat := (lags.map (·.2)).foldl max 0
  let skewBad := all && idok && decide (2048 < top)
  let x := d.hunter h
  let gin := all && idok && !skewBad
  let tent := !gin && d.gangTent h
  let d1 := d.setHunter h { x with groupIn := gin, groupErr := all && !gin, groupTent := tent }
  let d2 := if all && idok then
      (d.lineEngs h).foldl (fun (y : Chip) m =>
        y.wr (R.HNT_OTL_SKEW m) (w32 (min 4095 (((lags.filter (·.1 = m)).map (·.2)).foldl max 0)))) d1
      |>.sf (R.HNT_OTL_GROUP h) 27 16 (min 4095 top)
    else d1
  let d3 := d2.sbit (R.HNT_OTL_GROUP h) 0 gin
  let d4 := if skewBad then d3.flag (R.HNT_OTL_GROUP h) 1 else d3
  let d5 := if all && !idok then d4.flag (R.HNT_OTL_GROUP h) 2 else d4
  let d6 := d5.defCrit (.line h 3) (if all && !gin then some true else if gin then some false else none)
  if gin ∧ ¬ x.groupIn then d6.lineIn h (x.groupTent && d.tentEn h)
  else if x.groupIn ∧ ¬ gin then d6.lineOut h
  else if x.groupTent ∧ ¬ tent then (d6.retract h 0x01).cutBips h
  else if tent ∧ ¬ x.groupTent then (d6.cutBips h).breakLine h true
  else d6

/-! ## Declarations (R60) -/

/-- What follows when the hunter's overall state may have changed from `was` (all streams IN_FRAME). -/
def Chip.hMoved (d : Chip) (e : Nat) (was lead : Bool) : Chip :=
  let now := (d.hunter e).allIn
  let d1 := if now ≠ was then d.setHunter e { d.hunter e with since := d.core } else d
  if d.ganged e then d1.gang e
  else if now ∧ ¬ was then d1.lineIn e (lead && d1.tentEn e)
  else if was ∧ ¬ now then d1.lineOut e
  else d1

/-- The leading candidate of a stream leaves the table (R71).  The group that a ganged engine belongs to loses its
tentative output with it (R78). -/
def Chip.leadGone (d : Chip) (e i reason : Nat) : Chip :=
  let h := d.hunter e
  let s := h.stream i
  let d1 := d.setHunter e { (h.setStream i { s with lead := none }) with align := none }
  if ¬ d.ganged e then (d1.retract e reason).cutBips e
  else
    let g := d.head e
    if (d1.hunter g).groupTent then
      (((d1.setHunter g { d1.hunter g with groupTent := false }).retract g reason).cutBips g)
    else d1

/-- A candidate leaves the table for a reason of R167. -/
def Chip.candGone (d : Chip) (e i k reason : Nat) : Chip :=
  let h := d.hunter e
  let s := h.stream i
  let d1 := d.setHunter e ((h.dropCand k).setStream i { s with forced := if s.forced = some k then none else s.forced })
  if s.lead = some k then d1.leadGone e i reason else d1

/-- The frame start nearest to a check window. -/
def Scan.frameStart (c : Scan) (win : Nat) : Nat := if c.off ≤ win then win - c.off else win + c.period - c.off

/-- The first bit that can still leave the hold: the next octet to leave, or where the alignment in force has not
begun yet, the first bit held. -/
def Hunter.front (h : Hunter) : Nat :=
  min h.outAt (match h.held with
    | w :: _ => w.pos
    | [] => h.bits)

/-- The stamp of bit `p` of stream `i` of `n`, from a word stamped `stamp` whose first bit is bit `start` of the
lane (R19, R74). -/
def Chip.bitTime (d : Chip) (e n i start stamp p : Nat) : Nat :=
  let rate := d.engRate e
  if rate = 0 then stamp
  else ((stamp : Int) + (((p * n + i : Nat) : Int) - start) * 4000000 / rate).toNat

/-- Alignment is declared on a candidate whose window has just matched (R60, R61): the other candidates
leave, the first octet of the frame of this window is the first confirmed one.  DESIGN CHOICE: the AMBIGUOUS bit of
HNT_EVENT, which is W1C, stays set; the cases table's 'AMBIGUOUS event cleared' is read of the condition, which
HNT_STATUS.STATE no longer shows (log entry 65).  HNT_ALIGN takes bit phase and octet position from the frame start
(log entry 63). -/
def Chip.declare (d : Chip) (e i k : Nat) : Chip :=
  let c := d.scan e
  let h := d.hunter e
  let s := h.stream i
  let x := SMap.get Cand.init h.cands k
  let win := x.next - c.period
  let fs := c.frameStart win
  let led := decide (s.lead = some k)
  let d1 := if s.lead.isSome ∧ ¬ led then d.leadGone e i 0x08 else d
  let h1 := d1.hunter e
  let al := if c.otl = 0 then
      (if led then h1.align.map (fun a => { a with conf := some fs })
       else some ⟨fs, max fs h1.front, some fs⟩)
    else none
  let al := match al with
    | some a => some a
    | none => if c.otl = 0 then some ⟨fs, max fs h1.front, some fs⟩ else none
  let s1 := { h1.stream i with st := .inFrame, decl := some x.next, declT := x.seen, errRun := 0,
                               laneId := some x.laneId, lead := none, forced := none }
  let h2 := { (h1.setStream i s1) with cands := h1.cands.filter (fun y => y.2.stream ≠ i), align := al,
                                       outAt := if led then h1.outAt else
                                         match al with | some a => a.start | none => h1.outAt }
  let h2 := if led then h2 else h2.cutOut
  let d2 := (d1.setHunter e h2).wr (R.HNT_ALIGN e) (w32 (fs % 8 + fs % 32 / 8 * 8))
  let d3 := if c.otl = 0 then d2 else d2.sf (R.HNT_OTL_LANES e) (5 * i + 4) (5 * i) x.laneId
  let d4 := (d3.setPair (R.HNT_DECL_TIME_LO e) (R.HNT_DECL_TIME_HI e) d3.dt).flag (R.HNT_EVENT e) 0
  let d5 := d4.ev e 0x0200 (d4.rd (R.HNT_ALIGN e)).toNat
  (if led then d5 else d5.cutBips e).hMoved e h.allIn led

/-- A stream leaves IN_FRAME for OOF (R60).  A search episode begins, unless a background search has begun it
already (R58). -/
def Chip.toOof (d0 : Chip) (e i : Nat) : Chip :=
  let d := d0.confirmEarly e
  let h := d.hunter e
  let s := h.stream i
  let d1 := d.setHunter e { (h.setStream i { s with st := .oof, decl := none, errRun := 0, lead := none, forced := none, laneId := none }) with
    align := none, logged := if s.errRun = 0 then false else h.logged }
  let d2 := if (d1.scan e).otl = 0 then d1 else d1.sf (R.HNT_OTL_LANES e) (5 * i + 4) (5 * i) 0x1F
  (((d2.count (R.HNT_OOF_CNT e)).flag (R.HNT_EVENT e) 1).ev e 0x0201 0).hMoved e h.allIn false

/-! ## One word (R59) -/

/-- Step 1: the windows that ended in this word, of the candidates of stream `i`; answers the entries that
confirmed.  `stampOf` gives the stamp of a bit of the stream. -/
def Chip.checkCands (d : Chip) (e i : Nat) (stampOf : Nat → Nat) (c : Scan) (m : List (Nat × Nat)) : Chip × List Nat :=
  let s := (d.hunter e).stream i
  let due := ((d.hunter e).candsOf i).filter (fun x => x.2.next + c.width ≤ s.nb)
  let cap := if s.st = .inFrame then d.huntN e else 15
  due.foldl (fun (a : Chip × List Nat) x =>
    let hit := m.any (fun y => y.1 = x.2.next ∧ c.lane y.2 = x.2.laneId)
    let h := a.1.hunter e
    if hit then
      (a.1.setHunter e { h with cands := SMap.insert x.1 { x.2 with next := x.2.next + c.period, count := min (max cap x.2.count) (x.2.count + 1), seen := stampOf x.2.next } h.cands },
        a.2 ++ [x.1])
    else ((a.1.count (R.HNT_DROP_CNT e)).candGone e i x.1 0x01, a.2)) (d, [])

/-- The declared alignment's window has ended: errored or not (R60). -/
def Chip.checkDecl (d : Chip) (e i : Nat) (stampOf : Nat → Nat) (c : Scan) (m : List (Nat × Nat)) : Chip :=
  let h := d.hunter e
  let s := h.stream i
  match s.st, s.decl with
  | .inFrame, some p =>
    if s.nb < p + c.width then d
    else if m.any (fun y => y.1 = p ∧ (c.otl = 0 ∨ s.laneId = some (c.lane y.2))) then
      d.setHunter e { (h.setStream i { s with errRun := 0, decl := some (p + c.period), declT := stampOf p }) with
        cands := h.cands.filter (fun y => y.2.stream ≠ i) }
    else if s.errRun + 1 < d.huntM e then
      (d.setHunter e { (h.setStream i { s with errRun := s.errRun + 1, decl := some (p + c.period), declT := stampOf p }) with
        logged := if s.errRun = 0 then false else h.logged }).count (R.HNT_ERRFR_CNT e)
    else d.toOof e i
  | _, _ => d

/-- A competitor of entry `k` (R60). -/
def Chip.competed (d : Chip) (e i k : Nat) : Bool :=
  ((d.hunter e).candsOf i).any (fun x => x.1 ≠ k ∧ max (d.huntN e - 1) 1 ≤ x.2.count)

/-- Step 2: the declaration of alignment or of AMBIGUOUS.  Answers whether alignment was declared.  DESIGN CHOICE:
a survivor whose window matches in the very word in which its last competitor misses is declared in that word (log
entry 66). -/
def Chip.decide2 (d : Chip) (e i : Nat) (conf : List Nat) : Chip × Bool :=
  let h := d.hunter e
  let s := h.stream i
  if s.st = .inFrame then (d, false) else
  match s.forced with
  | some k => if conf.contains k then (d.declare e i k, true) else (d, false)
  | none =>
    let high := (h.candsOf i).filter (fun x => d.huntN e ≤ x.2.count)
    match high.filter (fun x => conf.contains x.1) with
    | [] => (d, false)
    | x :: _ =>
      if high.length = 1 ∧ ¬ d.competed e i x.1 then (d.declare e i x.1, true)
      else if s.st = .oof then
        (((d.setStream e i { s with st := .ambiguous }).flag (R.HNT_EVENT e) 4).ev e 0x0204 0, false)
      else (d, false)

/-- The lowest free entry of the table. -/
def Hunter.free (h : Hunter) : Nat := (List.range 65).findIdx (fun k => !(h.cands.any (fun x => x.1 = k)))

/-- The candidate that an overflow evicts: the earliest first sighting that did not confirm and was not
sighted in this word (R58).  DESIGN CHOICE: of several first sighted in one word, the one in the lowest entry (log
entry 64). -/
def Hunter.victim (h : Hunter) (conf : List Nat) (stamp : Nat) : Option (Nat × Cand) :=
  (h.cands.filter (fun x => !conf.contains x.1 && decide (x.2.time < stamp))).foldl
    (fun a x => match a with
      | none => some x
      | some y => if x.2.time < y.2.time then some x else some y) none

/-- The overflow of a search episode is flagged, counted, and logged once (R58). -/
def Chip.overflow (d : Chip) (e : Nat) : Chip :=
  let h := d.hunter e
  let d1 := (d.count (R.HNT_EVICT_CNT e)).flag (R.HNT_EVENT e) 5
  if h.logged then d1 else (d1.setHunter e { h with logged := true }).ev e 0x0205 0

/-- Step 3: one new sighting in stream `i`. -/
def Chip.sight (d : Chip) (e i stamp seen : Nat) (c : Scan) (conf : List Nat) (y : Nat × Nat) : Chip :=
  let cand : Cand := ⟨i, y.1 + c.period, 0, stamp, y.1, c.lane y.2, seen⟩
  let put := fun (x : Chip) => x.setHunter e { x.hunter e with cands := SMap.insert (x.hunter e).free cand (x.hunter e).cands }
  if (d.hunter e).cands.length < 64 then put d
  else match (d.hunter e).victim conf stamp with
    | none => d.overflow e
    | some v => put ((d.overflow e).candGone e v.2.stream v.1 0x02)

/-- The candidate that takes a free lead (R65). -/
def bestCand (l : SMap Cand) : Option (Nat × Cand) :=
  l.foldl (fun a x => match a with
    | none => some x
    | some y =>
      if y.2.count < x.2.count ∨ (x.2.count = y.2.count ∧ (x.2.time < y.2.time ∨ (x.2.time = y.2.time ∧ x.2.first < y.2.first)))
      then some x else some y) none

/-- A lead is chosen whenever there is none and a candidate lives; framed output starts at the frame of the
sighting when the lead is as old as this word, else at its next frame start (R65, R66). -/
def Chip.chooseLead (d : Chip) (e i stamp : Nat) (c : Scan) : Chip :=
  let h := d.hunter e
  let s := h.stream i
  if s.st = .inFrame ∨ s.lead.isSome then d else
  match bestCand (h.candsOf i) with
  | none => d
  | some x =>
    let fs := if x.2.time = stamp ∧ x.2.count = 0 then c.frameStart x.2.first else c.frameStart x.2.next
    let start := if fs < h.front then fs + c.period else fs
    let h1 := (h.setStream i { s with lead := some x.1 }).cutOut
    if c.otl ≠ 0 then d.setHunter e h1
    else ((d.setHunter e { h1 with align := some ⟨start, start, none⟩, outAt := start }).cutBips e).breakLine e true

/-- A word's matches in one stream: where its check windows matched, and those of them that no candidate expected. -/
structure WordHit where
  stream : Nat
  hits   : List (Nat × Nat)
  new    : List (Nat × Nat)
deriving DecidableEq, Repr

/-- Step 1 of R59 for stream `i` of `n`: the word's bits are compared, and the declared alignment and the
candidates are checked.  Answers the matches, and the entries that confirmed with those before them. -/
def Chip.streamCheck (e stamp start w n : Nat) (a : Chip × List WordHit × List Nat) (i : Nat) :
    Chip × List WordHit × List Nat :=
  let d := a.1
  let c := d.scan e
  let h := d.hunter e
  let fed := HStream.feed c (streamBits n i start w) (h.stream i) []
  let at_ := fun (p : Nat) => d.bitTime e n i start stamp p
  let new := fed.2.filter (fun (y : Nat × Nat) => !((h.candsOf i).any (fun x => x.2.next = y.1)))
  let d1 := (d.setStream e i fed.1).checkDecl e i at_ c fed.2
  let x := d1.checkCands e i at_ c fed.2
  (x.1, a.2.1 ++ [⟨i, fed.2, new⟩], a.2.2 ++ x.2)

/-- Step 2 of R59 for one stream; answers the streams in which alignment was declared. -/
def Chip.streamDecide (e : Nat) (conf : List Nat) (a : Chip × List Nat) (i : Nat) : Chip × List Nat :=
  let x := a.1.decide2 e i conf
  (x.1, if x.2 then i :: a.2 else a.2)

/-- Step 3 of R59 for one stream: its new sightings, where it is searching. -/
def Chip.streamSight (e stamp start n : Nat) (conf decl : List Nat) (d : Chip) (m : WordHit) : Chip :=
  let s := (d.hunter e).stream m.stream
  if decl.contains m.stream ∨ ¬ (s.st ≠ .inFrame ∨ s.errRun ≠ 0) then d
  else m.new.foldl (fun (x : Chip) y =>
    x.sight e m.stream stamp (x.bitTime e n m.stream start stamp y.1) (x.scan e) conf y) d

/-- A word runs through the three steps of R59, each of them for all the streams of the lane, and then the leads
are chosen (R65).  DESIGN CHOICE: a background candidate held at count N whose window matches in the very word of
the OOF declaration brings IN_FRAME in that word (R62, log entry 67). -/
def Chip.huntWord (d : Chip) (e stamp start w n : Nat) : Chip :=
  let is := List.range n
  let a := is.foldl (Chip.streamCheck e stamp start w n) (d, [], [])
  let b := is.foldl (Chip.streamDecide e a.2.2) (a.1, [])
  let d3 := a.2.1.foldl (Chip.streamSight e stamp start n a.2.2 b.2) b.1
  is.foldl (fun (x : Chip) i => x.chooseLead e i stamp (x.scan e)) d3

/-! ## The hold, the descrambler and the tap (R55, R73, R168) -/

/-- One octet of the SDH scrambler x⁷ + x⁶ + 1 and its next state. -/
def scr7 : Nat → Nat → Nat → Nat × Nat
  | 0, s, o => (o, s)
  | n + 1, s, o => scr7 n ((s * 2 + b2n ((s.testBit 6).xor (s.testBit 5))) % 128) (o * 2 + b2n (s.testBit 6))

/-- One octet of the OTN scrambler x¹⁶ + x¹² + x³ + x + 1 and its next state. -/
def scr16 : Nat → Nat → Nat → Nat × Nat
  | 0, s, o => (o, s)
  | n + 1, s, o =>
    scr16 n ((s * 2 + b2n ((((s.testBit 15).xor (s.testBit 11)).xor (s.testBit 2)).xor (s.testBit 0))) % 65536)
      (o * 2 + b2n (s.testBit 15))

/-- The scrambling of octet `i` of a frame: the octet to XOR and the next state. -/
def scrOctet (f i s : Nat) : Nat × Nat :=
  if isSdh f then
    if i < 9 * stmN f then (0, 127) else scr7 8 s 0
  else if i < 6 then (0, 65535) else scr16 8 s 0

/-- The octets of `n` of which the newest `c` are confirmed: a mask over the last four covers a tentative one. -/
def maskTent (mask c : Nat) : Bool := (List.range 4).any (fun j => decide (mask / 256 ^ j % 256 ≠ 0) && decide (c ≤ j))

/-- The octet at which a pattern matcher fires (R171, R175).  A match that rests on any tentative octet is itself
tentative (R68, R72). -/
def Chip.patMatch (d : Chip) (e f i o stamp : Nat) (tent : Bool) : Chip :=
  let h := d.hunter e
  let regs := (List.range 2).map (fun k =>
    ((d.rd (R.mat_CAP_MATCH_VAL (e * 4 + 2 + k))).toNat, (d.rd (R.mat_CAP_MATCH_MASK (e * 4 + 2 + k))).toNat))
  let pm := if i = 0 ∨ h.pmat.isEmpty then regs else h.pmat
  if ¬ isPay f i then d.setHunter e { h with pmat := pm } else
  let l4 := (h.last4 * 256 + o) % 2 ^ 32
  let n := min 4 (h.lastN + 1)
  let c := if tent then 0 else min 4 (h.lastC + 1)
  let d1 := d.setHunter e { h with pmat := pm, last4 := l4, lastN := n, lastC := c }
  (List.range 2).foldl (fun x k =>
    let vm := pm.getD k (0, 0)
    if n = 4 ∧ vm.2 ≠ 0 ∧ (l4 ^^^ vm.1) &&& vm.2 = 0 then x.raiseEng e (17 + k) stamp (maskTent vm.2 c) else x) d1

/-- One octet of the aligned line reaches the capture tap in the modes FRAMES, PAYLOAD and OVERHEAD. -/
def Chip.tapOctet (d : Chip) (e sub f i raw desc stamp : Nat) (tent poison : Bool) : Chip :=
  match d.armedRgn e sub with
  | none => d
  | some r =>
    let mode := d.rgnMode r
    let take := match mode with
      | 2 => true
      | 3 => isPay f i
      | 4 => d.ohCap e f i
      | _ => false
    if take then
      let o := if d.rb (R.CAP_CFG e) 20 then desc else raw
      let pos := if mode = 4 then d.ohIndex e f i else i
      d.tapOne e sub (BitVec.ofNat 8 o) stamp pos tent poison
    else d

/-- A confirmed octet of a line is the selected stream of the groups that select it, with its arrival stamp (R154). -/
def Chip.tapSelected (d : Chip) (e f i raw desc stamp : Nat) (poison : Bool) : Chip :=
  (d.hostsOf e).foldl (fun (x : Chip) h => x.tapOctet h 1 f i raw desc stamp false poison) d

/-- The stamp of a bit of a held word (R165). -/
def bitStamp (rate t k : Nat) : Nat := if rate = 0 then t else t + roundDiv (k * 4000000) rate

/-- One octet leaves the hold on the alignment in force. -/
def Chip.outOctet (d : Chip) (e q : Nat) (a : Align) (p w : HWord) : Chip :=
  let f := d.engFmt e
  let i := (q - a.origin) / 8 % frameOctets f
  let two := p.bits * 2 ^ 32 + w.bits
  let raw := two / 2 ^ (w.pos + 32 - q - 8) % 256
  let stamp := if q < w.pos then bitStamp (d.engRate e) p.stamp (q + 32 - w.pos) else bitStamp (d.engRate e) w.stamp (q - w.pos)
  let h := d.hunter e
  let sc := if d.rb (R.HNT_CFG e) 13 then (0, h.scr) else scrOctet f i h.scr
  let desc := raw ^^^ sc.1
  let tent : Bool := match a.conf with
    | some c => decide (q < c)
    | none => true
  let d0 := if h.confDue ∧ a.conf = some q ∧ d.tentEn e then d.confirmSubs e else d
  let d1 := d0.setHunter e { h with scr := sc.2, outAt := q + 8, lastOut := stamp }
  if tent ∧ ¬ d.tentEn e then d1 else
  let poison := w.poison || (decide (q < w.pos) && p.poison)
  let d2 := (d1.patMatch e f i desc stamp tent).tapOctet e 0 f i raw desc stamp tent poison
  if tent then d2 else d2.tapSelected e f i raw desc stamp poison

/-- A word leaves the hold: the octets that end in it, in order. -/
def Chip.outWord (d : Chip) (e : Nat) (w : HWord) : Chip :=
  let h := d.hunter e
  let p := h.prev.getD ⟨0, w.stamp, 0, false⟩
  let d1 := (List.range 5).foldl (fun (x : Chip) _ =>
    let y := x.hunter e
    match y.align with
    | some a =>
      if a.start ≤ y.outAt ∧ y.outAt + 8 ≤ w.pos + 32 ∧ w.pos ≤ y.outAt + 32 then x.outOctet e y.outAt a p w else x
    | none => x) d
  let y := d1.hunter e
  -- without an alignment nothing of this word can still leave
  d1.setHunter e { y with prev := some w, outAt := if y.align.isSome then y.outAt else w.pos + 32 }

/-- Every word that has been held for 512 octets of its stream leaves (R55). -/
def Chip.drainHold (d : Chip) (e : Nat) : Nat → Chip
  | 0 => d
  | n + 1 =>
    let h := d.hunter e
    let per := 4096 * h.streams.length
    match h.held with
    | [] => d
    | w :: l =>
      if w.pos + 32 + per ≤ h.bits then ((d.setHunter e { h with held := l }).outWord e w).drainHold e n else d

/-- The RAW tap: every bit as the lane delivers it (R168). -/
def Chip.tapRaw (d : Chip) (e w stamp : Nat) (poison : Bool) : Chip :=
  match d.armedRgn e 0 with
  | none => d
  | some r =>
    if d.rgnMode r = 1 then
      d.tapWord e (SWord.data 0 (beBytes 4 w) ((List.range 4).map (fun k => (octStamp (d.engRate e) stamp k, 0x3FFFF))) false poison)
    else d

/-! ## Marks, REHUNT, FORCE, SNAP -/

/-- The table of a stream is cleared and its search begins anew: a mark or REHUNT (R60). -/
def Chip.restart (d : Chip) (e i reason : Nat) : Chip :=
  let s := (d.hunter e).stream i
  let d1 := if s.lead.isSome then d.leadGone e i reason else d
  let h := d1.hunter e
  let d2 := d1.setHunter e { h with cands := h.cands.filter (fun y => y.2.stream ≠ i), logged := false }
  let d3 := if s.st = .inFrame then d2.toOof e i else
    d2.setStream e i { (d2.hunter e).stream i with st := .oof, errRun := 0, lead := none, forced := none }
  if reason = 3 then
    let t := (d3.hunter e).stream i
    d3.setStream e i { t with base := t.nb, hist := 0 }
  else d3

/-- A lock-loss mark or resynchronisation mark reaches an engine (R43, R60, R417), or REHUNT. -/
def Chip.restartAll (d : Chip) (e reason : Nat) : Chip :=
  let d1 := (List.range (d.hunter e).streams.length).foldl (fun x i => x.restart e i reason) d
  if d1.ganged e then d1.gang e else d1

/-- The mark of a lane reaches an engine bound to it, without waiting for a word; the next octets begin a
new bale with RESYNC (R43, R161). -/
def Chip.markEngine (d : Chip) (e : Nat) : Chip :=
  if d.engEn e then (d.restartAll e 0x03).breakLine e true true else d

/-- REHUNT (R60, R79): in IDLE nothing changes. -/
def Chip.rehunt (d : Chip) (e : Nat) : Chip := d.restartAll e 0x04

/-- FORCE on a table entry (R60): answers whether it was accepted. -/
def Chip.force (d : Chip) (e k : Nat) : Bool × Chip :=
  let h := d.hunter e
  match h.cands.find? (fun x => x.1 = k) with
  | none => (false, d.flag (R.HNT_EVENT e) 7)
  | some x =>
    let i := x.2.stream
    let s := h.stream i
    if s.st = .inFrame then (false, d.flag (R.HNT_EVENT e) 7)
    else
      let d1 := if s.lead.isSome ∧ s.lead ≠ some k then d.leadGone e i 0x05 else d
      let h1 := d1.hunter e
      let d2 := d1.setHunter e { (h1.setStream i { h1.stream i with forced := some k }) with
        cands := h1.cands.filter (fun y => y.2.stream ≠ i ∨ y.1 = k) }
      let d3 := d2.chooseLead e i (x.2.time + 1) (d2.scan e)
      (true, if d3.ganged e then d3.gang e else d3)

/-- HNT_CANDn of an entry.  DESIGN CHOICE: BIT_PHASE and OCTET_POS name the frame start, WORD_POS the check window;
on STM-1, whose period is 607.5 words, WORD_POS is taken modulo 607 (log entry 63). -/
def Chip.candWord (d : Chip) (e k : Nat) : Word :=
  let h := d.hunter e
  match h.cands.find? (fun x => x.1 = k) with
  | none => 0
  | some x =>
    let c := d.scan e
    let lead := (h.stream x.2.stream).lead = some k
    let fs := c.frameStart x.2.next
    w32 (1 + b2n lead * 2 + x.2.count * 4 + fs % 8 * 2 ^ 6 + fs % 32 / 8 * 2 ^ 9 + x.2.stream * 2 ^ 11
      + (x.2.next / 32 % (c.period / 32) % 2 ^ 16) * 2 ^ 16)

/-- SNAP copies the live table (R79). -/
def Chip.snap (d : Chip) (e : Nat) : Chip :=
  (List.range 64).foldl (fun x k => x.wr ⟨.eng, e, 0x100 + 4 * k⟩ (d.candWord e k)) d

/-! ## LOF (R63) -/

/-- OOF has lasted the LOF set time. -/
def Chip.lofSet (d : Chip) (e : Nat) : Chip :=
  let h := d.hunter e
  if h.streams.isEmpty ∨ h.allIn ∨ h.lof ∨ d.core < h.since + d.rf (R.HNT_LOF e) 6 0 * 250000 then d
  else (((d.setHunter e { h with lof := true }).flag (R.HNT_EVENT e) 2).ev e 0x0202 0).syncLine e

/-- IN_FRAME has lasted the LOF clear time. -/
def Chip.lofClr (d : Chip) (e : Nat) : Chip :=
  let h := d.hunter e
  if h.streams.isEmpty ∨ ¬ h.allIn ∨ ¬ h.lof ∨ d.core < h.since + d.rf (R.HNT_LOF e) 14 8 * 250000 then d
  else (((d.setHunter e { h with lof := false }).flag (R.HNT_EVENT e) 3).ev e 0x0203 0).syncLine e

/-! ## Enabling and disabling (R60, R79, R313) -/

/-- The enable check of R79. -/
def Chip.huntCfgOk (d : Chip) (e : Nat) : Bool :=
  let w := d.rd (R.HNT_CFG e)
  decide (fld w 3 0 ≠ 0) && decide (fld w 7 4 ≠ 0) && !d.kBad e

/-- The hunter of an enabled engine begins its search in OOF; on a raw lane it stays IDLE. -/
def Chip.huntStart (d : Chip) (e : Nat) : Chip :=
  let f := d.engFmt e
  if ¬ isFramed f then d.setHunter e Hunter.init
  else
    let n := if f = 0xC then 5 else 1
    ((d.setHunter e { Hunter.init with streams := List.replicate n HStream.init, since := d.core }).wr
      (R.HNT_OTL_LANES e) 0x1FFFFFF).syncLine e

/-- The hunter goes to IDLE: retraction, LOF clears with its event, table cleared (R60, R63, R71). -/
def Chip.huntStop (d0 : Chip) (e : Nat) : Chip :=
  let d := d0.confirmEarly e
  let h := d.hunter e
  let d1 := (List.range h.streams.length).foldl (fun x i =>
    if ((x.hunter e).stream i).lead.isSome then x.leadGone e i 0x06 else x) d
  let d3 := if h.lof then ((d1.flag (R.HNT_EVENT e) 3).ev e 0x0203 0) else d1
  let d4 := d3.setHunter e Hunter.init
  if d4.ganged e then d4.gang e else d4

/-- The FORMAT of the lane that an enabled engine is bound to has changed: the hunter searches as many streams as
the new format has, none on a raw lane, and uses k = 3 until the engine is next enabled where A1A2_K is invalid on
it (R74, R79).  DEDUCED: R60 names no such row, but R79 has the hunter go on (log entry 68). -/
def Chip.huntFormat (d : Chip) (e : Nat) : Chip :=
  if ¬ d.engEn e then d else
  let f := d.engFmt e
  let n := if isFramed f then (if f = 0xC then 5 else 1) else 0
  let k3 := (d.hunter e).k3 || d.kBad e
  let d1 := if (d.hunter e).streams.length = n then d else (d.huntStop e).huntStart e
  d1.setHunter e { d1.hunter e with k3 := k3 }

/-! ## A word from the lane (R46) -/

/-- Words flow to an engine: it is enabled, its lane is enabled and its clock recovery locked (R43, R417). -/
def Chip.flows (d : Chip) (e : Nat) : Bool :=
  d.engEn e && (match d.boundLane e with
    | some n => d.laneEn n && (d.lane n).lock
    | none => false)

/-- A stamped word reaches a bound engine. -/
def Chip.engWord (d : Chip) (e w stamp : Nat) (poison : Bool) : Chip :=
  if ¬ d.flows e then d else
  let d1 := (d.tapRaw e w stamp poison).pnSearch e w
  let h := d1.hunter e
  if h.streams.isEmpty then d1 else
  let n := h.streams.length
  let d2 := d1.setHunter e { h with bits := h.bits + 32, held := h.held ++ [⟨w, stamp, h.bits, poison⟩] }
  let d3 := d2.huntWord e stamp h.bits w n
  let d4 := if d3.ganged e then d3.gang e else d3
  d4.drainHold e (h.held.length + 1)

end Sys2Proof.Machine
end

