-- ==== Sys2Proof/Machine/Lanes.lean ====
section
/-! DEFINITION. Line lanes, quads and module buses (R31-R51, R417): calibration, the signal detector, LOS,
clock recovery, transmit-clock holdover, lane enable and disable, module signals and transactions. -/

namespace Sys2Proof.Machine

/-! ## Views of a lane's registers -/

/-- A quad's window index: its first lane. -/
def quadIdx (n : Nat) : Nat := n / 4 * 4

/-- A quad runs in OTL mode. -/
def Chip.otlQuad (d : Chip) (n : Nat) : Bool := d.rb (R.LN_QUAD_MODE (quadIdx n)) 0

/-- A lane's transmitter sends electrical idle (R44; R264 for host lanes, R355 for tandem lanes). -/
def Chip.txIdle (d : Chip) (n : Nat) : Bool :=
  if 132 ≤ n then !d.tdm.ready else if 128 ≤ n then !d.laneEn n || !d.pav.booted else
  let w := d.rd (R.LN_TX n)
  let s := fld w 23 16
  !d.laneEn n || d.rb (R.LN_CTRL n) 1 || (d.lane n).calBusy || !bit w 24 || !d.engEn s || !d.engReady s

/-! ## The transmitter (R34-R36, R44, R45) -/

/-- LOOP of a lane (R45). -/
def Chip.laneLoop (d : Chip) (n : Nat) : Nat := d.rf (R.LN_CFG n) 5 4

/-- LN_TX_PPM, in 0.01 ppm (R36). -/
def Chip.lnPpm (d : Chip) (n : Nat) : Int := sgn 16 (d.rf (R.LN_TX_PPM n) 15 0)

/-- The lane whose recovered clock a lane transmits with, if it does: a far-end loopback uses the lane's own
whatever CLKSRC holds (R34, R45), and in OTL mode the source is the one of the quad's first lane (R33). -/
def Chip.clkLane (d : Chip) (m : Nat) : Option Nat :=
  if d.laneLoop m = 2 then some m else
  let w := d.rd (R.LN_TX (if d.otlQuad m then quadIdx m else m))
  match fld w 1 0 with
  | 1 => some (if d.otlQuad m then quadIdx m else m)
  | 2 => some (fld w 14 8)
  | _ => none

/-- The transmit frequency at core cycle `c` on its way back from the held frequency `h` to the source `f`, at
1 ppm per ms from core cycle `t` (R35).  DESIGN CHOICE: the rule says no more than that rate; the model slews at
exactly it (log entry 62). -/
def slewAt (h f : Int) (t c : Nat) : Int :=
  let m : Int := ((c - t) * 100 / 1000000 : Nat)
  if h ≤ f then min f (h + m) else max f (h - m)

/-- A lane's transmit frequency as an offset from the nominal rate, in 0.01 ppm (R34-R36): the internal clock and
the servo-steered clock with LN_TX_PPM, the recovered clock without it, the held frequency while the source has
failed, and the slew back to it.  A near-end loopback recovers the lane's own transmit clock; where such loops
close on themselves with no source, the frequency is a free value. -/
def Chip.txFreqN (d : Chip) : Nat → Nat → Int
  | 0, m => sgn 16 (Sys2Proof.Config.freeValue 16 m).toNat
  | k + 1, m =>
    let y := d.lane m
    match d.clkLane m with
    | some n =>
      let src := if d.laneLoop n = 1 then d.txFreqN k n else (d.lane n).freq
      (match y.txHold, y.slewFrom with
        | some h, none => h
        | some h, some t => slewAt h src t d.core
        | none, _ => src)
    | none =>
      let own := d.lnPpm m
      if d.rf (R.LN_TX (if d.otlQuad m then quadIdx m else m)) 1 0 = 3 then own + d.tim.freq / 10 else own

/-- A lane's transmit frequency. -/
def Chip.txFreq (d : Chip) (m : Nat) : Int := d.txFreqN 128 m

/-- Transitions at a lane's receiver: its input's, or in a near-end loopback those of its own transmitter (R45). -/
def Chip.rxTrans (d : Chip) (n : Nat) : Bool := if d.laneLoop n = 1 then !d.txIdle n else (d.lane n).trans

/-- The frequency offset at a lane's receiver, in 0.01 ppm. -/
def Chip.rxFreq (d : Chip) (n : Nat) : Int := if d.laneLoop n = 1 then d.txFreq n else (d.lane n).freq

/-- Octets leave a lane's transmitter, which sends electrical idle instead where R44 says so: TX_INV inverts them,
and a near-end loopback carries them to the receiver as well (R44, R45, R51). -/
def Chip.laneSend (d : Chip) (n : Nat) (l : List Byte) : Chip :=
  if d.txIdle n || l.isEmpty then d else
  let o := if d.rb (R.LN_CFG n) 7 then l.map (fun (b : Byte) => b ^^^ 0xFF) else l
  let d1 := if d.laneLoop n = 1 then d.setLane n { d.lane n with loop := (d.lane n).loop ++ o } else d
  d1.emit (.lane n (d.txFreq n) o)

/-- The lanes that take their octets from an engine, but for those in far-end loopback, whose engine's output is
discarded (R44, R45). -/
def Chip.txLanes (d : Chip) (e : Nat) : List Nat :=
  (List.range 128).filter (fun n =>
    decide (fld (d.rd (R.LN_TX n)) 24 24 = 1 ∧ fld (d.rd (R.LN_TX n)) 23 16 = e) && decide (d.laneLoop n ≠ 2))

/-- An engine's octets go to every lane that it is the transmit source of. -/
def Chip.engSend (d : Chip) (e : Nat) (l : List Byte) : Chip := (d.txLanes e).foldl (fun (x : Chip) n => x.laneSend n l) d

/-! ## Views -/

/-- The measured offset lies within ±100 ppm, in 0.01 ppm. -/
def freqOk (f : Int) : Bool := decide (-10000 ≤ f) && decide (f ≤ 10000)

/-- LN_STATUS (R417 while disabled). -/
def Chip.lnStatus (d : Chip) (n : Nat) : Word :=
  let l := d.lane n
  let en := d.laneEn n
  w32 (b2n l.ready + b2n l.calBusy * 2 + b2n (en && l.lock) * 4 + b2n (en && l.los) * 8 + b2n (en && l.present) * 16
    + b2n l.txHold.isSome * 32 + b2n (d.txIdle n) * 64 + b2n (en && d.rxTrans n && !freqOk (d.rxFreq n)) * 128)

/-- LN_FREQ_MEAS. -/
def Chip.lnFreq (d : Chip) (n : Nat) : Word :=
  if d.laneEn n && d.rxTrans n then w32 (unsgn 16 (clampI (-32767) 32767 (d.rxFreq n))) else w32 0x8000

/-- The lane that an engine is bound to delivers words: SWB_RX_STATUS.LANE_LIVE. -/
def Chip.laneLive (d : Chip) (e : Nat) : Bool :=
  match d.boundLane e with
  | some n => d.laneEn n && (d.lane n).lock
  | none => false

/-! ## Configuration checks (R31-R33, R45) -/



/-- The configuration a lane holds is valid (R32, R45, LN_TX). -/
def Chip.laneCfgOk (d : Chip) (n : Nat) : Bool :=
  let f := d.laneFmt n
  let raw := d.rf (R.LN_RATE n) 24 0
  let mates := ((List.range 4).map (fun k => quadIdx n + k)).filter (fun m => m ≠ n ∧ d.laneEn m = true)
  (isFramed f || (decide (f = 0xF) && decide (1000000 ≤ raw) && decide (raw ≤ 28100000)))
    && decide (d.rf (R.LN_CFG n) 5 4 ≠ 3) && decide (d.rf (R.LN_TX n) 23 16 ≤ 135)
    && (if d.otlQuad n then isOtl f && mates.all (fun m => d.laneFmt m = f) else !isOtl f)

/-! ## The raw condition and its timers (R40, R42) -/

/-- The raw condition follows transitions, lock and frequency; a change restarts the timers, and a loss
counts a flap.  While a signal is present its frequency is measured, and the last measurement is kept (R35). -/
def Chip.rawSignal (d : Chip) (n : Nat) : Chip :=
  let l := d.lane n
  let now := d.laneEn n && d.rxTrans n && l.lock && freqOk (d.rxFreq n)
  let l1 := if now then { l with meas := d.rxFreq n } else l
  if now = l.present then d.setLane n l1
  else
    let d1 := d.setLane n { l1 with present := now, since := d.core }
    if now then d1 else d1.count (R.LN_FLAP_CNT n)

/-- The enabled lanes that transmit with a lane's recovered clock. -/
def Chip.clkUsers (d : Chip) (n : Nat) : List Nat :=
  (List.range 128).filter (fun m => d.laneEn m && decide (d.clkLane m = some n))

/-- The line status of every engine bound to a lane follows the lane. -/
def Chip.syncLane (d : Chip) (n : Nat) : Chip := (d.listeners n).foldl (fun x e => x.syncLine e) d

/-- LOS is declared: counter, event, defects, and holdover, at the frequency last measured before the failure, of
the clocks that depend on it (R35, R40). -/
def Chip.losSet (d : Chip) (n : Nat) : Chip :=
  let l := d.lane n
  if ¬ d.laneEn n ∨ l.calBusy ∨ l.los ∨ l.present ∨ d.core < l.since + d.rf (R.LN_LOS_SET n) 19 0 * 100 then d
  else
    let d1 := (((d.setLane n { l with los := true }).count (R.LN_LOS_CNT n)).flag (R.LN_EVENT n) 0).ev (srcLane n) 0x0100 0
    let d2 := (d1.clkUsers n).foldl (fun (x : Chip) m =>
      ((x.setLane m { x.lane m with txHold := some l.meas, slewFrom := none }).flag (R.LN_EVENT m) 3).ev (srcLane m) 0x0103 0) d1
    d2.syncLane n

/-- LOS is cleared; a held transmit clock starts to slew back, or is within ±0.01 ppm already (R35, R40). -/
def Chip.losClr (d : Chip) (n : Nat) : Chip :=
  let l := d.lane n
  if ¬ d.laneEn n ∨ l.calBusy ∨ ¬ l.los ∨ ¬ l.present ∨ d.core < l.since + d.rf (R.LN_LOS_CLR n) 19 0 * 100 then d
  else
    let d1 := ((d.setLane n { l with los := false }).flag (R.LN_EVENT n) 1).ev (srcLane n) 0x0101 0
    let d2 := (d1.clkUsers n).foldl (fun (x : Chip) m =>
      let y := x.lane m
      match y.txHold with
      | some h =>
        if -1 ≤ h - x.rxFreq n ∧ h - x.rxFreq n ≤ 1 then x.setLane m { y with txHold := none, slewFrom := none }
        else x.setLane m { y with slewFrom := some x.core }
      | none => x) d1
    d2.syncLane n

/-- The slew has come within ±0.01 ppm of the source (R35).  DESIGN CHOICE: it runs at exactly 1 ppm per ms, where
the rule says no more than that (log entry 62). -/
def Chip.slewDone (d : Chip) (m : Nat) : Chip :=
  let y := d.lane m
  match y.txHold, y.slewFrom, d.clkLane m with
  | some h, some t, some n =>
    if (slewAt h (d.rxFreq n) t d.core - d.rxFreq n).natAbs ≤ 1 then d.setLane m { y with txHold := none, slewFrom := none }
    else d
  | _, _, _ => d

/-- The detector's inputs change: transitions and the measured offset in 0.01 ppm (R40). -/
def Chip.signalChange (d : Chip) (n : Nat) (trans : Bool) (freq : Int) : Chip :=
  (d.setLane n { d.lane n with trans := trans, freq := freq }).rawSignal n

/-- Clock recovery locks: words flow again, the first with a resynchronisation mark (R43). -/
def Chip.cdrLock (d : Chip) (n : Nat) : Chip :=
  let l := d.lane n
  if ¬ d.laneEn n ∨ l.lock ∨ ¬ d.rxTrans n ∨ ¬ freqOk (d.rxFreq n) then d
  else
    let d1 := (d.setLane n { l with lock := true }).rawSignal n
    (d1.listeners n).foldl (fun x e => x.markEngine e) d1

/-- Clock recovery loses lock: counter, event, marks to the bound engines (R42, R43). -/
def Chip.lockLoss (d : Chip) (n : Nat) : Chip :=
  let l := d.lane n
  if ¬ d.laneEn n ∨ ¬ l.lock then d
  else
    let d1 := (d.setLane n { l with lock := false }).rawSignal n
    let d2 := ((d1.count (R.LN_LOCK_LOSS_CNT n)).flag (R.LN_EVENT n) 2).ev (srcLane n) 0x0102 0
    (d2.listeners n).foldl (fun x e => (x.markEngine e).raiseEng e 23 x.dt) d2

/-! ## Words (R43, R45, R46) -/

/-- A lane delivers a stamped word: RX_INV inverts it, every engine bound to the lane receives it with the same
stamp, and a far-end loopback sends it back.  In a near-end loopback the word is the next one that the lane's own
transmitter has sent, and the external input is ignored. -/
def Chip.lineWord (d : Chip) (n w stamp : Nat) (poison : Bool) : Chip :=
  let l := d.lane n
  let near := decide (d.laneLoop n = 1)
  if ¬ d.laneEn n ∨ ¬ l.lock ∨ (near ∧ l.loop.length < 4) then d else
  let ext := if near then ofBytes (l.loop.take 4) else w % 2 ^ 32
  let bits := if d.rb (R.LN_CFG n) 6 then 2 ^ 32 - 1 - ext else ext
  let d1 := if near then d.setLane n { l with loop := l.loop.drop 4 } else d
  let d2 := if d.laneLoop n = 2 then d1.laneSend n (beBytes 4 bits) else d1
  (d2.listeners n).foldl (fun (x : Chip) e => x.engWord e bits stamp poison) d2

/-- The FORMAT of a lane is written: the hunters of the enabled engines bound to it follow it (R74, R79). -/
def Chip.formatMoved (d : Chip) (n : Nat) : Chip := (d.listeners n).foldl (fun (x : Chip) e => x.huntFormat e) d

/-! ## Enable and disable (R32, R39, R417) -/

/-- A lane whose receiver has just started or stopped: no lock, no signal, LOS clear, nothing in a loopback.
DESIGN CHOICE: the lane's own enable or disable also ends its transmit-clock holdover, and a lane that is enabled
onto a source already in LOS starts without holdover; the spec says neither (log entry 60). -/
def Lane.idle (l : Lane) (core : Nat) : Lane :=
  { l with lock := false, present := false, los := false, since := core, txHold := none, slewFrom := none, loop := [] }

/-- The receiver starts with LOS clear. -/
def Chip.laneStart (d : Chip) (n : Nat) : Chip := d.setLane n ((d.lane n).idle d.core)

/-- The receiver stops quietly, and every bound engine receives the lock-loss mark.  DESIGN CHOICE: other lanes
that transmit with this lane's clock and are in holdover stay in it, with no slew, until a later LOS clearing of
this lane; the spec does not say what they do (log entry 61). -/
def Chip.laneStop (d : Chip) (n : Nat) : Chip :=
  let d1 := d.setLane n ((d.lane n).idle d.core)
  let d2 := (d1.listeners n).foldl (fun x e => x.markEngine e) d1
  d2.syncLane n

/-- RECAL of a disabled lane: READY clears at once, and a pass of its group's calibrator is queued (R39). -/
def Chip.recal (d : Chip) (n : Nat) : Chip :=
  let d1 := d.setLane n { d.lane n with ready := false, calBusy := true }
  { d1 with cals := SMap.put [] d1.cals (n / 8) (SMap.get [] d.cals (n / 8) ++ [n % 8]) }

/-- A write to LN_CTRL that has passed the access rules: TX_DISABLE, RECAL of a lane that was disabled (R303), and
ENABLE under R32 and R39.  A lane that the same write recalibrates is not ready, so its enable is not applied. -/
def Chip.laneCtrl (d : Chip) (n : Nat) (w : Word) : Status × Chip :=
  let old := d.laneEn n
  let en := bit w 0
  let keep := d.sbit (R.LN_CTRL n) 1 (bit w 1)
  if en ∧ ¬ old then
    if ¬ (d.lane n).ready then (.notReady, d)
    else if bit w 2 then (.notReady, keep.recal n)
    else if ¬ d.laneCfgOk n then (.badParam, keep.flag (R.LN_EVENT n) 9)
    else (.ok, (keep.sbit (R.LN_CTRL n) 0 true).laneStart n)
  else if old ∧ ¬ en then (.ok, (keep.sbit (R.LN_CTRL n) 0 false).laneStop n)
  else if bit w 2 then (.ok, keep.recal n)
  else (.ok, keep)

/-- A calibration pass of a group completes: of all eight lanes at start-up (entry 8), or of one lane (R37,
R39). -/
def Chip.calDone (d : Chip) (g : Nat) : Chip :=
  match SMap.get [] d.cals g with
  | [] => d
  | k :: q =>
    let d1 := { d with cals := SMap.put [] d.cals g q }
    let lanes := if k = 8 then List.range 8 else [k]
    lanes.foldl (fun (x : Chip) j =>
      let again := q.contains j
      x.setLane (8 * g + j) { x.lane (8 * g + j) with ready := !again, calBusy := again, since := x.core }) d1

/-- The start-up pass of every calibration group begins (R37, R382). -/
def Chip.calStart (d : Chip) : Chip :=
  let d1 := (List.range 16).foldl (fun (x : Chip) g => { x with cals := SMap.put [] x.cals g [8] }) d
  (List.range 128).foldl (fun (x : Chip) n => x.setLane n { x.lane n with calBusy := true }) d1

/-! ## Module management (R49, R50) -/

/-- The lane window that shows a cage and its bus: the quad's first lane, 128 for the host cage, 132 for the
tandem cage. -/
def cageIdx (k : Nat) : Nat := if k < 32 then 4 * k else if k = 32 then 128 else 132

/-- A filtered change of ModPrsL or IntL. -/
def Chip.moduleChange (d : Chip) (k : Nat) (prs int : Bool) : Chip :=
  let i := cageIdx k
  if d.rb (R.LN_QUAD_MOD i) 0 = prs ∧ d.rb (R.LN_QUAD_MOD i) 1 = int then d
  else ((d.sbit (R.LN_QUAD_MOD i) 0 prs).sbit (R.LN_QUAD_MOD i) 1 int).ev (srcLane i) 0x0104 (b2n prs + b2n int * 2)

/-- A module bus. -/
def Chip.mmb (d : Chip) (k : Nat) : Mmb := SMap.get Mmb.init d.mmbs k
/-- Replaces a module bus. -/
def Chip.setMmb (d : Chip) (k : Nat) (x : Mmb) : Chip := { d with mmbs := SMap.put Mmb.init d.mmbs k x }

/-- The bytes of LN_MMB_DATA, first byte first. -/
def Chip.mmbBytes (d : Chip) (i n : Nat) : List Byte :=
  ((List.range 32).flatMap (fun k => beBytes 4 (d.rd (R.LN_MMB_DATA i k)).toNat)).take n

/-- Puts bytes into LN_MMB_DATA from the first on. -/
def Chip.setMmbBytes (d : Chip) (i : Nat) (l : List Byte) : Chip :=
  let all := l ++ (d.mmbBytes i 128).drop l.length
  (List.range 32).foldl (fun (x : Chip) k => x.wr (R.LN_MMB_DATA i k) (w32 (ofBytes ((all.drop (4 * k)).take 4)))) d

/-- A write of LN_MMB_CMD that has passed the access rules. -/
def Chip.mmbGo (d : Chip) (k : Nat) (w : Word) : Status × Chip :=
  let i := cageIdx k
  if ¬ bit w 31 then (.ok, d)
  else if (d.mmb k).busy then (.busy, d.flag (R.LN_MMB_STATUS i) 6)
  else if ¬ d.rb (R.LN_QUAD_MOD i) 0 then (.ok, (d.flag (R.LN_MMB_STATUS i) 1).flag (R.LN_MMB_STATUS i) 5)
  else
    -- DESIGN CHOICE: a LENGTH of 128 to 255, beyond the table's range, is taken modulo 128 (log entry 59)
    let len := fld w 7 0 % 128 + 1
    let d1 := (d.setMmb k ⟨true, bit w 16, fld w 15 8, len, d.core⟩).sf (R.LN_MMB_STATUS i) 15 8 0
    let d2 := d1.sbit (R.LN_MMB_STATUS i) 0 true
    (.ok, d2.emit (.mmb k (bit w 16) (fld w 15 8) (if bit w 16 then d2.mmbBytes i len else [])))

/-- A transaction ends after `n` bytes; a read has brought `data`. -/
def Chip.mmbEnd (d : Chip) (k : Nat) (how : MmbEnd) (n : Nat) (data : List Byte) : Chip :=
  let i := cageIdx k
  let b := d.mmb k
  if ¬ b.busy then d
  else
    let moved := match how with
      | .done => b.length
      | .stuck => 0
      | _ => min n b.length
    let d1 := (d.setMmb k Mmb.init).sbit (R.LN_MMB_STATUS i) 0 false
    let d2 := (d1.flag (R.LN_MMB_STATUS i) 1).sf (R.LN_MMB_STATUS i) 15 8 moved
    let d3 := if b.write then d2 else d2.setMmbBytes i ((padTo moved 0 data))
    match how with
    | .done => d3
    | .nack => d3.flag (R.LN_MMB_STATUS i) 2
    | .timeout => d3.flag (R.LN_MMB_STATUS i) 3
    | .stuck => d3.flag (R.LN_MMB_STATUS i) 4
    | .absent => d3.flag (R.LN_MMB_STATUS i) 5

/-- The module has stretched the clock beyond the limit (R50). -/
def Chip.mmbStretch (d : Chip) (k n : Nat) (data : List Byte) : Chip :=
  let lim := max 1 (d.rf (R.LN_MMB_CFG (cageIdx k)) 15 8) * 1000000
  if d.core < (d.mmb k).start + lim then d else d.mmbEnd k .timeout n data

end Sys2Proof.Machine
end

