-- ==== Sys2Proof/Machine/Fec.lean ====
section
/-! DEFINITION. The RS(255,239) code of OTUk frames (R1; ITU-T G.709 Annex A, log entry 72): 16 codewords interleaved in
each row of 4,080 octets, over the field of x⁸ + x⁴ + x³ + x² + 1. -/

namespace Sys2Proof.Machine

/-- A product in GF(256). -/
def gfMul (a b : Nat) : Nat :=
  (List.range 8).foldl (fun r i =>
    let d := if 128 ≤ r then (2 * r) ^^^ 0x11D else 2 * r
    if b.testBit (7 - i) then d ^^^ a else d) 0

/-- A power. -/
def gfPow (a : Nat) : Nat → Nat
  | 0 => 1
  | n + 1 => gfMul a (gfPow a n)

/-- The inverse of a number that is not 0. -/
def gfInv (a : Nat) : Nat := gfPow a 254

/-- Powers of the generator element. -/
def gfExp (n : Nat) : Nat := gfPow 2 (n % 255)

/-- The value of a polynomial, lowest coefficient first. -/
def gfEval (p : List Nat) (x : Nat) : Nat := p.foldr (fun c a => c ^^^ gfMul x a) 0

/-- A sum and a product of polynomials, lowest coefficient first. -/
def gfAdd (p q : List Nat) : List Nat :=
  let n := max p.length q.length
  (List.range n).map (fun i => p.getD i 0 ^^^ q.getD i 0)
def gfProd (p q : List Nat) : List Nat := p.foldr (fun c a => gfAdd (q.map (gfMul c)) (0 :: a)) []

/-- The generator polynomial with roots α⁰ to α¹⁵, highest coefficient first, without the leading 1. -/
def rsGen : List Nat :=
  ((List.range 16).foldl (fun p i => gfProd [gfExp i, 1] p) [1]).reverse.drop 1

/-- The 16 parity symbols of 239 data symbols. -/
def rsParity (data : List Nat) : List Nat :=
  data.foldl (fun par c =>
    let fb := c ^^^ par.headD 0
    List.zipWith (fun p g => p ^^^ gfMul fb g) (par.drop 1 ++ [0]) rsGen) (List.replicate 16 0)

/-- The syndromes of a codeword. -/
def rsSynd (c : List Nat) : List Nat := (List.range 16).map (fun i => c.foldl (fun a s => gfMul a (gfExp i) ^^^ s) 0)

/-- A step of the Berlekamp-Massey recursion: the locator and the earlier one, the number of errors, the shift and the
earlier discrepancy. -/
structure RsLoc where
  c : List Nat
  b : List Nat
  l : Nat
  m : Nat
  d : Nat
deriving DecidableEq, Repr

/-- The error locator of syndromes. -/
def rsLocator (s : List Nat) : RsLoc :=
  (List.range 16).foldl (fun (x : RsLoc) n =>
    let disc := (List.range (x.l + 1)).foldl (fun a i => if i ≤ n then a ^^^ gfMul (x.c.getD i 0) (s.getD (n - i) 0) else a) 0
    if disc = 0 then { x with m := x.m + 1 }
    else
      let k := gfMul disc (gfInv x.d)
      let c := gfAdd x.c (List.replicate x.m 0 ++ x.b.map (gfMul k))
      if 2 * x.l ≤ n then ⟨c, x.c, n + 1 - x.l, 1, disc⟩ else { x with c := c, m := x.m + 1 }) ⟨[1], [1], 0, 1, 1⟩

/-- A received codeword with up to 8 errors corrected; one with more stays as received. -/
def rsFix (c : List Nat) : List Nat :=
  let s := rsSynd c
  if s.all (· = 0) then c else
  let x := rsLocator s
  let omega := (gfProd s x.c).take 16
  let deriv := x.c.zipIdx.filterMap (fun p => if p.2 % 2 = 1 then some p.1 else none)
  -- Λ' has the odd coefficients at even powers
  let errs := (List.range 255).filterMap (fun j =>
    let inv := gfExp (255 - j)
    if gfEval x.c inv = 0 then
      some (254 - j, gfMul (gfExp j) (gfMul (gfEval omega inv) (gfInv (gfEval deriv (gfMul inv inv)))))
    else none)
  if errs.length = x.l ∧ x.l ≤ 8 then errs.foldl (fun l e => l.set e.1 (l.getD e.1 0 ^^^ e.2)) c else c

/-- The codewords of a row: codeword `k` has every sixteenth symbol. -/
def rsWord (row : List Nat) (k n : Nat) : List Nat := (List.range n).map (fun i => row.getD (16 * i + k) 0)

/-- A row's 3,824 octets with their 256 parity octets. -/
def fecRow (row : List Nat) : List Nat :=
  let par := (List.range 16).map (fun k => rsParity (rsWord row k 239))
  row.take 3824 ++ (List.range 256).map (fun i => (par.getD (i % 16) []).getD (i / 16) 0)

/-- A received row, corrected. -/
def fixRow (row : List Nat) : List Nat :=
  let cw := (List.range 16).map (fun k => rsFix (rsWord row k 255))
  (List.range 4080).map (fun i => (cw.getD (i % 16) []).getD (i / 16) 0)

/-- The rows of an OTU frame, each changed by a function. -/
def otuRows (f : List Nat → List Nat) (l : List Byte) : List Byte :=
  (List.range 4).flatMap (fun r => (f (((l.drop (4080 * r)).take 4080).map (fun b => b.toNat))).map (fun v => BitVec.ofNat 8 v))

/-- An OTU frame with its FEC columns, and a received frame after correction. -/
def fecEncode (l : List Byte) : List Byte := otuRows fecRow l
def fecCorrect (l : List Byte) : List Byte := otuRows fixRow l

end Sys2Proof.Machine
end

