-- ==== Sys2Proof/Machine/Overhead.lean ====
section
/-! DEFINITION. The overhead processor on receive (R80-R96): where the overhead bytes lie, BIP checks and error
counts, REI and BEI, trail traces, APS bytes and labels, and the criteria they give the defect monitor. -/

namespace Sys2Proof.Machine

/-! ## Octets of a frame -/

/-- Octet `i`, 0 beyond the end. -/
def octAt (l : List Byte) (i : Nat) : Nat := (l.getD i 0).toNat

/-- The place of a byte (row, column from 1) in an STM-N frame. -/
def sdhAt (n r c : Nat) : Nat := (r - 1) * (270 * n) + c - 1
/-- The place of a byte in an OTU frame. -/
def otnAt (r c : Nat) : Nat := (r - 1) * 4080 + c - 1
/-- The place of a byte in an ODU frame. -/
def oduAt (r c : Nat) : Nat := (r - 1) * 3824 + c - 1

/-- Sums octets into `w` columns, octet `i` into column `i mod w`, by exclusive or. -/
def xorCols (w : Nat) : Nat → List Byte → List Nat → List Nat
  | 0, _, a => a
  | n + 1, l, a =>
    match l with
    | [] => a
    | _ => xorCols w n (l.drop w) (List.zipWith (fun x (y : Byte) => x ^^^ y.toNat) a (padTo w 0 (l.take w)))

/-- The octets of rows of a frame of `w` columns, columns `a` to `b`. -/
def cols (w a b rows : Nat) (l : List Byte) : List Byte :=
  (List.range rows).flatMap (fun r => ((l.drop (r * w)).drop (a - 1)).take (b + 1 - a))

/-- BIP-24N over a frame except rows 1-3 of the section overhead (R85). -/
def bip24 (n : Nat) (l : List Byte) : List Nat :=
  let w := 270 * n
  let z : List Byte := (List.range 3).flatMap (fun r => List.replicate (9 * n) 0 ++ ((l.drop (r * w)).drop (9 * n)).take (261 * n))
  xorCols (3 * n) (270 * 9 + 1) (z ++ l.drop (3 * w)) (List.replicate (3 * n) 0)

/-- BIP-8 over the OPU of an OTU frame. -/
def bipOpu (l : List Byte) : Nat := xorBytes (cols 4080 15 3824 4 l)
/-- BIP-8 over the OPU of an ODU frame. -/
def bipOdu (l : List Byte) : Nat := xorBytes (cols 3824 15 3824 4 l)

/-- The parity that the SDH scrambler adds to `n` octets, from a state. -/
def scrParity : Nat → Nat → Nat → Nat
  | 0, _, a => a
  | n + 1, s, a => let o := scr7 8 s 0; scrParity n o.2 (a ^^^ o.1)

/-- BIP-8 over a frame as scrambled (B1). -/
def bipB1 (n : Nat) (scrambled : Bool) (l : List Byte) : Nat :=
  xorBytes l ^^^ (if scrambled then scrParity (l.length - 9 * n) 127 0 else 0)

/-- The CRC-7 of a 16-byte trace message, with x⁷ + x³ + 1 and its own field at 0 (log entry 15). -/
def crc7 (l : List Byte) : Nat :=
  let bits := l.flatMap (fun b => (List.range 8).map (fun i => b.toNat.testBit (7 - i)))
  bits.foldl (fun c b => let t := (c.testBit 6) != b; ((c * 2) % 128) ^^^ (if t then 9 else 0)) 0

/-! ## Runs -/

/-- Another sighting of a value. -/
def Seen.see (s : Seen) (v : Nat) : Seen := if s.n ≠ 0 ∧ s.val = v then { s with n := min 255 (s.n + 1) } else ⟨v, 1⟩

/-! ## Trail traces (R88-R90) -/

/-- A byte joins the message being assembled: the slot, a whole message if one ended, and whether alignment
was lost. -/
def Trace.byte (t : Trace) (fmt b mf : Nat) : Trace × Option (List Byte) × Bool :=
  let o : Byte := BitVec.ofNat 8 b
  match fmt with
  | 0 => ({ t with part := [] }, some [o], false)
  | 1 =>
    if b.testBit 7 then ({ t with part := [o], sync := true }, none, !t.part.isEmpty)
    else if t.part.isEmpty then ({ t with sync := false }, none, t.sync)
    else
      let l := t.part ++ [o]
      if l.length = 16 then ({ t with part := [] }, some l, false) else ({ t with part := l }, none, false)
  | 2 =>
    -- the pair that ends a message counts only at its place once the alignment is known
    let l := t.part ++ [o]
    let pair := decide (o = 0x0A ∧ t.part.getLast? = some 0x0D)
    if t.sync then
      if l.length < 64 then ({ t with part := l }, none, false)
      else if pair then ({ t with part := [] }, some l, false)
      else ({ t with part := l.drop 1, sync := false }, none, true)
    else if pair then ({ t with part := [], sync := true }, if l.length = 64 then some l else none, false)
    else ({ t with part := l.drop (l.length - 63) }, none, false)
  | _ =>
    let i := mf % 64
    if i = 0 then ({ t with part := [o], sync := true }, none, !t.part.isEmpty)
    else if t.part.length = i then
      let l := t.part ++ [o]
      if i = 63 then ({ t with part := [] }, some l, false) else ({ t with part := l }, none, false)
    else ({ t with part := [], sync := false }, none, t.sync)

/-- The compare of an accepted message with the expected one (R90). -/
def traceMismatch (fmt mode : Nat) (acc exp : List Byte) : Bool :=
  if mode = 0 then false
  else match fmt with
    | 0 => decide (acc.take 1 ≠ exp.take 1)
    | 1 => decide ((acc.take 16).drop 1 ≠ (exp.take 16).drop 1)
    | 2 => decide (acc ≠ exp)
    | _ =>
      (mode.testBit 0 && decide (acc.take 16 ≠ exp.take 16))
      || (mode.testBit 1 && decide ((acc.drop 16).take 16 ≠ (exp.drop 16).take 16))
      || (mode.testBit 2 && decide (acc.drop 32 ≠ exp.drop 32))

/-- The defect that a slot's MISMATCH feeds: of the engine for a local slot, of the context for a shared
one. -/
def timKey (e slot : Nat) (ctx : Option Nat) : DKey :=
  match ctx with
  | some t => .path t 5
  | none => .line e (if slot = 0 then 8 else if slot = 1 then 16 else 24 + slot)

/-- The key of a slot in the trace table: local slots of an engine, or the shared store. -/
def slotKey (e slot : Nat) (shared : Bool) : Nat := if shared then 4096 + slot else e * 8 + slot

/-- A message is accepted (R89, R90): the buffer, MISMATCH, TTI_CHANGE, the TIM criterion. -/
def Chip.ttiAccept (d : Chip) (e slot : Nat) (ctx : Option Nat) (m : List Byte) : Chip :=
  let k := slotKey e slot ctx.isSome
  let rg := R.tslot_OHP_TTI_SLOT k
  let t := d.trace k
  let new := padTo 64 (0 : Byte) m
  let mm := traceMismatch (d.rf rg 4 3) (d.rf rg 2 0) new t.exp
  let d1 := (((d.setTrace k { t with acc := new }).sbit rg 8 mm).sbit rg 9 true)
  let d2 := if t.acc = new then d1
    else match ctx with
      | some c => (d1.flag (R.TRB_EVENT c) 9).evt e 0x0302 c slot 0
      | none => (d1.flag (R.OHP_EVENT e) 2).ev e 0x0302 slot
  d2.defCrit (timKey e slot ctx) (some mm)

/-- One trace byte of a slot arrives in a confirmed frame (R88, R89); while LOM is declared no 64-byte OTN
trace is taken (R91). -/
def Chip.ttiByte (d : Chip) (e slot : Nat) (ctx : Option Nat) (b mf : Nat) : Chip :=
  let k := slotKey e slot ctx.isSome
  let rg := R.tslot_OHP_TTI_SLOT k
  let fmt := d.rf rg 4 3
  if fmt = 3 ∧ d.rb (R.DEF_STATUS e) 4 then d.setTrace k (d.trace k).restart
  else
    let (t, msg, lost) := (d.trace k).byte fmt b mf
    let t := if lost then { t with run := 0, last := [] } else t
    match msg with
    | none => d.setTrace k t
    | some m =>
      if fmt = 1 ∧ crc7 (m.set 0 0x80) ≠ (m.getD 0 0).toNat % 128 then
        (d.setTrace k { t with run := 0, last := [] }).flag rg 10
      else
        let run := if t.last = m then min 255 (t.run + 1) else 1
        let d1 := d.setTrace k { t with last := m, run := run }
        if d.rf (R.OHP_CFG e) 23 20 ≤ run then d1.ttiAccept e slot ctx m else d1

/-- A slot's register was written, FMT with it: ACC_VALID clears, and with it MISMATCH, and the run restarts
(R89). -/
def Chip.ttiSlotWrite (d : Chip) (e slot : Nat) (shared : Bool) : Chip :=
  let k := slotKey e slot shared
  let rg := R.tslot_OHP_TTI_SLOT k
  ((d.unflag rg 9).unflag rg 8).setTrace k (d.trace k).restart

/-- The TIM criterion of a slot without an accepted message is clear (R127). -/
def Chip.ttiSlotDef (d : Chip) (e slot : Nat) (ctx : Option Nat) : Chip := d.defCrit (timKey e slot ctx) (some false)

/-! ## Counts (R85-R87) -/

/-- An error count under OHP_CFG.BIP_BLOCK: bit errors, or 1 for a frame with any. -/
def Chip.errAmount (d : Chip) (e errs : Nat) : Nat := if d.rb (R.OHP_CFG e) 0 then b2n (decide (errs ≠ 0)) else errs

/-- A BIP of layer `l` was evaluated with `errs` errors at octet stamp `t`: performance, windows, trigger. -/
def Chip.bipDone (d : Chip) (e l errs t : Nat) : Chip :=
  let d1 := (d.pmBlock e l (decide (errs ≠ 0))).winFrames e l errs
  if errs ≠ 0 then d1.raiseEng e (9 + l) t else d1

/-- The errors of a received BIP of `n` bits against the one computed. -/
def bipErrs (n a b : Nat) : Nat := ones n (a ^^^ b)

/-- The REI count of a received MS-REI value (R86). -/
def msRei (n : Nat) (m0 : Bool) (m0v m1v : Nat) : Nat :=
  if n = 1 then (if m1v ≤ 24 then m1v else 0)
  else if n = 4 then (if m1v ≤ 96 then m1v else 0)
  else if n = 64 ∧ m0 then (if m0v * 256 + m1v ≤ 1536 then m0v * 256 + m1v else 0)
  else m1v

/-- The count of a received BEI, 0 beyond 8 (R86). -/
def beiVal (v : Nat) : Nat := if v ≤ 8 then v else 0

/-! ## APS bytes and labels (R91) -/

/-- An APS value arrives, its last octet stamped `t`; one that has persisted goes to OHP_APS and the protection
controller, with the event at a change or the first acceptance. -/
def Chip.apsSeen (d : Chip) (e v t : Nat) : Chip :=
  let o := d.ohp e
  let s := o.aps.see v
  let d1 := d.setOhp e { o with aps := s }
  if s.n ≠ 3 then d1
  else
    let new := !o.apsAcc || decide ((d1.rd (R.OHP_APS e)).toNat ≠ v)
    let d2 := (d1.setOhp e { d1.ohp e with apsAcc := true }).wr (R.OHP_APS e) (w32 v)
    let d3 := if new then ((d2.flag (R.OHP_EVENT e) 0).ev e 0x0300 v).raiseEng e 13 t else d2
    d3.apsRx e v

/-- A label (S1 or PT) has persisted: OHP_LABEL, the event. -/
def Chip.labelAccept (d : Chip) (e v : Nat) : Chip :=
  let o := d.ohp e
  let new := !o.labAcc || decide (d.rf (R.OHP_LABEL e) 7 0 ≠ v)
  let d1 := (d.setOhp e { o with labAcc := true }).wr (R.OHP_LABEL e) (w32 (2 ^ 31 + v))
  if new then (d1.flag (R.OHP_EVENT e) 1).ev e 0x0301 v else d1

/-! ## Overhead matchers (R171, R175) -/

/-- The rate of an engine's whole line: of the group for the head of a gang. -/
def Chip.lineRate (d : Chip) (e : Nat) : Nat := pathRate (d.engFmt e) (d.engRate e)

/-- The overhead matchers see a frame that starts at `start`, each at its own octet (R173); `tent` on tentative data. -/
def Chip.matchers (d : Chip) (e : Nat) (f : List Byte) (start : Nat) (tent : Bool) : Chip :=
  let fmt := d.engFmt e
  (List.range 2).foldl (fun (x : Chip) k =>
    let ix := x.rd (R.mat_CAP_MATCH_IDX (e * 4 + k))
    let val := x.rf (R.mat_CAP_MATCH_VAL (e * 4 + k)) 7 0
    let mask := x.rf (R.mat_CAP_MATCH_MASK (e * 4 + k)) 7 0
    let i := if isSdh fmt then sdhAt (stmN fmt) (fld ix 7 4) (fld ix 17 8) else otnAt (fld ix 7 4) (fld ix 17 8)
    let hit := decide (mask ≠ 0) && decide ((octAt f i ^^^ val) &&& mask = 0)
    let key := (if tent then 2 ^ 20 else 0) + e * 4 + k
    ({ x with mats := SMap.put false x.mats key hit } : Chip).levels (e / 8) (octStamp (d.lineRate e) start i) tent) d

/-! ## One frame of the line -/

/-- The running BIPs of an STM-N line move to this frame. -/
def Chip.runSdh (d : Chip) (e n : Nat) (f : List Byte) : Chip :=
  let o := d.ohp e
  d.setOhp e { o with b1 := some (bipB1 n (!d.rb (R.HNT_CFG e) 13) f), b2 := some (bip24 n f) }

/-- An STM-N frame, confirmed: BIPs, REI, K bytes, S1, J0 (R82). -/
def Chip.rxSdh (d : Chip) (e n start : Nat) (f : List Byte) : Chip :=
  let o := d.ohp e
  let at_ := fun r c => octAt f (sdhAt n r c)
  let stampOf := fun i => octStamp (d.lineRate e) start i
  -- B1
  let d1 := match o.b1 with
    | some v =>
      let er := bipErrs 8 v (at_ 2 1)
      (d.count (R.OHP_CNT_0 e) (d.errAmount e er)).bipDone e 0 er (stampOf (sdhAt n 2 1))
    | none => d
  -- B2
  let rx := (List.range (3 * n)).map (fun c => at_ 5 (c + 1))
  let (d2, b2e) := match o.b2 with
    | some v =>
      let er := (List.zipWith (bipErrs 8) v rx).foldl (· + ·) 0
      ((d1.count (R.OHP_CNT_1 e) (d1.errAmount e er)).bipDone e 1 er (stampOf (sdhAt n 5 (3 * n))), er)
    | none => (d1, 0)
  let d3 := d2.setOhp e { d2.ohp e with rei := [b2e], frame := f }
  -- MS-REI
  let rei := msRei n (d.rb (R.OHP_CFG e) 1) (at_ 9 (3 * n + 2)) (at_ 9 (3 * n + 3))
  let d4 := (d3.count (R.OHP_CNT_2 e) (d3.errAmount e rei)).pmBlock e 2 (decide (rei ≠ 0))
  -- K bytes, S1, J0
  let k1 := at_ 5 (3 * n + 1)
  let k2 := at_ 5 (6 * n + 1)
  let d5 := d4.apsSeen e (k1 * 2 ^ 24 + k2 / 8 * 8 * 2 ^ 16) (stampOf (sdhAt n 5 (6 * n + 1)))
  let d6 := (d5.defRun (.line e 6) 3 (decide (k2 % 8 = 7)))
  let d7 := d6.defRun (.line e 7) 5 (decide (k2 % 8 = 6))
  let s1 := (d7.ohp e).s1.see (at_ 9 1)
  let d8 := d7.setOhp e { d7.ohp e with s1 := s1 }
  let d9 := if s1.n = 8 then d8.labelAccept e (at_ 9 1) else d8
  d9.ttiByte e 0 none (at_ 1 (6 * n + 1)) 0

/-- One value of a multiframe count arrives: the last one, runs in and out of sequence, and out-of-multiframe
after 5 or in-multiframe after 2 (R127, R129). -/
def mfSeq (m : Nat) (last : Option Nat) (bad good : Nat) (oom : Option Bool) (v : Nat) : Nat × Nat × Option Bool :=
  match last with
  | none => (0, 0, oom)
  | some p =>
    if v = (p + 1) % m then (0, min 15 (good + 1), if 2 ≤ good + 1 then some false else oom)
    else (min 15 (bad + 1), 0, if 5 ≤ bad + 1 then some true else oom)

/-- The engine's own multiframe count for this frame (R91). -/
def ownMf (own last : Option Nat) (oom : Option Bool) (v : Nat) : Nat :=
  match own, last with
  | some o, some p => if v = (p + 1) % 256 ∧ oom ≠ some true then v else (o + 1) % 256
  | _, _ => v

/-- The running state of an OTN line moves to this frame: BIPs over the OPU of two frames, multiframe
count. -/
def Chip.runOtn (d : Chip) (e : Nat) (f : List Byte) : Chip :=
  let o := d.ohp e
  let v := octAt f 6
  let m := d.mon e
  d.setOhp e { o with opu2 := o.opu1, opu1 := some (bipOpu f), mf := some (ownMf o.mf m.mfas m.oom v) }

/-- Columns of TCM level `i`, row and first column (R84). -/
def tcmPos (i : Nat) : Nat × Nat := if 4 ≤ i then (2, 4 + 3 * (6 - i)) else (3, 1 + 3 * (3 - i))

/-- One PM or TCM triple: trace, BIP against the OPU two frames back, BEI, BDI, STAT. -/
def Chip.rxTcm (d : Chip) (e i : Nat) (bip : Option Nat) (f : List Byte) (mf : Nat) : Chip :=
  if ¬ d.rb (R.OHP_CFG e) (1 + i) then d else
  let (r, c) := tcmPos i
  let b2 := octAt f (otnAt r (c + 1))
  let b3 := octAt f (otnAt r (c + 2))
  let base := 0x80 + 8 * (i - 1)
  let (d1, er) := match bip with
    | some v => ((d.count ⟨.eng, e, 0x230 + 8 * (i - 1)⟩ (d.errAmount e (bipErrs 8 v b2))), bipErrs 8 v b2)
    | none => (d, 0)
  let o := d1.ohp e
  let d2 := d1.setOhp e { o with rei := setAt (padTo 8 0 o.rei) (1 + i) er }
  let d3 := d2.count ⟨.eng, e, 0x234 + 8 * (i - 1)⟩ (d2.errAmount e (beiVal (b3 / 16)))
  let st := b3 % 8
  let d4 := d3.defRun (.line e base) 3 (decide (st = 0))
  let d5 := d4.defRun (.line e (base + 1)) 3 (decide (st = 7))
  let d6 := d5.defRun (.line e (base + 2)) 3 (decide (st = 5))
  let d7 := d6.defRun (.line e (base + 3)) 3 (decide (st = 6))
  let d8 := d7.defRun (.line e (base + 4)) 5 (b3.testBit 3)
  d8.ttiByte e (1 + i) none (octAt f (otnAt r c)) mf

/-- An OTN frame, confirmed: MFAS and OMFI, SM, PM, TCM, APS, PT (R84). -/
def Chip.rxOtn (d : Chip) (e start : Nat) (f : List Byte) : Chip :=
  let at_ := fun r c => octAt f (otnAt r c)
  let o := d.ohp e
  let m := d.mon e
  let v := at_ 1 7
  let mf := ownMf o.mf m.mfas m.oom v
  let bip := o.opu2
  let stampOf := fun i => octStamp (d.lineRate e) start i
  -- MFAS
  let (bad, good, oom) := mfSeq 256 m.mfas m.mfBad m.mfGood m.oom v
  let d1 := (d.setMon e { m with mfas := some v, mfBad := bad, mfGood := good, oom := oom }).defCrit (.line e 4) oom
  -- OMFI of a line ODU4 that is a multiplex
  let d2 := if d.engFmt e = 0xC ∧ d.rb (R.MAP_CFG e) 1 then
      let m := d1.mon e
      let (bad, good, oom) := mfSeq 80 m.omfi m.omBad m.omGood m.oomfi (at_ 4 16)
      let y := d1.setMon e { m with omfi := some (at_ 4 16), omBad := bad, omGood := good, oomfi := oom }
      ((y.setOhp e { y.ohp e with omf := some (at_ 4 16) }).sbit (R.MAP_STATUS e) 13 (oom = some false)).defCrit (.line e 18) oom
    else d1
  -- SM
  let smErr := match bip with | some b => bipErrs 8 b (at_ 1 9) | none => 0
  let d3 := if bip.isSome then
      (d2.count (R.OHP_CNT_0 e) (d2.errAmount e smErr)).bipDone e 0 smErr (stampOf (otnAt 1 9)) else d2
  let sm := at_ 1 10
  let d4 := d3.count (R.OHP_CNT_2 e) (d3.errAmount e (beiVal (sm / 16)))
  let d5 := (((d4.defRun (.line e 9) 5 (sm.testBit 3)).defRun (.line e 10) 5 (sm.testBit 2)).defRun (.line e 11) 3
    (decide (sm / 16 = 11))).ttiByte e 0 none (at_ 1 8) mf
  -- PM
  let pmErr := match bip with | some b => bipErrs 8 b (at_ 3 11) | none => 0
  let d6 := if bip.isSome then
      (d5.count (R.OHP_CNT_1 e) (d5.errAmount e pmErr)).bipDone e 1 pmErr (stampOf (otnAt 3 11)) else d5
  let pm := at_ 3 12
  let d7 := (d6.count (R.OHP_CNT_3 e) (d6.errAmount e (beiVal (pm / 16)))).pmBlock e 2 (decide (beiVal (pm / 16) ≠ 0))
  let d8 := ((((d7.defRun (.line e 12) 3 (decide (pm % 8 = 7))).defRun (.line e 13) 3 (decide (pm % 8 = 6))).defRun
    (.line e 14) 3 (decide (pm % 8 = 5))).defRun (.line e 15) 5 (pm.testBit 3)).ttiByte e 1 none (at_ 3 10) mf
  let y := d8.ohp e
  let d9 := d8.setOhp e { y with rei := [smErr, pmErr], frame := f }
  let d10 := (List.range 6).foldl (fun x i => x.rxTcm e (i + 1) bip f mf) d9
  -- APS/PCC in the frames of its level, not while LOM
  let lom := d10.rb (R.DEF_STATUS e) 4
  let d11 := if lom then d10.setOhp e { d10.ohp e with aps := Seen.init }
    else if mf % 8 = d10.rf (R.OHP_CFG e) 18 16 then
      d10.apsSeen e (at_ 4 5 * 2 ^ 24 + at_ 4 6 * 2 ^ 16 + at_ 4 7 * 2 ^ 8 + at_ 4 8) (stampOf (otnAt 4 8))
    else d10
  -- PSI: PT in byte 0 of the multiframe, MSI from byte 2
  let z := d11.ohp e
  let psi := at_ 4 15
  if mf = 0 then
    let s := z.pt.see psi
    let d12 := d11.setOhp e { z with pt := s }
    if s.n < 3 then d12
    else
      let d13 := if s.n = 3 then d12.labelAccept e psi else d12
      let exp := if d13.rb (R.MAP_CFG e) 1 then 0x21 else d13.rf (R.DEF_CFG e) 7 0
      d13.defCrit (.line e 17) (some (psi ≠ exp))
  else if 2 ≤ mf ∧ mf ≤ 81 then
    let s := (SMap.get Seen.init z.msi (mf - 1)).see psi
    d11.setOhp e { z with msi := SMap.put Seen.init z.msi (mf - 1) s,
                          msiAcc := if 3 ≤ s.n then SMap.insert (mf - 1) psi z.msiAcc else z.msiAcc }
  else d11

end Sys2Proof.Machine
end

