-- ==== Sys2Proof/Machine/Mapper.lean ====
section
/-! DEFINITION. The mapper on receive and its contexts (R97-R122): placement and allotment checks, pointer
interpretation, justification, MSI, tributary overhead and sub-channels, sequence programs, and what a
received frame does as a whole. -/

namespace Sys2Proof.Machine

/-! ## Types and placement (R98, R99, R114) -/

/-- X of a VC-4-Xc type; 1 for a VC-4. -/
def concatX (ty : Nat) : Nat :=
  match ty with
  | 2 => 4 | 3 => 16 | 4 => 64 | _ => 1

/-- A TYPE fits a line format (R98). -/
def typeFits (ty f : Nat) : Bool :=
  match ty with
  | 1 | 5 | 6 | 7 | 8 => isSdh f
  | 2 => [2, 3, 4].contains f
  | 3 => [3, 4].contains f
  | 4 => decide (f = 4)
  | 9 => [8, 9, 0xB, 0xC].contains f
  | 0xA | 0xE => [9, 0xB, 0xC].contains f
  | 0xB | 0xC => [0xB, 0xC].contains f
  | 0xD => decide (f = 0xC)
  | _ => false

/-- The rank of a higher-order ODU: 1 to 4 for a line format, or for a context of type ODU1, ODU2, ODU3. -/
def lineOdu (f : Nat) : Nat :=
  match f with
  | 8 => 1 | 9 => 2 | 0xB => 3 | 0xC => 4 | _ => 0
/-- The rank of a context that can be a parent. -/
def ctxOdu (ty : Nat) : Nat :=
  match ty with
  | 0xA => 1 | 0xB => 2 | 0xD => 3 | _ => 0
/-- Tributary slots of a higher-order ODU (R114). -/
def oduSlots (o : Nat) : Nat :=
  match o with
  | 1 => 2 | 2 => 8 | 3 => 32 | 4 => 80 | _ => 0

/-- The least and most slots a type takes in a parent, and whether by AMP; none where R114 has no entry. -/
def muxRule (ty parent : Nat) : Option (Nat × Nat × Bool) :=
  match ty, parent with
  | 9, 1 | 9, 2 | 9, 3 | 9, 4 => some (1, 1, false)
  | 0xA, 2 | 0xA, 3 => some (2, 2, true)
  | 0xA, 4 => some (2, 2, false)
  | 0xB, 3 => some (8, 8, true)
  | 0xB, 4 => some (8, 8, false)
  | 0xC, 3 => some (9, 9, false)
  | 0xC, 4 => some (8, 8, false)
  | 0xD, 4 => some (31, 31, false)
  | 0xE, 2 => some (1, 8, false)
  | 0xE, 3 => some (1, 32, false)
  | 0xE, 4 => some (1, 80, false)
  | _, _ => none

/-- The tributary slot bitmap of a context, slot 1 in bit 0. -/
def Chip.ctxSlots (d : Chip) (t : Nat) : Nat :=
  (d.rd (R.TRB_TS0 t)).toNat + (d.rd (R.TRB_TS1 t)).toNat * 2 ^ 32 + d.rf (R.TRB_TS2 t) 15 0 * 2 ^ 64

/-- Position fields of TRB_POS. -/
structure Pos where
  aug : Nat
  au3 : Nat
  k   : Nat
  l   : Nat
  m   : Nat
  tpn : Nat
deriving DecidableEq, Repr

/-- The position of a context. -/
def Chip.ctxPos (d : Chip) (t : Nat) : Pos :=
  let w := d.rd (R.TRB_POS t)
  ⟨fld w 5 0, fld w 7 6, fld w 9 8, fld w 12 10, fld w 15 13, fld w 22 16⟩

/-- Two contexts have the same parent. -/
def Chip.sameParent (d : Chip) (a b : Nat) : Bool :=
  decide (d.ctxOwner a = d.ctxOwner b) && decide (d.ctxTop a = d.ctxTop b) && (d.ctxTop a || decide (d.ctxParent a = d.ctxParent b))

/-- The rank of a context's higher-order parent. -/
def Chip.parentOdu (d : Chip) (t : Nat) : Nat :=
  if d.ctxTop t then (if d.rb (R.MAP_CFG (d.ctxOwner t)) 1 then lineOdu (d.engFmt (d.ctxOwner t)) else 0)
  else if d.ctxTop (d.ctxParent t) then ctxOdu (d.ctxType (d.ctxParent t)) else 0

/-- A context may lie where its fields put it (R99, R114). -/
def Chip.placeOk (d : Chip) (t : Nat) : Bool :=
  let ty := d.ctxType t
  let p := d.ctxPos t
  let n := stmN (d.engFmt (d.ctxOwner t))
  let top := d.ctxTop t
  let pty := if top then 0 else d.ctxType (d.ctxParent t)
  match ty with
  | 1 => top && decide (p.aug < n)
  | 2 | 3 | 4 => top && decide (p.aug % concatX ty = 0) && decide (p.aug + concatX ty ≤ n)
  | 5 => top && decide (p.aug < n) && decide (1 ≤ p.au3)
  | 6 => decide (pty = 1) && decide (1 ≤ p.k)
  | 7 | 8 =>
    (decide (pty = 5) || (decide (pty = 1) && decide (1 ≤ p.k))) && decide (1 ≤ p.l ∧ p.l ≤ 7)
      && decide (1 ≤ p.m) && decide (p.m ≤ if ty = 7 then 3 else 4)
  | _ =>
    match muxRule ty (d.parentOdu t) with
    | none => false
    | some (lo, hi, _) =>
      let s := oduSlots (d.parentOdu t)
      let cnt := ones 80 (d.ctxSlots t)
      decide (lo ≤ cnt) && decide (cnt ≤ hi) && decide (d.ctxSlots t < 2 ^ s) && decide (1 ≤ p.tpn ∧ p.tpn ≤ s)

/-- Two enabled children of one parent overlap (R99). -/
def Chip.overlap (d : Chip) (a b : Nat) : Bool :=
  let ta := d.ctxType a
  let tb := d.ctxType b
  let p := d.ctxPos a
  let q := d.ctxPos b
  if ta ≤ 5 ∧ tb ≤ 5 then
    if ta = 5 ∧ tb = 5 then decide (p.aug = q.aug ∧ p.au3 = q.au3)
    else decide (p.aug < q.aug + concatX tb ∧ q.aug < p.aug + concatX ta)
  else if ta ≤ 8 ∧ tb ≤ 8 then
    let sameK := decide (p.k = q.k) || decide (d.ctxType (d.ctxParent a) = 5)
    if ta = 6 ∨ tb = 6 then sameK
    else sameK && decide (p.l = q.l) && (decide (ta ≠ tb) || decide (p.m = q.m))
  else decide (p.tpn = q.tpn) || decide ((d.ctxSlots a) &&& (d.ctxSlots b) ≠ 0)

/-- Every check of R100 and R101 for a context, against the enabled ones. -/
def Chip.ctxOk (d : Chip) (t : Nat) : Bool :=
  let e := d.ctxOwner t
  let others := d.enabledCtxs.filter (· ≠ t)
  decide (e ≤ 135) && (!d.ganged e || decide (e % 4 = 0))
    && typeFits (d.ctxType t) (d.engFmt e) && d.placeOk t
    && (d.ctxTop t || (d.ctxEn (d.ctxParent t) && decide (d.ctxOwner (d.ctxParent t) = e) && decide (d.ctxParent t ≠ t)))
    && others.all (fun u => !(d.sameParent t u && d.overlap t u))
    && (!d.rb (R.TRB_PATH t) 12 ||
        others.all (fun u => !(d.rb (R.TRB_PATH u) 12 && decide (d.rf (R.TRB_PATH u) 11 0 = d.rf (R.TRB_PATH t) 11 0))))
    && decide ((others.filter (fun u => d.ctxOwner u = e)).length < 5440)

/-! ## MSI (R115) -/

/-- The MSI byte that an ODU type and a port number imply in a parent (log entry 15). -/
def msiCode (parent ty tpn : Nat) : Nat :=
  match parent with
  | 1 => 0xC0 + (tpn - 1) % 64
  | 2 => (if ty = 0xA then 0x00 else 0x80) + (tpn - 1) % 64
  | 3 => (if ty = 0xA then 0x00 else if ty = 0xB then 0x40 else 0x80) + (tpn - 1) % 64
  | _ => 0x80 + (tpn - 1) % 128

/-- An unallocated slot. -/
def msiFree (parent : Nat) : Nat :=
  match parent with
  | 1 => 0xFF | 2 => 0xC0 | 3 => 0xC0 | _ => 0x00

/-- A received MSI byte says that its slot is unallocated. -/
def msiIsFree (parent v : Nat) : Bool :=
  match parent with
  | 1 => decide (v = 0xFF)
  | 4 => decide (v < 128)
  | _ => decide (v / 64 = 3)

/-- The enabled child that owns slot `s` (from 1) of the line (`none`) or of a context. -/
def Chip.slotChild (d : Chip) (e : Nat) (p : Option Nat) (s : Nat) : Option Nat :=
  (d.ownedCtxs e).find? (fun t => oduType (d.ctxType t) && (d.ctxSlots t).testBit (s - 1)
    && (match p with
      | none => d.ctxTop t
      | some q => !d.ctxTop t && decide (d.ctxParent t = q)))

/-- The MSI that the enabled children imply for a slot, as it is also sent. -/
def Chip.msiTx (d : Chip) (e : Nat) (p : Option Nat) (rank s : Nat) : Nat :=
  match d.slotChild e p s with
  | some t => msiCode rank (d.ctxType t) (d.ctxPos t).tpn
  | none => msiFree rank

/-- An accepted MSI of a slot differs from the implied one. -/
def Chip.msiBad (d : Chip) (e : Nat) (p : Option Nat) (rank s : Nat) (acc : SMap Nat) : Bool :=
  match acc.find? (fun x => x.1 = s) with
  | none => false
  | some x =>
    match d.slotChild e p s with
    | some t => decide (x.2 ≠ msiCode rank (d.ctxType t) (d.ctxPos t).tpn)
    | none => !msiIsFree rank x.2

/-- The rank of the line's own ODU as a multiplex. -/
def Chip.lineMux (d : Chip) (e : Nat) : Nat := if d.rb (R.MAP_CFG e) 1 then lineOdu (d.engFmt e) else 0

/-- A context has enabled children. -/
def Chip.hasKids (d : Chip) (t : Nat) : Bool := d.enabledCtxs.any (fun u => !d.ctxTop u && decide (d.ctxParent u = t) && decide (u ≠ t))

/-- MSIM of every child and of MAP_STATUS follows the accepted values (R115). -/
def Chip.msiEval (d : Chip) (e : Nat) : Chip :=
  let rank := d.lineMux e
  let acc := (d.ohp e).msiAcc
  let bad := fun (p : Option Nat) (r : Nat) (a : SMap Nat) => (List.range (oduSlots r)).any (fun i =>
    (d.slotChild e p (i + 1)).isNone && d.msiBad e p r (i + 1) a)
  -- the line's own OPU, and those of the contexts that are parents
  let free := bad none rank acc || (d.ownedCtxs e).any (fun t =>
    d.hasKids t && oduType (d.ctxType t) && bad (some t) (ctxOdu (d.ctxType t)) (d.ctx t).msiAcc)
  let d1 := (d.sbit (R.MAP_STATUS e) 14 free).defCrit (.line e 19) (if rank = 0 then some false else some free)
  (d1.ownedCtxs e).foldl (fun x t =>
    if oduType (x.ctxType t) then
      let top := x.ctxTop t
      let r := x.parentOdu t
      let a := if top then (x.ohp e).msiAcc else (x.ctx (x.ctxParent t)).msiAcc
      let p := if top then none else some (x.ctxParent t)
      let bad := (List.range (oduSlots r)).any (fun i => (x.ctxSlots t).testBit i && x.msiBad e p r (i + 1) a)
      if (x.ctx t).msim = bad then x else (x.setCtx t { x.ctx t with msim := bad }).ctxSync t
    else x) d1

/-! ## Pointer interpretation (R105, R106, R108) -/

/-- The classes of a pointer word. -/
inductive PtrClass where
  | ais | ndf (v : Nat) | norm (v : Nat) | inc | dec | new (v : Nat) | inv
deriving DecidableEq, Repr

/-- The highest value of a type's pointer (R98). -/
def ptrMax (ty : Nat) : Nat :=
  match ty with
  | 6 => 764 | 7 => 139 | 8 => 103 | _ => 782

/-- At least three NDF bits of a word match a pattern. -/
def ndfIs (w pat : Nat) : Bool := decide (ones 4 ((w / 4096) ^^^ pat) ≤ 1)

/-- A pointer word is classified against the current pointer, which only NORM holds (R105). -/
def classify (p : Ptr) (max : Nat) (ss : Option Nat) (w : Nat) : PtrClass :=
  let v := w % 1024
  let ssBad := match ss with | some s => decide (w / 1024 % 4 ≠ s) | none => false
  if w = 0xFFFF then .ais
  else if ssBad then .inv
  else if ndfIs w 9 then (if v ≤ max then .ndf v else .inv)
  else if ndfIs w 6 then
    if p.st = .norm ∧ v = p.ptr then .norm v
    else
      let i := ones 10 ((v ^^^ p.ptr) &&& 0x2AA)
      let k := ones 10 ((v ^^^ p.ptr) &&& 0x155)
      if p.st = .norm ∧ 3 ≤ i ∧ k ≤ 2 then (if p.gap < 3 then .inv else .inc)
      else if p.st = .norm ∧ 3 ≤ k ∧ i ≤ 2 then (if p.gap < 3 then .inv else .dec)
      else if v ≤ max then .new v else .inv
  else .inv

/-- What one word did: an accepted value, an NDF_ENABLE that RX_NDF counts, an accepted NDF_ENABLE, an adjustment, an
entry into LOP or AIS, an invalid or unaccepted word. -/
structure PtrEv where
  acc : Bool
  cnt : Bool
  ndf : Bool
  inc : Bool
  dec : Bool
  lop : Bool
  ais : Bool
  inv : Bool
deriving DecidableEq, Repr

/-- Nothing happened. -/
def PtrEv.none : PtrEv := ⟨false, false, false, false, false, false, false, false⟩

/-- A value is accepted: the interpreter is in NORM on it. -/
def Ptr.take (p : Ptr) (v : Nat) : Ptr := { (p.enter .norm) with ptr := v, gap := 0, ndf := p.ndf }

/-- One pointer word moves an interpreter (R106).  Where a word also meets a row that leads to LOP, that row takes it. -/
def Ptr.step (p : Ptr) (max : Nat) (ss : Option Nat) (w : Nat) : Ptr × PtrEv :=
  let p0 := { p with gap := min 3 (p.gap + 1) }
  let c := classify p0 max ss w
  let same := match c with
    | .new v | .norm v => p0.same.see v
    | _ => Seen.init
  let newp := match c with
    | .new v => p0.newp.see v
    | _ => Seen.init
  let isNew := match c with | .new _ => true | _ => false
  let isNdf := match c with | .ndf _ => true | _ => false
  let isInv := decide (c = .inv)
  let taken := match p0.st with
    | .acquire | .lop => decide (3 ≤ same.n)
    | _ => decide (3 ≤ newp.n)
  let cnt := fun (b : Bool) n => if b then min 8 (n + 1) else 0
  let p1 := { p0 with same := same, newp := newp, bad := cnt (isInv || isNew) p0.bad, inv := cnt isInv p0.inv,
                      ndf := cnt isNdf p0.ndf, acq := cnt (isInv || isNew || isNdf) p0.acq,
                      ais := cnt (decide (c = .ais)) p0.ais }
  let ev := { PtrEv.none with inv := isInv || (isNew && !taken) }
  let toLop := (p1.enter .lop, { ev with lop := true, inv := isInv || isNew })
  let toAis := (p1.enter .ais, { ev with ais := true })
  let val := match c with | .new v | .norm v | .ndf v => v | _ => p1.ptr
  match p0.st with
  | .inactive | .parentFail => (p, PtrEv.none)
  | .acquire =>
    if 8 ≤ p1.acq then toLop
    else if taken then (p1.take val, { ev with acc := true })
    else if 3 ≤ p1.ais then toAis
    else (p1, ev)
  | .lop =>
    if taken then (p1.take val, { ev with acc := true })
    else if 3 ≤ p1.ais then toAis
    else (p1, ev)
  | .norm =>
    if 8 ≤ p1.bad then toLop
    else if 8 ≤ p1.ndf then (p1.enter .lop, { ev with lop := true, cnt := true })
    else if 3 ≤ p1.ais then toAis
    else match c with
    | .ndf v => (p1.take v, { ev with acc := true, cnt := true, ndf := true })
    | .inc => ({ p1 with ptr := if p1.ptr = max then 0 else p1.ptr + 1, gap := 0 }, { ev with inc := true })
    | .dec => ({ p1 with ptr := if p1.ptr = 0 then max else p1.ptr - 1, gap := 0 }, { ev with dec := true })
    | _ => if taken then (p1.take val, { ev with acc := true }) else (p1, ev)
  | .ais =>
    if isNdf then (p1.take val, { ev with acc := true, ndf := true })
    else if taken then (p1.take val, { ev with acc := true })
    else if 8 ≤ p1.inv then toLop
    else (p1, ev)

/-- One word of a concatenation position (R108); `same` counts indications, `bad` words that are neither. -/
def Ptr.concStep (p : Ptr) (ss : Option Nat) (w : Nat) : Ptr :=
  let ok := decide (w / 4096 = 9) && decide (w % 1024 = 1023) && (match ss with | some s => decide (w / 1024 % 4 = s) | none => true)
  let ais := decide (w = 0xFFFF)
  let p1 := { p with same := ⟨0, if ok then min 3 (p.same.n + 1) else 0⟩,
                     bad := if ok || ais then 0 else min 8 (p.bad + 1), ais := if ais then min 3 (p.ais + 1) else 0 }
  if p.st = .inactive ∨ p.st = .parentFail then p
  else if p1.same.n = 3 then { p1 with st := .norm }
  else if p1.ais = 3 then { p1 with st := .ais }
  else if p1.bad = 8 then { p1 with st := .lop }
  else p1

/-- The SS bits that a type's pointer must carry, when MAP_CFG.SS_CHECK asks. -/
def Chip.ctxSs (d : Chip) (t : Nat) : Option Nat :=
  if d.rb (R.MAP_CFG (d.ctxOwner t)) 0 then some (if d.ctxType t = 8 then 3 else 2) else none

/-- One half of a context's 16-bit counters, saturating (R122). -/
def Chip.countHalf (d : Chip) (r : RegId) (hi : Bool) (n : Nat := 1) : Chip :=
  if hi then d.sf r 31 16 (min 0xFFFF (d.rf r 31 16 + n)) else d.sf r 15 0 (min 0xFFFF (d.rf r 15 0 + n))

/-- A flag and an event of a context. -/
def Chip.ctxEvent (d : Chip) (t bit_ code det : Nat) : Chip := (d.flag (R.TRB_EVENT t) bit_).evt (d.ctxOwner t) code t det 0

/-- The events and counts of a confirmed pointer word whose last octet is stamped `stamp`, and the trigger source of
R171. -/
def Chip.ptrEvents (d : Chip) (t : Nat) (ev : PtrEv) (ptr stamp : Nat) : Chip :=
  let d1 := if ev.inc then d.countHalf (R.TRB_JUST_CNT t) false else d
  let d2 := if ev.dec then d1.countHalf (R.TRB_JUST_CNT t) true else d1
  let d3 := if ev.cnt then d2.countHalf (R.TRB_ERR_CNT t) false else d2
  let d4 := if ev.inv then d3.countHalf (R.TRB_ERR_CNT t) true else d3
  let d5 := if ev.ndf then d4.ctxEvent t 1 0x0401 ptr else d4
  let d6 := if ev.acc then (d5.ctxEvent t 0 0x0400 ptr) else d5
  let d7 := if ev.lop then d6.ctxEvent t 2 0x0402 0 else d6
  let d8 := if ev.ais then d7.ctxEvent t 3 0x0403 0 else d7
  if ev.acc ∨ ev.lop ∨ ev.ais then d8.raiseEng (d.ctxOwner t) 12 stamp else d8

/-! ## Where a container lies (R108, R119) -/

/-- The justification octets of a type are 3X for an AU-4, and one for any other
pointer, a TU's or AU-3's (R108; log entry 70). -/
def justOctets (ty : Nat) : Nat := if ty ≤ 4 then 3 * concatX ty else 1

/-- Octets between two starts of a container: of the VC-3 of an AU-3 with the two columns of fixed stuff that lie in
it (log entry 70). -/
def spanOctets (ty : Nat) : Nat :=
  match ty with
  | 7 => 140 | 8 => 104 | 6 => 765 | 5 => 783 | _ => 2349 * concatX ty

/-- The place in the container of octet `i` of a span; none for fixed stuff, columns 30 and 59 of an AU-3. -/
def spanAt (ty i : Nat) : Option Nat :=
  if ty ≠ 5 then some i
  else if i % 87 = 29 ∨ i % 87 = 58 then none
  else some (85 * (i / 87) + i % 87 - b2n (decide (29 < i % 87)) - b2n (decide (58 < i % 87)))

/-- Entity `j` of a GMP multiframe of `p` entities holds data (log entry 70). -/
def gmpData (p cm j : Nat) : Bool := decide ((j + 1) * cm % p < cm)

/-- Entities of a GMP multiframe of a parent (log entry 70). -/
def gmpEntities (parent : Nat) : Nat := if parent = 4 then 15200 else 15232

/-- A context is mapped by AMP (R114). -/
def Chip.isAmp (d : Chip) (t : Nat) : Bool := match muxRule (d.ctxType t) (d.parentOdu t) with | some (_, _, a) => a | none => false

/-- The state of a context that counts: its own, or on a lead that of its working copy (R97). -/
def Chip.ctxState (d : Chip) (t : Nat) (conf : Bool) : PtrSt := if conf then (d.ctx t).worst else (d.ctx t).wworst

/-- A context comes into NORM or onto a new pointer: the place of the octet that follows is known, no container has
begun, no BIP over one is held, and the next octets begin a new bale (R85, R119). -/
def Chip.ctxPhase (d : Chip) (t at_ : Nat) : Chip :=
  (d.setCtx t { d.ctx t with at_ := some at_, just := 0, skip := 0, part := none, bip1 := none, bip2 := none }).breakBale
    (d.ctxOwner t) (ctxSub t) true

/-- The pointer words of a context in a frame, confirmed or on the working copy (R97, R119); `stamp` is that of the
octet that completes them.  An adjustment waits for the justification octets. -/
def Chip.ctxPtr (d : Chip) (t : Nat) (ws : List Nat) (stamp : Nat) (conf : Bool) : Chip :=
  match ws with
  | [] => d
  | w :: rest =>
    let x := d.ctx t
    let ty := d.ctxType t
    let ss := d.ctxSs t
    let was := d.ctxState t conf
    let (p, ev) := (if conf then x.ptr else x.wptr).step (ptrMax ty) ss w
    let cs := List.zipWith (fun (c : Ptr) w => c.concStep ss w) (if conf then x.conc else x.wconc)
      (padTo (if conf then x.conc else x.wconc).length 0 rest)
    let j := if ev.inc then 1 else if ev.dec then 2 else 0
    let d1 := if conf then
        (d.setCtx t { x with ptr := p, conc := cs, wptr := p, wconc := cs, just := j }).ptrEvents t ev p.ptr stamp
      else d.setCtx t { x with wptr := p, wconc := cs, just := j }
    let now := d1.ctxState t conf
    let d2 := if ¬ conf ∧ was = .norm ∧ now ≠ .norm then (d.workLeft t).setCtx t (d1.ctx t) else d1
    let d3 := if now = .norm ∧ (was ≠ .norm ∨ ev.acc ∨ (d2.ctx t).at_.isNone) then
        let n := spanOctets ty
        d2.ctxPhase t ((n - p.ptr * justOctets ty % n) % n)
      else d2
    if conf then d3.ctxSync t else d3

/-! ## OTN justification (R116, R117) -/

/-- Bitwise majority of three. -/
def maj3 (a b c : Nat) : Nat := (a &&& b) ||| (a &&& c) ||| (b &&& c)

/-- The Cm that C1-C14 and the indicators spell, from the one before (log entry 15). -/
def gmpCm (old c : Nat) (ii di : Bool) : Nat :=
  let x := c ^^^ old
  if ii == di then c
  else if ii ∧ x = 0x1555 then (old + 1) % 2 ^ 14
  else if ii ∧ x = 0x1999 then (old + 2) % 2 ^ 14
  else if di ∧ x = 0x2AAA then (old + 2 ^ 14 - 1) % 2 ^ 14
  else if di ∧ x = 0x2666 then (old + 2 ^ 14 - 2) % 2 ^ 14
  else c

/-- CRC-8 over JC1 and JC2, and CRC-5 over the ten D bits of JC4 and JC5. -/
def jcCrc8 (a b : Nat) : Nat := crcMsb 8 0x0D 0 [BitVec.ofNat 8 a, BitVec.ofNat 8 b]
/-- CRC-5 with x⁵ + x + 1. -/
def jcCrc5 (v : Nat) : Nat :=
  (List.range 10).foldl (fun c i => let t := (c.testBit 4) != v.testBit (9 - i); ((c * 2) % 32) ^^^ (if t then 3 else 0)) 0

/-- A justification multiframe of an AMP context ends: the majority says what its NJO and PJO octets are (R116). -/
def Chip.ampJc (d : Chip) (t : Nat) (jc : Nat) (conf : Bool) : Chip :=
  let d1 := d.setCtx t { d.ctx t with just := if jc = 1 then 2 else if jc = 3 then 1 else 0 }
  if ¬ conf then d1
  else match jc with
  | 1 => d1.countHalf (R.TRB_JUST_CNT t) true
  | 3 => d1.countHalf (R.TRB_JUST_CNT t) false
  | 2 => d1.countHalf (R.TRB_ERR_CNT t) true
  | _ => d1

/-- A justification multiframe of a GMP context ends: its Cm, and the counts of R117.  `ok` says that JC1 to JC3 pass
their CRC-8. -/
def Chip.gmpJc (d : Chip) (t : Nat) (jc : List Nat) (ok conf : Bool) : Chip :=
  let j := fun i => jc.getD i 0
  let x := d.ctx t
  let ii := (j 1).testBit 1
  let di := (j 1).testBit 0
  let cm := gmpCm (if conf then x.cm else x.wcm) (j 0 * 64 + j 1 / 4) ii di
  if ¬ conf then (if ok then d.setCtx t { x with wcm := cm } else d)
  else
    let d1 := if ok then
        let y := (d.setCtx t { x with cm := cm, wcm := cm }).sf (R.TRB_GMP_TX t) 29 16 cm
        let y := if ii ∧ ¬ di then y.countHalf (R.TRB_JUST_CNT t) false else y
        let y := if di ∧ ¬ ii then y.countHalf (R.TRB_JUST_CNT t) true else y
        if cm < d.rf (R.TRB_GMP t) 13 0 ∨ d.rf (R.TRB_GMP t) 29 16 < cm then y.ctxEvent t 7 0x0407 cm else y
      else d.countHalf (R.TRB_ERR_CNT t) true
    if 6 ≤ jc.length ∧ jcCrc5 (j 3 % 32 * 32 + j 4 % 32) ≠ j 5 % 32 then d1.countHalf (R.TRB_ERR_CNT t) true else d1

/-- The justification bytes of a context in a frame (R116, R117): in ACQUIRE the first valid ones bring NORM; in
PARENT_FAIL the counts are frozen (R106).  The Cm takes effect in the multiframe that follows. -/
def Chip.ctxJc (d : Chip) (t : Nat) (jc : List Nat) (conf : Bool) : Chip :=
  if jc.isEmpty then d else
  let x := d.ctx t
  let j := fun i => jc.getD i 0
  let amp := d.isAmp t
  let maj := maj3 (j 0) (j 1) (j 2) % 4
  let ok := if amp then decide (maj ≠ 2) else decide (jcCrc8 (j 0) (j 1) = j 2 % 256)
  let st := (if conf then x.ptr else x.wptr).st
  if st ≠ .acquire ∧ st ≠ .norm then d else
  let enter := fun (p : Ptr) => if p.st = .acquire ∧ ok then p.enter .norm else p
  let d1 := d.setCtx t (if conf then { x with ptr := enter x.ptr, wptr := enter x.ptr } else { x with wptr := enter x.wptr })
  let d2 := if amp then d1.ampJc t maj conf else d1.gmpJc t jc ok conf
  let d3 := if ok ∧ (st = .acquire ∨ x.at_.isNone) then
      let y := d2.ctxPhase t 0
      y.setCtx t { y.ctx t with just := (d2.ctx t).just }
    else d2.setCtx t { d2.ctx t with at_ := (d2.ctx t).at_.map (fun _ => 0) }
  if conf then d3.ctxSync t else d3

/-! ## The overhead of a container (R83, R84, R129) -/

/-- Columns of a VC-n: octets between two path overhead bytes. -/
def vcCols (ty : Nat) : Nat :=
  match ty with
  | 7 => 35 | 8 => 26 | 5 | 6 => 85 | _ => 261 * concatX ty

/-- Octets of a container (R168). -/
def contOctets (ty : Nat) : Nat :=
  match ty with
  | 7 => 140 | 8 => 104 | 5 | 6 => 765 | 1 | 2 | 3 | 4 => 2349 * concatX ty | _ => 15296

/-- Path overhead byte of row `r` of a VC-n. -/
def poh (ty r : Nat) (u : List Byte) : Nat := octAt u ((r - 1) * vcCols ty)

/-- A BIP-2 of octets: parity of the odd and of the even bits. -/
def bip2 (v : Nat) : Nat := b2n (parity8 (v &&& 0xAA)) * 2 + b2n (parity8 (v &&& 0x55))

/-- The layer L3 block of a container. -/
def Chip.pathBlock (d : Chip) (t : Nat) (errs : Nat) : Chip :=
  let e := d.ctxOwner t
  let m := d.mon e
  if m.pmCtx = t ∧ m.pmCfg.testBit 14 then d.pmBlock e 3 (decide (errs ≠ 0)) else d

/-- A path BIP was checked: counted, and kept for the REI sent back. -/
def Chip.pathBip (d : Chip) (t errs : Nat) : Chip :=
  let e := d.ctxOwner t
  let d1 := (d.count (R.TRB_BIP_CNT t) (d.errAmount e errs)).pathBlock t errs
  d1.setCtx t { d1.ctx t with rei := errs }

/-- A label of a context has persisted (R91): UNEQ first, then PLM while UNEQ is not declared (R129). -/
def Chip.ctxLabel (d : Chip) (t v : Nat) : Chip :=
  let x := d.ctx t
  let new := x.labVal ≠ some v
  let d1 := d.setCtx t { x with labVal := some v }
  let d2 := if new then d1.ctxEvent t 8 0x0301 v else d1
  let d3 := if sdhType (d.ctxType t) then d2.defCrit (.path t 2) (some (v = 0)) else d2
  let plm := decide (v ≠ d.rf (R.TRB_PATH t) 23 16)
  d3.defCrit (.path t 6) (some (plm && !(d3.pathBits t).testBit 2))

/-- One label value arrives; it is accepted after `need` equal ones. -/
def Chip.labelSeen (d : Chip) (t need v : Nat) : Chip :=
  let x := d.ctx t
  let s := x.lab.see v
  let d1 := d.setCtx t { x with lab := s }
  if need ≤ s.n then d1.ctxLabel t v else d1

/-- The trace byte of a context, when TRACE_EN names a slot. -/
def Chip.ctxTrace (d : Chip) (t b mf : Nat) : Chip :=
  if d.rb (R.TRB_PATH t) 12 then d.ttiByte (d.ctxOwner t) (d.rf (R.TRB_PATH t) 11 0) (some t) b mf else d

/-- H4 of a VC that carries TU-1x (R106, R129). -/
def Chip.ctxH4 (d : Chip) (t v : Nat) : Chip :=
  let kids := (d.ownedCtxs (d.ctxOwner t)).any (fun u => !d.ctxTop u && decide (d.ctxParent u = t) && decide (7 ≤ d.ctxType u))
  let x := d.ctx t
  let (bad, good, oom) := mfSeq 4 x.h4 x.h4Bad x.h4Good (some x.oom) (v % 4)
  let d1 := d.setCtx t { x with h4 := some (v % 4), h4Bad := bad, h4Good := good, oom := oom = some true }
  if kids then d1.defCrit (.path t 9) (some (oom = some true)) else d1

/-- A whole high-order or TU-3 container. -/
def Chip.rxHo (d : Chip) (t : Nat) (u : List Byte) : Chip :=
  let ty := d.ctxType t
  let x := d.ctx t
  let g1 := poh ty 4 u
  let d1 := match x.bip1 with
    | some v => d.pathBip t (bipErrs 8 v (poh ty 2 u))
    | none => d.setCtx t { x with rei := 0 }
  let d2 := d1.setCtx t { d1.ctx t with bip1 := some (xorBytes u), unit0 := (d1.ctx t).unit, unit := u, units := (d1.ctx t).units + 1 }
  let d3 := d2.count (R.TRB_REI_CNT t) (d2.errAmount (d.ctxOwner t) (beiVal (g1 / 16)))
  let d4 := (d3.labelSeen t 5 (poh ty 3 u)).defRun (.path t 7) 5 (g1.testBit 3)
  let d5 := d4.ctxTrace t (poh ty 1 u) 0
  if ty = 1 ∨ ty = 5 then d5.ctxH4 t (poh ty 6 u) else d5

/-- A whole VC-1x multiframe. -/
def Chip.rxLo (d : Chip) (t : Nat) (u : List Byte) : Chip :=
  let ty := d.ctxType t
  let x := d.ctx t
  let v5 := poh ty 1 u
  let d1 := match x.bip1 with
    | some v => d.pathBip t (bipErrs 2 v (v5 / 64))
    | none => d.setCtx t { x with rei := 0 }
  let d2 := d1.setCtx t { d1.ctx t with bip1 := some (bip2 (xorBytes u)), unit0 := (d1.ctx t).unit, unit := u, units := (d1.ctx t).units + 1 }
  let d3 := d2.count (R.TRB_REI_CNT t) (b2n (v5.testBit 5))
  let d4 := (d3.labelSeen t 5 (v5 / 2 % 8)).defRun (.path t 7) 5 (v5.testBit 0)
  (d4.defRun (.path t 8) 5 (v5.testBit 4)).ctxTrace t (poh ty 2 u) 0

/-- A whole ODUj frame: PM only (R118), PT and, for a parent, MSI, each at its place in the frame's own multiframe
count (R91). -/
def Chip.rxOdu (d : Chip) (t : Nat) (u : List Byte) : Chip :=
  let x := d.ctx t
  let v := octAt u 6
  let (bad, good, oom) := mfSeq 256 x.mfLast x.h4Bad x.h4Good (some x.oom) v
  let mf := ownMf x.h4 x.mfLast (some x.oom) v
  let pm := octAt u (oduAt 3 12)
  let d1 := match x.bip2 with
    | some b => d.pathBip t (bipErrs 8 b (octAt u (oduAt 3 11)))
    | none => d.setCtx t { x with rei := 0 }
  let y := d1.ctx t
  let d2 := d1.setCtx t { y with bip2 := y.bip1, bip1 := some (bipOdu u), unit0 := y.unit, unit := u, units := y.units + 1,
                                 h4 := some mf, mfLast := some v, h4Bad := bad, h4Good := good, oom := oom = some true }
  let d3 := d2.count (R.TRB_REI_CNT t) (d2.errAmount (d.ctxOwner t) (beiVal (pm / 16)))
  let d4 := (((d3.defRun (.path t 1) 3 (decide (pm % 8 = 7))).defRun (.path t 3) 3 (decide (pm % 8 = 6))).defRun
    (.path t 4) 3 (decide (pm % 8 = 5))).defRun (.path t 7) 5 (pm.testBit 3)
  let d5 := d4.ctxTrace t (octAt u (oduAt 3 10)) mf
  let psi := octAt u (oduAt 4 15)
  if mf = 0 then d5.labelSeen t 3 psi
  else if 2 ≤ mf ∧ mf ≤ 33 then
    let z := d5.ctx t
    let s := (SMap.get Seen.init z.msi (mf - 1)).see psi
    d5.setCtx t { z with msi := SMap.put Seen.init z.msi (mf - 1) s,
                         msiAcc := if 3 ≤ s.n then SMap.insert (mf - 1) psi z.msiAcc else z.msiAcc }
  else d5

/-! ## The octets of a container (R97, R119) -/

/-- A container has come whole: confirmed, it is checked and read; on a lead only the running BIPs take part (R67). -/
def Chip.contDone (d : Chip) (t : Nat) (u : List Byte) (conf : Bool) : Chip :=
  let ty := d.ctxType t
  let x := d.ctx t
  if conf then
    (if oduType ty then d.rxOdu t u else if ty = 7 ∨ ty = 8 then d.rxLo t u else d.rxHo t u)
  else if oduType ty then d.setCtx t { x with bip2 := x.bip1, bip1 := some (bipOdu u) }
  else d.setCtx t { x with bip1 := some (if ty = 7 ∨ ty = 8 then bip2 (xorBytes u) else xorBytes u) }

/-- An octet of a container: `k` is its place, none in an ODUj whose frame is not known.  It goes to the tap, and to
the container that has begun. -/
def Chip.contOctet (d : Chip) (t : Nat) (conf poison : Bool) (k : Option Nat) (o : Byte) (stamp : Nat) : Chip :=
  let e := d.ctxOwner t
  let d1 := match d.armedRgn e (ctxSub t) with
    | some _ => if conf ∨ d.tentEn e then d.tapOne e (ctxSub t) o stamp (k.getD 0x3FFFF) (!conf) poison else d
    | none => d
  let x := d1.ctx t
  let part := if k = some 0 then some [o] else if k.isNone then none else x.part.map (· ++ [o])
  match part with
  | some l =>
    if l.length = contOctets (d.ctxType t) then (d1.setCtx t { x with part := none }).contDone t l conf
    else d1.setCtx t { x with part := part }
  | none => d1.setCtx t { x with part := none }

/-- An octet at a context's place that is neither pointer nor justification: stuff, or the container's. -/
def Chip.placeOctet (d : Chip) (t : Nat) (conf poison : Bool) (o : Byte) (stamp : Nat) : Chip :=
  let x := d.ctx t
  let ty := d.ctxType t
  match x.at_ with
  | none => d
  | some i =>
    if x.skip ≠ 0 then d.setCtx t { x with skip := x.skip - 1 }
    else if sdhType ty then
      let d1 := d.setCtx t { x with at_ := some ((i + 1) % spanOctets ty) }
      match spanAt ty i with
      | some k => d1.contOctet t conf poison (some k) o stamp
      | none => d1
    else
      let data := d.isAmp t ||
        gmpData (gmpEntities (d.parentOdu t)) (if conf then x.cm else x.wcm) (i / max 1 (ones 80 (d.ctxSlots t)))
      let d1 := d.setCtx t { x with at_ := some (i + 1), odu := if data then x.odu.map (fun (p : Nat) => (p + 1) % 15296) else x.odu }
      if data then d1.contOctet t conf poison x.odu o stamp else d1

/-- A run of octets at a context's place; a context that is not in NORM produces none (R119). -/
def Chip.placeRun (d : Chip) (t : Nat) (conf poison : Bool) (r : Nat × List Byte) : Chip :=
  if d.ctxState t conf ≠ .norm then d else
  let rate := d.lineRate (d.ctxOwner t)
  (r.2.zipIdx.foldl (fun (y : Chip) p => y.placeOctet t conf poison p.1 (octStamp rate r.1 p.2)) d)

/-- The justification opportunity of a context: its own octets carry data after a negative justification, and the
octets that follow are stuff after a positive one (R108, R116). -/
def Chip.placeJust (d : Chip) (t : Nat) (conf poison : Bool) (r : Nat × List Byte) : Chip :=
  if r.2.isEmpty then d else
  let x := d.ctx t
  let y := d.setCtx t { x with just := 0, skip := if x.just = 1 then justOctets (d.ctxType t) else 0 }
  if x.just = 2 then y.placeRun t conf poison r else y

/-- A context's part of a received frame (R97, R119). -/
def Chip.rxUnit (d : Chip) (e : Nat) (conf : Bool) (u : RxUnit) : Chip :=
  let t := u.ctx
  if ¬ d.ctxEn t ∨ d.ctxOwner t ≠ e then d else
  let run := fun (y : Chip) r => y.placeRun t conf u.poison r
  let x := d.ctx t
  -- the place in its ODUj frame, as the mapper finds it
  let d0 := if sdhType (d.ctxType t) ∨ x.odu = u.odu then d else d.setCtx t { x with odu := u.odu, part := none, bip1 := none, bip2 := none }
  let d1 := u.before.foldl run d0
  let d2 := if sdhType (d.ctxType t) then d1.ctxPtr t u.ptr u.stamp conf else d1.ctxJc t u.jc conf
  u.after.foldl run (d2.placeJust t conf u.poison u.just)

/-- The signatures of a frame for the deskew engine (R148): octets outside the transport overhead, or the
OPU. -/
def sigOctets (f : Nat) (l : List Byte) : List Byte :=
  if isSdh f then cols (270 * stmN f) (9 * stmN f + 1) (270 * stmN f) 9 l else cols 4080 15 3824 4 l

/-- The octets of an OTL group's frame reach the pattern matchers, the tap and the group that selects them: the
octet as received is that of the operand, which is descrambled, with the scrambler's own (R73, R78, R168). -/
def Chip.groupOctets (d : Chip) (e start : Nat) (conf : Bool) (bad : List Nat) (l : List Byte) : Chip :=
  let f := d.engFmt e
  let rate := d.lineRate e
  (l.zipIdx.foldl (fun (a : Chip × Nat) p =>
    let o := p.1.toNat
    let sc := if d.rb (R.HNT_CFG e) 13 then (0, a.2) else scrOctet f p.2 a.2
    let stamp := octStamp rate start p.2
    let x := (a.1.patMatch e f p.2 o stamp (!conf)).tapOctet e 0 f p.2 (o ^^^ sc.1) o stamp (!conf) (bad.contains p.2)
    (if conf then x.tapSelected e f p.2 (o ^^^ sc.1) o stamp (bad.contains p.2) else x, sc.2)) (d, 65535)).1

/-- The octets of a received frame, those of an OTU after error correction (R1; log entry 72). -/
def lineOctets (f : Nat) (l : List Byte) : List Byte :=
  let x := padTo (frameOctets f) 0 l
  if isOtn f then fecCorrect x else x

/-- A received frame of the line (R81): confirmed, it runs through overhead, mapper and defect monitor; on a
leading candidate only the running state, the working copies and the tap take part (R66, R68). -/
def Chip.rxFrame (d : Chip) (e : Nat) (fr : RxFrame) : Chip :=
  let f := d.engFmt e
  if ¬ d.engEn e ∨ d.head e ≠ e ∨ ¬ isFramed f then d else
  let l := lineOctets f fr.octets
  let conf := d.inFrame e
  let lead := if d.ganged e then (d.hunter e).groupTent else (d.hunter e).align.isSome
  if ¬ conf ∧ ¬ lead then d else
  let d1 := if ¬ conf then d else if isSdh f then d.rxSdh e (stmN f) fr.start l else d.rxOtn e fr.start l
  let d2 := if isSdh f then d1.runSdh e (stmN f) l else
    (if conf then
      let o := d.ohp e
      let m := d.mon e
      (d1.setOhp e { d1.ohp e with opu2 := o.opu1, opu1 := some (bipOpu l), mf := some (ownMf o.mf m.mfas m.oom (octAt l 6)) })
     else d1.runOtn e l)
  let d3 := if conf ∨ d.tentEn e then d2.matchers e l fr.start (!conf) else d2
  let d4 := if d.ganged e ∧ (conf ∨ d.tentEn e) then d3.groupOctets e fr.start conf fr.bad (padTo (frameOctets f) 0 fr.octets) else d3
  let d5 := fr.units.foldl (fun x u => x.rxUnit e conf u) d4
  if conf then (d5.msiEval e).parents e else d5.workParents e

/-! ## Contexts come and go (R100-R104) -/

/-- A context of an enabled engine begins in ACQUIRE (R106). -/
def Chip.ctxStart (d : Chip) (t : Nat) : Chip :=
  let x := d.ctx t
  let on := d.engEn (d.ctxOwner t)
  let p := if on then Ptr.init.enter .acquire else Ptr.init
  let cs := List.replicate (concatX (d.ctxType t) - 1) p
  d.setCtx t { Ctx.init with ptr := p, conc := cs, wptr := p, wconc := cs, txPtr := d.rf (R.TRB_TX t) 13 4,
                             src := d.rf (R.TRB_TX t) 1 0, prbs := x.prbs }

/-- Queue entries and scripts of a sub-channel end (R197). -/
def Chip.patDrop (d : Chip) (e sub : Nat) : Chip :=
  let p := d.pat e
  d.setPat e { p with queue := p.queue.filter (fun q => q.sub ≠ sub), runs := p.runs.filter (fun r => r.sub ≠ sub),
                      aborts := p.aborts.filter (· ≠ sub) }

/-- A context ends: tentative bales withdrawn, scripts stopped, defects cleared, INACTIVE (R71, R103). -/
def Chip.ctxEnd (d : Chip) (t : Nat) : Chip :=
  let e := d.ctxOwner t
  let d1 := if (d.tentSubs e).contains (ctxSub t) = true then
      d.tapWord e (SWord.mark (ctxSub t) (.retract 0x07 (d.hunter e).lastOut)) else d
  let d2 := (d1.patDrop e (ctxSub t))
  let d3 := (List.range 12).foldl (fun y b => ((y.defFlip (.path t b) false).setDefT (.path t b) DefT.init)) d2
  (d3.setCtx t Ctx.init).unflag (R.TRB_CFG t) 0

/-- The enable checks of a context on its stored fields (R100, R304). -/
def Chip.ctxEnable (d : Chip) (t : Nat) : Status × Chip :=
  if d.ctxOk t then
    let d1 := (d.flag (R.TRB_CFG t) 0).ctxStart t
    let e := d1.ctxOwner t
    (.ok, (d1.msiEval e).parents e)
  else (.badParam, d.flag (R.TRB_EVENT t) 11)

/-- A write that clears a context's ENABLE (R103). -/
def Chip.ctxDisable (d : Chip) (t : Nat) : Status × Chip :=
  if d.hasKids t then (.badParam, d.flag (R.TRB_EVENT t) 11)
  else
    let e := d.ctxOwner t
    (.ok, ((d.ctxEnd t).msiEval e).parents e)

/-- The contexts to drop when an engine is enabled: whose type no longer fits, and their descendants
(R104). -/
def Chip.unfit (d : Chip) (e : Nat) : List Nat :=
  let own := d.ownedCtxs e
  let a := own.filter (fun t => !typeFits (d.ctxType t) (d.engFmt e))
  let b := own.filter (fun t => a.contains t || (!d.ctxTop t && a.contains (d.ctxParent t)))
  own.filter (fun t => b.contains t || (!d.ctxTop t && b.contains (d.ctxParent t)))

/-- The mapper re-checks an engine's contexts at its enable (R104), and the others begin in ACQUIRE. -/
def Chip.mapStart (d : Chip) (e : Nat) : Chip :=
  let drop := d.unfit e
  let d1 := drop.reverse.foldl (fun x t => x.ctxEnd t) d
  let d2 := match drop with
    | [] => d1
    | t :: _ => (d1.flag (R.MAP_EVENT e) 1).evt e 0x0408 t 0 0
  (d2.ownedCtxs e).foldl (fun x t => x.ctxStart t) d2

/-- An engine is disabled: its contexts go to INACTIVE (R106). -/
def Chip.mapStop (d : Chip) (e : Nat) : Chip :=
  (d.ownedCtxs e).foldl (fun x t => x.setCtx t { x.ctx t with ptr := Ptr.init, conc := [], wptr := Ptr.init, wconc := [] }) d

/-- TRB_STATUS. -/
def Chip.trbStatus (d : Chip) (t : Nat) : Word :=
  let x := d.ctx t
  let lab := x.labVal.getD 0
  let slot := R.tslot_OHP_TTI_SLOT (4096 + d.rf (R.TRB_PATH t) 11 0)
  w32 (x.worst.code + (x.ptr.ptr % 1024) * 2 ^ 3 + b2n x.labVal.isSome * 2 ^ 13 + (lab % 256) * 2 ^ 14
    + b2n (x.labVal.isSome && decide (lab ≠ d.rf (R.TRB_PATH t) 23 16)) * 2 ^ 22
    + b2n (x.labVal.isSome && decide (lab = 0)) * 2 ^ 23
    + b2n (d.rb (R.TRB_PATH t) 12 && d.rb slot 8) * 2 ^ 24 + b2n x.msim * 2 ^ 25 + b2n x.seq.isSome * 2 ^ 26)

/-- MAP_STATUS. -/
def Chip.mapStatus (d : Chip) (e : Nat) : Word :=
  setFld (d.rd (R.MAP_STATUS e)) 12 0 (d.ownedCtxs e).length

/-! ## Sequence programs (R112) -/

/-- The word of a program's step `i`. -/
def Chip.seqWord (d : Chip) (t i : Nat) : Word :=
  d.rd (R.seqStep_MAP_SEQ_DATA ((d.rf (R.TRB_TX t) 23 14 + i) % 1024))

/-- SEQ_LEN; 0 means 64. -/
def Chip.seqLen (d : Chip) (t : Nat) : Nat := let n := d.rf (R.TRB_TX t) 29 24; if n = 0 then 64 else n

/-- Pointer periods before a step; 0 is treated as 1. -/
def Chip.seqWait (d : Chip) (t i : Nat) : Nat := max 1 (fld (d.seqWord t i) 31 16)

/-- SEQ_GO: the program starts at the context's next pointer period, or is refused. -/
def Chip.seqGo (d : Chip) (e t : Nat) : Chip :=
  if d.ctxEn t ∧ d.ctxOwner t = e ∧ d.rf (R.TRB_TX t) 3 2 = 2 then
    d.setCtx t { d.ctx t with seq := some ⟨0, 0, d.seqWait t 0 + 1, false⟩ }
  else d.flag (R.MAP_EVENT e) 0

/-- SEQ_STOP: the program ends after the current pointer period. -/
def Chip.seqStop (d : Chip) (e t : Nat) : Chip :=
  let x := d.ctx t
  match x.seq with
  | some s => if d.ctxOwner t = e then d.setCtx t { x with seq := some { s with stop := true } } else d
  | none => d

end Sys2Proof.Machine
end

