-- ==== Sys2Proof/Machine/Ledger.lean ====
section
/-! DEFINITION. The repair ledger (R371-R374): slots reserved, burned and read. -/

namespace Sys2Proof.Machine

/-- The source of ledger and service master events (R281). -/
def srcSvc : Nat := 0x2050

/-- A fused slot. -/
def Chip.lslot (d : Chip) (n : Nat) : LSlot := SMap.get LSlot.init d.ledger.fused n

/-- Slots burned, torn ones included. -/
def Chip.ledgerUsed (d : Chip) : Nat := d.ledger.fused.length

/-- The lowest slot neither burned nor reserved (R372). -/
def Chip.freeSlot (d : Chip) : Option Nat :=
  (List.range 48).find? (fun n => (d.lslot n).bytes.isEmpty && !(d.ledger.resv.any (fun r => r.slot = n)))

/-- The fused unit ID of GLB_UNIT. -/
def Chip.unitId (d : Chip) : Nat := d.sec.fuse.unitId

/-- Bytes 0 to 27 of a slot (R371). -/
def Resv.body (r : Resv) (unit : Nat) : List Byte :=
  beBytes 1 r.slot ++ beBytes 1 r.kind ++ beBytes 1 r.reason ++ beBytes 1 r.init ++ beBytes 8 r.time
    ++ beBytes 2 r.old ++ beBytes 2 r.new ++ beBytes 2 r.session ++ beBytes 2 unit ++ beBytes 8 0

/-- The 32 bytes of a slot: its body and CHECK. -/
def Resv.bytes (r : Resv) (unit : Nat) : List Byte := r.body unit ++ beBytes 4 (crc32 (r.body unit))

/-- LEDGER_FULL (R374). -/
def Chip.ledgerFull (d : Chip) (det : Nat) : Chip := (d.flag R.LED_EVENT 1).ev srcSvc 0x0817 det

/-- Reserves the lowest free slot for a substitution (R372). -/
def Chip.reserve (d : Chip) (kind reason init old new session : Nat) : Option (Nat × Chip) :=
  (d.freeSlot).map (fun n =>
    (n, { d with ledger := { d.ledger with
      resv := d.ledger.resv ++ [⟨n, kind, reason, init, old, new, session, d.dt, false⟩] } }))

/-- Frees the reservation of an abandoned substitution. -/
def Chip.unreserve (d : Chip) (slot : Nat) : Chip :=
  { d with ledger := { d.ledger with resv := d.ledger.resv.filter (fun r => r.slot ≠ slot) } }

/-- The substitution of a reserved slot has completed: its slot waits to be burned, one at a time, behind those that
were ready before it. -/
def Chip.burnSlot (d : Chip) (slot : Nat) : Chip :=
  let mine := (d.ledger.resv.filter (fun r => r.slot = slot)).map (fun r => { r with ready := true, time := d.dt })
  let resv := d.ledger.resv.filter (fun r => r.slot ≠ slot) ++ mine
  { d with ledger := { d.ledger with resv := resv, burn := some (d.ledger.burn.getD d.core) } }

/-- A burn lasts 1,000,000 core cycles (R372). -/
def burnTime : Nat := 1000000

/-- The running burn has ended (R372, R375): the slot is fused, WRITTEN, SUBSTITUTION with the slot, and
the next one begins. -/
def Chip.burnDone (d : Chip) : Chip :=
  match d.ledger.burn, d.ledger.resv.find? (·.ready) with
  | some t, some r =>
    if d.core < t + burnTime then d else
    let rest := d.ledger.resv.filter (fun x => x.slot ≠ r.slot)
    let next := if rest.any (·.ready) then some d.core else none
    let d1 := { d with ledger := ⟨SMap.put LSlot.init d.ledger.fused r.slot ⟨r.bytes d.unitId, false⟩, rest, next⟩ }
    let d2 := d1.flag R.LED_EVENT 0
    let d3 := if r.kind = 1 ∧ r.new ≠ 0xFFFF then d2.flag R.SVC_EVENT 7 else d2
    if r.kind ≤ 3 ∧ r.new ≠ 0xFFFF then d3.evt srcSvc 0x0A05 0xFFFF (r.session + r.reason * 2 ^ 16) (r.slot * 2 ^ 120) else d3
  | _, _ => d

/-- The four bytes of a slot that LED_SLOT`k` shows. -/
def Chip.ledgerWord (d : Chip) (slot k : Nat) : Nat := ofBytes ((padTo 32 0 (d.lslot slot).bytes).drop (4 * k) |>.take 4)

/-- A valid slot's KIND, OLD and NEW. -/
def LSlot.sub (s : LSlot) : Option (Nat × Nat × Nat) :=
  if s.torn ∨ s.bytes.length ≠ 32 then none
  else some ((s.bytes.getD 1 0).toNat, ofBytes ((s.bytes.drop 12).take 2), ofBytes ((s.bytes.drop 14).take 2))

end Sys2Proof.Machine
end

