-- ==== Sys2Proof/Machine/Yard.lean ====
section
/-! DEFINITION. The Yard and the Hayloft (R207-R230): transfers, arbitration, locks, timeouts, fences,
protection and scrub, wear and migration. -/

namespace Sys2Proof.Machine

/-! ## Ports -/

/-- Sources of Yard and stack events (R281). -/
def srcYard : Nat := 0x2000
def srcStack (s : Nat) : Nat := 0x2001 + s

/-- The fence of a master port. -/
def mKey (m : Nat) : Nat := 64 + m
/-- The default target, as YRD_ERR_HI names it. -/
def dfltPort : Nat := 0x3F

/-- A stack. -/
def Chip.stack (d : Chip) (s : Nat) : Stack := SMap.get Stack.init d.hbm s
/-- Replaces a stack. -/
def Chip.setStack (d : Chip) (s : Nat) (x : Stack) : Chip := { d with hbm := SMap.put Stack.init d.hbm s x }

/-- The target port of a transfer; the default target also takes configuration addresses in default-target
ranges (R209, R215). -/
def Chip.xferTarget (d : Chip) (a : Nat) : Nat :=
  match d.targetOf a with
  | some 32 => if (decodeAddr (a - 0x4200000000)).isSome then 32 else dfltPort
  | some p => p
  | none => dfltPort

/-- A fence refuses a request of a master to a target (R220 step 1): the port is fenced, or the master port
belongs to the fenced block. -/
def Chip.refuses (d : Chip) (m p : Nat) : Bool :=
  d.fenced p || (decide (m = 20) && d.fenced 35) || (SMap.get none d.yard.fences (mKey m)).isSome

/-- The class of a request (R207); a peer's request carries its own (0 RT, 1 CAP). -/
def classOf (m : Nat) (write : Bool) (code : Nat) : TClass :=
  if m ≤ 16 then (if write then .cap else .rt)
  else if m = 21 then .rt
  else if m = 20 then (if code = 0 then .rt else if code = 1 then .cap else .gen)
  else .gen

/-- The port whose traffic a master port carries: the spare YM23 that of the port it stands in for (R207, R223). -/
def Chip.portOf (d : Chip) (m : Nat) : Nat := if m = 23 then d.yard.mSub.getD m else m

/-- The class of a request of this Yard. -/
def Chip.classOf (d : Chip) (m : Nat) (write : Bool) (code : Nat) : TClass :=
  Sys2Proof.Machine.classOf (d.portOf m) write code

/-- The size and alignment rules of R211. -/
def sizeOk (p : Nat) (write : Bool) (a len : Nat) : Bool :=
  decide (4 ≤ len ∧ len ≤ 256) && decide (a % 256 + len ≤ 256) && decide (a % 4 = 0)
    && (if p = 32 then decide (len = 4) else if p = 33 then !write
        else if p = dfltPort ∨ !write then true else decide (a % 32 = 0 ∧ len % 32 = 0))

/-! ## ECC (R224, R225) -/

/-- Marks blocks of a range that hold an error. -/
def Mem.plant (m : Mem) (blks ces ues : List Nat) : Mem :=
  let u := blks.filter (fun b => ues.contains b && !m.ue.contains b)
  let c := blks.filter (fun b => ces.contains b && !ues.contains b && !m.ce.contains b)
  { m with ue := u ++ m.ue, ce := c ++ m.ce.filter (fun b => !u.contains b) }

/-- The blocks of a range. -/
def blocksOf (a n : Nat) : List Nat := (List.range (ceilDiv (a + n) 32 - a / 32)).map (· + a / 32)

/-- The key of a physical pseudo-channel's registers. -/
def pcIdx (s pc : Nat) : Nat := s * 32 + pc

/-- The spare pseudo-channels of a stack (R210, R228). -/
def Stack.spares (x : Stack) : List Nat :=
  (List.range 32).filter (fun m => !x.map.contains m && !x.retired.contains m
    && (match x.mig with | some g => decide (g.dest ≠ m) | none => true))

/-- The spares of a stack that no reservation names (R372). -/
def Chip.freePcs (d : Chip) (s : Nat) : List Nat :=
  (d.stack s).spares.filter (fun m => !d.ledger.resv.any (fun r => r.kind = 2 && r.new = pcIdx s m && !r.ready))

/-- A flag of a stack's HAY_EVENT with its event. -/
def Chip.hayEvent (d : Chip) (s bit_ code pc : Nat) : Chip :=
  (d.flag ⟨.stack, s, 0x108⟩ bit_).ev (srcStack s) code pc

/-- A migration of logical pseudo-channel `lpc` begins, waits for the running one, or is not started for
want of a spare or a ledger slot (R228, R229).  `slot` is a slot that a command has reserved. -/
def Chip.migStart (d : Chip) (s lpc reason : Nat) (slot : Option Nat) (dest : Option Nat) : Chip :=
  let x := d.stack s
  let pc := x.map.getD lpc 0
  match x.mig with
  | some _ => d.setStack s { x with waiting := if x.waiting.any (fun w => w.1 = pc) then x.waiting else x.waiting ++ [(pc, reason)] }
  | none =>
    match (match dest with | some m => some m | none => (d.freePcs s).head?) with
    | none => d.hayEvent s 6 0x0816 pc
    | some m =>
      match (match slot with
        | some n => some (n, d)
        | none => d.reserve 2 reason 0 (pcIdx s pc) (pcIdx s m) 0) with
      | none => ((d.flag ⟨.stack, s, 0x108⟩ 7).flag R.LED_EVENT 1).ev (srcStack s) 0x0817 pc
      | some (n, d1) =>
        (d1.setStack s { x with mig := some ⟨lpc, pc, m, 0, slot.isSome, n⟩,
                                waiting := x.waiting.filter (fun w => w.1 ≠ pc),
                                aborted := x.aborted.filter (fun w => w.1 ≠ pc) }).hayEvent
          s 3 0x0813 pc

/-- A waiting pseudo-channel's migration: for a command its slot is reserved already. -/
def Chip.migNext (d : Chip) (s pc reason : Nat) : Chip :=
  match (d.stack s).map.findIdx? (· = pc) with
  | none => d
  | some lpc =>
    match d.ledger.resv.find? (fun r => r.kind = 2 && r.old = pcIdx s pc && !r.ready) with
    | some r => d.migStart s lpc 4 (some r.slot) (some (r.new % 32))
    | none => d.migStart s lpc reason none none

/-- A pseudo-channel has passed its wear threshold (R227). -/
def Chip.wear (d : Chip) (s pc reason : Nat) : Chip :=
  let x := d.stack s
  if x.worn.contains pc then d else
  let d1 := (d.setStack s { x with worn := x.worn ++ [pc] }).hayEvent s 2 0x0812 pc
  if ¬ d.rb R.HAY_CFG 17 then d1 else
  match x.map.findIdx? (· = pc) with
  | some lpc => d1.migStart s lpc reason none none
  | none => d1

/-- A correctable error is counted in its pseudo-channel (R225, R227). -/
def Chip.ceSeen (d : Chip) (s pc : Nat) : Chip :=
  let r : RegId := ⟨.pc, pcIdx s pc, 0x120⟩
  let d1 := ((d.count ⟨.pc, pcIdx s pc, 0x11C⟩).wr r (w32 (min 0xFFFF ((d.rd r).toNat + 1)))).flag ⟨.stack, s, 0x108⟩ 0
  if d.rf R.HAY_CFG 15 0 ≤ (d1.rd r).toNat then d1.wear s pc 2 else d1

/-- An uncorrectable block is read, or found by the scrub (R225, R226). -/
def Chip.ueSeen (d : Chip) (s pc addr : Nat) (scrub : Bool) : Chip :=
  let d1 := (d.count ⟨.pc, pcIdx s pc, 0x124⟩).flag R.GLB_EVENT 5
  let d2 := if scrub then d1 else
    (d1.wr ⟨.stack, s, 0x128⟩ (w32 addr)).wr ⟨.stack, s, 0x12C⟩ (w32 (addr / 2 ^ 32 % 256 + pc * 256))
  let d3 := (d2.flag ⟨.stack, s, 0x108⟩ (if scrub then 9 else 1)).evt (srcStack s) (if scrub then 0x0811 else 0x0810)
    0xFFFF pc (addr * 2 ^ 64)
  if d.rb R.HAY_CFG 16 then d3.wear s pc 3 else d3

/-- A read of memory passes the check of its 32-byte blocks: the blocks that are poisoned, and the counts
and events (R225). -/
def Dev.eccRead (s : Dev) (a n : Nat) (ces ues : List Nat) : List Nat × Dev :=
  let blks := blocksOf a n
  let m := s.mem.plant blks ces ues
  let bad := blks.filter (fun b => m.ue.contains b)
  let c := blks.foldl (fun (d : Chip) b =>
    let addr := b * 32
    if 0x1680000000 ≤ addr then d
    else if m.ue.contains b then d.ueSeen (stackOf addr) (d.pcOf addr) addr false
    else if m.ce.contains b then d.ceSeen (stackOf addr) (d.pcOf addr)
    else d) s.chip
  (bad, ⟨c, m⟩)

/-! ## Requests (R211-R216) -/

/-- A Yard reply is sent to a master; `marks` are the 32-byte blocks of a read that are poisoned (R212). -/
def Chip.yardAns (d : Chip) (m tag : Nat) (st : Status) (data : List Byte := []) (marks : List Nat := []) : Chip :=
  d.emit (.yard m tag st data marks)

/-- The record of the last DECODE, LOCK_TIMEOUT or timeout. -/
def Chip.yardErr (d : Chip) (a m p kind : Nat) : Chip :=
  (d.wr R.YRD_ERR_LO (w32 a)).wr R.YRD_ERR_HI (w32 (a / 2 ^ 32 % 256 + m * 2 ^ 8 + p * 2 ^ 13 + kind * 2 ^ 19))

/-- Changes the Yard. -/
def Chip.setYard (d : Chip) (y : Yard) : Chip := { d with yard := y }

/-- The transaction of a master's tag. -/
def Chip.txn (d : Chip) (m tag : Nat) : Option Txn := d.yard.txns.find? (fun t => t.master = m && t.tag = tag)

/-- A tag is retired. -/
def Chip.dropTxn (d : Chip) (m tag : Nat) : Chip :=
  d.setYard { d.yard with txns := d.yard.txns.filter (fun t => ¬ (t.master = m ∧ t.tag = tag)) }

/-- A lock on a target port. -/
def Chip.lockOf (d : Chip) (p : Nat) : Option YLock := SMap.get none d.yard.locks p

/-- The target port on which a master holds its lock. -/
def Chip.lockedBy (d : Chip) (m : Nat) : Option Nat :=
  (d.yard.locks.find? (fun x => match x.2 with | some l => decide (l.master = m) | none => false)).map (·.1)

/-- A transaction waits at its target for an answer. -/
def Txn.open_ (t : Txn) : Bool := t.grant.isNone && t.done.isNone

/-- A further locked read of a holder is held at its master port, and is in no queue yet (R217). -/
def Chip.atMaster (d : Chip) (t : Txn) : Bool :=
  decide (t.kind = .lockRead) && t.open_ && (d.lockedBy t.master).isSome

/-- The oldest transaction of a master at a target: its reply comes next (R216). -/
def Chip.oldest (d : Chip) (m p : Nat) : Option Txn :=
  d.yard.txns.find? (fun x => x.master = m && x.target = p && !d.atMaster x)

/-- The replies of a target that wait for nothing any more go to the master, in the order of the requests
(R216); a delivered reply frees its tag. -/
def Chip.deliverYard (d : Chip) (m p : Nat) : Nat → Chip
  | 0 => d
  | n + 1 =>
    match d.oldest m p with
    | some t =>
      match t.done with
      | some (st, data, marks) => ((d.dropTxn m t.tag).yardAns m t.tag st data marks).deliverYard m p n
      | none => d
    | none => d

/-- A master has at most 256 tags. -/
def Chip.deliver (d : Chip) (m p : Nat) : Chip := d.deliverYard m p 256

/-- Replaces a transaction. -/
def Chip.putTxn (d : Chip) (t : Txn) : Chip :=
  d.setYard { d.yard with txns := d.yard.txns.map (fun x => if x.master = t.master ∧ x.tag = t.tag then t else x) }

/-- A target answers a transaction: the reply goes out in its turn (R212, R216). -/
def Chip.complete (d : Chip) (t : Txn) (st : Status) (data : List Byte := []) (marks : List Nat := []) : Chip :=
  (d.putTxn { t with done := some (st, data, marks) }).deliver t.master t.target

/-- A transaction is answered TARGET_RESET at once (R219, R220); a reply that waited behind it may now follow. -/
def Chip.resetTxn (d : Chip) (t : Txn) : Chip :=
  ((d.dropTxn t.master t.tag).yardAns t.master t.tag .targetReset).deliver t.master t.target

/-- A master may issue a transaction with this tag: the tag is free, and so is one of its 256 (R216). -/
def Chip.tagFree (d : Chip) (m tag : Nat) : Bool :=
  (d.txn m tag).isNone && decide ((d.yard.txns.filter (fun t => t.master = m)).length < 256)

/-- A transaction becomes outstanding. -/
def Chip.addTxn (d : Chip) (t : Txn) : Chip := d.setYard { d.yard with txns := d.yard.txns ++ [t] }

/-- A locked read names 4 to 64 bytes of one aligned 64-byte block (R217). -/
def lockSizeOk (a len : Nat) : Bool := decide (4 ≤ len ∧ len ≤ 64) && decide (a % 64 + len ≤ 64)

/-- A request joins the queue of its target, or is refused: a fenced target at once, a transfer that breaks
the size rules and a lock where none is possible in its turn (R211, R215, R217, R220). -/
def Chip.yardRequest (d : Chip) (m tag : Nat) (kind : TKind) (cls : TClass) (a len : Nat) (data : List Byte) : Chip :=
  if ¬ d.tagFree m tag then d else
  let p := d.xferTarget a
  let t : Txn := ⟨m, tag, kind, cls, a % 2 ^ 40, len, padTo len 0 data, p, d.core, none, none⟩
  if (kind = .lockRead ∧ ¬ lockSizeOk a len) ∨ ¬ sizeOk p (decide (kind = .write)) a len then (d.addTxn t).complete t .badAlign
  else if d.refuses m p then d.yardAns m tag .targetReset
  else if kind = .lockRead ∧ ¬ (p ≤ 32 ∨ p = 34 ∨ p = dfltPort) then (d.addTxn t).complete t .decodeError
  else d.addTxn t

/-- A waiting request may be granted now: the target is unlocked or locked by its master, and a further
locked read of a holder waits (R217). -/
def Chip.grantable (d : Chip) (t : Txn) : Bool :=
  t.open_ && (match d.lockOf t.target with | some l => decide (l.master = t.master) | none => true) && !d.atMaster t

/-- The first of some requests in round-robin order after the last master granted. -/
def roundRobin (last : Nat) (l : List Txn) : Option Txn :=
  l.foldl (fun (a : Option Txn) t =>
    match a with
    | none => some t
    | some b => if (t.master + 24 - last - 1) % 24 < (b.master + 24 - last - 1) % 24 then some t else a) none

/-- The request that a target port grants next (R213). -/
def Chip.chooseGrant (d : Chip) (p : Nat) : Option Txn :=
  let w := d.yard.txns.filter (fun t => t.target = p && d.grantable t)
  let last := SMap.get 0 d.yard.rr p
  let age := d.rf R.YRD_CFG 23 16 * 64
  let pick := fun (f : Txn → Bool) => roundRobin last (w.filter f)
  let aged := fun (t : Txn) => decide (t.asked + age ≤ d.core)
  match pick (fun t => t.cls = .rt) with
  | some t => some t
  | none =>
    match pick (fun t => decide (t.cls = .gen) && aged t) with
    | some t => some t
    | none =>
      match pick (fun t => t.cls = .cap) with
      | some t => some t
      | none => pick (fun t => t.cls = .gen)

/-- A grant: the port parks on its master, and a locked read locks the port (R213, R214, R217).  The
default target answers at once (R215). -/
def Chip.yardGrantTxn (d : Chip) (t : Txn) : Chip :=
  let p := t.target
  let d1 := d.setYard { d.yard with rr := SMap.put 0 d.yard.rr p t.master, parked := SMap.put 0 d.yard.parked p t.master }
  if p = dfltPort then
    let data := if t.kind = .write then [] else List.replicate t.len 0
    (((d1.yardErr t.addr t.master dfltPort 0).count R.YRD_DECODE_CNT).flag R.YRD_EVENT 0).complete
      { t with grant := some d.core } .decodeError data
  else
    let d2 := d1.putTxn { t with grant := some d.core }
    if t.kind = .lockRead then
      d2.setYard { d2.yard with locks := SMap.put none d2.yard.locks p (some ⟨t.master, t.addr, t.len, d.core⟩),
                                broken := SMap.put none d2.yard.broken t.master none }
    else d2

/-- A target port grants a waiting request, when it has one. -/
def Chip.yardGrant (d : Chip) (p : Nat) : Chip :=
  match d.chooseGrant p with
  | some t => d.yardGrantTxn t
  | none => d

/-- A lock on a port ends, and a further locked read of its holder leaves the master port for its target's
queue (R217). -/
def Chip.freeLock (d : Chip) (p m : Nat) : Chip :=
  let held := d.yard.txns.filter (fun t => t.master = m && d.atMaster t)
  let rest := d.yard.txns.filter (fun t => !(t.master = m && d.atMaster t))
  d.setYard { d.yard with locks := SMap.put none d.yard.locks p none, txns := rest ++ held }

/-- A lock ends; the holder's write-unlock will be answered `st`. -/
def Chip.breakLock (d : Chip) (p : Nat) (st : Status) : Chip :=
  match d.lockOf p with
  | some l =>
    let d1 := d.freeLock p l.master
    d1.setYard { d1.yard with broken := SMap.put none d1.yard.broken l.master (some st) }
  | none => d

/-- A locked read has come back poisoned: the lock that it took ends, if its master still holds it (R218). -/
def Chip.poisonLock (d : Chip) (t : Txn) : Chip :=
  match d.lockOf t.target with
  | some l => if l.master = t.master ∧ l.addr = t.addr ∧ l.len = t.len then d.breakLock t.target .poisoned else d
  | none => d

/-- A master may write an address (chapter 13, before R319): the Gatehouse guards the part of the shared SRAM that holds
the journal and the checkpoint slots for the active processor.  Where in the SRAM they lie the spec does not say, so
whether an address is theirs is a free value (log entry 74). -/
def Chip.mayWrite (d : Chip) (m a : Nat) : Bool :=
  decide (a < 0x4000000000) || decide (m = 17 + d.pav.active) || decide (Sys2Proof.Config.freeValue 1 (2 ^ 65 + a / 32) = 0#1)

/-- A target completes a transfer of the Hayloft, the shared SRAM, the flash or the tandem bridge; each
poisoned 32-byte block of a read is marked (R212, R216, R225). -/
def Dev.yardReply (s : Dev) (t : Txn) (ces ues : List Nat) (remote : List Byte) : Dev :=
  if t.kind = .write ∧ ¬ s.chip.mayWrite t.master t.addr then s.on (fun d => d.complete t .decodeError)
  else if t.kind = .write then
    let m := if t.target = 35 then s.mem else s.mem.store t.addr t.data
    let d := s.chip.complete t .ok
    ⟨if t.master = 20 then d.rgns.foldl (fun (x : Chip) r => x.remoteBale m r.1 t.addr t.len) d else d, m⟩
  else if t.target = 35 then ⟨s.chip.complete t .ok (padTo t.len 0 remote), s.mem⟩
  else if t.target = 33 then ⟨s.chip.complete t .ok (s.mem.rdN t.addr t.len), s.mem⟩
  else
    let (bad, s1) := s.eccRead t.addr t.len ces ues
    let st : Status := if bad.isEmpty then .ok else .poisoned
    let c := if t.kind = .lockRead ∧ !bad.isEmpty then s1.chip.poisonLock t else s1.chip
    ⟨c.complete t st (s1.mem.rdN t.addr t.len) bad, s1.mem⟩

/-! ## Locks (R217, R218) -/

/-- How a write-unlock is judged: performed, or its status. -/
def Chip.unlockJudge (d : Chip) (m a len : Nat) : Option Status :=
  match SMap.get none d.yard.broken m with
  | some st => some st
  | none =>
    match d.lockedBy m with
    | some p =>
      match d.lockOf p with
      | some l => if l.addr = a % 2 ^ 40 ∧ l.len = len then none else some .lockTimeout
      | none => some .lockTimeout
    | none => some .lockTimeout

/-- A refused write-unlock. -/
def Chip.unlockRefuse (d : Chip) (m a : Nat) (st : Status) : Chip :=
  let d1 := d.setYard { d.yard with broken := SMap.put none d.yard.broken m none }
  if st = .lockTimeout then d1.yardErr a m (d.xferTarget a) 1 else d1

/-- The lock of a master ends normally. -/
def Chip.unlock (d : Chip) (m : Nat) : Chip :=
  match d.lockedBy m with
  | some p => d.freeLock p m
  | none => d

/-- A lock may be held 4,096 core cycles (R218). -/
def lockLimit : Nat := 4096

/-- A lock still held after its limit is released by force. -/
def Chip.lockExpire (d : Chip) (p : Nat) : Chip :=
  match d.lockOf p with
  | some l =>
    if l.since + lockLimit ≤ d.core then
      (((d.breakLock p .lockTimeout).flag R.YRD_EVENT 1).count R.YRD_LOCK_TMO_CNT).yardErr l.addr l.master p 1
    else d
  | none => d

/-! ## Timeouts and fences (R219-R222) -/

/-- A write abandoned after its grant: each 32-byte block is old or new, and the spec does not say which
(R220 step 2); a free bit decides each. -/
def Dev.halfWrite (s : Dev) : Nat → Nat → List Byte → Dev
  | 0, _, _ => s
  | n + 1, a, l =>
    match l with
    | [] => s
    | _ =>
      let (b, d) := s.chip.fresh 1
      let m := if b = 1 then s.mem.store a (l.take 32) else s.mem
      (Dev.mk d m).halfWrite n (a + 32) (l.drop 32)

/-- A granted transaction is completed TARGET_RESET.  An abandoned write of the configuration space has not been
performed: R25 lets it be whole or not at all (DESIGN CHOICE, log entry 44). -/
def Dev.abandon (s : Dev) (t : Txn) : Dev :=
  let s1 := if t.kind = .write ∧ (t.target ≤ 31 ∨ t.target = 34) ∧ s.chip.mayWrite t.master t.addr then
      s.halfWrite 8 t.addr t.data else s
  s1.on (fun d => d.resetTxn t)

/-- A running migration is abandoned, by a fence or for another cause; the mapping stays (R229). -/
def Chip.migAbort (d : Chip) (s : Nat) (byFence : Bool) : Chip :=
  let x := d.stack s
  match x.mig with
  | none => d
  | some g =>
    let reason := ((d.ledger.resv.find? (fun r => r.slot = g.slot)).map (·.reason)).getD 2
    ((d.setStack s { x with mig := none, aborted := if g.cmd then x.aborted else x.aborted ++ [(g.from_, reason, byFence)] }).unreserve
      g.slot).hayEvent s 5 0x0815 g.from_

/-- A pseudo-channel of a stack lies behind a fenced port. -/
def Chip.pcFenced (d : Chip) (s pc : Nat) : Bool := d.fenced (8 * s + pc / 4)

/-- A master port belongs to the block behind a fenced port: its own fence, or the tandem bridge's target. -/
def behindFence (p m : Nat) : Bool := decide (mKey m = p ∨ (p = 35 ∧ m = 20))

/-- The ports that a fence event names, the target in [7:0] and the master in [12:8] (R282): 0x3F where it has no
target (log entry 44). -/
def fencePorts (p m : Nat) : Nat := if 64 ≤ p then dfltPort + (p - 64) * 256 else p + m * 256

/-- A port is fenced (R220 steps 1 and 3): queued requests are refused, its lock ends, ports parked on it
unpark (R214), a migration over it is abandoned. -/
def Chip.fence (d : Chip) (p m : Nat) : Chip :=
  if (SMap.get none d.yard.fences p).isSome then d else
  let d1 := d.setYard { d.yard with fences := SMap.put none d.yard.fences p (some ⟨d.core, none⟩),
                                    parked := (SMap.erase d.yard.parked p).filter (fun x => !behindFence p x.2) }
  let hit := fun (t : Txn) => t.open_ && (decide (t.target = p) || behindFence p t.master)
  let d2 := (d1.yard.txns.filter hit).foldl (fun (x : Chip) t => x.resetTxn t) d1
  let d3 := ((d2.breakLock p .targetReset).flag R.YRD_EVENT 3).ev srcYard 0x0801 (fencePorts p m)
  if p < 32 then
    match (d3.stack (p / 8)).mig with
    | some g => if g.from_ / 4 = p % 8 ∨ g.dest / 4 = p % 8 then d3.migAbort (p / 8) true else d3
    | none => d3
  else d3

/-- A transaction without a reply has timed out (R219). -/
def Dev.yardTimeout (s : Dev) (t : Txn) : Dev :=
  let s1 := s.abandon t
  s1.on (fun d =>
    let d1 := ((d.flag R.YRD_EVENT 2).count R.YRD_TIMEOUT_CNT).yardErr t.addr t.master t.target 2
    (d1.ev srcYard 0x0800 (t.target + t.master * 256)).fence t.target t.master)

/-- A transaction is overdue: TMO × 1,024 core cycles after its grant. -/
def Chip.overdue (d : Chip) (t : Txn) : Bool :=
  match t.grant with
  | some g => t.done.isNone && decide (g + d.rf R.YRD_CFG 7 0 * 1024 ≤ d.core)
  | none => false

/-- The grace of a fence and the reset of a Hayloft port, in core cycles (R220). -/
def graceTime : Nat := 10000
def portReset : Nat := 2000000

/-- The grace of a fence ends: unfinished transactions are completed TARGET_RESET and the reset runs. -/
def Dev.graceEnd (s : Dev) (p : Nat) : Dev :=
  match SMap.get none s.chip.yard.fences p with
  | some f =>
    if f.reset = none ∧ f.since + graceTime ≤ s.chip.core then
      let todo := s.chip.yard.txns.filter (fun t => t.grant.isSome && t.done.isNone && (decide (t.target = p) || behindFence p t.master))
      (todo.foldl (fun x t => x.abandon t) s).on (fun d =>
        d.setYard { d.yard with fences := SMap.put none d.yard.fences p (some ⟨f.since, some d.core⟩) })
    else s
  | none => s

/-- The code of a port in the ledger: a master's number, or 0x100 plus a target's (R371). -/
def portCode (p : Nat) : Nat := if 64 ≤ p then p - 64 else 0x100 + p

/-- A spare port stands in for a failed one from the end of its fence (R223). -/
def Chip.portSub (d : Chip) (p : Nat) : Chip :=
  match d.ledger.resv.find? (fun r => r.kind = 3 && r.old = portCode p && !r.ready) with
  | none => d
  | some r =>
    let y := if 64 ≤ p then { d.yard with mSub := some (p - 64) }
      else { d.yard with tSub := SMap.put none d.yard.tSub (r.new % 0x100) (some p) }
    (((d.setYard y).flag R.YRD_EVENT 5).ev srcYard 0x0803 (fencePorts p 0x1F)).burnSlot r.slot

/-- The fence of a port lifts: FENCE_END, pending bales are tried again, migrations that the fence
abandoned start again (R220 step 6, R222, R229). -/
def Dev.fenceEnd (s : Dev) (p : Nat) : Dev :=
  match SMap.get none s.chip.yard.fences p with
  | some ⟨_, some t⟩ =>
    if (p < 40 ∧ s.chip.core < t + portReset) ∨ (64 ≤ p ∧ s.chip.pwr.off.contains (p - 64)) then s else
    let s1 := s.on (fun d =>
      let d1 := (d.setYard { d.yard with fences := SMap.put none d.yard.fences p none }).portSub p
      (d1.flag R.YRD_EVENT 4).ev srcYard 0x0802 (fencePorts p 0x1F))
    let s2 := s1.chip.rgns.foldl (fun (x : Dev) r => x.settle r.1) s1
    if p < 32 then
      s2.on (fun d => ((d.stack (p / 8)).aborted.filter (fun w => w.2.2)).foldl (fun (x : Chip) w => x.migNext (p / 8) w.1 w.2.1) d)
    else s2
  | _ => s

/-- A master port's block is reset (R221): granted writes are performed, the rest is dropped, its lock
ends, every tag is free, and ports parked on it unpark (R214).  A write-unlock still to come is answered
TARGET_RESET (R218). -/
def Dev.masterReset (s : Dev) (m : Nat) : Dev :=
  let mine := s.chip.yard.txns.filter (fun t => t.master = m)
  let s1 := mine.foldl (fun (x : Dev) t =>
    if t.kind = .write ∧ t.grant.isSome ∧ t.done.isNone ∧ (t.target ≤ 31 ∨ t.target = 34) ∧ s.chip.mayWrite m t.addr then
      { x with mem := x.mem.store t.addr t.data } else x) s
  s1.on (fun d =>
    let d1 := match d.lockedBy m with | some p => d.breakLock p .targetReset | none => d
    d1.setYard { d1.yard with txns := d1.yard.txns.filter (fun t => t.master ≠ m),
                              parked := d1.yard.parked.filter (fun x => x.2 ≠ m) })

/-! ## Scrub, wear, migration (R226-R229) -/

/-- The Yard address of byte `b` of a logical pseudo-channel of a stack (R210). -/
def lpcAddr (s lpc b : Nat) : Nat := s * 0x5A0000000 + (b / 512 * 30 + lpc) * 512 + b % 512

/-- The scrub reads a granule's block of one pseudo-channel (R226): `blk` counts 32-byte blocks of the
pseudo-channel, and `err` is 0 for none, 1 for a correctable error, 2 for an uncorrectable one.  A block in
use also holds the errors of memory, a correctable one is corrected, and the scrub's position moves on. -/
def Dev.scrubBlock (s : Dev) (st pc blk err : Nat) : Dev :=
  let x := s.chip.stack st
  let a := (x.map.findIdx? (· = pc)).map (fun l => lpcAddr st l (blk * 32) / 32)
  let mem := match a with
    | some b => s.mem.plant [b] (if err = 1 then [b] else []) (if err = 2 then [b] else [])
    | none => s.mem
  let ue := match a with | some b => mem.ue.contains b | none => decide (err = 2)
  let ce := match a with | some b => mem.ce.contains b | none => decide (err = 1)
  let fixed := match a with | some b => { mem with ce := mem.ce.filter (· ≠ b) } | none => mem
  let d := s.chip.wr ⟨.stack, st, 0x114⟩ (w32 (blk / 16))
  let d1 :=
    if ue then
      let y := d.ueSeen st pc (match a with | some b => b * 32 | none => 0) true
      match x.mig with
      | some g => if g.dest = pc ∧ blk / 16 < g.pos then y.migAbort st false else y
      | none => y
    else if ce then d.ceSeen st pc
    else d
  ⟨d1, fixed⟩

/-- A scrub pass of a stack completes (R227, R229): counts restart, PASS counts, and an abandoned migration
for wear starts again. -/
def Chip.scrubPassEnd (d : Chip) (s : Nat) : Chip :=
  let r : RegId := ⟨.stack, s, 0x110⟩
  let d1 := (List.range 32).foldl (fun (x : Chip) pc => x.wr ⟨.pc, pcIdx s pc, 0x120⟩ 0) d
  let d2 := ((d1.sf r 31 16 (d1.rf r 31 16 + 1)).wr ⟨.stack, s, 0x114⟩ 0).flag ⟨.stack, s, 0x108⟩ 8
  (d2.stack s).aborted.foldl (fun (x : Chip) w => x.migNext s w.1 w.2.1) d2

/-- Granules of one pseudo-channel. -/
def pcGranules : Nat := 1572864

/-- The service master copies the next granule (R228 step 1). -/
def Chip.migCopy (d : Chip) (s : Nat) : Chip :=
  let x := d.stack s
  match x.mig with
  | some g => if g.pos < pcGranules then d.setStack s { x with mig := some { g with pos := g.pos + 1 } } else d
  | none => d

/-- The last granule is copied: the logical pseudo-channel switches to its destination, the source is
retired, the ledger records the move, and a waiting migration begins (R228 steps 5 and 6, R229).  Behind a fenced port
it is abandoned instead. -/
def Chip.migComplete (d : Chip) (s : Nat) : Chip :=
  let x := d.stack s
  match x.mig with
  | some g =>
    if g.pos < pcGranules then d
    else if d.pcFenced s g.from_ || d.pcFenced s g.dest then d.migAbort s true
    else
    let y := { x with mig := none, map := setAt x.map g.lpc g.dest, retired := x.retired ++ [g.from_] }
    let d1 := ((d.setStack s y).hayEvent s 4 0x0814 g.from_).burnSlot g.slot
    match x.waiting with
    | w :: _ => (d1.setStack s { d1.stack s with waiting := x.waiting.drop 1 }).migNext s w.1 w.2
    | [] => d1
  | none => d

/-! ## Registers computed from this state -/

/-- YRD_PORT_STATUS of the port that YRD_PORT_IDX names. -/
def Chip.portStatus (d : Chip) : Word :=
  let n := d.rf R.YRD_PORT_IDX 5 0
  if d.rb R.YRD_PORT_IDX 8 then
    let q := (d.yard.txns.filter (fun t => t.target = n && t.open_ && !d.atMaster t)).length
    let lk := match d.lockOf n with | some l => 2 ^ 9 + l.master * 2 ^ 10 | none => 0
    let sub := d.yard.tSub.any (fun x => decide (x.2 = some n))
    w32 (min q 511 + lk + b2n (d.fenced n) * 2 ^ 16 + b2n sub * 2 ^ 17 + SMap.get 0 d.yard.parked n % 32 * 2 ^ 18)
  else
    let q := (d.yard.txns.filter (fun t => t.master = n)).length
    let lk := match d.lockedBy n with | some p => 2 ^ 9 + p * 2 ^ 10 | none => 0
    w32 (min q 511 + lk + b2n ((SMap.get none d.yard.fences (mKey n)).isSome) * 2 ^ 16
      + b2n (decide (d.yard.mSub = some n)) * 2 ^ 17)

/-- HAY_STATUS of a stack. -/
def Chip.hayStatus (d : Chip) (s : Nat) : Word :=
  let x := d.stack s
  let f := (List.range 8).foldl (fun a k => if d.fenced (8 * s + k) then a + 2 ^ k else a) 0
  w32 (b2n x.ready + b2n x.mig.isSome * 2 + min 3 x.spares.length * 4 + f * 2 ^ 16)

/-- HAY_PC_STATUS of a physical pseudo-channel. -/
def Chip.pcStatus (d : Chip) (s pc : Nat) : Word :=
  let x := d.stack s
  let w := b2n (x.worn.contains pc) * 2 ^ 7
  match x.map.findIdx? (· = pc) with
  | some l => w32 (l * 4 + w)
  | none =>
    let dest := match x.mig with | some g => decide (g.dest = pc) | none => false
    w32 ((if dest then 3 else if x.retired.contains pc then 2 else 1) + w)

/-- HAY_MIG and HAY_MIG_POS of a stack. -/
def Chip.migWord (d : Chip) (s : Nat) : Word :=
  match (d.stack s).mig with
  | some g => w32 (g.lpc + g.from_ * 2 ^ 5 + g.dest * 2 ^ 10 + b2n g.cmd * 2 ^ 15)
  | none => 0
def Chip.migPos (d : Chip) (s : Nat) : Word :=
  match (d.stack s).mig with
  | some g => w32 g.pos
  | none => 0

end Sys2Proof.Machine
end

