-- ==== Sys2Proof/Machine/Pattern.lean ====
section
/-! DEFINITION. Pattern regions, scripts, queues, launches and injections (R186-R206). -/

namespace Sys2Proof.Machine

/-! ## Fields of a script in memory (R191, R192, R194) -/

/-- `n` bytes of memory as one big-endian number (R8). -/
def Mem.be (m : Mem) (a n : Nat) : Nat := ofBytes (m.rdN a n)

/-- The script header of R191. -/
structure SHdr where
  raw   : Bool
  segs  : Nat
  fmt   : Nat
  ty    : Nat
  loop  : Nat
  bytes : Nat
deriving DecidableEq, Repr

/-- The header of the script at an address. -/
def Mem.shdr (m : Mem) (a : Nat) : SHdr :=
  ⟨(m.be (a + 3) 1).testBit 0, m.be (a + 4) 2, m.be (a + 6) 1, m.be (a + 7) 1, m.be (a + 8) 4, m.be (a + 12) 8⟩

/-- Body octets per frame of a line format or of a container (R193). -/
def bodyPer (fmt ty : Nat) : Nat :=
  match ty with
  | 0 => if isSdh fmt then 2349 * stmN fmt else 15232
  | 1 | 2 | 3 | 4 => 2340 * concatX ty
  | 5 | 6 => 756
  | 7 => 136
  | 8 => 100
  | _ => 15232

/-- Octets padded to whole 32-byte blocks. -/
def pad32 (n : Nat) : Nat := ceilDiv n 32 * 32

/-- A segment (R192): `at_` is the address of its header, `body` the stored octets with their padding. -/
structure Seg where
  at_    : Nat
  len    : Nat
  rep    : Nat
  edits  : Nat
  fill   : Nat
  flags  : Nat
  launch : Nat
  body   : Nat
deriving DecidableEq, Repr

/-- The segment whose header is at an address. -/
def Mem.seg (m : Mem) (h : SHdr) (a : Nat) : Seg :=
  let len := m.be a 4
  let fill := m.be (a + 10) 1
  ⟨a, len, m.be (a + 4) 4, m.be (a + 8) 2, fill, m.be (a + 11) 1, m.be (a + 14) 6,
    if fill = 0 then pad32 (if h.raw then len else len * bodyPer h.fmt h.ty) else 0⟩

/-- A segment's flags. -/
def Seg.timed (g : Seg) : Bool := g.flags.testBit 0
def Seg.fstart (g : Seg) : Bool := g.flags.testBit 1
def Seg.prbsReset (g : Seg) : Bool := g.flags.testBit 2
/-- The address after a segment. -/
def Seg.next (g : Seg) : Nat := g.at_ + 32 + g.body + 16 * g.edits
/-- Frames in one repetition; a raw repetition is one frame. -/
def Seg.frames (h : SHdr) (g : Seg) : Nat := if h.raw then 1 else g.len
/-- Body octets in one frame. -/
def Seg.per (h : SHdr) (g : Seg) : Nat := if h.raw then g.len else bodyPer h.fmt h.ty

/-- An edit record (R194). -/
structure Edit where
  kind  : Nat
  len   : Nat
  every : Nat
  frame : Nat
  tgt   : Nat
  val   : Nat
deriving DecidableEq, Repr

/-- The edit record at an address. -/
def Mem.edit (m : Mem) (a : Nat) : Edit :=
  ⟨m.be a 1, m.be (a + 1) 1, m.be (a + 2) 2, m.be (a + 4) 4, m.be (a + 8) 4, m.be (a + 12) 4⟩

/-- The edit records of a segment. -/
def Mem.edits (m : Mem) (g : Seg) : List Edit := (List.range g.edits).map (fun i => m.edit (g.at_ + 32 + g.body + 16 * i))

/-! ## Overhead targets (R92, R194) -/

/-- A row and column are a byte of the context overhead of a type: of `0` (a line), of any type of the
format. -/
def ctxByteOk (fmt ty row col : Nat) : Bool :=
  match ty with
  | 0 => if isSdh fmt then decide (1 ≤ row ∧ row ≤ 9 ∧ col = 1) else decide (2 ≤ row ∧ row ≤ 4 ∧ 1 ≤ col ∧ col ≤ 16)
  | 7 | 8 => decide (1 ≤ row ∧ row ≤ 4 ∧ col = 1)
  | 1 | 2 | 3 | 4 | 5 | 6 => decide (1 ≤ row ∧ row ≤ 9 ∧ col = 1)
  | _ => decide (2 ≤ row ∧ row ≤ 4 ∧ 1 ≤ col ∧ col ≤ 16)

/-- A row and column are a transport overhead byte of a format. -/
def tohByteOk (fmt row col : Nat) : Bool :=
  if isSdh fmt then decide (1 ≤ row ∧ row ≤ 9 ∧ 1 ≤ col ∧ col ≤ 9 * stmN fmt)
  else if isOtn fmt then decide (1 ≤ row ∧ row ≤ 4 ∧ 1 ≤ col ∧ col ≤ 16) else false

/-- The fields of an overhead target: row, column, space, context. -/
def tgtRow (t : Nat) : Nat := t % 16
def tgtCol (t : Nat) : Nat := t / 16 % 1024
def tgtSpace (t : Nat) : Bool := t.testBit 14
def tgtCtx (t : Nat) : Nat := t / 2 ^ 16 % 2 ^ 14

/-- An overhead target names a byte of a script's FORMAT and TYPE (log entry 17). -/
def ohTargetOk (fmt ty t : Nat) : Bool :=
  if tgtSpace t then ctxByteOk fmt ty (tgtRow t) (tgtCol t)
  else decide (ty = 0) && tohByteOk fmt (tgtRow t) (tgtCol t)

/-- A record passes the checks of R194 in a segment of `per` body octets a frame. -/
def Edit.ok (fmt ty : Nat) (raw : Bool) (per frames : Nat) (x : Edit) : Bool :=
  decide (x.frame < frames) &&
    (match x.kind with
    | 1 | 2 => !raw && decide (x.len = 0) && ohTargetOk fmt ty x.tgt
    | 3 => !raw && decide (x.len = 0) && decide (x.tgt < 2 ^ 14)
    | 4 | 5 => decide (1 ≤ x.len ∧ x.len ≤ 4) && decide (x.tgt < per)
    | _ => false)

/-- Frames of the records do not decrease. -/
def framesRise : List Edit → Bool
  | a :: b :: l => decide (a.frame ≤ b.frame) && framesRise (b :: l)
  | _ => true

/-- A segment passes its checks (R192, R194). -/
def Mem.segOk (m : Mem) (h : SHdr) (g : Seg) : Bool :=
  decide (1 ≤ g.len) && (if h.raw then decide (g.len % 4 = 0) else decide (g.len ≤ 16777215))
    && decide (g.fill ≤ 3) && decide (g.flags < 8) && (!h.raw || !g.flags.testBit 1)
    && decide (m.be (g.at_ + 12) 2 = 0) && decide (m.be (g.at_ + 20) 12 = 0)
    && (m.edits g).all (Edit.ok h.fmt h.ty h.raw (g.per h) (g.frames h)) && framesRise (m.edits g)

/-- The segments from an address on pass, and end within `last`; the address after them. -/
def Mem.segsOk (m : Mem) (h : SHdr) (last : Nat) : Nat → Nat → Option Nat
  | 0, a => some a
  | n + 1, a =>
    if last < a + 32 then none
    else
      let g := m.seg h a
      if last < g.next then none else if m.segOk h g then m.segsOk h last n g.next else none

/-- The validation of a script in a region of `span` bytes (R190-R194). -/
def Mem.scriptOk (m : Mem) (a span : Nat) : Bool :=
  let h := m.shdr a
  decide (m.be a 2 = 0x5053) && decide (m.be (a + 2) 1 = 1) && decide (m.be (a + 3) 1 < 2)
    && decide (1 ≤ h.segs ∧ h.segs ≤ 4096) && decide (h.bytes ≤ span)
    && (if h.raw then decide (h.fmt = 0xF ∧ h.ty = 0) else isFramed h.fmt && decide (h.ty ≤ 0xE)
          && (decide (h.ty = 0) || typeFits h.ty h.fmt))
    && decide (m.be (a + 20) 8 = 0)
    && decide (m.segsOk h (a + h.bytes) h.segs (a + 32) = some (a + h.bytes))
    && decide (m.be (a + 28) 4 = crc32 (m.rdN a 28 ++ m.rdN (a + 32) (h.bytes - 32)))

/-! ## Regions (R189, R190) -/

/-- The first byte and the bytes of a pattern region. -/
def Chip.prgnAt (d : Chip) (r : Nat) : Nat := d.rf (R.prgn_PAT_RGN_BASE r) 20 0 * 65536
def Chip.prgnSpan (d : Chip) (r : Nat) : Nat := d.rf (R.prgn_PAT_RGN_SIZE r) 20 0 * 65536
/-- ENABLE and LOADED of a pattern region. -/
def Chip.prgnEn (d : Chip) (r : Nat) : Bool := d.rb (R.prgn_PAT_RGN_CFG r) 0
def Chip.prgnLoaded (d : Chip) (r : Nat) : Bool := d.rb (R.prgn_PAT_RGN_CFG r) 1

/-- IN_USE: a queue entry names the region or a script from it runs. -/
def Chip.prgnUsed (d : Chip) (r : Nat) : Bool :=
  d.pats.any (fun x => x.2.queue.any (fun q => q.rgn = r) || x.2.runs.any (fun q => q.rgn = r))

/-- Every stack that a range of 64 KiB units touches is ready (R383). -/
def Chip.stacksReady (d : Chip) (base size : Nat) : Bool :=
  (List.range 4).all (fun s =>
    (d.stack s).ready || !decide (base < 368640 * (s + 1) ∧ 368640 * s < base + size ∧ size ≠ 0))

/-- The region's BASE and SIZE in 64 KiB units. -/
def Chip.prgnUnits (d : Chip) (r : Nat) : Nat × Nat :=
  (d.rf (R.prgn_PAT_RGN_BASE r) 20 0, d.rf (R.prgn_PAT_RGN_SIZE r) 20 0)

/-- The checks of R189. -/
def Chip.prgnOk (d : Chip) (r : Nat) : Bool :=
  let (b, n) := d.prgnUnits r
  decide (1 ≤ n) && decide (b + n ≤ 1474560) &&
    (List.range 1024).all (fun q => q = r || !d.prgnEn q ||
      !decide (b < (d.prgnUnits q).1 + (d.prgnUnits q).2 ∧ (d.prgnUnits q).1 < b + n))

/-- A write that sets ENABLE of a pattern region, through engine window `e`. -/
def Chip.prgnEnable (d : Chip) (e r : Nat) : Status × Chip :=
  let (b, n) := d.prgnUnits r
  if ¬ d.stacksReady b n then (.notReady, d)
  else if d.prgnOk r then (.ok, d.flag (R.prgn_PAT_RGN_CFG r) 0)
  else (.badParam, (d.unflag (R.prgn_PAT_RGN_CFG r) 0).flag (R.PAT_EVENT e) 9)

/-- A write that clears ENABLE of a pattern region: refused while IN_USE (R190). -/
def Chip.prgnDisable (d : Chip) (e r : Nat) : Status × Chip :=
  if d.prgnUsed r then (.busy, (d.flag (R.prgn_PAT_RGN_CFG r) 0).flag (R.PAT_EVENT e) 9)
  else (.ok, d.unflag (R.prgn_PAT_RGN_CFG r) 0)

/-- A range is behind a fenced stack port. -/
def Chip.rangeFenced (d : Chip) (a n : Nat) : Bool :=
  (List.range (ceilDiv (a + n) 512 - a / 512)).any (fun k =>
    match d.targetOf ((a / 512 + k) * 512) with
    | some p => d.fenced p
    | none => true)

/-- PATTERN_LOAD (R190): the status, LOADED, and the bytes in the region. -/
def Dev.patLoad (s : Dev) (r off : Nat) (data : List Byte) (complete : Bool) : Status × Dev :=
  let d := s.chip
  if 1024 ≤ r ∨ ¬ d.prgnEn r then (.badParam, s)
  else if d.prgnUsed r then (.busy, s)
  else if d.prgnSpan r < off + data.length then (.badParam, s)
  else if d.rangeFenced (d.prgnAt r + off) data.length then (.targetReset, s)
  else
    let d1 := d.unflag (R.prgn_PAT_RGN_CFG r) 1
    let m := s.mem.store (d.prgnAt r + off) data
    if ¬ complete then (.ok, ⟨d1, m⟩)
    else if m.scriptOk (d.prgnAt r) (d.prgnSpan r) then (.ok, ⟨d1.flag (R.prgn_PAT_RGN_CFG r) 1, m⟩)
    else (.badParam, ⟨d1, m⟩)

/-! ## Queues (R196, R197) -/

/-- The signed short-time difference from `a` to `b`. -/
def shortDiff (a b : Nat) : Int := sgn 48 ((b % 2 ^ 48 + 2 ^ 48 - a % 2 ^ 48) % 2 ^ 48)

/-- The context of an event about a sub-channel, and a pattern event with its flag. -/
def Chip.patEvent (d : Chip) (e bit_ code sub det ext : Nat) : Chip :=
  (d.flag (R.PAT_EVENT e) bit_).evt e code (subCtx sub) det ext

/-- Tributary sub-channels of an engine that carry pattern. -/
def Pat.tribs (p : Pat) : List Nat := ((p.queue.map (·.sub) ++ p.runs.map (·.sub)).filter (· ≠ 0)).eraseDups

/-- The checks of a push, in the order of R196's table: a status, and whether CFG_ERR or TIME_PAST sets. -/
def Dev.pushCheck (s : Dev) (e rgn sub : Nat) (time : Option Nat) (fstart : Bool) : Option (Status × Option Nat) :=
  let d := s.chip
  let p := d.pat e
  let fmt := d.engFmt e
  let h := s.mem.shdr (d.prgnAt rgn)
  let t := sub - 0x8000
  let last := ((p.queue.filter (fun q => q.sub = sub)).filterMap (·.time)).getLast?
  if ¬ d.engEn e then some (.notPermitted, none)
  else if sub = 0 ∧ d.rb (R.PAT_CFG e) 0 then some (.notPermitted, none)
  else if 1024 ≤ rgn ∨ ¬ d.prgnEn rgn ∨ ¬ d.prgnLoaded rgn then some (.badParam, some 9)
  else if sub ≠ 0 ∧ ¬ (0x8000 ≤ sub ∧ sub < 0xC000 ∧ d.ctxEn t ∧ d.ctxOwner t = e ∧ d.rf (R.TRB_TX t) 1 0 = 1) then
    some (.badParam, some 9)
  else if ¬ h.raw ∧ (h.fmt ≠ fmt ∨ fmt = 0xF) then some (.badParam, some 9)
  else if (sub = 0 ∧ h.ty ≠ 0) ∨ (sub ≠ 0 ∧ h.ty ≠ d.ctxType t) then some (.badParam, some 9)
  else if fstart ∧ h.raw then some (.badParam, some 9)
  else if sub ≠ 0 ∧ ¬ p.tribs.contains sub ∧ 64 ≤ p.tribs.length then some (.badParam, some 9)
  else if 64 ≤ p.queue.length then some (.busy, none)
  else
    match time with
    | none => none
    | some w =>
      if shortDiff d.dt w < 0 then some (.tooLate, some 10)
      else match last with
        | some l => if shortDiff l w < 0 then some (.badParam, some 9) else none
        | none => none

/-- A push of a queue entry: refused with the status of its failed check, or queued (R196). -/
def Dev.patPush (s : Dev) (e rgn sub : Nat) (time : Option Nat) (fstart : Bool) : Status × Chip :=
  let d := s.chip
  match s.pushCheck e rgn sub time fstart with
  | some (st, some b) => (st, d.flag (R.PAT_EVENT e) b)
  | some (st, none) => (st, d)
  | none =>
    let p := d.pat e
    (.ok, d.setPat e { p with queue := p.queue ++ [⟨rgn, sub, time, fstart && time.isSome, false, false, false⟩] })

/-- FLUSH: every entry of a sub-channel that has not launched is discarded. -/
def Chip.patFlush (d : Chip) (e sub : Nat) : Chip :=
  let p := d.pat e
  d.setPat e { p with queue := p.queue.filter (fun q => q.sub ≠ sub) }

/-- ABORT: as FLUSH, and the running script stops at its next frame start. -/
def Chip.patAbort (d : Chip) (e sub : Nat) : Chip :=
  let d1 := d.patFlush e sub
  let p := d1.pat e
  if p.runs.any (fun r => r.sub = sub) ∧ ¬ p.aborts.contains sub then d1.setPat e { p with aborts := p.aborts ++ [sub] } else d1

/-- Disabling an engine stops every script and discards every entry, and ends its injection. -/
def Chip.patStop (d : Chip) (e : Nat) : Chip :=
  let p := d.pat e
  d.setPat e { p with queue := [], runs := [], aborts := [], inj := none, store := [], lastFr := [] }

/-- The queue head of a sub-channel, which the controller fetches (R201). -/
def Pat.headOf (p : Pat) (sub : Nat) : Option QEntry := p.queue.find? (fun q => q.sub = sub)

/-- Replaces the queue head of a sub-channel. -/
def setHead (sub : Nat) (x : QEntry) : List QEntry → List QEntry
  | [] => []
  | q :: l => if q.sub = sub then x :: l else q :: setHead sub x l

/-- The head's first segment and edits are in the prefetch buffer (R201). -/
def Chip.entryReady (d : Chip) (e sub : Nat) : Chip :=
  let p := d.pat e
  match p.headOf sub with
  | some q => d.setPat e { p with queue := setHead sub { q with ready := true } p.queue }
  | none => d

/-! ## Running scripts -/

/-- The header and the current segment of a running script. -/
def Dev.runHdr (s : Dev) (r : Run') : SHdr := s.mem.shdr (s.chip.prgnAt r.rgn)
def Dev.runSeg (s : Dev) (r : Run') : Seg := s.mem.seg (s.runHdr r) (s.chip.prgnAt r.rgn + r.segOff)

/-- Replaces or removes the running script of a sub-channel. -/
def Chip.setRun (d : Chip) (e sub : Nat) (r : Option Run') : Chip :=
  let p := d.pat e
  let others := p.runs.filter (fun x => x.sub ≠ sub)
  d.setPat e { p with runs := match r with | some x => others ++ [x] | none => others,
                      aborts := if r.isNone then p.aborts.filter (· ≠ sub) else p.aborts }

/-- The running script of a sub-channel. -/
def Chip.runOf (d : Chip) (e sub : Nat) : Option Run' := (d.pat e).runs.find? (fun r => r.sub = sub)

/-- The word period of a lane in ticks, rounded up. -/
def wordTicks (rate : Nat) : Nat := if rate = 0 then 0 else ceilDiv (128000000) rate

/-- A frame period of a format in ticks, rounded up. -/
def frameTicks (f rate : Nat) : Nat := if rate = 0 then 0 else ceilDiv (frameOctets f * 32000000) rate

/-- How long after its launch time a launch at its own launch point may start: a word, a frame for
FRAME_START = 1, or a container of a tributary, 125 µs or 500 µs (R193, R198, R199). -/
def Chip.launchSlack (d : Chip) (e sub : Nat) (fstart : Bool) : Int :=
  let frame := if sub = 0 then (if fstart then frameTicks (d.engFmt e) (d.engRate e) else 0)
    else if decide (d.ctxType (sub - 0x8000) = 7) || decide (d.ctxType (sub - 0x8000) = 8) then 2000000 else 500000
  ((wordTicks (d.engRate e) + frame : Nat) : Int)

/-- A segment is reached at time `now`: it starts, waits for its launch time, or starts LATE (R200). -/
def Dev.enterSeg (s : Dev) (e now : Nat) (r0 : Run') (g : Seg) : Dev :=
  let r := { r0 with since := now }
  if g.timed ∧ r.seg ≠ 0 then
    let diff := shortDiff now g.launch
    if 0 < diff then s.on (fun d => d.setRun e r.sub (some { r with wait := true }))
    else if -diff ≤ s.chip.launchSlack e r.sub g.fstart then s.on (fun d => d.setRun e r.sub (some r))
    else s.on (fun d => (d.setRun e r.sub (some r)).patEvent e 1 0x0701 r.sub r.rgn 0)
  else s.on (fun d => d.setRun e r.sub (some r))

/-- The frame of a running script that was being sent has ended: the next frame, repetition, segment or
pass, or the script is DONE (R202). -/
def Dev.runAdvance (s : Dev) (e now : Nat) (r : Run') : Dev :=
  if ¬ r.live then s else
  let h := s.runHdr r
  let g := s.runSeg r
  let base := s.chip.prgnAt r.rgn
  let r := { r with live := false }
  if r.frame + 1 < g.frames h then s.on (fun d => d.setRun e r.sub (some { r with frame := r.frame + 1 }))
  else if g.rep = 0 ∨ r.rep + 1 < g.rep then s.on (fun d => d.setRun e r.sub (some { r with frame := 0, rep := r.rep + 1 }))
  else if r.seg + 1 < h.segs then
    let r1 := { r with frame := 0, rep := 0, seg := r.seg + 1, segOff := g.next - base }
    s.enterSeg e now r1 (s.runSeg r1)
  else if h.loop = 0 ∨ r.pass + 1 < h.loop then
    let r1 := { r with frame := 0, rep := 0, seg := 0, segOff := 32, pass := r.pass + 1 }
    s.enterSeg e now r1 (s.runSeg r1)
  else s.on (fun d => (d.setRun e r.sub none).patEvent e 4 0x0704 r.sub r.rgn 0)

/-- The frame in progress of a sub-channel ends, and an ABORT takes effect (R197, R202). -/
def Dev.frameEnd (s : Dev) (e sub now : Nat) : Dev :=
  let s1 := match s.chip.runOf e sub with
    | some r => s.runAdvance e now r
    | none => s
  if (s1.chip.pat e).aborts.contains sub then s1.on (fun d => d.setRun e sub none) else s1

/-! ## Launch (R198-R202) -/

/-- Counts a launch and a late launch in PAT_CNT. -/
def Chip.countLaunch (d : Chip) (e : Nat) (late : Bool) : Chip :=
  let d1 := d.sf (R.PAT_CNT e) 15 0 (min 0xFFFF (d.rf (R.PAT_CNT e) 15 0 + 1))
  if late then d1.sf (R.PAT_CNT e) 31 16 (min 0xFFFF (d1.rf (R.PAT_CNT e) 31 16 + 1)) else d1

/-- A script starts with its launch word at `t` (R202); one whose header or edit records are poisoned stops at its
first frame start (R205). -/
def Chip.launch (d : Chip) (e : Nat) (q : QEntry) (t : Nat) (late : Bool) : Chip :=
  let p := d.pat e
  let d1 := (d.setPat e { p with queue := p.queue.filter (fun x => x.sub ≠ q.sub) ++
    (p.queue.filter (fun x => x.sub = q.sub)).drop 1 }).setRun e q.sub
      (some ⟨q.sub, q.rgn, 0, 32, 0, 0, 0, false, false, t⟩)
  let d1 := if q.bad then d1.setPat e { d1.pat e with aborts := (d1.pat e).aborts ++ [q.sub] } else d1
  let d2 := (d1.setPair (R.PAT_LAST_LO e) (R.PAT_LAST_HI e) t).countLaunch e late
  let d3 := d2.patEvent e 0 0x0700 q.sub q.rgn (t * 2 ^ 64)
  let d4 := if late then d3.patEvent e 1 0x0701 q.sub q.rgn 0 else d3
  if q.sub = 0 then d4.raiseEng e 22 t else d4

/-- The earlier entries of a sub-channel are discarded before a timed one (R197). -/
def Chip.skipTo (d : Chip) (e sub : Nat) (n : Nat) : Chip :=
  let p := d.pat e
  let mine := p.queue.filter (fun q => q.sub = sub)
  let d1 := d.setPat e { p with queue := p.queue.filter (fun q => q.sub ≠ sub) ++ mine.drop n }
  (mine.take n).foldl (fun (x : Chip) q => x.patEvent e 3 0x0703 sub q.rgn 0) d1

/-- Earlier material of a sub-channel is cut (R200). -/
def Chip.cutRun (d : Chip) (e sub : Nat) : Chip :=
  match d.runOf e sub with
  | some r => (d.setRun e sub none).patEvent e 2 0x0702 sub r.rgn 0
  | none => d

/-- The first timed entry of a sub-channel that is due at `t`, by its place in the queue. -/
def Pat.due (p : Pat) (sub t : Nat) : Option Nat :=
  (p.queue.filter (fun q => q.sub = sub)).findIdx? (fun q =>
    match q.time with
    | some w => decide (0 ≤ shortDiff w t)
    | none => false)

/-- The segments of a script from the one at address `a` on, by their numbers. -/
def Mem.segList (m : Mem) (h : SHdr) : Nat → Nat → Nat → List (Nat × Seg)
  | 0, _, _ => []
  | n + 1, i, a => let g := m.seg h a; (i, g) :: m.segList h n (i + 1) g.next

/-- A later timed segment of a running script whose launch arrived by `t` while the present one was running: it cuts
what runs, with all that lies before it, or ends the wait for it; of several the last.  A launch that had passed
before cuts nothing; its segment starts LATE when it is reached.  With FRAME_START it waits for a frame start (R199,
R200). -/
def Dev.segDue (s : Dev) (e sub t : Nat) (start : Bool) : Option Dev :=
  match s.chip.runOf e sub with
  | none => none
  | some r =>
    let h := s.runHdr r
    let g := s.runSeg r
    if r.wait then
      if (g.fstart = false ∨ start) ∧ 0 ≤ shortDiff g.launch t then
        some (s.on (fun d => d.setRun e sub (some { r with wait := false, since := t })))
      else none
    else
      let due := (s.mem.segList h (h.segs - r.seg - 1) (r.seg + 1) g.next).filter (fun x =>
        x.2.timed && (!x.2.fstart || start) && decide (0 ≤ shortDiff r.since x.2.launch ∧ 0 ≤ shortDiff x.2.launch t))
      match due.getLast? with
      | some (i, g1) =>
        let r1 := { r with frame := 0, rep := 0, seg := i, segOff := g1.at_ - s.chip.prgnAt r.rgn, live := false, since := t }
        some (s.on (fun d => (d.setRun e sub (some r1)).patEvent e 2 0x0702 sub r.rgn 0))
      | none => none

/-- A frame cut short after `sent` octets: the BIPs of the next frame cover what was sent (R199). -/
def Chip.cutFrame (d : Chip) (e sent : Nat) : Chip :=
  let o := d.ohp e
  let f := d.engFmt e
  if o.txNow.length ≤ sent then d else
  let l := padTo (frameOctets f) 0 (o.txNow.take sent)
  if isSdh f then
    d.setOhp e { o with txB2 := bip24 (stmN f) l, txNow := o.txNow.take sent,
                        txB1 := xorBytes (l.take sent) ^^^ (if d.rb (R.PAT_CFG e) 12 then 0 else scrParity (sent - 9 * stmN f) 127 0) }
  else d.setOhp e { o with txOpu1 := bipOpu l, txNow := o.txNow.take sent }

/-- A raw script that is to stop does so at its next word; what was sent of its repetition stays sent (R197,
R205). -/
def Dev.rawStop (s : Dev) (e sub sent : Nat) : Dev :=
  match s.chip.runOf e sub with
  | some r =>
    if (s.runHdr r).raw ∧ (s.chip.pat e).aborts.contains sub then s.on (fun d => (d.cutFrame e sent).setRun e sub none) else s
  | none => s

/-- Octets of the frame in progress of a sub-channel: of the line frame, or of a context's container. -/
def Chip.inProgress (d : Chip) (e sub : Nat) : Nat :=
  if sub = 0 then (d.ohp e).txNow.length else contOctets (d.ctxType (sub - 0x8000))

/-- A word of a sub-channel leaves at `t` with `sent` octets of the frame in progress sent, and is a launch point: for
a due timed entry, a due timed segment, or, when nothing runs, an untimed entry at the head of the queue
(R197-R202).  With FRAME_START, for an untimed framed script and for every tributary script, only a frame start is
one (R199, log entry 42). -/
def Dev.scriptLaunch (s : Dev) (e sub t sent : Nat) : Dev :=
  if ¬ s.chip.engEn e ∨ (sub = 0 ∧ s.chip.rb (R.PAT_CFG e) 0) then s else
  let s := s.rawStop e sub sent
  let start := decide (s.chip.inProgress e sub ≤ sent)
  let s0 := if start then s.frameEnd e sub t else s
  if sub ≠ 0 ∧ start = false then s0 else
  let p := s0.chip.pat e
  match p.due sub t with
  | some n =>
    match (p.queue.filter (fun q => q.sub = sub))[n]? with
    | none => s0
    | some q =>
      if q.fstart ∧ start = false then s0 else
      let s1 := s0.on (fun d => d.skipTo e sub n)
      if q.ready then
        let late := q.missed || decide (s.chip.launchSlack e sub q.fstart < shortDiff (q.time.getD 0) t)
        let s2 := if start then s1 else s1.on (fun d => d.cutFrame e sent)
        s2.on (fun d => (d.cutRun e sub).launch e q t late)
      else s1.on (fun d =>
        d.setPat e { d.pat e with queue := setHead sub { q with missed := true } (d.pat e).queue })
  | none =>
    match s0.segDue e sub t start with
    | some s1 => if start then s1 else s1.on (fun d => d.cutFrame e sent)
    | none =>
      match p.headOf sub with
      | some q =>
        if q.time.isNone ∧ q.ready ∧ (s0.chip.runOf e sub).isNone ∧ (start ∨ (s0.mem.shdr (s0.chip.prgnAt q.rgn)).raw) then
          let s1 := if start then s0 else s0.on (fun d => d.cutFrame e sent)
          s1.on (fun d => d.launch e q t false)
        else s0
      | none => s0

/-! ## Injection (R203, R204) -/

/-- An injection's target names something in the current format. -/
def Dev.injTargetOk (s : Dev) (e kind len tgt : Nat) : Bool :=
  let d := s.chip
  let f := d.engFmt e
  let per := if isFramed f then bodyPer f 0
    else match d.runOf e 0 with
      | some r => (s.runSeg r).per (s.runHdr r)
      | none => 4096
  Edit.ok f 0 (!isFramed f) per 1 ⟨kind, len, 0, 0, tgt, 0⟩

/-- ARM of an injection (R203): its record is in PAT_INJ_TGT, PAT_INJ_VAL and PAT_INJ_CFG. -/
def Dev.injArm (s : Dev) (e : Nat) : Status × Chip :=
  let d := s.chip
  let c := d.rd (R.PAT_INJ_CFG e)
  let kind := fld c 2 0
  let len := if 4 ≤ kind then fld c 4 3 + 1 else 0
  let tgt := (d.rd (R.PAT_INJ_TGT e)).toNat
  let time := d.rf (R.PAT_Q_TIME_HI e) 15 0 * 2 ^ 32 + (d.rd (R.PAT_Q_TIME_LO e)).toNat
  if (d.pat e).inj.isSome then (.busy, d)
  else if bit c 5 ∧ shortDiff d.dt time < 0 then (.tooLate, d.flag (R.PAT_EVENT e) 10)
  else if ¬ s.injTargetOk e kind len tgt then (.badParam, d.flag (R.PAT_EVENT e) 9)
  else
    (.ok, d.setPat e { d.pat e with
      inj := some ⟨kind, len, tgt, (d.rd (R.PAT_INJ_VAL e)).toNat, fld c 23 8, max 1 (fld c 31 24),
        if bit c 5 then some time else none, false, 0, 0, false⟩, injCnt := 0 })

/-- INJ_STOP: the injection ends after the current frame. -/
def Chip.injStop (d : Chip) (e : Nat) : Chip :=
  let p := d.pat e
  match p.inj with
  | some i => d.setPat e { p with inj := some { i with stop := true } }
  | none => d

/-! ## Reads of scripts (R205) -/

/-- The 32-byte block at `a` holds body octets of a segment alone, and no byte of a header or an edit record. -/
def Seg.isBody (g : Seg) (a : Nat) : Bool := decide (g.at_ + 32 ≤ a ∧ a + 32 ≤ g.at_ + 32 + g.body)

/-- The block at `a` holds a byte of a segment. -/
def Seg.holds (g : Seg) (a : Nat) : Bool := decide (g.at_ < a + 32 ∧ a < g.next)

/-- A pattern read of a script in region `rgn` has met poisoned blocks: POISON with the region and the segment of the
first one, and whether only body octets are struck (R205; log entry 42). -/
def Dev.patPoison (s : Dev) (e sub rgn : Nat) (bad : List Nat) : Bool × Dev :=
  let base := s.chip.prgnAt rgn
  let h := s.mem.shdr base
  let segs := s.mem.segList h h.segs 0 (base + 32)
  let seg := ((segs.find? (fun x => x.2.holds ((bad.headD 0) * 32))).map (fun x => x.1)).getD 0
  (bad.all (fun b => segs.any (fun x => x.2.isBody (b * 32))),
   s.on (fun d => d.patEvent e 6 0x0706 sub rgn (seg * 2 ^ 112)))

/-- The queue entry of a sub-channel whose region holds an address. -/
def Chip.entryAt (d : Chip) (e sub a : Nat) : Option QEntry :=
  (d.pat e).queue.find? (fun q => decide (q.sub = sub) && decide (d.prgnAt q.rgn ≤ a ∧ a < d.prgnAt q.rgn + d.prgnSpan q.rgn))

/-- A pattern read of a queued script has met poisoned blocks: a struck header or edit record stops it once it has
launched (R205). -/
def Dev.patQueued (s : Dev) (e sub a : Nat) (bad : List Nat) : Dev :=
  match s.chip.entryAt e sub a with
  | none => s
  | some q =>
    let (body, s1) := s.patPoison e sub q.rgn bad
    if body then s1
    else s1.on (fun d =>
      let p := d.pat e
      d.setPat e { p with queue := p.queue.map (fun x => if x = q then { x with bad := true } else x) })

/-- A pattern read of the running or a queued script of a sub-channel returns to the prefetch buffer: errors
are counted, a poisoned body is sent as read, a poisoned header or edit record stops the script at its next
frame start, or at its next word on a raw script (R205). -/
def Dev.patRead (s : Dev) (e sub a n : Nat) (ces ues : List Nat) : Dev :=
  let (bad, s1) := s.eccRead a n ces ues
  if bad.isEmpty then s1 else
  match s.chip.runOf e sub with
  | some r =>
    if s.chip.prgnAt r.rgn ≤ a ∧ a < s.chip.prgnAt r.rgn + s.chip.prgnSpan r.rgn then
      let (body, s2) := s1.patPoison e sub r.rgn bad
      if body then s2
      else s2.on (fun d =>
        let p := d.pat e
        if p.aborts.contains sub then d else d.setPat e { p with aborts := p.aborts ++ [sub] })
    else s1.patQueued e sub a bad
  | none => s1.patQueued e sub a bad

/-! ## Registers computed from this state -/

/-- PAT_STATUS. -/
def Chip.patStatus (d : Chip) (e : Nat) : Word :=
  let p := d.pat e
  let line := p.runs.any (fun r => r.sub = 0)
  let idle := !d.rb (R.PAT_CFG e) 0 && !p.runs.any (fun r => r.sub = 0 && !r.wait)
  w32 (min 64 p.queue.length + b2n line * 2 ^ 7 + min 64 (p.runs.filter (fun r => r.sub ≠ 0)).length * 2 ^ 8
    + b2n idle * 2 ^ 15 + b2n p.inj.isSome * 2 ^ 16 + b2n p.lost * 2 ^ 17)

/-- PAT_CUR. -/
def Chip.patCur (d : Chip) (e : Nat) : Word :=
  match d.runOf e 0 with
  | some r => w32 (r.rgn + r.seg * 2 ^ 10 + 2 ^ 31)
  | none => 0

/-- PAT_INJ_STATUS. -/
def Chip.injStatus (d : Chip) (e : Nat) : Word :=
  let p := d.pat e
  let run := match p.inj with | some i => i.run | none => false
  w32 (p.injCnt % 2 ^ 16 + b2n run * 2 ^ 16)

/-- PAT_RGN_CFG of a region. -/
def Chip.prgnWord (d : Chip) (r : Nat) : Word := setFld (d.rd (R.prgn_PAT_RGN_CFG r)) 2 2 (b2n (d.prgnUsed r))

end Sys2Proof.Machine
end

