-- ==== Sys2Proof/Machine/Region.lean ====
section
/-! DEFINITION. The Stall, loss, capture regions, combiners, host triggers and time compares as commands act
on them (R155-R159, R171-R182). -/

namespace Sys2Proof.Machine

/-! ## The Stall and the elastic buffer (R155-R159) -/

/-- Words of a Stall. -/
def stallDepth : Nat := 512

/-- The elastic buffer pushes its oldest word into the Stall once it is not full (R156); the word gets its
parity bits (R155).  `ecc` is the check of its read from the buffer (R14): 0 passed, 1 corrected and counted, 2 an
uncorrectable error, with which the word is delivered as read and poisoned. -/
def Chip.stallPush (d : Chip) (e ecc : Nat) : Chip :=
  let c := d.cap e
  match c.eb with
  | [] => d
  | w :: rest =>
    if stallDepth ≤ c.stall.length then d else
    let w1 := { w with par0 := parEven w.octets, par1 := parOdd w.octets, poison := w.poison || decide (ecc = 2) }
    let st := c.stall ++ [w1]
    let d1 := d.setCap e { c with eb := rest, stall := st, stlPeak := max c.stlPeak st.length, pushed := some d.core }
    if ecc = 1 then d1.count (R.ENG_EB_CE_CNT e) else d1

/-- A cluster's writer, and its replacement. -/
def Chip.writer (d : Chip) (cl : Nat) : Writer := SMap.get Writer.init d.writers cl
def Chip.setWriter (d : Chip) (cl : Nat) (w : Writer) : Chip := { d with writers := SMap.put Writer.init d.writers cl w }

/-- A Stall holds a word that was written in an earlier cycle (R156). -/
def Chip.readable (d : Chip) (e : Nat) : Bool :=
  match (d.cap e).stall with
  | [] => false
  | [_] => decide ((d.cap e).pushed ≠ some d.core)
  | _ => true

/-- The Yard holds a cluster's writer back: its 256 tags are in use, two of them by each bale on its way (R160,
R216). -/
def Chip.heldBack (d : Chip) (cl : Nat) : Bool :=
  let bales := d.rgns.foldl (fun n x =>
    if (d.rcfg x.1).eng < 136 ∧ (d.rcfg x.1).eng / 8 = cl then n + (x.2.q.filter (fun b => b.sent)).length else n) 0
  decide (256 < 2 * bales + (d.yard.txns.filter (fun t => t.master = cl)).length + 2)

/-- The Stall that a cluster's writer pops next in this core cycle: in round-robin order among those that hold a word
it can read, each once and four at most (R160). -/
def Chip.nextPop (d : Chip) (cl : Nat) : Option Nat :=
  let w := d.writer cl
  let popped := if w.cycle = d.core then w.popped else []
  if d.heldBack cl ∨ 4 ≤ popped.length then none
  else ((List.range 8).map (fun i => 8 * cl + (w.next + i) % 8)).find? (fun e => d.readable e && !popped.contains e)

/-- The writer has popped a word from an engine's Stall. -/
def Chip.popNoted (d : Chip) (e : Nat) : Chip :=
  let w := d.writer (e / 8)
  d.setWriter (e / 8) ⟨(e + 1) % 8, d.core, (if w.cycle = d.core then w.popped else []) ++ [e]⟩

/-- The writer pops a word that was written in an earlier cycle from the Stall whose turn it is (R156, R157, R160).
`flips` is what the read has changed of its octets, `side` the sideband check: 0 passed, 1 corrected, 2 uncorrectable;
a word so discarded leaves its place in the order of a group's line empty. -/
def Chip.stallPop (d : Chip) (e : Nat) (flips : List Byte) (side : Nat) : Chip :=
  let c := d.cap e
  match c.stall with
  | [] => d
  | w :: rest =>
    if d.nextPop (e / 8) ≠ some e then d else
    let octets := w.octets.zipWith (· ^^^ ·) (padTo w.octets.length 0 flips)
    let bad := decide (w.token = .data) && (parEven octets != w.par0 || parOdd octets != w.par1)
    let d1 := (d.setCap e { c with stall := rest }).popNoted e
    let d2 := if bad ∨ side = 1 then d1.count (R.STL_PARITY_CNT e) (b2n bad + b2n (decide (side = 1))) else d1
    if side = 2 then
      (d2.tagError e).takeWord e { w with octets := [], tags := [], token := .data, brk := false, resync := false }
    else d2.takeWord e { w with octets := octets, poison := w.poison || bad }

/-- A loss episode ends with 4 KiB free: a gap token for each sub-channel that lost octets (R159). -/
def Chip.lossEnd (d : Chip) (e : Nat) : Chip :=
  let c := d.cap e
  if c.losing ∧ c.fill + 4096 ≤ ebBytes then
    c.losses.foldl (fun (x : Chip) l => x.ebPut e false (l.token 1)) (d.setCap e { c with losing := false, losses := [] })
  else d

/-- A bale has been open for CAP_CFG.FLUSH µs (R160). -/
def Chip.baleFlush (d : Chip) (r : Nat) : Chip :=
  match (d.rgn r).open_ with
  | some o =>
    if o.opened + d.rf (R.CAP_CFG (d.rcfg r).eng) 19 0 * 1000 ≤ d.core then d.closeBale r else d
  | none => d

/-- The reply of a bale write returns (R180, R181). -/
def Dev.baleReply (s : Dev) (r seq : Nat) (ok : Bool) : Dev :=
  match (s.chip.rgn r).q.find? (fun w => w.bale.seq = seq && w.sent) with
  | none => s
  | some w => if ok then (s.accept r w).settle r else s.on (fun d => d.refuseBale r seq)

/-! ## Stopping a region (R178, R179) -/

/-- The words that the hold still owes the line sub-channel of an engine, or the selected stream of the group it hosts,
as the tap would form them. -/
def Chip.heldWords (d : Chip) (e sub : Nat) : List SWord :=
  let src := if sub = 1 then d.selectedEngine e else if sub = 0 then some e else none
  match src with
  | none => []
  | some n =>
    let bufs := d.bufsOf e sub
    let x := bufs.foldl (fun (y : Chip) g => y.setCap g { y.cap g with eb := [], losing := false, losses := [], brks := [] }) d
    let y := (d.hunter n).held.foldl (fun (y : Chip) w => y.outWord n w) x
    bufs.flatMap (fun g => (y.cap g).eb.filter (fun w => w.sub = sub))

/-- Every word of a sub-channel that is still in the Stalls and elastic buffers is written, and the open
loss as one gap (R179 steps 2 and 4). -/
def Chip.drainSub (d : Chip) (e sub : Nat) : Chip :=
  (d.bufsOf e sub).foldl (fun (x : Chip) k =>
    let c := x.cap k
    let mine := (c.stall ++ c.eb).filter (fun w => w.sub = sub)
    let gap := (c.losses.filter (fun l => l.sub = sub)).map (Loss.token · 1)
    let y := x.setCap k { c with stall := c.stall.filter (fun w => w.sub ≠ sub), eb := c.eb.filter (fun w => w.sub ≠ sub),
                                 losses := c.losses.filter (fun l => l.sub ≠ sub) }
    (mine ++ gap).foldl (fun (z : Chip) w => z.takeWord k w) y) d

/-- Bale writes in flight complete and pending ones are tried; what stays refused is lost (R181). -/
def Dev.finishWrites (s : Dev) (r : Nat) : Dev :=
  let s1 := (s.chip.rgn r).q.foldl (fun (x : Dev) w =>
    if w.sent then
      (if x.chip.slotFenced (x.chip.rcfg r) w.bale.seq then x.on (fun d => d.refuseBale r w.bale.seq) else x.accept r w)
    else x) s
  let s2 := s1.settle r
  s2.on (fun d =>
    let x := d.rgn r
    let lost := (x.q.filter (·.folded)).foldl (fun a w => a + w.lost) 0
    let d1 := if lost = 0 then d else d.addLost (d.rcfg r).eng lost
    d1.setRgn r { x with q := [], open_ := none, trigs := [], mark := none, waits := [],
                         st := if x.live then .stopped else x.st })

/-- A running region stops: `hold` also taps what is still in the hold, or counts it in a loss that runs (R179). -/
def Dev.rgnStop (s : Dev) (r : Nat) (hold : Bool) : Dev :=
  if ¬ (s.chip.rgn r).live then s else
  let c := s.chip.rcfg r
  let owed := if hold ∧ c.eng < 136 then s.chip.heldWords c.eng c.sub else []
  let d1 := owed.foldl (fun (x : Chip) w => x.tapWord c.eng w) s.chip
  (Dev.mk ((d1.drainSub c.eng c.sub).closeBale r) s.mem).finishWrites r

/-- The regions of an engine stop with it. -/
def Dev.rgnStopEng (s : Dev) (e : Nat) : Dev :=
  s.chip.rgns.foldl (fun (x : Dev) y => if y.2.live ∧ (x.chip.rcfg y.1).eng = e then x.rgnStop y.1 false else x) s

/-! ## Enabling, arming (R177, R178) -/

/-- The regions whose ENABLE is 1. -/
def Chip.enabledRgns (d : Chip) : List Nat :=
  d.regs.filterMap (fun x =>
    if x.1 / 2 ^ 48 = Blk.rgn.code ∧ x.1 % 2 ^ 12 = 0x0B4 ∧ bit x.2 0 = true then some (x.1 / 2 ^ 12 % 2 ^ 36) else none)

/-- MODE, SUBCH and the lane format agree (R168, R169); the format of a peer's lane is not known here. -/
def Chip.modeOk (d : Chip) (c : RCfg) : Bool :=
  let f := d.engFmt c.eng
  let framed := decide (136 ≤ c.eng) || isFramed f
  match c.mode with
  | 1 => decide (c.sub = 0) && (decide (136 ≤ c.eng) || decide (1000000 ≤ d.engRate c.eng))
  | 2 | 3 | 4 => decide (c.sub ≤ 1) && framed
  | 5 => decide (0x8000 ≤ c.sub ∧ c.sub < 0xC000)
  | 6 => decide (c.sub = 2)
  | _ => false

/-- The unit is the lead of a pair that is JOINED or DEGRADED (R342). -/
def Chip.leadJoined (d : Chip) : Bool :=
  (decide (d.tdmSt = 2) || decide (d.tdmSt = 3)) && !d.rb R.TDM_STATUS 3

/-- The checks of R177: the status of the first that fails. -/
def Chip.rgnCheck (d : Chip) (r : Nat) : Option Status :=
  let c := d.rcfg r
  let others := d.enabledRgns.filter (· ≠ r)
  let size := c.slots / 128
  let t := c.sub - 0x8000
  if ¬ d.modeOk c then some .badParam
  else if 272 ≤ c.eng then some .badParam
  else if 136 ≤ c.eng ∧ d.splitHold then some .tandemSplit
  else if 136 ≤ c.eng ∧ ¬ d.leadJoined then some .badParam
  else if c.eng < 136 ∧ c.sub = 1 ∧ ((d.group c.eng).st = .disabled ∨ d.apsArch c.eng = 2) then some .badParam
  else if c.eng < 136 ∧ 0x8000 ≤ c.sub ∧ ¬ (d.ctxEn t ∧ d.ctxOwner t = c.eng) then some .badParam
  else if others.any (fun q => (d.rcfg q).eng = c.eng && (d.rcfg q).sub = c.sub) then some .badParam
  else if 0x8000 ≤ c.sub ∧ 256 ≤ (others.filter (fun q => (d.rcfg q).eng = c.eng && decide (0x8000 ≤ (d.rcfg q).sub))).length
    then some .badParam
  else if size = 0 ∨ 1474560 < c.base + size then some .badParam
  else if others.any (fun q =>
      decide (c.base < (d.rcfg q).base + (d.rcfg q).slots / 128 ∧ (d.rcfg q).base < c.base + size)) then some .badParam
  else if c.trigMode = 3 then some .badParam
  else if c.trigMode = 0 ∧ (c.post = 0 ∨ c.slots < c.pre + c.post) then some .badParam
  else if c.trigMode = 1 ∧ (c.post = 0 ∨ c.slots < c.post) then some .badParam
  else none

/-- A write that sets ENABLE of a region, through engine window `e` (R177, R383). -/
def Chip.rgnEnable (d : Chip) (e r : Nat) : Status × Chip :=
  let c := d.rcfg r
  if ¬ d.stacksReady c.base (c.slots / 128) then (.notReady, d)
  else match d.rgnCheck r with
  | none => (.ok, d.flag (R.rgn_CAP_RGN_CFG r) 0)
  | some st => (st, (d.unflag (R.rgn_CAP_RGN_CFG r) 0).flag (R.CAP_EVENT e) 9)

/-- A write that clears ENABLE of a region: a running one stops, one that has stopped goes to IDLE (R178). -/
def Dev.rgnDisable (s : Dev) (r : Nat) : Dev :=
  let s1 := s.on (fun d => d.unflag (R.rgn_CAP_RGN_CFG r) 0)
  if (s.chip.rgn r).live then s1.rgnStop r true else s1.on (fun d => d.setRgn r Rgn.init)

/-- ARM (R178): SEQ restarts at 0 and held bales are discarded. -/
def Chip.rgnArm (d : Chip) (e r : Nat) : Status × Chip :=
  let c := d.rcfg r
  let x := d.rgn r
  if ¬ d.rb (R.rgn_CAP_RGN_CFG r) 0 then (.badParam, d.flag (R.CAP_EVENT e) 9)
  else if x.live then (.busy, d)
  else
    let imm := decide (c.trigMode = 1)
    let y := { Rgn.init with st := if imm then .post else if c.pre = 0 then .armed else .pre, armT := d.dt,
                             trigs := if imm then [(d.dt, false)] else [], ordNext := (d.cap c.eng).ord }
    let cap := d.cap c.eng
    (.ok, (d.setRgn r y).setCap c.eng { cap with brks := cap.brks.filter (fun b => b.1 ≠ c.sub) })

/-! ## Combiners, host triggers, time compares (R171-R176) -/

/-- A write that sets ENABLE of a combiner, through engine window `e`. -/
def Chip.combEnable (d : Chip) (e cb : Nat) : Status × Chip :=
  if d.rf (R.comb_CAP_TRG_CFG cb) 5 2 = 0 then
    (.badParam, (d.unflag (R.comb_CAP_TRG_CFG cb) 0).flag (R.CAP_EVENT e) 9)
  else
    let d1 := (d.flag (R.comb_CAP_TRG_CFG cb) 0).setComb cb Comb.init
    let z := d1.combEval cb d1.dt false
    (.ok, match z.1 with
      | some f => z.2.raise (cb / 8) (0xC0 + cb % 8) f.1 f.2
      | none => z.2)

/-- CAP_TRG_CMD.HOST pulses host trigger bits of a cluster (R171). -/
def Chip.hostTrigger (d : Chip) (cluster bits : Nat) : Chip :=
  (List.range 8).foldl (fun (x : Chip) k => if bits.testBit k then x.raise cluster (0xD0 + k) x.dt else x) d

/-- CAP_TRG_CMD.CLEAR_FIRED (R172). -/
def Chip.clearFired (d : Chip) (cb : Nat) : Chip := d.setComb cb { d.comb cb with fired := false, occ := 0 }

/-- An event term's hold has ended and the cycle that follows it has gone by: the term is false (R172). -/
def Chip.termExpire (d : Chip) (cb i : Nat) : Chip :=
  if (d.comb cb).until_.getD i 0 < d.core then (d.combEval cb d.dt false).2 else d

/-- The oldest firing on a global line reaches every cluster 4 core cycles after it was driven (R172). -/
def Chip.globalLine (d : Chip) (n : Nat) : Chip :=
  match d.lines.find? (fun l => l.line = n) with
  | none => d
  | some l =>
    if d.core < l.due then d else
    let d1 := { d with lines := d.lines.erase l }
    let d2 := d1.fireRegions true n 0 l.t l.tent
    (List.range 17).foldl (fun (x : Chip) c => x.raise c (0xD8 + n) l.t l.tent) d2

/-- The short time that a time compare holds. -/
def Chip.cmpTime (d : Chip) (k : Nat) : Nat :=
  d.rf (R.tcmp_CAP_TRG_TIME_HI k) 15 0 * 2 ^ 32 + (d.rd (R.tcmp_CAP_TRG_TIME_LO k)).toNat

/-- A write of CAP_TRG_TIME_HI (R176): arms compare `k`, stores it unarmed, or is refused as TOO_LATE. -/
def Chip.cmpWrite (d : Chip) (e k : Nat) (w : Word) : Status × Chip :=
  let lo := (d.rd (R.tcmp_CAP_TRG_TIME_LO k)).toNat
  let off := { d with cmps := SMap.put false d.cmps k false }
  if bit w 31 ∧ shortDiff d.dt (fld w 15 0 * 2 ^ 32 + lo) < 0 then (.tooLate, off.flag (R.CAP_EVENT e) 5)
  else
    let d1 := off.sf (R.tcmp_CAP_TRG_TIME_HI k) 15 0 (fld w 15 0)
    (.ok, if bit w 31 then { d1 with cmps := SMap.put false d1.cmps k true } else d1)

/-- Device Time reaches an armed compare (R176): it fires once, with T the compare value (R173). -/
def Chip.cmpFire (d : Chip) (k : Nat) : Chip :=
  let diff := shortDiff d.dt (d.cmpTime k)
  if SMap.get false d.cmps k ∧ diff ≤ 0 then
    ({ d with cmps := SMap.put false d.cmps k false }).raise (k / 4) (0xCC + k % 4) ((d.dt : Int) + diff).toNat
  else d

/-! ## Registers computed from this state -/

/-- The code of a region's state. -/
def RSt.code : RSt → Nat
  | .idle => 0 | .pre => 1 | .armed => 2 | .post => 3 | .pinned => 4 | .stopped => 5

/-- CAP_RGN_STATE. -/
def Chip.rgnState (d : Chip) (r : Nat) : Word :=
  let x := d.rgn r
  w32 (x.st.code + b2n x.late * 8 + b2n x.trigTent * 16 + b2n x.shortPre * 32)

/-- The held range: its first SEQ and its bales. -/
def Rgn.held (x : Rgn) : Nat × Nat := if x.st = .idle then (0, 0) else (x.first, x.done - x.first)

/-- CAP_RGN_START, COUNT, SEQ and TRIG_SEQ. -/
def Chip.rgnStart (d : Chip) (r : Nat) : Word :=
  let c := d.rcfg r
  w32 (if c.slots = 0 then 0 else (d.rgn r).held.1 % c.slots)
def Chip.rgnCount (d : Chip) (r : Nat) : Word := w32 (d.rgn r).held.2
def Chip.rgnSeq (d : Chip) (r : Nat) : Word := w32 (d.rgn r).held.1
def Chip.rgnTrigSeq (d : Chip) (r : Nat) : Word := w32 (d.rgn r).trigSeq

/-- CAP_STATUS. -/
def Chip.capStatus (d : Chip) (e : Nat) : Word :=
  w32 (b2n (d.cap e).losing + min 259 (d.armedSubs e).length * 2)

/-- CAP_EB, and CAP_TRG_STATUS of the combiner that CAP_TRG_IDX names. -/
def Chip.capEb (d : Chip) (e : Nat) : Word :=
  w32 (min 2048 (ceilDiv (d.cap e).fill 32) + min 2048 (d.cap e).ebPeak * 2 ^ 16)
def Chip.trgStatus (d : Chip) (cluster n : Nat) : Word :=
  let x := d.comb (cluster * 8 + n)
  let armed := (List.range 4).foldl (fun a k => if SMap.get false d.cmps (cluster * 4 + k) then a + 2 ^ k else a) 0
  w32 (b2n x.fired + b2n x.tent * 2 + x.occ % 16 * 4 + armed * 2 ^ 8)

end Sys2Proof.Machine
end

