-- ==== Sys2Proof/Machine/Transmit.lean ====
section
/-! DEFINITION. The transmit framer and the mapper's pointer generators (R80-R96, R109-R113, R118, R121,
R186-R204): through mode, staged overhead, edits, injections, frames and containers as they are sent. -/

namespace Sys2Proof.Machine

/-! ## Generated octets (R187, R192) -/

/-- `n` octets of an inverted PRBS with feedback from stages `a` and `b`, and the next state. -/
def prbsOct (a b : Nat) : Nat → Nat → Nat → Nat × Nat
  | 0, s, o => (o, s)
  | n + 1, s, o =>
    let x := (s.testBit (a - 1)).xor (s.testBit (b - 1))
    prbsOct a b n ((s * 2 + b2n x) % 2 ^ a) (o * 2 + b2n (!x))

/-- A run of octets of a PRBS. -/
def prbsRun (a b : Nat) : Nat → Nat → List Byte × Nat
  | 0, s => ([], s)
  | n + 1, s =>
    let (o, s1) := prbsOct a b 8 s 0
    let (l, s2) := prbsRun a b n s1
    (BitVec.ofNat 8 o :: l, s2)

/-- `n` octets of FILL 1 to 3 from a sub-channel's generators. -/
def fillRun (fill n : Nat) (st : List Nat) : List Byte × List Nat :=
  let (a, b, i) := if fill = 1 then (31, 28, 0) else if fill = 2 then (23, 18, 1) else (15, 14, 2)
  let (l, s) := prbsRun a b n (st.getD i 0)
  (l, setAt st i s)

/-- The PRBS states of a sub-channel restarted. -/
def fillReset (fill : Nat) (st : List Nat) : List Nat := if fill = 0 then st else setAt st (fill - 1) (prbsInit.getD (fill - 1) 0)

/-! ## Through mode (R186, R188) -/

/-- The engine whose stream a through-mode engine carries; 136 and above on the peer unit. -/
def Chip.thruSrc (d : Chip) (e : Nat) : Option Nat :=
  let n := d.rf (R.PAT_CFG e) 8 1
  if d.rb (R.PAT_CFG e) 9 then d.selectedEngine n else some n

/-- The through source is available; a remote path is not in split hold (R349). -/
def Chip.thruOk (d : Chip) (e : Nat) : Bool :=
  match d.thruSrc e with
  | some n => (decide (136 ≤ n) && d.joined && !d.splitHold) || (d.engEn n && d.engReady n)
  | none => false

/-- A frame enters an engine's two-frame store; a full store drops one frame (R188). -/
def Chip.storePush (d : Chip) (e : Nat) (l : List Byte) : Chip :=
  let p := d.pat e
  if p.store.length < 2 then d.setPat e { p with store := p.store ++ [l] }
  else (d.setPat e { p with store := p.store.drop 1 ++ [l] }).patEvent e 12 0x0708 0 0 0

/-- An engine in through mode carries the selected stream of the hitless group that a host holds (R152). -/
def Chip.fedBy (d : Chip) (e h : Nat) : Bool :=
  d.rb (R.PAT_CFG e) 9 && decide (d.rf (R.PAT_CFG e) 8 1 = h) && d.apsHitless h

/-- A confirmed frame of a source enters the store of every through-mode engine that carries it; the stream of a
hitless group comes from the deskew engine instead (R153, R188). -/
def Chip.thruPush (d : Chip) (src : Nat) (l : List Byte) : Chip :=
  (List.range 136).foldl (fun (x : Chip) e =>
    if x.engEn e ∧ x.rb (R.PAT_CFG e) 0 ∧ ¬ x.fedBy e (x.rf (R.PAT_CFG e) 8 1) ∧ x.thruSrc e = some src then x.storePush e l
    else x) d

/-- A frame of a hitless group's selected stream enters the stores of the engines that carry it. -/
def Chip.hitlessPush (d : Chip) (h : Nat) (l : List Byte) : Chip :=
  (List.range 136).foldl (fun (x : Chip) e =>
    if x.engEn e ∧ x.rb (R.PAT_CFG e) 0 ∧ x.fedBy e h then x.storePush e l else x) d

/-- The next frame out of the store; an empty store repeats the last frame. -/
def Chip.thruPop (d : Chip) (e : Nat) : Option (List Byte) × Chip :=
  let p := d.pat e
  match p.store with
  | f :: rest => (some f, d.setPat e { p with store := rest, lastFr := f })
  | [] =>
    if p.lastFr.isEmpty then (none, d)
    else (some p.lastFr, d.patEvent e 12 0x0708 0 0 0)

/-! ## Overhead choices (R92-R94, R194, R195) -/

/-- COMMIT (R93): every staged entry is applied at the next frame start that is not in the following core
cycle; a commit that waits keeps its own frame start. -/
def Chip.commit (d : Chip) (e : Nat) : Chip := d.setOhp e { d.ohp e with commit := (d.ohp e).commit ++ [d.core] }

/-- The staged entries of an engine and of its contexts: TX_SRC × 256 + VALUE by entry. -/
def Chip.staged (d : Chip) (e : Nat) : SMap Nat :=
  d.regs.filterMap (fun x =>
    let i := x.1 / 2 ^ 12 % 2 ^ 36
    if x.1 / 2 ^ 48 = Blk.obyte.code ∧ x.1 % 2 ^ 12 = 0x270 ∧ fld x.2 9 0 ≠ 0
        ∧ ((i < 2 ^ 24 ∧ i / 2 ^ 14 = e) ∨ (2 ^ 24 ≤ i ∧ d.ctxOwner ((i - 2 ^ 24) / 2 ^ 14) = e))
    then some (i, fld x.2 9 0) else none)

/-- A transmit frame starts: commits that wait for it are applied, all in one frame (R93). -/
def Chip.commitApply (d : Chip) (e : Nat) : Chip :=
  let o := d.ohp e
  if o.commit.any (fun c => decide (c + 1 < d.core)) then
    (d.setOhp e { o with applied := d.staged e, commit := o.commit.filter (fun c => decide (d.core ≤ c + 1)) }).flag (R.OHP_EVENT e) 3
  else d

/-- The byte that TX_SRC chooses: the through source's, VALUE, or the default XOR VALUE (R92). -/
def overridden (ent dflt : Nat) (thru : Option Nat) : Nat :=
  match ent / 256 with
  | 1 => thru.getD dflt
  | 2 => ent % 256
  | 3 => dflt ^^^ (ent % 256)
  | _ => dflt

/-- Edits of one byte, in order: a SET replaces, an XOR modifies; on a BIP byte the first XOR acts on the
computed value (R195, R204). -/
def edited (base dflt : Nat) (bip : Bool) (es : List (Nat × Nat)) : Nat :=
  (es.foldl (fun (a : Option Nat) x =>
    if x.1 = 1 then some (x.2 % 256)
    else some ((a.getD (if bip then dflt else base)) ^^^ (x.2 % 256))) none).getD base

/-- The edits of one byte among the records that fall due. -/
def editsOf (es : List Edit) (row col : Nat) : List (Nat × Nat) :=
  es.filterMap (fun x =>
    if x.kind ≤ 2 ∧ ¬ tgtSpace x.tgt ∧ tgtRow x.tgt = row ∧ tgtCol x.tgt = col then some (x.kind, x.val) else none)

/-- One PAY edit on body octets. -/
def payEdit (x : Edit) (l : List Byte) : List Byte :=
  (List.range x.len).foldl (fun (b : List Byte) k =>
    let v := x.val / 256 ^ (3 - k) % 256
    let i := x.tgt + k
    match b[i]? with
    | some o => setAt b i (if x.kind = 4 then BitVec.ofNat 8 v else o ^^^ BitVec.ofNat 8 v)
    | none => b) l

/-- The PAY edits of a frame on its body. -/
def payEdits (es : List Edit) (l : List Byte) : List Byte :=
  es.foldl (fun b x => if x.kind = 4 ∨ x.kind = 5 then payEdit x b else b) l

/-- The records of a running script that name its current frame. -/
def Dev.dueEdits (s : Dev) (r : Run') : List Edit :=
  (s.mem.edits (s.runSeg r)).filter (fun x =>
    decide (x.frame = r.frame) && (if x.every = 0 then decide (r.rep = 0) else decide (r.rep % x.every = 0)))

/-- A record that names a context that is not enabled and owned by the engine is skipped. -/
def Chip.editLive (d : Chip) (e : Nat) (x : Edit) : Bool :=
  if x.kind = 3 then d.ctxEn (x.tgt % 2 ^ 14) && decide (d.ctxOwner (x.tgt % 2 ^ 14) = e)
  else if x.kind ≤ 2 ∧ tgtSpace x.tgt then d.ctxEn (tgtCtx x.tgt) && decide (d.ctxOwner (tgtCtx x.tgt) = e)
  else true

/-- PTR and context overhead edits go to their contexts; `inj` marks those of an injection. -/
def Chip.editCtx (d : Chip) (inj : Bool) (x : Edit) : Chip :=
  if x.kind = 3 then
    let t := x.tgt % 2 ^ 14
    let c := d.ctx t
    if inj then d.setCtx t { c with edit2 := some (x.val % 2 ^ 14) } else d.setCtx t { c with edit := some (x.val % 2 ^ 14) }
  else if x.kind ≤ 2 ∧ tgtSpace x.tgt then
    let t := tgtCtx x.tgt
    let c := d.ctx t
    d.setCtx t { c with oh := c.oh ++ [((if inj then x.kind + 16 else x.kind), tgtRow x.tgt * 1024 + tgtCol x.tgt, x.val)] }
  else d

/-- The edits of one overhead byte of a container, those of an injection after those of scripts (R204). -/
def Ctx.ohEdits (x : Ctx) (row col : Nat) : List (Nat × Nat) :=
  let mine := x.oh.filter (fun y => y.2.1 = row * 1024 + col)
  (mine.filter (fun y => y.1 < 16)).map (fun y => (y.1, y.2.2)) ++ (mine.filter (fun y => 16 ≤ y.1)).map (fun y => (y.1 - 16, y.2.2))

/-- The edits of a script's frame: at most 64 that apply, and EDIT_SKIP once a frame for the rest (R195). -/
def Dev.frameEdits (s : Dev) (e : Nat) (r : Run') : List Edit × Dev :=
  let due := s.dueEdits r
  let live := (due.take 64).filter (s.chip.editLive e)
  let s1 := s.on (fun d => live.foldl (fun (x : Chip) y => x.editCtx false y) d)
  (live, if live.length < due.length then s1.on (fun d => d.patEvent e 7 0x0707 r.sub r.rgn 0) else s1)

/-! ## Injection (R203, R204) -/

/-- The injection ends. -/
def Chip.injEnd (d : Chip) (e : Nat) : Chip := (d.setPat e { d.pat e with inj := none }).patEvent e 11 0x0709 0 0 0

/-- An injection meets the start of a frame at `stamp`: the record, when this frame is one of its edited
frames.  `ais` says that AIS replaces what the record names. -/
def Chip.injFrame (d : Chip) (e stamp : Nat) (ais : Edit → Bool) : Option Edit × Chip :=
  let p := d.pat e
  match p.inj with
  | none => (none, d)
  | some i =>
    if i.stop then (none, d.injEnd e)
    else if ¬ i.run ∧ (match i.time with | some t => decide (shortDiff t stamp < 0) | none => false) = true then (none, d)
    else if i.seen % i.every ≠ 0 then (none, d.setPat e { p with inj := some { i with run := true, seen := i.seen + 1 } })
    else
      let x : Edit := ⟨i.kind, i.len, 0, 0, i.tgt, i.val⟩
      let masked := ais x
      let i1 := { i with run := true, seen := i.seen + 1, done := i.done + 1 }
      let d1 := d.setPat e { p with inj := some i1, injCnt := if masked then p.injCnt else p.injCnt + 1 }
      let d2 := if masked then d1.flag (R.PAT_EVENT e) 13 else d1.editCtx true x
      let d3 := if i.count ≠ 0 ∧ i.count ≤ i1.done then d2.injEnd e else d2
      (if masked then none else some x, d3)

/-! ## Transmitted traces (R90) -/

/-- A message as it is sent: byte 0 of a 16-byte message is replaced by 1 and the CRC-7, unless CRC_RAW. -/
def traceMsg (fmt : Nat) (rawCrc : Bool) (tx : List Byte) : List Byte :=
  match fmt with
  | 0 => tx.take 1
  | 1 =>
    let m := tx.take 16
    if rawCrc then m else m.set 0 (BitVec.ofNat 8 (128 + crc7 (m.set 0 0x80)))
  | _ => tx

/-- The next trace byte of a slot to send; the transmit buffer is taken at a message boundary. -/
def Chip.ttiSend (d : Chip) (k mf : Nat) : Nat × Chip :=
  let rg := R.tslot_OHP_TTI_SLOT k
  let fmt := d.rf rg 4 3
  let t := d.trace k
  let at_ := if fmt = 3 then mf % 64 else t.txAt
  let msg := if at_ = 0 ∨ t.txNow.isEmpty then traceMsg fmt (d.rb rg 5) t.tx else t.txNow
  let n := max 1 msg.length
  (octAt msg at_, d.setTrace k { t with txNow := msg, txAt := (at_ + 1) % n })

/-! ## Default transport overhead (R82, R84, R86) -/

/-- The error count that REI or BEI sends: that of the most recent frame checked, 0 out of frame. -/
def Chip.reiOf (d : Chip) (e i : Nat) : Nat := if d.inFrame e then (d.ohp e).rei.getD i 0 else 0

/-- The K bytes that the protection controller sets: none for an engine that hosts no group. -/
def Chip.kBytes (d : Chip) (e : Nat) : Nat := (d.apsTx e).getD 0

/-- The default byte at a row and column of an STM-N frame and whether it is a BIP; `j0` is the trace byte,
`ptr` what the mapper gives row 4, `z` the byte passed from the through source. -/
def Chip.sdhDflt (d : Chip) (e n row col j0 ptr z : Nat) : Nat × Bool :=
  let o := d.ohp e
  let k := d.kBytes e
  let b2 := d.reiOf e 0
  match row with
  | 1 =>
    if col ≤ 3 * n then (0xF6, false) else if col ≤ 6 * n then (0x28, false)
    else if col = 6 * n + 1 then (j0, false) else (z, false)
  | 2 => if col = 1 then (o.txB1, true) else (z, false)
  | 4 => (ptr, false)
  | 5 =>
    if col ≤ 3 * n then (o.txB2.getD (col - 1) 0, true)
    else if col = 3 * n + 1 then (k / 2 ^ 24 % 256, false)
    else if col = 6 * n + 1 then (k / 2 ^ 16 % 256 / 8 * 8 + (if d.backLine e then 6 else 0), false)
    else (z, false)
  | 9 =>
    if col = 1 then (0x0F, false)
    else if col = 3 * n + 3 then
      (if n = 64 ∧ d.rb (R.OHP_CFG e) 1 then b2 % 256 else min 255 b2, false)
    else if col = 3 * n + 2 ∧ n = 64 ∧ d.rb (R.OHP_CFG e) 1 then (b2 / 256, false)
    else (z, false)
  | _ => (z, false)

/-- The PM or TCM byte 3: BEI, BDI, STAT. -/
def pmByte (bei : Nat) (bdi : Bool) (stat : Nat) : Nat := min 8 bei * 16 + b2n bdi * 8 + stat

/-- The default byte at a row and column of an OTU frame and whether it is a BIP; `tti` gives the trace byte
of a slot, `jc` what the mapper gives, `psi` the PSI byte. -/
def Chip.otnDflt (d : Chip) (e row col : Nat) (tti : Nat → Nat) (jc psi z : Nat) : Nat × Bool :=
  let o := d.ohp e
  let k := d.kBytes e
  let bip := o.txOpu2
  let tcm := fun (i c : Nat) =>
    if d.rb (R.OHP_CFG e) (7 + i) then
      (match c with
      | 0 => (tti (1 + i), false)
      | 1 => (bip, true)
      | _ => (pmByte (d.reiOf e (1 + i)) false 1, false))
    else (z, false)
  if 15 ≤ col ∧ ¬ (row = 4 ∧ col = 15) then (jc, false)
  else match row with
  | 1 =>
    if col ≤ 3 then (0xF6, false) else if col ≤ 6 then (0x28, false)
    else if col = 7 then (o.txMf, false)
    else if col = 8 then (tti 0, false)
    else if col = 9 then (bip, true)
    else if col = 10 then (pmByte (d.reiOf e 0) (d.backLine e) 0, false)
    else (z, false)
  | 2 => if 4 ≤ col ∧ col ≤ 12 then tcm (6 - (col - 4) / 3) ((col - 4) % 3) else (z, false)
  | 3 =>
    if col ≤ 9 then tcm (3 - (col - 1) / 3) ((col - 1) % 3)
    else if col = 10 then (tti 1, false)
    else if col = 11 then (bip, true)
    else if col = 12 then (pmByte (d.reiOf e 1) (d.backPm e) 1, false)
    else (z, false)
  | _ =>
    if col = 15 then (psi, false)
    else if 5 ≤ col ∧ col ≤ 8 ∧ o.txMf % 8 = d.rf (R.OHP_CFG e) 18 16 then (k / 256 ^ (8 - col) % 256, false)
    else (z, false)

/-- The PSI byte of a line: PT 0x21 and the MSI of a multiplex; the spec states no other PT to send, so a
line that is no multiplex sends a free value (log entry 1). -/
def Chip.psiByte (d : Chip) (e free : Nat) : Nat :=
  let mf := (d.ohp e).txMf
  let rank := d.lineMux e
  if rank = 0 then free
  else if mf = 0 then 0x21
  else if 2 ≤ mf ∧ mf - 1 ≤ oduSlots rank then d.msiTx e none rank (mf - 1)
  else 0

/-! ## Frames as they are sent (R94, R187, R193) -/

/-- Octets laid over a list at an offset. -/
def layAt {α : Type} (l : List α) (x : Nat × List α) : List α := l.take x.1 ++ x.2.take (l.length - x.1) ++ l.drop (x.1 + x.2.length)

/-- A frame scrambled for the line (R73). -/
def scramble (f : Nat) : Nat → List Byte → Nat → List Byte
  | _, [], _ => []
  | i, a :: l, s =>
    let (x, s1) := scrOctet f i s
    (a ^^^ BitVec.ofNat 8 x) :: scramble f (i + 1) l s1

/-- The body octets that a running script, or idle fill, gives a frame of `n` body octets, and the PRBS
states after it. -/
def Dev.bodyOf (s : Dev) (r : Option Run') (idlePrbs : Bool) (n : Nat) (st : List Nat) : List Byte × List Nat :=
  match r with
  | some x =>
    let h := s.runHdr x
    let g := s.runSeg x
    if g.fill = 0 then (s.mem.rdN (g.at_ + 32 + x.frame * g.per h) n, st)
    else fillRun g.fill n (if g.prbsReset ∧ x.frame = 0 ∧ x.rep = 0 then fillReset g.fill st else st)
  | none => if idlePrbs then fillRun 1 n st else (List.replicate n 0, st)

/-- Octets missing at their time are sent as 0 (R205). -/
def underrun (at_ n : Nat) (l : List Byte) : List Byte := layAt l (at_, List.replicate (min n (l.length - at_)) 0)

/-- Octet `i` of a frame lies in the body of a line script (R193). -/
def isBody (f i : Nat) : Bool :=
  if isSdh f then !isToh f i else decide (17 ≤ (rowCol f i).2 ∧ (rowCol f i).2 ≤ 3824)

/-- Octet `i` of a frame is replaced by line AIS: MS-AIS leaves rows 1 to 3 of the overhead, ODU-AIS the OTU
overhead, FTFL and the FEC columns (R94, R132). -/
def aisOctet (f i : Nat) : Bool :=
  let (r, c) := rowCol f i
  if isSdh f then decide (¬ (r ≤ 3 ∧ c ≤ 9 * stmN f))
  else decide (¬ (r = 1 ∧ c ≤ 14) ∧ ¬ (r = 2 ∧ c = 13) ∧ c ≤ 3824)

/-- Places of body octets of a frame, filled in order. -/
def placeBody (f : Nat) : Nat → Nat → List Byte → List (Option Byte)
  | 0, _, _ => []
  | n + 1, i, b =>
    if isBody f i then b.head? :: placeBody f n (i + 1) (b.drop 1) else none :: placeBody f n (i + 1) b

/-- The context of the through source with the same TYPE and position. -/
def Chip.srcCtx (d : Chip) (t : Nat) : Option Nat :=
  let e := d.ctxOwner t
  match d.thruSrc e with
  | none => none
  | some n =>
    (d.ownedCtxs n).find? (fun u => decide (d.ctxType u = d.ctxType t) && decide (d.ctxPos u = d.ctxPos t)
      && decide (d.ctxSlots u = d.ctxSlots t) && decide (d.ctxTop u = d.ctxTop t)
      && (d.ctxTop t || decide (d.ctxPos (d.ctxParent u) = d.ctxPos (d.ctxParent t))))

/-- A context's container and pointer are all ones: PAYLOAD_SRC 0b11, or consequent AIS of its through
source (R113, R121, R132). -/
def Chip.ctxAis (d : Chip) (t : Nat) : Bool :=
  let src := (d.ctx t).src
  decide (src = 3) || (decide (src = 0) && d.rb (R.PAT_CFG (d.ctxOwner t)) 0
    && (match d.srcCtx t with | some u => d.downCtx u | none => false))

/-- AIS of the line or of the context replaces what an injected record names (R204). -/
def Chip.injMasked (d : Chip) (f : Nat) (ais : Bool) (x : Edit) : Bool :=
  if x.kind = 3 then ais || d.ctxAis (x.tgt % 2 ^ 14)
  else if x.kind ≤ 2 ∧ tgtSpace x.tgt then ais || d.ctxAis (tgtCtx x.tgt)
  else if x.kind ≤ 2 then ais && aisOctet f ((if isSdh f then sdhAt (stmN f) else otnAt) (tgtRow x.tgt) (tgtCol x.tgt))
  else ais

/-- The group whose selected stream an engine carries re-bases, and the stream pauses (R152). -/
def Chip.thruPaused (d : Chip) (e : Nat) : Bool :=
  d.rb (R.PAT_CFG e) 9 && (d.dsk (d.rf (R.PAT_CFG e) 8 1)).rebase.isSome

/-- An engine sends line AIS: forced, consequent, without its through source, while that pauses, or as idle fill
(R94, R132, R134, R152, R187, R188). -/
def Chip.lineAis (d : Chip) (e : Nat) (thru : Bool) (r : Option Run') (src : Option (List Byte)) : Bool :=
  d.rb (R.DEF_ACT e) 4
    || (thru && (!d.thruOk e || src.isNone || d.thruPaused e || (match d.thruSrc e with | some n => d.downLine n | none => true)))
    || (!thru && r.isNone && decide (d.rf (R.PAT_CFG e) 11 10 = 2))

/-- The octet of a frame's row 4 that a top context's pointer gives: H1 and H2, and the concatenation indication of
the other positions of a VC-4-Xc (R108, R113; log entry 41).  Group `g` of the columns, position `a` in the group. -/
def Chip.ptrOctet (d : Chip) (t g a : Nat) : Option Nat :=
  let ty := d.ctxType t
  let p := d.ctxPos t
  let w := (d.ctx t).txJc.getD 0 (6 * 4096 + 2048 + (d.ctx t).txPtr)
  let ones_ := decide (w = 0xFFFF)
  if ty = 5 then
    if a ≠ p.aug then none
    else if g + 1 = p.au3 then some (w / 256) else if g = p.au3 + 2 then some (w % 256) else none
  else if ty ≤ 4 ∧ p.aug ≤ a ∧ a < p.aug + concatX ty then
    (match g with
    | 0 => some (if a = p.aug then w / 256 else if ones_ then 0xFF else 0x9B)
    | 3 => some (if a = p.aug then w % 256 else 0xFF)
    | 1 | 2 => some (if ones_ then 0xFF else 0x9B)
    | 4 | 5 => some 0xFF
    | _ => none)
  else none

/-- The octet of columns 15 and 16 of a frame of a higher-order OPU, the line's (`none`) or a context's, of rank
`rank`: the justification bytes that the child sends whose slot the frame carries, or the OMFI (R116, R117, R118; log
entry 41).  A GMP child's are those of its last slot. -/
def Chip.jcOctet (d : Chip) (e : Nat) (p : Option Nat) (rank mf row col : Nat) : Option Nat :=
  if row = 4 then (if rank = 4 ∧ col = 16 then some (mf % 80) else none)
  else
    let slot := mf % max 1 (oduSlots rank)
    match d.slotChild e p (slot + 1) with
    | none => some 0
    | some t =>
      let j := (d.ctx t).txJc
      if d.isAmp t then some (if col = 16 then j.getD 1 0 else 0)
      else if d.ctxSlots t / 2 ^ (slot + 1) ≠ 0 then some 0
      else some (j.getD (if col = 16 then row else row + 3) 0)

/-- What the mapper gives for octet `i` of a frame's overhead: the pointers and justification bytes of contexts. -/
def Chip.mapOctet (d : Chip) (e f row col : Nat) : Option Nat :=
  if isSdh f then
    let n := stmN f
    if row ≠ 4 ∨ 6 * n < col then none
    else ((d.ownedCtxs e).filter (fun t => d.ctxTop t)).findSome? (fun t => d.ptrOctet t ((col - 1) / n) ((col - 1) % n))
  else
    let rank := d.lineMux e
    if rank = 0 ∨ col < 15 then none
    else d.jcOctet e none rank (if rank = 4 then (d.ohp e).txOmf else (d.ohp e).txMf) row col

/-- The octets of a framed transmit frame before scrambling: overhead by the order of R94, the body, what the mapper
lays over it, line AIS over that, and the FEC columns. -/
def Chip.frameOut (d : Chip) (e f : Nat) (ais : Bool) (src : Option (List Byte)) (body : List Byte) (es : List Edit)
    (fr : TxFrame) (tti : Nat → Nat) (free : Nat) : List Byte :=
  let n := frameOctets f
  let n3 := stmN f
  let sdh := isSdh f
  let bodyAt := placeBody f n 0 body
  let laidAt := if d.ownedCtxs e = [] then [] else
    fr.laid.foldl (fun (l : List (Option Byte)) x => layAt l (x.1, x.2.map some)) (List.replicate n none)
  let app := (d.ohp e).applied
  let psi := d.psiByte e (free % 256)
  let sent := (List.range n).map (fun i =>
    let (row, col) := rowCol f i
    let lay := (laidAt.getD i none).map (fun b => b.toNat)
    let o : Nat :=
      if isToh f i then
        let thru := src.map (fun l => octAt l i)
        let map_ := ((d.mapOctet e f row col).orElse (fun _ => lay)).getD (thru.getD (free / 256 ^ (row % 4 + 4 * (col % 2)) % 256))
        let (dflt, bip) := if sdh then d.sdhDflt e n3 row col (tti 0) map_ (thru.getD 0)
          else d.otnDflt e row col tti map_ psi (thru.getD 0)
        edited (overridden (SMap.get 0 app (obyteIdx e row col)) dflt thru) dflt bip (editsOf es row col)
      else lay.getD (((bodyAt.getD i none).map (fun b => b.toNat)).getD 0)
    BitVec.ofNat 8 (if ais ∧ aisOctet f i then 0xFF else o))
  if sdh then sent else fecEncode sent

/-- The body octets of a through frame, in order. -/
def bodyOctets (f : Nat) (l : List Byte) : List Byte := (l.zipIdx.filter (fun p => isBody f p.2)).map (fun p => p.1)

/-- The engine whose frames a protection host sends: in 1+1 the working engine, in 1:N that of the channel which the
accepted received request names (R138, R142). -/
def Chip.bridgeSrc (d : Chip) (e : Nat) : Option Nat :=
  if (d.group e).st = .disabled then none
  else if d.apsArch e = 2 then (if (d.group e).bridged = 0 then none else d.chanEngine e (d.group e).bridged)
  else d.chanEngine e 1

/-- The bridged frame: the working engine's, with the host's own K bytes or APS field, and its own B1 and B2. -/
def Chip.bridgeFrame (d : Chip) (e f : Nat) (l : List Byte) : List Byte :=
  let n := stmN f
  let o := d.ohp e
  let k := d.kBytes e
  let put := fun (x : List Byte) (i v : Nat) => x.set i (BitVec.ofNat 8 v)
  if isSdh f then
    let a := put (put (put l (sdhAt n 5 (3 * n + 1)) (k / 2 ^ 24)) (sdhAt n 5 (6 * n + 1))
      (k / 2 ^ 16 % 256 / 8 * 8 + (if d.backLine e then 6 else 0))) (sdhAt n 2 1) o.txB1
    o.txB2.zipIdx.foldl (fun x p => put x (sdhAt n 5 (p.2 + 1)) p.1) a
  else if octAt l 6 % 8 = d.rf (R.OHP_CFG e) 18 16 then
    fecEncode ((List.range 4).foldl (fun x c => put x (otnAt 4 (5 + c)) (k / 256 ^ (3 - c))) l)
  else l

/-- The octets of a frame in blocks of 16. -/
def blocks16 (l : List Byte) : List (List Byte) := (List.range (ceilDiv l.length 16)).map (fun b => (l.drop (16 * b)).take 16)

/-- Octets of several equal streams, interleaved bit by bit. -/
def bitMux (ls : List (List Byte)) : List Byte :=
  let n := ls.length
  let len := (ls.headD []).length
  (List.range (n * len)).map (fun i => BitVec.ofNat 8 ((List.range 8).foldl (fun a k =>
    let t := 8 * i + k
    let b := t / n
    a * 2 + b2n ((octAt (ls.getD (t % n) []) (b / 8)).testBit (7 - b % 8))) 0))

/-- The octets that a frame of an OTL group gives each of its four lanes (ITU-T G.709 Annex C; log entry 72): blocks of
16 go round the logical lanes from that of the frame's number, and five logical lanes of OTL4.4, each with its marker
in the sixth octet, are interleaved bit by bit on a lane. -/
def otlSplit (f mf omf : Nat) (l : List Byte) : List (List Byte) :=
  let n := if f = 0xC then 20 else 4
  let no := if f = 0xC then omf else mf
  let x := if f = 0xC then l.set 5 (BitVec.ofNat 8 omf) else l
  let lane := fun (k : Nat) => ((blocks16 x).zipIdx.filter (fun p => (p.2 + no) % n = k)).flatMap (fun p => p.1)
  if f = 0xC then (List.range 4).map (fun k => bitMux ((List.range 5).map (fun j => lane (5 * k + j))))
  else (List.range 4).map lane

/-- A frame's octets go to the lanes of the engine, or to those of the four engines of its gang. -/
def Chip.groupSend (d : Chip) (e f : Nat) (l : List Byte) : Chip :=
  if ¬ isOtl f then d.engSend e l
  else ((otlSplit f (d.ohp e).txMf (d.ohp e).txOmf l).zipIdx).foldl (fun (x : Chip) p => x.engSend (e + p.2) p.1) d

/-- The octets of a transmitted frame leave: what they leave behind for the next frame's BIPs and counts, and the
scrambled octets on the lanes (R44, R85, R94). -/
def Chip.frameSent (d : Chip) (e f : Nat) (l : List Byte) : Chip :=
  let n := stmN f
  let sent := if d.rb (R.PAT_CFG e) 12 then l else scramble f 0 l 127
  let y := d.ohp e
  let y1 := if isSdh f then { y with txNow := l, txB1 := xorBytes sent, txB2 := bip24 n l }
    else { y with txNow := l, txOpu2 := y.txOpu1, txOpu1 := bipOpu l, txMf := (y.txMf + 1) % 256, txOmf := (y.txOmf + 1) % 80 }
  ((d.groupSend e f sent).setOhp e y1).emit (.octets e sent)

/-- A raw line sends one repetition of its script, or 4,096 octets of idle fill (R187, R203). -/
def Dev.rawFrame (s : Dev) (e : Nat) (fr : TxFrame) (r : Option Run') : Dev :=
  let o := s.chip.ohp e
  let (es, s1) := match r with
    | some x => s.frameEdits e x
    | none => ([], s)
  let (inj, d1) := s1.chip.injFrame e fr.stamp (fun _ => false)
  let n := match r with
    | some x => (s.runSeg x).len
    | none => 4096
  let (b, st) := s.bodyOf r true n o.prbs
  let l := payEdits (es ++ inj.toList) (underrun fr.missAt fr.missed b)
  let d2 := d1.setOhp e { d1.ohp e with prbs := st, txNow := l }
  let d3 := match r with
    | some x => d2.setRun e 0 (some { x with live := true })
    | none => d2
  let d4 := if fr.missed ≠ 0 ∧ r.isSome then d3.patEvent e 5 0x0705 0 fr.missed 0 else d3
  ⟨(d4.engSend e l).emit (.octets e l), s1.mem⟩

/-- A framed transmit frame. -/
def Dev.framedFrame (s : Dev) (e : Nat) (fr : TxFrame) (r : Option Run') (src : Option (List Byte)) : Dev :=
  let f := s.chip.engFmt e
  let sdh := isSdh f
  let thru := s.chip.rb (R.PAT_CFG e) 0
  let ais := s.chip.lineAis e thru r src
  -- the edits of a frame that AIS replaces are not applied (R195)
  let (es, s1) := match r with
    | some x => if ais then ([], s) else s.frameEdits e x
    | none => ([], s)
  let (inj, d1) := s1.chip.injFrame e fr.stamp (s1.chip.injMasked f ais)
  let all := es ++ inj.toList
  let o := d1.ohp e
  let (b, st) := match src with
    | some l => (bodyOctets f l, o.prbs)
    | none => if thru then ([], o.prbs) else s.bodyOf r (decide (s.chip.rf (R.PAT_CFG e) 11 10 = 1)) (bodyPer f 0) o.prbs
  let body := payEdits all (if r.isSome then underrun fr.missAt fr.missed b else b)
  -- trace bytes of this frame
  let slots := if sdh then [0] else 0 :: 1 :: ((List.range 6).map (· + 2)).filter (fun k => d1.rb (R.OHP_CFG e) (6 + k))
  let (tt, d2) := slots.foldl (fun (a : List (Nat × Nat) × Chip) k =>
    let (v, c) := a.2.ttiSend (slotKey e k false) o.txMf
    (a.1 ++ [(k, v)], c)) ([], d1)
  let tti := fun k => ((tt.find? (fun x => x.1 = k)).map (·.2)).getD 0
  let (free, d3) := d2.fresh 72
  let l := d3.frameOut e f ais src body all fr tti free.toNat
  let d4 := (d3.setOhp e { d3.ohp e with prbs := st }).frameSent e f l
  let d5 := match r with
    | some x => d4.setRun e 0 (some { x with live := true })
    | none => d4
  ⟨if fr.missed ≠ 0 ∧ r.isSome then d5.patEvent e 5 0x0705 0 fr.missed 0 else d5, s1.mem⟩

/-- The frame that a protection host sends for another engine, unless it is forced to send AIS: the last one of that
engine's framer (R134, R138). -/
def Chip.bridged (d : Chip) (e : Nat) : Option (List Byte) :=
  let f := d.engFmt e
  match d.bridgeSrc e with
  | some w =>
    let l := (d.ohp w).txNow
    if w < 136 ∧ d.engEn w ∧ d.engFmt w = f ∧ isFramed f ∧ l.length = frameOctets f ∧ ¬ d.rb (R.DEF_ACT e) 4 then some l else none
  | none => none

/-- A transmit frame starts (R94). -/
def Dev.txFrame (s : Dev) (e : Nat) (fr : TxFrame) : Dev :=
  if ¬ s.chip.engEn e ∨ s.chip.head e ≠ e then s else
  let s0 := s.on (fun d => d.commitApply e)
  match s0.chip.bridged e with
  | some l => s0.on (fun d => d.frameSent e (d.engFmt e) (d.bridgeFrame e (d.engFmt e) l))
  | none =>
  let s1 := s0.frameEnd e 0 fr.stamp
  let thru := s1.chip.rb (R.PAT_CFG e) 0
  let lost := thru && !s1.chip.thruOk e
  let s2 := s1.on (fun d => if (d.pat e).lost = lost then d else d.setPat e { d.pat e with lost := lost })
  let r := match s2.chip.runOf e 0 with
    | some x => if thru ∨ x.wait then none else some x
    | none => none
  let raw := !isFramed (s2.chip.engFmt e) || (!thru &&
    (match r with
    | some x => (s2.runHdr x).raw
    | none => decide (s2.chip.rf (R.PAT_CFG e) 11 10 = 3)))
  if raw then s2.rawFrame e fr r
  else
    let (src, d) := if thru ∧ ¬ lost then s2.chip.thruPop e else (none, s2.chip)
    (Dev.mk d s2.mem).framedFrame e fr r src

/-! ## Trace buffers (R96) -/

/-- The slot key that OHP_TTI_IDX names; none for a local value above 7. -/
def Chip.ttiIdx (d : Chip) (e : Nat) : Option Nat :=
  let w := d.rd (R.OHP_TTI_IDX e)
  if bit w 15 then some (4096 + fld w 11 0) else if fld w 11 0 ≤ 7 then some (e * 8 + fld w 11 0) else none

/-- DATA register `k` of an engine window. -/
def ttiData (e k : Nat) : RegId := ⟨.eng, e, 0x280 + 4 * k⟩

/-- A write of OHP_TTI_IDX that names a buffer copies it into OHP_TTI_DATA0-15; otherwise the write is
ignored with IDX_ERR (R96). -/
def Chip.ttiIdxWrite (d : Chip) (e : Nat) (w : Word) : Status × Chip :=
  let buf := fld w 17 16
  if (¬ bit w 15 ∧ 7 < fld w 11 0) ∨ buf = 3 then (.badParam, d.flag (R.OHP_EVENT e) 10)
  else
    let d1 := d.wr (R.OHP_TTI_IDX e) (w32 (fld w 11 0 + b2n (bit w 15) * 2 ^ 15 + buf * 2 ^ 16))
    match d1.ttiIdx e with
    | none => (.ok, d1)
    | some k =>
      let t := d1.trace k
      let l := if buf = 0 then t.exp else if buf = 1 then t.acc else t.tx
      (.ok, (List.range 16).foldl (fun (x : Chip) i => x.wr (ttiData e i) (w32 (ofBytes ((padTo 64 0 l).drop (4 * i) |>.take 4)))) d1)

/-- OHP_TTI_CMD.STORE (R96). -/
def Chip.ttiStore (d : Chip) (e : Nat) : Status × Chip :=
  let buf := d.rf (R.OHP_TTI_IDX e) 17 16
  match d.ttiIdx e with
  | none => (.badParam, d.flag (R.OHP_EVENT e) 10)
  | some k =>
    let l := (List.range 16).flatMap (fun i => beBytes 4 (d.rd (ttiData e i)).toNat)
    let t := d.trace k
    if buf = 0 then (.ok, d.setTrace k { t with exp := l })
    else if buf = 2 then (.ok, d.setTrace k { t with tx := l })
    else (.badParam, d.flag (R.OHP_EVENT e) 10)

/-! ## Pointer generation (R109-R113, R118, R121) -/

/-- What a pointer period sends: the pointer word or Cm, the justification (1 positive, 2 negative), and the
justification bytes of an OTN context. -/
structure PtrOut where
  word : Nat
  just : Nat
  jc   : List Nat
deriving DecidableEq, Repr

/-- The SS bits of a type. -/
def ssOf (ty : Nat) : Nat := if ty = 8 then 3 else 2

/-- The pointer word with normal or enabled NDF. -/
def ptrWord (ty v : Nat) (ndf : Bool) : Nat := (if ndf then 9 else 6) * 4096 + ssOf ty * 1024 + v % 1024

/-- An action of a sequence step or edit (R112's register layout) on a generator. -/
def Ctx.act (x : Ctx) (ty a : Nat) : Ctx × PtrOut :=
  let mx := ptrMax ty
  let idle := ({ x with txGap := min 3 (x.txGap + 1) }, PtrOut.mk (ptrWord ty x.txPtr false) 0 [])
  match a % 4 with
  | 1 => ({ x with txPtr := if x.txPtr = mx then 0 else x.txPtr + 1, txGap := 0 },
      ⟨ptrWord ty (x.txPtr ^^^ 0x2AA) false, 1, []⟩)
  | 2 => ({ x with txPtr := if x.txPtr = 0 then mx else x.txPtr - 1, txGap := 0 },
      ⟨ptrWord ty (x.txPtr ^^^ 0x155) false, 2, []⟩)
  | 3 => ({ x with txPtr := a / 4 % 1024, txGap := 0 }, ⟨ptrWord ty (a / 4) (!a.testBit 13), 0, []⟩)
  | _ => idle

/-- An action may take place now: it adjusts nothing, is UNSAFE, or 3 periods have passed since the last
(R110). -/
def Ctx.mayAct (x : Ctx) (a : Nat) : Bool := decide (a % 4 = 0) || a.testBit 12 || decide (3 ≤ x.txGap + 1)

/-- The sequence program at the start of a pointer period: the action of a step that falls due, and the
events of its end (R112). -/
def Chip.seqPeriod (d : Chip) (t : Nat) : Option Nat × Chip :=
  let x := d.ctx t
  match x.seq with
  | none => (none, d)
  | some q =>
    if q.stop then (none, (d.setCtx t { x with seq := none }).ctxEvent t 5 0x0406 0)
    else if d.seqLen t ≤ q.step then (none, (d.setCtx t { x with seq := none }).ctxEvent t 4 0x0405 0)
    else if 1 < q.wait then (none, d.setCtx t { x with seq := some { q with wait := q.wait - 1 } })
    else
      let a := (d.seqWord t q.step).toNat % 2 ^ 14
      if ¬ x.mayAct a then (none, d)
      else
        let n := d.seqLen t
        let q1 : SeqRun :=
          if q.step + 1 < n then { q with step := q.step + 1, wait := d.seqWait t (q.step + 1) }
          else if d.rf (R.TRB_TX2 t) 15 0 ≠ 0 ∧ d.rf (R.TRB_TX2 t) 15 0 ≤ q.reps + 1 then { q with step := n, wait := 1 }
          else { q with step := 0, reps := q.reps + 1, wait := d.seqWait t 0 }
        (some a, d.setCtx t { x with seq := some q1 })

/-- The elastic store is recentred: SLIP, and `f` units of container octets are dropped, or repeated where `f` is
negative (R111). -/
def Chip.recentre (d : Chip) (t : Nat) (f unit : Int) : Chip :=
  ((d.setCtx t { d.ctx t with fill := 0 }).ctxEvent t 6 0x0404 0).emit (.slip t (f * unit))

/-- Octets of a justification unit: of the pointer's type, one of AMP, and an entity of a GMP context's slots (R108,
R118; log entry 70). -/
def Chip.unitOctets (d : Chip) (t : Nat) : Int :=
  let ty := d.ctxType t
  if ¬ oduType ty then (justOctets ty : Nat) else if d.isAmp t then 1 else (ones 80 (d.ctxSlots t) : Nat)

/-- Container units that a period carries at nominal rate: pointer values of an SDH type, octets of an AMP context's
slots. -/
def Chip.periodUnits (d : Chip) (t : Nat) : Int :=
  let ty := d.ctxType t
  if oduType ty then ((ones 80 (d.ctxSlots t) * gmpEntities (d.parentOdu t) : Nat) : Int) else ((ptrMax ty + 1 : Nat) : Int)

/-- The base behaviour of PTR_MODE (R109, R111, R118): an action, and SLIP when the store recentres.  The spacing of
R110 is that of pointers; an AMP context may justify in each of its multiframes (log entry 41). -/
def Chip.basePeriod (d : Chip) (t : Nat) (units : Int) : Nat × Chip :=
  let x := d.ctx t
  let mx : Int := ptrMax (d.ctxType t)
  let free := oduType (d.ctxType t) || decide (3 ≤ x.txGap + 1)
  match d.rf (R.TRB_TX t) 3 2 with
  | 1 =>
    let f := x.fill + units
    if (8 < f ∨ f < -8) ∧ free then
      let v := ((x.txPtr : Int) + mx + 1 - f) % (mx + 1)
      (if oduType (d.ctxType t) then 0 else 3 + 4 * v.toNat, d.recentre t f (d.unitOctets t))
    else if 2 < f ∧ free then (2, d.setCtx t { x with fill := f - 1 })
    else if f < -2 ∧ free then (1, d.setCtx t { x with fill := f + 1 })
    else (0, d.setCtx t { x with fill := f })
  | 3 =>
    let a := x.ppm + sgn 16 (d.rf (R.TRB_TX2 t) 31 16) * d.periodUnits t
    if 100000000 ≤ a ∧ free then (2, d.setCtx t { x with ppm := a - 100000000 })
    else if a ≤ -100000000 ∧ free then (1, d.setCtx t { x with ppm := a + 100000000 })
    else (0, d.setCtx t { x with ppm := a })
  | _ => (0, d)

/-- The store of THROUGH mode over a period whose action an edit chose: what entered it, and what the action took out
or left in (R111). -/
def Chip.forcedFill (d : Chip) (t : Nat) (units : Int) (a : Nat) : Chip :=
  if d.rf (R.TRB_TX t) 3 2 ≠ 1 then d else
  let x := d.ctx t
  let f := x.fill + units - (if a % 4 = 2 then 1 else if a % 4 = 1 then -1 else 0)
  if 8 < f ∨ f < -8 then d.recentre t f (d.unitOctets t) else d.setCtx t { x with fill := f }

/-- The pointer of an SDH context in a period (R113); under AIS no edit is applied (R195). -/
def Chip.ptrPeriod (d : Chip) (t : Nat) (units : Int) (ais : Bool) : PtrOut × Chip :=
  let ty := d.ctxType t
  let x0 := d.ctx t
  let pick := if ais then none else match x0.edit, x0.edit2 with
    | some a, b => some (a, b.isSome)
    | none, some b => some (b, false)
    | none, none => none
  match pick with
  | some (a, again) =>
    if x0.mayAct a then
      -- an edit replaces a running program (R113)
      let d1 := if x0.seq.isSome then (d.setCtx t { x0 with seq := none }).ctxEvent t 5 0x0406 0 else d
      let d2 := d1.forcedFill t units a
      let x := d2.ctx t
      let (y, o) := ({ x with edit := none, edit2 := if again then x.edit2 else none } : Ctx).act ty a
      (o, d2.setCtx t y)
    else
      let d1 := d.forcedFill t units 0
      let (y, o) := (d1.ctx t).act ty 0
      (o, d1.setCtx t y)
  | none =>
    let (sa, d1) := d.seqPeriod t
    let (a, d2) := match sa with
      | some a => (a, d1)
      | none => d1.basePeriod t units
    let (y, o) := (d2.ctx t).act ty a
    if ais then (⟨0xFFFF, 0, []⟩, d2.setCtx t { y with edit := none, edit2 := none }) else (o, d2.setCtx t y)

/-- The bits that JC1 and JC2 carry for a Cm after an earlier one: C1-C14 with II and DI (log entry 15). -/
def gmpCode (old new : Nat) : Nat :=
  if new = old then new * 4
  else if new = (old + 1) % 2 ^ 14 then (old ^^^ 0x1555) * 4 + 2
  else if new = (old + 2) % 2 ^ 14 then (old ^^^ 0x1999) * 4 + 2
  else if new + 1 = old then (old ^^^ 0x2AAA) * 4 + 1
  else if new + 2 = old then (old ^^^ 0x2666) * 4 + 1
  else new * 4 + 3

/-- JC1 to JC6 of a GMP context: its Cm with CRC-8, and ten bits that the spec does not state with CRC-5 (R117). -/
def gmpJcs (old new cnd : Nat) : List Nat :=
  let c := gmpCode old new
  let j4 := cnd / 32 % 32
  let j5 := cnd % 32
  [c / 256, c % 256, jcCrc8 (c / 256) (c % 256), j4, j5, jcCrc5 (j4 * 32 + j5)]

/-- The nominal Cm of a GMP context, which the spec does not state: a free value of its types and slots (log
entry 1). -/
def Chip.nominalCm (d : Chip) (t : Nat) : Nat :=
  (Config.freeValue 14 (2 ^ 64 + (d.ctxType t * 8 + d.parentOdu t) * 128 + ones 80 (d.ctxSlots t))).toNat

/-- The Cm of a GMP context in a multiframe (R118): nominal, with the store kept centred in THROUGH mode by one
entity at a time, or offset by TX_PPM; clipped to CM_MIN and CM_MAX with CM_RANGE. -/
def Chip.gmpPeriod (d : Chip) (t : Nat) (units : Int) : Nat × Chip :=
  let x := d.ctx t
  let nom : Int := d.nominalCm t
  let lo : Int := d.rf (R.TRB_GMP t) 13 0
  let hi : Int := d.rf (R.TRB_GMP t) 29 16
  let clip := fun (want : Int) => clampI lo hi want
  let done := fun (want : Int) (y : Chip) => if clip want = want then y else y.ctxEvent t 7 0x0407 (clip want).toNat
  match d.rf (R.TRB_TX t) 3 2 with
  | 1 =>
    let f := x.fill + units
    if 8 < f ∨ f < -8 then ((clip nom).toNat, done nom (d.recentre t f (d.unitOctets t)))
    else
      let want := if 2 < f then nom + 1 else if f < -2 then nom - 1 else nom
      ((clip want).toNat, done want (d.setCtx t { x with fill := f - (clip want - nom) }))
  | 3 =>
    let a := x.ppm + sgn 16 (d.rf (R.TRB_TX2 t) 31 16) * nom
    let want := nom + a / 100000000
    ((clip want).toNat, done want (d.setCtx t { x with ppm := a % 100000000 }))
  | _ => ((clip nom).toNat, done nom d)

/-- The justification of an OTN context in a multiframe (R116, R118): JC of an AMP context, Cm of a GMP one. -/
def Chip.jcPeriod (d : Chip) (t : Nat) (units : Int) : PtrOut × Chip :=
  if d.isAmp t then
    let (a, d1) := d.basePeriod t units
    let jc := if a % 4 = 2 then 1 else if a % 4 = 1 then 3 else 0
    (⟨jc, a % 4, [jc]⟩, d1)
  else
    let (c, d1) := if d.rf (R.TRB_TX t) 3 2 = 2 then (d.rf (R.TRB_GMP_TX t) 13 0, d) else d.gmpPeriod t units
    let (v, d2) := d1.fresh 10
    (⟨c, 0, gmpJcs ((d.ctx t).txJc.getD 0 c) c v.toNat⟩, d2)

/-- Octet `i` of a container is a path overhead byte: its row and column. -/
def contOh (ty i : Nat) : Option (Nat × Nat) :=
  if oduType ty then (if i % 3824 < 16 then some (i / 3824 + 1, i % 3824 + 1) else none)
  else if i % vcCols ty = 0 then some (i / vcCols ty + 1, 1) else none

/-- Octet `i` of a container is fixed stuff: the columns of a VC-4-Xc beside its path overhead. -/
def contStuff (ty i : Nat) : Bool := decide (ty ≤ 4) && decide (i % vcCols ty ≠ 0 ∧ i % vcCols ty < concatX ty)

/-- The default overhead byte of a container and whether it is a BIP (R83, R84): `tti` the trace byte, `z` the
byte passed from the through source, `label` the one sent, `free` octets the spec does not state. -/
def Chip.contDflt (d : Chip) (t row col tti z label free : Nat) : Nat × Bool :=
  let ty := d.ctxType t
  let x := d.ctx t
  let rdi := d.backCtx t
  -- REI and BEI send 0 where no BIP was evaluated (R86)
  let rei := if d.inFrame (d.ctxOwner t) ∧ x.worst = .norm then x.rei else 0
  -- justification bytes: those of the children of a higher-order ODU; the spec states none of another
  let mapped := fun (r c : Nat) =>
    if d.hasKids t then (d.jcOctet (d.ctxOwner t) (some t) (ctxOdu ty) (x.txMf % 256) r c).getD (free / 256 ^ (r + 4 * (c - 15)) % 256)
    else free / 256 ^ (r + 4 * (c - 15)) % 256
  if oduType ty then
    match row, col with
    | 1, 7 => (x.txMf % 256, false)
    | 1, c => if c ≤ 3 then (0xF6, false) else if c ≤ 6 then (0x28, false)
              else if 15 ≤ c then (mapped 1 c, false) else (z, false)
    | 3, 10 => (tti, false)
    | 3, 11 => (x.txBip2, true)
    | 3, 12 => (pmByte rei rdi 1, false)
    | 4, 15 =>
      let rank := ctxOdu ty
      let mf := x.txMf % 256
      (if mf = 0 then (if d.hasKids t then 0x21 else label) else if 2 ≤ mf ∧ mf - 1 ≤ oduSlots rank then d.msiTx (d.ctxOwner t) (some t) rank (mf - 1) else 0, false)
    | r, c => if 15 ≤ c then (mapped r c, false) else (z, false)
  else if ty = 7 ∨ ty = 8 then
    match row with
    | 1 => (x.txBip1 * 64 + b2n (decide (rei ≠ 0)) * 32 + label % 8 * 2 + b2n rdi, true)
    | 2 => (tti, false)
    | 4 => (z / 16 * 16 + (if rdi then 0xE else 0) + z % 2, false)
    | _ => (z, false)
  else
    match row with
    | 1 => (tti, false)
    | 2 => (x.txBip1, true)
    | 3 => (label, false)
    | 4 => (min 8 rei * 16 + b2n rdi * 8, false)
    | 6 => (if ty = 1 ∨ ty = 5 then 0xFC + x.txMf % 4 else z, false)
    | _ => (z, false)

/-- What an unequipped container keeps of an overhead byte: its BIP, its label 0 and, in an ODU, the frame alignment
(R121; log entry 41). -/
def uneqByte (ty row col : Nat) (v : Nat) : Nat :=
  if oduType ty then (if (row = 1 ∧ col ≤ 7) ∨ (row = 3 ∧ col = 11) then v else 0)
  else if ty = 7 ∨ ty = 8 then (if row = 1 then v / 64 * 64 else 0)
  else if row = 2 then v else 0

/-- A through context takes its source's container: the oldest one held that it has not sent, or again the one it sent
last (R109, R111; log entry 41). -/
def Chip.takeUnit (d : Chip) (t u : Nat) : List Byte × Chip :=
  let x := d.ctx t
  let y := d.ctx u
  if y.units ≤ x.took ∨ y.units = 0 then (if x.lastC.isEmpty then y.unit else x.lastC, d)
  else
    let old := decide (x.took + 1 < y.units ∧ x.took ≠ 0 ∧ y.unit0.isEmpty = false)
    let l := if old then y.unit0 else y.unit
    (l, d.setCtx t { x with took := if old then y.units - 1 else y.units, lastC := l })

/-- A container of a context starts (R121): what it carries and the overhead that goes with it. -/
def Dev.container (s : Dev) (t : Nat) (u : TxUnit) (ais : Bool) (o : PtrOut) : Dev :=
  let d := s.chip
  let e := d.ctxOwner t
  let ty := d.ctxType t
  let x := d.ctx t
  let n := contOctets ty
  let thru := d.rb (R.PAT_CFG e) 0
  let from_ := if x.src = 0 ∧ thru then d.srcCtx t else none
  let uneq := decide (x.src = 2) || (decide (x.src = 0) && thru && from_.isNone)
  let r := if x.src = 1 then (match d.runOf e (ctxSub t) with
    | some q => if q.wait then none else some q
    | none => none) else none
  let (es, s1) := match r with
    | some q => if ais then ([], s) else s.frameEdits e q
    | none => ([], s)
  let per := bodyPer 0 ty
  let (b0, st) := if x.src = 1 then s.bodyOf r (decide (d.rf (R.PAT_CFG e) 11 10 = 1)) per x.prbs else ([], x.prbs)
  let b := if r.isSome then underrun u.missAt u.missed b0 else b0
  let body := payEdits es (if x.src = 1 then b else if uneq then List.replicate per 0 else padTo per 0 u.line)
  let (srcUnit, d0) := match from_ with
    | some q => let (l, y) := s1.chip.takeUnit t q; (some l, y)
    | none => (none, s1.chip)
  let (tti, d1) := if d.rb (R.TRB_PATH t) 12 then d0.ttiSend (slotKey e (d.rf (R.TRB_PATH t) 11 0) true) x.txMf
    else let (v, y) := d0.fresh 8; (v.toNat, y)
  let (free, d2) := d1.fresh 88
  let label := if uneq then 0 else d.rf (R.TRB_PATH t) 31 24
  let app := (d2.ohp e).applied
  let c := d2.ctx t
  let place := (List.range n).foldl (fun (a : List Byte × List Byte) i =>
    match contOh ty i with
    | some (row, col) =>
      let z := match srcUnit with | some l => octAt l i | none => 0
      let (dflt0, bip) := d2.contDflt t row col tti z label free.toNat
      let dflt := if uneq then uneqByte ty row col dflt0 else dflt0
      let v := edited (overridden (SMap.get 0 app (ctxByteIdx t row col)) dflt (srcUnit.map (fun l => octAt l i))) dflt bip (c.ohEdits row col)
      (a.1 ++ [BitVec.ofNat 8 v], a.2)
    | none =>
      match srcUnit with
      | some l => (a.1 ++ [l.getD i 0], a.2)
      | none => if contStuff ty i then (a.1 ++ [0], a.2) else (a.1 ++ [a.2.headD 0], a.2.drop 1)) (([] : List Byte), body)
  let l := if ais then List.replicate n 0xFF else place.1
  let bip := if oduType ty then bipOdu l else if ty = 7 ∨ ty = 8 then bip2 (xorBytes l) else xorBytes l
  let d3 := d2.setCtx t { c with txBip2 := c.txBip1, txBip1 := bip, txMf := (c.txMf + 1) % 256, prbs := st, oh := [],
                                 txJc := o.word :: o.jc }
  let d4 := match r with
    | some q => d3.setRun e (ctxSub t) (some { q with live := true })
    | none => d3
  let d5 := if u.missed ≠ 0 ∧ r.isSome then d4.patEvent e 5 0x0705 (ctxSub t) u.missed 0 else d4
  ⟨d5.emit (.container t o.word o.just l), s1.mem⟩

/-- A transmit pointer period of a context starts (R113), and with it its container. -/
def Dev.ptrStart (s : Dev) (t : Nat) (u : TxUnit) : Dev :=
  let e := s.chip.ctxOwner t
  if ¬ s.chip.ctxEn t ∨ ¬ s.chip.engEn e then s else
  -- PAYLOAD_SRC takes effect at the container's start (R121)
  let s0 := s.on (fun d => d.setCtx t { d.ctx t with src := d.rf (R.TRB_TX t) 1 0 })
  let s1 := s0.frameEnd e (ctxSub t) s0.chip.dt
  let ais := s1.chip.ctxAis t
  let (o, d) := if oduType (s1.chip.ctxType t) then s1.chip.jcPeriod t u.units else s1.chip.ptrPeriod t u.units ais
  (Dev.mk d s1.mem).container t u ais o

end Sys2Proof.Machine
end

