-- ==== Sys2Proof/Machine/Engine.lean ====
section
/-! DEFINITION. Enabling, disabling and resetting a channel engine (R47, R95, R188, R313, R384). -/

namespace Sys2Proof.Machine

/-- The gang of an engine with GANG set is consistent (R47): four engines of one cluster, none a spare or
retired, each with GANG set and bound to a different lane of one quad. -/
def Chip.gangOk (d : Chip) (e : Nat) : Bool :=
  if !d.ganged e then true else
  let es := (List.range 4).map (· + e / 4 * 4)
  let lanes := es.filterMap d.boundLane
  es.all (fun x => decide (x < 136) && d.ganged x && !d.svc.spares.contains x && !d.svc.retired.contains x)
    && decide (lanes.length = 4) && decide lanes.Nodup && lanes.all (fun n => decide (n / 4 = lanes.headD 0 / 4))

/-- The check of R188 on a through-mode engine. -/
def Chip.thruCfgOk (d : Chip) (e : Nat) : Bool :=
  let n := d.rf (R.PAT_CFG e) 8 1
  !d.rb (R.PAT_CFG e) 0 || (decide (n ≤ 135) && decide (d.engFmt n = d.engFmt e))

/-- The first enable check of R313 that fails: its status and the flag it sets. -/
def Chip.engCheck (d : Chip) (e : Nat) : Option (Status × Option (RegId × Nat)) :=
  if !d.engReady e then some (.notReady, none)
  else if !d.gangOk e then some (.badParam, some (R.SWB_RX_STATUS e, 0))
  else if !d.huntCfgOk e then some (.badParam, some (R.HNT_EVENT e, 9))
  else if d.rf (R.OHP_CFG e) 23 20 = 0 then some (.badParam, some (R.OHP_EVENT e, 9))
  else if !d.thruCfgOk e then some (.badParam, some (R.PAT_EVENT e, 9))
  else none

/-- The status of a failed check, with its flag. -/
def Chip.failCheck (d : Chip) (f : Status × Option (RegId × Nat)) : Status × Chip :=
  (f.1, match f.2 with | some (r, b) => d.flag r b | none => d)

/-- No APS value and no label has been accepted since the enable (R91). -/
def Ohp.fresh (o : Ohp) : Ohp :=
  { o with aps := Seen.init, apsAcc := false, s1 := Seen.init, pt := Seen.init, labAcc := false }

/-- What an enable starts: the hunter in OOF, the mapper's re-check, the loss counter, the acceptances of R91 and the
performance seconds. -/
def Chip.engStart (d : Chip) (e : Nat) : Chip :=
  let d0 := ((d.flag (R.ENG_CTRL e) 0).setPair (R.CAP_LOST_LO e) (R.CAP_LOST_HI e) 0).unflag (R.OHP_LABEL e) 31
  let d1 := d0.setOhp e (d0.ohp e).fresh
  let d2 := d1.setMon e { d1.mon e with sec := d.dt / secTicks }
  (((d2.huntStart e).mapStart e).syncLine e).apsEngine e

/-- A write that sets ENG_CTRL.ENABLE (R313). -/
def Chip.engEnable (d : Chip) (e : Nat) : Status × Chip :=
  match d.engCheck e with
  | some f => d.failCheck f
  | none => (.ok, d.engStart e)

/-- The hunter stops, and its retractions are written before the gap of a loss that runs (R179 steps 3 and 4). -/
def Chip.huntStopped (d : Chip) (e : Nat) : Chip :=
  let bufs := d.lineEngs e
  let d1 := bufs.foldl (fun (x : Chip) g => x.setCap g { x.cap g with losses := [] }) d
  bufs.foldl (fun (x : Chip) g => x.setCap g { x.cap g with losses := (d.cap g).losses }) (d1.huntStop e)

/-- A write that clears ENG_CTRL.ENABLE (R313). -/
def Dev.engDisable (s : Dev) (e : Nat) : Dev :=
  if !s.chip.engEn e then s else
  let s1 := (s.on (fun d => d.huntStopped e)).rgnStopEng e
  s1.on (fun d => ((((d.patStop e).unflag (R.ENG_CTRL e) 0).defClearAll e).mapStop e).apsEngine e)

/-- Every register of an engine's window and of the objects reached only through it returns to its reset
value (R11, R384).  The combiners and time compares that the window also reaches belong to the cluster and keep theirs
(log entry 10, DESIGN CHOICE: the spec does not say). -/
def Chip.engRegsReset (d : Chip) (e : Nat) : Chip :=
  { d with regs := d.regs.filter (fun x =>
      let b := x.1 / 2 ^ 48
      let i := x.1 / 2 ^ 12 % 2 ^ 36
      !((decide (b = Blk.eng.code) && decide (i = e)) || (decide (b = Blk.obyte.code) && decide (i / 2 ^ 14 = e))
        || (decide (b = Blk.tslot.code) && decide (i < 4096) && decide (i / 8 = e))
        || (decide (b = Blk.mat.code) && decide (i / 4 = e)))) }

/-- The working state of an engine at its reset. -/
def Chip.engClear (d : Chip) (e : Nat) : Chip :=
  let d1 := (((((d.setHunter e Hunter.init).setCap e Cap.init).setOhp e Ohp.init).setPat e Pat.init).setMon e DefMon.init)
  let d2 := (List.range 8).foldl (fun (x : Chip) k => x.setTrace (e * 8 + k) Trace.init) d1
  { d2 with mats := d2.mats.filter (fun x => x.1 % 2 ^ 20 / 4 ≠ e) }

/-- The effects of an engine reset (R384): those of clearing ENABLE, armed regions stop (R185), a hosted group ends with
its APS_CFG, and the window returns to its reset values; READY is 0. -/
def Dev.engReset (s : Dev) (e : Nat) : Dev :=
  let s1 := (s.engDisable e).rgnStopEng e
  s1.on (fun d =>
    let d1 := if d.rb (R.APS_CFG e) 0 then d.apsLeave e else d
    let d2 := ((d1.engRegsReset e).engClear e)
    { d2 with engRdy := d2.engRdy.filter (· ≠ e) })

/-- An engine's reset and its self-test, in core cycles (R384). -/
def engResetTime : Nat := 10000
def engTestTime : Nat := 2000000

/-- Reset begins now; the self-test follows it. -/
def Chip.engTimer (d : Chip) (e wait : Nat) : Chip :=
  let t := (d.core + wait, d.core + wait + engTestTime)
  { d with pwr := { d.pwr with engT := SMap.put (0, 0) d.pwr.engT e t } }

/-- An engine is held in reset or powered down (R302, R384, R387). -/
def Chip.engHeld (d : Chip) (e : Nat) : Bool :=
  d.svc.retired.contains e || d.pwr.off.contains (e / 8)
    || decide (d.core < (SMap.get (0, 0) d.pwr.engT e).1)

/-- The reset and self-test of an engine are complete (R384). -/
def Chip.engResetDone (d : Chip) (e : Nat) : Chip :=
  let t := SMap.get (0, 0) d.pwr.engT e
  if t.2 = 0 ∨ d.core < t.2 ∨ d.svc.retired.contains e then d else
  { d with engRdy := if d.engRdy.contains e then d.engRdy else e :: d.engRdy,
           pwr := { d.pwr with engT := SMap.put (0, 0) d.pwr.engT e (0, 0) } }

end Sys2Proof.Machine
end

