-- ==== Sys2Proof/Machine/Service.lean ====
section
/-! DEFINITION. The service master (R372-R375, R387-R394): the ledger applied at start-up, understudy checks
and votes, engine substitution and SPARE_SUBSTITUTE. -/

namespace Sys2Proof.Machine

/-- Changes the service master. -/
def Chip.setSvc (d : Chip) (x : Svc) : Chip := { d with svc := x }

/-! ## Spares (R387) -/

/-- A spare that can be taken: in the pool, ready, its cluster powered, and in no substitution. -/
def Chip.spareOk (d : Chip) (s : Nat) : Bool :=
  d.svc.spares.contains s && d.engRdy.contains s && !d.engHeld s && !d.svc.subs.any (fun x => x.new = s)

/-- A spare that also runs no check. -/
def Chip.spareFree (d : Chip) (s : Nat) : Bool :=
  d.spareOk s && !d.svc.checks.any (fun c => c.spare = s || c.second = some s)

/-- An engine takes part in a substitution that has not cut over (R392 step 3). -/
def Chip.subBusy (d : Chip) (e : Nat) : Bool :=
  d.svc.subs.any (fun x => x.cut.isNone && (x.old = e || x.new = e))

/-- The engine whose window answers a read: OLD for NEW while a substitution runs (R392 step 3). -/
def Chip.readEngine (d : Chip) (e : Nat) : Nat :=
  match d.svc.subs.find? (fun x => x.cut.isNone && x.new = e) with
  | some x => x.old
  | none => e

/-! ## The understudy check (R388, R389) -/

/-- An engine may be checked: enabled, not a spare, not in an OTL gang; and no check or substitution names it
yet. -/
def Chip.eligible (d : Chip) (e : Nat) : Bool :=
  d.engEn e && d.engReady e && !d.ganged e && !d.svc.checks.any (fun c => c.engine = e) && !d.subBusy e

/-- The spare copies the engine's configuration: every RW field of its window but the enables, so that the
spare's outputs reach nothing (log entry 20). -/
def Chip.copyConfig (d : Chip) (e s : Nat) : Chip :=
  (RegMap.engRows.filter (fun r => r.rw ≠ 0)).foldl (fun (x : Chip) r =>
    let from_ : RegId := ⟨.eng, e, r.off⟩
    let dst : RegId := ⟨.eng, s, r.off⟩
    let m : Word := w32 (if r.off = 0 ∨ r.off = 0x380 then r.rw - 1 else r.rw)
    x.wr dst ((x.rd from_ &&& m) ||| (x.rd dst &&& ~~~ m))) d

/-- A later host write to the engine's window reaches the spares that shadow it (R388). -/
def Chip.mirror (d : Chip) (e : Nat) : Chip :=
  let ss := (d.svc.checks.filter (fun c => c.engine = e)).flatMap (fun c => c.spare :: c.second.toList)
  ss.foldl (fun (x : Chip) s => x.copyConfig e s) d

/-- A free spare takes up the eligible engine that was checked least recently (R388); none at THERM_CRIT
(R395). -/
def Chip.checkStart (d : Chip) (s : Nat) : Chip :=
  if !d.svc.ready || !d.rb R.SVC_CFG 0 || d.pwr.crit || !d.spareFree s then d else
  match d.svc.order.find? d.eligible with
  | none => d
  | some e => (d.copyConfig e s).setSvc { d.svc with checks := d.svc.checks ++ [⟨s, e, d.core, none, 0⟩] }

/-- The check of a spare. -/
def Chip.checkOf (d : Chip) (s : Nat) : Option Check := d.svc.checks.find? (fun c => c.spare = s)

/-- Verdicts of SVC_UND_LAST. -/
inductive Verd where
  | pass | skip | engineFault | spareFault | inconclusive | unconfirmed
deriving DecidableEq, Repr

/-- The code of a verdict. -/
def Verd.code : Verd → Nat
  | .pass => 0 | .skip => 1 | .engineFault => 2 | .spareFault => 3 | .inconclusive => 4 | .unconfirmed => 5

/-- The SVC_EVENT bit of a verdict. -/
def Verd.bit : Verd → Nat
  | .pass => 0 | .skip => 2 | .engineFault => 3 | .spareFault => 4 | .inconclusive => 5 | .unconfirmed => 5

/-- A check ends with a verdict (R389, R390, R397): the engine goes to the end of the rotation, or to its
head when the vote was inconclusive. -/
def Chip.checkEnd (d : Chip) (c : Check) (v : Verd) : Chip :=
  let rest := d.svc.order.filter (· ≠ c.engine)
  let order := if v = .inconclusive then c.engine :: rest else rest ++ [c.engine]
  let d1 := d.setSvc { d.svc with order := order, checks := d.svc.checks.filter (fun x => x.spare ≠ c.spare) }
  let d2 := (d1.flag R.SVC_EVENT v.bit).wr R.SVC_UND_LAST (w32 (c.engine + c.spare * 2 ^ 8 + v.code * 2 ^ 16))
  match v with
  | .pass => d2.count R.SVC_UND_PASS_CNT
  | .skip => d2.count R.SVC_UND_SKIP_CNT
  | _ => d2

/-- Every check that meets a condition ends as SKIP. -/
def Chip.skipChecks (d : Chip) (p : Check → Bool) : Chip :=
  (d.svc.checks.filter p).foldl (fun (x : Chip) c => x.checkEnd c .skip) d

/-- PASS after 10^10 compared core cycles, SKIP 20 s after a check began (R389). -/
def passTime : Nat := 10000000000
def skipTime : Nat := 20000000000

/-- A check passes. -/
def Chip.checkPass (d : Chip) (s : Nat) : Chip :=
  match d.checkOf s with
  | some c => if c.second.isNone ∧ c.start + passTime ≤ d.core then d.checkEnd c .pass else d
  | none => d

/-- A check has not completed in time. -/
def Chip.checkSkip (d : Chip) (s : Nat) : Chip :=
  match d.checkOf s with
  | some c => if c.second.isNone ∧ c.start + skipTime ≤ d.core then d.checkEnd c .skip else d
  | none => d

/-- A difference starts the vote (R390): S2 is a free spare, or one taken from another check, which ends as
SKIP; without one the verdict is UNCONFIRMED. -/
def Chip.mismatch (d : Chip) (s : Nat) : Chip :=
  match d.checkOf s with
  | none => d
  | some c =>
    if c.second.isSome then d else
    let d1 := (d.flag R.SVC_EVENT 1).count R.SVC_UND_MISMATCH_CNT
    let join := fun (x : Chip) (s2 : Nat) =>
      (x.copyConfig c.engine s2).setSvc { x.svc with checks := x.svc.checks.map (fun y =>
        if y.spare = s then { y with second := some s2, vote := d.core } else y) }
    match d1.svc.spares.find? d1.spareFree with
    | some s2 => join d1 s2
    | none =>
      match d1.svc.spares.find? (fun x => d1.spareOk x && d1.svc.checks.any (fun y => y.spare = x && y.second.isNone && decide (x ≠ s))) with
      | some s2 => join (d1.skipChecks (fun y => y.spare = s2)) s2
      | none => d1.checkEnd c .unconfirmed

/-! ## Engine substitution (R391-R393) -/

/-- A substitution begins: the slot is reserved, NEW leaves any other check and shadows OLD (R392 steps 1
and 2). -/
def Chip.subStart (d : Chip) (old new reason init session : Nat) : Option (Nat × Chip) :=
  (d.reserve 1 reason init old new session).map (fun r =>
    let d1 := r.2.skipChecks (fun c => c.spare = new || c.second = some new || c.engine = old)
    (r.1, ((d1.copyConfig old new).flag R.SVC_EVENT 6).setSvc { d1.svc with subs := d1.svc.subs ++ [⟨old, new, r.1, d.core, none⟩] }))

/-- A spare that failed its vote is retired (R390); without a free slot it is not. -/
def Chip.spareRetire (d : Chip) (s : Nat) : Chip :=
  match d.reserve 1 1 0 s 0xFFFF 0 with
  | none =>
    let (b, d1) := d.fresh 32
    d1.ledgerFull b.toNat
  | some (n, d1) =>
    let d2 := (d1.engRegsReset s).engClear s
    ({ d2 with engRdy := d2.engRdy.filter (· ≠ s) }.setSvc
      { d2.svc with spares := d2.svc.spares.filter (· ≠ s), retired := d2.svc.retired ++ [s] }).burnSlot n

/-- The verdict of a vote (R390, R391). -/
def Chip.voteEnd (d : Chip) (s : Nat) (v : Vote) : Chip :=
  match d.checkOf s with
  | none => d
  | some c =>
    match c.second, v with
    | none, _ => d
    | some _, .engine =>
      let d1 := d.checkEnd c .engineFault
      if !d1.rb R.SVC_CFG 1 then d1
      else if d1.ganged c.engine then d1.flag R.SVC_EVENT 9
      else match d1.subStart c.engine s 1 0 0 with
        | some (_, d2) => d2
        | none =>
          let (b, d2) := d1.fresh 32
          d2.ledgerFull b.toNat
    | some _, .first => (d.checkEnd c .spareFault).spareRetire s
    | some s2, .second => (d.checkEnd c .spareFault).spareRetire s2
    | some _, .none => d.checkEnd c .inconclusive

/-- A substitution is abandoned: the reservation is freed and OLD stays in service. -/
def Chip.subAbort (d : Chip) (x : EngSub) : Chip :=
  ((d.unreserve x.slot).flag R.SVC_EVENT 8).setSvc { d.svc with subs := d.svc.subs.filter (fun y => y.slot ≠ x.slot) }

/-- Substitutions whose NEW is fenced, not ready or powered down are abandoned before the cutover. -/
def Chip.subCheck (d : Chip) : Chip :=
  (d.svc.subs.filter (fun x => x.cut.isNone &&
    (!d.engRdy.contains x.new || d.engHeld x.new || (SMap.get none d.yard.fences (mKey (x.new / 8))).isSome))).foldl
    (fun (y : Chip) x => y.subAbort x) d

/-- The entries of a table at `a` to `a + n - 1` move to `b` and up, in place of what stands there. -/
def SMap.moveRange {α : Type} (m : SMap α) (a b n : Nat) : SMap α :=
  let inR := fun (lo k : Nat) => decide (lo ≤ k ∧ k < lo + n)
  (m.filter (fun x => inR a x.1)).foldl (fun y x => SMap.insert (x.1 - a + b) x.2 y)
    (m.filter (fun x => !inR a x.1 && !inR b x.1))

/-- A field of a register that names OLD names NEW. -/
def Chip.rename (d : Chip) (r : RegId) (hi lo old new : Nat) : Chip :=
  if d.rf r hi lo = old then d.sf r hi lo new else d

/-- Every reference to OLD names NEW (R392 step 5). -/
def Chip.renameAll (d : Chip) (old new : Nat) : Chip :=
  let d1 := (List.range 128).foldl (fun (x : Chip) n => x.rename (R.LN_TX n) 23 16 old new) d
  let d2 := (List.range 16384).foldl (fun (x : Chip) t => x.rename (R.TRB_CFG t) 12 5 old new) d1
  let d3 := (List.range 136).foldl (fun (x : Chip) e =>
    (x.rename (R.APS_MEMBER e) 7 0 old new).rename (R.PAT_CFG e) 8 1 old new) d2
  let d4 := (List.range 4096).foldl (fun (x : Chip) r => x.rename (R.rgn_CAP_RGN_SRC r) 8 0 old new) d3
  (List.range 64).foldl (fun (x : Chip) k => x.rename (R.xmem_TDM_XMEMBER k) 7 0 old new) d4

/-- OLD's RC counters are added into NEW's, and the rest of OLD's window and of the objects reached through
it becomes NEW's. -/
def Chip.moveRegs (d : Chip) (old new : Nat) : Chip :=
  let sums := RegMap.engRows.filterMap (fun r =>
    if r.rc = 0xFFFFFFFF then
      some (r.off, w32 (min ((d.rd ⟨.eng, old, r.off⟩).toNat + (d.rd ⟨.eng, new, r.off⟩).toNat) 0xFFFFFFFF))
    else none)
  let mv := fun (m : SMap Word) (b : Blk) (sz : Nat) =>
    SMap.moveRange m (b.code * 2 ^ 48 + old * sz) (b.code * 2 ^ 48 + new * sz) sz
  let m := mv (mv (mv (mv d.regs .eng (2 ^ 12)) .obyte (2 ^ 26)) .tslot (2 ^ 15)) .mat (2 ^ 14)
  sums.foldl (fun (x : Chip) s => x.wr ⟨.eng, new, s.1⟩ s.2) { d with regs := m }

/-- OLD's working state becomes NEW's: hunter, buffers, overhead, queue and scripts, defects, the group that
it hosts with its timers and selector, and its trace slots. -/
def Chip.moveWork (d : Chip) (old new : Nat) : Chip :=
  { d with
    hunters := SMap.moveRange d.hunters old new 1,
    caps := SMap.moveRange d.caps old new 1,
    ohps := SMap.moveRange d.ohps old new 1,
    pats := SMap.moveRange d.pats old new 1,
    mons := SMap.moveRange d.mons old new 1,
    groups := SMap.moveRange d.groups old new 1,
    dsks := SMap.moveRange d.dsks old new 1,
    defts := SMap.moveRange d.defts (old * 4096) (new * 4096) 4096,
    traces := SMap.moveRange d.traces (old * 8) (new * 8) 8,
    mats := SMap.moveRange (SMap.moveRange d.mats (old * 4) (new * 4) 4) (2 ^ 20 + old * 4) (2 ^ 20 + new * 4) 4 }

/-- The bales of R393 for one armed sub-channel of OLD, in their order; `lost` is the octets of step 4 at a
cutover by SUB_TMO. -/
def Chip.subBales (d : Chip) (r old new slot : Nat) (lost : Option Nat) : Chip :=
  let sub := (d.rcfg r).sub
  let d1 := (d.drainSub old sub).closeBale r
  let d2 := (d1.writeRetract r 6 d.dt d.splitHold).writeSubst r old new slot d.dt d.splitHold
  match lost with
  | some n => d2.writeGap r n d.dt d.dt 4 false d.splitHold
  | none => d2

/-- The cutover (R392 steps 5 and 6, R393): the bales of every armed sub-channel, every reference, queue, group
and counter, then OLD is disabled and retired, NEW is in service, and the slot waits to be burned.  At a
cutover by SUB_TMO NEW has not found the alignment and searches it. -/
def Chip.cutOver (d : Chip) (old : Nat) (lost : Option Nat) : Chip :=
  match d.svc.subs.find? (fun x => x.old = old && x.cut.isNone) with
  | none => d
  | some x =>
    let new := x.new
    let regions := (d.rgns.filter (fun y => y.2.live && decide ((d.rcfg y.1).eng = old))).map (·.1)
    let ended := (d.tentSubs old).foldl (fun (y : Chip) s => y.resolveEnded old s (some 6)) d
    let d1 := regions.foldl (fun (y : Chip) r => y.subBales r old new x.slot lost) ended
    let d2 := ((d1.renameAll old new).moveRegs old new).moveWork old new
    let svc := { d2.svc with
      spares := d2.svc.spares.filter (· ≠ new), retired := d2.svc.retired ++ [old],
      subs := d2.svc.subs.map (fun y => if y.slot = x.slot then { y with cut := some lost.isSome } else y) }
    let d3 := (({ d2 with engRdy := d2.engRdy.filter (· ≠ old) }).setSvc svc).burnSlot x.slot
    match lost with
    | none => d3
    | some _ => (d3.flag R.SVC_EVENT 10).huntStart new

/-- SVC_CFG.SUB_TMO has passed since the substitution began (R392 step 4). -/
def Chip.subTimeout (d : Chip) (old lost : Nat) : Chip :=
  match d.svc.subs.find? (fun x => x.old = old && x.cut.isNone) with
  | none => d
  | some x => if x.start + d.rf R.SVC_CFG 15 8 * 1000000 ≤ d.core then d.cutOver old (some lost) else d

/-- A burn ends (R372); the engine substitution that it records is complete (R392 step 7). -/
def Chip.ledgerBurned (d : Chip) : Chip :=
  let d1 := d.burnDone
  let gone := d1.svc.subs.filter (fun x => x.cut.isSome && !d1.ledger.resv.any (fun r => r.slot = x.slot))
  gone.foldl (fun (y : Chip) x =>
    y.setSvc { y.svc with subs := y.svc.subs.filter (fun z => z.slot ≠ x.slot),
                          last := some (x.old, x.new, x.slot, x.cut.getD false) }) d1

/-! ## SPARE_SUBSTITUTE (R223, R228, R375) -/

/-- KIND 1: an engine. -/
def Chip.subEngine (d : Chip) (old : Nat) (new : Option Nat) (session : Nat) : (Status × Option Nat) × Chip :=
  let newBad : Bool := match new with | some n => !d.svc.spares.contains n | none => false
  if decide (136 ≤ old) || d.svc.spares.contains old || d.svc.retired.contains old || newBad then ((.badParam, none), d)
  else if d.subBusy old then ((.busy, none), d)
  else if d.ganged old then ((.noSpare, none), d)
  else
    match (match new with
      | some n => if d.spareOk n then some n else none
      | none => d.svc.spares.find? d.spareOk) with
    | none => ((.noSpare, none), d)
    | some n =>
      match d.subStart old n 4 1 session with
      | some (slot, d1) => ((.ok, some slot), d1)
      | none =>
        let (b, d1) := d.fresh 32
        ((.ledgerFull, none), d1.ledgerFull b.toNat)

/-- KIND 2: a Hayloft pseudo-channel, coded 32 × stack + PC. -/
def Chip.subPc (d : Chip) (old : Nat) (new : Option Nat) (session : Nat) : (Status × Option Nat) × Chip :=
  let s := old / 32
  let pc := old % 32
  let x := d.stack s
  let dest : Bool := match x.mig with | some g => decide (g.dest = pc) | none => false
  let src : Bool := match x.mig with | some g => decide (g.from_ = pc) | none => false
  let free := d.freePcs s
  if 128 ≤ old then ((.badParam, none), d)
  else if ¬ x.ready then ((.notReady, none), d)
  else if (!x.map.contains pc && !dest) || (match new with
      | some n => decide (n / 32 ≠ s) || !x.spares.contains (n % 32)
      | none => false) then ((.badParam, none), d)
  else if dest || src || x.waiting.any (fun w => w.1 = pc) || d.ledger.resv.any (fun r => r.kind = 2 && r.old = old && !r.ready) then
    ((.busy, none), d)
  else
    match (match new with
      | some n => if free.contains (n % 32) then some (n % 32) else none
      | none => free.head?) with
    | none => ((.noSpare, none), d)
    | some m =>
      match d.reserve 2 4 1 old (pcIdx s m) session with
      | none => ((.ledgerFull, none), d.ledgerFull pc)
      | some (slot, d1) =>
        match x.map.findIdx? (· = pc) with
        | some lpc => ((.ok, some slot), d1.migStart s lpc 4 (some slot) (some m))
        | none => ((.ok, some slot), d1)

/-- The spare of a Yard port, as R371 codes it: YM23 for a master, YT36 + s for a port of stack s. -/
def sparePort (old : Nat) : Option Nat :=
  if old < 23 then some 23
  else if 0x100 ≤ old ∧ old < 0x120 then some (0x124 + (old - 0x100) / 8)
  else none

/-- A port has a spare in its position, or a substitution of it has begun. -/
def Chip.portTaken (d : Chip) (old : Nat) : Bool :=
  if old < 0x100 then decide (d.yard.mSub = some old) else d.yard.tSub.any (fun x => decide (x.2 = some (old - 0x100)))

/-- The spare of a position is in use or reserved. -/
def Chip.spareUsed (d : Chip) (new : Nat) : Bool :=
  (if new < 0x100 then d.yard.mSub.isSome else (SMap.get none d.yard.tSub (new - 0x100)).isSome)
    || d.ledger.resv.any (fun r => r.kind = 3 && r.new = new && !r.ready)

/-- KIND 3: a Yard port. -/
def Chip.subPort (d : Chip) (old : Nat) (new : Option Nat) (session : Nat) : (Status × Option Nat) × Chip :=
  let known := decide (old < 23) || (decide (0x100 ≤ old) && decide (old < 0x124))
  if !known || d.portTaken old || (match new with | some n => decide (some n ≠ sparePort old) | none => false) then
    ((.badParam, none), d)
  else if d.ledger.resv.any (fun r => r.kind = 3 && r.old = old && !r.ready) then ((.busy, none), d)
  else
    match sparePort old with
    | none => ((.noSpare, none), d)
    | some n =>
      if d.spareUsed n then ((.noSpare, none), d) else
      match d.reserve 3 4 1 old n session with
      | none =>
        let (b, d1) := d.fresh 32
        ((.ledgerFull, none), d1.ledgerFull b.toNat)
      | some (slot, d1) =>
        ((.ok, some slot), if old < 23 then d1.fence (mKey old) old else d1.fence (old - 0x100) 0x1F)

/-- SPARE_SUBSTITUTE by its KIND. -/
def Chip.spareSub (d : Chip) (kind old : Nat) (new : Option Nat) (session : Nat) : (Status × Option Nat) × Chip :=
  match kind with
  | 1 => d.subEngine old new session
  | 2 => d.subPc old new session
  | 3 => d.subPort old new session
  | _ => ((.badParam, none), d)

/-! ## The ledger applied at system reset (R373, R376, R387) -/

/-- A processor is retired with a ledger record, or without one when no slot is free (R329, R374). -/
def Chip.recordPav (d : Chip) (p reason : Nat) : Chip :=
  match d.reserve 4 reason 0 p 0xFFFF 0 with
  | some (n, d1) => d1.burnSlot n
  | none => d.ledgerFull p

/-- One slot is applied: OLD leaves service and NEW takes its place; a torn slot is reported. -/
def Chip.applySlot (d : Chip) (n : Nat) : Chip :=
  let x := d.lslot n
  if x.bytes.isEmpty then d else
  match x.sub with
  | none => (d.flag R.LED_EVENT 2).ev srcSvc 0x0B02 n
  | some (1, old, new) =>
    d.setSvc { d.svc with spares := d.svc.spares.filter (fun e => e ≠ old ∧ e ≠ new), retired := d.svc.retired ++ [old] }
  | some (2, old, new) =>
    let s := old / 32
    let y := d.stack s
    match y.map.findIdx? (· = old % 32) with
    | some l => d.setStack s { y with map := setAt y.map l (new % 32), retired := y.retired ++ [old % 32] }
    | none => d
  | some (3, old, new) =>
    if old < 0x100 then d.setYard { d.yard with mSub := some old }
    else d.setYard { d.yard with tSub := SMap.put none d.yard.tSub (new % 0x100) (some (old - 0x100)) }
  | some _ => d

/-- The service master applies the ledger and is ready; a standby that failed in autonomous hold is recorded
now (R331). -/
def Chip.svcReady (d : Chip) : Chip :=
  let d1 := d.setSvc { Svc.init with spares := (List.range 8).map (· + 128) }
  let d2 := (List.range 48).foldl (fun (x : Chip) n => x.applySlot n) d1
  let d3 := d2.pav.unrec.foldl (fun (x : Chip) p => x.recordPav p 6) d2
  { d3 with svc := { d3.svc with ready := true }, pav := { d3.pav with unrec := [] } }

/-! ## Registers computed from this state (R397) -/

/-- SVC_STATUS. -/
def Chip.svcStatus (d : Chip) : Word :=
  w32 (b2n d.svc.ready + min 8 (d.svc.spares.filter d.spareFree).length * 2 + b2n (!d.svc.subs.isEmpty) * 2 ^ 5
    + min 8 d.svc.checks.length * 2 ^ 6)

/-- SVC_SUB. -/
def Chip.svcSub (d : Chip) : Word :=
  match d.svc.last with
  | some (o, n, s, t) => w32 (o + n * 2 ^ 8 + s * 2 ^ 16 + b2n t * 2 ^ 22 + 2 ^ 23)
  | none => 0

/-- A word of 32 engine bits. -/
def engBits (p : Nat → Bool) (w : Nat) : Word :=
  w32 ((List.range 32).foldl (fun a k => if decide (32 * w + k < 136) && p (32 * w + k) then a + 2 ^ k else a) 0)

/-- SHADOWED of ENG_STATUS. -/
def Chip.shadowed (d : Chip) (e : Nat) : Bool := d.svc.checks.any (fun c => c.engine = e)

/-- ENG_STATUS. -/
def Chip.engStatus (d : Chip) (e : Nat) : Word := w32 (b2n (d.engReady e) + b2n (d.shadowed e) * 2)

end Sys2Proof.Machine
end

