-- ==== Sys2Proof/Machine/TimeUnit.lean ====
section
/-! DEFINITION. Device Time, the servo and the PTP clock, and the timing ports (chapter 10). -/

namespace Sys2Proof.Machine

/-- The source of time unit events and of a timing port's (R281). -/
def srcTim : Nat := 0x2010
def srcTp (p : Nat) : Nat := 0x2011 + p

/-- Ticks of one second. -/
def oneSec : Nat := 4000000000

/-- Replaces the time unit's state. -/
def Chip.setTim (d : Chip) (t : Tim) : Chip := { d with tim := t }
/-- A timing port. -/
def Chip.tp (d : Chip) (p : Nat) : Tp := SMap.get Tp.init d.tps p
/-- Replaces a timing port. -/
def Chip.setTp (d : Chip) (p : Nat) (x : Tp) : Chip := { d with tps := SMap.put Tp.init d.tps p x }

/-- The source that TIM_CFG selects: 0 none, 1 PTP, 2 PPS. -/
def Chip.timSource (d : Chip) : Nat := d.rf R.TIM_CFG 2 1
/-- TIM_CFG.ENABLE. -/
def Chip.timEn (d : Chip) : Bool := d.rb R.TIM_CFG 0
/-- TIM_CFG.HOLD_10M. -/
def Chip.hold10 (d : Chip) : Bool := d.rb R.TIM_CFG 5
/-- A timing port is enabled in a mode. -/
def Chip.tpMode (d : Chip) (p m : Nat) : Bool := d.rb (R.TP_CFG p) 0 && decide (d.rf (R.TP_CFG p) 3 1 = m)
/-- A port is the selected PPS source of an enabled time unit. -/
def Chip.ppsSource (d : Chip) (p : Nat) : Bool :=
  d.timEn && decide (d.timSource = 2) && decide (d.rf R.TIM_CFG 4 3 = p)

/-! ## The rate of Device Time (R231, R233, R251) -/

/-- 2^-32 tick. -/
def sub32 : Nat := 4294967296

/-- The frequency in force, in 0.001 ppm: the 10 MHz input's while the time clock is locked to it, else the
estimate or the held frequency. -/
def Tim.rate (t : Tim) : Int := if t.refLock then t.ref else t.freq

/-- A time cycle outside a catch-up: 8 ticks, the frequency in force and at most SLEW of phase correction. -/
def Chip.timeRun (d : Chip) : Chip :=
  let t := d.tim
  let base : Int := 8 * sub32 + (8 * sub32 * t.rate) / 1000000000
  let most : Int := (8 * sub32 * t.slew) / 1000000
  let fix := if t.st = .tracking then clampI (-most) most t.phase else 0
  let total := ((t.frac : Int) + base - fix).toNat
  { d with dt := d.dt + total / sub32, tim := { t with frac := total % sub32, phase := t.phase - fix } }

/-- One 2 ns time cycle of Device Time: half rate in a catch-up. -/
def Chip.timeCycle (d : Chip) : Chip :=
  let t := d.tim
  match t.back with
  | some b =>
    if b.left = 0 then d.timeRun else
    let e := min 8 b.left
    { d with dt := d.dt + (8 - e / 2), tim := { t with back := some { b with left := b.left - e } } }
  | none => d.timeRun

/-- One core cycle passes; every second one a time cycle ends, once the time unit is ready. -/
def Chip.tick (d : Chip) : Chip :=
  let d1 := { d with core := d.core + 1 }
  if d1.core % 2 = 0 ∧ d1.tim.ready then d1.timeCycle else d1

/-! ## Servo states (R236) -/

/-- LOCKED changes, with its event. -/
def Chip.setLocked (d : Chip) (on : Bool) : Chip :=
  if d.tim.locked = on then d else
  let d1 := d.setTim { d.tim with locked := on, inRun := 0, outRun := 0 }
  if on then (d1.flag R.TIM_EVENT 6).ev srcTim 0x0906 0 else (d1.flag R.TIM_EVENT 7).ev srcTim 0x0907 0

/-- The mean of the estimates of the last 16 s of TRACKING (R248); the present one where there is none. -/
def Tim.heldFreq (t : Tim) (core : Nat) : Int :=
  let l := (t.hist.filter (fun x => core ≤ x.1 + 16000000000)).map (·.2)
  if l.isEmpty then t.freq else (l.foldl (· + ·) 0) / (l.length : Int)

/-- The servo moves to a state; as master it has no cause of holdover (log entry 9). -/
def Chip.timMove (d : Chip) (st : TSt) : Chip :=
  let t := d.tim
  if t.st = st then d else
  let d1 := if t.st = .tracking then
      (d.setTim { t with freq := t.heldFreq d.core, phase := 0, hist := [], inRun := 0, outRun := 0 }).setLocked false
    else d
  let d2 := d1.setTim { d1.tim with st := st, causes := if st = .master then [] else d1.tim.causes }
  (d2.flag R.TIM_EVENT 0).ev srcTim 0x0900 st.code

/-- A cause of holdover begins: TRACKING goes to HOLDOVER, and HOLDOVER gains the cause. -/
def Chip.addCause (d : Chip) (c : Nat) : Chip :=
  if d.tim.st = .tracking ∨ d.tim.st = .holdover then
    let t := d.tim
    (d.setTim { t with cause := c, causes := c :: t.causes.filter (· ≠ c) }).timMove .holdover
  else d

/-- A cause of holdover ends; when it was the last, the servo tracks again. -/
def Chip.endCause (d : Chip) (c : Nat) : Chip :=
  let t := d.tim
  if ¬ t.causes.contains c then d else
  let d1 := d.setTim { t with causes := t.causes.filter (· ≠ c) }
  if t.st = .holdover ∧ d1.tim.causes.isEmpty then d1.timMove .tracking else d1

/-! ## Steps (R249-R252) -/

/-- A forward step moves past a trigger out: no pulse, SKIP, and the next period or disarmed. -/
def Chip.tpSkip (d : Chip) (p before : Nat) : Chip :=
  match (d.tp p).armed with
  | none => d
  | some a =>
    let off := sgn 32 (d.rd (R.TP_OUT_OFFSET p)).toNat
    let target := (a : Int) + off
    if (before : Int) < target ∧ target < (d.dt : Int) then
      let per := (d.rd (R.TP_PERIOD p)).toNat
      let k := ceilDiv ((d.dt : Int) - target).toNat per
      let next := if per = 0 then none else some (a + k * per)
      ((d.setTp p { d.tp p with armed := next }).flag (R.TP_EVENT p) 6).ev (srcTp p) 0x0911 0
    else d

/-- The first whole second whose pulse, at offset `off`, lies after `now`. -/
def nextSecond (now : Nat) (off : Int) : Nat := (((now : Int) - off) / (oneSec : Int) + 1).toNat * oneSec

/-- A forward step passes a PPS boundary without a pulse. -/
def Chip.ppsSkip (d : Chip) (p before : Nat) : Chip :=
  let x := d.tp p
  let target := (x.sec : Int) + x.off
  if (before : Int) < target ∧ target < (d.dt : Int) then
    let off := sgn 32 (d.rd (R.TP_OUT_OFFSET p)).toNat
    d.setTp p { x with sec := nextSecond (d.dt - 1) off, off := off }
  else d

/-- Device Time jumps forward by `n` at one time cycle (R251, R252). -/
def Chip.jump (d : Chip) (n : Nat) : Chip :=
  let before := d.dt
  let d1 := { d with dt := d.dt + n }
  (List.range 4).foldl (fun (x : Chip) p => (x.tpSkip p before).ppsSkip p before) d1

/-- STEP_DONE, stamped with Device Time before the step. -/
def Chip.stepDone (d : Chip) (before : Nat) (amount : Int) : Chip :=
  (d.flag R.TIM_EVENT 1).evtAt before srcTim 0x0901 0xFFFF (unsgn 32 amount) (unsgn 64 amount * 2 ^ 64)

/-- A commanded step is complete (R251): the pending step ends, and a holdover that had no other cause. -/
def Chip.stepEnd (d : Chip) (before : Nat) (amount : Int) : Chip :=
  ((d.setTim { d.tim with stepPend := false }).stepDone before amount).endCause 1

/-- TIME_STEP and TIM_CTRL.STEP (R251): the status and the device. -/
def Chip.timeStep (d : Chip) (amount : Int) : Status × Chip :=
  if !d.tim.ready then (.notReady, d)
  else if d.tim.back.isSome then (.busy, d)
  else if amount = 0 then (.ok, d)
  else if 0 < amount ∧ amount < 2 ^ 47 then (.ok, (d.jump amount.toNat).stepEnd d.dt amount)
  else if -(oneSec : Int) ≤ amount ∧ amount < 0 then
    (.ok, d.setTim { d.tim with back := some ⟨2 * amount.natAbs, d.dt, amount⟩ })
  else (.stepRefused, d)

/-- The pending offset, or the last accepted one. -/
def Chip.timOffset (d : Chip) : Int := sgn 64 (d.pair R.TIM_OFFSET_LO R.TIM_OFFSET_HI)

/-- The `D` of a measured step, when one is pending. -/
def Chip.measured (d : Chip) : Option Int := if d.tim.stepPend then some (-d.timOffset) else none

/-- A measured step (R251). -/
def Chip.timeStepMeas (d : Chip) : Status × Chip :=
  if !d.tim.ready then (.notReady, d)
  else if d.tim.back.isSome then (.busy, d)
  else match d.measured with
    | none => (.badParam, d)
    | some a => d.timeStep a

/-- The catch-up has run for twice the step. -/
def Chip.catchupDone (d : Chip) : Chip :=
  match d.tim.back with
  | some b => if b.left = 0 then (d.setTim { d.tim with back := none }).stepEnd b.before b.amount else d
  | none => d

/-- An accepted load moves Device Time forward by `n`. -/
def Chip.timeLoad (d : Chip) (n : Nat) : Status × Chip :=
  let d1 := d.jump n
  (.ok, (d1.setTim { d1.tim with setDone := true }).stepDone d.dt n)

/-- TIME_SET and TIM_CTRL.SET (R249, R250). -/
def Chip.timeSet (d : Chip) (v : Nat) : Status × Chip :=
  if !d.tim.ready then (.notReady, d)
  else if d.tim.setDone then (.notPermitted, d)
  else if d.timSource = 2 ∧ d.tim.st ≠ .freerun then
    let diff := (v : Int) - d.dt
    let n := (2 * diff + oneSec) / (2 * oneSec)
    if n < 1 then (.badParam, d) else d.timeLoad (n.toNat * oneSec)
  else if v ≤ d.dt then (.badParam, d)
  else d.timeLoad (v - d.dt)

/-- TIM_CTRL.HOLD (R418). -/
def Chip.timHold (d : Chip) : Chip := d.addCause 5
/-- TIM_CTRL.RELEASE (R418). -/
def Chip.timRelease (d : Chip) : Chip := d.endCause 5

/-- A write to TIM_CTRL (R418). -/
def Chip.timCtrl (d : Chip) (w : Word) : Status × Chip :=
  if 1 < ones 5 w.toNat then (.badParam, d)
  else if bit w 0 then d.timeStep (sgn 64 (d.pair R.TIM_STEP_LO R.TIM_STEP_HI))
  else if bit w 1 then d.timeStepMeas
  else if bit w 2 then d.timeSet (d.pair R.TIM_SET_LO R.TIM_SET_HI)
  else if bit w 3 then (.ok, d.timHold)
  else if bit w 4 then (.ok, d.timRelease)
  else (.ok, d)

/-! ## Offset samples (R242-R244) -/

/-- Insertion into a rising list. -/
def insertInt (x : Int) : List Int → List Int
  | [] => [x]
  | y :: l => if x ≤ y then x :: y :: l else y :: insertInt x l

/-- The median of samples: of an even number, the lower of the two middle ones, as the worked example of
chapter 10 has it. -/
def median (l : List Int) : Int := (l.foldr insertInt []).getD ((l.length - 1) / 2) 0

/-- Ticks of a number of nanoseconds. -/
def nsTicks (n : Nat) : Int := 4 * (n : Int)

/-- TIM_STEP_THR in ticks. -/
def Chip.stepThr (d : Chip) : Int := nsTicks (d.rf R.TIM_STEP_THR 29 0)
/-- TIM_PATH_THR in ticks. -/
def Chip.pathThr (d : Chip) : Int := nsTicks (d.rf R.TIM_PATH_THR 19 0)

/-- The offset shown while no step is pending. -/
def Chip.showOffset (d : Chip) (x : Int) : Chip :=
  if d.tim.stepPend then d else d.setPair R.TIM_OFFSET_LO R.TIM_OFFSET_HI (unsgn 64 x)

/-- A new frequency estimate (R242): how it follows from the trend of the offsets is open. -/
def Chip.estimate (d : Chip) : Chip :=
  if d.hold10 then d else
  let (v, d1) := d.fresh 20
  let f := clampI (-200000) 200000 (sgn 20 v.toNat)
  d1.setTim { d1.tim with freq := f, hist := d1.tim.hist ++ [(d1.core, f)] }

/-- An accepted offset in TRACKING: slewed, and counted towards LOCKED (R236, R242, R243). -/
def Chip.slewTo (d : Chip) (x : Int) : Chip :=
  let t := d.tim
  let inn := decide (x.natAbs ≤ 400)
  let a := if inn then t.inRun + 1 else 0
  let b := if inn then 0 else t.outRun + 1
  let d1 := (d.setTim { t with phase := x * sub32, slew := d.rf R.TIM_SLEW 8 0, inRun := min 16 a, outRun := min 4 b }).estimate
  if 16 ≤ a ∧ !t.locked then d1.setLocked true
  else if 4 ≤ b ∧ t.locked then d1.setLocked false
  else d1

/-- A step is refused (R244). -/
def Chip.refuseStep (d : Chip) (l : List Int) : Chip :=
  let m := median l
  let d1 := (d.setPair R.TIM_OFFSET_LO R.TIM_OFFSET_HI (unsgn 64 m)).setTim
    { d.tim with stepPend := true, withheld := [] }
  (((d1.flag R.TIM_EVENT 2).count R.TIM_STEP_REF_CNT).evt srcTim 0x0902 0xFFFF 0 (unsgn 64 m * 2 ^ 64)).addCause 1

/-- An offset sample that passed the path check is judged against the step threshold (R244). -/
def Chip.judge (d : Chip) (x : Int) : Chip :=
  if d.tim.st = .master then d
  else if d.stepThr < (x.natAbs : Int) then
    let l := d.tim.withheld ++ [x]
    let d1 := d.setTim { d.tim with withheld := l, within := 0 }
    if l.length < 4 then d1
    else if d.tim.stepPend then d1.setTim { d1.tim with withheld := [] }
    else d1.refuseStep l
  else
    let n := min 4 (d.tim.within + 1)
    let d1 := d.setTim { d.tim with withheld := [], within := n }
    let d2 := d1.endCause 3
    let d3 := if d2.tim.stepPend ∧ n = 4 then (d2.setTim { d2.tim with stepPend := false }).endCause 1 else d2
    let d4 := d3.showOffset x
    let d5 := if d4.tim.st = .freerun then d4.timMove .tracking else d4
    if d5.tim.st = .tracking then d5.slewTo x else d5

/-- The first PTP sample out of FREERUN while SET_DONE is 0 (R236): Device Time steps forward to the
source; an offset by which it is ahead is slewed. -/
def Chip.firstPtp (d : Chip) (x : Int) : Chip :=
  let n := (-x).toNat
  let d1 := d.jump n
  let d2 := (d1.setTim { d1.tim with setDone := true }).stepDone d.dt n
  ((d2.showOffset x).timMove .tracking).slewTo (x + n)

/-- A PTP offset sample (R244). -/
def Chip.ptpOffset (d : Chip) (x : Int) : Chip :=
  if d.tim.st = .freerun ∧ !d.tim.setDone then d.firstPtp x else d.judge x

/-- A PPS sample of an edge stamped `s` (R250): the first-phase step, or judged. -/
def Chip.ppsSample (d : Chip) (s : Nat) : Chip :=
  let x : Int := (s : Int) - ((s + oneSec / 2) / oneSec * oneSec : Nat)
  if d.tim.st = .freerun ∧ !d.tim.setDone then
    let n := (oneSec - s % oneSec) % oneSec
    let d1 := (d.jump n).stepDone d.dt n
    (d1.showOffset x).timMove .tracking
  else d.judge x

/-! ## Path delay samples (R246) -/

/-- The Sync that waits is judged, unless the last delay sample was an outlier or no delay is accepted. -/
def Chip.judgeSync (d : Chip) : Chip :=
  let t := d.tim
  match t.pair, t.mpd with
  | some (t1, t2), some m =>
    if t.fresh ∧ d.timSource = 1 then
      let d1 := d.setTim { t with fresh := false }
      if t.lastOut then d1 else d1.ptpOffset (t2 - t1 - m)
    else d
  | _, _ => d

/-- A delay sample joins the consistent run, or begins a new one. -/
def Chip.consistent (d : Chip) (x : Int) : List Int :=
  let r := d.tim.run
  if r.isEmpty then [x]
  else if 4 * (x - median r).natAbs ≤ d.pathThr.natAbs then r ++ [x] else [x]

/-- The median of a run of 16 is adopted as the accepted mean path delay. -/
def Chip.adopt (d : Chip) (r : List Int) : Chip :=
  let m := median r
  let d1 := (d.setTim { d.tim with mpd := some m, run := [], pathHold := false, lastOut := false }).wr R.TIM_MPD
    (w32 (unsgn 32 m))
  d1.endCause 2

/-- A new path delay sample (R246). -/
def Chip.delaySample (d : Chip) (x : Int) : Chip :=
  let t := d.tim
  let win := (t.window ++ [x]).drop (t.window.length + 1 - 16)
  match t.mpd with
  | none =>
    let r := d.consistent x
    let d1 := d.setTim { t with window := win, run := r }
    if r.length = 16 then d1.adopt r else d1
  | some m =>
    let out := decide (d.pathThr < ((x - m).natAbs : Int))
    let d1 := d.setTim { t with window := win, lastOut := out }
    let d2 := if out then d1.count R.TIM_OUTLIER_CNT else d1
    if t.pathHold then
      let r := d.consistent x
      let d3 := d2.setTim { d2.tim with run := r }
      if r.length = 16 then d3.adopt r else d3
    else if d.timSource ≠ 2 ∧ win.length = 16 ∧ d.pathThr < ((median win - m).natAbs : Int) then
      (((d2.setTim { d2.tim with pathHold := true, run := [] }).flag R.TIM_EVENT 4).evt srcTim 0x0904 0xFFFF 0
        (unsgn 64 (median win) * 2 ^ 64)).addCause 2
    else d2

/-! ## The PTP clock (R237-R241, R245) -/

/-- The ingress and egress correction of a host port, in ticks (R239, R240). -/
def Chip.ptpLat (d : Chip) (p : Nat) (out : Bool) : Int :=
  if d.rb R.TIM_CFG (16 + p) then sgn 32 (d.rd ⟨.tim, 0, 0x050 + 8 * p + (if out then 4 else 0)⟩).toNat
  else match d.rf R.HST_CFG 2 1, out with
    | 0, false => 745 | 0, true => 289
    | 1, false => 394 | 1, true => 165
    | _, false => 195 | _, true => 123

/-- The stamp of a message received or sent now on the PTP port. -/
def Chip.ptpStamp (d : Chip) (out : Bool) : Int :=
  let p := d.rf R.TIM_CFG 11 10
  if out then (d.dt : Int) + d.ptpLat p true else (d.dt : Int) - d.ptpLat p false

/-- The device's clock identity, from its MAC address, and its port identity. -/
def Chip.clockId (d : Chip) : Nat :=
  let mac := d.pair R.HST_MAC_LO R.HST_MAC_HI + d.rf R.TIM_CFG 11 10
  mac / 2 ^ 24 * 2 ^ 40 + 0xFFFE * 2 ^ 24 + mac % 2 ^ 24
def Chip.portId (d : Chip) : Nat := d.clockId * 2 ^ 16 + 1

/-- The device's own data set, as the comparison takes it (R237). -/
def Chip.ownRank (d : Chip) : List Nat :=
  [d.rf R.TIM_PTP_DS 15 8, d.rf R.TIM_PTP_DS 31 24, 0xFE, 0xFFFF, d.rf R.TIM_PTP_DS 23 16, d.clockId, 0, d.portId]

/-- The first list ranks before the second. -/
def rankLt : List Nat → List Nat → Bool
  | a :: l, b :: m => decide (a < b) || (decide (a = b) && rankLt l m)
  | [], _ :: _ => true
  | _, [] => false

/-- A PTP interval field, as core cycles. -/
def ivlCycles (code : Nat) : Nat := 1000000000 * 2 ^ (sgn 4 code + 7).toNat / 128
/-- The announce interval and the announce receipt timeout in core cycles. -/
def Chip.annIvl (d : Chip) : Nat := ivlCycles (d.rf R.TIM_PTP_IVL 11 8)
def Chip.annTimeout (d : Chip) : Nat := d.annIvl * d.rf R.TIM_PTP_IVL 15 12

/-- The qualified clocks, two Announces and none overdue, and the best of them. -/
def Chip.bestMaster (d : Chip) : Option Foreign :=
  (d.tim.masters.filter (fun f => decide (2 ≤ f.n) && decide (d.core ≤ f.last + d.annTimeout))).foldl
    (fun (b : Option Foreign) f => match b with
      | some x => if rankLt f.rank x.rank then some f else some x
      | none => some f) none

/-- GM_CHANGE (R245). -/
def Chip.gmChange (d : Chip) (new : Nat) : Chip :=
  let old := d.pair R.TIM_GM_ID_LO R.TIM_GM_ID_HI
  (((d.flag R.TIM_EVENT 3).count R.TIM_GM_CHG_CNT).evt srcTim 0x0903 0xFFFF 0 (old * 2 ^ 64 + new)).setPair
    R.TIM_GM_ID_LO R.TIM_GM_ID_HI new

/-- The best master clock algorithm runs (R236, R237, R245). -/
def Chip.bmca (d : Chip) : Chip :=
  match d.bestMaster with
  | none => d
  | some f =>
    let role := d.rf R.TIM_CFG 9 8
    if role = 2 then d
    else if role = 0 ∧ rankLt d.ownRank f.rank then
      (d.setTim { d.tim with sel := none }).timMove .master
    else if role = 0 ∧ d.rf R.TIM_PTP_DS 31 24 < 128 then
      let d1 := d.setTim { d.tim with sel := none }
      if d.tim.st = .master then d1.timMove .tracking else d1
    else
      let new := decide (d.tim.sel ≠ some f.src) || decide (d.pair R.TIM_GM_ID_LO R.TIM_GM_ID_HI ≠ f.gm)
      let d1 := if new then d.gmChange f.gm else d
      let d2 := d1.setTim { d1.tim with sel := some f.src, annT := f.last,
                                        fresh := d1.tim.fresh && decide (d.tim.sel = some f.src) }
      if d.tim.st = .master then d2.timMove .tracking else d2

/-- An Announce arrives. -/
def Chip.announceRx (d : Chip) (m : PtpMsg) : Chip :=
  if m.src = d.portId ∨ 255 ≤ m.rank.getD 6 0 then d else
  let t := d.tim
  let n := match t.masters.find? (fun f => f.src = m.src) with
    | some f => if d.core ≤ f.last + 4 * d.annIvl then min 2 (f.n + 1) else 1
    | none => 1
  let rest := t.masters.filter (fun f => f.src ≠ m.src ∧ d.core ≤ f.last + 4 * d.annTimeout)
  (d.setTim { t with masters := rest ++ [⟨m.src, m.rank.take 7 ++ [m.src], m.gm, n, d.core⟩] }).bmca

/-- A Sync's send time is known: the Sync before it is judged and this one waits. -/
def Chip.syncTime (d : Chip) (t1 t2 : Int) : Chip :=
  let d1 := d.judgeSync
  d1.setTim { d1.tim with pair := some (t1, t2), fresh := true, sync := none }

/-- A PTP message arrives on the host port (R237-R246). -/
def Chip.ptpRx (d : Chip) (m : PtpMsg) : Chip :=
  if ¬ (d.timEn ∧ d.tim.ready ∧ m.domain = d.rf R.TIM_PTP_DS 7 0 ∧ m.transport = d.rf R.TIM_CFG 14 13) then d else
  let now := d.ptpStamp false
  let peer := d.rb R.TIM_CFG 12
  let port := d.rf R.TIM_CFG 11 10
  let mine := decide (d.tim.sel = some m.src)
  match m.kind with
  | .announce => d.announceRx m
  | .sync =>
    if ¬ mine then d
    else if m.twoStep then d.setTim { d.tim with sync := some (m.src, m.seq, now, m.corr) }
    else d.syncTime (m.time + m.corr) now
  | .followUp =>
    match d.tim.sync with
    | some (src, seq, t2, corr) =>
      if mine ∧ src = m.src ∧ seq = m.seq then d.syncTime (m.time + m.corr + corr) t2 else d
    | none => d
  | .delayResp =>
    match d.tim.dreq, d.tim.pair with
    | some (seq, t3), some (t1, t2) =>
      if mine ∧ ¬ peer ∧ m.req = d.portId ∧ m.seq = seq then
        ((d.setTim { d.tim with dreq := none }).delaySample ((t2 - t1 + (m.time - m.corr - t3)) / 2)).judgeSync
      else d
    | _, _ => d
  | .delayReq =>
    if d.tim.st = .master ∧ ¬ peer then
      d.emit (.ptp port 9 [m.seq, m.src, now, m.corr])
    else d
  | .pdelayReq =>
    if ¬ peer then d
    else if d.rb R.TIM_CFG 15 then
      (d.emit (.ptp port 3 [m.seq, m.src, now, 0])).emit (.ptp port 10 [m.seq, m.src, d.ptpStamp true, m.corr])
    else d.emit (.ptp port 3 [m.seq, m.src, 0, m.corr + d.ptpStamp true - now])
  | .pdelayResp =>
    match d.tim.dreq with
    | some (seq, t1) =>
      if peer ∧ m.req = d.portId ∧ m.seq = seq then
        if m.twoStep then d.setTim { d.tim with presp := some (seq, m.time, now, m.corr) }
        else ((d.setTim { d.tim with dreq := none }).delaySample ((now - t1 - m.corr) / 2)).judgeSync
      else d
    | none => d
  | .pdelayFollow =>
    match d.tim.dreq, d.tim.presp with
    | some (seq, t1), some (seq2, t2, t4, corr) =>
      if peer ∧ m.req = d.portId ∧ m.seq = seq ∧ seq2 = seq then
        ((d.setTim { d.tim with dreq := none, presp := none }).delaySample
          ((t4 - t1 - (m.time - t2) - corr - m.corr) / 2)).judgeSync
      else d
    | _, _ => d
  | .other => d

/-- The announce receipt timeout expires (R236, R237): the loss of a selected source; with none, a BMCA clock
becomes master. -/
def Chip.annExpire (d : Chip) : Chip :=
  if ¬ d.timEn ∨ d.core < d.tim.annT + d.annTimeout ∨ d.rf R.TIM_CFG 9 8 = 2 then d else
  let d0 := d.setTim { d.tim with annT := d.core }
  match d.tim.sel with
  | some _ =>
    match d.bestMaster with
    | some _ => d0.bmca
    | none =>
      let d1 := d0.setTim { d0.tim with sel := none, fresh := false, sync := none }
      if d.timSource = 1 then d1.addCause 3 else d1
  | none => if d.rf R.TIM_CFG 9 8 = 0 ∧ d.bestMaster = none then d0.timMove .master else d0

/-- The place of a message kind among the interval timers, and its interval. -/
def ptpSlot : PtpTx → Nat
  | .sync => 0 | .announce => 1 | .delay => 2
def Chip.ptpIvl (d : Chip) : PtpTx → Nat
  | .sync => ivlCycles (d.rf R.TIM_PTP_IVL 3 0)
  | .announce => d.annIvl
  | .delay => ivlCycles (d.rf R.TIM_PTP_IVL 7 4)

/-- A PTP message interval timer expires (R237): Sync and Announce as master, delay requests as slave or in
the peer-to-peer profile. -/
def Chip.ptpTx (d : Chip) (k : PtpTx) : Chip :=
  let t := d.tim
  let i := ptpSlot k
  let port := d.rf R.TIM_CFG 11 10
  let peer := d.rb R.TIM_CFG 12
  let seq := t.txSeq.getD i 0
  let may : Bool := match k with
    | .sync => decide (t.st = .master)
    | .announce => decide (t.st = .master)
    | .delay => peer || t.sel.isSome
  if ¬ (d.timEn ∧ t.ready ∧ may ∧ t.txT.getD i 0 + d.ptpIvl k ≤ d.core) then d else
  let d1 := d.setTim { t with txSeq := setAt t.txSeq i ((seq + 1) % 2 ^ 16), txT := setAt t.txT i d.core }
  match k with
  | .sync =>
    let two := d.rb R.TIM_CFG 15
    let at_ := d.ptpStamp true
    if two then (d1.emit (.ptp port 0 [seq, 0])).emit (.ptp port 8 [seq, at_]) else d1.emit (.ptp port 0 [seq, at_])
  | .announce =>
    d1.emit (.ptp port 11 [seq, d.clockId, d.rf R.TIM_PTP_DS 15 8, d.rf R.TIM_PTP_DS 31 24, 0xFE, 0xFFFF,
      d.rf R.TIM_PTP_DS 23 16, 0xA0])
  | .delay =>
    (d1.setTim { d1.tim with dreq := some (seq, d.ptpStamp true), presp := none }).emit
      (.ptp port (if peer then 2 else 1) [seq, d.portId])

/-! ## Enabling the time unit (R259) -/

/-- The checks of R259. -/
def Chip.timCfgOk (d : Chip) : Bool :=
  let c := d.rd R.TIM_CFG
  let ivl := d.rd R.TIM_PTP_IVL
  let within := fun hi lo (a b : Int) => decide (a ≤ sgn 4 (fld ivl hi lo)) && decide (sgn 4 (fld ivl hi lo) ≤ b)
  !(decide (fld c 2 1 = 2) && !d.tpMode (fld c 4 3) 1)
    && !(bit c 5 && !d.tpMode (fld c 7 6) 3)
    && decide (fld c 2 1 ≠ 3) && decide (fld c 9 8 ≠ 3) && decide (fld c 14 13 ≠ 3)
    && decide (d.rf R.TIM_PTP_DS 7 0 ≤ 127)
    && decide (fld c 11 10 < (if d.rf R.HST_CFG 2 1 = 1 then 4 else 1))
    && within 3 0 (-7) 1 && within 7 4 (-7) 1 && within 11 8 (-3) 3
    && decide (2 ≤ fld ivl 15 12) && decide (fld ivl 15 12 ≤ 10)

/-- TIM_CFG.ENABLE is set (R236, R259); the stored word already holds the new configuration with ENABLE 0. -/
def Chip.timEnable (d : Chip) : Status × Chip :=
  if !d.tim.ready then (.notReady, d)
  else if !d.timCfgOk then (.badParam, d.flag R.TIM_EVENT 9)
  else
    let d1 := (d.flag R.TIM_CFG 0).setTim { d.tim with annT := d.core, txT := [d.core, d.core, d.core] }
    let d2 := d1.endCause 4
    (.ok, if d.rf R.TIM_CFG 9 8 = 2 then d2.timMove .master else d2)

/-- TIM_CFG.ENABLE is cleared: PTP stops and the servo holds over. -/
def Chip.timDisable (d : Chip) : Chip :=
  let t := { d.tim with masters := [], sel := none, sync := none, pair := none, fresh := false, dreq := none, presp := none }
  ((d.unflag R.TIM_CFG 0).setTim t).addCause 4

/-- The time clock leaves the 10 MHz input and keeps its last frequency on the on-package reference (R248). -/
def Chip.refLeave (d : Chip) : Chip :=
  if d.tim.refLock then d.setTim { d.tim with refLock := false, freq := d.tim.ref } else d

/-- A write of TIM_CFG whose CD fields R303 has let through; one that names another 10 MHz input, or none, leaves the
input that the clock is locked to. -/
def Chip.timCfgWrite (d : Chip) (old new : Word) : Status × Chip :=
  let d0 := if fld old 7 5 = fld new 7 5 then d else d.refLeave
  if bit new 0 ∧ ¬ bit old 0 then (d0.unflag R.TIM_CFG 0).timEnable
  else if bit old 0 ∧ ¬ bit new 0 then (.ok, d0.timDisable)
  else (.ok, d0)

/-- The time unit becomes ready (R236): Device Time starts at 0. -/
def Chip.timReady (d : Chip) : Chip := { d with dt := 0, tim := { d.tim with ready := true } }

/-- TIM_STATUS. -/
def Chip.timStatus (d : Chip) : Word :=
  let t := d.tim
  w32 (t.st.code + b2n t.locked * 8 + b2n t.setDone * 16 + b2n t.stepPend * 32 + b2n t.pathHold * 64
    + b2n t.back.isSome * 128 + b2n t.refLock * 256 + b2n t.ready * 512 + t.cause * 1024)
/-- TIM_FREQ. -/
def Chip.timFreq (d : Chip) : Word := w32 (unsgn 32 d.tim.freq)

/-! ## 10 MHz inputs (R235, R248, R256) -/

/-- The time clock locks to the 10 MHz input of a port, whose frequency is `f`, in 0.001 ppm of nominal. -/
def Chip.refLockTo (d : Chip) (p : Nat) (f : Int) : Chip :=
  if ¬ d.tpMode p 3 ∨ 100000 < f.natAbs then d else
  let d1 := d.setTp p { d.tp p with refOk := true }
  if d.hold10 ∧ d.rf R.TIM_CFG 7 6 = p then d1.setTim { d1.tim with refLock := true, ref := f } else d1

/-- A 10 MHz input is lost; a port that is no longer enabled in that mode gives none. -/
def Chip.refLost (d : Chip) (p : Nat) : Chip :=
  if ¬ d.tpMode p 3 ∧ ¬ (d.tp p).refOk then d else
  let d1 := (d.setTp p { d.tp p with refOk := false }).flag (R.TP_EVENT p) 4
  if d.hold10 ∧ d.rf R.TIM_CFG 7 6 = p ∧ d.tim.refLock then
    (d1.refLeave.flag R.TIM_EVENT 5).ev srcTim 0x0905 0
  else d1

/-! ## Timing ports (R253-R260) -/

/-- An edge is reported with stamp `s`, at the elapsed quarter nanosecond `q`: the trigger source of every
cluster, and in PPS-in mode the spacing check and the sample (R253, R255). -/
def Chip.tpReport (d : Chip) (p q s : Nat) : Chip :=
  let x := d.tp p
  let d1 := ((d.setPair (R.TP_LAST_LO p) (R.TP_LAST_HI p) s).count (R.TP_EDGE_CNT p)).flag (R.TP_EVENT p) 0
  let d2 := (List.range 17).foldl (fun (y : Chip) c => y.raise c (0xC8 + p) s) d1
  let d3 := d2.setTp p { x with rep := some q }
  if ¬ d.tpMode p 1 then d3 else
  let spaced := match x.rep with
    | some r => decide (r + oneSec ≤ q + 4000000) && decide (q ≤ r + oneSec + 4000000)
    | none => false
  let d4 := d3.setTp p { d3.tp p with watch := some q, ppsOk := x.ppsOk || spaced }
  if (spaced ∨ x.rep = none) ∧ d.ppsSource p then d4.ppsSample s else d4

/-- An active pulse on an input, starting `frac` quarter nanoseconds into this core cycle and `width` quarter
nanoseconds long: glitch filter, re-arm and merge (R254). -/
def Chip.tpEdge (d : Chip) (p frac width : Nat) : Chip :=
  let q := d.core * 4 + frac % 4
  let x := d.tp p
  let await := x.await && decide (q < x.idle + 16)
  let y := { x with idle := q + width, await := await }
  if ¬ (d.tpMode p 1 ∨ d.tpMode p 4) then d.setTp p y else
  let (free, d0) := if 14 ≤ width ∧ width < 16 then d.fresh 1 else (0#1, d)
  if width < 14 ∨ (width < 16 ∧ free = 0#1) then
    ((d0.setTp p y).count (R.TP_GLITCH_CNT p)).flag (R.TP_EVENT p) 2
  else
    let z := { y with level := q + width }
    if await then d0.setTp p z else
    let d1 := d0.setTp p { z with await := true }
    match x.rep with
    | some r => if q < r + 32 then (d1.count (R.TP_MERGE_CNT p)).flag (R.TP_EVENT p) 1
                else d1.tpReport p q (d.dt + frac % 4)
    | none => d1.tpReport p q (d.dt + frac % 4)

/-- No PPS edge for 1.1 s (R255). -/
def Chip.ppsLoss (d : Chip) (p : Nat) : Chip :=
  match (d.tp p).watch with
  | some q =>
    if d.core * 4 < q + 4400000000 then d else
    let d1 := ((d.setTp p { d.tp p with watch := none, ppsOk := false }).flag (R.TP_EVENT p) 3).ev (srcTp p) 0x0910 0
    if d.ppsSource p then d1.addCause 3 else d1
  | none => d

/-- A PPS-out port reaches its whole second plus offset (R257). -/
def Chip.ppsOut (d : Chip) (p : Nat) : Chip :=
  let x := d.tp p
  let target := (x.sec : Int) + x.off
  if ¬ d.tpMode p 2 ∨ (d.dt : Int) < target then d else
  let quiet := d.rb (R.TP_CFG p) 5 && (decide (d.tim.st = .freerun) || decide (d.tim.st = .holdover) || !d.tim.setDone)
  let d1 := d.setTp p { x with sec := x.sec + oneSec, off := sgn 32 (d.rd (R.TP_OUT_OFFSET p)).toNat }
  if quiet then d1 else d1.emit (.pulse p target.toNat (d.rf (R.TP_WIDTH p) 19 0 * 4000))

/-- A write of TP_OUT_OFFSET: stored within ±1 ms (R260); a PPS second not yet reached takes it (R257). -/
def Chip.tpOffset (d : Chip) (p : Nat) : Chip :=
  let v := clampI (-4000000) 4000000 (sgn 32 (d.rd (R.TP_OUT_OFFSET p)).toNat)
  let d1 := d.wr (R.TP_OUT_OFFSET p) (w32 (unsgn 32 v))
  if d.dt < (d.tp p).sec then d1.setTp p { d1.tp p with off := v } else d1

/-- The trigger time that TP_TIME holds. -/
def tpTime (hi lo : Word) : Nat := fld hi 15 0 * 2 ^ 32 + lo.toNat

/-- A write of TP_TIME_HI (R258): arms, stores unarmed, or is refused. -/
def Chip.tpArm (d : Chip) (p : Nat) (w : Word) : Status × Chip :=
  let v := tpTime w (d.rd (R.TP_TIME_LO p))
  let off := d.setTp p { d.tp p with armed := none }
  if bit w 31 then
    if ¬ d.tpMode p 5 then (.notPermitted, d)
    else if shortDiff d.dt v < 0 then (.tooLate, (off.flag (R.TP_EVENT p) 5).ev (srcTp p) 0x0912 0)
    else
      let d1 := off.sf (R.TP_TIME_HI p) 15 0 (fld w 15 0)
      (.ok, d1.setTp p { d1.tp p with armed := some ((d.dt : Int) + shortDiff d.dt v).toNat })
  else (.ok, off.sf (R.TP_TIME_HI p) 15 0 (fld w 15 0))

/-- An armed trigger out reaches its time (R258). -/
def Chip.tpFire (d : Chip) (p : Nat) : Chip :=
  match (d.tp p).armed with
  | none => d
  | some a =>
    let target := (a : Int) + sgn 32 (d.rd (R.TP_OUT_OFFSET p)).toNat
    if (d.dt : Int) < target then d else
    let per := (d.rd (R.TP_PERIOD p)).toNat
    (d.setTp p { d.tp p with armed := if per = 0 then none else some (a + per) }).emit
      (.pulse p target.toNat (d.rf (R.TP_WIDTH p) 31 20 * 8))

/-- A timing port that an enabled time unit uses (R259). -/
def Chip.tpUsed (d : Chip) (p : Nat) : Bool :=
  d.ppsSource p || (d.timEn && d.hold10 && decide (d.rf R.TIM_CFG 7 6 = p))

/-- A write of TP_CFG whose CD fields R303 has let through (R260). -/
def Chip.tpCfgWrite (d : Chip) (p : Nat) (old new : Word) : Status × Chip :=
  if bit new 0 ∧ ¬ bit old 0 then
    if 6 ≤ fld new 3 1 then (.badParam, (d.unflag (R.TP_CFG p) 0).flag (R.TP_EVENT p) 9)
    else
      let off := sgn 32 (d.rd (R.TP_OUT_OFFSET p)).toNat
      (.ok, (d.flag (R.TP_CFG p) 0).setTp p { d.tp p with sec := nextSecond d.dt off, off := off })
  else if bit old 0 ∧ ¬ bit new 0 then
    if d.tpUsed p then (.busy, (d.flag (R.TP_CFG p) 0).flag (R.TP_EVENT p) 9)
    else (.ok, d.setTp p { d.tp p with armed := none })
  else (.ok, d)

/-- TP_STATUS, and TP_TIME_HI with ARM. -/
def Chip.tpStatus (d : Chip) (p : Nat) : Word :=
  let x := d.tp p
  w32 (b2n (decide (d.core * 4 < x.level)) + b2n x.ppsOk * 2 + b2n x.refOk * 4)
def Chip.tpTimeHi (d : Chip) (p : Nat) : Word :=
  setFld (d.rd (R.TP_TIME_HI p)) 31 31 (b2n (d.tp p).armed.isSome)

end Sys2Proof.Machine
end

