-- ==== Sys2Proof/Machine/Power.lean ====
section
/-! DEFINITION. System reset, the start-up order, rails and temperature, cluster power, and the boot of a
command processor (R315, R316, R359, R361, R364, R365, R370, R377-R386, R395, R396). -/

namespace Sys2Proof.Machine

/-- Changes the power state. -/
def Chip.setPwr (d : Chip) (x : Pwr) : Chip := { d with pwr := x }

/-- The device is held in system reset: PWR_GOOD or nRESET is low, or its temperature holds it (R379, R395). -/
def Chip.inReset (d : Chip) : Bool := !d.pwr.good || !d.pwr.nReset || d.pwr.thermal

/-! ## System reset (R381) -/

/-- Octets whose value the spec does not give (log entry 1). -/
def Chip.freeBytes : Chip → Nat → List Byte × Chip
  | d, 0 => ([], d)
  | d, n + 1 =>
    let (b, d1) := d.fresh 8
    let (l, d2) := Chip.freeBytes d1 n
    (b :: l, d2)

/-- Power is lost during a burn: the slot is torn and counts as used (R372). -/
def Chip.tearBurn (d : Chip) : Chip :=
  match d.ledger.burn, d.ledger.resv.find? (·.ready) with
  | some _, some r =>
    let (l, d1) := d.freeBytes 32
    { d1 with ledger := { d1.ledger with fused := SMap.put LSlot.init d1.ledger.fused r.slot ⟨l, true⟩ } }
  | _, _ => d

/-- The lanes keep what the line does at their receivers, and the cages the level of ModPrsL and IntL. -/
def Chip.pinsOf (d x : Chip) : Chip :=
  let x1 := d.lanes.foldl (fun (y : Chip) l => y.setLane l.1 { Lane.init with trans := l.2.trans, freq := l.2.freq }) x
  ((List.range 32).map (· * 4) ++ [128, 132]).foldl (fun (y : Chip) i =>
    (y.sbit (R.LN_QUAD_MOD i) 0 (d.rb (R.LN_QUAD_MOD i) 0)).sbit (R.LN_QUAD_MOD i) 1 (d.rb (R.LN_QUAD_MOD i) 1)) x1

/-- The state of R381: fuses, the flash and what the ledger records stay; a retired processor stays retired;
everything else returns to its reset value, with the cause of this reset. -/
def Chip.sysReset (d : Chip) (cause : Nat) : Chip :=
  let d1 := d.tearBurn
  let x := { Chip.init with
    core := d1.core, free := d1.free, out := d1.out,
    ledger := ⟨d1.ledger.fused, [], none⟩,
    sec := { Sec.init with fuse := d1.sec.fuse, flash := d1.sec.flash },
    pav := { Pav.init with
      retired := d1.pav.retired, unrec := d1.pav.unrec,
      active := if d1.pav.retired.contains 0 then 1 else 0,
      stby := if d1.pav.retired.isEmpty then .ready else .none },
    pwr := { Pwr.init with vinL := d1.pwr.vinL, vinH := d1.pwr.vinH, regOk := d1.pwr.regOk, good := d1.pwr.good,
                           nReset := d1.pwr.nReset, thermal := d1.pwr.thermal } }
  (d1.pinsOf x).wr R.GLB_RST_CAUSE (w32 cause)

/-- The bytes of memory that outlast a system reset: the flash window; the Hayloft and the shared SRAM are
cleared with valid check bits (R381). -/
def Mem.flashOnly (m : Mem) : Mem :=
  ⟨m.bytes.filter (fun x => 0x4100000000 ≤ x.1 ∧ x.1 < 0x4110000000), [], []⟩

/-- A system reset. -/
def Dev.sysReset (s : Dev) (cause : Nat) : Dev := ⟨s.chip.sysReset cause, s.mem.flashOnly⟩

/-- POWER_GOOD_CHANGE (R378, R379, R381): a fall of PWR_GOOD holds the device in reset, as power-on. -/
def Dev.powerGood (s : Dev) (vinL vinH regOk : Bool) : Dev :=
  let good := vinL && vinH && regOk
  let s1 := s.on (fun d => d.setPwr { d.pwr with vinL := vinL, vinH := vinH, regOk := regOk, good := good })
  if s.chip.pwr.good && !good then s1.sysReset 1 else s1

/-- BROWN_OUT (R380): the rail (`high` for VIN_H) stayed below its brown-out level. -/
def Dev.brownOut (s : Dev) (high : Bool) : Dev :=
  let s1 := s.on (fun d => d.setPwr { d.pwr with
    vinL := d.pwr.vinL && high, vinH := d.pwr.vinH && !high, good := false, thermal := d.pwr.thermal })
  if s.chip.pwr.thermal then s1 else s1.sysReset 1

/-- nRESET is taken as low after 1 µs (R379), in core cycles. -/
def nResetTime : Nat := 1000

/-- NRESET_CHANGE (R379, R408): nRESET was low for `low` core cycles, or has returned high.  While the device
already holds itself in reset the cause stays. -/
def Dev.nResetChange (s : Dev) (high : Bool) (low : Nat) : Dev :=
  if high then s.on (fun d => d.setPwr { d.pwr with nReset := true })
  else if low < nResetTime ∨ ¬ s.chip.pwr.nReset then s
  else
    let s1 := s.on (fun d => d.setPwr { d.pwr with nReset := false })
    if s.chip.inReset then s1 else s1.sysReset 2

/-! ## Rails and temperature (R380, R395, R396) -/

/-- RAIL_MEASUREMENT: voltages in mV, currents in 0.1 A, package power in 0.1 W.  Operation continues with a rail
out of its range (R380; log entry 21). -/
def Chip.railRead (d : Chip) (mvL aL mvH aH power : Nat) : Chip :=
  let okL := decide (870 ≤ mvL ∧ mvL ≤ 930)
  let okH := decide (1710 ≤ mvH ∧ mvH ≤ 1890)
  let d1 := ((d.wr R.GLB_VIN_L (w32 (mvL % 2 ^ 16 + aL % 2 ^ 16 * 2 ^ 16))).wr R.GLB_VIN_H
    (w32 (mvH % 2 ^ 16 + aH % 2 ^ 16 * 2 ^ 16))).wr R.GLB_POWER (w32 (power % 2 ^ 16))
  let d2 := if (d.pwr.vinL && !okL) || (d.pwr.vinH && !okH) then d1.flag R.GLB_EVENT 3 else d1
  d2.setPwr { d2.pwr with vinL := okL, vinH := okH }

/-- TEMP_READING of the hottest sensor, in 0.25 °C (R395). -/
def Dev.tempRead (s : Dev) (tj : Int) : Dev :=
  let d := s.chip
  let p := d.pwr
  if p.thermal then (if tj < 380 then s.on (fun d => d.setPwr { d.pwr with thermal := false }) else s)
  else if d.inReset then s
  else
    let hot := if 460 ≤ tj then p.hot + 1 else 0
    if 10 ≤ hot then (s.on (fun d => d.setPwr { d.pwr with thermal := true })).sysReset 3 else
    let warnAt : Int := d.rf R.GLB_THERM_CFG 7 0 * 4
    let critAt : Int := d.rf R.GLB_THERM_CFG 15 8 * 4
    let warn := decide (warnAt ≤ tj) || (p.warn && decide (warnAt - 12 ≤ tj))
    let crit := decide (critAt ≤ tj) || (p.crit && decide (critAt - 12 ≤ tj))
    s.on (fun d =>
      let d1 := (d.wr R.GLB_TEMP (w32 (unsgn 12 tj))).setPwr { p with hot := hot, warn := warn, crit := crit }
      let d2 := if warn && !p.warn then d1.flag R.GLB_EVENT 1 else d1
      if crit && !p.crit then (d2.flag R.GLB_EVENT 2).skipChecks (fun _ => true) else d2)

/-! ## Start-up (R382) -/

/-- A block completes its bring-up, once the block it starts after is ready. -/
def Chip.blockReady (d : Chip) (b : BootBlk) : Chip :=
  match b with
  | .gatehouse => { d with gth := { d.gth with ready := true } }
  | .yard => if d.gth.ready ∧ ¬ d.pwr.yard then (d.setPwr { d.pwr with yard := true }).calStart else d
  | .service => if d.pwr.yard ∧ ¬ d.svc.ready then d.svcReady else d
  | .engine e =>
    if ¬ d.svc.ready ∨ 136 ≤ e ∨ d.engHeld e ∨ d.engRdy.contains e ∨ (SMap.get (0, 0) d.pwr.engT e).2 ≠ 0 then d
    else { d with engRdy := e :: d.engRdy }
  | .time => if d.pwr.yard ∧ ¬ d.tim.ready then d.timReady else d
  | .lanes g =>
    match SMap.get [] d.cals g with
    | 8 :: _ => if g < 16 then d.calDone g else d
    | _ => d
  | .hostLanes =>
    if d.pwr.yard then (List.range 4).foldl (fun (x : Chip) k => x.setLane (128 + k) { x.lane (128 + k) with ready := true }) d
    else d
  | .tandemLanes =>
    if d.pwr.yard then (List.range 8).foldl (fun (x : Chip) k => x.setLane (132 + k) { x.lane (132 + k) with ready := true }) d
    else d
  | .tandem => if (d.lane 132).ready then { d with tdm := { d.tdm with ready := true } } else d
  | .stack s => if d.pwr.yard ∧ s < 4 then d.setStack s { d.stack s with ready := true } else d
  | .host => if d.pav.booted then { d with host := { d.host with ready := true } } else d

/-! ## The boot of a command processor (R359, R361, R364, R365, R370) -/

/-- The active owner slot: the lowest that is not revoked (R365). -/
def Chip.ownerSlot (d : Chip) : Nat := (List.range 5).findIdx (fun k => !d.sec.fuse.revoked.testBit k)

/-- A firmware image passes: its signatures verify and its SVN is not below the anti-rollback counter. -/
def Chip.imageOk (d : Chip) (i : FwImage) : Bool := i.good && decide (d.sec.fuse.rollback ≤ i.svn)

/-- The second burn of a revocation (R365 step 2). -/
def Chip.burnRevoke (d : Chip) : Chip :=
  let i := d.ownerSlot
  let d1 := { d with sec := { d.sec with fuse := { d.sec.fuse with revoked := d.sec.fuse.revoked + 2 ^ i } } }
  (d1.flag R.LED_EVENT 4).ev srcSvc 0x0B04 i

/-- A revocation whose second burn is still owed. -/
def Chip.owesBurn (d : Chip) : Bool := decide (d.ownerSlot + 1 < d.sec.fuse.keys.length)

/-- The leaf of one tree at boot (R370). -/
def leafAtBoot (recs : Option Nat × Option Nat) (hwm : Nat) : Nat × Nat :=
  match recs.1, recs.2 with
  | none, none => (hwm * 65536, min 16 (hwm + 1))
  | a, b => (max (max (a.getD 0) (b.getD 0)) ((hwm - 1) * 65536), hwm)

/-- The state records of the trees are read; those named in `bad` are not valid. -/
def Chip.bootLeaves (d : Chip) (bad : List (Nat × Nat)) : Chip :=
  (List.range 4).foldl (fun (x : Chip) t =>
    let r := x.sec.flash.leaf.getD t (none, none)
    let r1 := (if bad.contains (t, 0) then none else r.1, if bad.contains (t, 1) then none else r.2)
    let (q, h) := leafAtBoot r1 (x.sec.fuse.hwm.getD t 0)
    { x with sec := { x.sec with leaf := setAt x.sec.leaf t q, fuse := { x.sec.fuse with hwm := setAt x.sec.fuse.hwm t h } } }) d

/-- The pending bundle is checked again and becomes active with its owner key record, to which a REVOKE record adds its
key pair, or it is rejected (R364, R365). -/
def Chip.bootBundle (d : Chip) (ok : Bool) : Chip :=
  match d.sec.flash.pend with
  | none => d
  | some b =>
    let f := d.sec.flash
    if ok then { d with sec := { d.sec with flash := { f with bundle := some b, pend := none,
                                                              ownKeys := b.body.ownKeys ++ b.body.revoke.toList } } }
    else (({ d with sec := { d.sec with flash := { f with pend := none } } }).flag R.LED_EVENT 8).evt srcSvc 0x0B01 0xFFFF
      Status.signatureFail.code (b.bsn % 2 ^ 32 * 2 ^ 96)

/-- The REVOKE record of a bundle that becomes active burns the next key (R365 step 1). -/
def Chip.bootRevoke (d : Chip) (was : Option Bundle) : Chip :=
  match d.sec.flash.bundle with
  | some b =>
    match b.body.revoke with
    | some k => if was = some b ∨ 4 ≤ d.ownerSlot then d
        else { d with sec := { d.sec with fuse := { d.sec.fuse with keys := d.sec.fuse.keys ++ [k] } } }
    | none => d
  | none => d

/-- PAVILION_BOOT (R359): the active processor's own slot, repaired from the other slot if need be; with neither
the Gatehouse holds. -/
def Dev.pavBoot (s : Dev) (b : BootIn) : Dev :=
  let d := s.chip
  if ¬ d.gth.ready ∨ d.pav.booted ∨ d.gth.st ≠ .running then s else
  let p := d.pav.active
  let f := d.sec.flash
  let okA := b.slotA && d.imageOk f.slotA
  let okB := b.slotB && d.imageOk f.slotB
  let own := if p = 0 then okA else okB
  let other := if p = 0 then okB else okA
  if !own && !other then s.on (fun d => { d with gth := { d.gth with st := .hold } }) else
  let d1 :=
    if own then d else
    let f1 := if p = 0 then { f with slotA := f.slotB } else { f with slotB := f.slotA }
    (({ d with sec := { d.sec with flash := f1 } }).flag R.LED_EVENT 7).ev srcSvc 0x0B00 p
  let d2 := if d1.owesBurn then d1.burnRevoke else d1
  let d3 := (d2.bootBundle b.pending).bootRevoke d2.sec.flash.bundle
  if d3.owesBurn ∧ b.cut then
    (Dev.mk (d3.setPwr { d3.pwr with vinL := false, vinH := false, regOk := false, good := false }) s.mem).sysReset 1
  else
    let d4 := (if d3.owesBurn then d3.burnRevoke else d3).bootLeaves b.badLms
    ⟨{ d4 with pav := { d4.pav with booted := true, dead := false, sealT := d4.core },
               gth := { d4.gth with beat := d4.core },
               sec := { d4.sec with bootOk := true } }, s.mem⟩

/-! ## Cluster power (R316, R384) -/

/-- A cluster is in use: an engine enabled or hosting an enabled group, or named by an enabled region or a queue
entry. -/
def Chip.clusterUsed (d : Chip) (c : Nat) : Bool :=
  ((List.range 8).map (· + 8 * c)).any (fun e =>
    d.engEn e || decide ((d.group e).st ≠ .disabled) || !(d.pat e).queue.isEmpty || !(d.pat e).runs.isEmpty
      || d.enabledRgns.any (fun r => d.rf (R.rgn_CAP_RGN_SRC r) 8 0 = e))

/-- The trigger unit of a cluster at its reset. -/
def Chip.clusterClear (d : Chip) (c : Nat) : Chip :=
  { d with
    regs := d.regs.filter (fun x =>
      let b := x.1 / 2 ^ 48
      let i := x.1 / 2 ^ 12 % 2 ^ 36
      !((decide (b = Blk.comb.code) && decide (i / 8 = c)) || (decide (b = Blk.tcmp.code) && decide (i / 4 = c)))),
    combs := d.combs.filter (fun x => x.1 / 8 ≠ c),
    cmps := d.cmps.filter (fun x => x.1 / 4 ≠ c) }

/-- A cluster is powered down: its master port is fenced and reset, its engines are reset, checks end and
substitutions by its spares are abandoned. -/
def Dev.clusterDown (s : Dev) (c : Nat) : Dev :=
  let mine := fun (e : Nat) => decide (e / 8 = c)
  let s1 := (s.on (fun d => (d.skipChecks (fun k => mine k.engine || mine k.spare
    || (match k.second with | some x => mine x | none => false))).fence (mKey c) c)).masterReset c
  let s2 := ((List.range 8).map (· + 8 * c)).foldl (fun (x : Dev) e =>
    if x.chip.svc.retired.contains e then x else x.engReset e) s1
  s2.on (fun d => ((d.clusterClear c).setPwr { d.pwr with off := c :: d.pwr.off.filter (· ≠ c) }).subCheck)

/-- Power-up of a cluster, in core cycles. -/
def clusterUpTime : Nat := 5000000

/-- A cluster is powered up: its engines leave reset after 5 ms and run their self-tests. -/
def Chip.clusterUp (d : Chip) (c : Nat) : Chip :=
  let d1 := d.setPwr { d.pwr with off := d.pwr.off.filter (· ≠ c) }
  ((List.range 8).map (· + 8 * c)).foldl (fun (x : Chip) e =>
    if x.svc.retired.contains e then x else x.engTimer e clusterUpTime) d1

/-- A write of GLB_PWR_CTRL (R316): refused BUSY while a cluster to be powered down is in use. -/
def Dev.powerCtrl (s : Dev) (w : Word) : Status × Dev :=
  let cs := List.range 17
  let offNow := fun (c : Nat) => s.chip.pwr.off.contains c
  let down := cs.filter (fun c => bit w c && !offNow c)
  let up := cs.filter (fun c => !bit w c && offNow c)
  if down.any s.chip.clusterUsed then (.busy, s)
  else
    let s1 := s.on (fun d => d.wr R.GLB_PWR_CTRL (w &&& 0x1FFFF))
    (.ok, (down.foldl (fun (x : Dev) c => x.clusterDown c) s1).on (fun d => up.foldl (fun (x : Chip) c => x.clusterUp c) d))

/-- ENG_CTRL.RESET (R384, R385). -/
def Dev.engResetCmd (s : Dev) (e : Nat) : Status × Dev :=
  if s.chip.svc.spares.contains e ∨ s.chip.svc.retired.contains e then (.notPermitted, s)
  else if s.chip.subBusy e then (.busy, s)
  else (.ok, ((s.on (fun d => d.skipChecks (fun c => c.engine = e))).engReset e).on (fun d => d.engTimer e engResetTime))

/-! ## Fault outputs and registers computed from this state (R314-R316) -/

/-- The causes of R315 that hold, coded as SRC. -/
def Chip.faultCauses (d : Chip) : Nat :=
  let sf := (List.range 136).any (fun e => d.engEn e && d.rb (R.DEF_STATUS e) 24)
  b2n d.pwr.warn + b2n d.pwr.crit * 2 + b2n (!d.pwr.vinL || !d.pwr.vinH) * 4 + b2n (decide (d.gth.st ≠ .running)) * 8
    + b2n d.splitHold * 16 + b2n (d.rb R.GLB_EVENT 5) * 32 + b2n sf * 64
    + b2n (!d.tim.locked && decide (d.timSource ≠ 0)) * 128

/-- Output `k` asserts: always in reset and until the Gatehouse is ready (R386), else under GLB_FAULT_CFG. -/
def Chip.faultOut (d : Chip) (k : Nat) : Bool :=
  d.inReset || !d.gth.ready || decide (d.faultCauses &&& d.rf R.GLB_FAULT_CFG (8 * k + 7) (8 * k) ≠ 0)

/-- TDM_PRESENT is high from TDM_STATUS.READY on, and low in system reset (R386, R407). -/
def Chip.tdmPresent (d : Chip) : Bool := !d.inReset && d.tdm.ready

/-- Whether ResetL and LPMode of a cage are driven active: both in system reset, else as LN_QUAD_MOD has them (R49,
R386, R406). -/
def Chip.cagePins (d : Chip) (i : Nat) : Bool × Bool :=
  if d.inReset then (true, true) else (d.rb (R.LN_QUAD_MOD i) 2, d.rb (R.LN_QUAD_MOD i) 3)

/-- GLB_FAULT_STATUS. -/
def Chip.faultStatus (d : Chip) : Word :=
  w32 ((List.range 4).foldl (fun a k => if d.faultOut k then a + 2 ^ k else a) 0 + d.faultCauses * 2 ^ 8)

/-- GLB_PWR_STATUS. -/
def Chip.pwrStatus (d : Chip) : Word :=
  w32 (b2n d.pwr.vinL + b2n d.pwr.vinH * 2 + b2n d.pwr.regOk * 4
    + (List.range 17).foldl (fun a c => if d.pwr.off.contains c then a else a + 2 ^ (3 + c)) 0)

/-- GLB_READY. -/
def Chip.glbReady (d : Chip) : Word :=
  let lanes := (List.range 128).all (fun n => (d.lane n).ready)
  let engs := (List.range 136).all (fun e => d.engReady e || d.svc.spares.contains e || d.svc.retired.contains e)
  w32 (b2n d.gth.ready + b2n (d.pav.booted && decide (d.gth.st = .running)) * 2 + b2n d.host.ready * 4 + b2n d.tim.ready * 8
    + b2n d.pwr.yard * 16 + b2n d.pwr.yard * 32
    + (List.range 4).foldl (fun a s => if (d.stack s).ready then a + 2 ^ (6 + s) else a) 0
    + b2n d.tdm.ready * 2 ^ 10 + b2n lanes * 2 ^ 11 + b2n (engs && d.svc.ready) * 2 ^ 12)

/-- GLB_UNIT. -/
def Chip.glbUnit (d : Chip) : Word := w32 (d.sec.fuse.unitId + d.sec.fuse.uidLeft * 2 ^ 12 + b2n d.joined * 2 ^ 16)

/-- The firmware image of the active processor. -/
def Chip.activeImage (d : Chip) : FwImage := if d.pav.active = 0 then d.sec.flash.slotA else d.sec.flash.slotB

/-- Trees whose leaves are used up (R370). -/
def Chip.treeOut (d : Chip) (t : Nat) : Bool := decide (1048576 ≤ d.sec.leaf.getD t 0)

/-- GLB_SEC_STATUS. -/
def Chip.secStatus (d : Chip) : Word :=
  w32 (b2n d.sec.bootOk + d.sec.fuse.rollback * 2 + d.sec.fuse.revoked % 16 * 2 ^ 8
    + (List.range 4).foldl (fun a t => if d.treeOut t then a + 2 ^ (12 + t) else a) 0 + d.ledgerUsed * 2 ^ 16)

end Sys2Proof.Machine
end

