-- ==== Sys2Proof/Machine/Security.lean ====
section
/-! DEFINITION. Firmware staging, the unit ID, attestation and the reading of the repair ledger
(R356-R370, R375, R376). -/

namespace Sys2Proof.Machine

/-- Changes the firmware trust state. -/
def Chip.setSec (d : Chip) (x : Sec) : Chip := { d with sec := x }

/-! ## Staging (R357, R358, R363) -/

/-- The largest object of a kind: header, body and both signatures (R357, R358). -/
def objectMax (kind : Nat) : Nat := 128 + (if kind = 1 then 62914560 else 262144) + 96 + 1772

/-- The staged object of a kind. -/
def Chip.stage (d : Chip) (kind : Nat) : Stage := if kind = 1 then d.sec.image else d.sec.bundle

/-- Replaces the staged object of a kind. -/
def Chip.setStage (d : Chip) (kind : Nat) (x : Stage) : Chip :=
  if kind = 1 then d.setSec { d.sec with image := x } else d.setSec { d.sec with bundle := x }

/-- The slot of the processor that is not active. -/
def Chip.standbyImage (d : Chip) : FwImage := if d.pav.active = 0 then d.sec.flash.slotB else d.sec.flash.slotA

/-- Replaces the image in the standby slot. -/
def Chip.setStandbyImage (d : Chip) (x : FwImage) : Chip :=
  let f := d.sec.flash
  d.setSec { d.sec with flash := if d.pav.active = 0 then { f with slotB := x } else { f with slotA := x } }

/-- The erased object: its bytes, and the slot or the pending bundle area that holds it. -/
def Chip.stageErase (d : Chip) (kind : Nat) : Chip :=
  let d1 := d.setStage kind ⟨.partial_, [], none⟩
  if kind = 1 then d1.setStandbyImage { d1.standbyImage with good := false }
  else d1.setSec { d1.sec with flash := { d1.sec.flash with pend := none } }

/-- Bytes written into a staged object. -/
def stageBytes (m : SMap Byte) (off : Nat) : List Byte → SMap Byte
  | [] => m
  | b :: l => stageBytes (SMap.insert off b m) (off + 1) l

/-- Field `off` to `off + n - 1` of a staged object; `dflt` is what a byte reads as that nothing has written. -/
def stageField (dflt : Byte) (m : SMap Byte) (off n : Nat) : Nat :=
  ofBytes ((List.range n).map (fun i => SMap.get dflt m (off + i)))

/-- The form check of R357 for an object of a kind. -/
def objectForm (dflt : Byte) (m : SMap Byte) (kind : Nat) : Bool :=
  let f := stageField dflt m
  decide (f 0 4 = 0x44585349) && decide (f 4 1 = kind) && decide (f 5 1 = 1) && decide (f 6 2 = 0)
    && decide (f 76 52 = 0) && decide (f 12 1 ≤ 64)
    && (if kind = 1 then decide (f 15 1 = 0 ∧ f 16 4 = 0 ∧ f 20 8 ≤ 62914560)
        else decide (f 8 4 = 0 ∧ f 12 3 = 0 ∧ f 15 1 ≤ 4 ∧ 1 ≤ f 16 4 ∧ f 20 8 ≤ 262144))

/-- The check of FINAL (R363): form, digest and signatures with the owner slot, rollback, and a REVOKE record
once K4 is the active key (R365). -/
def Chip.finalCheck (d : Chip) (dflt : Byte) (kind : Nat) (v : Verdict) : Status :=
  let m := (d.stage kind).bytes
  let f := stageField dflt m
  if ¬ objectForm dflt m kind ∨ (kind = 2 ∧ 32 < v.body.opKeys.length) then .badParam
  else if ¬ (v.digestOk && v.ecdsaOk && v.lmsOk) then .signatureFail
  else if kind = 2 ∧ f 15 1 ≠ d.ownerSlot then .signatureFail
  else if kind = 1 ∧ f 12 1 < d.sec.fuse.rollback then .rollback
  else if kind = 2 ∧ f 16 4 ≤ (d.sec.flash.bundle.map (·.bsn)).getD 0 then .rollback
  else if kind = 2 ∧ v.body.revoke.isSome ∧ 4 ≤ d.ownerSlot then .notPermitted
  else .ok

/-- A verified object takes its place: the image in the standby slot, or the pending bundle (R363, R364). -/
def Chip.stageVerified (d : Chip) (dflt : Byte) (kind : Nat) (v : Verdict) : Chip :=
  let st := d.stage kind
  let f := stageField dflt st.bytes
  if kind = 1 then
    let img : FwImage := ⟨f 8 4, f 12 1, f 13 1, f 14 1, true⟩
    (d.setStage 1 { st with st := .verified, image := some img }).setStandbyImage img
  else
    let d1 := d.setStage 2 { st with st := .verified }
    d1.setSec { d1.sec with flash := { d1.sec.flash with pend := some ⟨f 16 4, f 15 1, v.body⟩ } }

/-- The number that the reply to a FINAL carries: VERSION, or BSN for a bundle. -/
def Chip.stageVersion (d : Chip) (dflt : Byte) (kind : Nat) : Nat :=
  stageField dflt (d.stage kind).bytes (if kind = 1 then 8 else 16) 4

/-- What stops FW_STAGE before it writes (R363). -/
def Chip.stageStop (d : Chip) (kind off len : Nat) : Option Status :=
  if kind ≠ 1 ∧ kind ≠ 2 then some .badParam
  else if off % 4 ≠ 0 ∨ objectMax kind < off + len then some .badParam
  else if kind = 1 ∧ d.pav.retired.contains (1 - d.pav.active) then some .noSpare
  else if kind = 1 ∧ (d.pav.stby ≠ .ready ∨ d.gth.st = .failover ∨ d.gth.asked.isSome) then some .busy
  else none

/-- Blocks of 64 KiB in the flash window. -/
def flashBlocks : Nat := 4096

/-- A flash block failed to erase or program (R360, R374): a spare takes its place and the ledger records it, or it is
marked bad; which block number the spare has is a free value (log entry 75). -/
def Chip.flashFail (d : Chip) (b : Nat) : Chip :=
  let f := d.sec.flash
  if f.bad.contains b then d
  else if f.spares = 0 then (d.setSec { d.sec with flash := { f with bad := f.bad ++ [b] } }).ev srcSvc 0x0816 b
  else
    let (new, d1) := (d.setSec { d.sec with flash := { f with spares := f.spares - 1 } }).fresh 16
    match d1.reserve 5 8 0 b new.toNat 0 with
    | some (n, d2) => d2.burnSlot n
    | none => d1.ledgerFull b

/-- A staged write up to byte `top` still fits in what bad blocks leave of its space; the spec does not give the
blocks of a slot, so a free value decides once a block is bad (R360, log entry 75). -/
def Chip.stageFits (d : Chip) (top : Nat) : Bool :=
  d.sec.flash.bad.isEmpty || (Sys2Proof.Config.freeValue 1 (2 ^ 66 + d.sec.flash.bad.length * 2 ^ 32 + top)).toNat = 0

/-- FW_STAGE (R363): the status, and VERSION or BSN after FINAL. -/
def Chip.fwStage (d : Chip) (kind off : Nat) (data : List Byte) (final : Bool) (v : Verdict) :
    (Status × Option Nat) × Chip :=
  match d.stageStop kind off data.length with
  | some st => ((st, none), d)
  | none =>
    let d0 := ((v.failed.eraseDups).filter (· < flashBlocks)).foldl (fun (x : Chip) b => x.flashFail b) d
    if ¬ d0.stageFits (off + data.length) then ((.noSpare, none), d0) else
    let d1 := if off = 0 then d0.stageErase kind else d0
    let d2 := d1.setStage kind { d1.stage kind with bytes := stageBytes (d1.stage kind).bytes off data }
    if ¬ final then ((.ok, none), d2) else
    let (dflt, d3) := d2.fresh 8
    match d3.finalCheck dflt kind v with
    | .ok => ((.ok, some (d3.stageVersion dflt kind)), d3.stageVerified dflt kind v)
    | st => ((st, none), d3.setStage kind { d3.stage kind with st := .failed })

/-! ## The unit ID (R366) -/

/-- A write of LED_UID_CMD (R366). -/
def Chip.uidBurn (d : Chip) (w : Word) : Status × Chip :=
  let new := fld w 11 0
  let f := d.sec.fuse
  if ¬ bit w 31 then (.ok, d)
  else if new = 0xFFF then (.badParam, d)
  else if d.tdmSt ≠ 0 then (.notPermitted, d)
  else if f.uidLeft = 0 then (.notPermitted, d)
  else if new = f.unitId then (.ok, d)
  else
    let d1 := d.setSec { d.sec with fuse := { f with unitId := new, uidLeft := f.uidLeft - 1 } }
    (.ok, (d1.flag R.LED_EVENT 3).ev srcSvc 0x0B03 new)

/-- The active Pavilion burns fuse steps until the counter equals an image's SVN (R361). -/
def Chip.rollbackAdvance (d : Chip) (svn : Nat) : Chip :=
  if svn ≤ d.sec.fuse.rollback then d else
  ((d.setSec { d.sec with fuse := { d.sec.fuse with rollback := svn } }).flag R.LED_EVENT 6).ev srcSvc 0x0B06 svn

/-! ## Attestation (R368-R370) -/

/-- The tree in use: the lowest that is not retired; 4 when all are. -/
def Chip.lmsTree (d : Chip) : Nat := (List.range 4).findIdx (fun t => !d.treeOut t)

/-- The older of a tree's two state records takes a value. -/
def olderRecord (r : Option Nat × Option Nat) (v : Nat) : Option Nat × Option Nat :=
  match r.1, r.2 with
  | none, b => (some v, b)
  | a, none => (a, some v)
  | some a, some b => if a ≤ b then (some v, some b) else (some a, some v)

/-- A leaf of a tree is used: the mark of its block is burned before its first leaf, and the next leaf is
recorded before the report is released (R370). -/
def Chip.useLeaf (d : Chip) (t : Nat) : Chip :=
  let q := d.sec.leaf.getD t 0
  let hwm := if q % 65536 = 0 then setAt d.sec.fuse.hwm t (max (d.sec.fuse.hwm.getD t 0) (q / 65536 + 1)) else d.sec.fuse.hwm
  let rec_ := olderRecord (d.sec.flash.leaf.getD t (none, none)) (q + 1)
  let d1 := d.setSec { d.sec with leaf := setAt d.sec.leaf t (q + 1), fuse := { d.sec.fuse with hwm := hwm },
                                  flash := { d.sec.flash with leaf := setAt d.sec.flash.leaf t rec_ } }
  if q + 1 = 1048576 then (d1.flag R.LED_EVENT 5).ev srcSvc 0x0B05 t else d1

/-- The bytes of a report (R369) at the present state; digests, keys and signatures are free values. -/
def Chip.reportBytes (d : Chip) (nonce : List Byte) (t : Nat) : List Byte × Chip :=
  let f := d.sec.fuse
  let (digest, d1) := d.freeBytes 48
  let (key, d2) := d1.freeBytes 56
  let (signs, d3) := d2.freeBytes (96 + 96 + 1772)
  let head := beBytes 4 d.sec.nextId ++ beBytes 2 f.unitId ++ beBytes 2 0 ++ beBytes 4 0x01C07128
    ++ beBytes 4 d.sec.flash.slotA.version ++ beBytes 4 d.sec.flash.slotB.version ++ beBytes 1 f.rollback
    ++ beBytes 1 d.ownerSlot ++ beBytes 1 f.uidLeft ++ beBytes 1 d.ledgerUsed
    ++ beBytes 4 ((d.sec.flash.bundle.map (·.bsn)).getD 0) ++ beBytes 8 d.dt ++ padTo 32 0 nonce
  (head ++ digest ++ beBytes 4 d.secStatus.toNat ++ beBytes 1 t ++ beBytes 3 0 ++ beBytes 4 (d.sec.leaf.getD t 0)
    ++ key ++ signs, d3)

/-- A part of a report, from 1: 1,024, 1,024 and 100 bytes. -/
def reportPart (l : List Byte) (part : Nat) : List Byte := (l.drop ((part - 1) * 1024)).take 1024

/-- Reports are formed at most once a second, in core cycles (R368). -/
def reportTime : Nat := 1000000000

/-- ATTEST with NONCE (R368): the report's number and its bytes. -/
def Chip.attestNew (d : Chip) (nonce : List Byte) : Except Status (Nat × List Byte) × Chip :=
  let soon : Bool := match d.sec.lastRep with
    | some c => decide (d.core < c + reportTime)
    | none => false
  let t := d.lmsTree
  if soon then (.error .busy, d)
  else if 4 ≤ t then (.error .noSpare, d)
  else
    let (l, d1) := d.reportBytes nonce t
    let d2 := d1.useLeaf t
    let d3 := d2.setSec { d2.sec with reports := ((d.sec.nextId, l) :: d2.sec.reports).take 16,
                                      nextId := d.sec.nextId + 1, lastRep := some d.core }
    (.ok (d.sec.nextId, l), d3.count R.LED_ATTEST_CNT)

/-- ATTEST with REPORT_ID and PART. -/
def Chip.attestPart (d : Chip) (id part : Nat) : Except Status (List Byte) :=
  match d.sec.reports.find? (fun r => r.1 = id) with
  | some r => if 1 ≤ part ∧ part ≤ 3 then .ok (reportPart r.2 part) else .error .badParam
  | none => .error .badParam

/-! ## Registers of the ledger block (R376) -/

/-- The raw bytes of a slot; an unwritten one reads as zeros. -/
def Chip.slotBytes (d : Chip) (n : Nat) : List Byte := padTo 32 0 (d.lslot n).bytes

/-- LED_STATUS. -/
def Chip.ledStatus (d : Chip) : Word :=
  w32 (d.ledgerUsed + d.ledger.resv.length * 2 ^ 6 + min 4 d.ownerSlot * 2 ^ 12)

/-- LED_LMS; once every tree is retired it shows tree 3. -/
def Chip.ledLms (d : Chip) : Word :=
  let t := min 3 d.lmsTree
  w32 (d.sec.leaf.getD t 0 % 2 ^ 21 + t * 2 ^ 22)

/-- LED_LMS_HWM. -/
def Chip.ledHwm (d : Chip) : Word :=
  w32 ((List.range 4).foldl (fun a t => a + d.sec.fuse.hwm.getD t 0 % 32 * 2 ^ (5 * t)) 0)

/-- LED_STAGE. -/
def Chip.ledStage (d : Chip) : Word := w32 (d.sec.image.st.code + d.sec.bundle.st.code * 4)

end Sys2Proof.Machine
end

