-- ==== Sys2Proof/Machine/Tandem.lean ====
section
/-! DEFINITION. Tandem mode (R337-R355): lanes up and down, joining, degraded operation, split hold, rejoin and
split. -/

namespace Sys2Proof.Machine

/-- The source of tandem events (R281). -/
def srcTdm : Nat := 0x2040

/-- Changes the bridge. -/
def Chip.setTdm (d : Chip) (x : Tdm) : Chip := { d with tdm := x }

/-- A TANDEM event with its cause (R282, R354). -/
def Chip.tdmEvent (d : Chip) (cause : Nat) : Chip := d.ev srcTdm 0x0A06 (cause * 2 ^ 16)

/-- STATE of TDM_STATUS. -/
def Chip.setTdmSt (d : Chip) (st : Nat) : Chip := d.sf R.TDM_STATUS 2 0 st

/-- The role held: true for the follower. -/
def Chip.follower (d : Chip) : Bool := d.rb R.TDM_STATUS 3

/-- Lanes up. -/
def Chip.lanesUp (d : Chip) : Nat := d.tdm.up.length



/-! ## Frozen groups and open bales (R349, R351, R352) -/

/-- A new bale begins in every running sub-channel (R161). -/
def Chip.cutBales (d : Chip) : Chip := d.rgns.foldl (fun (x : Chip) r => if r.2.live then x.closeBale r.1 else x) d

/-- The enabled cross-unit groups hosted here. -/
def Chip.crossGroups (d : Chip) : List Nat :=
  d.groups.filterMap (fun g => if g.2.st ≠ .disabled ∧ d.rb (R.APS_CFG g.1) 11 = true then some g.1 else none)

/-- A frozen timer goes on with the time that it had left. -/
def Group.thaw (g : Group) (n : Nat) : Group :=
  { g with holds := g.holds.map (fun t => { t with due := t.due + n }),
           wtrDue := g.wtrDue.map (· + n), fopFrom := g.fopFrom.map (· + n) }

/-- Cross-unit groups resume from their current inputs; their deskew engines seek again. -/
def Chip.thawGroups (d : Chip) : Chip :=
  d.crossGroups.foldl (fun (x : Chip) h =>
    let x1 := x.setGroup h ((x.group h).thaw (x.core - d.tdm.holdT))
    let x2 := if x1.apsHitless h then (x1.setDsk h { Dsk.init with from_ := x1.dt }).wr (R.DSK_STATUS h) (w32 1) else x1
    (x2.apsInputs h).apsEval h) d

/-- Split hold ends: bales without SPLIT begin, groups resume. -/
def Chip.holdEnd (d : Chip) (st : Nat) : Chip :=
  let d1 := d.cutBales
  ((d1.setTdmSt st).setTdm { d1.tdm with hold := false }).thawGroups

/-! ## The lanes (R337, R348) -/

/-- The state follows the number of lanes up (R348). -/
def Chip.lanesMoved (d : Chip) (was : Nat) : Chip :=
  let l := d.lanesUp
  let m := d.minLanes
  if d.tdmSt = 2 ∨ d.tdmSt = 3 then
    let d1 :=
      if d.tdmSt = 2 ∧ l < 8 then ((d.setTdmSt 3).flag R.TDM_EVENT 1).tdmEvent 2
      else if d.tdmSt = 3 ∧ l = 8 then ((d.setTdmSt 2).flag R.TDM_EVENT 1).tdmEvent 3
      else d
    d1.setTdm { d1.tdm with shortT := if l < m then (match d1.tdm.shortT with | some t => some t | none => some d.core) else none }
  else if d.tdmSt = 4 ∧ was < m ∧ m ≤ l then (d.flag R.TDM_EVENT 4).tdmEvent 7
  else d

/-- TANDEM_LANE_UP: the receiver is locked, no LOS is declared and training has completed; a lane that went down
has trained 1,000,000 core cycles. -/
def Chip.tdmLaneUp (d : Chip) (n : Nat) : Chip :=
  let x := d.lane (132 + n)
  let trained : Bool := match SMap.get none d.tdm.downT n with
    | some t => decide (t + 1000000 ≤ d.core)
    | none => true
  if d.tdm.ready ∧ x.lock ∧ ¬ x.los ∧ ¬ d.tdm.up.contains n ∧ trained then
    (d.setTdm { d.tdm with up := n :: d.tdm.up }).lanesMoved d.lanesUp
  else d

/-- TANDEM_LANE_DOWN: at a declared LOS, or after 16 consecutive link frames that failed their check. -/
def Chip.tdmLaneDown (d : Chip) (n fails : Nat) : Chip :=
  let d1 := d.count R.TDM_LINK_ERR_CNT fails
  if d.tdm.up.contains n ∧ ((d.lane (132 + n)).los ∨ 16 ≤ fails) then
    (d1.setTdm { d1.tdm with up := d1.tdm.up.filter (· ≠ n), downT := SMap.put none d1.tdm.downT n (some d.core) }).lanesMoved
      d.lanesUp
  else d1

/-! ## Joining and splitting (R339-R341, R350, R352) -/

/-- TANDEM_JOIN (R339): the status, and the unit in PENDING. -/
def Chip.tdmJoin (d : Chip) (role minLanes : Nat) : Status × Chip :=
  let st := d.tdmSt
  if 1 < role ∨ minLanes = 0 ∨ 8 < minLanes then (.badParam, d)
  else if ¬ d.tdm.ready then (.notReady, d)
  else if st = 1 ∨ st = 2 ∨ st = 3 then (.notPermitted, d)
  else if st = 4 ∧ decide (role = 1) ≠ d.follower then (.notPermitted, d)
  else if d.lanesUp < minLanes then (.notPermitted, d)
  else
    let d1 := ((d.sf R.TDM_CFG 3 0 minLanes).setTdmSt 1).sbit R.TDM_STATUS 3 (decide (role = 1))
    (.ok, d1.setTdm { d1.tdm with pendT := d.core, hold := decide (st = 4) })

/-- TANDEM_HANDSHAKE (R340, R341): the peer is PENDING too, with its unit ID, firmware version, role and
MIN_LANES. -/
def Chip.tdmHandshake (d : Chip) (unit fw : Nat) (follower : Bool) (minLanes : Nat) : Chip :=
  if d.tdmSt ≠ 1 then d else
  let d1 := d.wr R.TDM_PEER (w32 (unit % 4096 + 4096))
  if follower = d.follower ∨ fw ≠ d.activeImage.version then d1 else
  let m := if d.follower then minLanes else d.rf R.TDM_CFG 3 0
  let st := if d.lanesUp = 8 then 2 else 3
  let d2 := if d.tdm.hold then d1.holdEnd st else d1.setTdmSt st
  let d3 := d2.setTdm { d2.tdm with minEff := m, sf := [], sd := [], shortT := if d.lanesUp < m then some d.core else none }
  (d3.flag R.TDM_EVENT 0).tdmEvent 1

/-- The regions whose engine lies in the other unit stop; their held range ends at the last bale accepted
(R351). -/
def Dev.crossStop (s : Dev) : Dev :=
  s.chip.rgns.foldl (fun (x : Dev) r => if r.2.live ∧ 136 ≤ (x.chip.rcfg r.1).eng then x.rgnStop r.1 false else x) s

/-- The unit enters ALONE: cross-unit regions stop, and remote members count as not ready (R352). -/
def Dev.tdmAlone (s : Dev) : Dev :=
  let s1 := s.crossStop
  s1.on (fun d =>
    let d1 := if d.splitHold then d.holdEnd 0 else d.setTdmSt 0
    let d2 := d1.setTdm { d1.tdm with hold := false, shortT := none, sf := [], sd := [] }
    d2.crossGroups.foldl (fun (x : Chip) h => x.apsInputs h) d2)

/-- TANDEM_SPLIT (R352); a unit that is ALONE stays so (log entry 22). -/
def Dev.tdmSplit (s : Dev) : Dev :=
  if s.chip.tdmSt = 0 then s else s.tdmAlone.on (fun d => (d.flag R.TDM_EVENT 3).tdmEvent 5)

/-- A unit stays PENDING 10 s, in core cycles. -/
def joinTime : Nat := 10000000000

/-- JOIN_TIMEOUT (R340). -/
def Dev.joinTimeout (s : Dev) : Dev :=
  if s.chip.tdmSt = 1 ∧ s.chip.tdm.pendT + joinTime ≤ s.chip.core then
    s.tdmAlone.on (fun d => (d.flag R.TDM_EVENT 5).tdmEvent 6)
  else s

/-- SPLIT_HOLD_ENTER (R348, R349): fewer than MIN_LANES lanes for SPLIT_DELAY µs. -/
def Chip.splitEnter (d : Chip) : Chip :=
  match d.tdm.shortT with
  | none => d
  | some t =>
    if ¬ (d.tdmSt = 2 ∨ d.tdmSt = 3) ∨ d.core < t + d.rf R.TDM_CFG 15 8 * 1000 then d else
    let remote := d.crossGroups.filter (fun h => match d.selectedEngine h with | some e => decide (136 ≤ e) | none => false)
    let d1 := d.cutBales
    let d2 := (((d1.setTdmSt 4).setTdm { d1.tdm with shortT := none, holdT := d.core }).flag R.TDM_EVENT 2).count R.TDM_SPLIT_CNT
    let d3 := ((d2.setPair R.TDM_SPLIT_TIME_LO R.TDM_SPLIT_TIME_HI d.dt).fence 35 0x1F).tdmEvent 4
    remote.foldl (fun (x : Chip) h =>
      match x.armedRgn h 1 with
      | some r => x.writeGap r lostUnknown x.dt x.dt 5 false x.splitHold
      | none => x) d3

/-! ## SF and SD of remote members (R346) -/

/-- SF (`k` 24) or SD (`k` 25) of the peer's engine `e`, at its number on the pair, reaches this unit. -/
def Chip.remoteDefect (d : Chip) (e k : Nat) (on : Bool) : Chip :=
  if ¬ (d.tdmSt = 2 ∨ d.tdmSt = 3) then d else
  let put := fun (l : List Nat) => if on then e :: l.filter (· ≠ e) else l.filter (· ≠ e)
  let t := if k = 24 then { d.tdm with sf := put d.tdm.sf } else if k = 25 then { d.tdm with sd := put d.tdm.sd } else d.tdm
  (d.setTdm t).apsEngine e

/-! ## Registers (R354) -/

/-- TDM_STATUS. -/
def Chip.tdmStatus (d : Chip) : Word :=
  w32 (d.rf R.TDM_STATUS 3 0 + d.lanesUp * 2 ^ 4 + b2n (decide (d.minLanes ≤ d.lanesUp)) * 2 ^ 8 + b2n d.tdm.ready * 2 ^ 9
    + d.tdm.up.foldl (fun a n => a + 2 ^ (10 + n)) 0)

/-- TDM_CAPACITY: lanes times 50.46875 Gb/s, in 0.1 Gb/s; a free bit rounds it (log entry 23). -/
def Chip.tdmCapacity (d : Chip) : Word :=
  if d.tdmSt = 2 ∨ d.tdmSt = 3 then
    let v := d.lanesUp * 5046875
    w32 (v / 10000 + (if v % 10000 = 0 then 0 else (Sys2Proof.Config.freeValue 1 d.lanesUp).toNat))
  else 0

/-- TDM_RT_LOAD: the demand in is that of the cross-unit groups hosted here; the demand out is known to the peer
alone, and the rounding is not given: free values (log entry 23). -/
def Chip.tdmRtLoad (d : Chip) : Word :=
  if ¬ d.joined then 0 else
  let r := (d.crossGroups.map (fun g => (d.remoteMembers g).length * pathRate (d.engFmt g) (d.engRate g))).foldl (· + ·) 0
  let up := if r % 100000 = 0 then 0 else (Sys2Proof.Config.freeValue 1 r).toNat
  w32 ((Sys2Proof.Config.freeValue 16 d.free).toNat + (r / 100000 + up) % 2 ^ 16 * 2 ^ 16)

/-- TDM_CAP_LOAD: a measured mean, a free value while joined (log entry 23). -/
def Chip.tdmCapLoad (d : Chip) : Word := if d.joined then Sys2Proof.Config.freeValue 32 d.free else 0

/-- A write of TDM_CFG: only in ALONE, MIN_LANES within 1 to 8, SPLIT_DELAY at least 1. -/
def Chip.tdmCfgWrite (d : Chip) (w : Word) : Status × Chip :=
  if d.tdmSt ≠ 0 then (.notPermitted, d)
  else (.ok, d.wr R.TDM_CFG (w32 (clamp 1 8 (fld w 3 0) + max 1 (fld w 15 8) * 2 ^ 8)))

/-- A write of TDM_XMEMBER may take place: the groups that it names before and after are both disabled. -/
def Chip.xmemberOk (d : Chip) (k : Nat) (w : Word) : Bool :=
  let old := d.rd (R.xmem_TDM_XMEMBER k)
  let off := fun (v : Word) => !bit v 21 || decide ((d.group (fld v 7 0)).st = .disabled)
  off old && off w

end Sys2Proof.Machine
end

