-- ==== Sys2Proof/Machine/RegView.lean ====
section
/-! DEFINITION. What a register address reaches, and what a read of it returns: the indexed objects behind the
windows, the stored words, and the words that hardware state makes up (R9, R264, R296, R355). -/

namespace Sys2Proof.Machine

/-! ## Targets -/

/-- The first lane window of the quad or cage that a lane window's registers at 0x100 and up reach. -/
def quadWindow (n : Nat) : Nat := if n < 132 then quadIdx n else 132

/-- The cage of a lane window. -/
def cageOf (n : Nat) : Nat := if n < 128 then n / 4 else if n < 132 then 32 else 33

/-- The byte entry that OHP_BYTE_IDX of an engine names (R92). -/
def Chip.byteEntry (d : Chip) (e : Nat) : Nat :=
  let w := d.rd (R.OHP_BYTE_IDX e)
  if bit w 14 then ctxByteIdx (fld w 29 16) (fld w 3 0) (fld w 13 4) else obyteIdx e (fld w 3 0) (fld w 13 4)

/-- OHP_BYTE_IDX names a byte of the current format: of the engine's line, or of the context's TYPE. -/
def Chip.byteValid (d : Chip) (e : Nat) : Bool :=
  let w := d.rd (R.OHP_BYTE_IDX e)
  let row := fld w 3 0
  let col := fld w 13 4
  if bit w 14 then
    let ty := d.ctxType (fld w 29 16)
    decide (1 ≤ ty ∧ ty ≤ 14) && ctxByteOk 0 ty row col
  else tohByteOk (d.engFmt e) row col

/-- The pseudo-channel that HAY_IDX names, and its stack. -/
def Chip.hayStack (d : Chip) : Nat := d.rf R.HAY_IDX 1 0
def Chip.hayPc (d : Chip) : Nat := pcIdx d.hayStack (d.rf R.HAY_IDX 12 8)

/-- The combiner and the time compare that CAP_TRG_IDX of an engine names in its cluster. -/
def Chip.trgComb (d : Chip) (e : Nat) : Nat := e / 8 * 8 + d.rf (R.CAP_TRG_IDX e) 2 0
def Chip.trgCmp (d : Chip) (e : Nat) : Nat := e / 8 * 4 + d.rf (R.CAP_TRG_IDX e) 5 4

/-- The register that a window's offset reaches: the object that an index register names, or itself. -/
def Chip.reach (d : Chip) (r : RegId) : RegId :=
  let o := r.off
  match r.blk with
  | .eng =>
    let e := r.idx
    if 0xB4 ≤ o ∧ o ≤ 0xDC then ⟨.rgn, d.rf (R.CAP_RGN_IDX e) 11 0, o⟩
    else if o = 0xE4 ∨ o = 0xE8 then ⟨.mat, e * 4 + d.rf (R.CAP_MATCH_IDX e) 1 0, o⟩
    else if o = 0xF0 ∨ o = 0xF4 ∨ o = 0xF8 then ⟨.comb, d.trgComb e, o⟩
    else if o = 0xA8 ∨ o = 0xAC then ⟨.tcmp, d.trgCmp e, o⟩
    else if 0x3CC ≤ o ∧ o ≤ 0x3D4 then ⟨.prgn, d.rf (R.PAT_RGN_IDX e) 9 0, o⟩
    else if o = 0x268 then ⟨.tslot, (d.ttiIdx e).getD (e * 8), o⟩
    else if o = 0x270 then ⟨.obyte, d.byteEntry e, o⟩
    else if o = 0x2D4 then ⟨.seqStep, d.rf (R.MAP_SEQ_IDX e) 9 0, o⟩
    else r
  | .lane => if 0x100 ≤ o then ⟨.lane, quadWindow r.idx, o⟩ else r
  | .yrd =>
    if o = 0x104 ∨ o = 0x108 ∨ o = 0x110 ∨ o = 0x114 ∨ o = 0x128 ∨ o = 0x12C ∨ o = 0x130 ∨ o = 0x134 then
      ⟨.stack, d.hayStack, o⟩
    else if 0x118 ≤ o ∧ o ≤ 0x124 then ⟨.pc, d.hayPc, o⟩
    else r
  | .tdm => if o = 0x20 then ⟨.xmem, d.rf R.TDM_XMEM_IDX 5 0, o⟩ else r
  | _ => r

/-! ## Words that hardware state makes up -/

/-- The last received value of the byte that OHP_BYTE_IDX names: of the last confirmed frame, or of the last
container of the context. -/
def Chip.byteRx (d : Chip) (e : Nat) : Nat :=
  let w := d.rd (R.OHP_BYTE_IDX e)
  let row := fld w 3 0
  let col := fld w 13 4
  if !d.byteValid e then 0
  else if bit w 14 then
    let t := fld w 29 16
    let ty := d.ctxType t
    let u := (d.ctx t).unit
    if sdhType ty then poh ty row u else octAt u (oduAt row col)
  else
    let f := d.engFmt e
    octAt (d.ohp e).frame (if isSdh f then sdhAt (stmN f) row col else otnAt row col)

/-- OHP_BYTE_CFG. -/
def Chip.byteWord (d : Chip) (e : Nat) : Word :=
  let w := d.rd (R.obyte_OHP_BYTE_CFG (d.byteEntry e))
  setFld (setFld w 23 16 (d.byteRx e)) 31 31 (b2n (d.byteValid e))

/-- OHP_STATUS. -/
def Chip.ohpStatus (d : Chip) (e : Nat) : Word :=
  let mis := (List.range 8).foldl (fun a k => a + b2n (d.rb (R.tslot_OHP_TTI_SLOT (e * 8 + k)) 8) * 2 ^ k) 0
  w32 (b2n (!(d.ohp e).commit.isEmpty) + mis * 2 ^ 8)

/-- MAP_MSI of the slot that MAP_MSI_IDX names (R115). -/
def Chip.msiWord (d : Chip) (e : Nat) : Word :=
  let s := d.rf (R.MAP_MSI_IDX e) 6 0
  let rank := d.lineMux e
  if s = 0 ∨ oduSlots rank < s then 0 else
  let acc := (d.ohp e).msiAcc
  w32 (SMap.get 0 acc s + d.msiTx e none rank s * 2 ^ 8 + b2n (d.msiBad e none rank s acc) * 2 ^ 16)

/-- DEF_PATH_STATUS of the context that DEF_PATH_IDX names. -/
def Chip.pathWord (d : Chip) (e : Nat) : Word :=
  let t := d.rf (R.DEF_PATH_IDX e) 13 0
  if ¬ d.engEn e ∨ ¬ d.ctxEn t ∨ d.ctxOwner t ≠ e then 0 else w32 (d.pathBits t % 2 ^ 12 + 2 ^ 31)

/-- HST_CFG, HST_STATUS and the addresses of the active bundle (R261, R293). -/
def Chip.hostCfg (d : Chip) : Word :=
  match d.sec.flash.bundle with
  | some b => w32 (b2n d.pav.booted + b.body.mode % 4 * 2 + b2n b.body.rsfec25 * 8 + b2n b.body.jumbo * 16 + b2n b.body.kr * 32)
  | none => w32 (b2n d.pav.booted)
def Chip.hostStatus (d : Chip) : Word :=
  let h := d.host
  w32 (b2n h.ready + (List.range 4).foldl (fun a k => a + b2n (h.link.contains k) * 2 ^ (k + 1)) 0
    + h.sessions.length % 32 * 2 ^ 5 + b2n (h.sessions.any (·.owner)) * 2 ^ 10 + h.streams.length % 64 * 2 ^ 11)
def Chip.hostBody (d : Chip) (f : BundleBody → Nat) (dflt : Nat) : Nat := (d.sec.flash.bundle.map (fun b => f b.body)).getD dflt

/-- The first of two sequence numbers is the higher, modulo 2^32 (R320). -/
def seqAbove (a b : Nat) : Bool := decide (0 < sdiff 32 a b)

/-- A checkpoint slot. -/
def Chip.ckpt (d : Chip) (k : Nat) : Ckpt := d.pav.ckpts.getD k ⟨0, 0, false, none⟩

/-- PAV_CKPT_STATUS. -/
def Chip.ckptStatus (d : Chip) : Word :=
  let a := d.ckpt 0
  let b := d.ckpt 1
  w32 (b2n a.sealed + b2n b.sealed * 2 + b2n (seqAbove b.seq a.seq) * 4)

/-- GTH_STATUS. -/
def Chip.gthStatus (d : Chip) : Word :=
  w32 (d.gth.st.code + d.pav.active * 4 + d.pav.stby.code * 8 + b2n (d.pav.retired.contains 0) * 32
    + b2n (d.pav.retired.contains 1) * 64 + d.gth.cause % 8 * 128)

/-- The fixed registers of the host and tandem lane windows (R264, R355). -/
def fixedLane (n o : Nat) : Bool := decide (128 ≤ n) && [0x000, 0x004, 0x008, 0x00C, 0x010, 0x100].contains o

/-! ## Reads -/

/-- The value of a register of a global block. -/
def Chip.viewGlb (d : Chip) (o : Nat) : Option Word :=
  match o with
  | 0x004 => some d.glbUnit
  | 0x008 => some (w32 d.activeImage.version)
  | 0x00C => some d.glbReady
  | 0x04C => some d.faultStatus
  | 0x054 => some d.pwrStatus
  | 0x06C => some d.secStatus
  | 0x074 => some (w32 d.log.next)
  | _ =>
    if 0x10 ≤ o ∧ o ≤ 0x20 then some (engBits d.engReady ((o - 0x10) / 4))
    else if 0x24 ≤ o ∧ o ≤ 0x30 then some (engBits (fun n => decide (n < 128) && (d.lane n).ready) ((o - 0x24) / 4))
    else none

/-- The value of a register of the service master or the ledger. -/
def Chip.viewSvc (d : Chip) (o : Nat) : Option Word :=
  if o = 0x004 then some d.svcStatus
  else if o = 0x01C then some d.svcSub
  else if 0x20 ≤ o ∧ o ≤ 0x30 then some (engBits (fun e => d.svc.spares.contains e) ((o - 0x20) / 4))
  else if 0x34 ≤ o ∧ o ≤ 0x44 then some (engBits (fun e => d.svc.retired.contains e) ((o - 0x34) / 4))
  else none

/-- The value of a register of the repair ledger block. -/
def Chip.viewLed (d : Chip) (o : Nat) : Option Word :=
  match o with
  | 0x000 => some d.ledStatus
  | 0x00C => some d.ledLms
  | 0x010 => some d.ledHwm
  | 0x014 => some (w32 ((d.sec.flash.bundle.map (·.bsn)).getD 0))
  | 0x018 => some (w32 ((d.sec.flash.pend.map (·.bsn)).getD 0))
  | 0x01C => some d.ledStage
  | _ => if 0x24 ≤ o ∧ o ≤ 0x40 then some (w32 (d.ledgerWord (d.rf R.LED_SLOT_IDX 5 0) ((o - 0x24) / 4))) else none

/-- The value of a register of the host port, the Pavilion or the Gatehouse. -/
def Chip.viewHst (d : Chip) (o : Nat) : Option Word :=
  match o with
  | 0x000 => some d.hostCfg
  | 0x008 => some d.hostStatus
  | 0x010 => some (w32 d.sec.fuse.mac)
  | 0x014 => some (w32 (d.sec.fuse.mac / 2 ^ 32))
  | 0x018 => some (w32 (d.hostBody (·.ipv4) 0))
  | 0x020 => some (w32 (d.hostBody (·.ipv6) 0 / 2 ^ 96))
  | 0x024 => some (w32 (d.hostBody (·.ipv6) 0 / 2 ^ 64))
  | 0x028 => some (w32 (d.hostBody (·.ipv6) 0 / 2 ^ 32))
  | 0x02C => some (w32 (d.hostBody (·.ipv6) 0))
  | 0x030 => some (w32 (d.hostBody (·.cmdPort) 50128 + d.hostBody (·.roPort) 50129 * 2 ^ 16))
  | _ => none

/-- The value of a Pavilion register. -/
def Chip.viewPav (d : Chip) (o : Nat) : Option Word :=
  match o with
  | 0x000 => some (w32 (d.pav.active + b2n d.pav.loss * 2))
  | 0x008 => some (w32 d.pav.head)
  | 0x00C => some (w32 d.pav.applied)
  | 0x010 => some (w32 (d.ckpt 0).seq)
  | 0x014 => some (w32 (d.ckpt 1).seq)
  | 0x018 => some d.ckptStatus
  | 0x028 => some (w32 d.sec.flash.slotA.version)
  | 0x02C => some (w32 d.sec.flash.slotB.version)
  | _ => none

/-- The value of a Gatehouse register. -/
def Chip.viewGth (d : Chip) (o : Nat) : Option Word :=
  match o with
  | 0x004 => some d.gthStatus
  | 0x00C => some (w32 d.gth.cnt)
  | 0x010 => some (w32 (min 0xFFFF d.gth.gap))
  | 0x020 => some (w32 d.gth.peak)
  | _ => none

/-- The value of a register of an engine window that hardware state makes up. -/
def Chip.viewEng (d : Chip) (e o : Nat) : Option Word :=
  match o with
  | 0x004 => some (d.engStatus e)
  | 0x04C => some (d.hntStatus e)
  | 0x080 => some (w32 (d.cap e).stall.length)
  | 0x084 => some (w32 (d.cap e).stlPeak)
  | 0x08C => some (d.capEb e)
  | 0x094 => some (d.capStatus e)
  | 0x0AC => some (setFld (d.rd (R.tcmp_CAP_TRG_TIME_HI (d.trgCmp e))) 31 31 (b2n (SMap.get false d.cmps (d.trgCmp e))))
  | 0x0CC => some (d.rgnState (d.rf (R.CAP_RGN_IDX e) 11 0))
  | 0x0D0 => some (d.rgnStart (d.rf (R.CAP_RGN_IDX e) 11 0))
  | 0x0D4 => some (d.rgnCount (d.rf (R.CAP_RGN_IDX e) 11 0))
  | 0x0D8 => some (d.rgnSeq (d.rf (R.CAP_RGN_IDX e) 11 0))
  | 0x0DC => some (d.rgnTrigSeq (d.rf (R.CAP_RGN_IDX e) 11 0))
  | 0x0F8 => some (d.trgStatus (e / 8) (d.rf (R.CAP_TRG_IDX e) 2 0))
  | 0x208 => some (d.ohpStatus e)
  | 0x270 => some (d.byteWord e)
  | 0x2C8 => some (d.mapStatus e)
  | 0x2DC => some (d.msiWord e)
  | 0x318 => some (d.pathWord e)
  | 0x36C => some (d.patStatus e)
  | 0x38C => some (d.apsStatus e)
  | 0x3A4 => some (w32 ((d.apsTx e).getD 0))
  | 0x3CC => some (d.prgnWord (d.rf (R.PAT_RGN_IDX e) 9 0))
  | 0x3E4 => some (setFld (d.rd (R.SWB_RX_STATUS e)) 1 1 (b2n (d.laneLive e)))
  | 0x3F8 => some (d.injStatus e)
  | 0x3FC => some (d.patCur e)
  | _ => none

/-- The value of a register of a lane window that hardware state makes up. -/
def Chip.viewLane (d : Chip) (n o : Nat) : Option Word :=
  if fixedLane n o then some (w32 (if o = 0 then b2n (d.laneEn n) else 0))
  else match o with
  | 0x020 => some (d.lnStatus n)
  | 0x028 => some (d.lnFreq n)
  | _ => none

/-- The value of a Yard or Hayloft register that hardware state makes up. -/
def Chip.viewYrd (d : Chip) (o : Nat) : Option Word :=
  match o with
  | 0x024 => some d.portStatus
  | 0x104 => some (d.hayStatus d.hayStack)
  | 0x118 => some (d.pcStatus d.hayStack (d.rf R.HAY_IDX 12 8))
  | 0x130 => some (d.migWord d.hayStack)
  | 0x134 => some (d.migPos d.hayStack)
  | _ => none

/-- The value of a time unit register that hardware state makes up. -/
def Chip.viewTim (d : Chip) (o : Nat) : Option Word :=
  match o with
  | 0x008 => some d.timStatus
  | 0x010 => some (w32 d.dt)
  | 0x014 => some (w32 (d.dt / 2 ^ 32))
  | 0x040 => some d.timFreq
  | _ => none

/-- The value of a tandem register that hardware state makes up. -/
def Chip.viewTdm (d : Chip) (o : Nat) : Option Word :=
  match o with
  | 0x004 => some d.tdmStatus
  | 0x010 => some d.tdmCapacity
  | 0x014 => some d.tdmRtLoad
  | 0x018 => some d.tdmCapLoad
  | _ => none

/-- The word that hardware state makes up for a register, where it is not a stored one. -/
def Chip.view (d : Chip) (r : RegId) : Option Word :=
  match r.blk with
  | .glb => d.viewGlb r.off
  | .svc => d.viewSvc r.off
  | .led => d.viewLed r.off
  | .yrd => d.viewYrd r.off
  | .tim => d.viewTim r.off
  | .hst => d.viewHst r.off
  | .pav => d.viewPav r.off
  | .gth => d.viewGth r.off
  | .tdm => d.viewTdm r.off
  | .eng => d.viewEng r.idx r.off
  | .lane => d.viewLane r.idx r.off
  | .trb => if r.off = 0x28 then some (d.trbStatus r.idx) else none
  | .tp => if r.off = 0x10 then some (d.tpTimeHi r.idx) else if r.off = 0x18 then some (d.tpStatus r.idx) else none
  | _ => none

/-- Bits of a register that a read returns: write-only and reserved bits read 0 (R9, R10). -/
def RegId.readMask (r : RegId) : Word :=
  match r.row with
  | some x => w32 (x.rw ||| x.w1c ||| x.rc ||| x.ot ||| x.ro)
  | none => 0

/-- What a read of a register returns (R9); a reserved word reads 0 (R297). -/
def Chip.readWord (d : Chip) (r : RegId) : Word :=
  match d.view r with
  | some w => w &&& r.readMask
  | none => d.rd (d.reach r) &&& r.readMask

/-- What a read leaves behind (R9): read-to-clear bits return to 0, a peak field to what it tracks, and the free
values that a tandem load is made of are drawn anew. -/
def Chip.readEffect (d : Chip) (r : RegId) : Chip :=
  match r.row with
  | none => d
  | some x =>
    let t := d.reach r
    if r.blk = .eng ∧ r.off = 0x084 then d.setCap r.idx { d.cap r.idx with stlPeak := (d.cap r.idx).stall.length }
    else if r.blk = .eng ∧ r.off = 0x08C then d.setCap r.idx { d.cap r.idx with ebPeak := ceilDiv (d.cap r.idx).fill 32 }
    else if r.blk = .tdm ∧ (r.off = 0x010 ∨ r.off = 0x014 ∨ r.off = 0x018) then { d with free := d.free + 1 }
    else if x.rc = 0 then d
    else d.wr t (d.rd t &&& ~~~ (w32 x.rc))

end Sys2Proof.Machine
end

