-- ==== Sys2Proof/Machine/RegAccess.lean ====
section
/-! DEFINITION. Register accesses by the host and by Yard masters: the access checks of R300 in their order, the
CD, OT, lock and owner rules, and the effect that each register's own write has (R9, R299-R316). -/

namespace Sys2Proof.Machine

/-! ## Refusals (R300, R301) -/

/-- The refusal record of R301. -/
def Chip.refuse (d : Chip) (sess a : Nat) (st : Status) : Chip :=
  (((d.flag R.GLB_EVENT 4).count R.GLB_REFUSE_CNT).wr R.GLB_REFUSE_ADDR (w32 a)).wr R.GLB_REFUSE_INFO
    (w32 (st.code + sess % 65536 * 2 ^ 16))

/-- An access to a default-target range is answered by the default target and recorded there for the active
processor's master port (R215, R294). -/
def Chip.defaultTarget (d : Chip) (a : Nat) : Chip :=
  ((d.yardErr (0x4200000000 + a % 2 ^ 32) (17 + d.pav.active) dfltPort 0).count R.YRD_DECODE_CNT).flag R.YRD_EVENT 0

/-- A session is an operator's. -/
def Chip.operator (d : Chip) (sess : Nat) : Bool := d.host.sessions.any (fun s => decide (s.num = sess) && !s.owner)

/-- The registers marked owner only (R311). -/
def ownerOnly (r : RegId) : Bool :=
  match r.blk with
  | .glb => decide (r.off = 0x044 ∨ r.off = 0x050)
  | .svc => decide (r.off = 0x000)
  | .led => decide (r.off = 0x008)
  | .pav => decide (r.off = 0x020)
  | .gth => decide (r.off = 0x000)
  | _ => false

/-- A register of a block that is held in reset or powered down (R302, R384). -/
def Chip.heldReg (d : Chip) (r : RegId) : Bool := decide (r.blk = .eng) && d.engHeld r.idx

/-- The part of the checks that reads and writes share: alignment, the default target, a fence of the
configuration space, a block held in reset (orders 1, 2 and 4 of R300; R220).  `ready` lets a read of the READY
register pass; `own` stops a write to an owner-only register (order 3). -/
def Chip.accessCheck (d : Chip) (sess a : Nat) (write : Bool) : Except Status RegId :=
  if a % 4 ≠ 0 then .error .badAlign
  else match decodeAddr a with
  | none => .error .decodeError
  | some r =>
    if d.fenced 32 then .error .targetReset
    else if write ∧ ownerOnly r ∧ d.operator sess then .error .notPermitted
    else if d.heldReg r ∧ (write ∨ r.off ≠ 0x004) then .error .notReady
    else .ok r

/-- What a refused access leaves: its record, and for the default target the record of the Yard. -/
def Chip.accessFail (d : Chip) (sess a : Nat) (st : Status) : Chip :=
  match st with
  | .targetReset => d
  | .decodeError => (d.defaultTarget a).refuse sess a st
  | _ => d.refuse sess a st

/-! ## Locks and CD fields (orders 5 and 6) -/

/-- A locked register (R312), or a set OT bit that the write would change (R310). -/
def Chip.lockedWrite (d : Chip) (r : RegId) (w : Word) : Bool :=
  let old := d.rd r
  match r.blk, r.off with
  | .glb, 0x044 => decide (old &&& ~~~ w &&& 7 ≠ 0)
  | .glb, 0x048 => d.rb R.GLB_LOCK 1 && decide (old ≠ w)
  | .glb, 0x050 => d.rb R.GLB_LOCK 0 && decide ((old ^^^ w) &&& 0x1FFFF ≠ 0)
  | .glb, 0x068 => d.rb R.GLB_LOCK 2 && decide ((old ^^^ w) &&& 0xFFFF ≠ 0)
  | _, _ => false

/-- The ENABLE that governs the CD fields of a register reached at `t` through window `r`, and the flag of a
refusal (R305). -/
def Chip.cdRule (d : Chip) (r t : RegId) : Bool × Option (RegId × Nat) :=
  let e := r.idx
  match t.blk with
  | .lane =>
    if t.off = 0x100 then ((List.range 4).any (fun k => d.laneEn (t.idx + k)), some (R.LN_EVENT e, 8))
    else (d.laneEn e, some (R.LN_EVENT e, 8))
  | .trb => (d.ctxEn e, some (R.TRB_EVENT e, 10))
  | .tim => (d.timEn, some (R.TIM_EVENT, 8))
  | .tp => (d.rb (R.TP_CFG e) 0, some (R.TP_EVENT e, 8))
  | .rgn => (d.rb (R.rgn_CAP_RGN_CFG t.idx) 0, some (R.CAP_EVENT e, 8))
  | .comb => (d.rb (R.comb_CAP_TRG_CFG t.idx) 0, some (R.CAP_EVENT e, 8))
  | .prgn => (d.prgnEn t.idx, some (R.PAT_EVENT e, 8))
  | .obyte => (d.engEn e && d.byteValid e, some (R.OHP_EVENT e, 8))
  | .eng =>
    match t.off with
    | 0x380 | 0x3B0 => (d.rb (R.APS_CFG e) 0, some (R.APS_EVENT e, 8))
    | 0x3E0 => (d.engEn e, some (R.ENG_EVENT e, 0))
    | 0x040 => (d.engEn e, some (R.HNT_EVENT e, 8))
    | 0x200 => (d.engEn e, some (R.OHP_EVENT e, 8))
    | 0x2C0 => (d.engEn e, some (R.MAP_EVENT e, 8))
    | 0x2E0 => (d.engEn e, some (R.DEF_EVENT e, 30))
    | 0x090 => (d.engEn e, some (R.CAP_EVENT e, 8))
    | 0x364 => (d.engEn e, some (R.PAT_EVENT e, 8))
    | _ => (false, none)
  | _ => (false, none)

/-- The CD bits of a register. -/
def RegId.cdMask (r : RegId) : Word := match r.row with | some x => w32 x.cd | none => 0

/-- A group that a member register names is enabled. -/
def Chip.memberBusy (d : Chip) (w : Word) : Bool := bit w 12 && d.rb (R.APS_CFG (fld w 7 0)) 0

/-- An order-6 refusal, with its flag (R139, R303, R305, R354). -/
def Chip.cdRefused (d : Chip) (r : RegId) (w : Word) : Bool × Option (RegId × Nat) :=
  let t := d.reach r
  if r.blk = .eng ∧ r.off = 0x394 then
    (d.memberBusy (d.rd t) || d.memberBusy w, some (R.APS_EVENT r.idx, 8))
  else if r.blk = .tdm ∧ r.off = 0x020 then (!d.xmemberOk t.idx w, none)
  else if r.blk = .lane ∧ fixedLane r.idx r.off then (false, none)
  else
    let rule := d.cdRule r t
    (rule.1 && decide ((d.rd t ^^^ w) &&& t.cdMask ≠ 0), rule.2)

/-! ## Stores -/

/-- The register with a write's fields stored (R9): RW and OT fields take the value, a 1 clears a W1C bit, and
bits in `keep` stay. -/
def Chip.store (d : Chip) (t : RegId) (w : Word) (keep : Word := 0) : Chip :=
  match t.row with
  | none => d
  | some x =>
    let m : Word := w32 (x.rw ||| x.ot) &&& ~~~ keep
    let old := d.rd t
    d.wr t ((old &&& ~~~ m &&& ~~~ (w &&& w32 x.w1c)) ||| (w &&& m))

/-- One clamped field of a word. -/
def fixField (lo_ hi_ : Nat) (w : Word) (hi lo : Nat) : Word := setFld w hi lo (clamp lo_ hi_ (fld w hi lo))

/-- A signed field held within ±200.00 ppm, in 0.01 ppm (R36, R122). -/
def ppmField (w : Word) (hi lo : Nat) : Word := setFld w hi lo (unsgn 16 (clampI (-20000) 20000 (sgn 16 (fld w hi lo))))

/-- The word that is stored for a written one: fields beyond their range hold the nearer limit. -/
def clampWord (r : RegId) (w : Word) : Word :=
  match r.blk, r.off with
  | .glb, 0x068 => fixField 0 110 (fixField 0 110 w 7 0) 15 8
  | .svc, 0x000 => fixField 1 255 w 15 8
  | .yrd, 0x000 => fixField 1 255 (fixField 1 255 w 7 0) 23 16
  | .yrd, 0x10C => fixField 1 64 (fixField 1 0xFFFF w 15 0) 27 20
  | .yrd, 0x110 => fixField 1 168 w 7 0
  | .tim, 0x018 => fixField 1 500 w 8 0
  | .tim, 0x01C => fixField 50 1000000000 w 29 0
  | .tim, 0x020 => fixField 10 1000000 w 19 0
  | .hst, 0x004 => fixField 1 255 (fixField 1 3600 w 11 0) 23 16
  | .pav, 0x020 => fixField 1 100 (fixField 16 256 w 8 0) 23 16
  | .gth, 0x000 => fixField 2 15 w 3 0
  | .eng, 0x044 => fixField 1 64 (fixField 1 64 w 6 0) 14 8
  | .eng, 0x090 => fixField 1 1000000 w 19 0
  | .eng, 0x2E8 | .eng, 0x2EC => fixField 0 10000 (fixField 0 10000 w 13 0) 29 16
  | .eng, 0x31C => fixField 0 100 w 22 16
  | .eng, 0x384 => fixField 0 720 (fixField 0 100 w 6 0) 25 16
  | .lane, 0x010 => ppmField w 15 0
  | .lane, 0x014 => fixField 23 1000 w 19 0
  | .lane, 0x018 => fixField 100 1000000 w 19 0
  | .trb, 0x01C => ppmField w 31 16
  | .tp, 0x004 => fixField 1 4095 w 31 20
  | _, _ => w

/-! ## What a register's own write does (order 7) -/

/-- A write of ENG_CTRL: RESET goes before ENABLE (R313, R385). -/
def Dev.engCtrl (s : Dev) (e : Nat) (w : Word) : Status × Dev :=
  if bit w 1 then s.engResetCmd e
  else if bit w 0 ∧ ¬ s.chip.engEn e then ((s.chip.engEnable e).1, ⟨(s.chip.engEnable e).2, s.mem⟩)
  else if ¬ bit w 0 then (.ok, s.engDisable e)
  else (.ok, s)

/-- A write of HNT_CTRL (R79): SNAP, then REHUNT or FORCE; the two together are refused, and no bit acts. -/
def Chip.huntCtrl (d : Chip) (e : Nat) (w : Word) : Status × Chip :=
  let d1 := if bit w 2 then d.snap e else d
  if bit w 0 ∧ bit w 1 then (.badParam, d.flag (R.HNT_EVENT e) 7)
  else if bit w 0 then (.ok, d1.rehunt e)
  else if bit w 1 then
    let f := d1.force e (fld w 13 8)
    (if f.1 then .ok else .badParam, f.2)
  else (.ok, d1)

/-- A write of CAP_RGN_CFG of region `r`: ENABLE, then STOP, then ARM (R177-R179, R304). -/
def Dev.rgnCfgWrite (s : Dev) (e r : Nat) (w : Word) : Status × Dev :=
  let was := s.chip.rb (R.rgn_CAP_RGN_CFG r) 0
  let s1 := s.on (fun d => d.store (R.rgn_CAP_RGN_CFG r) w 1)
  if ¬ bit w 0 then
    let s2 := if was then s1.rgnDisable r else s1
    if bit w 1 then (.badParam, s2.on (fun d => d.flag (R.CAP_EVENT e) 9)) else (.ok, s2)
  else
    let en : Status × Dev := if was then (.ok, s1) else ((s1.chip.rgnEnable e r).1, ⟨(s1.chip.rgnEnable e r).2, s1.mem⟩)
    if en.1 ≠ .ok then en else
    let s2 := if bit w 2 then en.2.rgnStop r true else en.2
    if bit w 1 then ((s2.chip.rgnArm e r).1, ⟨(s2.chip.rgnArm e r).2, s2.mem⟩) else (.ok, s2)

/-- A write of CAP_TRG_CFG of combiner `cb` (R172, R304). -/
def Chip.combCfgWrite (d : Chip) (e cb : Nat) (w : Word) : Status × Chip :=
  let was := d.rb (R.comb_CAP_TRG_CFG cb) 0
  let d1 := d.store (R.comb_CAP_TRG_CFG cb) w 1
  if bit w 0 ∧ ¬ was then d1.combEnable e cb
  else if ¬ bit w 0 then (.ok, d1.unflag (R.comb_CAP_TRG_CFG cb) 0)
  else (.ok, d1)

/-- A write of CAP_TRG_CMD (R171, R172). -/
def Chip.trgCmd (d : Chip) (e : Nat) (w : Word) : Chip :=
  let d1 := if bit w 8 then d.clearFired (d.trgComb e) else d
  d1.hostTrigger (e / 8) (fld w 7 0)

/-- The contexts whose trace the shared slot `k` serves. -/
def Chip.slotCtxs (d : Chip) (k : Nat) : List Nat :=
  d.enabledCtxs.filter (fun t => d.rb (R.TRB_PATH t) 12 && decide (d.rf (R.TRB_PATH t) 11 0 = k))

/-- A write of OHP_TTI_SLOT (R89, R90). -/
def Chip.ttiSlotCfg (d : Chip) (e : Nat) (w : Word) : Chip :=
  let t := d.reach ⟨.eng, e, 0x268⟩
  let shared := d.rb (R.OHP_TTI_IDX e) 15
  let slot := d.rf (R.OHP_TTI_IDX e) 11 0
  let d1 := (d.store t w).ttiSlotWrite e slot shared
  if shared then (d.slotCtxs slot).foldl (fun (x : Chip) c => x.ttiSlotDef e slot (some c)) d1
  else d1.ttiSlotDef e slot none

/-- A write of OHP_BYTE_CFG: staged, and ignored with IDX_ERR where the index names no byte (R92, R93). -/
def Chip.byteCfg (d : Chip) (e : Nat) (w : Word) : Status × Chip :=
  if d.byteValid e then (.ok, d.store (d.reach ⟨.eng, e, 0x270⟩) w)
  else (.badParam, d.flag (R.OHP_EVENT e) 10)

/-- A write of MAP_CTRL: SEQ_STOP, then SEQ_GO (R112). -/
def Chip.mapCtrl (d : Chip) (e : Nat) (w : Word) : Chip :=
  let t := fld w 13 0
  let d1 := if bit w 15 then d.seqStop e t else d
  if bit w 14 then d1.seqGo e t else d1

/-- A write of PAT_CTRL (R197, R203). -/
def Chip.patCtrl (d : Chip) (e : Nat) (w : Word) : Chip :=
  let sub := fld w 15 0
  let d1 := if bit w 16 then d.patFlush e sub else d
  let d2 := if bit w 17 then d1.patAbort e sub else d1
  if bit w 18 then d2.injStop e else d2

/-- A write of PAT_Q_TIME_HI: PUSH pushes the entry that the descriptor names (R196). -/
def Dev.pushWrite (s : Dev) (e : Nat) (w : Word) : Status × Dev :=
  let s1 := s.on (fun d => d.store (R.PAT_Q_TIME_HI e) w)
  if ¬ bit w 31 then (.ok, s1) else
  let d := s1.chip
  let q := d.rd (R.PAT_Q_DESC e)
  let t := fld w 15 0 * 2 ^ 32 + (d.rd (R.PAT_Q_TIME_LO e)).toNat
  let p := s1.patPush e (fld q 9 0) (fld q 31 16) (if bit q 10 then some t else none) (bit q 11)
  (p.1, ⟨p.2, s1.mem⟩)

/-- A write of PAT_INJ_CFG (R203). -/
def Dev.injWrite (s : Dev) (e : Nat) (w : Word) : Status × Dev :=
  let s1 := s.on (fun d => d.store (R.PAT_INJ_CFG e) w)
  if bit w 6 then ((s1.injArm e).1, ⟨(s1.injArm e).2, s1.mem⟩) else (.ok, s1)

/-- A write of PAT_RGN_CFG of pattern region `r` (R189, R190). -/
def Chip.prgnCfgWrite (d : Chip) (e r : Nat) (w : Word) : Status × Chip :=
  let was := d.prgnEn r
  if bit w 0 ∧ ¬ was then d.prgnEnable e r
  else if ¬ bit w 0 ∧ was then d.prgnDisable e r
  else (.ok, d)

/-- The Hayloft range of a hitless group's delay line lies in stacks that are ready (R383). -/
def Chip.dskReady (d : Chip) (h : Nat) : Bool :=
  !d.apsHitless h || d.stacksReady (d.rf (R.DSK_CFG h) 16 0 * 16) (d.rf (R.DSK_CFG h) 31 24 * 16)

/-- A write that sets APS_CFG.ENABLE (R139, R145, R383). -/
def Chip.apsEnable (d : Chip) (h : Nat) : Status × Chip :=
  if !d.dskReady h then (.notReady, d)
  else if d.apsChecks h then (.ok, (d.flag (R.APS_CFG h) 0).apsEnter h)
  else (.badParam, d.flag (R.APS_EVENT h) 9)

/-- A write of APS_CFG (R139, R145, R304). -/
def Chip.apsCfgWrite (d : Chip) (h : Nat) (w : Word) : Status × Chip :=
  let was := d.rb (R.APS_CFG h) 0
  let d1 := d.store (R.APS_CFG h) w 1
  if bit w 0 ∧ ¬ was then d1.apsEnable h
  else if ¬ bit w 0 ∧ was then (.ok, (d1.apsLeave h).unflag (R.APS_CFG h) 0)
  else (.ok, d1)

/-- A write of TRB_CFG (R100, R103, R304). -/
def Chip.trbCfgWrite (d : Chip) (t : Nat) (w : Word) : Status × Chip :=
  let was := d.ctxEn t
  let d1 := d.store (R.TRB_CFG t) w 1
  if bit w 0 ∧ ¬ was then d1.ctxEnable t
  else if ¬ bit w 0 ∧ was then d1.ctxDisable t
  else (.ok, d1)

/-- The effect of a write to an engine window. -/
def Dev.writeEng (s : Dev) (e : Nat) (r t : RegId) (w : Word) : Status × Dev :=
  let d := s.chip
  let m := s.mem
  let on (x : Status × Chip) : Status × Dev := (x.1, ⟨x.2, m⟩)
  let ok (x : Chip) : Status × Dev := (.ok, ⟨x, m⟩)
  let st := d.store t (clampWord r w)
  match r.off with
  | 0x000 => s.engCtrl e w
  | 0x048 => on (d.huntCtrl e w)
  | 0x0AC => on (d.cmpWrite e t.idx w)
  | 0x0B4 => s.rgnCfgWrite e t.idx w
  | 0x0E0 => ok (st.wr (R.mat_CAP_MATCH_IDX (e * 4 + fld w 1 0)) (w &&& 0x3FFF3))
  | 0x0F0 => on (d.combCfgWrite e t.idx w)
  | 0x0FC => ok (d.trgCmd e w)
  | 0x204 => ok (if bit w 0 then d.commit e else d)
  | 0x260 => on (d.ttiIdxWrite e w)
  | 0x264 => if bit w 0 then on (d.ttiStore e) else ok d
  | 0x268 => ok (d.ttiSlotCfg e w)
  | 0x270 => on (d.byteCfg e w)
  | 0x2C4 => ok (d.mapCtrl e w)
  | 0x2E4 => ok (st.defSummary e)
  | 0x2FC | 0x300 | 0x304 => ok (st.winWrite e false)
  | 0x308 | 0x30C | 0x310 => ok (st.winWrite e true)
  | 0x368 => ok (d.patCtrl e w)
  | 0x37C => s.pushWrite e w
  | 0x380 => on (d.apsCfgWrite e w)
  | 0x388 => on (d.apsCommand e (fld w 3 0) (fld w 11 8))
  | 0x3CC => on (d.prgnCfgWrite e t.idx w)
  | 0x3F4 => s.injWrite e w
  | _ => ok st

/-- The effect of a write to a lane window. -/
def Chip.writeLane (d : Chip) (n : Nat) (r t : RegId) (w : Word) : Status × Chip :=
  if fixedLane n r.off then (.notPermitted, d)
  else match r.off with
  | 0x000 => d.laneCtrl n w
  | 0x004 => (.ok, (d.store t w).formatMoved n)
  | 0x10C => d.mmbGo (cageOf n) w
  | _ => (.ok, d.store t (clampWord r w))

/-- The effect of a write to a time unit register. -/
def Chip.writeTim (d : Chip) (r : RegId) (w : Word) : Status × Chip :=
  match r.off with
  | 0x000 => (d.store r w).timCfgWrite (d.rd r) w
  | 0x004 => d.timCtrl w
  | _ => (.ok, d.store r (clampWord r w))

/-- The effect of a write to a timing-port window. -/
def Chip.writeTp (d : Chip) (p : Nat) (r : RegId) (w : Word) : Status × Chip :=
  match r.off with
  | 0x000 => (d.store r w).tpCfgWrite p (d.rd r) w
  | 0x008 => (.ok, (d.store r w).tpOffset p)
  | 0x010 => d.tpArm p w
  | _ => (.ok, d.store r (clampWord r w))

/-- The effect of a write that passed the checks of orders 1 to 6. -/
def Dev.writeReg (s : Dev) (r : RegId) (w : Word) : Status × Dev :=
  let d := s.chip
  let t := d.reach r
  let on (x : Status × Chip) : Status × Dev := (x.1, ⟨x.2, s.mem⟩)
  match r.blk with
  | .eng => if d.subBusy r.idx ∧ ¬ (r.off = 0 ∧ bit w 1) then (.busy, s) else s.writeEng r.idx r t w
  | .lane => on (d.writeLane r.idx r t w)
  | .trb => if r.off = 0 then on (d.trbCfgWrite r.idx w) else on (.ok, d.store t (clampWord r w))
  | .tim => on (d.writeTim r w)
  | .tp => on (d.writeTp r.idx r w)
  | .glb => if r.off = 0x050 then s.powerCtrl w else on (.ok, d.store t (clampWord r w))
  | .led => if r.off = 0x008 then on (d.uidBurn w) else on (.ok, d.store t w)
  | .tdm => if r.off = 0x000 then on (d.tdmCfgWrite w) else on (.ok, d.store t w)
  | _ => on (.ok, d.store t (clampWord r w))

/-- The event of an operation that only the owner may perform (R283). -/
def Chip.ownerAction (d : Chip) (sess op : Nat) : Chip :=
  d.evt 0x2030 0x0A04 0xFFFF (sess + 2 ^ 16) (op * 2 ^ 112)

/-! ## Accesses -/

/-- A register read (R300-R302): the status and the value. -/
def Chip.regRead (d : Chip) (sess a : Nat) : (Status × Word) × Chip :=
  match d.accessCheck sess a false with
  | .error st => ((st, 0), d.accessFail sess a st)
  | .ok r =>
    let r' : RegId := if r.blk = .eng then { r with idx := d.readEngine r.idx } else r
    ((.ok, d.readWord r'), d.readEffect r')

/-- A register write (R300-R312), by opcode `op`. -/
def Dev.regWrite (s : Dev) (sess op a : Nat) (w : Word) : Status × Dev :=
  let d := s.chip
  match d.accessCheck sess a true with
  | .error st => (st, ⟨d.accessFail sess a st, s.mem⟩)
  | .ok r =>
    if d.lockedWrite r w then (.locked, ⟨(d.flag R.GLB_EVENT 0).refuse sess a .locked, s.mem⟩)
    else
      let cd := d.cdRefused r w
      if cd.1 then
        let d1 := match cd.2 with | some (q, b) => d.flag q b | none => d
        (.notAppliedEnabled, ⟨d1.refuse sess a .notAppliedEnabled, s.mem⟩)
      else
        let x := s.writeReg r w
        let d1 := if r.blk = .eng ∧ x.1 = .ok ∧ r.row.isSome then x.2.chip.mirror r.idx else x.2.chip
        (x.1, ⟨if ownerOnly r ∧ x.1 = .ok ∧ sess ≠ 0 then d1.ownerAction sess op else d1, x.2.mem⟩)

/-- REG_MODIFY (R284): one locked read and write; a refused one has no effect on the register. -/
def Dev.regModify (s : Dev) (sess a : Nat) (mask value : Word) : (Status × Word) × Dev :=
  let d := s.chip
  match d.accessCheck sess a true with
  | .error st => ((st, 0), ⟨d.accessFail sess a st, s.mem⟩)
  | .ok r =>
    let r' : RegId := if r.blk = .eng then { r with idx := d.readEngine r.idx } else r
    let old := d.readWord r'
    let new := (old &&& ~~~ mask) ||| (value &&& mask)
    if d.lockedWrite r new || (d.cdRefused r new).1 then
      let x := s.regWrite sess 0x0014 a new
      ((x.1, 0), x.2)
    else
      let x := (s.on (fun d => d.readEffect r')).regWrite sess 0x0014 a new
      ((x.1, old), x.2)

/-- REG_MODIFY whose lock has been released by force: its read has taken place and its write does not (R218, R284). -/
def Chip.modifyLate (d : Chip) (sess a : Nat) : Status × Chip :=
  match d.accessCheck sess a true with
  | .error st => (st, d.accessFail sess a st)
  | .ok r =>
    let r' : RegId := if r.blk = .eng then { r with idx := d.readEngine r.idx } else r
    (.lockTimeout, (((d.readEffect r').flag R.YRD_EVENT 1).count R.YRD_LOCK_TMO_CNT).yardErr (0x4200000000 + a) (17 + d.pav.active) 32 1)

/-- REG_MODIFY whose locked read returns POISONED: nothing is read and nothing is written (R218; log entry 77). -/
def Chip.modifyPoisoned (d : Chip) (sess a : Nat) : Status × Chip :=
  match d.accessCheck sess a true with
  | .error st => (st, d.accessFail sess a st)
  | .ok _ => (.poisoned, d)

/-- An access of a width that is not 32 bits (R299). -/
def Chip.badWidth (d : Chip) (sess a : Nat) : Chip := d.refuse sess a .badAlign

/-! ## Blocks (R284) -/

/-- REG_READ_BLOCK: the values read and the status of the access that failed. -/
def Chip.readBlock (d : Chip) (sess : Nat) : Nat → Nat → (Status × List Word) × Chip
  | 0, _ => ((.ok, []), d)
  | n + 1, a =>
    match d.regRead sess a with
    | ((.ok, v), d1) =>
      let x := d1.readBlock sess n (a + 4)
      ((x.1.1, v :: x.1.2), x.2)
    | ((st, _), d1) => ((st, []), d1)

/-- REG_WRITE_BLOCK: how many accesses completed and the status of the one that failed. -/
def Dev.writeBlock (s : Dev) (sess : Nat) : List Nat → Nat → (Status × Nat) × Dev
  | [], _ => ((.ok, 0), s)
  | v :: l, a =>
    match s.regWrite sess 0x0013 a (w32 v) with
    | (.ok, s1) =>
      let x := s1.writeBlock sess l (a + 4)
      ((x.1.1, x.1.2 + 1), x.2)
    | (st, s1) => ((st, 0), s1)

/-! ## COUNTER_SNAPSHOT (R287, R298, R299) -/

/-- The registers that a range of addresses reaches, with a snapshot's rules: only those that hold RC bits and can
be accessed. -/
def Chip.snapRegs (d : Chip) (a n : Nat) : List RegId :=
  (List.range n).filterMap (fun i =>
    match decodeAddr (a + 4 * i) with
    | some r =>
      match r.row with
      | some x => if x.rc ≠ 0 ∧ ¬ d.heldReg r then some (if r.blk = .eng then { r with idx := d.readEngine r.idx } else r) else none
      | none => none
    | none => none)

/-- COUNTER_SNAPSHOT: every RC register of the range is captured once and cleared in one cycle. -/
def Chip.snapshot (d : Chip) (sess a len : Nat) : (Status × List Word) × Chip :=
  if a % 4 ≠ 0 ∨ len % 4 ≠ 0 then ((.badAlign, []), d.refuse sess a .badAlign)
  else if len < 4 ∨ 4096 < len ∨ 4096 < a % 4096 + len then ((.badParam, []), d.refuse sess a .badParam)
  else match decodeAddr a with
  | none => ((.decodeError, []), d.accessFail sess a .decodeError)
  | some r =>
    if d.fenced 32 then ((.targetReset, []), d)
    else if d.heldReg r then ((.notReady, []), d.refuse sess a .notReady)
    else
      let rs := d.snapRegs a (len / 4)
      ((.ok, rs.map d.readWord), rs.eraseDups.foldl (fun (x : Chip) r => x.readEffect r) d)

/-! ## Configuration space by a Yard master (R209, R211, R217) -/

/-- The Yard's response to an access: one of the six of R212.  A register block's own refusal has no response of
the Yard: the block has answered, and the access has had no effect (R301; log entry 71, DEDUCED). -/
def yardStatus (st : Status) : Status :=
  match st with
  | .decodeError => .decodeError
  | .badAlign => .badAlign
  | .lockTimeout => .lockTimeout
  | .targetReset => .targetReset
  | .poisoned => .poisoned
  | _ => .ok

/-- A transfer that reaches the configuration space: a read returns its word, a write is performed under the
access rules, with session 0.  A refused read returns a word that nothing lays down (log entry 71). -/
def Dev.configReply (s : Dev) (t : Txn) : Dev :=
  let a := t.addr - 0x4200000000
  if t.kind = .write then
    let x := s.regWrite 0 0 a (w32 (ofBytes t.data))
    x.2.on (fun d => d.complete t (yardStatus x.1))
  else
    let x := s.chip.regRead 0 a
    let (v, d) := if x.1.1 = .ok then (x.1.2, x.2) else x.2.fresh 32
    ⟨d.complete t (yardStatus x.1.1) (beBytes 4 v.toNat), s.mem⟩

/-- YARD_REPLY: a target completes a granted transaction (R212, R216). -/
def Dev.yardComplete (s : Dev) (m tag : Nat) (ces ues : List Nat) (remote : List Byte) : Dev :=
  match s.chip.txn m tag with
  | some t =>
    if t.grant.isNone ∨ t.done.isSome then s
    else if t.target = 32 then s.configReply t
    else s.yardReply t ces ues remote
  | none => s

/-- WRITE_UNLOCK (R216-R218): with a free tag, the transaction is performed at its target's entry and the lock
ends, or it is refused; its reply keeps its turn. -/
def Dev.writeUnlock (s : Dev) (m tag a : Nat) (data : List Byte) : Dev :=
  let d := s.chip
  if ¬ d.tagFree m tag then s else
  let p := d.xferTarget (a % 2 ^ 40)
  let t : Txn := ⟨m, tag, .unlock, d.classOf m true 0, a % 2 ^ 40, data.length, data, p, d.core, some d.core, none⟩
  let d0 := d.addTxn t
  match d.unlockJudge m a data.length with
  | some st => ⟨(d0.unlockRefuse m a st).complete t st, s.mem⟩
  | none =>
    let d1 := d0.unlock m
    if p = 32 then
      let x := (Dev.mk d1 s.mem).regWrite 0 0 (a % 2 ^ 40 - 0x4200000000) (w32 (ofBytes data))
      x.2.on (fun d => d.complete t (yardStatus x.1))
    else if ¬ d.mayWrite m t.addr then ⟨d1.complete t .decodeError, s.mem⟩
    else ⟨d1.complete t .ok, s.mem.store (a % 2 ^ 40) data⟩

/-! ## Addresses of registers -/

/-- The address of a register at the base of its window (R294, R295). -/
def RegId.addr (r : RegId) : Nat :=
  match r.blk with
  | .glb => r.off
  | .svc => 0x4000 + r.off
  | .led => 0x8000 + r.off
  | .yrd => 0x10000 + r.off
  | .tim => 0x20000 + r.off
  | .hst => 0x24000 + r.off
  | .pav => 0x30000 + r.off
  | .gth => 0x34000 + r.off
  | .tdm => 0x38000 + r.off
  | .eng => 0x100000 + r.idx * 0x1000 + r.off
  | .lane => 0x200000 + r.idx * 0x800 + r.off
  | .tp => 0x200000 + (140 + r.idx) * 0x800 + r.off
  | .trb => 0x300000 + r.idx * 0x40 + r.off
  | _ => r.off

/-- A register write that a command names: its answer goes out. -/
def Dev.hostWrite (s : Dev) (sess : Nat) (r : RegId) (w : Word) : Dev :=
  let x := s.regWrite sess 0x0011 r.addr w
  x.2.on (fun d => d.answer x.1)

end Sys2Proof.Machine
end

