-- ==== Sys2Proof/Machine/ConfigOps.lean ====
section
/-! DEFINITION. The configuration opcodes, which check a whole resulting configuration before they write
(R102, R285, R286), and the opcodes that control one engine or one region (R79, R144, R150, R178, R179, R196,
R203). -/

namespace Sys2Proof.Machine

/-! ## Images -/

/-- Register images in address order. -/
abbrev Images := List (RegId × Word)

/-- A register image as it is stored. -/
def imgWord (x : RegId × Word) : Word := clampWord x.1 x.2

/-- The images are written, but for ENABLE (bit 0) of the registers in `en`. -/
def Chip.putImages (d : Chip) (en : List RegId) (l : Images) : Chip :=
  l.foldl (fun (y : Chip) x => y.store x.1 (imgWord x) (if en.contains x.1 then 1 else 0)) d

/-- A CD field of an image differs from its stored value (R285 step 1). -/
def Chip.cdDiffers (d : Chip) (l : Images) : Bool :=
  l.any (fun x => decide ((d.rd x.1 ^^^ imgWord x) &&& x.1.cdMask ≠ 0))

/-- An engine that an opcode names can be acted on: it is ready and no substitution moves it (R279, R302). -/
def Chip.engGate (d : Chip) (e : Nat) : Option Status :=
  if 136 ≤ e then some .badParam
  else if d.engHeld e || !d.engReady e then some .notReady
  else if d.subBusy e then some .busy
  else none

/-! ## PORT_CONFIG (R285, R286) -/

/-- The images of PORT_CONFIG. -/
def portImages (n cfg rate tx : Nat) (ppm quad : Option Nat) : Images :=
  [(R.LN_CFG n, w32 cfg), (R.LN_RATE n, w32 rate), (R.LN_TX n, w32 tx)]
    ++ (ppm.map (fun v => (R.LN_TX_PPM n, w32 v))).toList
    ++ (quad.map (fun v => (R.LN_QUAD_MODE (quadIdx n), w32 v))).toList

/-- The quad mode would change while another lane of the quad is enabled (R286). -/
def Chip.quadBusy (d : Chip) (n : Nat) (quad : Option Nat) : Bool :=
  match quad with
  | some q => !(d.otlQuad n == decide (q % 2 = 1)) && ((List.range 4).any (fun k => decide (quadIdx n + k ≠ n) && d.laneEn (quadIdx n + k)))
  | none => false

/-- The writes of a PORT_CONFIG whose checks have passed. -/
def Chip.portWrite (d : Chip) (n : Nat) (l : Images) (enable : Bool) : Chip :=
  let keep := d.rd (R.LN_CTRL n) &&& w32 2
  let d1 := if d.laneEn n ∧ d.cdDiffers l = true then (d.laneCtrl n keep).2 else d
  let d2 := (d1.putImages [] l).formatMoved n
  if d2.laneEn n = enable then d2 else (d2.laneCtrl n (keep ||| w32 (b2n enable))).2

/-- PORT_CONFIG.  The checks of R32 are made of every request, also of one that leaves the lane disabled: a format
that the device does not support is answered BAD_PARAM, and nothing is configured (R2, R32). -/
def Chip.portConfig (d : Chip) (n cfg rate tx : Nat) (ppm quad : Option Nat) (enable : Bool) : Status × Chip :=
  let l := portImages n cfg rate tx ppm quad
  if 128 ≤ n then (.badParam, d)
  else if enable ∧ ¬ (d.lane n).ready then (.notReady, d)
  else if 135 < fld (w32 tx) 23 16 then (.badParam, d)
  else if d.quadBusy n quad then (.notAppliedEnabled, d.flag (R.LN_EVENT n) 8)
  else if ¬ (d.putImages [] l).laneCfgOk n then (.badParam, d)
  else (.ok, d.portWrite n l enable)

/-! ## CHANNEL_CONFIG (R285) -/

/-- The registers of CHANNEL_CONFIG in the order of its TLVs. -/
def chanRegs (e : Nat) : List RegId :=
  [R.SWB_RX_BIND e, R.HNT_CFG e, R.HNT_LOF e, R.OHP_CFG e, R.MAP_CFG e, R.DEF_CFG e, R.CAP_CFG e, R.PAT_CFG e]

/-- The images of CHANNEL_CONFIG in address order. -/
def chanImages (e : Nat) (l : List (Option Nat)) : Images :=
  let all := (chanRegs e).zip l
  [0x040, 0x044, 0x090, 0x200, 0x2C0, 0x2E0, 0x364, 0x3E0].filterMap (fun o =>
    (all.find? (fun x => x.1.off = o)).bind (fun x => x.2.map (fun v => (x.1, w32 v))))

/-- The writes of a CHANNEL_CONFIG whose checks have passed. -/
def Dev.chanWrite (s : Dev) (e : Nat) (l : Images) (enable : Bool) : Dev :=
  let s1 := if s.chip.engEn e ∧ s.chip.cdDiffers l = true then s.engDisable e else s
  let s2 := s1.on (fun d => d.putImages [] l)
  let s3 := if enable ∧ ¬ s2.chip.engEn e then s2.on (fun d => (d.engEnable e).2)
    else if ¬ enable ∧ s2.chip.engEn e then s2.engDisable e else s2
  s3.on (fun d => d.mirror e)

/-- CHANNEL_CONFIG. -/
def Dev.channelConfig (s : Dev) (e : Nat) (l : List (Option Nat)) (enable : Bool) : Status × Dev :=
  let d := s.chip
  let im := chanImages e l
  let after := d.putImages [] im
  let thru : Bool := match l.getD 7 none with | some v => decide (135 < fld (w32 v) 8 1) | none => false
  if 136 ≤ e then (.badParam, s)
  else if d.engHeld e ∨ (enable = true ∧ d.engReady e = false) then (.notReady, s)
  else if d.subBusy e then (.busy, s)
  else if thru then (.badParam, s)
  else match (if enable then after.engCheck e else none) with
  | some f => (f.1, s)
  | none => (.ok, s.chanWrite e im enable)

/-! ## TRIB_MAP (R102, R103, R285) -/

/-- The images of an entry. -/
def TribMap.images (t : Nat) (l : List Nat) : Images :=
  ((List.range 10).zip l).map (fun x => ((⟨.trb, t, 4 * x.1⟩ : RegId), w32 x.2))

/-- The whole resulting configuration: every entry stored with the ENABLE that it asks for. -/
def Chip.tribAfter (d : Chip) (l : List (Nat × Images)) : Chip := l.foldl (fun (y : Chip) x => y.putImages [] x.2) d

/-- How many parents a context has above it. -/
def Chip.ctxDepth (d : Chip) : Nat → Nat → Nat
  | 0, _ => 0
  | n + 1, t => if d.ctxTop t then 0 else d.ctxDepth n (d.ctxParent t) + 1

/-- Contexts in the order of their depth, parents first. -/
def Chip.parentsFirst (d : Chip) (l : List Nat) : List Nat :=
  (List.range 9).flatMap (fun k => l.filter (fun t => d.ctxDepth 8 t = k))

/-- The contexts that a TRIB_MAP disables: enabled ones whose CD fields change or whose image asks for ENABLE 0,
and the descendants of these that it names. -/
def Chip.tribOff (d : Chip) (l : List (Nat × Images)) : List Nat :=
  let after := d.tribAfter l
  let hit := (l.filter (fun x => d.ctxEn x.1 && (d.cdDiffers x.2 || !after.ctxEn x.1))).map (·.1)
  let grow := fun (a : List Nat) =>
    (l.map (·.1)).filter (fun t => a.contains t || (d.ctxEn t && !d.ctxTop t && a.contains (d.ctxParent t)))
  grow (grow (grow (grow hit)))

/-- The checks of R100 on the resulting configuration: of every context named that it enables, and of the enabled
children of the contexts named; every context named has a TYPE that the device supports (R2); and none disabled has
an enabled child that stays (R103). -/
def Chip.tribOk (d : Chip) (l : List (Nat × Images)) : Bool :=
  let after := d.tribAfter l
  let names := l.map (·.1)
  let off := d.tribOff l
  names.all (fun t => (!after.ctxEn t || after.ctxOk t) && (sdhType (after.ctxType t) || oduType (after.ctxType t)))
    && after.enabledCtxs.all (fun t => after.ctxTop t || !names.contains (after.ctxParent t) || after.ctxOk t)
    && off.all (fun t => d.enabledCtxs.all (fun u => d.ctxTop u || decide (d.ctxParent u ≠ t) || decide (u = t) || off.contains u))

/-- TRIB_MAP. -/
def Chip.tribMap (d : Chip) (l : List TribEntry) : Status × Chip :=
  let im := l.map (fun x => (x.ctx, TribMap.images x.ctx x.images))
  if l.any (fun x => decide (16384 ≤ x.ctx) || decide (135 < fld (w32 (x.images.getD 0 0)) 12 5)) then (.badParam, d)
  else if ¬ d.tribOk im then (.badParam, d)
  else
    let off := (d.parentsFirst (d.tribOff im)).reverse
    let after := d.tribAfter im
    let on_ := after.parentsFirst ((im.map (·.1)).filter after.ctxEn)
    let d1 := off.foldl (fun (y : Chip) t => (y.ctxDisable t).2) d
    let d2 := im.foldl (fun (y : Chip) x => y.putImages [R.TRB_CFG x.1] x.2) d1
    (.ok, on_.foldl (fun (y : Chip) t => if y.ctxEn t then y else (y.ctxEnable t).2) d2)

/-! ## REGION_CONFIG (R285) -/

/-- The images of a capture region. -/
def rgnImages (r cfg : Nat) (src : Option Nat) (base size : Nat) (pre post : Option Nat) : Images :=
  [(R.rgn_CAP_RGN_CFG r, w32 cfg)] ++ (src.map (fun v => (R.rgn_CAP_RGN_SRC r, w32 v))).toList
    ++ [(R.rgn_CAP_RGN_BASE r, w32 base), (R.rgn_CAP_RGN_SIZE r, w32 size)]
    ++ (pre.map (fun v => (R.rgn_CAP_RGN_PRE r, w32 v))).toList ++ (post.map (fun v => (R.rgn_CAP_RGN_POST r, w32 v))).toList

/-- REGION_CONFIG of a capture region. -/
def Dev.capRegionConfig (s : Dev) (r : Nat) (l : Images) (enable : Bool) : Status × Dev :=
  let d := s.chip
  let after := d.putImages [R.rgn_CAP_RGN_CFG r] l
  let c := after.rcfg r
  if (d.rgn r).live then (.busy, s)
  else if 136 ≤ c.eng ∧ d.tdmSt ≠ 2 ∧ d.tdmSt ≠ 3 ∧ d.splitHold = false then (.badParam, s)
  else if enable ∧ ¬ after.stacksReady c.base (c.slots / 128) then (.notReady, s)
  else match (if enable then after.rgnCheck r else none) with
  | some st => (st, s)
  | none =>
    let was := d.rb (R.rgn_CAP_RGN_CFG r) 0
    let s1 := if was ∧ (d.cdDiffers l ∨ ¬ enable) then s.rgnDisable r else s
    let s2 := s1.on (fun d => d.putImages [R.rgn_CAP_RGN_CFG r] l)
    (.ok, if enable then s2.on (fun d => d.flag (R.rgn_CAP_RGN_CFG r) 0) else s2)

/-- The images of a pattern region. -/
def prgnImages (r cfg base size : Nat) : Images :=
  [(R.prgn_PAT_RGN_CFG r, w32 cfg), (R.prgn_PAT_RGN_BASE r, w32 base), (R.prgn_PAT_RGN_SIZE r, w32 size)]

/-- REGION_CONFIG of a pattern region. -/
def Chip.patRegionConfig (d : Chip) (r : Nat) (l : Images) (enable : Bool) : Status × Chip :=
  let after := d.putImages [R.prgn_PAT_RGN_CFG r] l
  if d.prgnUsed r then (.busy, d)
  else if enable ∧ ¬ after.stacksReady (after.prgnUnits r).1 (after.prgnUnits r).2 then (.notReady, d)
  else if enable ∧ ¬ after.prgnOk r then (.badParam, d)
  else
    let d1 := if d.prgnEn r ∧ (d.cdDiffers l ∨ ¬ enable) then d.unflag (R.prgn_PAT_RGN_CFG r) 0 else d
    let d2 := d1.putImages [R.prgn_PAT_RGN_CFG r] l
    (.ok, if enable then d2.flag (R.prgn_PAT_RGN_CFG r) 0 else d2)

/-- REGION_CONFIG (R285): KIND 0 a capture region, 1 a pattern region. -/
def Dev.regionConfig (s : Dev) (kind r cfg : Nat) (src : Option Nat) (base size : Nat) (pre post : Option Nat) : Status × Dev :=
  let en := decide (cfg % 2 = 1)
  if kind = 0 then
    if 4096 ≤ r then (.badParam, s) else s.capRegionConfig r (rgnImages r cfg src base size pre post) en
  else if kind = 1 then
    if 1024 ≤ r ∨ src.isSome ∨ pre.isSome ∨ post.isSome then (.badParam, s)
    else
      let x := s.chip.patRegionConfig r (prgnImages r cfg base size) en
      (x.1, ⟨x.2, s.mem⟩)
  else (.badParam, s)

/-! ## Opcodes of one engine -/

/-- DESKEW_CONFIG (R150): a write of DSK_CFG under its rules. -/
def Dev.deskewConfig (s : Dev) (sess e base size : Nat) : Status × Dev :=
  if 136 ≤ e ∨ 2 ^ 17 ≤ base ∨ 256 ≤ size then (.badParam, s)
  else s.regWrite sess 0x0024 (R.DSK_CFG e).addr (w32 (base + size * 2 ^ 24))

/-- HUNT_CONTROL (R79): 0 REHUNT, 1 FORCE, 2 SNAP. -/
def Chip.huntControl (d : Chip) (e action : Nat) (index : Option Nat) : Status × Chip :=
  if 2 < action ∨ (action = 1 ∧ index = none) then (.badParam, d)
  else match d.engGate e with
  | some st => (st, d)
  | none =>
    if action = 0 then (.ok, d.rehunt e)
    else if action = 1 then
      let f := d.force e (index.getD 0)
      (if f.1 then .ok else .badParam, f.2)
    else (.ok, d.snap e)

/-- HNT_CAND0-63 of an engine, as SNAP left them. -/
def Chip.candBytes (d : Chip) (e : Nat) : List Byte :=
  (List.range 64).flatMap (fun k => beBytes 4 (d.rd (R.HNT_CAND e k)).toNat)

/-- APS_COMMAND (R144); a group frozen in split hold answers TANDEM_SPLIT (R350). -/
def Chip.apsOpcode (d : Chip) (e cmd chan : Nat) : Status × Chip :=
  if 136 ≤ e then (.badParam, d)
  else if d.splitHold ∧ d.crossGroups.contains e then (.tandemSplit, d)
  else match d.engGate e with
  | some st => (st, d)
  | none => d.apsCommand e cmd chan

/-- PATTERN_QUEUE (R196). -/
def Dev.patternQueue (s : Dev) (e rgn sub fstart : Nat) (time : Option Nat) : Status × Chip :=
  match s.chip.engGate e with
  | some st => (st, s.chip)
  | none => s.patPush e rgn sub (time.map (· % 2 ^ 48)) (decide (fstart ≠ 0))

/-- The injection registers loaded with a record (R194, R203). -/
def Chip.injLoad (d : Chip) (e : Nat) (rec_ : List Byte) (count every : Nat) (time : Option Nat) : Chip :=
  let f := fun (a n : Nat) => ofBytes ((rec_.drop a).take n)
  let cfg := f 0 1 % 8 + (f 1 1 - 1) % 4 * 8 + b2n time.isSome * 32 + count % 2 ^ 16 * 2 ^ 8 + every % 256 * 2 ^ 24
  let d1 := ((d.wr (R.PAT_INJ_TGT e) (w32 (f 8 4))).wr (R.PAT_INJ_VAL e) (w32 (f 12 4))).wr (R.PAT_INJ_CFG e) (w32 cfg)
  match time with
  | some t => (d1.wr (R.PAT_Q_TIME_LO e) (w32 t)).wr (R.PAT_Q_TIME_HI e) (w32 (t / 2 ^ 32 % 2 ^ 16))
  | none => d1

/-- KIND and LEN of a record agree. -/
def injForm (rec_ : List Byte) : Bool :=
  let kind := ofBytes (rec_.take 1)
  let len := ofBytes ((rec_.drop 1).take 1)
  if 4 ≤ kind then decide (kind ≤ 5 ∧ 1 ≤ len ∧ len ≤ 4) else decide (1 ≤ kind ∧ len = 0)

/-- INJECT_ERROR (R203): the record goes into the injection registers, which it arms; a refused one writes
nothing but its flag. -/
def Dev.injectError (s : Dev) (e : Nat) (rec_ : List Byte) (count every : Nat) (time : Option Nat) : Status × Chip :=
  match s.chip.engGate e with
  | some st => (st, s.chip)
  | none =>
    if (s.chip.pat e).inj.isSome then (.busy, s.chip)
    else if ¬ injForm rec_ then (.badParam, s.chip.flag (R.PAT_EVENT e) 9)
    else
      let x := (s.on (fun d => d.injLoad e rec_ count every time)).injArm e
      match x.1 with
      | .ok => x
      | .tooLate => (.tooLate, s.chip.flag (R.PAT_EVENT e) 10)
      | st => (st, s.chip.flag (R.PAT_EVENT e) 9)

end Sys2Proof.Machine
end

