-- ==== Sys2Proof/Machine/Datagram.lean ====
section
/-! DEFINITION. The bytes of Fenene packets (R8, R265, R266, R283, R290, R291): every multi-byte field big-endian. In a
session the parameters are sent encrypted and tagged (R267); the bytes here are those before that (log entry 7). -/

namespace Sys2Proof.Machine

/-- The parameter TLVs of a packet. -/
abbrev Params := List (Nat × List Byte)

/-- One parameter of `n` bytes. -/
def tlv (t n v : Nat) : Nat × List Byte := (t, beBytes n v)

/-- Words as a parameter value. -/
def words (l : List Word) : List Byte := l.flatMap (fun w => beBytes 4 w.toNat)

/-- A value padded with zero bytes to a multiple of 4. -/
def padFour (l : List Byte) : List Byte := l ++ List.replicate ((4 - l.length % 4) % 4) 0

/-- TLVs as they stand in a packet: type, length of the value, the value padded (R266). -/
def paramBytes (p : Params) : List Byte :=
  p.flatMap (fun x => beBytes 2 x.1 ++ beBytes 2 x.2.length ++ padFour x.2)

/-- FLAGS of R265. -/
structure PkFlags where
  reply : Bool := false
  readout : Bool := false
  ack : Bool := false
  last : Bool := false
  gatehouse : Bool := false
  truncated : Bool := false
deriving DecidableEq, Repr

/-- The byte of FLAGS. -/
def PkFlags.code (f : PkFlags) : Nat :=
  b2n f.reply + 2 * b2n f.readout + 4 * b2n f.ack + 8 * b2n f.last + 16 * b2n f.gatehouse + 32 * b2n f.truncated

/-- The 32-byte header (R265) and the parameters behind it. -/
def packetBytes (f : PkFlags) (unit : Nat) (tandem : Bool) (session seq opcode status attn : Nat) (p : Params) : List Byte :=
  let l := paramBytes p
  beBytes 2 0x464E ++ beBytes 1 1 ++ beBytes 1 f.code ++ beBytes 2 (unit % 4096 * 16 + 8 * b2n tandem)
    ++ beBytes 2 session ++ beBytes 4 seq ++ beBytes 2 opcode ++ beBytes 2 l.length ++ beBytes 2 status ++ beBytes 1 attn
    ++ List.replicate 13 0 ++ l

/-- The bytes of a reply of unit `unit`. -/
def Reply.bytes (unit : Nat) (x : Reply) : List Byte :=
  packetBytes { reply := true, gatehouse := x.gatehouse } unit x.tandem x.session x.seq x.opcode x.status.code x.attn x.params

/-- The bytes of a readout burst (R290): READOUT, LAST and TRUNCATED in FLAGS, the TLVs BURST and BALES.  It repeats the
request's SESSION, SEQUENCE and OPCODE; REPLY and ATTN, which the spec gives replies, are 0, and so is STATUS but for a
burst whose bales a fence has refused (DEDUCED, log entry 73). -/
def burstBytes (unit : Nat) (tandem : Bool) (session seq stream index firstSeq : Nat) (last truncated : Bool)
    (status : Status) (bales : List Byte) : List Byte :=
  packetBytes { readout := true, last := last, truncated := truncated } unit tandem session seq 0x0032 status.code 0
    [(1, beBytes 1 stream ++ beBytes 3 0 ++ beBytes 4 index ++ beBytes 4 firstSeq ++ beBytes 2 (bales.length / 512) ++ beBytes 2 0),
     (2, bales)]

/-! ## Requests -/

/-- The opcode of a request (R283). -/
def reqCode : Req → Nat
  | .hello => 0x0001 | .sessionOpen .. => 0x0002 | .sessionClose => 0x0003 | .regRead _ => 0x0010
  | .regWrite .. => 0x0011 | .regReadBlock .. => 0x0012 | .regWriteBlock .. => 0x0013 | .regModify .. => 0x0014
  | .portConfig .. => 0x0020 | .channelConfig .. => 0x0021 | .tribMap _ => 0x0022 | .apsCommand .. => 0x0023
  | .deskewConfig .. => 0x0024 | .huntControl .. => 0x0025 | .captureArm _ => 0x0030 | .captureStop _ => 0x0031
  | .captureReadout .. => 0x0032 | .regionConfig .. => 0x0033 | .patternLoad .. => 0x0040 | .patternQueue .. => 0x0041
  | .injectError .. => 0x0042 | .timeSet _ => 0x0050 | .timeStep .. => 0x0051 | .eventRead .. => 0x0052
  | .counterSnapshot .. => 0x0053 | .fwStage .. => 0x0060 | .fwActivate => 0x0061 | .attestNew _ => 0x0062
  | .attestPart .. => 0x0062 | .ledgerRead .. => 0x0063 | .spareSubstitute .. => 0x0064 | .tandemJoin .. => 0x0070
  | .tandemSplit => 0x0071 | .gatehouseStatus => 0x0080 | .failoverRequest => 0x0081 | .unknown n => n

/-- A parameter that may be absent. -/
def tlvOpt (t n : Nat) (v : Option Nat) : Params := (v.map (tlv t n)).toList

/-- The parameters of CHANNEL_CONFIG's images: types from `t` on, those absent left out. -/
def imageTlvs (t : Nat) : List (Option Nat) → Params
  | [] => []
  | x :: l => tlvOpt t 4 x ++ imageTlvs (t + 1) l

/-- The parameters of a request in type order (R283).  The key agreement and the signature of SESSION_OPEN (2, 5 and 6)
are operands of another kind (log entry 7) and are not listed. -/
def reqParams : Req → Params
  | .hello | .sessionClose | .fwActivate | .tandemSplit | .gatehouseStatus | .failoverRequest | .unknown _ => []
  | .sessionOpen role key nonce _ => [tlv 1 1 role, tlv 3 97 key, tlv 4 32 nonce]
  | .regRead a => [tlv 1 4 a]
  | .regWrite a w v => [tlv 1 4 a, tlv 2 w v]
  | .regReadBlock a n => [tlv 1 4 a, tlv 2 2 n]
  | .regWriteBlock a n l => [tlv 1 4 a, (2, (l.flatMap (beBytes 4)).take n)]
  | .regModify a w m v => [tlv 1 4 a, tlv 2 w m, tlv 3 w v]
  | .portConfig n cfg rate tx ppm quad en =>
    [tlv 1 2 n, tlv 2 4 cfg, tlv 3 4 rate, tlv 4 4 tx] ++ tlvOpt 5 4 ppm ++ tlvOpt 6 4 quad ++ [tlv 7 1 en]
  | .channelConfig e l en => tlv 1 2 e :: imageTlvs 2 l ++ [tlv 10 1 en]
  | .tribMap l => l.map (fun x => (1, beBytes 2 x.ctx ++ beBytes 2 0 ++ x.images.flatMap (beBytes 4)))
  | .apsCommand e cmd chan => [tlv 1 2 e, tlv 2 1 cmd, tlv 3 1 chan]
  | .deskewConfig e base size => [tlv 1 2 e, tlv 2 4 base, tlv 3 1 size]
  | .huntControl e action index => [tlv 1 2 e, tlv 2 1 action] ++ tlvOpt 3 1 index
  | .captureArm r | .captureStop r => [tlv 1 2 r]
  | .captureReadout r first count burst port => [tlv 1 2 r, tlv 2 4 first, tlv 3 4 count, tlv 4 2 burst, tlv 5 2 port]
  | .regionConfig kind r cfg src base size pre post =>
    [tlv 1 1 kind, tlv 2 2 r, tlv 3 4 cfg] ++ tlvOpt 4 4 src ++ [tlv 5 4 base, tlv 6 4 size] ++ tlvOpt 7 4 pre ++ tlvOpt 8 4 post
  | .patternLoad r off data complete => [tlv 1 2 r, tlv 2 8 off, (3, data)] ++ tlvOpt 4 1 complete
  | .patternQueue e rgn sub fstart time => [tlv 1 2 e, tlv 2 2 rgn, tlv 3 2 sub, tlv 4 1 fstart] ++ tlvOpt 5 8 time
  | .injectError e rec_ count every time => [tlv 1 2 e, (2, rec_), tlv 3 2 count, tlv 4 1 every] ++ tlvOpt 5 8 time
  | .timeSet v => [tlv 1 8 v]
  | .timeStep step measured => tlvOpt 1 8 (step.map (unsgn 64)) ++ tlvOpt 2 1 measured
  | .eventRead from_ max_ => tlvOpt 1 4 from_ ++ [tlv 2 1 max_]
  | .counterSnapshot a len => [tlv 1 4 a, tlv 2 4 len]
  | .fwStage kind off data final _ => [tlv 1 1 kind, tlv 2 4 off, (3, data)] ++ tlvOpt 4 1 final
  | .attestNew nonce => [(1, nonce)]
  | .attestPart report part => [tlv 2 4 report, tlv 3 1 part]
  | .ledgerRead first count => [tlv 1 1 first, tlv 2 1 count]
  | .spareSubstitute kind old new => [tlv 1 1 kind, tlv 2 2 old] ++ tlvOpt 3 2 new
  | .tandemJoin role minLanes => [tlv 1 1 role, tlv 2 1 minLanes]

/-- The bytes of a request: STATUS and ATTN are 0. -/
def requestBytes (h : Hdr) (r : Req) : List Byte :=
  packetBytes {} h.unit h.tandem h.session h.seq (reqCode r) 0 0 (reqParams r)

/-- The bytes of a readout acknowledgement of unit `unit` (R291). -/
def ackBytes (unit : Nat) (tandem : Bool) (a : Ack) : List Byte :=
  packetBytes { readout := true, ack := true } unit tandem a.session a.seq 0x0032 0 0
    [(1, beBytes 1 a.stream ++ beBytes 3 0 ++ beBytes 4 a.ackNo ++ beBytes 4 a.cum ++ beBytes 4 a.high ++ a.missing.flatMap (beBytes 4))]

end Sys2Proof.Machine
end

