-- ==== Sys2Proof/Machine/Readout.lean ====
section
/-! DEFINITION. Readout streams (R182-R184, R289-R292): bales as delivered, bursts, acknowledgements and
resends. -/

namespace Sys2Proof.Machine

/-- The source of session events, OWNER_ACTION, STREAM_ABORT and STATE_LOSS (R281). -/
def srcPav : Nat := 0x2030

/-- Changes the host port. -/
def Chip.setHost (d : Chip) (x : HostP) : Chip := { d with host := x }

/-- The active processor runs: it sends and executes. -/
def Chip.pavRuns (d : Chip) : Bool := d.pav.booted && !d.pav.dead && decide (d.gth.st = .running)

/-- TANDEM of a reply: the unit is joined, split hold included (R344). -/
def Chip.tdmBit (d : Chip) : Bool := d.joined || d.splitHold

/-! ## Bales as delivered (R183, R184) -/

/-- The payload groups of a bale that hold a poisoned block; block 0 is its header. -/
def poisonGroups (first : Nat) (bad : List Nat) : Nat :=
  bad.foldl (fun m b => if b ≤ first then m else m ||| 2 ^ (b - first - 1)) 0

/-- A header with POISON and groups added, its HCHK recomputed. -/
def repoison (h : List Byte) (map : Nat) : List Byte :=
  let f := fun (a n : Nat) => ofBytes ((h.drop a).take n)
  let x := h.take 8 ++ beBytes 2 (f 8 2 ||| fPoison) ++ (h.drop 10).take 12 ++ beBytes 2 (f 22 2 ||| map) ++ (h.drop 24).take 4
  x ++ beBytes 4 (crc32 x)

/-- The 512 bytes of a held bale as readout delivers them. -/
def Dev.deliverBale (s : Dev) (r seq : Nat) : List Byte × Dev :=
  let c := s.chip.rcfg r
  let a := c.slotAddr seq
  let (bad, s1) := s.eccRead a 512 [] []
  let l := s1.mem.rdN a 512
  let map := poisonGroups (a / 32) bad
  if bad.contains (a / 32) then
    ((⟨seq, 0, fPoison ||| fHdrPoison, c.eng, 0x3FFFF, 0, map, l.drop 32⟩ : Bale).bytes c, s1)
  else if bad.isEmpty then (l, s1)
  else (repoison (l.take 32) map ++ l.drop 32, s1)

/-- Consecutive bales as delivered. -/
def Dev.deliver (s : Dev) (r seq : Nat) : Nat → List Byte × Dev
  | 0 => ([], s)
  | n + 1 =>
    let (l, s1) := s.deliverBale r seq
    let (m, s2) := s1.deliver r (seq + 1) n
    (l ++ m, s2)

/-! ## Bursts (R290) -/

/-- BURSTS of a stream. -/
def Stream.total (x : Stream) : Nat := ceilDiv x.bales x.per

/-- The number of bursts once the stream's end is known. -/
def Stream.goal (x : Stream) : Nat := match x.end_ with | some k => k + 1 | none => x.total

/-- The first bale of burst `k` and its number of bales. -/
def Stream.part (x : Stream) (k : Nat) : Nat × Nat := (x.first + k * x.per, min x.per (x.bales - k * x.per))

/-- Every bale of burst `k` is still held. -/
def Chip.burstHeld (d : Chip) (x : Stream) (k : Nat) : Bool :=
  let h := (d.rgn x.region).held
  let p := x.part k
  decide (h.1 ≤ p.1 ∧ p.1 + p.2 ≤ h.1 + h.2)

/-- A bale of burst `k` lies behind a fenced stack port. -/
def Chip.burstFenced (d : Chip) (x : Stream) (k : Nat) : Bool :=
  let p := x.part k
  (List.range p.2).any (fun i => d.slotFenced (d.rcfg x.region) (p.1 + i))

/-- A burst is sent: bit 0 of `flags` is LAST, bit 1 TRUNCATED, and bit 2 says that a fence has refused its bales: it is
answered TARGET_RESET and holds none (chapter 9's worked example; DEDUCED, log entry 14). -/
def Chip.sendBurst (d : Chip) (x : Stream) (k flags : Nat) (l : List Byte) : Chip :=
  let last := flags.testBit 0
  let cut := flags.testBit 1
  (d.count R.HST_TX_CNT).emit (.burst x.port x.udp x.session x.seq x.num k last cut l
    (burstBytes d.unitId d.tdmBit x.session x.seq x.num k (x.part k).1 last cut (if flags.testBit 2 then .targetReset else .ok) l))

/-- Replaces a stream, or removes it. -/
def Chip.putStream (d : Chip) (num : Nat) (x : Option Stream) : Chip :=
  d.setHost { d.host with streams := d.host.streams.filterMap (fun y => if y.num = num then x else some y) }

/-- A stream's range has been overwritten before its next burst was formed: it ends at the burst before, which is
marked and sent so (R290). -/
def Chip.truncate (d : Chip) (x : Stream) : Chip :=
  if x.next = 0 then d.putStream x.num none else
  let k := x.next - 1
  let y := { x with end_ := some k, trunc := true, kept := x.kept.map (fun (b : Nat × Nat × List Byte) => if b.1 = k then (k, b.2.1 ||| 3, b.2.2) else b) }
  match y.kept.find? (fun (b : Nat × Nat × List Byte) => b.1 = k) with
  | some b => (d.putStream x.num (some y)).sendBurst y k b.2.1 b.2.2
  | none => d.putStream x.num (if y.goal ≤ y.cum then none else some y)

/-- The next burst of a stream is formed and sent, when the window of 64 bursts and the Hayloft allow it. -/
def Dev.formBurst (s : Dev) (num : Nat) : Dev :=
  match s.chip.host.streams.find? (fun x => x.num = num) with
  | none => s
  | some x =>
    let k := x.next
    if x.end_.isSome ∨ x.total ≤ k ∨ 64 ≤ x.kept.length then s
    else if ¬ s.chip.burstHeld x k then s.on (fun d => d.truncate x)
    else
      let refused := s.chip.burstFenced x k
      let (l, s1) := if refused then ([], s) else s.deliver x.region (x.part k).1 (x.part k).2
      let cut := decide (k + 1 < x.total) && !s1.chip.burstHeld x (k + 1)
      let end_ := if cut then 3 else if k + 1 = x.total then 1 else 0
      let flags := end_ + 4 * b2n refused
      let y := { x with next := k + 1, kept := x.kept ++ [(k, flags, l)], trunc := cut,
                        end_ := if end_ = 0 then none else some k }
      s1.on (fun d => (d.putStream num (some y)).sendBurst y k flags l)

/-- Bursts are formed until the stream can send no more. -/
def Dev.pump (s : Dev) (num : Nat) : Nat → Dev
  | 0 => s
  | n + 1 => (s.formBurst num).pump num n

/-- Every burst that a stream may send now. -/
def Dev.sendStream (s : Dev) (num : Nat) : Dev := if s.chip.pavRuns then s.pump num 65 else s

/-- Kept bursts are sent again and counted. -/
def Chip.resend (d : Chip) (x : Stream) (l : List Nat) : Chip :=
  (x.kept.filter (fun b => l.contains b.1)).foldl (fun (y : Chip) b =>
    (y.count R.HST_RO_RESEND_CNT).sendBurst x b.1 b.2.1 b.2.2) d

/-! ## CAPTURE_READOUT (R289) -/

/-- The first SEQ of a readout: FIRST_SEQ, or the first held bale if that is later. -/
def readoutFirst (held : Nat × Nat) (first : Nat) : Nat :=
  let f := held.1 / 2 ^ 32 * 2 ^ 32 + first % 2 ^ 32
  if held.1 ≤ f then f else if f + 2 ^ 32 < held.1 + held.2 then f + 2 ^ 32 else held.1

/-- MTU above 1,500 bytes. -/
def Chip.jumbo (d : Chip) : Bool := decide (d.hostBody (fun b => b2n b.jumbo) 0 = 1)

/-- The next stream number: 1 to 255 in turn, one that runs is skipped. -/
def Chip.nextStream (d : Chip) : Nat :=
  let next := fun (k : Nat) => (d.host.lastStr + k) % 255 + 1
  next (((List.range 33).find? (fun k => !d.host.streams.any (fun x => x.num = next k))).getD 0)

/-- CAPTURE_READOUT: the status, and the stream opened. -/
def Chip.readout (d : Chip) (sess seq r first count burst port udp : Nat) : Status × Option Stream × Chip :=
  if 4096 ≤ r then (.badParam, none, d)
  else if 4 ≤ (d.host.streams.filter (fun x => x.session = sess)).length ∨ 32 ≤ d.host.streams.length then (.busy, none, d)
  else if burst < 512 ∨ 8192 < burst ∨ burst % 512 ≠ 0 ∨ (1024 < burst ∧ ¬ d.jumbo) ∨ (d.rgn r).st = .idle then
    (.badParam, none, d)
  else
    let held := (d.rgn r).held
    let f := readoutFirst held first
    let n := min count (held.1 + held.2 - f)
    let x : Stream := ⟨d.nextStream, sess, seq, r, f, n, burst / 512, port, udp, 0, [], 0, 0, d.core, 0, none, false⟩
    let l := if n = 0 then d.host.streams else d.host.streams ++ [x]
    (.ok, some x, d.setHost { d.host with streams := l, lastStr := x.num })

/-! ## Acknowledgements and resends (R291) -/

/-- What an acknowledgement says about a burst. -/
def ackHas (a : Ack) (k : Nat) : Bool := decide (k < a.cum) || (decide (k ≤ a.high) && !a.missing.contains k)

/-- READOUT_ACK: one whose session, stream or tag does not fit is dropped; one whose ACK_NO is not above the last is
ignored. -/
def Dev.readoutAck (s : Dev) (a : Ack) : Dev :=
  let d := s.chip
  match d.host.streams.find? (fun x => x.num = a.stream && decide (x.session = a.session) && decide (x.seq = a.seq)) with
  | none => if ¬ a.tagOk ∨ ¬ d.host.sessions.any (fun y => y.num = a.session)
      then s.on (fun d => (d.count R.HST_AUTH_DROP_CNT).flag R.HST_EVENT 2) else s
  | some x =>
    if ¬ a.tagOk then s.on (fun d => (d.count R.HST_AUTH_DROP_CNT).flag R.HST_EVENT 2)
    else if a.ackNo ≤ x.ackNo then s
    else
      let cum := max x.cum (min a.cum x.next)
      let y := { x with ackNo := a.ackNo, cum := cum, kept := x.kept.filter (fun b => !ackHas a b.1),
                        moved := if x.cum < cum then d.core else x.moved,
                        resends := if x.cum < cum then 0 else x.resends }
      if y.goal ≤ cum then s.on (fun d => d.putStream x.num none)
      else ((s.on (fun d => d.putStream x.num (some y))).on (fun d => d.resend y a.missing)).sendStream x.num

/-- READOUT_RESEND_TIMEOUT: CUM has not advanced for RO_TMO. -/
def Dev.resendTimeout (s : Dev) (num : Nat) : Dev :=
  let d := s.chip
  match d.host.streams.find? (fun x => x.num = num) with
  | none => s
  | some x =>
    if ¬ d.pavRuns ∨ d.core < x.moved + d.rf R.HST_TMO 23 16 * 1000000 then s
    else if 100 ≤ x.resends then s.on (fun d => (d.putStream num none).ev srcPav 0x0A07 x.session)
    else
      let y := { x with moved := d.core, resends := if x.kept.isEmpty then x.resends else x.resends + 1 }
      (s.on (fun d => (d.putStream num (some y)).resend y ((x.kept.map (·.1)).take 1))).sendStream num

end Sys2Proof.Machine
end

