-- ==== Sys2Proof/Machine/Fenene.lean ====
section
/-! DEFINITION. The Fenene protocol (R261-R288): opcodes, their roles and repeatability, the attention byte, sessions
and what each request does. -/

namespace Sys2Proof.Machine

/-! ## Opcodes (R283) -/

/-- The opcodes of the owner session only. -/
def ownerReq : Req → Bool
  | .fwStage .. | .fwActivate | .spareSubstitute .. | .failoverRequest => true
  | _ => false

/-- The opcodes that a packet with SESSION 0 may carry (R268). -/
def openReq : Req → Bool
  | .hello | .sessionOpen .. | .gatehouseStatus => true
  | _ => false

/-- A read of the register at an address has no effect. -/
def pureRead (a : Nat) : Bool :=
  match decodeAddr a with
  | some r => match r.row with | some x => decide (x.rc = 0) | none => true
  | none => true

/-- A write of the register at an address has the same effect when repeated: it has no WO, W1C or OT field. -/
def pureWrite (a : Nat) : Bool :=
  match decodeAddr a with
  | some r => match r.row with | some x => decide (x.wo = 0 ∧ x.w1c = 0 ∧ x.ot = 0) | none => true
  | none => true

/-- IDEM (R283, R319): repeating the request has the same effect as executing it once. -/
def idemReq : Req → Bool
  | .hello | .gatehouseStatus | .portConfig .. | .channelConfig .. | .tribMap _ | .deskewConfig .. | .captureStop _
  | .regionConfig .. | .patternLoad .. | .fwStage .. | .ledgerRead .. => true
  | .huntControl _ action _ => decide (action = 2)
  | .regRead a => pureRead a
  | .regReadBlock a n => (List.range n).all (fun i => pureRead (a + 4 * i))
  | .regWrite a _ _ => pureWrite a
  | .regWriteBlock a _ l => (List.range l.length).all (fun i => pureWrite (a + 4 * i))
  | _ => false

/-- The engine or lane number that a request names on the pair lies in the follower (R342, R343). -/
def namesPeer : Req → Bool
  | .portConfig n .. => decide (128 ≤ n ∧ n < 256)
  | .channelConfig e .. | .apsCommand e .. | .deskewConfig e .. | .huntControl e .. | .patternQueue e ..
  | .injectError e .. => decide (136 ≤ e ∧ e < 272)
  | _ => false

/-- The request belongs to the session or the pair itself, and is not forwarded. -/
def localReq : Req → Bool
  | .hello | .sessionOpen .. | .sessionClose | .gatehouseStatus | .tandemJoin .. | .tandemSplit => true
  | _ => false

/-! ## The attention byte (R280) -/

/-- The bit beside bit 0 that an unread event sets; 0 for those that set bit 0 only, among them LOCK, which the row of
bit 4 leaves out (log entry 24). -/
def attnBit (c : Nat) : Nat :=
  if (0x0A02 ≤ c ∧ c ≤ 0x0A04) ∨ c = 0x0906 then 0
  else if c = 0x0A07 then 3
  else if c = 0x0A05 then 5
  else if c < 0x0510 then 1
  else if c < 0x0600 then 2
  else if c < 0x0800 then 3
  else if c < 0x0900 then 5
  else if c < 0x0A00 then 4
  else if c < 0x0B00 then 6
  else 5

/-- The number of the oldest entry that the log holds. -/
def EvLog.oldest (l : EvLog) : Nat := l.next - l.entries.length

/-- The entries at or after a position, the oldest first. -/
def EvLog.from_ (l : EvLog) (p : Nat) : List Event := (l.entries.take (l.next - p)).reverse

/-- ATTN of a read position. -/
def EvLog.attn (l : EvLog) (p : Nat) : Nat :=
  (l.from_ p).foldl (fun a v => a ||| 1 ||| (if attnBit v.code = 0 then 0 else 2 ^ attnBit v.code))
    (if p < l.oldest then 0x80 else 0)

/-! ## Sessions (R270-R274) -/

/-- A session by its number. -/
def Chip.session (d : Chip) (n : Nat) : Option Session := d.host.sessions.find? (fun s => s.num = n)

/-- Replaces a session. -/
def Chip.putSession (d : Chip) (x : Session) : Chip :=
  d.setHost { d.host with sessions := d.host.sessions.map (fun s => if s.num = x.num then x else s) }

/-- A session closes: its streams end, its replies are freed; the cause is 0 a request, 1 idle, 2 its last sequence
number. -/
def Chip.closeSession (d : Chip) (n cause : Nat) : Chip :=
  if d.session n = none then d else
  (d.setHost { d.host with sessions := d.host.sessions.filter (fun s => s.num ≠ n),
                           streams := d.host.streams.filter (fun x => x.session ≠ n) }).ev srcPav 0x0A03 (n + cause * 2 ^ 16)

/-- SESSION_IDLE_TIMEOUT (R273). -/
def Chip.sessionIdle (d : Chip) (n : Nat) : Chip :=
  match d.session n with
  | some s => if d.core < s.last + d.rf R.HST_TMO 11 0 * 1000000000 then d else d.closeSession n 1
  | none => d

/-- A nonce is valid for 10 s, in core cycles. -/
def nonceTime : Nat := 10000000000

/-- The device identity key: one free value for all time. -/
def identityKey : List Byte := beBytes 97 (Sys2Proof.Config.freeValue 776 0).toNat

/-- HELLO (R270). -/
def Chip.hello (d : Chip) : Params × Chip :=
  let (n, d1) := d.fresh 256
  let live := (d1.host.nonces.filter (fun x => decide (d1.core ≤ x.2 + nonceTime))).take 63
  let d2 := d1.setHost { d1.host with nonces := (n.toNat, d1.core) :: live }
  ([tlv 1 2 d.unitId, (2, identityKey), tlv 3 4 d.activeImage.version, tlv 4 32 n.toNat,
    tlv 5 1 (16 - d.host.sessions.length)], d2)

/-- The next session number: from 1 up, wrapping from 65,535 to 1, an open one skipped (R272). -/
def Chip.nextNum (d : Chip) : Nat :=
  let next := fun (k : Nat) => (d.host.lastNum + k) % 65535 + 1
  next (((List.range 17).find? (fun k => (d.session (next k)).isNone)).getD 0)

/-- The key that a role asks for: the active owner key, whose public half the owner key record holds and whose digest
is fused, or an operator key of the active bundle (R271, R356). -/
def Chip.keyOk (d : Chip) (role key : Nat) : Bool :=
  if role = 1 then decide (d.sec.fuse.keys[d.ownerSlot]? = some key) && d.sec.flash.ownKeys.contains key
  else d.sec.flash.bundle.any (fun b => b.body.opKeys.contains key)

/-- SESSION_OPEN (R271, R272). -/
def Chip.sessionOpen (d : Chip) (role key nonce : Nat) (sigOk : Bool) : (Status × Params) × Chip :=
  let valid := d.host.nonces.any (fun x => decide (x.1 = nonce) && decide (d.core ≤ x.2 + nonceTime))
  let d1 := d.setHost { d.host with nonces := d.host.nonces.filter (fun x => x.1 ≠ nonce) }
  if 1 < role then ((.badParam, []), d)
  else if !sigOk || !valid || !d.keyOk role key then ((.authFail, []), d1)
  else if 16 ≤ d.host.sessions.length ∨ (role = 1 ∧ d.host.sessions.any (·.owner)) then ((.busy, []), d1)
  else
    let n := d.nextNum
    let d2 := d1.ev srcPav 0x0A02 (n + role * 2 ^ 16)
    let x : Session := ⟨n, decide (role = 1), 1, d2.log.next, d2.core, [], [], false, none⟩
    let d3 := d2.setHost { d2.host with sessions := d2.host.sessions ++ [x], lastNum := n }
    let (key, d4) := d3.freeBytes 97
    let (sig, d5) := d4.freeBytes 96
    ((.ok, [tlv 1 2 n, (2, key), (3, sig), tlv 4 2 (d.rf R.HST_TMO 11 0)]), d5)

/-! ## The Gatehouse's answer (R336) -/

/-- FLAGS of GATEHOUSE_STATUS. -/
def Chip.gthFlags (d : Chip) : Nat :=
  b2n d.pav.loss + b2n d.gth.lost * 2 + b2n (d.pav.retired.contains 0) * 4 + b2n (d.pav.retired.contains 1) * 8
    + b2n d.gth.fault * 16 + b2n d.gth.dropped * 32

/-- The reply fields of GATEHOUSE_STATUS. -/
def Chip.gthParams (d : Chip) : Params :=
  [tlv 1 1 (d.pav.active + d.gth.st.code * 2 + d.pav.stby.code * 8), tlv 2 4 d.gth.cnt,
   tlv 3 8 (d.pair R.GTH_LAST_LO R.GTH_LAST_HI), tlv 4 4 d.gthFlags]

/-! ## EVENT_READ (R281) -/

/-- The 40 bytes of an entry. -/
def eventBytes (v : Event) : List Byte := beBytes 4 v.seq ++ beBytes 2 v.src ++ beBytes 2 0 ++ v.record ++ beBytes 16 v.ext

/-- The position that FROM names: the nearest to the newest entry. -/
def EvLog.place (l : EvLog) (n : Nat) : Nat := ((l.next : Int) + sdiff 32 n l.next).toNat

/-- EVENT_READ for a session: the reply's fields and the new read position. -/
def EvLog.read (l : EvLog) (pos max_ : Nat) : Params × Nat :=
  let p := max pos l.oldest
  let got := (l.from_ p).take max_
  let next := p + got.length
  ([tlv 1 4 p, tlv 2 4 next, tlv 3 4 l.oldest, tlv 4 1 (b2n (decide (pos < l.oldest))), (5, got.flatMap eventBytes)], next)

/-- EVENT_READ. -/
def Chip.eventRead (d : Chip) (sess : Nat) (from_ : Option Nat) (max_ : Nat) : (Status × Params) × Chip :=
  match d.session sess with
  | none => ((.notPermitted, []), d)
  | some s =>
    if max_ = 0 ∨ 32 < max_ then ((.badParam, []), d)
    else
      let pos := match from_ with | some f => d.log.place f | none => s.evPos
      let x := d.log.read pos max_
      ((.ok, x.1), d.putSession { s with evPos := x.2 })

/-! ## Register opcodes (R284, R287, R299) -/

/-- A status with parameters only when it is OK (R297). -/
def withOk (st : Status) (p : Params) : Status × Params := (st, if st = .ok then p else [])

/-- A stated access width: 4, or one that R299 refuses as BAD_ALIGN; any other length is a TLV fault. -/
def widthOk (w : Nat) : Option Status :=
  if w = 4 then none else if w = 1 ∨ w = 2 ∨ w = 8 then some .badAlign else some .badParam

/-- A refusal of a width. -/
def Dev.widthFail (s : Dev) (sess a : Nat) (st : Status) : (Status × Params) × Dev :=
  ((st, []), if st = .badAlign then s.on (fun d => d.badWidth sess a) else s)

/-- REG_READ. -/
def Dev.opRegRead (s : Dev) (sess a : Nat) : (Status × Params) × Dev :=
  let x := s.chip.regRead sess a
  (withOk x.1.1 [tlv 1 4 x.1.2.toNat], ⟨x.2, s.mem⟩)

/-- REG_WRITE. -/
def Dev.opRegWrite (s : Dev) (sess a width v : Nat) : (Status × Params) × Dev :=
  match widthOk width with
  | some st => s.widthFail sess a st
  | none =>
    let x := s.regWrite sess 0x0011 a (w32 v)
    ((x.1, []), x.2)

/-- REG_READ_BLOCK. -/
def Dev.opReadBlock (s : Dev) (sess a n : Nat) : (Status × Params) × Dev :=
  if n = 0 ∨ 256 < n then ((.badParam, []), s) else
  let x := s.chip.readBlock sess n a
  ((x.1.1, [(1, words x.1.2), tlv 2 2 x.1.2.length]), ⟨x.2, s.mem⟩)

/-- REG_WRITE_BLOCK of `bytes` value bytes. -/
def Dev.opWriteBlock (s : Dev) (sess a bytes : Nat) (l : List Nat) : (Status × Params) × Dev :=
  if bytes % 4 ≠ 0 then ((.badAlign, [tlv 1 2 0]), s.on (fun d => d.badWidth sess a))
  else if l.isEmpty ∨ 256 < l.length ∨ bytes ≠ 4 * l.length then ((.badParam, []), s)
  else
    let x := s.writeBlock sess l a
    ((x.1.1, [tlv 1 2 x.1.2]), x.2)

/-- REG_MODIFY. -/
def Dev.opModify (s : Dev) (lock : ModLock) (sess a width mask v : Nat) : (Status × Params) × Dev :=
  match widthOk width with
  | some st => s.widthFail sess a st
  | none =>
    match lock with
    | .kept =>
      let x := s.regModify sess a (w32 mask) (w32 v)
      (withOk x.1.1 [tlv 1 4 x.1.2.toNat], x.2)
    | .late => (((s.chip.modifyLate sess a).1, []), ⟨(s.chip.modifyLate sess a).2, s.mem⟩)
    | .poisoned => (((s.chip.modifyPoisoned sess a).1, []), ⟨(s.chip.modifyPoisoned sess a).2, s.mem⟩)

/-- COUNTER_SNAPSHOT. -/
def Dev.opSnapshot (s : Dev) (sess a len : Nat) : (Status × Params) × Dev :=
  let x := s.chip.snapshot sess a len
  (withOk x.1.1 [tlv 1 8 s.chip.dt, (2, words x.1.2)], ⟨x.2, s.mem⟩)

/-! ## Configuration and control opcodes -/

/-- PORT_CONFIG. -/
def Dev.opPort (s : Dev) (n cfg rate tx : Nat) (ppm quad : Option Nat) (enable : Nat) : (Status × Params) × Dev :=
  let x := s.chip.portConfig n cfg rate tx ppm quad (decide (enable ≠ 0))
  (withOk x.1 [tlv 1 4 (x.2.lnStatus n).toNat], ⟨x.2, s.mem⟩)

/-- CHANNEL_CONFIG. -/
def Dev.opChannel (s : Dev) (e : Nat) (l : List (Option Nat)) (enable : Nat) : (Status × Params) × Dev :=
  let x := s.channelConfig e l (decide (enable ≠ 0))
  (withOk x.1 [tlv 1 4 (x.2.chip.hntStatus e).toNat], x.2)

/-- TRIB_MAP. -/
def Dev.opTrib (s : Dev) (l : List TribEntry) : (Status × Params) × Dev :=
  if l.isEmpty ∨ 29 < l.length ∨ l.any (fun x => decide (x.images.length ≠ 10)) then ((.badParam, []), s)
  else
    let x := s.chip.tribMap l
    ((x.1, []), ⟨x.2, s.mem⟩)

/-- APS_COMMAND. -/
def Dev.opAps (s : Dev) (e cmd chan : Nat) : (Status × Params) × Dev :=
  let x := s.chip.apsOpcode e cmd chan
  (withOk x.1 [tlv 1 4 (x.2.apsStatus e).toNat], ⟨x.2, s.mem⟩)

/-- DESKEW_CONFIG. -/
def Dev.opDeskew (s : Dev) (sess e base size : Nat) : (Status × Params) × Dev :=
  let x := s.deskewConfig sess e base size
  ((x.1, []), x.2)

/-- HUNT_CONTROL; SNAP returns the table. -/
def Dev.opHunt (s : Dev) (e action : Nat) (index : Option Nat) : (Status × Params) × Dev :=
  let x := s.chip.huntControl e action index
  (withOk x.1 (if action = 2 then [(1, x.2.candBytes e), tlv 2 4 (x.2.hntStatus e).toNat] else []), ⟨x.2, s.mem⟩)

/-- The engine of a region lies in a peer that split hold has cut off (R350). -/
def Chip.rgnCut (d : Chip) (r : Nat) : Bool := d.splitHold && decide (136 ≤ (d.rcfg r).eng)

/-- CAPTURE_ARM (R178). -/
def Dev.opArm (s : Dev) (r : Nat) : (Status × Params) × Dev :=
  let d := s.chip
  if 4096 ≤ r ∨ ¬ d.rb (R.rgn_CAP_RGN_CFG r) 0 then ((.badParam, []), s)
  else if d.rgnCut r then ((.tandemSplit, []), s)
  else
    let x := d.rgnArm (d.rcfg r).eng r
    (withOk x.1 [tlv 1 8 d.dt], ⟨x.2, s.mem⟩)

/-- CAPTURE_STOP (R179). -/
def Dev.opStop (s : Dev) (r : Nat) : (Status × Params) × Dev :=
  if 4096 ≤ r then ((.badParam, []), s)
  else if s.chip.rgnCut r then ((.tandemSplit, []), s)
  else
    let s1 := s.rgnStop r true
    let h := (s1.chip.rgn r).held
    ((.ok, [tlv 1 4 h.1, tlv 2 4 h.2]), s1)

/-- CAPTURE_READOUT (R289): its bursts follow the reply. -/
def Dev.opReadout (s : Dev) (h : Hdr) (r first count burst udp : Nat) : (Status × Params) × Dev :=
  let x := s.chip.readout h.session h.seq r first count burst h.port udp
  match x.2.1 with
  | some y => ((x.1, [tlv 1 1 y.num, tlv 2 4 y.first, tlv 3 4 y.bales, tlv 4 4 y.total]), ⟨x.2.2, s.mem⟩)
  | none => ((x.1, []), s)

/-- REGION_CONFIG. -/
def Dev.opRegion (s : Dev) (kind r cfg : Nat) (src : Option Nat) (base size : Nat) (pre post : Option Nat) :
    (Status × Params) × Dev :=
  let x := s.regionConfig kind r cfg src base size pre post
  ((x.1, []), x.2)

/-- PATTERN_LOAD (R190). -/
def Dev.opLoad (s : Dev) (r off : Nat) (data : List Byte) (complete : Option Nat) : (Status × Params) × Dev :=
  if data.length < 4 ∨ 1024 < data.length then ((.badParam, []), s) else
  let x := s.patLoad r off data (decide (complete.getD 0 ≠ 0))
  (withOk x.1 [tlv 1 1 (b2n (x.2.chip.prgnLoaded r))], x.2)

/-- PATTERN_QUEUE (R196). -/
def Dev.opQueue (s : Dev) (e rgn sub fstart : Nat) (time : Option Nat) : (Status × Params) × Dev :=
  let x := s.patternQueue e rgn sub fstart time
  (withOk x.1 [tlv 1 1 (x.2.pat e).queue.length], ⟨x.2, s.mem⟩)

/-- INJECT_ERROR (R203). -/
def Dev.opInject (s : Dev) (e : Nat) (rec_ : List Byte) (count every : Nat) (time : Option Nat) : (Status × Params) × Dev :=
  let x := s.injectError e rec_ count every time
  ((x.1, []), ⟨x.2, s.mem⟩)

/-- TIME_SET (R249). -/
def Dev.opTimeSet (s : Dev) (v : Nat) : (Status × Params) × Dev :=
  let x := s.chip.timeSet v
  ((x.1, []), ⟨x.2, s.mem⟩)

/-- TIME_STEP (R251): by a signed number of ticks, or measured. -/
def Dev.opTimeStep (s : Dev) (step : Option Int) (measured : Option Nat) : (Status × Params) × Dev :=
  match step, measured with
  | some n, none =>
    let x := s.chip.timeStep n
    (withOk x.1 [tlv 1 8 (unsgn 64 n)], ⟨x.2, s.mem⟩)
  | none, some _ =>
    let n := s.chip.measured.getD 0
    let x := s.chip.timeStepMeas
    (withOk x.1 [tlv 1 8 (unsgn 64 n)], ⟨x.2, s.mem⟩)
  | _, _ => ((.badParam, []), s)

/-- FW_STAGE (R363). -/
def Dev.opStage (s : Dev) (kind off : Nat) (data : List Byte) (final : Option Nat) (v : Verdict) : (Status × Params) × Dev :=
  if data.length < 4 ∨ 1024 < data.length then ((.badParam, []), s) else
  let x := s.chip.fwStage kind off data (decide (final.getD 0 ≠ 0)) v
  ((x.1.1, match x.1.2 with | some n => [tlv 1 4 n] | none => []), ⟨x.2, s.mem⟩)

/-- ATTEST with a nonce (R368): the report's first part. -/
def Dev.opAttest (s : Dev) (nonce : List Byte) : (Status × Params) × Dev :=
  if nonce.length ≠ 32 then ((.badParam, []), s) else
  match s.chip.attestNew nonce with
  | (.error st, d) => ((st, []), ⟨d, s.mem⟩)
  | (.ok (id, l), d) => ((.ok, [tlv 1 4 id, tlv 2 1 1, tlv 3 1 3, (4, reportPart l 1)]), ⟨d, s.mem⟩)

/-- ATTEST with a report's number and part. -/
def Dev.opAttestPart (s : Dev) (id part : Nat) : (Status × Params) × Dev :=
  match s.chip.attestPart id part with
  | .error st => ((st, []), s)
  | .ok l => ((.ok, [tlv 1 4 id, tlv 2 1 part, tlv 3 1 3, (4, l)]), s)

/-- LEDGER_READ (R375). -/
def Dev.opLedger (s : Dev) (first count : Nat) : (Status × Params) × Dev :=
  if 47 < first ∨ count = 0 ∨ 32 < count ∨ 48 < first + count then ((.badParam, []), s)
  else ((.ok, [tlv 1 1 s.chip.ledgerUsed, (2, (List.range count).flatMap (fun i => s.chip.slotBytes (first + i)))]), s)

/-- SPARE_SUBSTITUTE (R375). -/
def Dev.opSpare (s : Dev) (sess kind old : Nat) (new : Option Nat) : (Status × Params) × Dev :=
  let x := s.chip.spareSub kind old new sess
  ((x.1.1, match x.1.2 with | some n => [tlv 1 1 n] | none => []), ⟨x.2, s.mem⟩)

/-- TANDEM_JOIN (R339). -/
def Dev.opJoin (s : Dev) (role minLanes : Nat) : (Status × Params) × Dev :=
  let x := s.chip.tdmJoin role minLanes
  (withOk x.1 [tlv 1 1 x.2.tdmSt], ⟨x.2, s.mem⟩)

/-- TANDEM_SPLIT (R352). -/
def Dev.opSplit (s : Dev) : (Status × Params) × Dev := ((.ok, [tlv 1 1 s.tdmSplit.chip.tdmSt]), s.tdmSplit)

/-- What a request does that the active processor executes to its end; the deliberate failovers are judged apart. -/
def Dev.runOp (s : Dev) (h : Hdr) : Req → (Status × Params) × Dev
  | .hello => ((.ok, s.chip.hello.1), ⟨s.chip.hello.2, s.mem⟩)
  | .sessionOpen role key nonce ok => ((s.chip.sessionOpen role key nonce ok).1, ⟨(s.chip.sessionOpen role key nonce ok).2, s.mem⟩)
  | .sessionClose => ((.ok, []), s)
  | .regRead a => s.opRegRead h.session a
  | .regWrite a w v => s.opRegWrite h.session a w v
  | .regReadBlock a n => s.opReadBlock h.session a n
  | .regWriteBlock a n l => s.opWriteBlock h.session a n l
  | .regModify a w m v => s.opModify h.lock h.session a w m v
  | .portConfig n cfg rate tx ppm quad en => s.opPort n cfg rate tx ppm quad en
  | .channelConfig e l en => s.opChannel e l en
  | .tribMap l => s.opTrib l
  | .apsCommand e cmd chan => s.opAps e cmd chan
  | .deskewConfig e base size => s.opDeskew h.session e base size
  | .huntControl e action index => s.opHunt e action index
  | .captureArm r => s.opArm r
  | .captureStop r => s.opStop r
  | .captureReadout r first count burst port => s.opReadout h r first count burst port
  | .regionConfig kind r cfg src base size pre post => s.opRegion kind r cfg src base size pre post
  | .patternLoad r off data complete => s.opLoad r off data complete
  | .patternQueue e rgn sub fstart time => s.opQueue e rgn sub fstart time
  | .injectError e rec_ count every time => s.opInject e rec_ count every time
  | .timeSet v => s.opTimeSet v
  | .timeStep step measured => s.opTimeStep step measured
  | .eventRead from_ max_ => ((s.chip.eventRead h.session from_ max_).1, ⟨(s.chip.eventRead h.session from_ max_).2, s.mem⟩)
  | .counterSnapshot a len => s.opSnapshot h.session a len
  | .fwStage kind off data final v => s.opStage kind off data final v
  | .attestNew nonce => s.opAttest nonce
  | .attestPart id part => s.opAttestPart id part
  | .ledgerRead first count => s.opLedger first count
  | .spareSubstitute kind old new => s.opSpare h.session kind old new
  | .tandemJoin role minLanes => s.opJoin role minLanes
  | .tandemSplit => s.opSplit
  | .gatehouseStatus => ((.ok, s.chip.gthParams), s)
  | .fwActivate | .failoverRequest | .unknown _ => ((.badOpcode, []), s)

end Sys2Proof.Machine
end

