-- ==== Sys2Proof/Machine/Pavilion.lean ====
section
/-! DEFINITION. The command processors (R263-R277, R317-R336, R343, R350): journal and checkpoints, how a packet is
received, executed and answered, failover, replay and the replaced processor, and the Gatehouse's answers. -/

namespace Sys2Proof.Machine

/-- The source of Gatehouse events (R281). -/
def srcGth : Nat := 0x2031

/-- Changes the Pavilion. -/
def Chip.setPav (d : Chip) (x : Pav) : Chip := { d with pav := x }
/-- Changes the Gatehouse. -/
def Chip.setGth (d : Chip) (x : Gth) : Chip := { d with gth := x }

/-! ## Command state, journal, checkpoints (R319, R320) -/

/-- The command state: requests held and cached replies lie elsewhere. -/
def Chip.cmdState (d : Chip) : CmdState :=
  ⟨d.host.sessions.map (fun s => { s with held := [], cache := [] }), d.host.nonces, d.host.lastNum,
   d.sec.image, d.sec.bundle, d.sec.reports, d.sec.nextId, d.sec.lastRep⟩

/-- A command state is taken over; the reply cache in the shared SRAM stays. -/
def Chip.loadCmd (d : Chip) (c : CmdState) : Chip :=
  let l := c.sessions.map (fun s => { s with cache := ((d.session s.num).map (·.cache)).getD [] })
  let h := d.host
  let d1 := d.setHost { h with sessions := l, nonces := c.nonces,
                               streams := h.streams.filter (fun x => l.any (fun s => s.num = x.session)) }
  d1.setSec { d1.sec with image := c.image, bundle := c.bundle, reports := c.reports,
                          nextId := max d1.sec.nextId c.nextId, lastRep := c.lastRep }

/-- The command state of a fresh boot. -/
def CmdState.empty : CmdState := ⟨[], [], 0, Stage.init, Stage.init, [], 1, none⟩

/-- The journal entry of a request is written, before anything is done. -/
def Chip.jlog (d : Chip) (h : Hdr) (r : Req) : Chip :=
  let p := d.pav
  d.setPav { p with jrnl := (⟨p.head, h, some r, false, idemReq r, none⟩ :: p.jrnl).take 4096,
                    head := (p.head + 1) % 2 ^ 32 }

/-- The entry of a request is marked applied, with the command state after it. -/
def Chip.japply (d : Chip) (h : Hdr) : Chip :=
  let p := d.pav
  match p.jrnl.find? (fun (e : Jent) => !e.applied && decide (e.hdr = h)) with
  | none => d
  | some e =>
    let res := d.cmdState
    d.setPav { p with jrnl := p.jrnl.map (fun (x : Jent) => if x.idx = e.idx then { x with applied := true, result := some res } else x),
                      applied := e.idx, since := p.since + 1 }

/-- A checkpoint of the whole command state into slot `k`. -/
def Chip.writeCkpt (d : Chip) (k : Nat) : Chip :=
  let p := d.pav
  let other := d.ckpt (1 - k)
  d.setPav { p with ckpts := setAt p.ckpts k ⟨(other.seq + 1) % 2 ^ 32, p.head, true, some d.cmdState⟩, since := 0, sealT := d.core }

/-- The slot with the older sequence number. -/
def Chip.olderSlot (d : Chip) : Nat := if seqAbove (d.ckpt 0).seq (d.ckpt 1).seq then 1 else 0

/-- A checkpoint failed, or a slot read POISONED (R320). -/
def Chip.ckptFail (d : Chip) : Chip := (d.flag R.PAV_EVENT 2).count R.PAV_CKPT_FAIL_CNT

/-- CHECKPOINT_WRITE: at its trigger the older slot is unsealed, written and sealed; a failed write leaves it
unsealed. -/
def Chip.checkpoint (d : Chip) (fail : Bool) : Chip :=
  let p := d.pav
  let due := decide (d.rf R.PAV_CKPT_CFG 8 0 ≤ p.since)
    || (decide (0 < p.since) && decide (p.sealT + d.rf R.PAV_CKPT_CFG 23 16 * 1000000 ≤ d.core))
  if !d.pavRuns || !due then d
  else if fail then
    let k := d.olderSlot
    (d.setPav { p with ckpts := setAt p.ckpts k { d.ckpt k with sealed := false } }).ckptFail
  else d.writeCkpt d.olderSlot

/-! ## Replies (R265, R277, R280) -/

/-- ATTN of a reply; a joined lead also forms it over the peer's log, which is not known here (R344; log entry 1). -/
def Chip.attn (d : Chip) (sess : Nat) : Nat × Chip :=
  let a := match d.session sess with | some s => d.log.attn s.evPos | none => 0
  if d.joined ∧ ¬ d.follower ∧ ¬ d.splitHold then
    let (b, d1) := d.fresh 8
    (a ||| b.toNat, d1)
  else (a, d)

/-- The unit ID that the reply to a request carries: the one the request named, which a change of the unit ID by that
very request does not alter (R366); a HELLO may name any unit. -/
def Chip.replyUnit (d : Chip) (h : Hdr) : Nat := if h.unit = 0xFFF then d.unitId else h.unit

/-- A reply goes out of the port that its request came in by, to the request's UDP port (R263). -/
def Chip.sendReply (d : Chip) (h : Hdr) (x : Reply) : Chip :=
  (d.count R.HST_TX_CNT).emit (.reply x h.port h.udp (x.bytes (d.replyUnit h)))

/-- A reply that the Gatehouse forms: in clear, marked (R268). -/
def Chip.gthReply (d : Chip) (h : Hdr) (r : Req) (st : Status) (p : Params) : Chip :=
  d.sendReply h ⟨h.session, h.seq, reqCode r, st, 0, true, d.tdmBit, p⟩

/-- A request has its result: the reply is formed and cached, E moves on, the entry is applied.  `send` is whether
the reply goes out now. -/
def Chip.finish (d : Chip) (h : Hdr) (r : Req) (st : Status) (p : Params) (send : Bool) : Chip :=
  let (a, d1) := d.attn h.session
  let x : Reply := ⟨h.session, h.seq, reqCode r, st, a, false, d1.tdmBit, p⟩
  let d2 := match d1.session h.session with
    | some s => d1.putSession { s with next := h.seq + 1, cache := (x :: s.cache).take 1024, wait := none }
    | none => d1
  let d3 := if send then d2.sendReply h x else d2.setGth { d2.gth with outbox := d2.gth.outbox ++ [.reply x h.port h.udp (x.bytes (d2.replyUnit h))] }
  let d4 := if r = .sessionClose ∧ st = .ok then d3.closeSession h.session 0
    else if h.seq = 0xFFFFFFFF then d3.closeSession h.session 2 else d3
  d4.japply h

/-! ## Which requests are executed, and where (R279, R343, R344, R350) -/

/-- The follower of a joined pair, or in split hold, executes a request itself. -/
def Chip.followerRuns (d : Chip) (h : Hdr) (r : Req) : Bool :=
  match r with
  | .hello | .sessionOpen .. | .sessionClose | .tandemSplit => true
  | .gatehouseStatus => !d.splitHold || decide (h.session = 0)
  | .tandemJoin .. => d.splitHold
  | _ => false

/-- The first status of R279 that the request earns before its own checks. -/
def Chip.reqStatus (d : Chip) (h : Hdr) (r : Req) : Option Status :=
  let owner := (d.session h.session).any (·.owner)
  let peer := !localReq r && (h.tandem || namesPeer r)
  if (match r with | .unknown _ => true | _ => false) then some .badOpcode
  else if d.follower ∧ d.splitHold ∧ ¬ d.followerRuns h r then some .tandemSplit
  else if ¬ d.follower ∧ d.splitHold ∧ peer then some .tandemSplit
  else if ownerReq r ∧ ¬ owner then some .notPermitted
  else if d.follower ∧ d.joined ∧ ¬ d.splitHold ∧ ¬ d.followerRuns h r then some .notPermitted
  else if h.tandem ∧ ¬ localReq r ∧ ¬ d.joined then some .notPermitted
  else if ¬ h.tlvOk then some .badParam
  else none

/-- The request is forwarded to the follower. -/
def Chip.forwards (d : Chip) (h : Hdr) (r : Req) : Bool :=
  d.joined && !d.follower && !d.splitHold && !localReq r && (h.tandem || namesPeer r)

/-- What FW_ACTIVATE and FAILOVER_REQUEST are refused with before any failover starts (R332, R333). -/
def Chip.deliberateStop (d : Chip) (fw : Bool) : Option Status :=
  let img := d.sec.image.image
  let fmt := d.activeImage.ckMax
  let staged : Bool := match img with
    | some i => decide (d.sec.image.st = .verified) && decide (i.ckMin ≤ fmt ∧ fmt ≤ i.ckMax)
    | none => false
  if fw ∧ ¬ staged then some .notPermitted
  else if d.pav.retired.contains (1 - d.pav.active) then some .noSpare
  else if d.pav.stby ≠ .ready ∨ d.gth.st = .failover then some .busy
  else none

/-! ## Failover (R321-R323, R331, R332) -/

/-- The master port of a processor. -/
def pavPort (p : Nat) : Nat := 17 + p

/-- A fence of a master port is taken away: its processor takes the active role. -/
def Chip.unfence (d : Chip) (p : Nat) : Chip := d.setYard { d.yard with fences := SMap.put none d.yard.fences p none }

/-- A packet dropped for its form or unit. -/
def Chip.dropFmt (d : Chip) : Chip := d.count R.HST_FMT_DROP_CNT

/-- A packet has the right form and names this unit (R269, R270). -/
def Chip.packetOk (d : Chip) (h : Hdr) (r : Req) : Bool :=
  h.fmtOk && (decide (h.unit = d.unitId) || (decide (h.unit = 0xFFF) && decide (r = .hello)))

/-- A packet in autonomous hold (R331). -/
def Chip.holdPacket (d : Chip) (p : Packet) : Chip :=
  match p with
  | .request h r =>
    if ¬ d.packetOk h r then d.dropFmt
    else if r = .gatehouseStatus then d.gthReply h r .ok d.gthParams
    else d.gthReply h r .unavailable []
  | .ack _ => d

/-- Autonomous hold: readout streams end, held requests are answered UNAVAILABLE, the standby that failed is
retired (R331). -/
def Chip.commandLost (d : Chip) (failed : Bool) : Chip :=
  let q := 1 - d.pav.active
  let d1 := (d.setGth { d.gth with st := .hold, lost := true, held := [], outbox := [], asked := none,
                                   peak := d.gth.held.length }).flag R.GTH_EVENT 1
  let d2 := d1.setHost { d1.host with streams := [] }
  let d3 := if failed then d2.setPav { d2.pav with retired := q :: d2.pav.retired, unrec := q :: d2.pav.unrec, stby := .none } else d2
  d.gth.held.foldl (fun (y : Chip) p => y.holdPacket p) d3

/-- A processor's master port is reset (R221): its granted configuration writes are performed, as its granted writes of
memory are. -/
def Dev.pavReset (s : Dev) (m : Nat) : Dev :=
  let mine := s.chip.yard.txns.filter (fun t =>
    t.master = m && t.target = 32 && decide (t.kind = .write) && t.grant.isSome && t.done.isNone)
  (mine.foldl (fun (x : Dev) t => (x.regWrite 0 0 (t.addr - 0x4200000000) (w32 (ofBytes t.data))).2) s).masterReset m

/-- A failover begins (R321, R322 step 1): FAILOVER is flagged and logged, the active processor is isolated.  One that
has failed is held in reset; one that has been asked, by cause 4 or 5, is paused and not reset (R332). -/
def Dev.failover (s : Dev) (cause : Nat) : Dev :=
  let d := s.chip
  let m := pavPort d.pav.active
  let d1 := ((d.setGth { d.gth with st := .failover, cause := cause, declT := d.core, dropped := false,
                                    cnt := (d.gth.cnt + 1) % 2 ^ 32 }).flag R.GTH_EVENT 0).ev srcGth 0x0A00
    (1 - d.pav.active + cause * 2 ^ 16)
  let s1 := Dev.mk (d1.fence (mKey m) m) s.mem
  if 4 ≤ cause then s1 else s1.pavReset m

/-- A declared failure (R321): without a standby that is ready it ends in COMMAND_LOST at once (R323). -/
def Dev.declare (s : Dev) (cause : Nat) : Dev :=
  if s.chip.gth.st ≠ .running ∨ ¬ s.chip.pav.booted then s else
  let s1 := (s.failover cause).on (fun d => d.setPav { d.pav with dead := true })
  if s.chip.pav.stby = .ready then s1 else s1.on (fun d => d.commandLost false)

/-! ## Executing a request -/

/-- A request whose turn it is runs to the point that the processor reaches with it.  A forwarded request and a
deliberate failover have no reply yet. -/
def Dev.serve (s : Dev) (h : Hdr) (r : Req) : Dev :=
  let s0 := s.on (fun d => d.jlog h r)
  if h.stop = .logged then s0.on (fun d => d.setPav { d.pav with dead := true })
  else
    let done := fun (x : (Status × Params) × Dev) =>
      if h.stop = .acted then x.2.on (fun d => d.setPav { d.pav with dead := true })
      else
        let x1 := if ownerReq r ∧ x.1.1 = .ok then x.2.on (fun d => d.ownerAction h.session (reqCode r)) else x.2
        let x2 := x1.on (fun d => d.finish h r x.1.1 x.1.2 (decide (h.stop ≠ .cached)))
        if h.stop = .cached then x2.on (fun d => d.setPav { d.pav with dead := true })
        else match r with
        | .captureReadout .. => if x.1.1 = .ok then x2.sendStream x2.chip.host.lastStr else x2
        | _ => x2
    match s0.chip.reqStatus h r with
    | some st => done ((st, []), s0)
    | none =>
      if s0.chip.forwards h r then
        s0.on (fun d => match d.session h.session with
          | some x => d.putSession { x with next := h.seq + 1, wait := some (h, idemReq r) }
          | none => d)
      else
        let fw := decide (r = .fwActivate)
        if r = .fwActivate ∨ r = .failoverRequest then
          match s0.chip.deliberateStop fw with
          | some st => done ((st, []), s0)
          | none =>
            let k := s0.chip.olderSlot
            ((s.on (fun d => (d.writeCkpt k).jlog h r)).on (fun d => d.setGth { d.gth with asked := some (h, fw) })).failover
              (if fw then 5 else 4)
        else done (s0.runOp h r)

/-- The held request that a session expects next, if it may run now. -/
def Chip.heldNext (d : Chip) (n : Nat) : Option (Hdr × Req) :=
  if !d.pavRuns then none else
  match d.session n with
  | some s => if s.wait.isSome then none else s.held.find? (fun x => x.1.seq = s.next)
  | none => none

/-- Held requests of a session run as their turn comes (R275, R276). -/
def Dev.drain (s : Dev) (n : Nat) : Nat → Dev
  | 0 => s
  | k + 1 =>
    match s.chip.heldNext n with
    | some x =>
      let s1 := s.on (fun d => match d.session n with
        | some y => d.putSession { y with held := y.held.filter (fun z => z.1.seq ≠ x.1.seq) }
        | none => d)
      (s1.serve x.1 x.2).drain n k
    | none => s

/-! ## Receiving a packet (R263, R267-R269, R273-R277) -/

/-- A packet dropped for its session or tag. -/
def Chip.dropAuth (d : Chip) : Chip := (d.count R.HST_AUTH_DROP_CNT).flag R.HST_EVENT 2
/-- A packet dropped for its sequence. -/
def Chip.dropSeq (d : Chip) : Chip := (d.count R.HST_SEQ_DROP_CNT).flag R.HST_EVENT 3

/-- A valid request keeps its session alive. -/
def Chip.touch (d : Chip) (n : Nat) : Chip :=
  match d.session n with
  | some s => d.putSession { s with last := d.core }
  | none => d

/-- A request of a session that a loss of state has reset (R328). -/
def Chip.resetReply (d : Chip) (s : Session) (h : Hdr) (r : Req) : Chip :=
  let (a, d1) := d.attn s.num
  if r = .sessionClose then
    (d1.sendReply h ⟨s.num, h.seq, reqCode r, .ok, a, false, d1.tdmBit, []⟩).closeSession s.num 0
  else d1.sendReply h ⟨s.num, h.seq, reqCode r, .sessionReset, a, false, d1.tdmBit, []⟩

/-- A request inside a session, by its place in the windows of R276. -/
def Dev.receiveIn (s : Dev) (x : Session) (h : Hdr) (r : Req) : Dev :=
  let e := x.next
  let s1 := s.on (fun d => d.touch x.num)
  if x.reset then s1.on (fun d => d.resetReply x h r)
  else if h.seq = e ∧ x.wait.isNone then (s1.serve h r).drain x.num x.held.length
  else if e ≤ h.seq ∧ h.seq ≤ e + 63 then
    if x.held.any (fun y => y.1.seq = h.seq) then s1
    else s1.on (fun d => d.putSession { x with last := d.core, held := x.held ++ [(h, r)] })
  else if h.seq < e ∧ e ≤ h.seq + 1024 then
    match x.cache.find? (fun y => y.seq = h.seq) with
    | some y => s1.on (fun d => d.sendReply h (if h.poison then { y with status := .poisoned, params := [] } else y))
    | none => if h.seq + 1 = e ∧ x.wait.isSome then s1 else s.on Chip.dropSeq
  else s.on Chip.dropSeq

/-- A packet reaches the active processor. -/
def Dev.arrive (s : Dev) (h : Hdr) (r : Req) : Dev :=
  let d := s.chip
  if ¬ d.packetOk h r then s.on Chip.dropFmt
  else if h.session = 0 then
    if ¬ openReq r then s.on Chip.dropAuth
    else if reqCode r = 0x0002 ∧ h.seq ≠ 0 then s.on Chip.dropSeq
    else s.serve h r
  else match d.session h.session with
  | none => s.on Chip.dropAuth
  | some x => if ¬ h.tagOk then s.on Chip.dropAuth else s.receiveIn x h r

/-- A packet during the gap: GATEHOUSE_STATUS with SESSION 0 is answered at once, up to 256 packets are held, later
ones are dropped (R324). -/
def Chip.gapPacket (d : Chip) (p : Packet) : Chip :=
  let g := d.gth
  let hold := if g.held.length < 256 then d.setGth { g with held := g.held ++ [p] }
    else (d.setGth { g with dropped := true }).count R.GTH_DROP_CNT
  match p with
  | .request h r => if r = .gatehouseStatus ∧ h.session = 0 ∧ d.packetOk h r = true then d.gthReply h r .ok d.gthParams else hold
  | .ack _ => hold

/-- Where a packet goes: to the active processor, into the gap's queue, or to the Gatehouse. -/
def Dev.route (s : Dev) (p : Packet) : Dev :=
  match s.chip.gth.st with
  | .hold => s.on (fun d => d.holdPacket p)
  | .failover => s.on (fun d => d.gapPacket p)
  | .running =>
    if s.chip.pav.dead then s else
    match p with
    | .request h r => s.arrive h r
    | .ack a => s.readoutAck a

/-- The host port that a packet arrives on. -/
def packetPort : Packet → Nat
  | .request h _ => h.port
  | .ack a => a.port

/-- A packet arrives on a host port: one that the mode has (R3, R261), once the port runs, or, where no firmware slot
has verified, for the Gatehouse alone to answer (R13, R359). -/
def Dev.receive (s : Dev) (p : Packet) : Dev :=
  if (¬ s.chip.host.ready ∧ s.chip.gth.st ≠ .hold) ∨ s.chip.hostPorts ≤ packetPort p then s
  else (s.on (fun d => d.count R.HST_RX_CNT)).route p

/-- A request that a command carries. -/
def Dev.request (s : Dev) (h : Hdr) (r : Req) : Dev := s.receive (.request h r)

/-! ## The takeover (R322, R325-R328) -/

/-- The gap's limit: 50,000 Gatehouse cycles of 40 core cycles. -/
def gapLimit : Nat := 2000000

/-- The image in the slot of the processor that is to take over. -/
def Chip.standbyOk (d : Chip) : Bool := d.imageOk d.standbyImage

/-- A slot is valid: sealed and readable. -/
def Chip.slotValid (d : Chip) (t : TakeIn) (k : Nat) : Bool := (d.ckpt k).sealed && (if k = 0 then t.slot0 else t.slot1)

/-- Entries from a slot's JIDX up to the newest. -/
def Chip.owed (d : Chip) (j : Nat) : Nat := (d.pav.head + 2 ^ 32 - j) % 2 ^ 32

/-- The entries of a replay from `j`, up to the first that cannot be read; none when the journal no longer reaches
back so far. -/
def Chip.replayList (d : Chip) (j : Nat) (badAt : Option Nat) : List Jent :=
  let n := d.owed j
  if 4096 < n then [] else
  let l := (d.pav.jrnl.take n).reverse
  match badAt with
  | some b => l.take ((l.takeWhile (fun (e : Jent) => decide (e.idx ≠ b))).length)
  | none => l

/-- A slot permits a full replay. -/
def Chip.fullFrom (d : Chip) (t : TakeIn) (k : Nat) : Bool :=
  d.slotValid t k && decide (d.owed (d.ckpt k).jidx ≤ 4096)
    && decide ((d.replayList (d.ckpt k).jidx t.badAt).length = d.owed (d.ckpt k).jidx)

/-- The slot that a takeover loads, and whether its replay is full; with no valid slot none. -/
def Chip.chooseSlot (d : Chip) (t : TakeIn) : Option Nat × Bool :=
  let newer := 1 - d.olderSlot
  let older := d.olderSlot
  if d.fullFrom t newer then (some newer, true)
  else if d.fullFrom t older then (some older, true)
  else if d.slotValid t newer then (some newer, false)
  else if d.slotValid t older then (some older, false)
  else (none, false)

/-- One entry is replayed (R325); its reply waits behind those that were held (R327). -/
def Dev.replay (s : Dev) (asked : Option Hdr) (e : Jent) : Dev :=
  if e.applied then s.on (fun d => match e.result with | some c => d.loadCmd c | none => d)
  else if asked = some e.hdr then s
  else match e.req with
  | none => s
  | some r =>
    if e.idem then
      match s.chip.reqStatus e.hdr r with
      | some st => s.on (fun d => d.finish e.hdr r st [] false)
      | none =>
        if s.chip.forwards e.hdr r then
          s.on (fun d => match d.session e.hdr.session with
            | some x => d.putSession { x with next := e.hdr.seq + 1, wait := some (e.hdr, true) }
            | none => d)
        else
          let x := s.runOp e.hdr r
          let x1 := if ownerReq r ∧ x.1.1 = .ok then x.2.on (fun d => d.ownerAction e.hdr.session (reqCode r)) else x.2
          x1.on (fun d => d.finish e.hdr r x.1.1 x.1.2 false)
    else s.on (fun d => (d.finish e.hdr r .indeterminate [] false).count R.PAV_INDET_CNT)

/-- The new processor has no full state (R328). -/
def Chip.stateLoss (d : Chip) : Chip :=
  let d1 := ((d.setPav { d.pav with loss := true }).flag R.PAV_EVENT 1).ev srcPav 0x0A01 0
  d1.setHost { d1.host with sessions := d1.host.sessions.map (fun s => { s with reset := true }) }

/-- A slot that is sealed but does not read back sets CKPT_FAIL. -/
def Chip.slotFail (d : Chip) (t : TakeIn) : Chip :=
  (List.range 2).foldl (fun (y : Chip) k => if (d.ckpt k).sealed && !d.slotValid t k then y.ckptFail else y) d

/-- Steps 4 and 5 of R322: the checkpoint and the replay. -/
def Dev.rebuild (s : Dev) (t : TakeIn) : Dev :=
  let d := s.chip.slotFail t
  let c := d.chooseSlot t
  let asked := d.gth.asked.map (·.1)
  match c.1 with
  | none => ⟨(d.loadCmd CmdState.empty).stateLoss, s.mem⟩
  | some k =>
    let d1 := match (d.ckpt k).state with | some x => d.loadCmd x | none => d
    let s1 := (d1.replayList (d1.ckpt k).jidx t.badAt).foldl (fun (y : Dev) e => y.replay asked e) (Dev.mk d1 s.mem)
    if c.2 then s1 else s1.on Chip.stateLoss

/-- Gatehouse cycles since the declaration. -/
def Chip.gapCycles (d : Chip) : Nat := (d.core - d.gth.declT) / 40

/-- The Gatehouse runs again: gap, peak and the time of the declaration are recorded (R335). -/
def Chip.gapEnd (d : Chip) : Chip :=
  let n := d.gapCycles
  let d1 := d.setGth { d.gth with st := .running, gap := n, peak := d.gth.held.length, beat := d.core, asked := none }
  d1.setPair R.GTH_LAST_LO R.GTH_LAST_HI (d.dt - n * 160)

/-- Step 6 of R322: held replies go out, streams resend from CUM, held packets are taken in their order. -/
def Dev.release (s : Dev) : Dev :=
  let g := s.chip.gth
  let s1 := s.on (fun d => (g.outbox.foldl (fun (y : Chip) o => (y.count R.HST_TX_CNT).emit o) d).setGth { d.gth with outbox := [], held := [] })
  let s2 := s1.chip.host.streams.foldl (fun (y : Dev) x =>
    (y.on (fun d => d.resend x (x.kept.map (·.1)))).sendStream x.num) s1
  g.held.foldl (fun (y : Dev) p => y.route p) s2

/-- The new active processor completes the request of a deliberate failover (R332, R333, R361). -/
def Chip.askedDone (d : Chip) (asked : Option (Hdr × Bool)) : Chip :=
  match asked with
  | none => d
  | some (h, fw) =>
    let r : Req := if fw then .fwActivate else .failoverRequest
    let d1 := d.ownerAction h.session (reqCode r)
    let d2 := if fw then d1.rollbackAdvance d1.activeImage.svn else d1
    d2.finish h r .ok [if fw then tlv 1 4 d2.activeImage.version else tlv 1 1 d2.pav.active] false

/-- TAKEOVER_RESUME: the new processor resumes within the gap's limit. -/
def Dev.takeover (s : Dev) (t : TakeIn) : Dev :=
  let d := s.chip
  if d.gth.st ≠ .failover ∨ ¬ d.standbyOk ∨ d.gth.declT + gapLimit < d.core then s else
  let old := d.pav.active
  let asked := d.gth.asked
  let s1 := s.rebuild t
  let s2 := s1.on (fun d =>
    let d1 := (d.setPav { d.pav with active := 1 - old, dead := false,
                                     stby := if asked.isSome then .preparing else .none }).flag R.PAV_EVENT 0
    let d2 := (d1.unfence (mKey (pavPort (1 - old)))).gapEnd
    (d2.setGth { d2.gth with test := some (old, d2.core, asked.isSome) }).askedDone asked)
  s2.release

/-- TAKEOVER_FAIL (R323): for a fault of the new processor, or at the gap's limit.  A deliberate failover goes back to
the old processor (R332), a declared one ends in COMMAND_LOST (R331). -/
def Dev.takeoverFail (s : Dev) (fault : Bool) : Dev :=
  let d := s.chip
  if d.gth.st ≠ .failover ∨ (fault = false ∧ d.core < d.gth.declT + gapLimit) then s else
  match d.gth.asked with
  | none => s.on (fun d => d.commandLost true)
  | some (h, fw) =>
    let q := 1 - d.pav.active
    let s1 := s.on (fun d =>
      let d1 := d.setPav { d.pav with retired := q :: d.pav.retired, stby := .none }
      let d2 := ((d1.recordPav q 6).unfence (mKey (pavPort d.pav.active))).gapEnd
      let d3 := (d2.setGth { d2.gth with fault := true }).flag R.GTH_EVENT 2
      d3.finish h (if fw then .fwActivate else .failoverRequest) .noSpare [] false)
    s1.release

/-! ## Supervision (R321) -/

/-- HEARTBEAT: the line toggles while the active processor runs. -/
def Chip.heartbeat (d : Chip) : Chip := if d.pavRuns then d.setGth { d.gth with beat := d.core } else d

/-- HEARTBEAT_MISS: no toggle for HB_MISS periods of 100 µs. -/
def Dev.heartbeatMiss (s : Dev) : Dev :=
  if s.chip.core < s.chip.gth.beat + s.chip.rf R.GTH_CFG 3 0 * 100000 then s else s.declare 1

/-- FATAL_ERROR: of the active processor, or of the new one during the gap. -/
def Dev.fatalError (s : Dev) : Dev :=
  if s.chip.gth.st = .failover then s.takeoverFail true else s.declare 2

/-- What the Gatehouse makes of a Yard timeout of a transaction (R219, R321, R323). -/
def Dev.timeoutReport (s : Dev) (t : Txn) : Dev :=
  let d := s.chip
  let hit := decide (t.target = 32 ∨ t.target = 34) || d.rb R.GTH_CFG 4
  if t.master = pavPort d.pav.active ∧ d.gth.st = .running then (if hit then s.declare 3 else s)
  else if t.master = pavPort (1 - d.pav.active) ∧ d.gth.st = .failover then s.takeoverFail true
  else s

/-- YARD_TIMEOUT of a master's transaction. -/
def Dev.yardLate (s : Dev) (m tag : Nat) : Dev :=
  match s.chip.txn m tag with
  | some t => if s.chip.overdue t then (s.yardTimeout t).timeoutReport t else s
  | none => s

/-! ## The replaced processor (R329, R332) -/

/-- The reset of a failed processor lasts 1,000 Gatehouse cycles, in core cycles. -/
def pavResetTime : Nat := 40000

/-- REPLACED_RESET_END: the self-test begins. -/
def Chip.replacedReset (d : Chip) : Chip :=
  match d.gth.test with
  | some (p, t, false) =>
    if d.core < t + pavResetTime then d
    else (d.setGth { d.gth with test := some (p, d.core, true) }).setPav { d.pav with stby := .preparing }
  | _ => d

/-- The slot of the standby takes the image of the active slot when the versions differ. -/
def Chip.syncSlot (d : Chip) : Chip :=
  if d.standbyImage.version = d.activeImage.version then d else d.setStandbyImage d.activeImage

/-- SELF_TEST_DONE: the replaced processor becomes the standby when its slot verifies too, or is retired. -/
def Chip.selfTestDone (d : Chip) (pass : Bool) : Chip :=
  match d.gth.test with
  | some (p, _, true) =>
    let d1 := d.setGth { d.gth with test := none }
    let d2 := if pass then d1.syncSlot else d1
    if pass ∧ d2.standbyOk then d2.setPav { d2.pav with stby := .ready }
    else (d2.setPav { d2.pav with stby := .none, retired := p :: d2.pav.retired }).recordPav p 5
  | _ => d

/-! ## Forwarded requests (R343, R350) -/

/-- A status by its code. -/
def statusOf (n : Nat) : Status :=
  match n with
  | 0x00 => .ok | 0x01 => .badOpcode | 0x02 => .badParam | 0x03 => .badAlign | 0x04 => .decodeError | 0x05 => .sessionReset
  | 0x06 => .busy | 0x07 => .notPermitted | 0x08 => .notReady | 0x09 => .notAppliedEnabled | 0x0A => .locked
  | 0x0B => .lockTimeout | 0x0C => .targetReset | 0x0D => .indeterminate | 0x0E => .unavailable | 0x0F => .poisoned
  | 0x10 => .tandemSplit | 0x11 => .stepRefused | 0x12 => .ledgerFull | 0x13 => .noSpare | 0x14 => .authFail
  | 0x15 => .signatureFail | 0x16 => .rollback | _ => .tooLate

/-- The request that a session's journal entry holds for a header. -/
def Chip.waitReq (d : Chip) (h : Hdr) : Req :=
  ((d.pav.jrnl.find? (fun (e : Jent) => decide (e.hdr = h))).bind (·.req)).getD (.unknown 0)

/-- FORWARDED_REPLY: the lead sends the follower's reply at its place. -/
def Dev.forwarded (s : Dev) (n : Nat) (x : PeerReply) : Dev :=
  if ¬ s.chip.pavRuns then s else
  match (s.chip.session n).bind (·.wait) with
  | some (h, _) =>
    let r := s.chip.waitReq h
    let s1 := if ownerReq r ∧ x.status = 0 then s.on (fun d => d.ownerAction n (reqCode r)) else s
    (s1.on (fun d => d.finish h r (statusOf x.status) x.params true)).drain n 64
  | none => s

/-- Split hold begins on the lead: forwarded requests without a reply end TANDEM_SPLIT, or INDETERMINATE when they are
not idempotent (R350). -/
def Dev.splitReplies (s : Dev) : Dev :=
  if ¬ s.chip.pavRuns then s else
  s.chip.host.sessions.foldl (fun (y : Dev) x =>
    match x.wait with
    | some (h, idem) =>
      (y.on (fun d => d.finish h (d.waitReq h) (if idem then .tandemSplit else .indeterminate) [] true)).drain x.num 64
    | none => y) s

/-- SPLIT_HOLD_ENTER: split hold, and the answers that forwarded requests then get. -/
def Dev.splitHoldEnter (s : Dev) : Dev :=
  let s1 := s.on Chip.splitEnter
  if s1.chip.tdmSt = 4 ∧ s.chip.tdmSt ≠ 4 then s1.splitReplies else s1

end Sys2Proof.Machine
end

