-- ==== Sys2Proof/WellFormed.lean ====
section
/-! DEFINITION. Which commands can reach the device at all: those whose operands name an engine, lane, port or
other resource that the device has. -/

namespace Sys2Proof

/-- E0-E135: 128 working engines and eight spares (R3, R294). -/
def engineOk (e : Nat) : Bool := decide (e < 136)

/-- Lane windows 0-139: line, host and tandem lanes (R51, R294). -/
def laneOk (n : Nat) : Bool := decide (n < 140)

/-- A calibration group of eight line lanes (R37). -/
def calGroupOk (g : Nat) : Bool := decide (g < 16)

/-- A cage: 32 quads, the host cage, the tandem cage (R49, R50). -/
def cageOk (k : Nat) : Bool := decide (k < 34)

/-- T0-T16383 (R294). -/
def contextOk (t : Nat) : Bool := decide (t < 16384)

/-- A capture region (R177). -/
def regionOk (r : Nat) : Bool := decide (r < 4096)

/-- A global trigger line (R172). -/
def triggerLineOk (n : Nat) : Bool := decide (n < 8)

/-- A time compare: four in each cluster (R176). -/
def compareOk (k : Nat) : Bool := decide (k < 68)

/-- A cluster of eight engines (R316). -/
def clusterOk (c : Nat) : Bool := decide (c < 17)

/-- A master port YM0-YM23 (R207). -/
def masterOk (m : Nat) : Bool := decide (m < 24)

/-- An 8-bit tag of a master port (R216). -/
def tagOk (m tag : Nat) : Bool := masterOk m && decide (tag < 256)

/-- A target port YT0-YT39, or the default target (R208, R215). -/
def yardPortOk (p : Nat) : Bool := decide (p < 40 ∨ p = 0x3F)

/-- A Hayloft stack (R208). -/
def stackOk (s : Nat) : Bool := decide (s < 4)

/-- A timing port TP0-TP3 (R253). -/
def timingPortOk (p : Nat) : Bool := decide (p < 4)

/-- A host port (R261). -/
def hostPortOk (p : Nat) : Bool := decide (p < 4)

/-- A tandem lane (R337). -/
def tandemLaneOk (n : Nat) : Bool := decide (n < 8)

/-- An engine of either unit of a pair, by its number on the pair (R343). -/
def pairEngineOk (e : Nat) : Bool := decide (e < 272)

/-- A defect's owner: an engine of either unit of a pair, or a context (R123). -/
def defectOk (path : Bool) (n : Nat) : Bool := if path then contextOk n else pairEngineOk n

/-- A block of the bring-up (R382). -/
def bootBlkOk : BootBlk → Bool
  | .engine e => engineOk e
  | .lanes g => calGroupOk g
  | .stack s => stackOk s
  | _ => true

/-- A command is well formed when every resource that its operands name is one that the device has. -/
def Instr.wf : Instr → Bool
  | .powerGoodChange _ _ _ => true
  | .nresetChange _ _ => true
  | .brownOut _ => true
  | .railMeasurement _ _ _ _ _ => true
  | .tempReading _ => true
  | .blockReady b => bootBlkOk b
  | .pavilionBoot _ => true
  | .laneEnable _ n _ => laneOk n
  | .laneDisable _ n _ => laneOk n
  | .recal _ n _ => laneOk n
  | .laneCalibrationDone g => calGroupOk g
  | .signalChange n _ _ => laneOk n
  | .losSetExpiry n => laneOk n
  | .losClrExpiry n => laneOk n
  | .cdrLock n => laneOk n
  | .lockLoss n => laneOk n
  | .txclkSlewDone n => laneOk n
  | .losTimerConfig _ n _ _ => laneOk n
  | .moduleSignalChange k _ _ => cageOk k
  | .mmbGo _ k _ => cageOk k
  | .mmbDone k _ _ _ => cageOk k
  | .mmbStretchTimeout k _ _ => cageOk k
  | .lineWord n _ _ _ => laneOk n
  | .lofSetExpiry e => engineOk e
  | .lofClrExpiry e => engineOk e
  | .lofTimerConfig _ e _ => engineOk e
  | .rehunt _ e => engineOk e
  | .force _ e _ => engineOk e
  | .snap _ e => engineOk e
  | .rxFrame e _ => pairEngineOk e
  | .txFrameStart e _ => engineOk e
  | .ohpCommit _ e => engineOk e
  | .ttiIdxWrite _ e _ => engineOk e
  | .ttiStore _ e => engineOk e
  | .ttiFmtWrite _ e _ => engineOk e
  | .contextEnable _ t _ => contextOk t
  | .contextDisable _ t _ => contextOk t
  | .seqGo _ e _ => engineOk e
  | .seqStop _ e _ => engineOk e
  | .pointerPeriodStart t _ => contextOk t
  | .defectSetExpiry path n _ => defectOk path n
  | .defectClrExpiry path n _ => defectOk path n
  | .integTimeConfig _ e _ _ => engineOk e
  | .bipWindowEnd e _ => engineOk e
  | .sfSdWindowConfig _ e _ _ => engineOk e
  | .pmSecondEnd e => engineOk e
  | .pmSecondCounted e => engineOk e
  | .apsGroupEnable _ h _ => engineOk h
  | .apsGroupDisable _ h _ => engineOk h
  | .apsMemberWrite _ h _ => engineOk h
  | .lockout _ h _ => engineOk h
  | .forceSwitch _ h _ => engineOk h
  | .manual _ h _ => engineOk h
  | .exercise _ h _ => engineOk h
  | .clear _ h _ => engineOk h
  | .holdoffExpiry h _ => engineOk h
  | .wtrExpiry h => engineOk h
  | .fopDeclare h => engineOk h
  | .selectorChange h => engineOk h
  | .deskewFrame h _ _ _ => engineOk h
  | .deskewNoMatch h => engineOk h
  | .rebaseDone h => engineOk h
  | .stallPush x => engineOk x.engine && decide (x.ecc < 3)
  | .stallPop e _ side => engineOk e && decide (side < 3)
  | .lossEpisodeEnd e => engineOk e
  | .baleFlushTimeout r => regionOk r
  | .baleWriteReply r _ _ => regionOk r
  | .pendingBaleRetry r => regionOk r
  | .termHoldExpiry cb i => engineOk cb && decide (i < 4)
  | .globalTriggerLine n => triggerLineOk n
  | .combinerEnable _ e _ => engineOk e
  | .hostTrigger _ e _ => engineOk e
  | .clearFired _ e => engineOk e
  | .timeCompareArm _ e _ => engineOk e
  | .timeCompareFire k => compareOk k
  | .regionEnable _ e _ => engineOk e
  | .regionDisable _ e _ => engineOk e
  | .arm _ e _ => engineOk e
  | .stop _ e _ => engineOk e
  | .readoutAck _ => true
  | .readoutResendTimeout _ => true
  | .patternRegionEnable _ e _ => engineOk e
  | .patternRegionDisable _ e _ => engineOk e
  | .push _ e _ => engineOk e
  | .flush _ e _ => engineOk e
  | .abort _ e _ => engineOk e
  | .injStop _ e => engineOk e
  | .entryReady e _ => engineOk e
  | .scriptLaunch e _ _ _ => engineOk e
  | .patternReadReply e _ _ _ _ _ => engineOk e
  | .injectArm _ e _ => engineOk e
  | .yardRequest m tag _ _ _ _ _ => tagOk m tag
  | .yardGrant p => yardPortOk p
  | .yardReply m tag _ _ _ => tagOk m tag
  | .lockedRead m tag _ _ _ => tagOk m tag
  | .writeUnlock m tag _ _ => tagOk m tag
  | .lockTimeout p => yardPortOk p
  | .yardTimeout m tag => tagOk m tag
  | .fenceGraceEnd _ => true
  | .fenceEnd _ => true
  | .scrubBlock st pc _ _ => stackOk st && decide (pc < 32)
  | .scrubPassEnd st => stackOk st
  | .migrationCopy st => stackOk st
  | .migrationComplete st => stackOk st
  | .ptpMessageRx _ => true
  | .announceReceiptTimeout => true
  | .ptpMessageTx _ => true
  | .ppsLoss p => timingPortOk p
  | .ref10mLock p _ => timingPortOk p
  | .refLoss p => timingPortOk p
  | .step _ => true
  | .stepMeas _ => true
  | .set _ => true
  | .hold _ => true
  | .release _ => true
  | .catchupDone => true
  | .timeUnitEnable _ _ => true
  | .timeUnitDisable _ _ => true
  | .tpEdge p _ _ => timingPortOk p
  | .ppsOutPulse p => timingPortOk p
  | .triggerOutArm _ p _ => timingPortOk p
  | .triggerOutFire p => timingPortOk p
  | .tpEnable _ p _ => timingPortOk p
  | .hostLinkChange p _ => hostPortOk p
  | .hostAddressAnswer p _ => hostPortOk p
  | .fenenePacketDrop _ => true
  | .requestHold _ _ => true
  | .requestDuplicate _ _ => true
  | .sessionIdleTimeout _ => true
  | .hello _ => true
  | .sessionOpen _ _ _ _ _ => true
  | .sessionClose _ => true
  | .regRead _ _ => true
  | .regWrite _ _ _ _ => true
  | .regReadBlock _ _ _ => true
  | .regWriteBlock _ _ _ _ => true
  | .regModify _ _ _ _ _ => true
  | .portConfig _ _ _ _ _ _ _ _ => true
  | .channelConfig _ _ _ _ => true
  | .tribMap _ _ => true
  | .apsCommand _ _ _ _ => true
  | .deskewConfig _ _ _ _ => true
  | .huntControl _ _ _ _ => true
  | .captureArm _ _ => true
  | .captureStop _ _ => true
  | .captureReadout _ _ _ _ _ _ => true
  | .regionConfig _ _ _ _ _ _ _ _ _ => true
  | .patternLoad _ _ _ _ _ => true
  | .patternQueue _ _ _ _ _ _ => true
  | .injectError _ _ _ _ _ _ => true
  | .timeSet _ _ => true
  | .timeStep _ _ _ => true
  | .eventRead _ _ _ => true
  | .counterSnapshot _ _ _ => true
  | .fwStage _ _ _ _ _ _ => true
  | .fwActivate _ => true
  | .attest _ _ _ _ => true
  | .ledgerRead _ _ _ => true
  | .spareSubstitute _ _ _ _ => true
  | .tandemJoin _ _ _ => true
  | .tandemSplit _ => true
  | .gatehouseStatus _ => true
  | .failoverRequest _ => true
  | .registerWrite _ _ _ => true
  | .rcRegisterRead _ _ => true
  | .glbLockWrite _ _ => true
  | .engineEnable _ e _ => engineOk e
  | .engineDisable _ e _ => engineOk e
  | .engineReset _ e _ => engineOk e
  | .engineResetDone e => engineOk e
  | .clusterPowerDown _ c => clusterOk c
  | .clusterPowerUp _ c => clusterOk c
  | .heartbeat => true
  | .heartbeatMiss => true
  | .fatalError => true
  | .takeoverResume _ => true
  | .takeoverFail _ => true
  | .gatehouseAnswer _ _ => true
  | .checkpointWrite _ => true
  | .replacedResetEnd => true
  | .selfTestDone _ => true
  | .tandemLaneUp n => tandemLaneOk n
  | .tandemLaneDown n _ => tandemLaneOk n
  | .tandemHandshake _ _ _ _ => true
  | .joinTimeout => true
  | .splitHoldEnter => true
  | .forwardedReply _ _ => true
  | .tdmCfgWrite _ _ => true
  | .tdmXmemberWrite _ _ => true
  | .uidBurn _ _ => true
  | .ledgerBurnDone => true
  | .understudyStart k => engineOk k
  | .understudyPass k => engineOk k
  | .understudySkip k => engineOk k
  | .understudyMismatch k => engineOk k
  | .voteEnd k _ => engineOk k
  | .cutover old => engineOk old
  | .subTimeout old _ => engineOk old
  | .failoverPacketHold _ => true

end Sys2Proof
end

