-- ==== Sys2Proof/Machine/CmdOps.lean ====
section
/-! DEFINITION. What the commands share: how a command meets the device, and the few operations that belong to
one kind of command alone. -/

namespace Sys2Proof.Machine

/-! ## How a command meets the device -/

/-- A command acts on the device, and leaves the waiting commands alone: what the last command sent is gone
first; while the device is held in reset only its pins still act (R379, R381); and a command that names
what the device does not have stops the run. -/
def command (ok pin : Bool) (f : Dev → Dev) (s : State) : Host.Outcome State Fault Refusal :=
  if ok then
    let x := s.dev.on (fun d => { d with out := [] })
    .next { s with dev := if x.chip.inReset && !pin then x else f x }
  else .fault .noSuchResource

/-! ## Pins -/

/-- SIGNAL_CHANGE: while the device is held in reset the detector is off, and only the pin changes. -/
def Dev.laneSignal (s : Dev) (n : Nat) (trans : Bool) (freq : Int) : Dev :=
  if s.chip.inReset then s.on (fun d => d.setLane n { d.lane n with trans := trans, freq := freq })
  else s.on (fun d => d.signalChange n trans freq)

/-- MODULE_SIGNAL_CHANGE: while the device is held in reset no event is logged. -/
def Dev.moduleSignal (s : Dev) (k : Nat) (prs int : Bool) : Dev :=
  if s.chip.inReset then
    s.on (fun d => (d.sbit (R.LN_QUAD_MOD (cageIdx k)) 0 prs).sbit (R.LN_QUAD_MOD (cageIdx k)) 1 int)
  else s.on (fun d => d.moduleChange k prs int)

/-! ## Register accesses -/

/-- A host's register write: the answer is its status (R300-R303). -/
def Dev.writeAt (s : Dev) (sess addr : Nat) (w : Word) : Dev :=
  let x := s.regWrite sess 0x0011 addr w
  x.2.on (fun d => d.answer x.1)

/-- A host's register read: the answer is its status, and its value where it is OK. -/
def Dev.readAt (s : Dev) (sess addr : Nat) : Dev :=
  let x := s.chip.regRead sess addr
  ⟨x.2.answer x.1.1 (if x.1.1 = .ok then some x.1.2 else none), s.mem⟩

/-- The register of an SF or SD window, in the order of their addresses: WIN, SET and CLR of SF, then of SD. -/
def winReg (e k : Nat) : RegId :=
  match k with
  | 0 => R.DEF_SF_WIN e
  | 1 => R.DEF_SF_SET e
  | 2 => R.DEF_SF_CLR e
  | 3 => R.DEF_SD_WIN e
  | 4 => R.DEF_SD_SET e
  | _ => R.DEF_SD_CLR e

/-- The word of APS_CMD: CMD and CHAN. -/
def apsCmdWord (cmd chan : Nat) : Word := w32 (cmd + chan % 16 * 2 ^ 8)

/-! ## Expiries and completions -/

/-- A defect's set or clear time ends (R123); for an engine of the peer unit, the bridge reports its SF or SD
(R346). -/
def Chip.defectTimer (d : Chip) (path : Bool) (n b : Nat) (on : Bool) : Chip :=
  if path then (d.defExpire (.path n b) on).defSettle (.path n b)
  else if 136 ≤ n then d.remoteDefect n b on
  else (d.defExpire (.line n b) on).defSettle (.line n b)

/-- A frame of the selected stream of the group at `h` reaches the tap, its first octet stamped `start` (R154). -/
def Chip.tapStream (d : Chip) (h start : Nat) (l : List Byte) : Chip :=
  let f := d.engFmt h
  let raw := if d.rb (R.HNT_CFG h) 13 then l else scramble f 0 l 127
  ((List.zip raw l).zipIdx.foldl (fun (x : Chip) p =>
    x.tapOctet h 1 f p.2 p.1.1.toNat p.1.2.toNat (octStamp (d.lineRate h) start p.2) false false) d)

/-- RX_FRAME (R81, R188): the frame is processed, and a confirmed one enters the frame store of every engine that
carries its stream in through mode; a frame of the peer's engine comes over the bridge (R349). -/
def Chip.rxLine (d : Chip) (e : Nat) (fr : RxFrame) : Chip :=
  if 136 ≤ e then
    if d.joined && !d.splitHold then
      (d.hostsOf e).foldl (fun (x : Chip) h => x.tapStream h fr.start (lineOctets (d.engFmt h) fr.octets)) (d.thruPush e fr.octets)
    else d
  else
    let f := d.engFmt e
    let d1 := d.rxFrame e fr
    if d.engEn e ∧ d.head e = e ∧ isFramed f ∧ d.inFrame e then d1.thruPush e (lineOctets f fr.octets) else d1

/-- The boundary that a decided selector change waits for is reached (R153). -/
def Chip.selBoundary (d : Chip) (h : Nat) : Chip :=
  match (d.group h).next with
  | some t => d.applySel h t
  | none => d

/-- A frame of a path is written into the group's delay line: each path has half of it, as a ring (R148 step 1,
R150; log entry 76). -/
def Dev.delayWrite (s : Dev) (h path time : Nat) (l : List Byte) : Dev :=
  let d := s.chip
  let x := d.dsk h
  let half := d.rf (R.DSK_CFG h) 31 24 * 524288
  let slot := ceilDiv l.length 32 * 32
  let n := if path = 0 then x.nW else x.nP
  let at_ := d.rf (R.DSK_CFG h) 16 0 * 1048576 + path * half + n % max 1 (half / max 1 slot) * slot
  let y := { x with line := x.line.filter (fun (g : DFrame) => g.at_ ≠ at_) ++ [⟨path, time, at_, l.length⟩],
                    nW := if path = 0 then n + 1 else x.nW, nP := if path = 0 then x.nP else n + 1 }
  ⟨d.setDsk h y, s.mem.store at_ l⟩

/-- The frames of the selected path that are due at the output: half a frame period at least after the last one, so
that a change between aligned paths repeats and loses none (R153).  In LOCKED their octets are stamped with their
arrival on the lagging path (R154). -/
def Dev.deskewOut (s : Dev) (h : Nat) : Dev :=
  let x := s.chip.dsk h
  let onP := decide ((s.chip.group h).sel ≠ 0)
  let lag := if onP then x.lagP else x.lagW
  let f := s.chip.engFmt h
  let half := octStamp (s.chip.lineRate h) 0 (frameOctets f) / 2
  let locked := decide (s.chip.rf (R.DSK_STATUS h) 1 0 = 2)
  (x.line.filter (fun g => decide (g.path = b2n onP))).foldl (fun (y : Dev) g =>
    let z := y.chip.dsk h
    let at_ := g.time + lag
    if at_ ≤ y.chip.dt ∧ (z.out = 0 ∨ z.out + half < at_) then
      let l := y.mem.rdN g.at_ g.len
      let start := if locked then at_ - min x.lagW x.lagP else g.time
      y.on (fun d => ((d.setDsk h { z with out := at_ }).tapStream h start l).hitlessPush h l)
    else y) s

/-- The frame of a deskew path (R148-R154): into the delay line; its signature, CRC-32 over the octets of R148, to the
comparison; and what is due leaves on the selected stream. -/
def Dev.deskewFrame (s : Dev) (h path time : Nat) (octets : List Byte) : Dev :=
  let d := s.chip
  if (d.group h).st = .disabled ∨ d.apsHitless h = false then s else
  let f := d.engFmt h
  let l := lineOctets f octets
  ((s.delayWrite h path time l).on (fun d => d.dskFrame h path time (crc32 (sigOctets f l)))).deskewOut h

/-- Every running region tries its pending bales in SEQ order (R181, R222). -/
def Dev.settleLive (s : Dev) : Dev :=
  s.chip.rgns.foldl (fun (x : Dev) r => if r.2.live then x.settle r.1 else x) s

/-! ## Host ports (R261, R262) -/

/-- A host port's link comes up or goes down. -/
def Chip.linkChange (d : Chip) (p : Nat) (up : Bool) : Chip :=
  if ¬ d.host.ready ∨ d.hostPorts ≤ p ∨ d.host.link.contains p = up then d
  else if up then ({ d with host := { d.host with link := p :: d.host.link } }).flag R.HST_EVENT 0
  else ({ d with host := { d.host with link := d.host.link.filter (· ≠ p) } }).flag R.HST_EVENT 1

/-- The number of an address frame that is answered, or none for one that is not. -/
def HostFrame.answered : HostFrame → Option Nat
  | .arp => some 0
  | .neighbour => some 1
  | .echo4 => some 2
  | .echo6 => some 3
  | _ => none

/-- The device answers for its IPv4 address where the bundle gives one, and always for its IPv6 addresses. -/
def Chip.answers (d : Chip) (k : HostFrame) : Bool :=
  match k with
  | .arp | .echo4 => decide ((d.sec.flash.bundle.map (fun b => b.body.ipv4)).getD 0 ≠ 0)
  | _ => true

/-- A frame that is neither Fenene nor PTP: ARP, neighbour discovery and echo are answered, a pause frame is
ignored, every other frame is dropped and counted (R262). -/
def Chip.addressFrame (d : Chip) (p : Nat) (k : HostFrame) : Chip :=
  if ¬ d.host.ready ∨ d.hostPorts ≤ p then d
  else match HostFrame.answered k with
    | some n => if d.answers k then d.emit (.hostFrame p n) else d.count R.HST_FMT_DROP_CNT
    | none => if k = .pause then d else d.count R.HST_FMT_DROP_CNT

end Sys2Proof.Machine
end

