-- ==== Sys2Proof/Machine/CmdAccess.lean ====
section
/-! DEFINITION. The commands of register accesses, engines and clusters (chapter 12): the meaning of each. -/

namespace Sys2Proof.Machine

/-- REGISTER_WRITE (R303). A write to a register that has no row of its own is judged by the access, CD, OT
and lock rules and stored. -/
def execRegisterWrite (sess addr : Nat) (w : Word) (s : State) : Host.Outcome State Fault Refusal :=
  command true false (fun x => x.writeAt sess addr w) s

/-- RC_REGISTER_READ (R9). A read of an RC register returns its value and clears it, or sets a peak field to
its current value. -/
def execRcRegisterRead (sess addr : Nat) (s : State) : Host.Outcome State Fault Refusal :=
  command true false (fun x => x.readAt sess addr) s

/-- GLB_LOCK_WRITE (R312). A write to GLB_LOCK sets lock bits once, locking the named registers until system
reset. -/
def execGlbLockWrite (sess : Nat) (w : Word) (s : State) : Host.Outcome State Fault Refusal :=
  command true false (fun x => x.hostWrite sess R.GLB_LOCK w) s

/-- ENGINE_ENABLE (R313). A write setting ENG_CTRL.ENABLE runs the engine checks, starts the hunter in OOF and
re-checks owned contexts. -/
def execEngineEnable (sess e : Nat) (w : Word) (s : State) : Host.Outcome State Fault Refusal :=
  command (engineOk e) false (fun x => x.hostWrite sess (R.ENG_CTRL e) (setFld w 1 0 1)) s

/-- ENGINE_DISABLE (R313). A write clearing ENG_CTRL.ENABLE sends the hunter to IDLE, retracts, stops regions,
discards scripts and clears defects. -/
def execEngineDisable (sess e : Nat) (w : Word) (s : State) : Host.Outcome State Fault Refusal :=
  command (engineOk e) false (fun x => x.hostWrite sess (R.ENG_CTRL e) (setFld w 1 0 0)) s

/-- ENGINE_RESET (R385). ENG_CTRL.RESET disables and resets an engine, ending its understudy checks, or is
refused. -/
def execEngineReset (sess e : Nat) (w : Word) (s : State) : Host.Outcome State Fault Refusal :=
  command (engineOk e) false (fun x => x.hostWrite sess (R.ENG_CTRL e) (setFld w 1 1 1)) s

/-- ENGINE_RESET_DONE (R384). An engine's reset and self-test complete and it sets READY with registers at
reset values. -/
def execEngineResetDone (e : Nat) (s : State) : Host.Outcome State Fault Refusal :=
  command (engineOk e) false (fun x => x.on (fun d => d.engResetDone e)) s

/-- CLUSTER_POWER_DOWN (R316). Setting a CL_OFF bit fences and powers down a cluster, refused while it is in
use. -/
def execClusterPowerDown (sess c : Nat) (s : State) : Host.Outcome State Fault Refusal :=
  command (clusterOk c) false (fun x => x.hostWrite sess R.GLB_PWR_CTRL (setFld (x.chip.rd R.GLB_PWR_CTRL) c c 1)) s

/-- CLUSTER_POWER_UP (R316). Clearing a CL_OFF bit powers a cluster up, its engines then running their self-
tests. -/
def execClusterPowerUp (sess c : Nat) (s : State) : Host.Outcome State Fault Refusal :=
  command (clusterOk c) false (fun x => x.hostWrite sess R.GLB_PWR_CTRL (setFld (x.chip.rd R.GLB_PWR_CTRL) c c 0)) s

end Sys2Proof.Machine
end

