-- ==== Sys2Proof/Machine/CmdBridge.lean ====
section
/-! DEFINITION. The commands of tandem mode (chapter 14): the meaning of each. -/

namespace Sys2Proof.Machine

/-- TANDEM_LANE_UP (R337). A tandem lane completes 1 ms of clean training and comes up, changing the pair's
lane count. -/
def execTandemLaneUp (n : Nat) (s : State) : Host.Outcome State Fault Refusal :=
  command (tandemLaneOk n) false (fun x => x.on (fun d => d.tdmLaneUp n)) s

/-- TANDEM_LANE_DOWN (R337). A tandem lane goes down at LOS or after 16 failed link frames and retrains. -/
def execTandemLaneDown (n fails : Nat) (s : State) : Host.Outcome State Fault Refusal :=
  command (tandemLaneOk n) false (fun x => x.on (fun d => d.tdmLaneDown n fails)) s

/-- TANDEM_HANDSHAKE (R340). Two PENDING units with lead and follower roles and equal firmware exchange the
handshake and join. -/
def execTandemHandshake (unit fw : Nat) (follower : Bool) (minLanes : Nat)
    (s : State) : Host.Outcome State Fault Refusal :=
  command true false (fun x => x.on (fun d => d.tdmHandshake unit fw follower minLanes)) s

/-- JOIN_TIMEOUT (R340). A unit stays PENDING for 10 s and returns to ALONE. -/
def execJoinTimeout (s : State) : Host.Outcome State Fault Refusal :=
  command true false (fun x => x.joinTimeout) s

/-- SPLIT_HOLD_ENTER (R348). Fewer than MIN_LANES lanes have been up for SPLIT_DELAY and the unit enters split
hold, freezing cross-unit groups. -/
def execSplitHoldEnter (s : State) : Host.Outcome State Fault Refusal :=
  command true false (fun x => x.splitHoldEnter) s

/-- FORWARDED_REPLY (R343). The follower returns the reply to a forwarded request and the lead sends it at its
place in the session. -/
def execForwardedReply (n : Nat) (r : PeerReply) (s : State) : Host.Outcome State Fault Refusal :=
  command true false (fun x => x.forwarded n r) s

/-- TDM_CFG_WRITE (R354). A write to TDM_CFG is stored only while the tandem state is ALONE. -/
def execTdmCfgWrite (sess : Nat) (w : Word) (s : State) : Host.Outcome State Fault Refusal :=
  command true false (fun x => x.hostWrite sess R.TDM_CFG w) s

/-- TDM_XMEMBER_WRITE (R354). A write to TDM_XMEMBER is stored only while the groups named before and after
are both disabled. -/
def execTdmXmemberWrite (sess : Nat) (w : Word) (s : State) : Host.Outcome State Fault Refusal :=
  command true false (fun x => x.hostWrite sess R.TDM_XMEMBER w) s

end Sys2Proof.Machine
end

