-- ==== Sys2Proof/Machine/CmdCapture.lean ====
section
/-! DEFINITION. The commands of capture, triggers, regions and readout (chapters 7 and 11): the meaning of each. -/

namespace Sys2Proof.Machine

/-- STALL_PUSH (R156). The elastic buffer pushes a word into the Stall once it is not full or a pop frees a
slot. -/
def execStallPush (x : EbRead) (s : State) : Host.Outcome State Fault Refusal :=
  command (engineOk x.engine && decide (x.ecc < 3)) false (fun y => y.on (fun d => d.stallPush x.engine x.ecc)) s

/-- STALL_POP (R157). The capture writer pops a Stall word, checks its parity and sideband code, and packs it
into the sub-channel's bale. -/
def execStallPop (e : Nat) (flips : List Byte) (side : Nat) (s : State) : Host.Outcome State Fault Refusal :=
  command (engineOk e && decide (side < 3)) false (fun x => (x.on (fun d => d.stallPop e flips side)).settleLive) s

/-- LOSS_EPISODE_END (R159). The elastic buffer has 4 KiB free; the tap writes gap tokens and the writer
writes GAP bales. -/
def execLossEpisodeEnd (e : Nat) (s : State) : Host.Outcome State Fault Refusal :=
  command (engineOk e) false (fun x => x.on (fun d => d.lossEnd e)) s

/-- BALE_FLUSH_TIMEOUT (R160). A bale has been open for CAP_CFG.FLUSH µs and the writer closes it short. -/
def execBaleFlushTimeout (r : Nat) (s : State) : Host.Outcome State Fault Refusal :=
  command (regionOk r) false (fun x => (x.on (fun d => d.baleFlush r)).settle r) s

/-- BALE_WRITE_REPLY (R180). A bale write's reply returns; accepted bales join the held range in SEQ order,
and a refused one becomes a pending GAP bale. -/
def execBaleWriteReply (r seq : Nat) (ok : Bool) (s : State) : Host.Outcome State Fault Refusal :=
  command (regionOk r) false (fun x => x.baleReply r seq ok) s

/-- PENDING_BALE_RETRY (R222). Every 1 µs a pending GAP or marker bale is written again. -/
def execPendingBaleRetry (r : Nat) (s : State) : Host.Outcome State Fault Refusal :=
  command (regionOk r) false (fun x => x.settle r) s

/-- TERM_HOLD_EXPIRY (R172). An event term's HOLD time after its event ends and the term becomes false. -/
def execTermHoldExpiry (cb i : Nat) (s : State) : Host.Outcome State Fault Refusal :=
  command (engineOk cb && decide (i < 4)) false (fun x => x.on (fun d => d.termExpire cb i)) s

/-- GLOBAL_TRIGGER_LINE (R172). A firing driven on a global trigger line reaches every cluster 4 core cycles
later. -/
def execGlobalTriggerLine (n : Nat) (s : State) : Host.Outcome State Fault Refusal :=
  command (triggerLineOk n) false (fun x => x.on (fun d => d.globalLine n)) s

/-- COMBINER_ENABLE (R172). A write setting CAP_TRG_CFG.ENABLE clears FIRED and OCC and counts a true result
as an occurrence, or is refused with no terms. -/
def execCombinerEnable (sess e : Nat) (w : Word) (s : State) : Host.Outcome State Fault Refusal :=
  command (engineOk e) false (fun x => x.hostWrite sess (R.CAP_TRG_CFG e) (setFld w 0 0 1)) s

/-- HOST_TRIGGER (R171). CAP_TRG_CMD.HOST pulses host trigger sources with T at the write. -/
def execHostTrigger (sess e bits : Nat) (s : State) : Host.Outcome State Fault Refusal :=
  command (engineOk e) false (fun x => x.hostWrite sess (R.CAP_TRG_CMD e) (w32 (bits % 256))) s

/-- CLEAR_FIRED (R172). CAP_TRG_CMD.CLEAR_FIRED clears FIRED and OCC of the named combiner. -/
def execClearFired (sess e : Nat) (s : State) : Host.Outcome State Fault Refusal :=
  command (engineOk e) false (fun x => x.hostWrite sess (R.CAP_TRG_CMD e) (w32 256)) s

/-- TIME_COMPARE_ARM (R176). A write of CAP_TRG_TIME_HI arms a time compare, stores it unarmed, or is refused
as TOO_LATE. -/
def execTimeCompareArm (sess e : Nat) (w : Word) (s : State) : Host.Outcome State Fault Refusal :=
  command (engineOk e) false (fun x => x.hostWrite sess (R.CAP_TRG_TIME_HI e) w) s

/-- TIME_COMPARE_FIRE (R176). The synchronised Device Time reaches an armed compare value; it fires once and
disarms. -/
def execTimeCompareFire (k : Nat) (s : State) : Host.Outcome State Fault Refusal :=
  command (compareOk k) false (fun x => x.on (fun d => d.cmpFire k)) s

/-- REGION_ENABLE (R177). A write setting CAP_RGN_CFG.ENABLE runs the region checks and enables the region, or
refuses with CFG_ERR. -/
def execRegionEnable (sess e : Nat) (w : Word) (s : State) : Host.Outcome State Fault Refusal :=
  command (engineOk e) false (fun x => x.hostWrite sess (R.CAP_RGN_CFG e) (setFld w 0 0 1)) s

/-- REGION_DISABLE (R179). A write clearing CAP_RGN_CFG.ENABLE stops a running region and returns it to IDLE.
-/
def execRegionDisable (sess e : Nat) (w : Word) (s : State) : Host.Outcome State Fault Refusal :=
  command (engineOk e) false (fun x => x.hostWrite sess (R.CAP_RGN_CFG e) (setFld w 0 0 0)) s

/-- ARM (R178). CAP_RGN_CFG.ARM restarts SEQ at 0 and moves the region to PRE, ARMED or POST, discarding held
bales. -/
def execArm (sess e : Nat) (w : Word) (s : State) : Host.Outcome State Fault Refusal :=
  command (engineOk e) false (fun x => x.hostWrite sess (R.CAP_RGN_CFG e) (setFld w 1 1 1)) s

/-- STOP (R179). CAP_RGN_CFG.STOP closes the open bale, drains buffered bales and moves the region to STOPPED.
-/
def execStop (sess e : Nat) (w : Word) (s : State) : Host.Outcome State Fault Refusal :=
  command (engineOk e) false (fun x => x.hostWrite sess (R.CAP_RGN_CFG e) (setFld w 2 2 1)) s

/-- READOUT_ACK (R291). A readout acknowledgement arrives; listed bursts are resent, further bursts sent, and
the stream ends when CUM reaches BURSTS. -/
def execReadoutAck (a : Ack) (s : State) : Host.Outcome State Fault Refusal :=
  command true false (fun x => x.receive (.ack a)) s

/-- READOUT_RESEND_TIMEOUT (R291). CUM has not advanced for RO_TMO; the oldest unacknowledged burst is resent,
or the stream aborts after 100 resends. -/
def execReadoutResendTimeout (num : Nat) (s : State) : Host.Outcome State Fault Refusal :=
  command true false (fun x => x.resendTimeout num) s

end Sys2Proof.Machine
end

