-- ==== Sys2Proof/Machine/CmdClock.lean ====
section
/-! DEFINITION. The commands of Device Time, PTP and timing ports (chapter 10): the meaning of each. -/

namespace Sys2Proof.Machine

/-- PTP_MESSAGE_RX (R237). A PTP message arrives on the selected host port and is stamped at its start-of-
frame delimiter. -/
def execPtpMessageRx (m : PtpMsg) (s : State) : Host.Outcome State Fault Refusal :=
  command true false (fun x => x.on (fun d => d.ptpRx m)) s

/-- ANNOUNCE_RECEIPT_TIMEOUT (R237). The announce receipt timeout expires with no qualified master, and the
servo treats it as loss of source. -/
def execAnnounceReceiptTimeout (s : State) : Host.Outcome State Fault Refusal :=
  command true false (fun x => x.on (fun d => d.annExpire)) s

/-- PTP_MESSAGE_TX (R237). A PTP message interval timer expires and the time unit sends a Sync, Announce or
delay request. -/
def execPtpMessageTx (k : PtpTx) (s : State) : Host.Outcome State Fault Refusal :=
  command true false (fun x => x.on (fun d => d.ptpTx k)) s

/-- PPS_LOSS (R255). No PPS edge is reported within 1.1 s; PPS_OK clears and a selected source enters
holdover. -/
def execPpsLoss (p : Nat) (s : State) : Host.Outcome State Fault Refusal :=
  command (timingPortOk p) false (fun x => x.on (fun d => d.ppsLoss p)) s

/-- REF_10M_LOCK (R256). The time clock locks to a 10 MHz input and REF_10M_LOCK sets. -/
def execRef10mLock (p : Nat) (f : Int) (s : State) : Host.Outcome State Fault Refusal :=
  command (timingPortOk p) false (fun x => x.on (fun d => d.refLockTo p f)) s

/-- REF_LOSS (R256). A 10 MHz input shows no edge for 1 µs or leaves ±100 ppm; the time clock passes to the
held frequency. -/
def execRefLoss (p : Nat) (s : State) : Host.Outcome State Fault Refusal :=
  command (timingPortOk p) false (fun x => x.on (fun d => d.refLost p)) s

/-- STEP (R251). TIM_CTRL.STEP applies a signed step from TIM_STEP as a forward jump or a backward catch-up,
or is refused. -/
def execStep (sess : Nat) (s : State) : Host.Outcome State Fault Refusal :=
  command true false (fun x => x.hostWrite sess R.TIM_CTRL 1) s

/-- STEP_MEAS (R251). TIM_CTRL.STEP_MEAS steps Device Time by minus the pending offset, refused while no step
is pending. -/
def execStepMeas (sess : Nat) (s : State) : Host.Outcome State Fault Refusal :=
  command true false (fun x => x.hostWrite sess R.TIM_CTRL 2) s

/-- SET (R249). TIM_CTRL.SET loads TIM_SET into Device Time once while SET_DONE is 0, or replaces whole
seconds under a PPS source. -/
def execSet (sess : Nat) (s : State) : Host.Outcome State Fault Refusal :=
  command true false (fun x => x.hostWrite sess R.TIM_CTRL 4) s

/-- HOLD (R418). TIM_CTRL.HOLD forces the servo into HOLDOVER. -/
def execHold (sess : Nat) (s : State) : Host.Outcome State Fault Refusal :=
  command true false (fun x => x.hostWrite sess R.TIM_CTRL 8) s

/-- RELEASE (R418). TIM_CTRL.RELEASE ends a forced holdover, returning to TRACKING when no other cause
remains. -/
def execRelease (sess : Nat) (s : State) : Host.Outcome State Fault Refusal :=
  command true false (fun x => x.hostWrite sess R.TIM_CTRL 16) s

/-- CATCHUP_DONE (R251). A backward catch-up has run for twice the step and Device Time returns to its normal
rate. -/
def execCatchupDone (s : State) : Host.Outcome State Fault Refusal :=
  command true false (fun x => x.on (fun d => d.catchupDone)) s

/-- TIME_UNIT_ENABLE (R259). A write setting TIM_CFG.ENABLE runs the time unit checks and starts the PTP
engine and servo. -/
def execTimeUnitEnable (sess : Nat) (w : Word) (s : State) : Host.Outcome State Fault Refusal :=
  command true false (fun x => x.hostWrite sess R.TIM_CFG (setFld w 0 0 1)) s

/-- TIME_UNIT_DISABLE (R236). A write clearing TIM_CFG.ENABLE stops PTP and sends the servo from TRACKING to
HOLDOVER. -/
def execTimeUnitDisable (sess : Nat) (w : Word) (s : State) : Host.Outcome State Fault Refusal :=
  command true false (fun x => x.hostWrite sess R.TIM_CFG (setFld w 0 0 0)) s

/-- TP_EDGE (R254). An input edge on a timing port passes the glitch filter, re-arm and merge stages and is
reported with its stamp. -/
def execTpEdge (p frac width : Nat) (s : State) : Host.Outcome State Fault Refusal :=
  command (timingPortOk p) false (fun x => x.on (fun d => d.tpEdge p frac width)) s

/-- PPS_OUT_PULSE (R257). A whole second of Device Time plus TP_OUT_OFFSET is reached and a PPS-out port
raises its pulse. -/
def execPpsOutPulse (p : Nat) (s : State) : Host.Outcome State Fault Refusal :=
  command (timingPortOk p) false (fun x => x.on (fun d => d.ppsOut p)) s

/-- TRIGGER_OUT_ARM (R258). A write of TP_TIME_HI arms a trigger-out port, or is refused as TOO_LATE or
NOT_PERMITTED. -/
def execTriggerOutArm (sess p : Nat) (w : Word) (s : State) : Host.Outcome State Fault Refusal :=
  command (timingPortOk p) false (fun x => x.hostWrite sess (R.TP_TIME_HI p) (setFld w 31 31 1)) s

/-- TRIGGER_OUT_FIRE (R258). The armed time plus offset is reached and the port pulses, then disarms or moves
to its next period. -/
def execTriggerOutFire (p : Nat) (s : State) : Host.Outcome State Fault Refusal :=
  command (timingPortOk p) false (fun x => x.on (fun d => d.tpFire p)) s

/-- TP_ENABLE (R260). A write to TP_CFG.ENABLE enables a timing port, or disables it unless the time unit uses
it, disarming a trigger out. -/
def execTpEnable (sess p : Nat) (w : Word) (s : State) : Host.Outcome State Fault Refusal :=
  command (timingPortOk p) false (fun x => x.hostWrite sess (R.TP_CFG p) w) s

end Sys2Proof.Machine
end

