-- ==== Sys2Proof/Machine/CmdDefect.lean ====
section
/-! DEFINITION. The commands of defects and performance monitoring (chapter 6): the meaning of each. -/

namespace Sys2Proof.Machine

/-- DEFECT_SET_EXPIRY (R123). A defect's detection criterion has held for its set integration time and the
defect is declared, with its DEFECT event. -/
def execDefectSetExpiry (path : Bool) (n b : Nat) (s : State) : Host.Outcome State Fault Refusal :=
  command (defectOk path n) false (fun x => x.on (fun d => d.defectTimer path n b true)) s

/-- DEFECT_CLR_EXPIRY (R123). A defect's clearing criterion has held for its clear integration time and the
defect clears, with its DEFECT event. -/
def execDefectClrExpiry (path : Bool) (n b : Nat) (s : State) : Host.Outcome State Fault Refusal :=
  command (defectOk path n) false (fun x => x.on (fun d => d.defectTimer path n b false)) s

/-- INTEG_TIME_CONFIG (R124). A write to DEF_INTEG_LINE or DEF_INTEG_PATH is clamped and applied at once to
every running integration timer. -/
def execIntegTimeConfig (sess e : Nat) (path : Bool) (w : Word) (s : State) : Host.Outcome State Fault Refusal :=
  command (engineOk e) false (fun x =>
    x.hostWrite sess (if path then R.DEF_INTEG_PATH e else R.DEF_INTEG_LINE e) w) s

/-- BIP_WINDOW_END (R131). An SF or SD window of evaluated frames ends and the defect is declared or cleared
against SET, CLR and CLR_WINDOWS. -/
def execBipWindowEnd (e : Nat) (sd : Bool) (s : State) : Host.Outcome State Fault Refusal :=
  command (engineOk e) false (fun x => x.on (fun d => d.winEnd e sd)) s

/-- SF_SD_WINDOW_CONFIG (R131). A write to the SF or SD window registers changes WINDOW, thresholds or LAYER,
clearing a defect at once for WINDOW 0. -/
def execSfSdWindowConfig (sess e k : Nat) (w : Word) (s : State) : Host.Outcome State Fault Refusal :=
  command (engineOk e) false (fun x => x.hostWrite sess (winReg e k) w) s

/-- PM_SECOND_END (R135). A Device Time second ends and each layer's second is classified as errored, severely
errored or not evaluated. -/
def execPmSecondEnd (e : Nat) (s : State) : Host.Outcome State Fault Refusal :=
  command (engineOk e) false (fun x => x.on (fun d => d.secondEnd e)) s

/-- PM_SECOND_COUNTED (R137). Ten seconds after a second ends, its availability is known and it is counted
finally in ES, SES, BBE or UAS. -/
def execPmSecondCounted (e : Nat) (s : State) : Host.Outcome State Fault Refusal :=
  command (engineOk e) false (fun x => x.on (fun d => d.secondCounted e)) s

end Sys2Proof.Machine
end

