-- ==== Sys2Proof/Machine/CmdFailover.lean ====
section
/-! DEFINITION. The commands of the Pavilion and the Gatehouse (chapter 13): the meaning of each. -/

namespace Sys2Proof.Machine

/-- HEARTBEAT (R321). The active processor toggles its heartbeat line every 100 µs. -/
def execHeartbeat (s : State) : Host.Outcome State Fault Refusal :=
  command true false (fun x => x.on (fun d => d.heartbeat)) s

/-- HEARTBEAT_MISS (R321). No heartbeat toggle for HB_MISS periods and the Gatehouse declares a failure. -/
def execHeartbeatMiss (s : State) : Host.Outcome State Fault Refusal :=
  command true false (fun x => x.heartbeatMiss) s

/-- FATAL_ERROR (R321). The active processor raises its fatal-error line and the Gatehouse declares a failure.
-/
def execFatalError (s : State) : Host.Outcome State Fault Refusal :=
  command true false (fun x => x.fatalError) s

/-- TAKEOVER_RESUME (R322). The new processor has loaded a checkpoint and replayed the journal, and resumes,
releasing held replies and packets. -/
def execTakeoverResume (t : TakeIn) (s : State) : Host.Outcome State Fault Refusal :=
  command true false (fun x => x.takeover t) s

/-- TAKEOVER_FAIL (R323). The takeover fails or has not resumed 50,000 Gatehouse cycles after the declaration.
-/
def execTakeoverFail (fault : Bool) (s : State) : Host.Outcome State Fault Refusal :=
  command true false (fun x => x.takeoverFail fault) s

/-- GATEHOUSE_ANSWER (R331). In a gap or in hold the Gatehouse answers a request in clear with GATEHOUSE set.
-/
def execGatehouseAnswer (h : Hdr) (r : Req) (s : State) : Host.Outcome State Fault Refusal :=
  command true false (fun x => x.request h r) s

/-- CHECKPOINT_WRITE (R320). After ENTRIES applied entries or INTERVAL ms, the active processor writes and
seals a checkpoint in the older slot. -/
def execCheckpointWrite (fail : Bool) (s : State) : Host.Outcome State Fault Refusal :=
  command true false (fun x => x.on (fun d => d.checkpoint fail)) s

/-- REPLACED_RESET_END (R329). The failed processor's 40 µs reset ends and its self-test begins. -/
def execReplacedResetEnd (s : State) : Host.Outcome State Fault Refusal :=
  command true false (fun x => x.on (fun d => d.replacedReset)) s

/-- SELF_TEST_DONE (R329). The replaced processor's self-test ends; it becomes the verified cold standby or is
retired. -/
def execSelfTestDone (pass : Bool) (s : State) : Host.Outcome State Fault Refusal :=
  command true false (fun x => x.on (fun d => d.selfTestDone pass)) s

/-- FAILOVER_PACKET_HOLD (R324). A host packet other than PTP that arrives during a failover gap is held in
arrival order, up to 256, and later ones are dropped and counted in GTH_DROP_CNT. -/
def execFailoverPacketHold (p : Packet) (s : State) : Host.Outcome State Fault Refusal :=
  command true false (fun x => x.receive p) s

end Sys2Proof.Machine
end

