-- ==== Sys2Proof/Machine/CmdHost.lean ====
section
/-! DEFINITION. The commands of the host port and the handling of packets (chapter 11): the meaning of each. -/

namespace Sys2Proof.Machine

/-- HOST_LINK_CHANGE (R261). A host port's link comes up or goes down. -/
def execHostLinkChange (p : Nat) (up : Bool) (s : State) : Host.Outcome State Fault Refusal :=
  command (hostPortOk p) false (fun x => x.on (fun d => d.linkChange p up)) s

/-- HOST_ADDRESS_ANSWER (R262). The host port answers an ARP, neighbour discovery or echo request, and drops
other non-Fenene frames. -/
def execHostAddressAnswer (p : Nat) (k : HostFrame) (s : State) : Host.Outcome State Fault Refusal :=
  command (hostPortOk p) false (fun x => x.on (fun d => d.addressFrame p k)) s

/-- FENENE_PACKET_DROP (R269). A Fenene packet that fails its format, unit, session, tag or sequence check is
dropped and counted. -/
def execFenenePacketDrop (p : Packet) (s : State) : Host.Outcome State Fault Refusal :=
  command true false (fun x => x.receive p) s

/-- REQUEST_HOLD (R276). A request with a sequence number ahead of E is held until every lower number has been
executed. -/
def execRequestHold (h : Hdr) (r : Req) (s : State) : Host.Outcome State Fault Refusal :=
  command true false (fun x => x.request h r) s

/-- REQUEST_DUPLICATE (R276). A request already executed is answered by resending its cached reply, without
executing it again. -/
def execRequestDuplicate (h : Hdr) (r : Req) (s : State) : Host.Outcome State Fault Refusal :=
  command true false (fun x => x.request h r) s

/-- SESSION_IDLE_TIMEOUT (R273). No valid request has arrived for SESS_IDLE seconds and the session closes. -/
def execSessionIdleTimeout (n : Nat) (s : State) : Host.Outcome State Fault Refusal :=
  command true false (fun x => x.on (fun d => d.sessionIdle n)) s

end Sys2Proof.Machine
end

