-- ==== Sys2Proof/Machine/CmdHunter.lean ====
section
/-! DEFINITION. The commands of frame hunting (chapter 3): the meaning of each. -/

namespace Sys2Proof.Machine

/-- LINE_WORD (R46). Lane `n` delivers a stamped word to every engine bound to it, and each hunter tests every
alignment, checks candidates and may declare a state. -/
def execLineWord (n : Nat) (w : Word) (stamp : Nat) (poison : Bool)
    (s : State) : Host.Outcome State Fault Refusal :=
  command (laneOk n) false (fun x => x.on (fun d => d.lineWord n w.toNat stamp poison)) s

/-- LOF_SET_EXPIRY (R63). OOF has lasted the LOF set time and the hunter declares LOF. -/
def execLofSetExpiry (e : Nat) (s : State) : Host.Outcome State Fault Refusal :=
  command (engineOk e) false (fun x => x.on (fun d => d.lofSet e)) s

/-- LOF_CLR_EXPIRY (R63). IN_FRAME has lasted the LOF clear time and the hunter clears LOF. -/
def execLofClrExpiry (e : Nat) (s : State) : Host.Outcome State Fault Refusal :=
  command (engineOk e) false (fun x => x.on (fun d => d.lofClr e)) s

/-- LOF_TIMER_CONFIG (R63). A write to HNT_LOF is clamped and applied at once to a running LOF timer. -/
def execLofTimerConfig (sess e : Nat) (w : Word) (s : State) : Host.Outcome State Fault Refusal :=
  command (engineOk e) false (fun x => x.hostWrite sess (R.HNT_LOF e) w) s

/-- REHUNT (R60). HNT_CTRL.REHUNT returns the hunter to OOF with an empty table, retracting the lead's
tentative bales. -/
def execRehunt (sess e : Nat) (s : State) : Host.Outcome State Fault Refusal :=
  command (engineOk e) false (fun x => x.hostWrite sess (R.HNT_CTRL e) 1) s

/-- FORCE (R60). HNT_CTRL.FORCE names a live candidate, drops the others and declares IN_FRAME at its next
matching window, or is rejected. -/
def execForce (sess e idx : Nat) (s : State) : Host.Outcome State Fault Refusal :=
  command (engineOk e) false (fun x => x.hostWrite sess (R.HNT_CTRL e) (w32 (2 + idx % 64 * 2 ^ 8))) s

/-- SNAP (R79). HNT_CTRL.SNAP copies the live candidate table to HNT_CAND0–63 in one core cycle. -/
def execSnap (sess e : Nat) (s : State) : Host.Outcome State Fault Refusal :=
  command (engineOk e) false (fun x => x.hostWrite sess (R.HNT_CTRL e) 4) s

end Sys2Proof.Machine
end

