-- ==== Sys2Proof/Machine/CmdLane.lean ====
section
/-! DEFINITION. The commands of line lanes and module management (chapter 2): the meaning of each. -/

namespace Sys2Proof.Machine

/-- LANE_ENABLE (R32). A write setting LN_CTRL.ENABLE runs the lane configuration and readiness checks, then
starts the receiver with LOS clear. -/
def execLaneEnable (sess n : Nat) (w : Word) (s : State) : Host.Outcome State Fault Refusal :=
  command (laneOk n) false (fun x => x.hostWrite sess (R.LN_CTRL n) (setFld w 0 0 1)) s

/-- LANE_DISABLE (R417). A write clearing LN_CTRL.ENABLE stops the receiver quietly and sends the lock-loss
mark to every bound engine. -/
def execLaneDisable (sess n : Nat) (w : Word) (s : State) : Host.Outcome State Fault Refusal :=
  command (laneOk n) false (fun x => x.hostWrite sess (R.LN_CTRL n) (setFld w 0 0 0)) s

/-- RECAL (R39). A write of LN_CTRL.RECAL on a disabled lane clears READY and queues a recalibration pass in
the group's calibrator. -/
def execRecal (sess n : Nat) (w : Word) (s : State) : Host.Outcome State Fault Refusal :=
  command (laneOk n) false (fun x => x.hostWrite sess (R.LN_CTRL n) (setFld w 2 2 1)) s

/-- LANE_CALIBRATION_DONE (R37). A calibration pass completes and the lane sets READY; a queued request in the
same group starts next. -/
def execLaneCalibrationDone (g : Nat) (s : State) : Host.Outcome State Fault Refusal :=
  command (calGroupOk g) false (fun x => x.on (fun d => d.calDone g)) s

/-- SIGNAL_CHANGE (R40). The raw signal condition on a lane changes between present and absent, restarting the
LOS timers and counting flaps. -/
def execSignalChange (n : Nat) (trans : Bool) (freq : Int) (s : State) : Host.Outcome State Fault Refusal :=
  command (laneOk n) true (fun x => x.laneSignal n trans freq) s

/-- LOS_SET_EXPIRY (R40). The signal has been absent for the LOS set time; the lane declares LOS and a loop or
through transmit clock enters holdover. -/
def execLosSetExpiry (n : Nat) (s : State) : Host.Outcome State Fault Refusal :=
  command (laneOk n) false (fun x => x.on (fun d => d.losSet n)) s

/-- LOS_CLR_EXPIRY (R40). The signal has been present for the LOS clear time; the lane clears LOS and a held
transmit clock starts to slew back. -/
def execLosClrExpiry (n : Nat) (s : State) : Host.Outcome State Fault Refusal :=
  command (laneOk n) false (fun x => x.on (fun d => d.losClr n)) s

/-- CDR_LOCK (R43). Clock recovery locks and words flow again, the first carrying a resynchronisation mark. -/
def execCdrLock (n : Nat) (s : State) : Host.Outcome State Fault Refusal :=
  command (laneOk n) false (fun x => x.on (fun d => d.cdrLock n)) s

/-- LOCK_LOSS (R43). Clock recovery loses lock; the lane stops delivering words, logs LOCK_LOSS and sends a
lock-loss mark to every bound engine. -/
def execLockLoss (n : Nat) (s : State) : Host.Outcome State Fault Refusal :=
  command (laneOk n) false (fun x => x.on (fun d => d.lockLoss n)) s

/-- TXCLK_SLEW_DONE (R35). The transmit frequency comes within ±0.01 ppm of its restored source and TXCLK_HOLD
clears. -/
def execTxclkSlewDone (n : Nat) (s : State) : Host.Outcome State Fault Refusal :=
  command (laneOk n) false (fun x => x.on (fun d => d.slewDone n)) s

/-- LOS_TIMER_CONFIG (R41). A write to LN_LOS_SET or LN_LOS_CLR is clamped and applied at once to a running
timer, counted from that timer's start. -/
def execLosTimerConfig (sess n : Nat) (clr : Bool) (w : Word) (s : State) : Host.Outcome State Fault Refusal :=
  command (laneOk n) false (fun x => x.hostWrite sess (if clr then R.LN_LOS_CLR n else R.LN_LOS_SET n) w) s

/-- MODULE_SIGNAL_CHANGE (R49). A change of a cage's ModPrsL or IntL survives the 10 ms filter and logs a
MODULE event. -/
def execModuleSignalChange (k : Nat) (prs int : Bool) (s : State) : Host.Outcome State Fault Refusal :=
  command (cageOk k) true (fun x => x.moduleSignal k prs int) s

/-- MMB_GO (R50). A write of LN_MMB_CMD with GO starts a module-management bus transaction, or is refused
while BUSY or with no module present. -/
def execMmbGo (sess k : Nat) (w : Word) (s : State) : Host.Outcome State Fault Refusal :=
  command (cageOk k) false (fun x => x.hostWrite sess (R.LN_MMB_CMD (cageIdx k)) (setFld w 31 31 1)) s

/-- MMB_DONE (R50). A bus transaction ends by completion, NACK, stuck bus or module removal, and sets DONE
with its status and byte count. -/
def execMmbDone (k : Nat) (how : MmbEnd) (n : Nat) (data : List Byte)
    (s : State) : Host.Outcome State Fault Refusal :=
  command (cageOk k) false (fun x =>
    x.on (fun d => if how = .timeout then d.mmbStretch k n data else d.mmbEnd k how n data)) s

/-- MMB_STRETCH_TIMEOUT (R50). The module stretches the clock beyond the stretch limit; the master sends STOP
and ends the transaction with TIMEOUT. -/
def execMmbStretchTimeout (k n : Nat) (data : List Byte) (s : State) : Host.Outcome State Fault Refusal :=
  command (cageOk k) false (fun x => x.on (fun d => d.mmbStretch k n data)) s

end Sys2Proof.Machine
end

