-- ==== Sys2Proof/Machine/CmdMapper.lean ====
section
/-! DEFINITION. The commands of tributary contexts and pointers (chapter 5): the meaning of each. -/

namespace Sys2Proof.Machine

/-- CONTEXT_ENABLE (R100). A write setting TRB_CFG.ENABLE runs the type, placement and allotment checks, and
enables the context or refuses with CFG_ERR. -/
def execContextEnable (sess t : Nat) (w : Word) (s : State) : Host.Outcome State Fault Refusal :=
  command (contextOk t) false (fun x => x.hostWrite sess (R.TRB_CFG t) (setFld w 0 0 1)) s

/-- CONTEXT_DISABLE (R103). A write clearing TRB_CFG.ENABLE disables the context, stops its scripts and
retracts its tentative bales, or is refused while children are enabled. -/
def execContextDisable (sess t : Nat) (w : Word) (s : State) : Host.Outcome State Fault Refusal :=
  command (contextOk t) false (fun x => x.hostWrite sess (R.TRB_CFG t) (setFld w 0 0 0)) s

/-- SEQ_GO (R112). MAP_CTRL.SEQ_GO starts a context's pointer sequence program at its next pointer period, or
is refused. -/
def execSeqGo (sess e t : Nat) (s : State) : Host.Outcome State Fault Refusal :=
  command (engineOk e) false (fun x => x.hostWrite sess (R.MAP_CTRL e) (w32 (t % 16384 + 2 ^ 14))) s

/-- SEQ_STOP (R112). MAP_CTRL.SEQ_STOP ends a running program after the current pointer period and sets
SEQ_ABORT. -/
def execSeqStop (sess e t : Nat) (s : State) : Host.Outcome State Fault Refusal :=
  command (engineOk e) false (fun x => x.hostWrite sess (R.MAP_CTRL e) (w32 (t % 16384 + 2 ^ 15))) s

/-- POINTER_PERIOD_START (R113). A transmit pointer period starts and the generator chooses AIS, a script
edit, a program step or its base mode, justifying or recentring its store. -/
def execPointerPeriodStart (t : Nat) (u : TxUnit) (s : State) : Host.Outcome State Fault Refusal :=
  command (contextOk t) false (fun x => x.ptrStart t u) s

end Sys2Proof.Machine
end

