-- ==== Sys2Proof/Machine/CmdOverhead.lean ====
section
/-! DEFINITION. The commands of overhead processing (chapter 4): the meaning of each. -/

namespace Sys2Proof.Machine

/-- RX_FRAME (R81). A confirmed received frame is processed whole: overhead extraction, BIP and REI counts,
trace, APS and label persistence, and defect criteria. -/
def execRxFrame (e : Nat) (fr : RxFrame) (s : State) : Host.Outcome State Fault Refusal :=
  command (pairEngineOk e) false (fun x => x.on (fun d => d.rxLine e fr)) s

/-- TX_FRAME_START (R94). A transmit frame starts and each byte is chosen by AIS, script edit, override or
default, with commits, consequent actions and edits applied. -/
def execTxFrameStart (e : Nat) (fr : TxFrame) (s : State) : Host.Outcome State Fault Refusal :=
  command (engineOk e) false (fun x => x.txFrame e fr) s

/-- OHP_COMMIT (R93). A write of OHP_CTRL.COMMIT marks every staged overhead entry to be applied at the next
transmit frame start. -/
def execOhpCommit (sess e : Nat) (s : State) : Host.Outcome State Fault Refusal :=
  command (engineOk e) false (fun x => x.hostWrite sess (R.OHP_CTRL e) 1) s

/-- TTI_IDX_WRITE (R96). A write to OHP_TTI_IDX copies the selected trace buffer into OHP_TTI_DATA0–15, or is
refused with IDX_ERR. -/
def execTtiIdxWrite (sess e : Nat) (w : Word) (s : State) : Host.Outcome State Fault Refusal :=
  command (engineOk e) false (fun x => x.hostWrite sess (R.OHP_TTI_IDX e) w) s

/-- TTI_STORE (R96). OHP_TTI_CMD.STORE copies the data registers into the selected expected or transmit
buffer. -/
def execTtiStore (sess e : Nat) (s : State) : Host.Outcome State Fault Refusal :=
  command (engineOk e) false (fun x => x.hostWrite sess (R.OHP_TTI_CMD e) 1) s

/-- TTI_FMT_WRITE (R89). A write to a trace slot's FMT clears ACC_VALID and restarts the persistence run. -/
def execTtiFmtWrite (sess e : Nat) (w : Word) (s : State) : Host.Outcome State Fault Refusal :=
  command (engineOk e) false (fun x => x.hostWrite sess (R.OHP_TTI_SLOT e) w) s

end Sys2Proof.Machine
end

