-- ==== Sys2Proof/Machine/CmdPattern.lean ====
section
/-! DEFINITION. The commands of pattern regions, launches and injection (chapter 8): the meaning of each. -/

namespace Sys2Proof.Machine

/-- PATTERN_REGION_ENABLE (R189). A write setting PAT_RGN_CFG.ENABLE runs the pattern region checks and
enables it, or refuses with CFG_ERR. -/
def execPatternRegionEnable (sess e : Nat) (w : Word) (s : State) : Host.Outcome State Fault Refusal :=
  command (engineOk e) false (fun x => x.hostWrite sess (R.PAT_RGN_CFG e) (setFld w 0 0 1)) s

/-- PATTERN_REGION_DISABLE (R190). A write clearing PAT_RGN_CFG.ENABLE disables a pattern region, or is
refused while it is IN_USE. -/
def execPatternRegionDisable (sess e : Nat) (w : Word) (s : State) : Host.Outcome State Fault Refusal :=
  command (engineOk e) false (fun x => x.hostWrite sess (R.PAT_RGN_CFG e) (setFld w 0 0 0)) s

/-- PUSH (R196). PAT_Q_TIME_HI with PUSH pushes a queue entry for a sub-channel, or refuses it with the status
of its failed check. -/
def execPush (sess e : Nat) (w : Word) (s : State) : Host.Outcome State Fault Refusal :=
  command (engineOk e) false (fun x => x.hostWrite sess (R.PAT_Q_TIME_HI e) (setFld w 31 31 1)) s

/-- FLUSH (R197). PAT_CTRL.FLUSH discards every entry of the named sub-channel that has not launched. -/
def execFlush (sess e sub : Nat) (s : State) : Host.Outcome State Fault Refusal :=
  command (engineOk e) false (fun x => x.hostWrite sess (R.PAT_CTRL e) (w32 (sub % 2 ^ 16 + 2 ^ 16))) s

/-- ABORT (R197). PAT_CTRL.ABORT discards the sub-channel's entries and stops its running script at its next
frame start. -/
def execAbort (sess e sub : Nat) (s : State) : Host.Outcome State Fault Refusal :=
  command (engineOk e) false (fun x => x.hostWrite sess (R.PAT_CTRL e) (w32 (sub % 2 ^ 16 + 2 ^ 17))) s

/-- INJ_STOP (R203). PAT_CTRL.INJ_STOP ends the running injection after the current frame. -/
def execInjStop (sess e : Nat) (s : State) : Host.Outcome State Fault Refusal :=
  command (engineOk e) false (fun x => x.hostWrite sess (R.PAT_CTRL e) (w32 (2 ^ 18))) s

/-- ENTRY_READY (R201). The prefetch of a queue entry's first segment and edits completes and the entry
becomes ready. -/
def execEntryReady (e sub : Nat) (s : State) : Host.Outcome State Fault Refusal :=
  command (engineOk e) false (fun x => x.on (fun d => d.entryReady e sub)) s

/-- SCRIPT_LAUNCH (R198). A launch point is reached for a ready entry or timed segment; it starts, cutting
earlier material, and logs LAUNCH. -/
def execScriptLaunch (e sub t sent : Nat) (s : State) : Host.Outcome State Fault Refusal :=
  command (engineOk e) false (fun x => x.scriptLaunch e sub t sent) s

/-- PATTERN_READ_REPLY (R205). A pattern read returns to the prefetch buffer, with poisoned body, header or
edit blocks handled as laid down. -/
def execPatternReadReply (e sub a n : Nat) (ces ues : List Nat) (s : State) : Host.Outcome State Fault Refusal :=
  command (engineOk e) false (fun x => x.patRead e sub a n ces ues) s

/-- INJECT_ARM (R203). PAT_INJ_CFG.ARM arms an injection of one edit record over COUNT frames, or is refused.
-/
def execInjectArm (sess e : Nat) (w : Word) (s : State) : Host.Outcome State Fault Refusal :=
  command (engineOk e) false (fun x => x.hostWrite sess (R.PAT_INJ_CFG e) (setFld w 6 6 1)) s

end Sys2Proof.Machine
end

