-- ==== Sys2Proof/Machine/CmdPower.lean ====
section
/-! DEFINITION. The commands of power, reset, temperature and bring-up (chapter 16): the meaning of each. -/

namespace Sys2Proof.Machine

/-- POWER_GOOD_CHANGE (R378). A supply rail crosses its range or a regulator changes state, so PWR_GOOD rises
or falls; a fall holds the device in system reset. -/
def execPowerGoodChange (vinL vinH regOk : Bool) (s : State) : Host.Outcome State Fault Refusal :=
  command true true (fun x => x.powerGood vinL vinH regOk) s

/-- NRESET_CHANGE (R379). nRESET goes low for at least 1 µs, or returns high; low holds the device in system
reset and release with PWR_GOOD high is t0. -/
def execNresetChange (high : Bool) (low : Nat) (s : State) : Host.Outcome State Fault Refusal :=
  command true true (fun x => x.nResetChange high low) s

/-- BROWN_OUT (R380). A rail stays below its brown-out level for 2 µs and starts a system reset with cause
0x1. -/
def execBrownOut (high : Bool) (s : State) : Host.Outcome State Fault Refusal :=
  command true true (fun x => x.brownOut high) s

/-- RAIL_MEASUREMENT (R396). The 1 ms rail and power measurement updates GLB_VIN_L, GLB_VIN_H and GLB_POWER
and sets RAIL and fault cause [2] for a rail out of range. -/
def execRailMeasurement (mvL aL mvH aH power : Nat) (s : State) : Host.Outcome State Fault Refusal :=
  command true false (fun x => x.on (fun d => d.railRead mvL aL mvH aH power)) s

/-- TEMP_READING (R395). The 1 ms reading of the 24 junction sensors updates GLB_TEMP, acts on WARN and CRIT,
and starts or ends thermal shutdown. -/
def execTempReading (tj : Int) (s : State) : Host.Outcome State Fault Refusal :=
  command true true (fun x => x.tempRead tj) s

/-- BLOCK_READY (R382). A block completes its bring-up after the block it depends on is ready, and sets its
READY bit. -/
def execBlockReady (b : BootBlk) (s : State) : Host.Outcome State Fault Refusal :=
  command (bootBlkOk b) false (fun x => x.on (fun d => d.blockReady b)) s

/-- PAVILION_BOOT (R359). The boot ROM of the active processor checks its own slot, repairs it from the other
slot if needed, or leaves the Gatehouse holding when both slots fail. -/
def execPavilionBoot (b : BootIn) (s : State) : Host.Outcome State Fault Refusal :=
  command true false (fun x => x.pavBoot b) s

end Sys2Proof.Machine
end

