-- ==== Sys2Proof/Machine/CmdProtect.lean ====
section
/-! DEFINITION. The commands of protection groups and deskew (chapter 6): the meaning of each. -/

namespace Sys2Proof.Machine

/-- APS_GROUP_ENABLE (R139). A write setting APS_CFG.ENABLE runs the group checks and enters NR, or refuses
with CFG_ERR. -/
def execApsGroupEnable (sess h : Nat) (w : Word) (s : State) : Host.Outcome State Fault Refusal :=
  command (engineOk h) false (fun x => x.hostWrite sess (R.APS_CFG h) (setFld w 0 0 1)) s

/-- APS_GROUP_DISABLE (R145). A write clearing APS_CFG.ENABLE sends the group to DISABLED and moves the
selector to working at the next frame boundary. -/
def execApsGroupDisable (sess h : Nat) (w : Word) (s : State) : Host.Outcome State Fault Refusal :=
  command (engineOk h) false (fun x => x.hostWrite sess (R.APS_CFG h) (setFld w 0 0 0)) s

/-- APS_MEMBER_WRITE (R139). A write to APS_MEMBER is stored only while the groups named before and after are
both disabled. -/
def execApsMemberWrite (sess h : Nat) (w : Word) (s : State) : Host.Outcome State Fault Refusal :=
  command (engineOk h) false (fun x => x.hostWrite sess (R.APS_MEMBER h) w) s

/-- LOCKOUT (R144). APS_CMD LOCKOUT stores a lockout of protection, replacing any stored command. -/
def execLockout (sess h chan : Nat) (s : State) : Host.Outcome State Fault Refusal :=
  command (engineOk h) false (fun x => x.hostWrite sess (R.APS_CMD h) (apsCmdWord 1 chan)) s

/-- FORCE_SWITCH (R144). APS_CMD FORCE stores a forced switch for a channel unless LO or SF-P is present. -/
def execForceSwitch (sess h chan : Nat) (s : State) : Host.Outcome State Fault Refusal :=
  command (engineOk h) false (fun x => x.hostWrite sess (R.APS_CMD h) (apsCmdWord 2 chan)) s

/-- MANUAL (R144). APS_CMD MANUAL stores a manual switch for a channel when it ranks above the top request. -/
def execManual (sess h chan : Nat) (s : State) : Host.Outcome State Fault Refusal :=
  command (engineOk h) false (fun x => x.hostWrite sess (R.APS_CMD h) (apsCmdWord 3 chan)) s

/-- EXERCISE (R144). APS_CMD EXERCISE stores an exercise for a channel when it ranks above the top request. -/
def execExercise (sess h chan : Nat) (s : State) : Host.Outcome State Fault Refusal :=
  command (engineOk h) false (fun x => x.hostWrite sess (R.APS_CMD h) (apsCmdWord 4 chan)) s

/-- CLEAR (R144). APS_CMD CLEAR removes the stored command. -/
def execClear (sess h chan : Nat) (s : State) : Host.Outcome State Fault Refusal :=
  command (engineOk h) false (fun x => x.hostWrite sess (R.APS_CMD h) (apsCmdWord 0 chan)) s

/-- HOLDOFF_EXPIRY (R143). A channel's hold-off timer expires and its SF or SD request is raised if the defect
is still declared. -/
def execHoldoffExpiry (h chan : Nat) (s : State) : Host.Outcome State Fault Refusal :=
  command (engineOk h) false (fun x => x.on (fun d => d.holdExpire h chan)) s

/-- WTR_EXPIRY (R145). The wait-to-restore timer expires and the group returns to NR with the selector on
working. -/
def execWtrExpiry (h : Nat) (s : State) : Host.Outcome State Fault Refusal :=
  command (engineOk h) false (fun x => x.on (fun d => d.wtrExpire h)) s

/-- FOP_DECLARE (R146). Transmitted and received bridged channels have differed for 50 ms and the group
declares failure of protocol. -/
def execFopDeclare (h : Nat) (s : State) : Host.Outcome State Fault Refusal :=
  command (engineOk h) false (fun x => x.on (fun d => d.fopExpire h)) s

/-- SELECTOR_CHANGE (R153). A decided selector change takes effect at the next aligned output frame boundary,
or unaligned, beginning a new bale. -/
def execSelectorChange (h : Nat) (s : State) : Host.Outcome State Fault Refusal :=
  command (engineOk h) false (fun x => x.on (fun d => d.selBoundary h)) s

/-- DESKEW_FRAME (R151). For each frame the deskew engine compares CRC signatures of both paths, moves the
non-selected delay and may lock or leave LOCKED. -/
def execDeskewFrame (h path time : Nat) (octets : List Byte) (s : State) : Host.Outcome State Fault Refusal :=
  command (engineOk h) false (fun x => x.deskewFrame h path time octets) s

/-- DESKEW_NO_MATCH (R148). No frame offset within 16 ms matches and the deskew state becomes NO_MATCH. -/
def execDeskewNoMatch (h : Nat) (s : State) : Host.Outcome State Fault Refusal :=
  command (engineOk h) false (fun x => x.on (fun d => d.dskNoMatch h)) s

/-- REBASE_DONE (R152). The selected path's delay has grown to align with the lagging path and aligned output
resumes. -/
def execRebaseDone (h : Nat) (s : State) : Host.Outcome State Fault Refusal :=
  command (engineOk h) false (fun x => x.on (fun d => d.rebaseDone h)) s

end Sys2Proof.Machine
end

