-- ==== Sys2Proof/Machine/CmdRepair.lean ====
section
/-! DEFINITION. The commands of the service master, the repair ledger and the unit ID (chapters 15 and 16): the meaning of each. -/

namespace Sys2Proof.Machine

/-- UID_BURN (R366). LED_UID_CMD with BURN changes the fused unit ID to NEW_ID, or is refused. -/
def execUidBurn (sess newId : Nat) (s : State) : Host.Outcome State Fault Refusal :=
  command true false (fun x => x.hostWrite sess R.LED_UID_CMD (w32 (newId % 2 ^ 12 + 2 ^ 31))) s

/-- LEDGER_BURN_DONE (R372). A ledger slot burn of 1 ms completes, recording a substitution or retirement. -/
def execLedgerBurnDone (s : State) : Host.Outcome State Fault Refusal :=
  command true false (fun x => x.on (fun d => d.ledgerBurned)) s

/-- UNDERSTUDY_START (R388). A free spare takes up the eligible engine checked least recently and starts
shadowing it. -/
def execUnderstudyStart (k : Nat) (s : State) : Host.Outcome State Fault Refusal :=
  command (engineOk k) false (fun x => x.on (fun d => d.checkStart k)) s

/-- UNDERSTUDY_PASS (R389). A check completes 10^10 compared core cycles without a difference. -/
def execUnderstudyPass (k : Nat) (s : State) : Host.Outcome State Fault Refusal :=
  command (engineOk k) false (fun x => x.on (fun d => d.checkPass k)) s

/-- UNDERSTUDY_SKIP (R389). A check has not completed 20 s after it began and ends as SKIP. -/
def execUnderstudySkip (k : Nat) (s : State) : Host.Outcome State Fault Refusal :=
  command (engineOk k) false (fun x => x.on (fun d => d.checkSkip k)) s

/-- UNDERSTUDY_MISMATCH (R390). A compared output differs and a second spare joins for a three-way vote. -/
def execUnderstudyMismatch (k : Nat) (s : State) : Host.Outcome State Fault Refusal :=
  command (engineOk k) false (fun x => x.on (fun d => d.mismatch k)) s

/-- VOTE_END (R390). The three-way vote reaches a verdict at the first differing word or after 1 s. -/
def execVoteEnd (k : Nat) (v : Vote) (s : State) : Host.Outcome State Fault Refusal :=
  command (engineOk k) false (fun x => x.on (fun d => d.voteEnd k v)) s

/-- CUTOVER (R392). At the cutover point the service master moves every reference, queue, group and counter
from the old engine to the new one in one cycle. -/
def execCutover (old : Nat) (s : State) : Host.Outcome State Fault Refusal :=
  command (engineOk old) false (fun x => (x.on (fun d => d.cutOver old none)).settleLive) s

/-- SUB_TIMEOUT (R392). The cutover point has not come within SUB_TMO and the cutover is made at the next
engine word. -/
def execSubTimeout (old lost : Nat) (s : State) : Host.Outcome State Fault Refusal :=
  command (engineOk old) false (fun x => (x.on (fun d => d.subTimeout old lost)).settleLive) s

end Sys2Proof.Machine
end

