-- ==== Sys2Proof/Machine/CmdRequest.lean ====
section
/-! DEFINITION. The commands of the Fenene requests (chapter 11): the meaning of each. -/

namespace Sys2Proof.Machine

/-- HELLO (R270). HELLO is answered with the unit identity and a fresh device nonce. -/
def execHello (h : Hdr) (s : State) : Host.Outcome State Fault Refusal :=
  command true false (fun x => x.request h .hello) s

/-- SESSION_OPEN (R271). SESSION_OPEN authenticates the host, agrees session keys and opens an operator or
owner session. -/
def execSessionOpen (h : Hdr) (role hostKey nonce : Nat) (sigOk : Bool)
    (s : State) : Host.Outcome State Fault Refusal :=
  command true false (fun x => x.request h (.sessionOpen role hostKey nonce sigOk)) s

/-- SESSION_CLOSE (R273). SESSION_CLOSE closes the session, ending its readout streams and freeing its cached
replies. -/
def execSessionClose (h : Hdr) (s : State) : Host.Outcome State Fault Refusal :=
  command true false (fun x => x.request h .sessionClose) s

/-- REG_READ (R284). REG_READ reads one register under the access checks, clearing RC fields. -/
def execRegRead (h : Hdr) (addr : Nat) (s : State) : Host.Outcome State Fault Refusal :=
  command true false (fun x => x.request h (.regRead addr)) s

/-- REG_WRITE (R284). REG_WRITE writes one register under the access checks, performing the register's
behaviour. -/
def execRegWrite (h : Hdr) (addr width value : Nat) (s : State) : Host.Outcome State Fault Refusal :=
  command true false (fun x => x.request h (.regWrite addr width value)) s

/-- REG_READ_BLOCK (R284). REG_READ_BLOCK reads consecutive registers in ascending order, stopping at the
first failed access. -/
def execRegReadBlock (h : Hdr) (addr count : Nat) (s : State) : Host.Outcome State Fault Refusal :=
  command true false (fun x => x.request h (.regReadBlock addr count)) s

/-- REG_WRITE_BLOCK (R284). REG_WRITE_BLOCK writes consecutive registers in ascending order, stopping at the
first failed access. -/
def execRegWriteBlock (h : Hdr) (addr bytes : Nat) (values : List Nat)
    (s : State) : Host.Outcome State Fault Refusal :=
  command true false (fun x => x.request h (.regWriteBlock addr bytes values)) s

/-- REG_MODIFY (R284). REG_MODIFY reads, masks and writes one register as a locked sequence and returns the
old value. -/
def execRegModify (h : Hdr) (addr width mask value : Nat) (s : State) : Host.Outcome State Fault Refusal :=
  command true false (fun x => x.request h (.regModify addr width mask value)) s

/-- PORT_CONFIG (R285). PORT_CONFIG checks a lane's whole resulting configuration, then disables, writes and
enables as needed. -/
def execPortConfig (h : Hdr) (lane cfg rate tx : Nat) (ppm quad : Option Nat) (enable : Nat)
    (s : State) : Host.Outcome State Fault Refusal :=
  command true false (fun x => x.request h (.portConfig lane cfg rate tx ppm quad enable)) s

/-- CHANNEL_CONFIG (R285). CHANNEL_CONFIG checks and writes an engine's configuration images, then sets ENABLE
as asked. -/
def execChannelConfig (h : Hdr) (engine : Nat) (images : List (Option Nat)) (enable : Nat)
    (s : State) : Host.Outcome State Fault Refusal :=
  command true false (fun x => x.request h (.channelConfig engine images enable)) s

/-- TRIB_MAP (R102). TRIB_MAP checks a list of contexts as one configuration and writes them, children
disabled first and parents enabled first. -/
def execTribMap (h : Hdr) (entries : List TribEntry) (s : State) : Host.Outcome State Fault Refusal :=
  command true false (fun x => x.request h (.tribMap entries)) s

/-- APS_COMMAND (R144). APS_COMMAND issues a protection command to a group's host engine and returns
APS_STATUS. -/
def execApsCommand (h : Hdr) (engine cmd chan : Nat) (s : State) : Host.Outcome State Fault Refusal :=
  command true false (fun x => x.request h (.apsCommand engine cmd chan)) s

/-- DESKEW_CONFIG (R150). DESKEW_CONFIG writes a group's delay line base and size into DSK_CFG. -/
def execDeskewConfig (h : Hdr) (engine base size : Nat) (s : State) : Host.Outcome State Fault Refusal :=
  command true false (fun x => x.request h (.deskewConfig engine base size)) s

/-- HUNT_CONTROL (R79). HUNT_CONTROL performs REHUNT, FORCE or SNAP on an engine's hunter. -/
def execHuntControl (h : Hdr) (engine action : Nat) (index : Option Nat)
    (s : State) : Host.Outcome State Fault Refusal :=
  command true false (fun x => x.request h (.huntControl engine action index)) s

/-- CAPTURE_ARM (R178). CAPTURE_ARM arms a capture region and returns the Device Time at which the arm took
effect. -/
def execCaptureArm (h : Hdr) (region : Nat) (s : State) : Host.Outcome State Fault Refusal :=
  command true false (fun x => x.request h (.captureArm region)) s

/-- CAPTURE_STOP (R179). CAPTURE_STOP stops a region and replies with its held range once the stop steps are
complete. -/
def execCaptureStop (h : Hdr) (region : Nat) (s : State) : Host.Outcome State Fault Refusal :=
  command true false (fun x => x.request h (.captureStop region)) s

/-- CAPTURE_READOUT (R289). CAPTURE_READOUT opens a readout stream of held bales and starts sending its
bursts. -/
def execCaptureReadout (h : Hdr) (region first count burst port : Nat)
    (s : State) : Host.Outcome State Fault Refusal :=
  command true false (fun x => x.request h (.captureReadout region first count burst port)) s

/-- REGION_CONFIG (R285). REGION_CONFIG checks and writes a capture or pattern region's configuration, refused
while armed or IN_USE. -/
def execRegionConfig (h : Hdr) (kind region cfg : Nat) (src : Option Nat) (base size : Nat) (pre post : Option Nat)
    (s : State) : Host.Outcome State Fault Refusal :=
  command true false (fun x => x.request h (.regionConfig kind region cfg src base size pre post)) s

/-- PATTERN_LOAD (R190). PATTERN_LOAD writes script bytes into a pattern region and, with COMPLETE, validates
the script and sets LOADED. -/
def execPatternLoad (h : Hdr) (region offset : Nat) (data : List Byte) (complete : Option Nat)
    (s : State) : Host.Outcome State Fault Refusal :=
  command true false (fun x => x.request h (.patternLoad region offset data complete)) s

/-- PATTERN_QUEUE (R196). PATTERN_QUEUE pushes a timed or untimed queue entry for a sub-channel. -/
def execPatternQueue (h : Hdr) (engine region sub fstart : Nat) (time : Option Nat)
    (s : State) : Host.Outcome State Fault Refusal :=
  command true false (fun x => x.request h (.patternQueue engine region sub fstart time)) s

/-- INJECT_ERROR (R203). INJECT_ERROR loads an edit record into the injection registers and arms it. -/
def execInjectError (h : Hdr) (engine : Nat) (record : List Byte) (count every : Nat) (time : Option Nat)
    (s : State) : Host.Outcome State Fault Refusal :=
  command true false (fun x => x.request h (.injectError engine record count every time)) s

/-- TIME_SET (R249). TIME_SET loads a value into Device Time once while SET_DONE is 0. -/
def execTimeSet (h : Hdr) (value : Nat) (s : State) : Host.Outcome State Fault Refusal :=
  command true false (fun x => x.request h (.timeSet value)) s

/-- TIME_STEP (R251). TIME_STEP steps Device Time by a given or measured amount and returns the step applied.
-/
def execTimeStep (h : Hdr) (ticks : Option Int) (measured : Option Nat)
    (s : State) : Host.Outcome State Fault Refusal :=
  command true false (fun x => x.request h (.timeStep ticks measured)) s

/-- EVENT_READ (R281). EVENT_READ returns up to 32 event log entries and moves the session's read position. -/
def execEventRead (h : Hdr) (from_ : Option Nat) (max : Nat) (s : State) : Host.Outcome State Fault Refusal :=
  command true false (fun x => x.request h (.eventRead from_ max)) s

/-- COUNTER_SNAPSHOT (R287). COUNTER_SNAPSHOT captures and clears every RC register in its range in one core
cycle. -/
def execCounterSnapshot (h : Hdr) (addr len : Nat) (s : State) : Host.Outcome State Fault Refusal :=
  command true false (fun x => x.request h (.counterSnapshot addr len)) s

/-- FW_STAGE (R363). FW_STAGE writes firmware or bundle bytes into the staging area and, with FINAL, verifies
the staged object. -/
def execFwStage (h : Hdr) (kind offset : Nat) (data : List Byte) (final : Option Nat) (verdict : Verdict)
    (s : State) : Host.Outcome State Fault Refusal :=
  command true false (fun x => x.request h (.fwStage kind offset data final verdict)) s

/-- FW_ACTIVATE (R333). FW_ACTIVATE makes a deliberate failover to the verified staged image and advances the
anti-rollback counter. -/
def execFwActivate (h : Hdr) (s : State) : Host.Outcome State Fault Refusal :=
  command true false (fun x => x.request h .fwActivate) s

/-- ATTEST (R368). ATTEST forms a new signed report for a nonce, consuming an LMS leaf, or returns a part of a
held report. -/
def execAttest (h : Hdr) (nonce : List Byte) (report part : Nat) (s : State) : Host.Outcome State Fault Refusal :=
  command true false (fun x => x.request h (if nonce.isEmpty then .attestPart report part else .attestNew nonce)) s

/-- LEDGER_READ (R375). LEDGER_READ returns raw repair ledger slots and the number used. -/
def execLedgerRead (h : Hdr) (first count : Nat) (s : State) : Host.Outcome State Fault Refusal :=
  command true false (fun x => x.request h (.ledgerRead first count)) s

/-- SPARE_SUBSTITUTE (R375). SPARE_SUBSTITUTE reserves a ledger slot and starts substituting a spare engine,
pseudo-channel or Yard port. -/
def execSpareSubstitute (h : Hdr) (kind old : Nat) (new : Option Nat)
    (s : State) : Host.Outcome State Fault Refusal :=
  command true false (fun x => x.request h (.spareSubstitute kind old new)) s

/-- TANDEM_JOIN (R339). TANDEM_JOIN checks the request and sets the tandem state to PENDING with the named
role. -/
def execTandemJoin (h : Hdr) (role minLanes : Nat) (s : State) : Host.Outcome State Fault Refusal :=
  command true false (fun x => x.request h (.tandemJoin role minLanes)) s

/-- TANDEM_SPLIT (R352). TANDEM_SPLIT splits the unit, or both units of a joined pair, into ALONE. -/
def execTandemSplit (h : Hdr) (s : State) : Host.Outcome State Fault Refusal :=
  command true false (fun x => x.request h .tandemSplit) s

/-- GATEHOUSE_STATUS (R336). GATEHOUSE_STATUS reports the Pavilion roles, failover count and flags. -/
def execGatehouseStatus (h : Hdr) (s : State) : Host.Outcome State Fault Refusal :=
  command true false (fun x => x.request h .gatehouseStatus) s

/-- FAILOVER_REQUEST (R332). FAILOVER_REQUEST starts a deliberate failover with a sealed checkpoint and a way
back. -/
def execFailoverRequest (h : Hdr) (s : State) : Host.Outcome State Fault Refusal :=
  command true false (fun x => x.request h .failoverRequest) s

end Sys2Proof.Machine
end

