-- ==== Sys2Proof/Machine/CmdYard.lean ====
section
/-! DEFINITION. The commands of the Yard and the Hayloft (chapter 9): the meaning of each. -/

namespace Sys2Proof.Machine

/-- YARD_REQUEST (R211). A master issues a Yard transfer with a free tag; a transfer breaking the size rules
is answered BAD_ALIGN. -/
def execYardRequest (m tag : Nat) (write : Bool) (code a len : Nat) (data : List Byte)
    (s : State) : Host.Outcome State Fault Refusal :=
  command (tagOk m tag) false (fun x =>
    x.on (fun d => d.yardRequest m tag (if write then .write else .read) (d.classOf m write code) a len data)) s

/-- YARD_GRANT (R213). A target port grants a waiting request by class, age and round-robin, or by parking. -/
def execYardGrant (p : Nat) (s : State) : Host.Outcome State Fault Refusal :=
  command (yardPortOk p) false (fun x => x.on (fun d => d.yardGrant p)) s

/-- YARD_REPLY (R212). A target completes a transfer and its reply, with ECC correction or poison, returns to
the master and frees the tag. -/
def execYardReply (m tag : Nat) (ces ues : List Nat) (remote : List Byte)
    (s : State) : Host.Outcome State Fault Refusal :=
  command (tagOk m tag) false (fun x => x.yardComplete m tag ces ues remote) s

/-- LOCKED_READ (R217). A locked read is granted and its target port grants no other master until the write-
unlock. -/
def execLockedRead (m tag code a len : Nat) (s : State) : Host.Outcome State Fault Refusal :=
  command (tagOk m tag) false (fun x =>
    x.on (fun d => d.yardRequest m tag .lockRead (d.classOf m false code) a len [])) s

/-- WRITE_UNLOCK (R217). The holder's write-unlock arrives, is performed and ends the lock, or is refused
after a release. -/
def execWriteUnlock (m tag a : Nat) (data : List Byte) (s : State) : Host.Outcome State Fault Refusal :=
  command (tagOk m tag) false (fun x => x.writeUnlock m tag a data) s

/-- LOCK_TIMEOUT (R218). A lock still held 4,096 core cycles after its grant is released by force. -/
def execLockTimeout (p : Nat) (s : State) : Host.Outcome State Fault Refusal :=
  command (yardPortOk p) false (fun x => x.on (fun d => d.lockExpire p)) s

/-- YARD_TIMEOUT (R219). A transaction has no reply after the Yard timeout; it is completed TARGET_RESET and
its target port is fenced. -/
def execYardTimeout (m tag : Nat) (s : State) : Host.Outcome State Fault Refusal :=
  command (tagOk m tag) false (fun x => x.yardLate m tag) s

/-- FENCE_GRACE_END (R220). The 10 µs grace of a fence ends; unfinished transactions complete TARGET_RESET and
the port reset runs. -/
def execFenceGraceEnd (p : Nat) (s : State) : Host.Outcome State Fault Refusal :=
  command true false (fun x => x.graceEnd p) s

/-- FENCE_END (R220). A fenced port's reset ends, the fence lifts and pending GAP and marker bales are
retried. -/
def execFenceEnd (p : Nat) (s : State) : Host.Outcome State Fault Refusal :=
  command true false (fun x => x.fenceEnd p) s

/-- SCRUB_BLOCK (R226). The service master scrubs a block, correcting a correctable error and counting it
towards the wear threshold. -/
def execScrubBlock (st pc blk err : Nat) (s : State) : Host.Outcome State Fault Refusal :=
  command (stackOk st && decide (pc < 32)) false (fun x => x.scrubBlock st pc blk err) s

/-- SCRUB_PASS_END (R227). A scrub pass completes, per-pass error counts restart, and a wear migration
abandoned earlier starts again. -/
def execScrubPassEnd (st : Nat) (s : State) : Host.Outcome State Fault Refusal :=
  command (stackOk st) false (fun x => x.on (fun d => d.scrubPassEnd st)) s

/-- MIGRATION_COPY (R228). The service master copies the next granule to the destination with its check bits
unchanged. -/
def execMigrationCopy (st : Nat) (s : State) : Host.Outcome State Fault Refusal :=
  command (stackOk st) false (fun x => x.on (fun d => d.migCopy st)) s

/-- MIGRATION_COMPLETE (R228). The last granule is copied; the logical pseudo-channel switches to the
destination and the move is recorded. -/
def execMigrationComplete (st : Nat) (s : State) : Host.Outcome State Fault Refusal :=
  command (stackOk st) false (fun x => x.on (fun d => d.migComplete st)) s

end Sys2Proof.Machine
end

