-- ==== Sys2Proof/Machine/Dispatch.lean ====
section
/-! DEFINITION. The dispatch: one arm per command, each one call of its meaning. -/

namespace Sys2Proof.Machine

def exec (i : Instr) (s : State) : Host.Outcome State Fault Refusal :=
  match i with
  | .powerGoodChange vinL vinH regOk => Sys2Proof.Machine.execPowerGoodChange vinL vinH regOk s
  | .nresetChange high low => Sys2Proof.Machine.execNresetChange high low s
  | .brownOut high => Sys2Proof.Machine.execBrownOut high s
  | .railMeasurement mvL aL mvH aH power => Sys2Proof.Machine.execRailMeasurement mvL aL mvH aH power s
  | .tempReading tj => Sys2Proof.Machine.execTempReading tj s
  | .blockReady b => Sys2Proof.Machine.execBlockReady b s
  | .pavilionBoot b => Sys2Proof.Machine.execPavilionBoot b s
  | .laneEnable sess n w => Sys2Proof.Machine.execLaneEnable sess n w s
  | .laneDisable sess n w => Sys2Proof.Machine.execLaneDisable sess n w s
  | .recal sess n w => Sys2Proof.Machine.execRecal sess n w s
  | .laneCalibrationDone g => Sys2Proof.Machine.execLaneCalibrationDone g s
  | .signalChange n on freq => Sys2Proof.Machine.execSignalChange n on freq s
  | .losSetExpiry n => Sys2Proof.Machine.execLosSetExpiry n s
  | .losClrExpiry n => Sys2Proof.Machine.execLosClrExpiry n s
  | .cdrLock n => Sys2Proof.Machine.execCdrLock n s
  | .lockLoss n => Sys2Proof.Machine.execLockLoss n s
  | .txclkSlewDone n => Sys2Proof.Machine.execTxclkSlewDone n s
  | .losTimerConfig sess n clr w => Sys2Proof.Machine.execLosTimerConfig sess n clr w s
  | .moduleSignalChange k prs int => Sys2Proof.Machine.execModuleSignalChange k prs int s
  | .mmbGo sess k w => Sys2Proof.Machine.execMmbGo sess k w s
  | .mmbDone k how n data => Sys2Proof.Machine.execMmbDone k how n data s
  | .mmbStretchTimeout k n data => Sys2Proof.Machine.execMmbStretchTimeout k n data s
  | .lineWord n w stamp poison => Sys2Proof.Machine.execLineWord n w stamp poison s
  | .lofSetExpiry e => Sys2Proof.Machine.execLofSetExpiry e s
  | .lofClrExpiry e => Sys2Proof.Machine.execLofClrExpiry e s
  | .lofTimerConfig sess e w => Sys2Proof.Machine.execLofTimerConfig sess e w s
  | .rehunt sess e => Sys2Proof.Machine.execRehunt sess e s
  | .force sess e idx => Sys2Proof.Machine.execForce sess e idx s
  | .snap sess e => Sys2Proof.Machine.execSnap sess e s
  | .rxFrame e fr => Sys2Proof.Machine.execRxFrame e fr s
  | .txFrameStart e fr => Sys2Proof.Machine.execTxFrameStart e fr s
  | .ohpCommit sess e => Sys2Proof.Machine.execOhpCommit sess e s
  | .ttiIdxWrite sess e w => Sys2Proof.Machine.execTtiIdxWrite sess e w s
  | .ttiStore sess e => Sys2Proof.Machine.execTtiStore sess e s
  | .ttiFmtWrite sess e w => Sys2Proof.Machine.execTtiFmtWrite sess e w s
  | .contextEnable sess t w => Sys2Proof.Machine.execContextEnable sess t w s
  | .contextDisable sess t w => Sys2Proof.Machine.execContextDisable sess t w s
  | .seqGo sess e t => Sys2Proof.Machine.execSeqGo sess e t s
  | .seqStop sess e t => Sys2Proof.Machine.execSeqStop sess e t s
  | .pointerPeriodStart t u => Sys2Proof.Machine.execPointerPeriodStart t u s
  | .defectSetExpiry path n b => Sys2Proof.Machine.execDefectSetExpiry path n b s
  | .defectClrExpiry path n b => Sys2Proof.Machine.execDefectClrExpiry path n b s
  | .integTimeConfig sess e path w => Sys2Proof.Machine.execIntegTimeConfig sess e path w s
  | .bipWindowEnd e sd => Sys2Proof.Machine.execBipWindowEnd e sd s
  | .sfSdWindowConfig sess e k w => Sys2Proof.Machine.execSfSdWindowConfig sess e k w s
  | .pmSecondEnd e => Sys2Proof.Machine.execPmSecondEnd e s
  | .pmSecondCounted e => Sys2Proof.Machine.execPmSecondCounted e s
  | .apsGroupEnable sess h w => Sys2Proof.Machine.execApsGroupEnable sess h w s
  | .apsGroupDisable sess h w => Sys2Proof.Machine.execApsGroupDisable sess h w s
  | .apsMemberWrite sess h w => Sys2Proof.Machine.execApsMemberWrite sess h w s
  | .lockout sess h chan => Sys2Proof.Machine.execLockout sess h chan s
  | .forceSwitch sess h chan => Sys2Proof.Machine.execForceSwitch sess h chan s
  | .manual sess h chan => Sys2Proof.Machine.execManual sess h chan s
  | .exercise sess h chan => Sys2Proof.Machine.execExercise sess h chan s
  | .clear sess h chan => Sys2Proof.Machine.execClear sess h chan s
  | .holdoffExpiry h chan => Sys2Proof.Machine.execHoldoffExpiry h chan s
  | .wtrExpiry h => Sys2Proof.Machine.execWtrExpiry h s
  | .fopDeclare h => Sys2Proof.Machine.execFopDeclare h s
  | .selectorChange h => Sys2Proof.Machine.execSelectorChange h s
  | .deskewFrame h path time octets => Sys2Proof.Machine.execDeskewFrame h path time octets s
  | .deskewNoMatch h => Sys2Proof.Machine.execDeskewNoMatch h s
  | .rebaseDone h => Sys2Proof.Machine.execRebaseDone h s
  | .stallPush x => Sys2Proof.Machine.execStallPush x s
  | .stallPop e flips side => Sys2Proof.Machine.execStallPop e flips side s
  | .lossEpisodeEnd e => Sys2Proof.Machine.execLossEpisodeEnd e s
  | .baleFlushTimeout r => Sys2Proof.Machine.execBaleFlushTimeout r s
  | .baleWriteReply r seq ok => Sys2Proof.Machine.execBaleWriteReply r seq ok s
  | .pendingBaleRetry r => Sys2Proof.Machine.execPendingBaleRetry r s
  | .termHoldExpiry cb k => Sys2Proof.Machine.execTermHoldExpiry cb k s
  | .globalTriggerLine n => Sys2Proof.Machine.execGlobalTriggerLine n s
  | .combinerEnable sess e w => Sys2Proof.Machine.execCombinerEnable sess e w s
  | .hostTrigger sess e bits => Sys2Proof.Machine.execHostTrigger sess e bits s
  | .clearFired sess e => Sys2Proof.Machine.execClearFired sess e s
  | .timeCompareArm sess e w => Sys2Proof.Machine.execTimeCompareArm sess e w s
  | .timeCompareFire k => Sys2Proof.Machine.execTimeCompareFire k s
  | .regionEnable sess e w => Sys2Proof.Machine.execRegionEnable sess e w s
  | .regionDisable sess e w => Sys2Proof.Machine.execRegionDisable sess e w s
  | .arm sess e w => Sys2Proof.Machine.execArm sess e w s
  | .stop sess e w => Sys2Proof.Machine.execStop sess e w s
  | .readoutAck a => Sys2Proof.Machine.execReadoutAck a s
  | .readoutResendTimeout num => Sys2Proof.Machine.execReadoutResendTimeout num s
  | .patternRegionEnable sess e w => Sys2Proof.Machine.execPatternRegionEnable sess e w s
  | .patternRegionDisable sess e w => Sys2Proof.Machine.execPatternRegionDisable sess e w s
  | .push sess e w => Sys2Proof.Machine.execPush sess e w s
  | .flush sess e sub => Sys2Proof.Machine.execFlush sess e sub s
  | .abort sess e sub => Sys2Proof.Machine.execAbort sess e sub s
  | .injStop sess e => Sys2Proof.Machine.execInjStop sess e s
  | .entryReady e sub => Sys2Proof.Machine.execEntryReady e sub s
  | .scriptLaunch e sub t sent => Sys2Proof.Machine.execScriptLaunch e sub t sent s
  | .patternReadReply e sub a n ces ues => Sys2Proof.Machine.execPatternReadReply e sub a n ces ues s
  | .injectArm sess e w => Sys2Proof.Machine.execInjectArm sess e w s
  | .yardRequest m tag write code a len data => Sys2Proof.Machine.execYardRequest m tag write code a len data s
  | .yardGrant p => Sys2Proof.Machine.execYardGrant p s
  | .yardReply m tag ces ues remote => Sys2Proof.Machine.execYardReply m tag ces ues remote s
  | .lockedRead m tag code a len => Sys2Proof.Machine.execLockedRead m tag code a len s
  | .writeUnlock m tag a data => Sys2Proof.Machine.execWriteUnlock m tag a data s
  | .lockTimeout p => Sys2Proof.Machine.execLockTimeout p s
  | .yardTimeout m tag => Sys2Proof.Machine.execYardTimeout m tag s
  | .fenceGraceEnd p => Sys2Proof.Machine.execFenceGraceEnd p s
  | .fenceEnd p => Sys2Proof.Machine.execFenceEnd p s
  | .scrubBlock st pc blk err => Sys2Proof.Machine.execScrubBlock st pc blk err s
  | .scrubPassEnd st => Sys2Proof.Machine.execScrubPassEnd st s
  | .migrationCopy st => Sys2Proof.Machine.execMigrationCopy st s
  | .migrationComplete st => Sys2Proof.Machine.execMigrationComplete st s
  | .ptpMessageRx m => Sys2Proof.Machine.execPtpMessageRx m s
  | .announceReceiptTimeout => Sys2Proof.Machine.execAnnounceReceiptTimeout s
  | .ptpMessageTx k => Sys2Proof.Machine.execPtpMessageTx k s
  | .ppsLoss p => Sys2Proof.Machine.execPpsLoss p s
  | .ref10mLock p f => Sys2Proof.Machine.execRef10mLock p f s
  | .refLoss p => Sys2Proof.Machine.execRefLoss p s
  | .step sess => Sys2Proof.Machine.execStep sess s
  | .stepMeas sess => Sys2Proof.Machine.execStepMeas sess s
  | .set sess => Sys2Proof.Machine.execSet sess s
  | .hold sess => Sys2Proof.Machine.execHold sess s
  | .release sess => Sys2Proof.Machine.execRelease sess s
  | .catchupDone => Sys2Proof.Machine.execCatchupDone s
  | .timeUnitEnable sess w => Sys2Proof.Machine.execTimeUnitEnable sess w s
  | .timeUnitDisable sess w => Sys2Proof.Machine.execTimeUnitDisable sess w s
  | .tpEdge p frac width => Sys2Proof.Machine.execTpEdge p frac width s
  | .ppsOutPulse p => Sys2Proof.Machine.execPpsOutPulse p s
  | .triggerOutArm sess p w => Sys2Proof.Machine.execTriggerOutArm sess p w s
  | .triggerOutFire p => Sys2Proof.Machine.execTriggerOutFire p s
  | .tpEnable sess p w => Sys2Proof.Machine.execTpEnable sess p w s
  | .hostLinkChange p up => Sys2Proof.Machine.execHostLinkChange p up s
  | .hostAddressAnswer p k => Sys2Proof.Machine.execHostAddressAnswer p k s
  | .fenenePacketDrop p => Sys2Proof.Machine.execFenenePacketDrop p s
  | .requestHold h r => Sys2Proof.Machine.execRequestHold h r s
  | .requestDuplicate h r => Sys2Proof.Machine.execRequestDuplicate h r s
  | .sessionIdleTimeout n => Sys2Proof.Machine.execSessionIdleTimeout n s
  | .hello h => Sys2Proof.Machine.execHello h s
  | .sessionOpen h role hostKey nonce sigOk => Sys2Proof.Machine.execSessionOpen h role hostKey nonce sigOk s
  | .sessionClose h => Sys2Proof.Machine.execSessionClose h s
  | .regRead h addr => Sys2Proof.Machine.execRegRead h addr s
  | .regWrite h addr width value => Sys2Proof.Machine.execRegWrite h addr width value s
  | .regReadBlock h addr count => Sys2Proof.Machine.execRegReadBlock h addr count s
  | .regWriteBlock h addr bytes values => Sys2Proof.Machine.execRegWriteBlock h addr bytes values s
  | .regModify h addr width mask value => Sys2Proof.Machine.execRegModify h addr width mask value s
  | .portConfig h lane cfg rate tx ppm quad enable => Sys2Proof.Machine.execPortConfig h lane cfg rate tx ppm quad enable s
  | .channelConfig h engine images enable => Sys2Proof.Machine.execChannelConfig h engine images enable s
  | .tribMap h entries => Sys2Proof.Machine.execTribMap h entries s
  | .apsCommand h engine cmd chan => Sys2Proof.Machine.execApsCommand h engine cmd chan s
  | .deskewConfig h engine base size => Sys2Proof.Machine.execDeskewConfig h engine base size s
  | .huntControl h engine action index => Sys2Proof.Machine.execHuntControl h engine action index s
  | .captureArm h region => Sys2Proof.Machine.execCaptureArm h region s
  | .captureStop h region => Sys2Proof.Machine.execCaptureStop h region s
  | .captureReadout h region first count burst port => Sys2Proof.Machine.execCaptureReadout h region first count burst port s
  | .regionConfig h kind region cfg src base size pre post => Sys2Proof.Machine.execRegionConfig h kind region cfg src base size pre post s
  | .patternLoad h region offset data complete => Sys2Proof.Machine.execPatternLoad h region offset data complete s
  | .patternQueue h engine region sub fstart time => Sys2Proof.Machine.execPatternQueue h engine region sub fstart time s
  | .injectError h engine record count every time => Sys2Proof.Machine.execInjectError h engine record count every time s
  | .timeSet h value => Sys2Proof.Machine.execTimeSet h value s
  | .timeStep h ticks measured => Sys2Proof.Machine.execTimeStep h ticks measured s
  | .eventRead h from_ max => Sys2Proof.Machine.execEventRead h from_ max s
  | .counterSnapshot h addr len => Sys2Proof.Machine.execCounterSnapshot h addr len s
  | .fwStage h kind offset data final verdict => Sys2Proof.Machine.execFwStage h kind offset data final verdict s
  | .fwActivate h => Sys2Proof.Machine.execFwActivate h s
  | .attest h nonce report part => Sys2Proof.Machine.execAttest h nonce report part s
  | .ledgerRead h first count => Sys2Proof.Machine.execLedgerRead h first count s
  | .spareSubstitute h kind old new => Sys2Proof.Machine.execSpareSubstitute h kind old new s
  | .tandemJoin h role minLanes => Sys2Proof.Machine.execTandemJoin h role minLanes s
  | .tandemSplit h => Sys2Proof.Machine.execTandemSplit h s
  | .gatehouseStatus h => Sys2Proof.Machine.execGatehouseStatus h s
  | .failoverRequest h => Sys2Proof.Machine.execFailoverRequest h s
  | .registerWrite sess addr w => Sys2Proof.Machine.execRegisterWrite sess addr w s
  | .rcRegisterRead sess addr => Sys2Proof.Machine.execRcRegisterRead sess addr s
  | .glbLockWrite sess w => Sys2Proof.Machine.execGlbLockWrite sess w s
  | .engineEnable sess e w => Sys2Proof.Machine.execEngineEnable sess e w s
  | .engineDisable sess e w => Sys2Proof.Machine.execEngineDisable sess e w s
  | .engineReset sess e w => Sys2Proof.Machine.execEngineReset sess e w s
  | .engineResetDone e => Sys2Proof.Machine.execEngineResetDone e s
  | .clusterPowerDown sess c => Sys2Proof.Machine.execClusterPowerDown sess c s
  | .clusterPowerUp sess c => Sys2Proof.Machine.execClusterPowerUp sess c s
  | .heartbeat => Sys2Proof.Machine.execHeartbeat s
  | .heartbeatMiss => Sys2Proof.Machine.execHeartbeatMiss s
  | .fatalError => Sys2Proof.Machine.execFatalError s
  | .takeoverResume t => Sys2Proof.Machine.execTakeoverResume t s
  | .takeoverFail fault => Sys2Proof.Machine.execTakeoverFail fault s
  | .gatehouseAnswer h r => Sys2Proof.Machine.execGatehouseAnswer h r s
  | .checkpointWrite fail => Sys2Proof.Machine.execCheckpointWrite fail s
  | .replacedResetEnd => Sys2Proof.Machine.execReplacedResetEnd s
  | .selfTestDone pass => Sys2Proof.Machine.execSelfTestDone pass s
  | .tandemLaneUp n => Sys2Proof.Machine.execTandemLaneUp n s
  | .tandemLaneDown n fails => Sys2Proof.Machine.execTandemLaneDown n fails s
  | .tandemHandshake unit fw follower minLanes => Sys2Proof.Machine.execTandemHandshake unit fw follower minLanes s
  | .joinTimeout => Sys2Proof.Machine.execJoinTimeout s
  | .splitHoldEnter => Sys2Proof.Machine.execSplitHoldEnter s
  | .forwardedReply n r => Sys2Proof.Machine.execForwardedReply n r s
  | .tdmCfgWrite sess w => Sys2Proof.Machine.execTdmCfgWrite sess w s
  | .tdmXmemberWrite sess w => Sys2Proof.Machine.execTdmXmemberWrite sess w s
  | .uidBurn sess newId => Sys2Proof.Machine.execUidBurn sess newId s
  | .ledgerBurnDone => Sys2Proof.Machine.execLedgerBurnDone s
  | .understudyStart k => Sys2Proof.Machine.execUnderstudyStart k s
  | .understudyPass k => Sys2Proof.Machine.execUnderstudyPass k s
  | .understudySkip k => Sys2Proof.Machine.execUnderstudySkip k s
  | .understudyMismatch k => Sys2Proof.Machine.execUnderstudyMismatch k s
  | .voteEnd k v => Sys2Proof.Machine.execVoteEnd k v s
  | .cutover old => Sys2Proof.Machine.execCutover old s
  | .subTimeout old lost => Sys2Proof.Machine.execSubTimeout old lost s
  | .failoverPacketHold p => Sys2Proof.Machine.execFailoverPacketHold p s

end Sys2Proof.Machine
end

