-- ==== Sys2Proof/Safety.lean ====
section
/-! DEFINITION. The terms in which statements about the device are made: what a command does, when a register
write is allowed, when a request is next to be executed, and the invariants of the state. -/

namespace Sys2Proof.Machine

/-! ## What a command does -/

/-- The device is not held in system reset (R379). -/
def Dev.live (x : Dev) : Prop := x.chip.inReset = false

/-- The command completes: it answers a next state, leaves the waiting commands alone, and the device it leaves
has the property `P`. -/
def Does (i : Instr) (s : State) (P : Dev → Prop) : Prop :=
  ∃ t : State, exec i s = .next t ∧ t.pending = s.pending ∧ P t.dev

/-- The device after a system reset of `x` with this cause (R381): fuses, flash and the retired processors are kept,
the log is empty, Device Time is 0, no session is open, tandem and Gatehouse are at their reset states, every other
register reads its reset value, and memory outside the flash window reads 0. -/
def Dev.afterReset (x y : Dev) (cause : Nat) : Prop :=
  y.chip.inReset = true ∧ y.chip.rd R.GLB_RST_CAUSE = w32 cause
    ∧ y.chip.sec.fuse = x.chip.sec.fuse ∧ y.chip.sec.flash = x.chip.sec.flash ∧ y.chip.pav.retired = x.chip.pav.retired
    ∧ y.chip.log = ⟨0, []⟩ ∧ y.chip.dt = 0 ∧ y.chip.host = HostP.init ∧ y.chip.tdm = Tdm.init ∧ y.chip.gth = Gth.init
    ∧ (∀ r : RegId, r.key ≠ R.GLB_RST_CAUSE.key → (∀ i, r.key ≠ (R.LN_QUAD_MOD i).key) → y.chip.rd r = r.resetWord)
    ∧ ∀ a, y.mem.rd1 a = if 0x4100000000 ≤ a ∧ a < 0x4110000000 then x.mem.rd1 a else 0

/-- Every byte of memory reads as before. -/
def Dev.sameMem (x y : Dev) : Prop := ∀ a : Nat, x.mem.rd1 a = y.mem.rd1 a

/-! ## Frames -/

/-- The chip `c` with what any command may touch taken from `y`: what was sent, the registers, and what logging an
event brings, which is the log and the capture buffers of the event streams (R27, R170). -/
def Chip.besides (c y : Chip) : Chip := { c with out := y.out, regs := y.regs, log := y.log, caps := y.caps }

/-- From `x` to `y` nothing changes but what any command may touch and what `f` takes over from `y`; memory reads as
before. -/
def Dev.only (x y : Dev) (f : Chip → Chip := id) : Prop := y.chip = f (x.chip.besides y.chip) ∧ x.sameMem y

/-- Every register reads as before but those named, and the counts of octets lost, which a full buffer of an event
stream raises (R159). -/
def Dev.regsBut (x y : Dev) (l : List RegId) : Prop :=
  ∀ r : RegId, (∀ g ∈ l, r.key ≠ g.key) → (∀ e, r.key ≠ (R.CAP_LOST_LO e).key ∧ r.key ≠ (R.CAP_LOST_HI e).key) →
    y.chip.rd r = x.chip.rd r

/-- The command changes nothing: nothing stays but what the last command sent is gone. -/
def Dev.idle (x y : Dev) : Prop := y = x.on (fun d => { d with out := [] })

/-! ## Register writes (R300) -/

/-- A write of word `w` to register `r` in session `sess` passes every check of R300 that precedes the
register's own effect. -/
def Dev.allows (x : Dev) (sess : Nat) (r : RegId) (w : Word) : Prop :=
  x.chip.accessCheck sess r.addr true = .ok r ∧ x.chip.lockedWrite r w = false ∧ (x.chip.cdRefused r w).1 = false

/-- The last thing sent is the answer to a register access. -/
def Dev.answered (x : Dev) (st : Status) (v : Option Word := none) : Prop := x.chip.out.getLast? = some (.answer st v)

/-- A write is answered with a refusal of R300 and leaves the refusal record of R301: the event, the count, the
address, and the status beside the session. -/
def Dev.refusedWith (x y : Dev) (sess a : Nat) (st : Status) : Prop :=
  y.answered st ∧ y.chip.rb R.GLB_EVENT 4 = true ∧ y.chip.rd R.GLB_REFUSE_ADDR = w32 a
    ∧ y.chip.rd R.GLB_REFUSE_INFO = w32 (st.code + sess % 65536 * 2 ^ 16)
    ∧ (y.chip.rd R.GLB_REFUSE_CNT).toNat = min ((x.chip.rd R.GLB_REFUSE_CNT).toNat + 1) 0xFFFFFFFF

/-! ## Events (R27, R281) -/

/-- The log of `y` is that of `x` with one entry more, from this source and with this code and detail. -/
def Chip.logged (x y : Chip) (src code det : Nat) : Prop :=
  y.log.next = x.log.next + 1 ∧ y.log.entries.head? = some ⟨x.log.next % 2 ^ 32, src, x.dt, code, 0xFFFF, det, 0⟩

/-! ## Requests (R263-R279) -/

/-- Packets reach an active processor that runs. -/
def Dev.serving (x : Dev) : Prop :=
  x.chip.host.ready = true ∧ x.chip.pav.booted = true ∧ x.chip.pav.dead = false ∧ x.chip.gth.st = .running

/-- The device after the steps that come before a request's own: the packet is counted, its session is kept alive and
the request is in the journal. -/
def Dev.taken (x : Dev) (h : Hdr) (r : Req) : Dev :=
  x.on (fun d => ((({ d with out := [] } : Chip).count R.HST_RX_CNT).touch h.session).jlog h r)

/-- The request is the next one of an open session of which no other request waits, whole and genuine; the processor
lives through it; and it passes the checks that come before its own (R279): it is this unit's to execute, the
session's role permits it and its TLVs have the right form. -/
def Dev.inTurn (x : Dev) (h : Hdr) (r : Req) : Prop :=
  x.serving ∧ h.port < x.chip.hostPorts ∧ x.chip.packetOk h r = true ∧ h.session ≠ 0 ∧ h.tagOk = true ∧ h.stop = .runs
    ∧ h.seq < 0xFFFFFFFF
    ∧ (∃ y, x.chip.session h.session = some y ∧ y.reset = false ∧ y.next = h.seq ∧ y.wait = none ∧ y.held = [])
    ∧ (x.taken h r).chip.reqStatus h r = none ∧ (x.taken h r).chip.forwards h r = false

/-- A request outside any session that R268 permits, whole, and the processor lives through it. -/
def Dev.openTurn (x : Dev) (h : Hdr) (r : Req) : Prop :=
  x.serving ∧ h.port < x.chip.hostPorts ∧ x.chip.packetOk h r = true ∧ h.session = 0 ∧ x.chip.session 0 = none
    ∧ openReq r = true ∧ h.stop = .runs
    ∧ (reqCode r = 0x0002 → h.seq = 0) ∧ h.seq < 0xFFFFFFFF
    ∧ (x.taken h r).chip.reqStatus h r = none ∧ (x.taken h r).chip.forwards h r = false

/-- The reply to a request goes out with this status and these parameters, out of the port and to the UDP port that
the request came from, under the unit ID that the request named. -/
def Dev.replied (x : Dev) (h : Hdr) (r : Req) (st : Status) (p : List (Nat × List Byte)) : Prop :=
  ∃ (y : Reply) (b : List Byte), .reply y h.port h.udp b ∈ x.chip.out ∧ (h.unit ≠ 0xFFF → b = y.bytes h.unit)
    ∧ y.session = h.session ∧ y.seq = h.seq ∧ y.opcode = reqCode r ∧ y.status = st ∧ y.gatehouse = false ∧ y.params = p

/-! ## Invariants -/

/-- Memory is in canonical form. -/
def State.memWf (s : State) : Prop := s.dev.mem.wf = true

/-- The log holds at most 65,536 entries, and their numbers end below the next number, each one more than that of the
entry before it (R27, R281). -/
def EvLog.wf (l : EvLog) : Prop :=
  l.entries.length ≤ 65536 ∧ l.entries.length ≤ l.next
    ∧ ∀ i v, l.entries[i]? = some v → v.seq = (l.next - 1 - i) % 2 ^ 32

end Sys2Proof.Machine

namespace Sys2Proof

open Machine

/-! ## Kinds of commands -/

/-- The request that a command carries: its header, and its opcode with its parameters. -/
def Instr.request : Instr → Option (Hdr × Req)
  | .hello h => some (h, .hello)
  | .sessionOpen h role hostKey nonce sigOk => some (h, .sessionOpen role hostKey nonce sigOk)
  | .sessionClose h => some (h, .sessionClose)
  | .regRead h addr => some (h, .regRead addr)
  | .regWrite h addr width value => some (h, .regWrite addr width value)
  | .regReadBlock h addr count => some (h, .regReadBlock addr count)
  | .regWriteBlock h addr bytes values => some (h, .regWriteBlock addr bytes values)
  | .regModify h addr width mask value => some (h, .regModify addr width mask value)
  | .portConfig h lane cfg rate tx ppm quad enable => some (h, .portConfig lane cfg rate tx ppm quad enable)
  | .channelConfig h engine images enable => some (h, .channelConfig engine images enable)
  | .tribMap h entries => some (h, .tribMap entries)
  | .apsCommand h engine cmd chan => some (h, .apsCommand engine cmd chan)
  | .deskewConfig h engine base size => some (h, .deskewConfig engine base size)
  | .huntControl h engine action index => some (h, .huntControl engine action index)
  | .captureArm h region => some (h, .captureArm region)
  | .captureStop h region => some (h, .captureStop region)
  | .captureReadout h region first count burst port => some (h, .captureReadout region first count burst port)
  | .regionConfig h kind region cfg src base size pre post => some (h, .regionConfig kind region cfg src base size pre post)
  | .patternLoad h region offset data complete => some (h, .patternLoad region offset data complete)
  | .patternQueue h engine region sub fstart time => some (h, .patternQueue engine region sub fstart time)
  | .injectError h engine record count every time => some (h, .injectError engine record count every time)
  | .timeSet h value => some (h, .timeSet value)
  | .timeStep h ticks measured => some (h, .timeStep ticks measured)
  | .eventRead h from_ max => some (h, .eventRead from_ max)
  | .counterSnapshot h addr len => some (h, .counterSnapshot addr len)
  | .fwStage h kind offset data final verdict => some (h, .fwStage kind offset data final verdict)
  | .fwActivate h => some (h, .fwActivate)
  | .attest h nonce report part => some (h, if nonce.isEmpty then .attestPart report part else .attestNew nonce)
  | .ledgerRead h first count => some (h, .ledgerRead first count)
  | .spareSubstitute h kind old new => some (h, .spareSubstitute kind old new)
  | .tandemJoin h role minLanes => some (h, .tandemJoin role minLanes)
  | .tandemSplit h => some (h, .tandemSplit)
  | .gatehouseStatus h => some (h, .gatehouseStatus)
  | .failoverRequest h => some (h, .failoverRequest)
  | _ => none

/-- The commands that store nothing in memory: those that act on the chip alone, and the register writes that start
neither a region's nor an engine's stop. -/
def Instr.storesNothing : Instr → Bool
  | .abort .. | .announceReceiptTimeout | .apsGroupDisable .. | .apsGroupEnable .. | .apsMemberWrite ..
  | .bipWindowEnd .. | .blockReady .. | .catchupDone | .cdrLock .. | .checkpointWrite .. | .clear ..
  | .clearFired .. | .combinerEnable .. | .contextDisable .. | .contextEnable .. | .defectClrExpiry ..
  | .defectSetExpiry .. | .deskewNoMatch .. | .engineResetDone .. | .entryReady ..
  | .exercise .. | .flush .. | .fopDeclare .. | .force .. | .forceSwitch .. | .glbLockWrite ..
  | .globalTriggerLine .. | .heartbeat | .hold .. | .holdoffExpiry .. | .hostAddressAnswer ..
  | .hostLinkChange .. | .hostTrigger .. | .injStop .. | .injectArm .. | .integTimeConfig ..
  | .laneCalibrationDone .. | .laneDisable .. | .laneEnable .. | .ledgerBurnDone | .lineWord .. | .lockLoss ..
  | .lockTimeout .. | .lockedRead .. | .lockout .. | .lofClrExpiry .. | .lofSetExpiry .. | .lofTimerConfig ..
  | .losClrExpiry .. | .losSetExpiry .. | .losTimerConfig .. | .lossEpisodeEnd .. | .manual ..
  | .migrationComplete .. | .migrationCopy .. | .mmbDone .. | .mmbGo .. | .mmbStretchTimeout ..
  | .moduleSignalChange .. | .ohpCommit .. | .patternReadReply .. | .patternRegionDisable ..
  | .patternRegionEnable .. | .pmSecondCounted .. | .pmSecondEnd .. | .ppsLoss .. | .ppsOutPulse ..
  | .ptpMessageRx .. | .ptpMessageTx .. | .push .. | .railMeasurement .. | .rcRegisterRead .. | .rebaseDone ..
  | .recal .. | .ref10mLock .. | .refLoss .. | .rehunt .. | .release .. | .replacedResetEnd | .rxFrame ..
  | .scriptLaunch .. | .scrubBlock .. | .scrubPassEnd .. | .selectorChange .. | .selfTestDone .. | .seqGo ..
  | .seqStop .. | .sessionIdleTimeout .. | .set .. | .sfSdWindowConfig .. | .signalChange .. | .snap ..
  | .stallPush .. | .step .. | .stepMeas .. | .tandemHandshake .. | .tandemLaneDown .. | .tandemLaneUp ..
  | .tdmCfgWrite .. | .tdmXmemberWrite .. | .termHoldExpiry .. | .timeCompareArm .. | .timeCompareFire ..
  | .timeUnitDisable .. | .timeUnitEnable .. | .tpEdge .. | .tpEnable .. | .triggerOutArm ..
  | .triggerOutFire .. | .ttiFmtWrite .. | .ttiIdxWrite .. | .ttiStore .. | .txclkSlewDone .. | .uidBurn ..
  | .understudyMismatch .. | .understudyPass .. | .understudySkip .. | .understudyStart .. | .voteEnd ..
  | .wtrExpiry .. | .yardGrant .. | .yardRequest .. => true
  | _ => false

/-- The commands that may reach the processors, the Gatehouse, the sessions, the tandem state or the core clock: the
packets and requests, what they carry out, the timers of those units and the resets. -/
def Instr.reachesControl : Instr → Bool
  | .apsCommand .. | .attest .. | .blockReady .. | .brownOut .. | .captureArm .. | .captureReadout ..
  | .captureStop .. | .channelConfig .. | .checkpointWrite .. | .counterSnapshot .. | .defectClrExpiry ..
  | .defectSetExpiry .. | .deskewConfig .. | .eventRead .. | .failoverPacketHold .. | .failoverRequest ..
  | .fatalError | .fenenePacketDrop .. | .forwardedReply .. | .fwActivate .. | .fwStage .. | .gatehouseAnswer ..
  | .gatehouseStatus .. | .heartbeat | .heartbeatMiss | .hello .. | .hostLinkChange .. | .huntControl ..
  | .injectError .. | .joinTimeout | .ledgerRead .. | .nresetChange .. | .patternLoad .. | .patternQueue ..
  | .pavilionBoot .. | .portConfig .. | .powerGoodChange .. | .readoutAck .. | .readoutResendTimeout ..
  | .regModify .. | .regRead .. | .regReadBlock .. | .regWrite .. | .regWriteBlock .. | .regionConfig ..
  | .replacedResetEnd | .requestDuplicate .. | .requestHold .. | .selfTestDone .. | .sessionClose ..
  | .sessionIdleTimeout .. | .sessionOpen .. | .spareSubstitute .. | .splitHoldEnter | .takeoverFail ..
  | .takeoverResume .. | .tandemHandshake .. | .tandemJoin .. | .tandemLaneDown .. | .tandemLaneUp ..
  | .tandemSplit .. | .tempReading .. | .timeSet .. | .timeStep .. | .tribMap .. | .yardTimeout .. => true
  | _ => false

end Sys2Proof
end

