-- ==== Sys2Proof/Certificates/Slice0/Obligations.lean ====
section
/-! DEFINITION. The statements about the device, each from the rules of the spec that its docstring names. -/

open Sys2Proof Sys2Proof.Machine

/-- A step runs the command at the front of the queue. With command c at the front of the queue and the commands
q behind it, a step is exec of c on the state whose queue is q; with an empty queue a step answers a next state
whose queue is empty and whose memory is unchanged. (01_device_architecture) -/
def Obligations.StepRunsFrontCommand : Prop :=
  ∀ (x : Dev), (∀ (c : Instr) (q : List Instr), step ⟨c :: q, x⟩ = exec c ⟨q, x⟩)
    ∧ ∃ t, step ⟨[], x⟩ = .next t ∧ t.pending = [] ∧ x.sameMem t.dev

/-- Every command completes on the resources that the device has, and only on these. A command that names only
resources of the device answers a next state in every state and leaves the queue alone; one that names an
engine, lane, port or other resource that does not exist faults by name (the model's own choice, log entry 5).
(12_register_space R294, 01_device_architecture R3) -/
def Obligations.CommandCompletesIffWellFormed : Prop :=
  ∀ (i : Instr) (s : State),
    (i.wf = true → ∃ t, exec i s = .next t ∧ t.pending = s.pending)
      ∧ (i.wf = false → exec i s = .fault .noSuchResource)

/-- While the device is held in reset no command but those of its pins and sensors acts. In a device held in
system reset every command other than POWER_GOOD_CHANGE, NRESET_CHANGE, BROWN_OUT, TEMP_READING, SIGNAL_CHANGE
and MODULE_SIGNAL_CHANGE leaves chip and memory as they are, but that nothing stays of what the last command
sent. (16_bringup_reset_power R379, 16_bringup_reset_power R381, 16_bringup_reset_power R408) -/
def Obligations.ResetHoldsTheDevice : Prop :=
  ∀ (i : Instr) (s t : State), s.dev.chip.inReset = true → exec i s = .next t →
    (match i with
      | .powerGoodChange .. | .nresetChange .. | .brownOut .. | .tempReading .. | .signalChange .. | .moduleSignalChange .. => True
      | _ => t.dev = s.dev.on (fun d => { d with out := [] }))

/-- The reset state meets the invariants. At State.reset no command waits, memory is canonical and reads 0, the
event log is empty and well formed, no session is open, Device Time is 0, tandem is ALONE, no block is ready,
GLB_RST_CAUSE reads power-on, and every other register reads the reset value of its table.
(16_bringup_reset_power R381, 12_register_space R11) -/
def Obligations.ResetStateIsWellFormed : Prop :=
  State.reset.pending = [] ∧ State.reset.memWf ∧ (∀ a, State.reset.dev.mem.rd1 a = 0)
    ∧ State.reset.dev.chip.log.wf ∧ State.reset.dev.chip.log.next = 0 ∧ State.reset.dev.chip.host.sessions = []
    ∧ State.reset.dev.chip.dt = 0 ∧ State.reset.dev.chip.tdmSt = 0 ∧ State.reset.dev.chip.readWord R.GLB_READY = 0
    ∧ State.reset.dev.chip.rd R.GLB_RST_CAUSE = 1
    ∧ ∀ r : RegId, r.key ≠ R.GLB_RST_CAUSE.key → State.reset.dev.chip.rd r = r.resetWord

/-- Every step keeps memory in its canonical form. From every state whose memory is canonical (addresses
strictly rising, no entry equal to the 0 that an unlisted byte reads as) every step that answers a next state
leaves memory canonical. (09_yard_and_hayloft R207) -/
def Obligations.StepKeepsMemoryCanonical : Prop :=
  ∀ s t : State, s.memWf → step s = .next t → t.memWf

/-- Every step keeps the event log numbered one by one. From every state whose log holds at most 65,536 entries,
newest first, each numbered one more than the entry before it and the newest one less than the next number,
every step that answers a next state leaves the log so. (01_device_architecture R27, 11_fenene_protocol R281) -/
def Obligations.StepKeepsEventNumbering : Prop :=
  ∀ s t : State, s.dev.chip.log.wf → step s = .next t → t.dev.chip.log.wf

/-- PWR_GOOD, a brown-out and nRESET reset the device. A fall of PWR_GOOD and a brown-out reset the device with
cause 0x1, and an nRESET low of 1,000 core cycles or more with cause 0x2, all leaving the state of R381; an
nRESET low while the device already holds itself in reset leaves all but the pin; a shorter pulse changes
nothing; nRESET high and all three conditions of PWR_GOOD release their own hold and no other. Completes with
its own effect, under conditions on the state and the operands alone: POWER_GOOD_CHANGE, NRESET_CHANGE,
BROWN_OUT. (16_bringup_reset_power R379, 16_bringup_reset_power R380, 16_bringup_reset_power R381,
16_bringup_reset_power R408) -/
def Obligations.ResetPinsResetTheDevice : Prop :=
  ∀ (q : List Instr) (x : Dev),
    (∀ vl vh ok, x.chip.pwr.good = true → (vl && vh && ok) = false →
      Does (.powerGoodChange vl vh ok) ⟨q, x⟩ (fun y => x.afterReset y 1 ∧ y.chip.pwr.good = false))
    ∧ (∀ vl vh ok, (x.chip.pwr.good = false ∨ (vl && vh && ok) = true) →
      Does (.powerGoodChange vl vh ok) ⟨q, x⟩ (fun y => x.sameMem y
        ∧ y.chip = { x.chip with out := [], pwr := { x.chip.pwr with vinL := vl, vinH := vh, regOk := ok, good := vl && vh && ok } }))
    ∧ (∀ high, x.chip.pwr.thermal = false → Does (.brownOut high) ⟨q, x⟩ (fun y => x.afterReset y 1 ∧ y.chip.pwr.good = false))
    ∧ (∀ low, 1000 ≤ low → x.live → Does (.nresetChange false low) ⟨q, x⟩ (fun y => x.afterReset y 2 ∧ y.chip.pwr.nReset = false))
    ∧ (∀ low, 1000 ≤ low → ¬ x.live → Does (.nresetChange false low) ⟨q, x⟩ (fun y => x.sameMem y
        ∧ y.chip = { x.chip with out := [], pwr := { x.chip.pwr with nReset := false } }))
    ∧ (∀ low, low < 1000 → Does (.nresetChange false low) ⟨q, x⟩ x.idle)
    ∧ (∀ low, Does (.nresetChange true low) ⟨q, x⟩ (fun y => x.sameMem y
        ∧ y.chip = { x.chip with out := [], pwr := { x.chip.pwr with nReset := true } }))

/-- Temperature and rail readings. A rail reading of a device that is not in reset is stored in GLB_VIN_L,
GLB_VIN_H and GLB_POWER; each rail is OK exactly when it lies within its range, and one that leaves it sets
RAIL. The tenth consecutive temperature reading of 115 degrees or more resets the device with cause 0x3 and
holds it until a reading below 95 degrees. Every other reading is stored in GLB_TEMP and counts if it is of 115
degrees or more; the warning holds from WARN until the reading falls below WARN - 3 degrees, and sets THERM_WARN
when it begins, and the same for CRIT, whose beginning also ends every understudy check. Nothing else changes.
Completes with its own effect, under conditions on the state and the operands alone: RAIL_MEASUREMENT,
TEMP_READING. (16_bringup_reset_power R395, 16_bringup_reset_power R396, 16_bringup_reset_power R380) -/
def Obligations.ThermalAndRailReadings : Prop :=
  ∀ (q : List Instr) (x : Dev),
    (∀ mvL aL mvH aH p : Nat, mvL < 2 ^ 16 → aL < 2 ^ 16 → mvH < 2 ^ 16 → aH < 2 ^ 16 → p < 2 ^ 16 → x.live →
      Does (.railMeasurement mvL aL mvH aH p) ⟨q, x⟩ (fun y =>
        y.chip.rd R.GLB_VIN_L = w32 (mvL + aL * 2 ^ 16) ∧ y.chip.rd R.GLB_VIN_H = w32 (mvH + aH * 2 ^ 16)
          ∧ y.chip.rd R.GLB_POWER = w32 p
          ∧ (y.chip.pwr.vinL = true ↔ 870 ≤ mvL ∧ mvL ≤ 930) ∧ (y.chip.pwr.vinH = true ↔ 1710 ≤ mvH ∧ mvH ≤ 1890)
          ∧ ((x.chip.pwr.vinL = true ∧ y.chip.pwr.vinL = false) ∨ (x.chip.pwr.vinH = true ∧ y.chip.pwr.vinH = false) →
              y.chip.rb R.GLB_EVENT 3 = true)
          ∧ x.only y (fun c => { c with pwr := { c.pwr with vinL := y.chip.pwr.vinL, vinH := y.chip.pwr.vinH } })
          ∧ x.regsBut y [R.GLB_VIN_L, R.GLB_VIN_H, R.GLB_POWER, R.GLB_EVENT]))
    ∧ (∀ tj : Int, 460 ≤ tj → 9 ≤ x.chip.pwr.hot → x.live →
      Does (.tempReading tj) ⟨q, x⟩ (fun y => x.afterReset y 3 ∧ y.chip.pwr.thermal = true))
    ∧ (∀ tj : Int, x.chip.pwr.thermal = true →
      Does (.tempReading tj) ⟨q, x⟩ (fun y => x.sameMem y
        ∧ y.chip = { x.chip with out := [], pwr := { x.chip.pwr with thermal := decide (380 ≤ tj) } }))
    ∧ (∀ tj : Int, (tj < 460 ∨ x.chip.pwr.hot < 9) → x.live →
      let level := fun (hi lo : Nat) => (x.chip.rf R.GLB_THERM_CFG hi lo : Int) * 4
      Does (.tempReading tj) ⟨q, x⟩ (fun y => y.chip.rd R.GLB_TEMP = w32 (unsgn 12 tj)
        ∧ y.chip.pwr.hot = (if 460 ≤ tj then x.chip.pwr.hot + 1 else 0)
        ∧ (y.chip.pwr.warn = true ↔ level 7 0 ≤ tj ∨ (x.chip.pwr.warn = true ∧ level 7 0 - 12 ≤ tj))
        ∧ (y.chip.pwr.crit = true ↔ level 15 8 ≤ tj ∨ (x.chip.pwr.crit = true ∧ level 15 8 - 12 ≤ tj))
        ∧ (x.chip.pwr.warn = false → y.chip.pwr.warn = true → y.chip.rb R.GLB_EVENT 1 = true)
        ∧ (x.chip.pwr.crit = false → y.chip.pwr.crit = true → y.chip.rb R.GLB_EVENT 2 = true ∧ y.chip.svc.checks = [])
        ∧ (x.chip.pwr.crit = true ∨ y.chip.pwr.crit = false → y.chip.svc = x.chip.svc)
        ∧ x.only y (fun c => { c with svc := y.chip.svc, pwr := y.chip.pwr })
        ∧ x.regsBut y [R.GLB_TEMP, R.GLB_EVENT, R.SVC_EVENT, R.SVC_UND_LAST, R.SVC_UND_SKIP_CNT]))

/-- Each block becomes ready after the block that it starts after. A block becomes ready when the block that it
starts after is ready, and before that nothing changes: the Gatehouse on its own; the Yard, and with it the
calibration of all 16 lane groups begins, after the Gatehouse; service master, time unit, host lanes, tandem
lanes and Hayloft stacks after the Yard; an engine after the service master; the eight lanes of a group at the
end of its pass; the tandem bridge after its lanes; the host port after a processor has booted. After the
Gatehouse the active processor boots from its own slot, or, where that fails, from a copy of the other slot with
BOOT_REPAIR; with neither the Gatehouse holds. Completes with its own effect, under conditions on the state and
the operands alone: BLOCK_READY, PAVILION_BOOT. (16_bringup_reset_power R382, 15_security_and_ledger R359,
02_line_lanes R37) -/
def Obligations.BringUpOrder : Prop :=
  ∀ (q : List Instr) (x : Dev), x.live →
    Does (.blockReady .gatehouse) ⟨q, x⟩ (fun y => x.only y (fun c => { c with gth := { c.gth with ready := true } }) ∧ x.regsBut y [])
    ∧ (x.chip.gth.ready = true → x.chip.pwr.yard = false →
        Does (.blockReady .yard) ⟨q, x⟩ (fun y => (∀ g < 16, SMap.get [] y.chip.cals g = [8]) ∧ (∀ n < 128, (y.chip.lane n).calBusy = true)
          ∧ x.only y (fun c => { c with pwr := { c.pwr with yard := true }, cals := y.chip.cals, lanes := y.chip.lanes }) ∧ x.regsBut y []))
    ∧ (x.chip.gth.ready = false → Does (.blockReady .yard) ⟨q, x⟩ x.idle)
    ∧ (x.chip.pwr.yard = true → x.chip.svc.ready = false → Does (.blockReady .service) ⟨q, x⟩ (fun y => y.chip.svc.ready = true ∧ x.sameMem y))
    ∧ (x.chip.pwr.yard = true → x.chip.tim.ready = false →
        Does (.blockReady .time) ⟨q, x⟩ (fun y => x.only y (fun c => { c with dt := 0, tim := { c.tim with ready := true } }) ∧ x.regsBut y []))
    ∧ (∀ e < 136, x.chip.svc.ready = true → x.chip.engHeld e = false → e ∉ x.chip.engRdy → (SMap.get (0, 0) x.chip.pwr.engT e).2 = 0 →
        Does (.blockReady (.engine e)) ⟨q, x⟩ (fun y => x.only y (fun c => { c with engRdy := e :: c.engRdy }) ∧ x.regsBut y []))
    ∧ (∀ e < 136, x.chip.svc.ready = false → Does (.blockReady (.engine e)) ⟨q, x⟩ x.idle)
    ∧ (∀ g < 16, SMap.get [] x.chip.cals g = [8] →
        Does (.blockReady (.lanes g)) ⟨q, x⟩ (fun y => (∀ k < 8, (y.chip.lane (8 * g + k)).ready = true ∧ (y.chip.lane (8 * g + k)).calBusy = false)
          ∧ x.only y (fun c => { c with cals := y.chip.cals, lanes := y.chip.lanes }) ∧ x.regsBut y []))
    ∧ (∀ g < 16, SMap.get [] x.chip.cals g = [] → Does (.blockReady (.lanes g)) ⟨q, x⟩ x.idle)
    ∧ (x.chip.pwr.yard = true →
        Does (.blockReady .hostLanes) ⟨q, x⟩ (fun y => (∀ n, 128 ≤ n → n < 132 → (y.chip.lane n).ready = true)
          ∧ x.only y (fun c => { c with lanes := y.chip.lanes }) ∧ x.regsBut y [])
        ∧ Does (.blockReady .tandemLanes) ⟨q, x⟩ (fun y => (∀ n, 132 ≤ n → n < 140 → (y.chip.lane n).ready = true)
          ∧ x.only y (fun c => { c with lanes := y.chip.lanes }) ∧ x.regsBut y [])
        ∧ ∀ k < 4, Does (.blockReady (.stack k)) ⟨q, x⟩ (fun y => (y.chip.stack k).ready = true
          ∧ x.only y (fun c => { c with hbm := y.chip.hbm }) ∧ x.regsBut y []))
    ∧ (x.chip.pwr.yard = false → ∀ b ∈ [BootBlk.service, .time, .hostLanes, .tandemLanes, .stack 0, .stack 1, .stack 2, .stack 3],
        Does (.blockReady b) ⟨q, x⟩ x.idle)
    ∧ ((x.chip.lane 132).ready = true →
        Does (.blockReady .tandem) ⟨q, x⟩ (fun y => x.only y (fun c => { c with tdm := { c.tdm with ready := true } }) ∧ x.regsBut y []))
    ∧ ((x.chip.lane 132).ready = false → Does (.blockReady .tandem) ⟨q, x⟩ x.idle)
    ∧ (x.chip.pav.booted = true →
        Does (.blockReady .host) ⟨q, x⟩ (fun y => x.only y (fun c => { c with host := { c.host with ready := true } }) ∧ x.regsBut y []))
    ∧ (x.chip.pav.booted = false → Does (.blockReady .host) ⟨q, x⟩ x.idle)
    ∧ (∀ b : BootIn,
        let okA := b.slotA && x.chip.imageOk x.chip.sec.flash.slotA
        let okB := b.slotB && x.chip.imageOk x.chip.sec.flash.slotB
        let own := if x.chip.pav.active = 0 then okA else okB
        (x.chip.gth.ready = true → x.chip.pav.booted = false → x.chip.gth.st = .running →
          (own = true → b.cut = false →
            Does (.pavilionBoot b) ⟨q, x⟩ (fun y => y.chip.pav.booted = true ∧ y.chip.pav.dead = false ∧ y.chip.sec.bootOk = true
              ∧ y.chip.pav.active = x.chip.pav.active ∧ y.chip.sec.flash.slotA = x.chip.sec.flash.slotA
              ∧ y.chip.sec.flash.slotB = x.chip.sec.flash.slotB ∧ x.sameMem y))
          ∧ (own = false → (okA = true ∨ okB = true) → b.cut = false →
            Does (.pavilionBoot b) ⟨q, x⟩ (fun y => y.chip.pav.booted = true ∧ y.chip.pav.dead = false ∧ y.chip.sec.bootOk = true
              ∧ y.chip.sec.flash.slotA = y.chip.sec.flash.slotB ∧ y.chip.rb R.LED_EVENT 7 = true ∧ x.sameMem y))
          ∧ (okA = false → okB = false →
            Does (.pavilionBoot b) ⟨q, x⟩ (fun y => x.only y (fun c => { c with gth := { c.gth with st := .hold } }) ∧ x.regsBut y [])))
        ∧ ((x.chip.gth.ready = false ∨ x.chip.pav.booted = true ∨ x.chip.gth.st ≠ .running) →
            Does (.pavilionBoot b) ⟨q, x⟩ x.idle))

/-- Enabling, refusing, disabling and calibrating a line lane. LANE_ENABLE of a disabled, ready lane with a
valid configuration is answered OK and starts the receiver with LOS clear and no lock; a lane that is not READY,
or that the same write recalibrates, is answered NOT_READY, and an invalid configuration BAD_PARAM with CFG_ERR,
ENABLE staying 0; LANE_DISABLE is answered OK and stops the receiver quietly, with no count; the fixed LN_CTRL
of windows 128 to 139 answers NOT_PERMITTED and changes nothing. RECAL of a disabled lane is answered OK, clears
READY, sets CAL_BUSY and queues the lane behind the requests that its group already has; LANE_CALIBRATION_DONE
ends the pass at the front, making READY the lane of that pass, or all eight lanes at start-up, and the next
request of the group comes to the front; with no pass running nothing changes. Completes with its own effect,
under conditions on the state and the operands alone: LANE_ENABLE, LANE_DISABLE, RECAL, LANE_CALIBRATION_DONE.
(02_line_lanes R32, 02_line_lanes R37, 02_line_lanes R39, 02_line_lanes R417, 11_fenene_protocol R264,
14_tandem_mode R355) -/
def Obligations.LaneEnableAndCalibration : Prop :=
  ∀ (q : List Instr) (x : Dev), x.live →
    (∀ (sess n : Nat) (w : Word),
      (n < 128 → x.allows sess (R.LN_CTRL n) (setFld w 0 0 1) → x.chip.laneEn n = false →
        ((x.chip.lane n).ready = true → bit w 2 = false → x.chip.laneCfgOk n = true →
          Does (.laneEnable sess n w) ⟨q, x⟩ (fun y => y.answered .ok ∧ y.chip.laneEn n = true
            ∧ y.chip.lane n = (x.chip.lane n).idle x.chip.core ∧ (∀ m, m ≠ n → y.chip.lane m = x.chip.lane m)
            ∧ x.only y (fun c => { c with lanes := y.chip.lanes }) ∧ x.regsBut y [R.LN_CTRL n]))
        ∧ ((x.chip.lane n).ready = true → bit w 2 = false → x.chip.laneCfgOk n = false →
          Does (.laneEnable sess n w) ⟨q, x⟩ (fun y => y.answered .badParam ∧ y.chip.laneEn n = false ∧ y.chip.rb (R.LN_EVENT n) 9 = true
            ∧ x.only y ∧ x.regsBut y [R.LN_CTRL n, R.LN_EVENT n]))
        ∧ ((x.chip.lane n).ready = true → bit w 2 = true →
          Does (.laneEnable sess n w) ⟨q, x⟩ (fun y => y.answered .notReady ∧ y.chip.laneEn n = false ∧ (y.chip.lane n).ready = false
            ∧ SMap.get [] y.chip.cals (n / 8) = SMap.get [] x.chip.cals (n / 8) ++ [n % 8] ∧ x.sameMem y))
        ∧ ((x.chip.lane n).ready = false →
          Does (.laneEnable sess n w) ⟨q, x⟩ (fun y => y.answered .notReady ∧ y.chip.laneEn n = false ∧ x.only y ∧ x.regsBut y [])))
      ∧ (n < 128 → x.allows sess (R.LN_CTRL n) (setFld w 0 0 0) → x.chip.laneEn n = true →
          Does (.laneDisable sess n w) ⟨q, x⟩ (fun y => y.answered .ok ∧ y.chip.laneEn n = false ∧ (y.chip.lane n).los = false
            ∧ (y.chip.lane n).lock = false ∧ (y.chip.lane n).present = false ∧ x.sameMem y
            ∧ y.chip.rd (R.LN_LOS_CNT n) = x.chip.rd (R.LN_LOS_CNT n)
            ∧ y.chip.rd (R.LN_LOCK_LOSS_CNT n) = x.chip.rd (R.LN_LOCK_LOSS_CNT n)
            ∧ y.chip.rd (R.LN_FLAP_CNT n) = x.chip.rd (R.LN_FLAP_CNT n)))
      ∧ (128 ≤ n → n < 140 → x.allows sess (R.LN_CTRL n) (setFld w 0 0 1) →
          Does (.laneEnable sess n w) ⟨q, x⟩ (fun y => y.answered .notPermitted ∧ y.chip.laneEn n = x.chip.laneEn n ∧ x.only y ∧ x.regsBut y [])))
    ∧ (∀ sess n w, n < 128 → x.allows sess (R.LN_CTRL n) (setFld w 2 2 1) → x.chip.laneEn n = false → bit w 0 = false →
      Does (.recal sess n w) ⟨q, x⟩ (fun y => y.answered .ok ∧ (y.chip.lane n).ready = false ∧ (y.chip.lane n).calBusy = true
        ∧ SMap.get [] y.chip.cals (n / 8) = SMap.get [] x.chip.cals (n / 8) ++ [n % 8] ∧ (∀ m, m ≠ n → y.chip.lane m = x.chip.lane m)
        ∧ x.only y (fun c => { c with lanes := y.chip.lanes, cals := y.chip.cals }) ∧ x.regsBut y [R.LN_CTRL n]))
    ∧ (∀ g k l, g < 16 → SMap.get [] x.chip.cals g = k :: l → k < 8 → k ∉ l →
      Does (.laneCalibrationDone g) ⟨q, x⟩ (fun y => (y.chip.lane (8 * g + k)).ready = true
        ∧ (y.chip.lane (8 * g + k)).calBusy = false ∧ SMap.get [] y.chip.cals g = l
        ∧ (∀ m, m ≠ 8 * g + k → y.chip.lane m = x.chip.lane m)
        ∧ x.only y (fun c => { c with lanes := y.chip.lanes, cals := y.chip.cals }) ∧ x.regsBut y []))
    ∧ (∀ g, g < 16 → SMap.get [] x.chip.cals g = [8] →
      Does (.laneCalibrationDone g) ⟨q, x⟩ (fun y => ∀ k < 8, (y.chip.lane (8 * g + k)).ready = true))
    ∧ (∀ g, g < 16 → SMap.get [] x.chip.cals g = [] → Does (.laneCalibrationDone g) ⟨q, x⟩ x.idle)

/-- Loss of signal is declared and cleared after its set and clear times, which are written within their ranges.
On an enabled lane that is not in near-end loopback the raw condition follows transitions, lock and an offset
within 100 ppm: a change of it restarts the timers, a loss of it counts a flap, and while it holds the offset is
measured; a near-end loopback only takes the pin, and so does a device in reset. LOS_SET_EXPIRY declares LOS on
an enabled lane, not in calibration, that has been without signal for LN_LOS_SET units of 100 core cycles, with
its count and event flag, and every enabled lane clocked by it holds the offset last measured; LOS_CLR_EXPIRY
clears LOS after LN_LOS_CLR units with signal; otherwise neither changes anything. A write of LN_LOS_SET or
LN_LOS_CLR is answered OK and stores the value, or the nearer limit of 23 to 1,000 or of 100 to 1,000,000, and
changes nothing else. Completes with its own effect, under conditions on the state and the operands alone:
SIGNAL_CHANGE, LOS_SET_EXPIRY, LOS_CLR_EXPIRY, LOS_TIMER_CONFIG. (02_line_lanes R35, 02_line_lanes R40,
02_line_lanes R41, 02_line_lanes R42, 02_line_lanes R38) -/
def Obligations.LossOfSignalTimers : Prop :=
  ∀ (q : List Instr) (x : Dev) (n : Nat), n < 140 →
    (x.live → x.chip.laneEn n = true → x.chip.laneLoop n ≠ 1 → ∀ trans freq,
      let now := trans && (x.chip.lane n).lock && freqOk freq
      Does (.signalChange n trans freq) ⟨q, x⟩ (fun y => (y.chip.lane n).trans = trans ∧ (y.chip.lane n).freq = freq
        ∧ (y.chip.lane n).present = now ∧ (y.chip.lane n).meas = (if now then freq else (x.chip.lane n).meas)
        ∧ (y.chip.lane n).since = (if now = (x.chip.lane n).present then (x.chip.lane n).since else x.chip.core)
        ∧ (y.chip.rd (R.LN_FLAP_CNT n)).toNat
            = min ((x.chip.rd (R.LN_FLAP_CNT n)).toNat + b2n ((x.chip.lane n).present && !now)) 0xFFFFFFFF
        ∧ (∀ m, m ≠ n → y.chip.lane m = x.chip.lane m)
        ∧ x.only y (fun c => { c with lanes := y.chip.lanes }) ∧ x.regsBut y [R.LN_FLAP_CNT n]))
    ∧ (∀ trans freq, (¬ x.live ∨ x.chip.laneLoop n = 1) →
      Does (.signalChange n trans freq) ⟨q, x⟩ (fun y => (y.chip.lane n).trans = trans ∧ (y.chip.lane n).freq = freq ∧ x.sameMem y))
    ∧ (x.live → x.chip.laneEn n = true → (x.chip.lane n).calBusy = false → (x.chip.lane n).los = false → (x.chip.lane n).present = false →
        (x.chip.lane n).since + x.chip.rf (R.LN_LOS_SET n) 19 0 * 100 ≤ x.chip.core →
      Does (.losSetExpiry n) ⟨q, x⟩ (fun y => (y.chip.lane n).los = true ∧ y.chip.rb (R.LN_EVENT n) 0 = true
        ∧ (y.chip.rd (R.LN_LOS_CNT n)).toNat = min ((x.chip.rd (R.LN_LOS_CNT n)).toNat + 1) 0xFFFFFFFF
        ∧ (∀ m < 128, x.chip.laneEn m = true → x.chip.clkLane m = some n → (y.chip.lane m).txHold = some (x.chip.lane n).meas)
        ∧ x.sameMem y))
    ∧ (x.live → x.chip.laneEn n = true → (x.chip.lane n).calBusy = false → (x.chip.lane n).los = true → (x.chip.lane n).present = true →
        (x.chip.lane n).since + x.chip.rf (R.LN_LOS_CLR n) 19 0 * 100 ≤ x.chip.core →
      Does (.losClrExpiry n) ⟨q, x⟩ (fun y => (y.chip.lane n).los = false ∧ y.chip.rb (R.LN_EVENT n) 1 = true ∧ x.sameMem y))
    ∧ ((x.chip.laneEn n = false ∨ (x.chip.lane n).calBusy = true ∨ (x.chip.lane n).los = true ∨ (x.chip.lane n).present = true
          ∨ x.chip.core < (x.chip.lane n).since + x.chip.rf (R.LN_LOS_SET n) 19 0 * 100) →
        Does (.losSetExpiry n) ⟨q, x⟩ x.idle)
    ∧ ((x.chip.laneEn n = false ∨ (x.chip.lane n).calBusy = true ∨ (x.chip.lane n).los = false ∨ (x.chip.lane n).present = false
          ∨ x.chip.core < (x.chip.lane n).since + x.chip.rf (R.LN_LOS_CLR n) 19 0 * 100) →
        Does (.losClrExpiry n) ⟨q, x⟩ x.idle)
    ∧ (∀ sess w, x.live → x.allows sess (R.LN_LOS_SET n) w →
      Does (.losTimerConfig sess n false w) ⟨q, x⟩ (fun y => y.answered .ok ∧ x.only y ∧ x.regsBut y [R.LN_LOS_SET n]
        ∧ y.chip.rf (R.LN_LOS_SET n) 19 0 = max 23 (min 1000 (fld w 19 0))))
    ∧ (∀ sess w, x.live → x.allows sess (R.LN_LOS_CLR n) w →
      Does (.losTimerConfig sess n true w) ⟨q, x⟩ (fun y => y.answered .ok ∧ x.only y ∧ x.regsBut y [R.LN_LOS_CLR n]
        ∧ y.chip.rf (R.LN_LOS_CLR n) 19 0 = max 100 (min 1000000 (fld w 19 0))))

/-- Clock recovery and the transmit clock. CDR_LOCK locks an enabled, unlocked lane whose receiver has
transitions within 100 ppm, and otherwise changes nothing; LOCK_LOSS unlocks a locked enabled lane, with its
count and event flag, and otherwise changes nothing; TXCLK_SLEW_DONE ends the holdover of a transmitter whose
slew has come within 0.01 ppm of its source, and before that, or without a holdover, changes nothing. That the
slew runs at exactly 1 ppm per ms is the model's choice (log entry 62). Completes with its own effect, under
conditions on the state and the operands alone: CDR_LOCK, LOCK_LOSS, TXCLK_SLEW_DONE. (02_line_lanes R35,
02_line_lanes R42, 02_line_lanes R43) -/
def Obligations.ClockRecoveryAndHoldover : Prop :=
  ∀ (q : List Instr) (x : Dev) (n : Nat), n < 140 → x.live →
    (x.chip.laneEn n = true → (x.chip.lane n).lock = false → x.chip.rxTrans n = true → freqOk (x.chip.rxFreq n) = true →
      Does (.cdrLock n) ⟨q, x⟩ (fun y => (y.chip.lane n).lock = true ∧ (y.chip.lane n).present = true ∧ x.sameMem y))
    ∧ ((x.chip.laneEn n = false ∨ (x.chip.lane n).lock = true ∨ x.chip.rxTrans n = false ∨ freqOk (x.chip.rxFreq n) = false) →
      Does (.cdrLock n) ⟨q, x⟩ x.idle)
    ∧ (x.chip.laneEn n = true → (x.chip.lane n).lock = true →
      Does (.lockLoss n) ⟨q, x⟩ (fun y => (y.chip.lane n).lock = false ∧ (y.chip.lane n).present = false ∧ x.sameMem y
        ∧ y.chip.rb (R.LN_EVENT n) 2 = true
        ∧ (y.chip.rd (R.LN_LOCK_LOSS_CNT n)).toNat = min ((x.chip.rd (R.LN_LOCK_LOSS_CNT n)).toNat + 1) 0xFFFFFFFF))
    ∧ ((x.chip.laneEn n = false ∨ (x.chip.lane n).lock = false) → Does (.lockLoss n) ⟨q, x⟩ x.idle)
    ∧ (∀ h t m, (x.chip.lane n).txHold = some h → (x.chip.lane n).slewFrom = some t → x.chip.clkLane n = some m →
        ((slewAt h (x.chip.rxFreq m) t x.chip.core - x.chip.rxFreq m).natAbs ≤ 1 →
          Does (.txclkSlewDone n) ⟨q, x⟩ (fun y => (y.chip.lane n).txHold = none ∧ (y.chip.lane n).slewFrom = none
            ∧ (∀ k, k ≠ n → y.chip.lane k = x.chip.lane k)
            ∧ x.only y (fun c => { c with lanes := y.chip.lanes }) ∧ x.regsBut y []))
        ∧ (1 < (slewAt h (x.chip.rxFreq m) t x.chip.core - x.chip.rxFreq m).natAbs → Does (.txclkSlewDone n) ⟨q, x⟩ x.idle))
    ∧ (((x.chip.lane n).txHold = none ∨ (x.chip.lane n).slewFrom = none ∨ x.chip.clkLane n = none) → Does (.txclkSlewDone n) ⟨q, x⟩ x.idle)

/-- Module signals and module-bus transactions. A filtered change of ModPrsL or IntL is shown and logged as a
MODULE event, and levels already shown change nothing; GO starts a transaction of LENGTH + 1 bytes where none
runs and the module is present, is answered BUSY with OVERRUN where one runs, and ends at once with DONE and
ABSENT where no module is present; the end of a transaction clears BUSY and sets DONE with its status flag and
byte count, and a read leaves its bytes in LN_MMB_DATA; a stretch beyond its limit ends it with TIMEOUT. Where
no transaction runs, or the limit has not passed, nothing changes. That a LENGTH above 127 is taken modulo 128
is the model's choice (log entry 59). Completes with its own effect, under conditions on the state and the
operands alone: MODULE_SIGNAL_CHANGE, MMB_GO, MMB_DONE, MMB_STRETCH_TIMEOUT. (02_line_lanes R49, 02_line_lanes
R50) -/
def Obligations.ModuleSignalsAndBus : Prop :=
  ∀ (q : List Instr) (x : Dev) (k : Nat), k < 34 → x.live →
    let mod := R.LN_QUAD_MOD (cageIdx k)
    let st := R.LN_MMB_STATUS (cageIdx k)
    (∀ prs int, (x.chip.rb mod 0 ≠ prs ∨ x.chip.rb mod 1 ≠ int) →
      Does (.moduleSignalChange k prs int) ⟨q, x⟩ (fun y => y.chip.rb mod 0 = prs ∧ y.chip.rb mod 1 = int
        ∧ x.chip.logged y.chip (srcLane (cageIdx k)) 0x0104 (b2n prs + b2n int * 2) ∧ x.only y ∧ x.regsBut y [mod]))
    ∧ (∀ prs int, x.chip.rb mod 0 = prs → x.chip.rb mod 1 = int → Does (.moduleSignalChange k prs int) ⟨q, x⟩ x.idle)
    ∧ (∀ sess w, x.allows sess (R.LN_MMB_CMD (cageIdx k)) (setFld w 31 31 1) →
      ((x.chip.mmb k).busy = false → x.chip.rb mod 0 = true →
        Does (.mmbGo sess k w) ⟨q, x⟩ (fun y => y.answered .ok ∧ y.chip.rb st 0 = true
          ∧ y.chip.mmb k = ⟨true, bit w 16, fld w 15 8, fld w 7 0 % 128 + 1, x.chip.core⟩
          ∧ x.only y (fun c => { c with mmbs := y.chip.mmbs }) ∧ x.regsBut y [st]))
      ∧ ((x.chip.mmb k).busy = true →
        Does (.mmbGo sess k w) ⟨q, x⟩ (fun y => y.answered .busy ∧ y.chip.rb st 6 = true ∧ x.only y ∧ x.regsBut y [st]))
      ∧ ((x.chip.mmb k).busy = false → x.chip.rb mod 0 = false →
        Does (.mmbGo sess k w) ⟨q, x⟩ (fun y => y.answered .ok ∧ y.chip.rb st 1 = true ∧ y.chip.rb st 5 = true
          ∧ x.only y ∧ x.regsBut y [st])))
    ∧ (∀ n data, (x.chip.mmb k).busy = true → (x.chip.mmb k).length ≤ 128 →
      let ended := fun (y : Dev) (moved : Nat) => (y.chip.mmb k).busy = false ∧ y.chip.rb st 0 = false ∧ y.chip.rb st 1 = true
        ∧ y.chip.rf st 15 8 = moved ∧ x.only y (fun c => { c with mmbs := y.chip.mmbs })
        ∧ ((x.chip.mmb k).write = true → x.regsBut y [st])
        ∧ ((x.chip.mmb k).write = false → y.chip.mmbBytes (cageIdx k) moved = padTo moved 0 data)
      Does (.mmbDone k .done n data) ⟨q, x⟩ (fun y => ended y (x.chip.mmb k).length)
      ∧ Does (.mmbDone k .nack n data) ⟨q, x⟩ (fun y => ended y (min n (x.chip.mmb k).length) ∧ y.chip.rb st 2 = true)
      ∧ Does (.mmbDone k .stuck n data) ⟨q, x⟩ (fun y => ended y 0 ∧ y.chip.rb st 4 = true)
      ∧ Does (.mmbDone k .absent n data) ⟨q, x⟩ (fun y => ended y (min n (x.chip.mmb k).length) ∧ y.chip.rb st 5 = true)
      ∧ ((x.chip.mmb k).start + max 1 (x.chip.rf (R.LN_MMB_CFG (cageIdx k)) 15 8) * 1000000 ≤ x.chip.core →
        Does (.mmbStretchTimeout k n data) ⟨q, x⟩ (fun y => ended y (min n (x.chip.mmb k).length) ∧ y.chip.rb st 3 = true))
      ∧ (x.chip.core < (x.chip.mmb k).start + max 1 (x.chip.rf (R.LN_MMB_CFG (cageIdx k)) 15 8) * 1000000 →
        Does (.mmbStretchTimeout k n data) ⟨q, x⟩ x.idle))
    ∧ (∀ n data, (x.chip.mmb k).busy = false → Does (.mmbDone k .done n data) ⟨q, x⟩ x.idle ∧ Does (.mmbStretchTimeout k n data) ⟨q, x⟩ x.idle)

/-- A word reaches the hunter only while it flows; loss of frame is declared and cleared after its times. A
received word of an enabled, locked lane advances every stream position of the framed hunter of the enabled
engine bound to it by its 32 bits; a far-end loopback sends the word back; a near-end loopback takes the next
four octets that the lane's own transmitter has sent, and waits while there are fewer; while the lane is
unlocked or disabled the word changes nothing. LOF is declared when OOF or AMBIGUOUS has lasted LOF_SET units of
250,000 core cycles and cleared when IN_FRAME has lasted LOF_CLR units, each with its event flag; otherwise
neither expiry changes anything; a write of HNT_LOF is answered OK and stores each field within 1 to 64.
Completes with its own effect, under conditions on the state and the operands alone: LOF_SET_EXPIRY,
LOF_CLR_EXPIRY, LOF_TIMER_CONFIG, LINE_WORD. (02_line_lanes R43, 02_line_lanes R45, 02_line_lanes R46,
02_line_lanes R417, 03_frame_hunting R59, 03_frame_hunting R60, 03_frame_hunting R63) -/
def Obligations.LossOfFrameTimers : Prop :=
  ∀ (q : List Instr) (x : Dev), x.live →
    (∀ e, e < 136 →
      ((x.chip.hunter e).streams ≠ [] → (x.chip.hunter e).allIn = false → (x.chip.hunter e).lof = false →
          (x.chip.hunter e).since + x.chip.rf (R.HNT_LOF e) 6 0 * 250000 ≤ x.chip.core →
        Does (.lofSetExpiry e) ⟨q, x⟩ (fun y => (y.chip.hunter e).lof = true ∧ y.chip.rb (R.HNT_EVENT e) 2 = true ∧ x.sameMem y))
      ∧ (((x.chip.hunter e).allIn = true ∨ (x.chip.hunter e).streams = [] ∨ (x.chip.hunter e).lof = true
            ∨ x.chip.core < (x.chip.hunter e).since + x.chip.rf (R.HNT_LOF e) 6 0 * 250000) →
        Does (.lofSetExpiry e) ⟨q, x⟩ x.idle)
      ∧ ((x.chip.hunter e).allIn = true → (x.chip.hunter e).lof = true →
          (x.chip.hunter e).since + x.chip.rf (R.HNT_LOF e) 14 8 * 250000 ≤ x.chip.core →
        Does (.lofClrExpiry e) ⟨q, x⟩ (fun y => (y.chip.hunter e).lof = false ∧ y.chip.rb (R.HNT_EVENT e) 3 = true ∧ x.sameMem y))
      ∧ (((x.chip.hunter e).allIn = false ∨ (x.chip.hunter e).lof = false
            ∨ x.chip.core < (x.chip.hunter e).since + x.chip.rf (R.HNT_LOF e) 14 8 * 250000) →
        Does (.lofClrExpiry e) ⟨q, x⟩ x.idle)
      ∧ (∀ sess w, x.allows sess (R.HNT_LOF e) w → x.chip.subBusy e = false →
        Does (.lofTimerConfig sess e w) ⟨q, x⟩ (fun y => y.answered .ok ∧ x.only y
          ∧ y.chip.rf (R.HNT_LOF e) 6 0 = max 1 (min 64 (fld w 6 0)) ∧ y.chip.rf (R.HNT_LOF e) 14 8 = max 1 (min 64 (fld w 14 8)))))
    ∧ (∀ n w stamp poison, n < 128 →
      (x.chip.laneEn n = true → (x.chip.lane n).lock = true →
        (∀ e, x.chip.laneLoop n = 0 → x.chip.listeners n = [e] → x.chip.flows e = true → (x.chip.hunter e).streams ≠ [] →
          Does (.lineWord n w stamp poison) ⟨q, x⟩ (fun y => (y.chip.hunter e).bits = (x.chip.hunter e).bits + 32 ∧ x.sameMem y))
        ∧ (x.chip.laneLoop n = 2 → x.chip.listeners n = [] → x.chip.txIdle n = false →
            x.chip.rb (R.LN_CFG n) 6 = x.chip.rb (R.LN_CFG n) 7 →
          Does (.lineWord n w stamp poison) ⟨q, x⟩ (fun y => y.chip.out = [.lane n (x.chip.txFreq n) (beBytes 4 w.toNat)]
            ∧ x.only y ∧ x.regsBut y []))
        ∧ (x.chip.laneLoop n = 1 → (x.chip.lane n).loop.length < 4 → Does (.lineWord n w stamp poison) ⟨q, x⟩ x.idle)
        ∧ (x.chip.laneLoop n = 1 → 4 ≤ (x.chip.lane n).loop.length → x.chip.listeners n = [] →
          Does (.lineWord n w stamp poison) ⟨q, x⟩ (fun y => y.chip.lane n = { x.chip.lane n with loop := (x.chip.lane n).loop.drop 4 }
            ∧ x.only y (fun c => { c with lanes := y.chip.lanes }) ∧ x.regsBut y [])))
      ∧ ((x.chip.laneEn n = false ∨ (x.chip.lane n).lock = false) → Does (.lineWord n w stamp poison) ⟨q, x⟩ x.idle))

/-- REHUNT, FORCE and SNAP. REHUNT is answered OK and brings every stream of the hunter to OOF with none of its
candidates left, no lead and no forced entry, and in IDLE leaves the hunter as it is; FORCE on a live candidate
of a stream that is not IN_FRAME is answered OK, names that candidate and drops the others of its stream, and on
an empty entry, or one whose stream is IN_FRAME, sets FORCE_REJECT, is answered BAD_PARAM and leaves the hunter
as it is; SNAP is answered OK, copies the live table into HNT_CAND0 to 63 and leaves every hunter as it is. None
of them stores anything in memory. Completes with its own effect, under conditions on the state and the operands
alone: REHUNT, FORCE, SNAP. (03_frame_hunting R60, 03_frame_hunting R79) -/
def Obligations.HunterControls : Prop :=
  ∀ (q : List Instr) (x : Dev) (sess e : Nat), e < 136 → x.live → x.chip.subBusy e = false →
    (x.allows sess (R.HNT_CTRL e) 1 →
      Does (.rehunt sess e) ⟨q, x⟩ (fun y => y.answered .ok ∧ x.sameMem y
        ∧ (∀ s ∈ (y.chip.hunter e).streams, s.st = .oof ∧ s.lead = none ∧ s.forced = none)
        ∧ (∀ c ∈ (y.chip.hunter e).cands, (x.chip.hunter e).streams.length ≤ c.2.stream)
        ∧ ((x.chip.hunter e).streams = [] → x.chip.ganged e = false → y.chip.hunter e = x.chip.hunter e)))
    ∧ (∀ k < 64, x.allows sess (R.HNT_CTRL e) (w32 (2 + k * 2 ^ 8)) →
        let rejected := Does (.force sess e k) ⟨q, x⟩ (fun y => y.answered .badParam ∧ y.chip.rb (R.HNT_EVENT e) 7 = true
          ∧ y.chip.hunter e = x.chip.hunter e ∧ x.sameMem y)
        ((∀ c ∈ (x.chip.hunter e).cands, c.1 ≠ k) → rejected)
        ∧ (∀ c, (x.chip.hunter e).cands.find? (fun z => z.1 = k) = some c →
          (((x.chip.hunter e).stream c.2.stream).st = .inFrame → rejected)
          ∧ (((x.chip.hunter e).stream c.2.stream).st ≠ .inFrame → c.2.stream < (x.chip.hunter e).streams.length →
            Does (.force sess e k) ⟨q, x⟩ (fun y => y.answered .ok ∧ ((y.chip.hunter e).stream c.2.stream).forced = some k
              ∧ (∀ z ∈ (y.chip.hunter e).cands, z.2.stream = c.2.stream → z.1 = k) ∧ x.sameMem y))))
    ∧ (x.allows sess (R.HNT_CTRL e) 4 →
      Does (.snap sess e) ⟨q, x⟩ (fun y => y.answered .ok ∧ x.sameMem y ∧ y.chip.hunters = x.chip.hunters
        ∧ ∀ k < 64, y.chip.rd (R.HNT_CAND e k) = x.chip.candWord e k))

/-- Received and transmitted frames and the commit of byte overrides. A frame of an enabled framed line that is
IN_FRAME becomes the frame whose overhead is readable; one that only a candidate leads leaves that frame as it
is, and one of a stream that is neither, of a disabled engine, of a raw lane or of an engine that does not stand
for its line changes nothing, nor does a frame of the peer's engine outside a joined pair. A transmit frame of
an enabled engine that stands for its line sends octets, and applies in that frame every COMMIT written before
the last core cycle, with COMMIT_DONE, and keeps the others pending; that of another engine changes nothing.
OHP_COMMIT is answered OK, leaves COMMIT_PEND set and changes nothing else but registers. Completes with its own
effect, under conditions on the state and the operands alone: RX_FRAME, TX_FRAME_START, OHP_COMMIT. (04_overhead
R80, 04_overhead R81, 04_overhead R93, 04_overhead R94) -/
def Obligations.OverheadFrames : Prop :=
  ∀ (q : List Instr) (x : Dev), x.live →
    (∀ e fr, e < 136 →
      let led : Bool := if x.chip.ganged e then (x.chip.hunter e).groupTent else (x.chip.hunter e).align.isSome
      (x.chip.engEn e = true → x.chip.head e = e → isFramed (x.chip.engFmt e) = true →
        (x.chip.inFrame e = true →
          Does (.rxFrame e fr) ⟨q, x⟩ (fun y => (y.chip.ohp e).frame = lineOctets (x.chip.engFmt e) fr.octets ∧ x.sameMem y))
        ∧ (x.chip.inFrame e = false → led = true →
          Does (.rxFrame e fr) ⟨q, x⟩ (fun y => (y.chip.ohp e).frame = (x.chip.ohp e).frame ∧ x.sameMem y))
        ∧ (x.chip.inFrame e = false → led = false → Does (.rxFrame e fr) ⟨q, x⟩ x.idle))
      ∧ ((x.chip.engEn e = false ∨ x.chip.head e ≠ e ∨ isFramed (x.chip.engFmt e) = false) → Does (.rxFrame e fr) ⟨q, x⟩ x.idle))
    ∧ (∀ e fr, 136 ≤ e → e < 272 → (x.chip.joined = false ∨ x.chip.splitHold = true) → Does (.rxFrame e fr) ⟨q, x⟩ x.idle)
    ∧ (∀ e fr, e < 136 →
      (x.chip.engEn e = true → x.chip.head e = e →
        Does (.txFrameStart e fr) ⟨q, x⟩ (fun y => (∃ l, Out.octets e l ∈ y.chip.out)
          ∧ ((y.chip.ohp e).commit = (x.chip.ohp e).commit.filter (fun c => decide (x.chip.core ≤ c + 1)))
          ∧ ∀ c ∈ (x.chip.ohp e).commit, c + 1 < x.chip.core →
              (y.chip.ohp e).applied = x.chip.staged e ∧ y.chip.rb (R.OHP_EVENT e) 3 = true))
      ∧ ((x.chip.engEn e = false ∨ x.chip.head e ≠ e) → Does (.txFrameStart e fr) ⟨q, x⟩ x.idle))
    ∧ (∀ sess e, e < 136 → x.allows sess (R.OHP_CTRL e) 1 → x.chip.subBusy e = false →
        Does (.ohpCommit sess e) ⟨q, x⟩ (fun y => y.answered .ok ∧ (y.chip.ohp e).commit = (x.chip.ohp e).commit ++ [x.chip.core]
          ∧ bit (y.chip.readWord (R.OHP_STATUS e)) 0 = true ∧ (∀ m, m ≠ e → y.chip.ohp m = x.chip.ohp m)
          ∧ x.only y (fun c => { c with ohps := y.chip.ohps })))

/-- The trail-trace windows. A write of OHP_TTI_IDX that names a buffer is answered OK and copies its 64 octets
into OHP_TTI_DATA0 to 15, and one that names none is answered BAD_PARAM with IDX_ERR and leaves the index; STORE
copies the data registers into the named expected or transmit buffer, leaving every other buffer, and otherwise
is answered BAD_PARAM with IDX_ERR and leaves every buffer; a write of OHP_TTI_SLOT stores FMT, CRC_RAW and
TIM_MODE of the named slot, local or shared, clears its ACC_VALID and MISMATCH and restarts its run, keeping its
three buffers. Completes with its own effect, under conditions on the state and the operands alone:
TTI_IDX_WRITE, TTI_STORE, TTI_FMT_WRITE. (04_overhead R88, 04_overhead R89, 04_overhead R96) -/
def Obligations.TrailTraceBuffers : Prop :=
  ∀ (q : List Instr) (x : Dev) (sess e : Nat), e < 136 → x.live → x.chip.subBusy e = false →
    (∀ w, x.allows sess (R.OHP_TTI_IDX e) w → ((bit w 15 = true ∨ fld w 11 0 ≤ 7) ∧ fld w 17 16 < 3) →
      Does (.ttiIdxWrite sess e w) ⟨q, x⟩ (fun y => y.answered .ok ∧ x.only y
        ∧ y.chip.rf (R.OHP_TTI_IDX e) 11 0 = fld w 11 0 ∧ y.chip.rb (R.OHP_TTI_IDX e) 15 = bit w 15
        ∧ y.chip.rf (R.OHP_TTI_IDX e) 17 16 = fld w 17 16
        ∧ ∀ i < 16, y.chip.rd (ttiData e i)
          = w32 (ofBytes (((padTo 64 0 (let t := x.chip.trace (if bit w 15 then 4096 + fld w 11 0 else e * 8 + fld w 11 0)
              if fld w 17 16 = 0 then t.exp else if fld w 17 16 = 1 then t.acc else t.tx)).drop (4 * i)).take 4))))
    ∧ (∀ w, x.allows sess (R.OHP_TTI_IDX e) w → ((bit w 15 = false ∧ 7 < fld w 11 0) ∨ fld w 17 16 = 3) →
      Does (.ttiIdxWrite sess e w) ⟨q, x⟩ (fun y => y.answered .badParam ∧ y.chip.rb (R.OHP_EVENT e) 10 = true
        ∧ x.only y ∧ x.regsBut y [R.OHP_EVENT e]))
    ∧ (x.allows sess (R.OHP_TTI_CMD e) 1 →
      (∀ k, x.chip.ttiIdx e = some k →
        let l := (List.range 16).flatMap (fun i => beBytes 4 (x.chip.rd (ttiData e i)).toNat)
        (x.chip.rf (R.OHP_TTI_IDX e) 17 16 = 0 → Does (.ttiStore sess e) ⟨q, x⟩ (fun y => y.answered .ok
          ∧ y.chip.trace k = { x.chip.trace k with exp := l } ∧ (∀ j, j ≠ k → y.chip.trace j = x.chip.trace j)
          ∧ x.only y (fun c => { c with traces := y.chip.traces })))
        ∧ (x.chip.rf (R.OHP_TTI_IDX e) 17 16 = 2 → Does (.ttiStore sess e) ⟨q, x⟩ (fun y => y.answered .ok
          ∧ y.chip.trace k = { x.chip.trace k with tx := l } ∧ (∀ j, j ≠ k → y.chip.trace j = x.chip.trace j)
          ∧ x.only y (fun c => { c with traces := y.chip.traces }))))
      ∧ ((x.chip.ttiIdx e = none ∨ x.chip.rf (R.OHP_TTI_IDX e) 17 16 = 1 ∨ x.chip.rf (R.OHP_TTI_IDX e) 17 16 = 3) →
        Does (.ttiStore sess e) ⟨q, x⟩ (fun y => y.answered .badParam ∧ y.chip.rb (R.OHP_EVENT e) 10 = true
          ∧ x.only y ∧ x.regsBut y [R.OHP_EVENT e])))
    ∧ (∀ w k, x.allows sess (R.OHP_TTI_SLOT e) w → x.chip.ttiIdx e = some k →
      Does (.ttiFmtWrite sess e w) ⟨q, x⟩ (fun y => y.answered .ok ∧ x.sameMem y
        ∧ y.chip.rf (R.tslot_OHP_TTI_SLOT k) 5 0 = fld w 5 0 ∧ y.chip.rf (R.tslot_OHP_TTI_SLOT k) 9 8 = 0
        ∧ y.chip.trace k = (x.chip.trace k).restart ∧ (∀ j, j ≠ k → y.chip.trace j = x.chip.trace j)))

/-- Tributary contexts are enabled by their checks and disabled before their parents. A write that sets ENABLE
of a disabled context whose stored fields pass the checks of R100 is answered OK and enables it; one whose
fields fail them is answered BAD_PARAM with CFG_ERR and changes no context, and on an enabled context ENABLE
stays; a write that clears ENABLE disables an enabled context without enabled children, and is refused with
BAD_PARAM and CFG_ERR, ENABLE staying 1, when it has some; on a disabled context it changes no context.
Completes with its own effect, under conditions on the state and the operands alone: CONTEXT_ENABLE,
CONTEXT_DISABLE. (05_tributary_mapping R100, 05_tributary_mapping R103) -/
def Obligations.ContextEnableAndDisable : Prop :=
  ∀ (q : List Instr) (x : Dev) (sess t : Nat) (w : Word), t < 16384 → x.live →
    (x.allows sess (R.TRB_CFG t) (setFld w 0 0 1) →
      (x.chip.ctxEn t = false → (x.chip.store (R.TRB_CFG t) (setFld w 0 0 1) 1).ctxOk t = true →
        Does (.contextEnable sess t w) ⟨q, x⟩ (fun y => y.answered .ok ∧ y.chip.ctxEn t = true ∧ x.sameMem y))
      ∧ (x.chip.ctxEn t = false → (x.chip.store (R.TRB_CFG t) (setFld w 0 0 1) 1).ctxOk t = false →
        Does (.contextEnable sess t w) ⟨q, x⟩ (fun y => y.answered .badParam ∧ y.chip.ctxEn t = false
          ∧ y.chip.rb (R.TRB_EVENT t) 11 = true ∧ x.only y ∧ x.regsBut y [R.TRB_CFG t, R.TRB_EVENT t]))
      ∧ (x.chip.ctxEn t = true →
        Does (.contextEnable sess t w) ⟨q, x⟩ (fun y => y.answered .ok ∧ y.chip.ctxEn t = true
          ∧ x.only y ∧ x.regsBut y [R.TRB_CFG t])))
    ∧ (x.allows sess (R.TRB_CFG t) (setFld w 0 0 0) →
      (x.chip.ctxEn t = true → (x.chip.store (R.TRB_CFG t) (setFld w 0 0 0) 1).hasKids t = false →
        Does (.contextDisable sess t w) ⟨q, x⟩ (fun y => y.answered .ok ∧ y.chip.ctxEn t = false ∧ x.sameMem y))
      ∧ (x.chip.ctxEn t = true → (x.chip.store (R.TRB_CFG t) (setFld w 0 0 0) 1).hasKids t = true →
        Does (.contextDisable sess t w) ⟨q, x⟩ (fun y => y.answered .badParam ∧ y.chip.ctxEn t = true
          ∧ y.chip.rb (R.TRB_EVENT t) 11 = true ∧ x.only y ∧ x.regsBut y [R.TRB_CFG t, R.TRB_EVENT t]))
      ∧ (x.chip.ctxEn t = false →
        Does (.contextDisable sess t w) ⟨q, x⟩ (fun y => y.answered .ok ∧ y.chip.ctxEn t = false
          ∧ x.only y ∧ x.regsBut y [R.TRB_CFG t])))

/-- Pointer sequence programs and pointer periods. SEQ_GO starts the program of an enabled context of this
engine in SEQ mode, from its first step, and for any other context changes no context and sets bit 0 of
MAP_EVENT; SEQ_STOP asks a running program of a context of this engine to end after its pointer period, and
otherwise changes no context; both are answered OK. A pointer period of an enabled context of an enabled engine
sends a container, with PAYLOAD_SRC as it then stands; that of any other context changes nothing. Completes with
its own effect, under conditions on the state and the operands alone: SEQ_GO, SEQ_STOP, POINTER_PERIOD_START.
(05_tributary_mapping R112, 05_tributary_mapping R113, 05_tributary_mapping R121) -/
def Obligations.PointerPrograms : Prop :=
  ∀ (q : List Instr) (x : Dev) (t : Nat), t < 16384 → x.live →
    (∀ sess e, e < 136 → x.allows sess (R.MAP_CTRL e) (w32 (t + 2 ^ 14)) → x.chip.subBusy e = false →
      (x.chip.ctxEn t = true → x.chip.ctxOwner t = e → x.chip.rf (R.TRB_TX t) 3 2 = 2 →
        Does (.seqGo sess e t) ⟨q, x⟩ (fun y => y.answered .ok
          ∧ y.chip.ctx t = { x.chip.ctx t with seq := some ⟨0, 0, x.chip.seqWait t 0 + 1, false⟩ }
          ∧ (∀ u, u ≠ t → y.chip.ctx u = x.chip.ctx u) ∧ x.only y (fun c => { c with ctxs := y.chip.ctxs })))
      ∧ ((x.chip.ctxEn t = false ∨ x.chip.ctxOwner t ≠ e ∨ x.chip.rf (R.TRB_TX t) 3 2 ≠ 2) →
        Does (.seqGo sess e t) ⟨q, x⟩ (fun y => y.answered .ok ∧ x.only y ∧ y.chip.rb (R.MAP_EVENT e) 0 = true)))
    ∧ (∀ sess e, e < 136 → x.allows sess (R.MAP_CTRL e) (w32 (t + 2 ^ 15)) → x.chip.subBusy e = false →
      (∀ z, x.chip.ctxOwner t = e → (x.chip.ctx t).seq = some z →
        Does (.seqStop sess e t) ⟨q, x⟩ (fun y => y.answered .ok ∧ y.chip.ctx t = { x.chip.ctx t with seq := some { z with stop := true } }
          ∧ (∀ u, u ≠ t → y.chip.ctx u = x.chip.ctx u) ∧ x.only y (fun c => { c with ctxs := y.chip.ctxs })))
      ∧ ((x.chip.ctxOwner t ≠ e ∨ (x.chip.ctx t).seq = none) →
        Does (.seqStop sess e t) ⟨q, x⟩ (fun y => y.answered .ok ∧ x.only y)))
    ∧ (∀ u, x.chip.ctxEn t = true → x.chip.engEn (x.chip.ctxOwner t) = true →
      Does (.pointerPeriodStart t u) ⟨q, x⟩ (fun y => (∃ p j l, Out.container t p j l ∈ y.chip.out)
        ∧ (y.chip.ctx t).src = x.chip.rf (R.TRB_TX t) 1 0))
    ∧ (∀ u, (x.chip.ctxEn t = false ∨ x.chip.engEn (x.chip.ctxOwner t) = false) →
      Does (.pointerPeriodStart t u) ⟨q, x⟩ x.idle)

/-- Defects are declared and cleared after their integration times. A defect of a line, or of a tributary
context, whose criterion is evaluated and has held for its set time is declared, with its status bit and its
event bit, and one whose clearing criterion has held for its clear time is cleared, with its event bit; before
that time, with another criterion, or where the criterion is not evaluated, the expiry leaves it as it is;
nothing is stored in memory. Of LOP, AIS, MSIM and PARENT_FAIL of a context (bits 0, 1, 10 and 11), which follow
the state that its parent brings, only the event is stated. SF or SD of an engine of the joined peer is kept as
the bridge reports it, and is left as it is outside a joined pair. A write of the integration times is answered
OK and stores each within 0 to 10,000. Completes with its own effect, under conditions on the state and the
operands alone: DEFECT_SET_EXPIRY, DEFECT_CLR_EXPIRY, INTEG_TIME_CONFIG. (06_defects_and_protection R123,
06_defects_and_protection R124, 14_tandem_mode R346) -/
def Obligations.DefectIntegration : Prop :=
  ∀ (q : List Instr) (x : Dev), x.live →
    (∀ (path : Bool) (n b : Nat), b < 24 → n < (if path then 16384 else 136) →
      let k : DKey := if path then .path n b else .line n b
      let own : Prop := path = false ∨ b ∉ [0, 1, 10, 11]
      let event : Dev → Prop := fun y => if path then y.chip.rb (R.DEF_EVENT (x.chip.ctxOwner n)) 27 = true else y.chip.rb (R.DEF_EVENT n) b = true
      (x.chip.defEval k = true → (x.chip.defT k).crit = some true → x.chip.defUp k = false →
          (x.chip.defT k).since + x.chip.defTime k true ≤ x.chip.core →
        Does (.defectSetExpiry path n b) ⟨q, x⟩ (fun y => (own → y.chip.defUp k = true) ∧ event y ∧ x.sameMem y))
      ∧ (x.chip.defEval k = true → (x.chip.defT k).crit = some false → x.chip.defUp k = true →
          (x.chip.defT k).since + x.chip.defTime k false ≤ x.chip.core →
        Does (.defectClrExpiry path n b) ⟨q, x⟩ (fun y => (own → y.chip.defUp k = false) ∧ event y ∧ x.sameMem y))
      ∧ (own →
          (x.chip.defEval k = false ∨ (x.chip.defT k).crit ≠ some true ∨ x.chip.core < (x.chip.defT k).since + x.chip.defTime k true) →
        Does (.defectSetExpiry path n b) ⟨q, x⟩ (fun y => y.chip.defUp k = x.chip.defUp k ∧ x.sameMem y))
      ∧ (own →
          (x.chip.defEval k = false ∨ (x.chip.defT k).crit ≠ some false ∨ x.chip.core < (x.chip.defT k).since + x.chip.defTime k false) →
        Does (.defectClrExpiry path n b) ⟨q, x⟩ (fun y => y.chip.defUp k = x.chip.defUp k ∧ x.sameMem y)))
    ∧ (∀ e, 136 ≤ e → e < 272 →
      ((x.chip.tdmSt = 2 ∨ x.chip.tdmSt = 3) →
        Does (.defectSetExpiry false e 24) ⟨q, x⟩ (fun y => e ∈ y.chip.tdm.sf ∧ x.sameMem y)
        ∧ Does (.defectClrExpiry false e 24) ⟨q, x⟩ (fun y => e ∉ y.chip.tdm.sf ∧ x.sameMem y)
        ∧ Does (.defectSetExpiry false e 25) ⟨q, x⟩ (fun y => e ∈ y.chip.tdm.sd ∧ x.sameMem y)
        ∧ Does (.defectClrExpiry false e 25) ⟨q, x⟩ (fun y => e ∉ y.chip.tdm.sd ∧ x.sameMem y))
      ∧ (x.chip.tdmSt ≠ 2 → x.chip.tdmSt ≠ 3 → ∀ b,
        Does (.defectSetExpiry false e b) ⟨q, x⟩ x.idle ∧ Does (.defectClrExpiry false e b) ⟨q, x⟩ x.idle))
    ∧ (∀ sess e w path, e < 136 → x.chip.subBusy e = false →
        let r := if path then R.DEF_INTEG_PATH e else R.DEF_INTEG_LINE e
        x.allows sess r w →
        Does (.integTimeConfig sess e path w) ⟨q, x⟩ (fun y => y.answered .ok ∧ x.only y
          ∧ y.chip.rf r 13 0 = min 10000 (fld w 13 0) ∧ y.chip.rf r 29 16 = min 10000 (fld w 29 16)))

/-- Bit-error windows and performance seconds. The end of an SF or SD window of an enabled engine with at least
SET errors declares SF or SD of its layer, and that of a window below CLR that completes CLR_WINDOWS such
windows clears it, each leaving an empty window; at the end of an SF window a changed LAYER takes effect, with
both windows empty and both defects of the former layer cleared; an unfinished window, one with WINDOW 0, or one
of a disabled engine is not judged and nothing changes. A write of a SET or CLR word stores it, and a WIN word
its fields, and with WINDOW 0 the defect clears and the window is abandoned. A second that has ended is put
among those to be counted, once; it is counted 10 s after its end, when LAST_SEC names it: in each layer that
has it pending into UAS when unavailable and into ES, SES and BBE else; before that nothing changes. Completes
with its own effect, under conditions on the state and the operands alone: BIP_WINDOW_END, SF_SD_WINDOW_CONFIG,
PM_SECOND_END, PM_SECOND_COUNTED. (06_defects_and_protection R131, 06_defects_and_protection R135,
06_defects_and_protection R137) -/
def Obligations.SignalWindowsAndSeconds : Prop :=
  ∀ (q : List Instr) (x : Dev) (e : Nat), e < 136 → x.live →
    (∀ sd : Bool,
      let m := x.chip.mon e
      let k := DKey.line e (winDef m.layer sd)
      (x.chip.engEn e = true → (m.win sd).window ≠ 0 → (m.win sd).window ≤ (m.win sd).frames → m.layer < 2 →
        ((sd = true ∨ x.chip.rf (R.DEF_SF_WIN e) 20 20 = m.layer) →
          ((m.win sd).set ≠ 0 → (m.win sd).set ≤ (m.win sd).errs →
            Does (.bipWindowEnd e sd) ⟨q, x⟩ (fun y => y.chip.defUp k = true ∧ (y.chip.mon e).win sd = Win.init ∧ x.sameMem y))
          ∧ (((m.win sd).set = 0 ∨ (m.win sd).errs < (m.win sd).set) → (m.win sd).errs < (m.win sd).clr →
              max 1 (x.chip.winCfg e sd).2.2.2 ≤ (m.win sd).below + 1 →
            Does (.bipWindowEnd e sd) ⟨q, x⟩ (fun y => y.chip.defUp k = false
              ∧ (y.chip.mon e).win sd = { Win.init with below := (m.win sd).below + 1 } ∧ x.sameMem y)))
        ∧ (sd = false → x.chip.rf (R.DEF_SF_WIN e) 20 20 ≠ m.layer →
          Does (.bipWindowEnd e sd) ⟨q, x⟩ (fun y => (y.chip.mon e).layer = x.chip.rf (R.DEF_SF_WIN e) 20 20
            ∧ (y.chip.mon e).sf = Win.init ∧ (y.chip.mon e).sd = Win.init
            ∧ (∀ b : Bool, y.chip.defUp (.line e (winDef m.layer b)) = false) ∧ x.sameMem y)))
      ∧ ((x.chip.engEn e = false ∨ (m.win sd).window = 0 ∨ (m.win sd).frames < (m.win sd).window) →
        Does (.bipWindowEnd e sd) ⟨q, x⟩ x.idle))
    ∧ (∀ sess k w, k < 6 → x.chip.subBusy e = false → x.allows sess (winReg e k) w →
        Does (.sfSdWindowConfig sess e k w) ⟨q, x⟩ (fun y => y.answered .ok ∧ x.sameMem y
          ∧ (k % 3 ≠ 0 → y.chip.rd (winReg e k) = w)
          ∧ (k % 3 = 0 → y.chip.rf (winReg e k) 19 0 = fld w 19 0)
          ∧ (k % 3 = 0 → fld w 15 0 = 0 → (x.chip.mon e).layer < 2 →
              y.chip.defUp (.line e (winDef (x.chip.mon e).layer (decide (k = 3)))) = false
              ∧ (y.chip.mon e).win (decide (k = 3)) = Win.init)))
    ∧ (x.chip.dt / secTicks ≠ (x.chip.mon e).sec →
        Does (.pmSecondEnd e) ⟨q, x⟩ (fun y => (y.chip.mon e).sec = x.chip.dt / secTicks
          ∧ (y.chip.mon e).waits = (x.chip.mon e).waits ++ [(x.chip.mon e).sec] ∧ x.sameMem y))
    ∧ (x.chip.dt / secTicks = (x.chip.mon e).sec → Does (.pmSecondEnd e) ⟨q, x⟩ x.idle)
    ∧ (∀ k l, (x.chip.mon e).waits = k :: l →
      ((k + 11) * secTicks ≤ x.chip.dt → k < 2 ^ 24 →
        Does (.pmSecondCounted e) ⟨q, x⟩ (fun y => (y.chip.mon e).waits = l ∧ y.chip.rf (R.DEF_PM_STATUS e) 31 8 = k ∧ x.sameMem y
          ∧ ∀ j p s rest, j < 4 → (x.chip.mon e).pm[j]? = some p → p.pend = s :: rest → s.sec = k →
              let more := fun (i n : Nat) => (y.chip.rd (pmReg e j i)).toNat = min ((x.chip.rd (pmReg e j i)).toNat + n) 0xFFFFFFFF
              (p.unavailAt = true → more 3 1 ∧ more 0 0 ∧ more 1 0 ∧ more 2 0)
              ∧ (p.unavailAt = false → more 0 (b2n s.es) ∧ more 1 (b2n s.ses) ∧ more 2 (if s.ses then 0 else s.bbe) ∧ more 3 0)))
      ∧ (x.chip.dt < (k + 11) * secTicks → Does (.pmSecondCounted e) ⟨q, x⟩ x.idle))
    ∧ ((x.chip.mon e).waits = [] → Does (.pmSecondCounted e) ⟨q, x⟩ x.idle)

/-- Protection groups are enabled, disabled and given members. A write that sets ENABLE of a disabled group
whose Hayloft stacks are ready is answered OK and brings it out of DISABLED when the checks of R139 pass, and
BAD_PARAM with CFG_ERR when they fail; with its stacks not ready it is answered NOT_READY; an enabled group
stays enabled, in the state it has. One that clears it returns an enabled group to DISABLED, with no command and
its selector on working or to go there, and leaves a disabled one. A member register takes the written word when
the groups that it names before and after are disabled, and else the write is refused with NOT_APPLIED_ENABLED
and its flag. None of them stores anything in memory. Completes with its own effect, under conditions on the
state and the operands alone: APS_GROUP_ENABLE, APS_GROUP_DISABLE, APS_MEMBER_WRITE. (06_defects_and_protection
R139, 06_defects_and_protection R145, 09_yard_and_hayloft R383, 12_register_space R304) -/
def Obligations.ProtectionGroupSetup : Prop :=
  ∀ (q : List Instr) (x : Dev) (sess h : Nat) (w : Word), h < 136 → x.live → x.chip.subBusy h = false →
    (x.allows sess (R.APS_CFG h) (setFld w 0 0 1) →
      (x.chip.rb (R.APS_CFG h) 0 = false →
        let c := x.chip.store (R.APS_CFG h) (setFld w 0 0 1) 1
        (c.dskReady h = true → c.apsChecks h = true →
          Does (.apsGroupEnable sess h w) ⟨q, x⟩ (fun y => y.answered .ok ∧ y.chip.rb (R.APS_CFG h) 0 = true
            ∧ (y.chip.group h).st ≠ .disabled ∧ (y.chip.group h).ever = true ∧ x.sameMem y))
        ∧ (c.dskReady h = true → c.apsChecks h = false →
          Does (.apsGroupEnable sess h w) ⟨q, x⟩ (fun y => y.answered .badParam ∧ y.chip.rb (R.APS_CFG h) 0 = false
            ∧ y.chip.rb (R.APS_EVENT h) 9 = true ∧ x.only y ∧ x.regsBut y [R.APS_CFG h, R.APS_EVENT h]))
        ∧ (c.dskReady h = false →
          Does (.apsGroupEnable sess h w) ⟨q, x⟩ (fun y => y.answered .notReady ∧ y.chip.rb (R.APS_CFG h) 0 = false
            ∧ x.only y ∧ x.regsBut y [R.APS_CFG h])))
      ∧ (x.chip.rb (R.APS_CFG h) 0 = true →
          Does (.apsGroupEnable sess h w) ⟨q, x⟩ (fun y => y.answered .ok ∧ y.chip.rb (R.APS_CFG h) 0 = true ∧ x.only y)))
    ∧ (x.allows sess (R.APS_CFG h) (setFld w 0 0 0) →
      (x.chip.rb (R.APS_CFG h) 0 = true →
        Does (.apsGroupDisable sess h w) ⟨q, x⟩ (fun y => y.answered .ok ∧ y.chip.rb (R.APS_CFG h) 0 = false
          ∧ (y.chip.group h).st = .disabled ∧ (y.chip.group h).cmd = none
          ∧ ((y.chip.group h).sel = 0 ∨ (y.chip.group h).next = some 0) ∧ x.sameMem y))
      ∧ (x.chip.rb (R.APS_CFG h) 0 = false →
        Does (.apsGroupDisable sess h w) ⟨q, x⟩ (fun y => y.answered .ok ∧ y.chip.rb (R.APS_CFG h) 0 = false ∧ x.only y)))
    ∧ (x.allows sess (R.APS_MEMBER h) w →
        Does (.apsMemberWrite sess h w) ⟨q, x⟩ (fun y => y.answered .ok ∧ y.chip.rf (R.APS_MEMBER h) 7 0 = fld w 7 0
          ∧ y.chip.rf (R.APS_MEMBER h) 11 8 = fld w 11 8 ∧ y.chip.rb (R.APS_MEMBER h) 12 = bit w 12
          ∧ y.chip.rb (R.APS_MEMBER h) 13 = bit w 13 ∧ x.only y))
    ∧ (x.chip.accessCheck sess (R.APS_MEMBER h).addr true = .ok (R.APS_MEMBER h) →
        (x.chip.memberBusy (x.chip.rd (R.APS_MEMBER h)) = true ∨ x.chip.memberBusy w = true) →
        Does (.apsMemberWrite sess h w) ⟨q, x⟩ (fun y => x.refusedWith y sess (R.APS_MEMBER h).addr .notAppliedEnabled
          ∧ y.chip.rb (R.APS_EVENT h) 8 = true ∧ y.chip.rd (R.APS_MEMBER h) = x.chip.rd (R.APS_MEMBER h) ∧ x.sameMem y))

/-- The external commands of a protection group. An enabled group accepts LOCKOUT and CLEAR always, a forced
switch of one of its channels unless a lockout or SF of the protect line stands, and a manual switch or exercise
of one of its channels when its request is higher than the top; a command accepted is answered OK and is the
stored one, and CLEAR leaves none; every other command is answered NOT_PERMITTED with CMD_REJECT and changes no
group, and so is every command to a disabled group. None of them stores anything in memory. Completes with its
own effect, under conditions on the state and the operands alone: LOCKOUT, CLEAR, FORCE_SWITCH, MANUAL,
EXERCISE. (06_defects_and_protection R140, 06_defects_and_protection R144) -/
def Obligations.ProtectionCommands : Prop :=
  ∀ (q : List Instr) (x : Dev) (sess h chan : Nat), h < 136 → chan < 16 → x.live → x.chip.subBusy h = false →
    (∀ c, c < 5 → x.allows sess (R.APS_CMD h) (apsCmdWord c chan)) →
    let asked := x.chip.apsLocal h ++ (x.chip.apsRxReq h).toList
    let top := topOf asked
    let kept := fun (i : Instr) (c : Option ReqCh) => Does i ⟨q, x⟩ (fun y => y.answered .ok ∧ (y.chip.group h).cmd = c ∧ x.sameMem y)
    let turnedAway := fun (i : Instr) => Does i ⟨q, x⟩ (fun y => y.answered .notPermitted ∧ y.chip.rb (R.APS_EVENT h) 1 = true
      ∧ x.only y ∧ x.regsBut y [R.APS_EVENT h])
    let ours := 1 ≤ chan ∧ chan ≤ x.chip.apsN h
    let blocked := ∃ r ∈ asked, r.req = .lo ∨ r.req = .sfP
    ((x.chip.group h).st ≠ .disabled →
      kept (.lockout sess h chan) (some ⟨.lo, 0⟩) ∧ kept (.clear sess h chan) none
      ∧ (ours → ¬ blocked → kept (.forceSwitch sess h chan) (some ⟨.fs, chan⟩))
      ∧ ((¬ ours ∨ blocked) → turnedAway (.forceSwitch sess h chan))
      ∧ (ours → PReq.ms.rank < top.req.rank → kept (.manual sess h chan) (some ⟨.ms, chan⟩))
      ∧ ((¬ ours ∨ top.req.rank ≤ PReq.ms.rank) → turnedAway (.manual sess h chan))
      ∧ (ours → PReq.exer.rank < top.req.rank → kept (.exercise sess h chan) (some ⟨.exer, chan⟩))
      ∧ ((¬ ours ∨ top.req.rank ≤ PReq.exer.rank) → turnedAway (.exercise sess h chan)))
    ∧ ((x.chip.group h).st = .disabled →
      ∀ i ∈ [Instr.lockout sess h chan, .clear sess h chan, .forceSwitch sess h chan, .manual sess h chan, .exercise sess h chan], turnedAway i)

/-- Hold-off, wait to restore, failure of protocol and selector changes. A hold-off that has run out raises the
channel's SF or SD request; WTR that has run out sets its event flag; channels that have differed for 50 ms
declare failure of protocol, once, with its event flag and event; a decided selector change takes effect at its
boundary, with its count, event flag and Device Time. Where no timer is due, in a cross-unit group in split
hold, and where no change is decided, nothing changes. Completes with its own effect, under conditions on the
state and the operands alone: HOLDOFF_EXPIRY, WTR_EXPIRY, FOP_DECLARE, SELECTOR_CHANGE.
(06_defects_and_protection R143, 06_defects_and_protection R145, 06_defects_and_protection R146,
06_defects_and_protection R153, 14_tandem_mode R349) -/
def Obligations.ProtectionTimers : Prop :=
  ∀ (q : List Instr) (x : Dev) (h : Nat), h < 136 → x.live →
    (∀ c sd due, x.chip.apsFrozen h = false → ⟨c, sd, due⟩ ∈ (x.chip.group h).holds → due ≤ x.chip.core →
        Does (.holdoffExpiry h c) ⟨q, x⟩ (fun y => c ∈ (if sd then (y.chip.group h).sdUp else (y.chip.group h).sfUp)
          ∧ (∀ t ∈ (y.chip.group h).holds, t.chan = c → x.chip.core < t.due) ∧ x.sameMem y))
    ∧ (∀ c, (x.chip.apsFrozen h = true ∨ ∀ t ∈ (x.chip.group h).holds, t.chan = c → x.chip.core < t.due) →
        Does (.holdoffExpiry h c) ⟨q, x⟩ x.idle)
    ∧ (∀ t, (x.chip.group h).st = .wtr → (x.chip.group h).wtrDue = some t → x.chip.apsFrozen h = false → t ≤ x.chip.core →
        Does (.wtrExpiry h) ⟨q, x⟩ (fun y => y.chip.rb (R.APS_EVENT h) 2 = true ∧ x.sameMem y))
    ∧ (((x.chip.group h).st ≠ .wtr ∨ (x.chip.group h).wtrDue = none ∨ x.chip.apsFrozen h = true
          ∨ ∃ t, (x.chip.group h).wtrDue = some t ∧ x.chip.core < t) →
        Does (.wtrExpiry h) ⟨q, x⟩ x.idle)
    ∧ (∀ t, (x.chip.group h).fopFrom = some t → t + 50000000 ≤ x.chip.core → (x.chip.group h).fop = false → x.chip.apsFrozen h = false →
        Does (.fopDeclare h) ⟨q, x⟩ (fun y => y.chip.group h = { x.chip.group h with fop := true } ∧ y.chip.rb (R.APS_EVENT h) 3 = true
          ∧ x.chip.logged y.chip h 0x0512 0 ∧ (∀ k, k ≠ h → y.chip.group k = x.chip.group k)
          ∧ x.only y (fun c => { c with groups := y.chip.groups }) ∧ x.regsBut y [R.APS_EVENT h]))
    ∧ (((x.chip.group h).fopFrom = none ∨ (x.chip.group h).fop = true ∨ x.chip.apsFrozen h = true
          ∨ ∃ t, (x.chip.group h).fopFrom = some t ∧ x.chip.core < t + 50000000) →
        Does (.fopDeclare h) ⟨q, x⟩ x.idle)
    ∧ (∀ c, (x.chip.group h).next = some c →
        Does (.selectorChange h) ⟨q, x⟩ (fun y => y.chip.group h = { x.chip.group h with sel := c, next := none }
          ∧ y.chip.rb (R.APS_EVENT h) 0 = true ∧ y.chip.pair (R.APS_SW_TIME_LO h) (R.APS_SW_TIME_HI h) = x.chip.dt % 2 ^ 64
          ∧ (y.chip.rd (R.APS_SW_CNT h)).toNat = min ((x.chip.rd (R.APS_SW_CNT h)).toNat + 1) 0xFFFFFFFF ∧ x.sameMem y))
    ∧ ((x.chip.group h).next = none → Does (.selectorChange h) ⟨q, x⟩ x.idle)

/-- The deskew engine of a hitless group. A frame of a path of an enabled hitless group that is not LOCKED and
has no signature of the other path joins the signatures of its path, at their front, and leaves the state of the
deskew engine; in every enabled hitless group it changes memory only in its slot of the delay line, and in a
group that is disabled or not hitless it changes nothing. When no offset within 16 ms matches for 16 ms of
seeking with eight frames of both paths the deskew engine gives up the search (DSK_STATUS.STATE 3), and
otherwise goes on as it is; a re-base that has paused long enough ends, and before that nothing changes. Where
in the delay line a frame lies is the model's choice (log entry 76). Completes with its own effect, under
conditions on the state and the operands alone: DESKEW_FRAME, DESKEW_NO_MATCH, REBASE_DONE.
(06_defects_and_protection R148, 06_defects_and_protection R150, 06_defects_and_protection R151,
06_defects_and_protection R152) -/
def Obligations.HitlessDeskew : Prop :=
  ∀ (q : List Instr) (x : Dev) (h : Nat), h < 136 → x.live →
    (∀ path time octets, (x.chip.group h).st ≠ .disabled → x.chip.apsHitless h = true →
      let l := lineOctets (x.chip.engFmt h) octets
      let half := x.chip.rf (R.DSK_CFG h) 31 24 * 524288
      let slot := ceilDiv l.length 32 * 32
      let at_ := x.chip.rf (R.DSK_CFG h) 16 0 * 1048576 + path * half
        + (if path = 0 then (x.chip.dsk h).nW else (x.chip.dsk h).nP) % max 1 (half / max 1 slot) * slot
      let s : Sig := ⟨time, crc32 (sigOctets (x.chip.engFmt h) l)⟩
      Does (.deskewFrame h path time octets) ⟨q, x⟩ (fun y =>
        (∀ a, (a < at_ ∨ at_ + l.length ≤ a) → y.mem.rd1 a = x.mem.rd1 a) ∧ y.mem.rdN at_ l.length = l
        ∧ (x.chip.rf (R.DSK_STATUS h) 1 0 ≠ 2 →
            (path = 0 → (x.chip.dsk h).sigP = [] → (y.chip.dsk h).sigW.head? = some s
              ∧ y.chip.rf (R.DSK_STATUS h) 1 0 = x.chip.rf (R.DSK_STATUS h) 1 0)
            ∧ (path ≠ 0 → (x.chip.dsk h).sigW = [] → (y.chip.dsk h).sigP.head? = some s
              ∧ y.chip.rf (R.DSK_STATUS h) 1 0 = x.chip.rf (R.DSK_STATUS h) 1 0))))
    ∧ (∀ path time octets, ((x.chip.group h).st = .disabled ∨ x.chip.apsHitless h = false) →
      Does (.deskewFrame h path time octets) ⟨q, x⟩ x.idle)
    ∧ (let lost := x.chip.rf (R.DSK_STATUS h) 1 0 = 1 ∧ (x.chip.dsk h).from_ + t16ms ≤ x.chip.dt ∧ 8 ≤ (x.chip.dsk h).sigW.length
          ∧ 8 ≤ (x.chip.dsk h).sigP.length ∧ sigMatches (x.chip.dsk h).sigW (x.chip.dsk h).sigP = []
          ∧ sigMatches (x.chip.dsk h).sigP (x.chip.dsk h).sigW = []
      (lost → Does (.deskewNoMatch h) ⟨q, x⟩ (fun y => y.chip.rf (R.DSK_STATUS h) 1 0 = 3 ∧ x.only y ∧ x.regsBut y [R.DSK_STATUS h]))
      ∧ (¬ lost → Does (.deskewNoMatch h) ⟨q, x⟩ x.idle))
    ∧ (∀ t, (x.chip.dsk h).rebase = some t → t ≤ x.chip.core →
      Does (.rebaseDone h) ⟨q, x⟩ (fun y => y.chip.dsk h = { x.chip.dsk h with rebase := none } ∧ y.chip.rb (R.DSK_STATUS h) 4 = false
        ∧ x.only y (fun c => { c with dsks := y.chip.dsks }) ∧ x.regsBut y [R.DSK_STATUS h]))
    ∧ (((x.chip.dsk h).rebase = none ∨ ∃ t, (x.chip.dsk h).rebase = some t ∧ x.chip.core < t) → Does (.rebaseDone h) ⟨q, x⟩ x.idle)

/-- The Stall, its parity and the end of a loss episode. A push moves the oldest word of the elastic buffer to
the end of a Stall that is not full, with its parity bits, counts a corrected read and poisons a word whose read
failed. A pop, where the engine's Stall is the next to be popped, removes the oldest word, counts a failed
parity check and a corrected sideband, and appends the octets read, with their tags, to the open bale of the
running region of its sub-channel, or discards them where no region runs; an uncorrectable sideband sets its
flag in CAP_EVENT, and the word's octets reach no bale. A loss episode ends once 4 KiB are free, leaving its gap
tokens at the end of the buffer. With nothing to push or pop, with a full Stall, at another Stall's turn or with
too little free, nothing changes. Completes with its own effect, under conditions on the state and the operands
alone: STALL_PUSH, STALL_POP, LOSS_EPISODE_END. (01_device_architecture R14, 07_capture R155, 07_capture R156,
07_capture R157, 07_capture R159, 07_capture R160) -/
def Obligations.StallAndLoss : Prop :=
  ∀ (q : List Instr) (x : Dev) (e : Nat), e < 136 → x.live →
    (∀ ecc, ecc < 3 →
      (∀ w l, (x.chip.cap e).eb = w :: l → (x.chip.cap e).stall.length < 512 →
        Does (.stallPush ⟨e, ecc⟩) ⟨q, x⟩ (fun y =>
          let st := (x.chip.cap e).stall ++ [{ w with par0 := parEven w.octets, par1 := parOdd w.octets, poison := w.poison || decide (ecc = 2) }]
          y.chip.cap e = { x.chip.cap e with eb := l, stall := st, stlPeak := max (x.chip.cap e).stlPeak st.length, pushed := some x.chip.core }
          ∧ (y.chip.rd (R.ENG_EB_CE_CNT e)).toNat = min ((x.chip.rd (R.ENG_EB_CE_CNT e)).toNat + b2n (decide (ecc = 1))) 0xFFFFFFFF
          ∧ (∀ m, m ≠ e → y.chip.cap m = x.chip.cap m) ∧ x.only y (fun c => { c with caps := y.chip.caps })
          ∧ x.regsBut y [R.ENG_EB_CE_CNT e]))
      ∧ (((x.chip.cap e).eb = [] ∨ 512 ≤ (x.chip.cap e).stall.length) → Does (.stallPush ⟨e, ecc⟩) ⟨q, x⟩ x.idle))
    ∧ ((∀ z ∈ x.chip.rgns, z.2.pending = false) →
      (∀ w l flips side, (x.chip.cap e).stall = w :: l → x.chip.nextPop (e / 8) = some e → side < 3 →
          w.token = .data → x.chip.shared e w.sub = false →
        let got := w.octets.zipWith (· ^^^ ·) (padTo w.octets.length 0 flips)
        let bad := parEven got != w.par0 || parOdd got != w.par1
        let popped := fun (y : Dev) => (y.chip.cap e).stall = l ∧ x.sameMem y
          ∧ (y.chip.rd (R.STL_PARITY_CNT e)).toNat
              = min ((x.chip.rd (R.STL_PARITY_CNT e)).toNat + b2n bad + b2n (decide (side = 1))) 0xFFFFFFFF
        (x.chip.armedRgn (x.chip.subOwner e w.sub) w.sub = none → side < 2 →
          Does (.stallPop e flips side) ⟨q, x⟩ (fun y => popped y ∧ y.chip.rgns = x.chip.rgns))
        ∧ ((∀ h s, x.chip.armedRgn h s = none) → side = 2 →
          Does (.stallPop e flips side) ⟨q, x⟩ (fun y => popped y ∧ y.chip.rgns = x.chip.rgns ∧ y.chip.rb (R.CAP_EVENT e) 2 = true))
        ∧ (∀ r o, x.chip.armedRgn (x.chip.subOwner e w.sub) w.sub = some r → side < 2 →
            (x.chip.rgn r).full (x.chip.rcfg r) = false → (x.chip.rgn r).open_ = some o →
            w.octets ≠ [] → w.tags.length = w.octets.length → o.octets.length + w.octets.length < 480 →
            (decide (o.flags &&& fTent ≠ 0)) = w.tent → (decide (o.flags &&& fSplit ≠ 0)) = w.split →
            (x.chip.rgn r).trigs = [] → (∀ g ∈ w.tags, (x.chip.rgn r).armT ≤ g.1) → w.brk = false → w.resync = false →
          Does (.stallPop e flips side) ⟨q, x⟩ (fun y => popped y
            ∧ (y.chip.rgn r).open_ = some { o with octets := o.octets ++ got, tags := o.tags ++ w.tags.map (fun (g : Nat × Nat) => ⟨g.1, g.2, w.poison || bad⟩) })))
      ∧ (∀ flips side, side < 3 → ((x.chip.cap e).stall = [] ∨ x.chip.nextPop (e / 8) ≠ some e) →
        Does (.stallPop e flips side) ⟨q, x⟩ x.idle))
    ∧ ((x.chip.cap e).losing = true → (x.chip.cap e).fill + 4096 ≤ ebBytes → (∀ k ∈ (x.chip.cap e).losses, x.chip.shared e k.sub = false) →
      Does (.lossEpisodeEnd e) ⟨q, x⟩ (fun y => (y.chip.cap e).losing = false ∧ (y.chip.cap e).losses = []
        ∧ (y.chip.cap e).eb = (x.chip.cap e).eb ++ (x.chip.cap e).losses.map (fun (k : Loss) => k.token 1)
        ∧ (∀ m, m ≠ e → y.chip.cap m = x.chip.cap m) ∧ x.only y (fun c => { c with caps := y.chip.caps }) ∧ x.regsBut y []))
    ∧ (((x.chip.cap e).losing = false ∨ ebBytes < (x.chip.cap e).fill + 4096) → Does (.lossEpisodeEnd e) ⟨q, x⟩ x.idle)

/-- Bales are closed on a flush, written, refused and written again. A bale open for CAP_CFG.FLUSH in a region
that still takes bales and has none pending is closed with the next SEQ, and its write begins, or where its slot
is behind a fence it becomes a GAP bale that waits. A bale write that completes leaves the 512 bytes of the bale
in its slot and changes no other byte of memory, and where no combiner is enabled that could split a bale by it
no write of that SEQ waits any more; a refused one writes nothing, a data bale becoming a GAP bale that waits
and a marker bale waiting itself. A waiting bale whose slot is behind no fence is written likewise, and none is
while its slot is fenced. A bale not open so long, a reply that no write awaits and a retry with none waiting
change nothing. Completes with its own effect, under conditions on the state and the operands alone:
BALE_FLUSH_TIMEOUT, BALE_WRITE_REPLY, PENDING_BALE_RETRY. (07_capture R160, 07_capture R163, 07_capture R180,
07_capture R181, 09_yard_and_hayloft R222) -/
def Obligations.BaleWrites : Prop :=
  ∀ (q : List Instr) (x : Dev) (r : Nat), r < 4096 → x.live →
    let c := x.chip.rcfg r
    let g := x.chip.rgn r
    let quiet := ∀ cb, x.chip.rb (R.comb_CAP_TRG_CFG cb) 0 = false
    let written := fun (y : Dev) (b : Bale) =>
      (∀ i v, (b.bytes c)[i]? = some v → y.mem.rd1 (c.slotAddr b.seq + i) = v)
      ∧ (∀ a, (a < c.slotAddr b.seq ∨ c.slotAddr b.seq + (b.bytes c).length ≤ a) → y.mem.rd1 a = x.mem.rd1 a)
    (g.pending = false →
      (∀ o, g.open_ = some o →
        (o.opened + x.chip.rf (R.CAP_CFG c.eng) 19 0 * 1000 ≤ x.chip.core → g.full c = false →
          (x.chip.slotFenced c g.next = false →
            Does (.baleFlushTimeout r) ⟨q, x⟩ (fun y => (y.chip.rgn r).open_ = none ∧ (y.chip.rgn r).next = g.next + 1 ∧ x.sameMem y
              ∧ ∃ w, (y.chip.rgn r).q = g.q ++ [w] ∧ w.sent = true ∧ w.bale = o.bale g.next c.eng))
          ∧ (x.chip.slotFenced c g.next = true →
            Does (.baleFlushTimeout r) ⟨q, x⟩ (fun y => (y.chip.rgn r).open_ = none ∧ (y.chip.rgn r).next = g.next + 1 ∧ x.sameMem y
              ∧ (y.chip.rgn r).q = g.q ++ [foldOf (o.bale g.next c.eng) o.octets.length (o.tags.getLast?.getD ⟨0, 0, false⟩).stamp]
              ∧ (y.chip.rgn r).resync = true)))
        ∧ (x.chip.core < o.opened + x.chip.rf (R.CAP_CFG c.eng) 19 0 * 1000 → Does (.baleFlushTimeout r) ⟨q, x⟩ x.idle))
      ∧ (g.open_ = none → Does (.baleFlushTimeout r) ⟨q, x⟩ x.idle)
      ∧ (∀ w, g.q.find? (fun v => v.bale.seq = w.bale.seq && v.sent) = some w →
        Does (.baleWriteReply r w.bale.seq true) ⟨q, x⟩ (fun y =>
          written y (if w.folded then { w.bale with payload := gapPayload w.lost w.last 0x02 } else w.bale)
          ∧ (quiet → ∀ v ∈ (y.chip.rgn r).q, v.bale.seq ≠ w.bale.seq))))
    ∧ (∀ w, g.q = [w] → w.sent = true →
      Does (.baleWriteReply r w.bale.seq false) ⟨q, x⟩ (fun y => x.sameMem y ∧ (y.chip.rgn r).next = g.next
        ∧ (w.marker = true → (y.chip.rgn r).q = [{ w with sent := false }])
        ∧ (w.marker = false → (y.chip.rgn r).q = [foldOf w.bale w.bale.payload.length w.last] ∧ (y.chip.rgn r).resync = true)))
    ∧ (∀ seq ok, g.q.find? (fun v => v.bale.seq = seq && v.sent) = none → Does (.baleWriteReply r seq ok) ⟨q, x⟩ x.idle)
    ∧ (∀ w, g.q = [w] → w.sent = false → x.chip.slotFenced c w.bale.seq = false →
      Does (.pendingBaleRetry r) ⟨q, x⟩ (fun y =>
        written y (if w.folded then { w.bale with payload := gapPayload w.lost w.last 0x02 } else w.bale) ∧ (quiet → (y.chip.rgn r).q = [])))
    ∧ (∀ w, g.q.find? (fun v => !v.sent) = some w → x.chip.slotFenced c w.bale.seq = true → Does (.pendingBaleRetry r) ⟨q, x⟩ x.idle)
    ∧ (g.pending = false → Does (.pendingBaleRetry r) ⟨q, x⟩ x.idle)

/-- Combiners, host triggers, global lines and event terms. A write that enables a disabled combiner with terms
is answered OK and, where its terms are events, leaves it enabled with FIRED and OCC clear; one without terms is
answered BAD_PARAM with CFG_ERR and the combiner stays disabled; an enabled combiner keeps what it has. A host
trigger fires the combiner whose only enabled term it completes, with its TRIGGER event at the present Device
Time; CLEAR_FIRED clears FIRED and OCC of the named combiner and leaves the others. A firing on a global line
reaches a region that waits for the line 4 cycles after it was driven, and not before; with none driven nothing
changes. An event term past its hold leaves the result of its enabled combiner false and fires nothing; before
that, or in a disabled combiner, nothing changes. Completes with its own effect, under conditions on the state
and the operands alone: TERM_HOLD_EXPIRY, GLOBAL_TRIGGER_LINE, COMBINER_ENABLE, HOST_TRIGGER, CLEAR_FIRED.
(07_capture R171, 07_capture R172, 07_capture R173, 07_capture R178) -/
def Obligations.TriggerCombiners : Prop :=
  ∀ (q : List Instr) (x : Dev), x.live →
    (∀ sess e w, e < 136 → x.chip.subBusy e = false → x.allows sess (R.CAP_TRG_CFG e) (setFld w 0 0 1) →
      let cb := x.chip.trgComb e
      (x.chip.rb (R.comb_CAP_TRG_CFG cb) 0 = false →
        (fld w 5 2 ≠ 0 → (∀ i, i < 4 → srcIsLevel (x.chip.termSrc cb i) = false) →
          Does (.combinerEnable sess e w) ⟨q, x⟩ (fun y => y.answered .ok ∧ y.chip.rb (R.comb_CAP_TRG_CFG cb) 0 = true
            ∧ (y.chip.comb cb).fired = false ∧ (y.chip.comb cb).occ = 0 ∧ (∀ n, n ≠ cb → y.chip.comb n = x.chip.comb n)
            ∧ x.only y (fun c => { c with combs := y.chip.combs })))
        ∧ (fld w 5 2 = 0 →
          Does (.combinerEnable sess e w) ⟨q, x⟩ (fun y => y.answered .badParam ∧ y.chip.rb (R.CAP_EVENT e) 9 = true
            ∧ y.chip.rb (R.comb_CAP_TRG_CFG cb) 0 = false ∧ x.only y ∧ x.regsBut y [R.comb_CAP_TRG_CFG cb, R.CAP_EVENT e])))
      ∧ (x.chip.rb (R.comb_CAP_TRG_CFG cb) 0 = true →
        Does (.combinerEnable sess e w) ⟨q, x⟩ (fun y => y.answered .ok ∧ y.chip.rb (R.comb_CAP_TRG_CFG cb) 0 = true ∧ x.only y)))
    ∧ (∀ sess e m k, e < 136 → m < 8 → k < 8 → x.chip.subBusy e = false → x.allows sess (R.CAP_TRG_CMD e) (w32 (2 ^ k)) →
        let cb := e / 8 * 8 + m
        (∀ n, n < 8 → (x.chip.rb (R.comb_CAP_TRG_CFG (e / 8 * 8 + n)) 0 = true ↔ n = m)) →
        fld (x.chip.rd (R.comb_CAP_TRG_CFG cb)) 5 2 = 1 → x.chip.termSrc cb 0 = 0xD0 + k → x.chip.rf (R.comb_CAP_TRG_CFG cb) 15 12 = 1 →
        (x.chip.comb cb).fired = false → (x.chip.comb cb).until_.getD 0 0 < x.chip.core → (x.chip.comb cb).last ≠ some (x.chip.core - 1) →
      Does (.hostTrigger sess e (2 ^ k)) ⟨q, x⟩ (fun y => y.answered .ok ∧ (y.chip.comb cb).fired = true ∧ x.sameMem y
        ∧ ∃ v, v ∈ y.chip.log.entries ∧ v.src = 0x3000 + e / 8 ∧ v.code = 0x0604 ∧ v.time = x.chip.dt ∧ v.det % 256 = m
            ∧ v.ext = x.chip.dt * 2 ^ 64))
    ∧ (∀ sess e, e < 136 → x.chip.subBusy e = false → x.allows sess (R.CAP_TRG_CMD e) (w32 256) →
      Does (.clearFired sess e) ⟨q, x⟩ (fun y => y.answered .ok
        ∧ y.chip.comb (x.chip.trgComb e) = { x.chip.comb (x.chip.trgComb e) with fired := false, occ := 0 }
        ∧ (∀ cb, cb ≠ x.chip.trgComb e → y.chip.comb cb = x.chip.comb cb) ∧ x.only y (fun c => { c with combs := y.chip.combs })))
    ∧ (∀ n, n < 8 →
      (∀ l, x.chip.lines.find? (fun v => v.line = n) = some l →
        (x.chip.core < l.due → Does (.globalTriggerLine n) ⟨q, x⟩ x.idle)
        ∧ (l.due ≤ x.chip.core → (∀ cb, x.chip.rb (R.comb_CAP_TRG_CFG cb) 0 = false) →
          Does (.globalTriggerLine n) ⟨q, x⟩ (fun y => y.chip.lines = x.chip.lines.erase l ∧ x.sameMem y
            ∧ ∀ r, (x.chip.rcfg r).global = true → (x.chip.rcfg r).trigSel = n → (x.chip.rcfg r).trigMode = 0 →
                (x.chip.rgn r).st = .armed → (x.chip.rgn r).armT ≤ l.t →
                (y.chip.rgn r).st = .post ∧ (y.chip.rgn r).trigTent = l.tent)))
      ∧ (x.chip.lines.find? (fun v => v.line = n) = none → Does (.globalTriggerLine n) ⟨q, x⟩ x.idle))
    ∧ (∀ cb i, cb < 136 → i < 4 →
      ((x.chip.comb cb).until_.getD i 0 < x.chip.core → x.chip.rb (R.comb_CAP_TRG_CFG cb) 0 = true → x.chip.combResult cb x.chip.core = false →
        Does (.termHoldExpiry cb i) ⟨q, x⟩ (fun y => (y.chip.comb cb).result = false ∧ (y.chip.comb cb).fired = (x.chip.comb cb).fired
          ∧ (y.chip.comb cb).occ = (x.chip.comb cb).occ ∧ (∀ n, n ≠ cb → y.chip.comb n = x.chip.comb n)
          ∧ x.only y (fun c => { c with combs := y.chip.combs }) ∧ x.regsBut y []))
      ∧ ((x.chip.core ≤ (x.chip.comb cb).until_.getD i 0 ∨ x.chip.rb (R.comb_CAP_TRG_CFG cb) 0 = false) →
        Does (.termHoldExpiry cb i) ⟨q, x⟩ x.idle))

/-- Time compares are armed, refused as late, and fire once. A write of CAP_TRG_TIME_HI with ARM arms the
compare that CAP_TRG_IDX names, at the value the two registers then hold, unless that value is past by the
signed difference of 48 bits, when it is answered TOO_LATE, sets its event flag and leaves the compare unarmed
and its value; without ARM the value is stored and the compare unarmed; every other compare stays. An armed
compare that Device Time has reached fires and disarms, and every other stays; one that it has not reached, or
that is not armed, does nothing. Completes with its own effect, under conditions on the state and the operands
alone: TIME_COMPARE_ARM, TIME_COMPARE_FIRE. (07_capture R176) -/
def Obligations.TimeCompares : Prop :=
  ∀ (q : List Instr) (x : Dev), x.live →
    (∀ sess e w, e < 136 → x.chip.subBusy e = false → x.allows sess (R.CAP_TRG_TIME_HI e) w →
      let k := x.chip.trgCmp e
      let late := shortDiff x.chip.dt (fld w 15 0 * 2 ^ 32 + (x.chip.rd (R.tcmp_CAP_TRG_TIME_LO k)).toNat)
      let others := fun (y : Dev) => (∀ n, n < 68 → n ≠ k → SMap.get false y.chip.cmps n = SMap.get false x.chip.cmps n ∧ y.chip.cmpTime n = x.chip.cmpTime n)
        ∧ x.only y (fun c => { c with cmps := y.chip.cmps })
      (bit w 31 = true → 0 ≤ late →
        Does (.timeCompareArm sess e w) ⟨q, x⟩ (fun y => y.answered .ok ∧ SMap.get false y.chip.cmps k = true
          ∧ y.chip.cmpTime k = fld w 15 0 * 2 ^ 32 + (x.chip.rd (R.tcmp_CAP_TRG_TIME_LO k)).toNat ∧ others y))
      ∧ (bit w 31 = true → late < 0 →
        Does (.timeCompareArm sess e w) ⟨q, x⟩ (fun y => y.answered .tooLate ∧ SMap.get false y.chip.cmps k = false
          ∧ y.chip.rb (R.CAP_EVENT e) 5 = true ∧ y.chip.cmpTime k = x.chip.cmpTime k ∧ others y))
      ∧ (bit w 31 = false →
        Does (.timeCompareArm sess e w) ⟨q, x⟩ (fun y => y.answered .ok ∧ SMap.get false y.chip.cmps k = false
          ∧ y.chip.cmpTime k = fld w 15 0 * 2 ^ 32 + (x.chip.rd (R.tcmp_CAP_TRG_TIME_LO k)).toNat ∧ others y)))
    ∧ (∀ k, k < 68 →
      (SMap.get false x.chip.cmps k = true → shortDiff x.chip.dt (x.chip.cmpTime k) ≤ 0 →
        Does (.timeCompareFire k) ⟨q, x⟩ (fun y => SMap.get false y.chip.cmps k = false ∧ x.sameMem y
          ∧ ∀ n, n ≠ k → SMap.get false y.chip.cmps n = SMap.get false x.chip.cmps n))
      ∧ ((SMap.get false x.chip.cmps k = false ∨ 0 < shortDiff x.chip.dt (x.chip.cmpTime k)) → Does (.timeCompareFire k) ⟨q, x⟩ x.idle))

/-- Capture regions are enabled, armed, stopped and disabled. A write that sets ENABLE, without ARM and STOP, of
a disabled region whose stacks are ready and whose checks pass is answered OK and enables it; a failing check is
answered with its status, sets CFG_ERR and leaves ENABLE 0; stacks that are not ready are answered NOT_READY; an
enabled region keeps its ENABLE, and none of these changes what any region holds. ARM of a region that is
enabled, or that the same write enables, and does not run restarts SEQ at 0 in PRE, ARMED or POST by TRIG_MODE
and PRE; ARM of a running one is answered BUSY and changes no region; ARM with ENABLE 0 is answered BAD_PARAM
with CFG_ERR. STOP, or clearing ENABLE, of a running region leaves it STOPPED, or PINNED where its last bale
completes it, with no bale open and none waiting; STOP of another changes no region, and clearing ENABLE of
another returns it to IDLE. Completes with its own effect, under conditions on the state and the operands alone:
REGION_ENABLE, REGION_DISABLE, ARM, STOP. (07_capture R177, 07_capture R178, 07_capture R179, 07_capture R185,
09_yard_and_hayloft R383, 12_register_space R304) -/
def Obligations.CaptureRegions : Prop :=
  ∀ (q : List Instr) (x : Dev) (sess e : Nat) (w : Word), e < 136 → x.live → x.chip.subBusy e = false →
    let r := x.chip.rf (R.CAP_RGN_IDX e) 11 0
    let cfg := R.rgn_CAP_RGN_CFG r
    let stopped := fun (y : Dev) => ((y.chip.rgn r).st = .stopped ∨ (y.chip.rgn r).st = .pinned) ∧ (y.chip.rgn r).q = [] ∧ (y.chip.rgn r).open_ = none
    (x.allows sess (R.CAP_RGN_CFG e) (setFld w 0 0 1) → fld w 2 1 = 0 →
      (x.chip.rb cfg 0 = false →
        let d := x.chip.store cfg (setFld w 0 0 1) 1
        (d.stacksReady (d.rcfg r).base ((d.rcfg r).slots / 128) = true →
          (d.rgnCheck r = none →
            Does (.regionEnable sess e w) ⟨q, x⟩ (fun y => y.answered .ok ∧ y.chip.rb cfg 0 = true ∧ x.only y))
          ∧ (∀ st, d.rgnCheck r = some st →
            Does (.regionEnable sess e w) ⟨q, x⟩ (fun y => y.answered st ∧ y.chip.rb cfg 0 = false ∧ y.chip.rb (R.CAP_EVENT e) 9 = true
              ∧ x.only y ∧ x.regsBut y [cfg, R.CAP_EVENT e])))
        ∧ (d.stacksReady (d.rcfg r).base ((d.rcfg r).slots / 128) = false →
            Does (.regionEnable sess e w) ⟨q, x⟩ (fun y => y.answered .notReady ∧ y.chip.rb cfg 0 = false ∧ x.only y ∧ x.regsBut y [cfg])))
      ∧ (x.chip.rb cfg 0 = true →
          Does (.regionEnable sess e w) ⟨q, x⟩ (fun y => y.answered .ok ∧ y.chip.rb cfg 0 = true ∧ x.only y)))
    ∧ (x.allows sess (R.CAP_RGN_CFG e) (setFld w 1 1 1) →
      let d := x.chip.store cfg (setFld w 1 1 1) 1
      (bit w 0 = true → bit w 2 = false →
          (x.chip.rb cfg 0 = true ∨ (d.stacksReady (d.rcfg r).base ((d.rcfg r).slots / 128) = true ∧ d.rgnCheck r = none)) →
        ((x.chip.rgn r).live = false →
          Does (.arm sess e w) ⟨q, x⟩ (fun y => y.answered .ok ∧ x.sameMem y ∧ y.chip.rb cfg 0 = true
            ∧ (y.chip.rgn r).next = 0 ∧ (y.chip.rgn r).done = 0 ∧ (y.chip.rgn r).q = [] ∧ (y.chip.rgn r).armT = x.chip.dt
            ∧ (y.chip.rgn r).st = (if (d.rcfg r).trigMode = 1 then .post else if (d.rcfg r).pre = 0 then .armed else .pre)
            ∧ ∀ n, n ≠ r → y.chip.rgn n = x.chip.rgn n))
        ∧ ((x.chip.rgn r).live = true →
          Does (.arm sess e w) ⟨q, x⟩ (fun y => y.answered .busy ∧ x.only y)))
      ∧ (bit w 0 = false → x.chip.rb cfg 0 = false →
          Does (.arm sess e w) ⟨q, x⟩ (fun y => y.answered .badParam ∧ y.chip.rb (R.CAP_EVENT e) 9 = true ∧ x.only y)))
    ∧ (x.allows sess (R.CAP_RGN_CFG e) (setFld w 2 2 1) → x.chip.rb cfg 0 = true → bit w 0 = true → bit w 1 = false →
      ((x.chip.rgn r).live = true → Does (.stop sess e w) ⟨q, x⟩ (fun y => y.answered .ok ∧ stopped y))
      ∧ ((x.chip.rgn r).live = false → Does (.stop sess e w) ⟨q, x⟩ (fun y => y.answered .ok ∧ x.only y)))
    ∧ (x.allows sess (R.CAP_RGN_CFG e) (setFld w 0 0 0) → bit w 1 = false →
      (x.chip.rb cfg 0 = true → (x.chip.rgn r).live = true →
        Does (.regionDisable sess e w) ⟨q, x⟩ (fun y => y.answered .ok ∧ y.chip.rb cfg 0 = false ∧ stopped y))
      ∧ (x.chip.rb cfg 0 = true → (x.chip.rgn r).live = false →
        Does (.regionDisable sess e w) ⟨q, x⟩ (fun y => y.answered .ok ∧ y.chip.rgn r = Rgn.init ∧ y.chip.rb cfg 0 = false
          ∧ (∀ n, n ≠ r → y.chip.rgn n = x.chip.rgn n) ∧ x.only y (fun c => { c with rgns := y.chip.rgns })))
      ∧ (x.chip.rb cfg 0 = false →
        Does (.regionDisable sess e w) ⟨q, x⟩ (fun y => y.answered .ok ∧ y.chip.rb cfg 0 = false ∧ x.only y)))

/-- Pattern regions are enabled and disabled. A write that sets ENABLE of a disabled pattern region is answered
NOT_READY where its stacks are not ready; otherwise OK, the region enabled, when the region checks pass, and
BAD_PARAM with CFG_ERR when they fail, ENABLE staying 0. One that clears ENABLE disables a region that is not
IN_USE, and is answered BUSY with CFG_ERR, ENABLE staying 1, when it is. An enabled region is left enabled by
the first, a disabled one disabled by the second. No queue, script or byte of memory changes. Completes with its
own effect, under conditions on the state and the operands alone: PATTERN_REGION_ENABLE, PATTERN_REGION_DISABLE.
(08_pattern_and_launch R189, 08_pattern_and_launch R190, 09_yard_and_hayloft R383) -/
def Obligations.PatternRegions : Prop :=
  ∀ (q : List Instr) (x : Dev) (sess e : Nat) (w : Word), e < 136 → x.live → x.chip.subBusy e = false →
    let r := x.chip.rf (R.PAT_RGN_IDX e) 9 0
    let ready := x.chip.stacksReady (x.chip.prgnUnits r).1 (x.chip.prgnUnits r).2
    (x.allows sess (R.PAT_RGN_CFG e) (setFld w 0 0 1) →
      (x.chip.prgnEn r = false → ready = true → x.chip.prgnOk r = true →
        Does (.patternRegionEnable sess e w) ⟨q, x⟩ (fun y => y.answered .ok ∧ y.chip.prgnEn r = true ∧ x.only y))
      ∧ (x.chip.prgnEn r = false → ready = true → x.chip.prgnOk r = false →
        Does (.patternRegionEnable sess e w) ⟨q, x⟩ (fun y => y.answered .badParam ∧ y.chip.prgnEn r = false
          ∧ y.chip.rb (R.PAT_EVENT e) 9 = true ∧ x.only y ∧ x.regsBut y [R.prgn_PAT_RGN_CFG r, R.PAT_EVENT e]))
      ∧ (x.chip.prgnEn r = false → ready = false →
        Does (.patternRegionEnable sess e w) ⟨q, x⟩ (fun y => y.answered .notReady ∧ y.chip.prgnEn r = false ∧ x.only y ∧ x.regsBut y []))
      ∧ (x.chip.prgnEn r = true →
        Does (.patternRegionEnable sess e w) ⟨q, x⟩ (fun y => y.answered .ok ∧ y.chip.prgnEn r = true ∧ x.only y)))
    ∧ (x.allows sess (R.PAT_RGN_CFG e) (setFld w 0 0 0) →
      (x.chip.prgnEn r = true → x.chip.prgnUsed r = false →
        Does (.patternRegionDisable sess e w) ⟨q, x⟩ (fun y => y.answered .ok ∧ y.chip.prgnEn r = false ∧ x.only y))
      ∧ (x.chip.prgnEn r = true → x.chip.prgnUsed r = true →
        Does (.patternRegionDisable sess e w) ⟨q, x⟩ (fun y => y.answered .busy ∧ y.chip.prgnEn r = true
          ∧ y.chip.rb (R.PAT_EVENT e) 9 = true ∧ x.only y ∧ x.regsBut y [R.prgn_PAT_RGN_CFG r, R.PAT_EVENT e]))
      ∧ (x.chip.prgnEn r = false →
        Does (.patternRegionDisable sess e w) ⟨q, x⟩ (fun y => y.answered .ok ∧ y.chip.prgnEn r = false ∧ x.only y)))

/-- Pattern queues: push, flush, abort. PUSH stores PAT_Q_TIME_HI, and appends the entry that PAT_Q_DESC and the
time registers describe when no check of R196 fails; a failed check answers its status, sets its flag and queues
nothing. FLUSH discards the entries of the named sub-channel and leaves every other entry and every running
script; ABORT does the same and marks a running script of the sub-channel to be stopped. Nothing of another
engine's queue changes, and no byte of memory. Completes with its own effect, under conditions on the state and
the operands alone: PUSH, FLUSH, ABORT. (08_pattern_and_launch R196, 08_pattern_and_launch R197) -/
def Obligations.PatternQueues : Prop :=
  ∀ (q : List Instr) (x : Dev) (sess e : Nat), e < 136 → x.live → x.chip.subBusy e = false →
    let becomes := fun (y : Dev) (p : Pat) => y.answered .ok ∧ y.chip.pat e = p ∧ (∀ k, k ≠ e → y.chip.pat k = x.chip.pat k)
      ∧ x.only y (fun c => { c with pats := y.chip.pats })
    let p := x.chip.pat e
    (∀ w, x.allows sess (R.PAT_Q_TIME_HI e) (setFld w 31 31 1) →
      let s := x.on (fun d => d.store (R.PAT_Q_TIME_HI e) (setFld w 31 31 1))
      let desc := x.chip.rd (R.PAT_Q_DESC e)
      let t := if bit desc 10 then some (fld w 15 0 * 2 ^ 32 + (x.chip.rd (R.PAT_Q_TIME_LO e)).toNat) else none
      (s.pushCheck e (fld desc 9 0) (fld desc 31 16) t (bit desc 11) = none →
        Does (.push sess e w) ⟨q, x⟩ (fun y =>
          becomes y { p with queue := p.queue ++ [⟨fld desc 9 0, fld desc 31 16, t, bit desc 11 && bit desc 10, false, false, false⟩] }))
      ∧ (∀ st f, s.pushCheck e (fld desc 9 0) (fld desc 31 16) t (bit desc 11) = some (st, f) →
        Does (.push sess e w) ⟨q, x⟩ (fun y => y.answered st ∧ (∀ b, f = some b → y.chip.rb (R.PAT_EVENT e) b = true)
          ∧ x.only y ∧ x.regsBut y [R.PAT_Q_TIME_HI e, R.PAT_EVENT e])))
    ∧ (∀ sub, sub < 65536 →
      let kept := p.queue.filter (fun v => v.sub ≠ sub)
      (x.allows sess (R.PAT_CTRL e) (w32 (sub + 2 ^ 16)) →
        Does (.flush sess e sub) ⟨q, x⟩ (fun y => becomes y { p with queue := kept }))
      ∧ (x.allows sess (R.PAT_CTRL e) (w32 (sub + 2 ^ 17)) →
        Does (.abort sess e sub) ⟨q, x⟩ (fun y => becomes y { p with queue := kept, aborts :=
          if (x.chip.runOf e sub).isSome ∧ sub ∉ p.aborts then p.aborts ++ [sub] else p.aborts })))

/-- Prefetch, launch and the reads of a script. The first waiting entry of a sub-channel becomes ready when its
prefetch completes. At a word of an enabled engine a ready untimed entry at the head starts when nothing runs, a
raw script at any word and any other at a frame or container start; a ready timed entry that is due cuts what
runs and starts, at a frame start where it has FRAME_START or is of a tributary; it starts with PAT_LAST, the
LAUNCH flag, a count, and LATE where it starts too late. Where these conditions fail nothing changes; a due
entry that is not ready is marked, and a running script that waits goes on at its segment's launch time. A
pattern read without errors changes nothing; one that finds poisoned blocks sets PAT_EVENT.POISON and stops the
running or queued script unless only body octets are struck. Completes with its own effect, under conditions on
the state and the operands alone: ENTRY_READY, SCRIPT_LAUNCH, PATTERN_READ_REPLY. (08_pattern_and_launch R198,
08_pattern_and_launch R199, 08_pattern_and_launch R200, 08_pattern_and_launch R201, 08_pattern_and_launch R202,
08_pattern_and_launch R205) -/
def Obligations.PatternLaunches : Prop :=
  ∀ (q : List Instr) (x : Dev) (e sub : Nat), e < 136 → x.live →
    let p := x.chip.pat e
    let started := fun (y : Dev) (v : QEntry) (t : Nat) => y.chip.runOf e sub = some ⟨sub, v.rgn, 0, 32, 0, 0, 0, false, false, t⟩
      ∧ (y.chip.pat e).queue.filter (fun z => z.sub = sub) = (p.queue.filter (fun z => z.sub = sub)).drop 1
      ∧ (v.bad = true → sub ∈ (y.chip.pat e).aborts) ∧ y.chip.rb (R.PAT_EVENT e) 0 = true
      ∧ y.chip.pair (R.PAT_LAST_LO e) (R.PAT_LAST_HI e) = t % 2 ^ 64
      ∧ y.chip.rf (R.PAT_CNT e) 15 0 = min 0xFFFF (x.chip.rf (R.PAT_CNT e) 15 0 + 1) ∧ x.sameMem y
    (∀ v, p.headOf sub = some v →
      Does (.entryReady e sub) ⟨q, x⟩ (fun y => (y.chip.pat e).headOf sub = some { v with ready := true }
        ∧ (y.chip.pat e).queue.length = p.queue.length ∧ (y.chip.pat e).runs = p.runs
        ∧ (∀ k, k ≠ e → y.chip.pat k = x.chip.pat k) ∧ x.only y (fun c => { c with pats := y.chip.pats }) ∧ x.regsBut y []))
    ∧ (p.headOf sub = none → Does (.entryReady e sub) ⟨q, x⟩ x.idle)
    ∧ (∀ t sent,
      let start := x.chip.inProgress e sub ≤ sent
      ((x.chip.engEn e = false ∨ (sub = 0 ∧ x.chip.rb (R.PAT_CFG e) 0 = true)) → Does (.scriptLaunch e sub t sent) ⟨q, x⟩ x.idle)
      ∧ (x.chip.engEn e = true → (sub ≠ 0 ∨ x.chip.rb (R.PAT_CFG e) 0 = false) →
        (∀ v, p.headOf sub = some v → v.time = none → p.due sub t = none → x.chip.runOf e sub = none → sub ∉ p.aborts →
          (v.ready = true → (start ∨ (sub = 0 ∧ (x.mem.shdr (x.chip.prgnAt v.rgn)).raw = true)) →
            Does (.scriptLaunch e sub t sent) ⟨q, x⟩ (fun y => started y v t))
          ∧ ((v.ready = false ∨ (¬ start ∧ (sub ≠ 0 ∨ (x.mem.shdr (x.chip.prgnAt v.rgn)).raw = false))) →
            Does (.scriptLaunch e sub t sent) ⟨q, x⟩ x.idle))
        ∧ (∀ v w, p.headOf sub = some v → v.time = some w → 0 ≤ shortDiff w t →
          ((start ∨ (sub = 0 ∧ v.fstart = false)) → v.ready = true →
            Does (.scriptLaunch e sub t sent) ⟨q, x⟩ (fun y => started y v t
              ∧ ((v.missed = true ∨ x.chip.launchSlack e sub v.fstart < shortDiff w t) → y.chip.rb (R.PAT_EVENT e) 1 = true)
              ∧ (¬ start → (x.chip.runOf e sub).isSome = true → sub ∉ p.aborts → y.chip.rb (R.PAT_EVENT e) 2 = true)))
          ∧ ((start ∨ (sub = 0 ∧ v.fstart = false)) → v.ready = false →
            Does (.scriptLaunch e sub t sent) ⟨q, x⟩ (fun y => (y.chip.pat e).headOf sub = some { v with missed := true } ∧ x.sameMem y))
          ∧ (¬ start → v.fstart = true → sub ∉ p.aborts → Does (.scriptLaunch e sub t sent) ⟨q, x⟩ x.idle))
        ∧ (¬ start → sub ≠ 0 → sub ∉ p.aborts → Does (.scriptLaunch e sub t sent) ⟨q, x⟩ x.idle)
        ∧ (∀ r, ¬ start → sub = 0 → sub ∉ p.aborts → p.due sub t = none → x.chip.runOf e sub = some r → r.wait = true →
            (x.runSeg r).fstart = false → 0 ≤ shortDiff (x.runSeg r).launch t →
          Does (.scriptLaunch e sub t sent) ⟨q, x⟩ (fun y => y.chip.runOf e sub = some { r with wait := false, since := t }
            ∧ (y.chip.pat e).queue = p.queue ∧ x.sameMem y))
        ∧ (p.headOf sub = none → x.chip.runOf e sub = none → sub ∉ p.aborts → Does (.scriptLaunch e sub t sent) ⟨q, x⟩ x.idle)))
    ∧ (∀ a n ces ues,
      let bad := fun b => b ∈ blocksOf a n ∧ (b ∈ ues ∨ b ∈ x.mem.ue)
      let body := fun (rgn b : Nat) => ∃ g ∈ x.mem.segList (x.mem.shdr (x.chip.prgnAt rgn)) (x.mem.shdr (x.chip.prgnAt rgn)).segs 0
        (x.chip.prgnAt rgn + 32), g.2.isBody (b * 32) = true
      let poisoned := fun (y : Dev) => y.chip.rb (R.PAT_EVENT e) 6 = true ∧ (y.chip.pat e).runs = p.runs ∧ x.sameMem y
      ((∀ b ∈ blocksOf a n, b ∉ x.mem.ce ∧ b ∉ x.mem.ue ∧ b ∉ ces ∧ b ∉ ues) →
        Does (.patternReadReply e sub a n ces ues) ⟨q, x⟩ x.idle)
      ∧ (∀ r, x.chip.runOf e sub = some r → x.chip.prgnAt r.rgn ≤ a → a < x.chip.prgnAt r.rgn + x.chip.prgnSpan r.rgn →
        ((∃ b, bad b ∧ ¬ body r.rgn b) →
          Does (.patternReadReply e sub a n ces ues) ⟨q, x⟩ (fun y => poisoned y ∧ sub ∈ (y.chip.pat e).aborts ∧ (y.chip.pat e).queue = p.queue))
        ∧ ((∃ b, bad b) → (∀ b, bad b → body r.rgn b) →
          Does (.patternReadReply e sub a n ces ues) ⟨q, x⟩ (fun y => poisoned y ∧ y.chip.pats = x.chip.pats)))
      ∧ (∀ v, x.chip.runOf e sub = none → x.chip.entryAt e sub a = some v →
        ((∃ b, bad b ∧ ¬ body v.rgn b) →
          Does (.patternReadReply e sub a n ces ues) ⟨q, x⟩ (fun y => poisoned y ∧ { v with bad := true } ∈ (y.chip.pat e).queue))
        ∧ ((∃ b, bad b) → (∀ b, bad b → body v.rgn b) →
          Does (.patternReadReply e sub a n ces ues) ⟨q, x⟩ (fun y => poisoned y ∧ y.chip.pats = x.chip.pats))))

/-- An injection is armed once and stopped. ARM stores PAT_INJ_CFG and arms the record that PAT_INJ_TGT,
PAT_INJ_VAL and PAT_INJ_CFG hold, its count from 0, when no injection is armed or running, its time is not past
and its target names something in the present format; otherwise it is answered BUSY, TOO_LATE with TIME_PAST, or
BAD_PARAM with CFG_ERR, and arms nothing. INJ_STOP marks the injection that is armed to end after the current
frame, and with none armed changes nothing. Queue, scripts, other engines and memory stay. Completes with its
own effect, under conditions on the state and the operands alone: INJ_STOP, INJECT_ARM. (08_pattern_and_launch
R203) -/
def Obligations.Injection : Prop :=
  ∀ (q : List Instr) (x : Dev) (sess e : Nat) (w : Word), e < 136 → x.live → x.chip.subBusy e = false →
    let p := x.chip.pat e
    let becomes := fun (y : Dev) (z : Pat) => y.answered .ok ∧ y.chip.pat e = z ∧ (∀ k, k ≠ e → y.chip.pat k = x.chip.pat k)
      ∧ x.only y (fun c => { c with pats := y.chip.pats })
    let refused := fun (y : Dev) (st : Status) => y.answered st ∧ x.only y ∧ x.regsBut y [R.PAT_INJ_CFG e, R.PAT_EVENT e]
    (x.allows sess (R.PAT_INJ_CFG e) (setFld w 6 6 1) →
      let s := x.on (fun d => d.store (R.PAT_INJ_CFG e) (setFld w 6 6 1))
      let t := x.chip.rf (R.PAT_Q_TIME_HI e) 15 0 * 2 ^ 32 + (x.chip.rd (R.PAT_Q_TIME_LO e)).toNat
      let len := if 4 ≤ fld w 2 0 then fld w 4 3 + 1 else 0
      let tgt := (x.chip.rd (R.PAT_INJ_TGT e)).toNat
      (p.inj ≠ none → Does (.injectArm sess e w) ⟨q, x⟩ (fun y => refused y .busy))
      ∧ (p.inj = none → bit w 5 = true → shortDiff x.chip.dt t < 0 →
        Does (.injectArm sess e w) ⟨q, x⟩ (fun y => refused y .tooLate ∧ y.chip.rb (R.PAT_EVENT e) 10 = true))
      ∧ (p.inj = none → (bit w 5 = false ∨ 0 ≤ shortDiff x.chip.dt t) →
        (s.injTargetOk e (fld w 2 0) len tgt = false →
          Does (.injectArm sess e w) ⟨q, x⟩ (fun y => refused y .badParam ∧ y.chip.rb (R.PAT_EVENT e) 9 = true))
        ∧ (s.injTargetOk e (fld w 2 0) len tgt = true →
          Does (.injectArm sess e w) ⟨q, x⟩ (fun y => becomes y { p with injCnt := 0, inj := some ⟨fld w 2 0, len, tgt,
            (x.chip.rd (R.PAT_INJ_VAL e)).toNat, fld w 23 8, max 1 (fld w 31 24), if bit w 5 then some t else none, false, 0, 0, false⟩ }))))
    ∧ (x.allows sess (R.PAT_CTRL e) (w32 (2 ^ 18)) →
      Does (.injStop sess e) ⟨q, x⟩ (fun y => becomes y { p with inj := p.inj.map (fun i => { i with stop := true }) }))

/-- Yard transfers: request, grant and reply. A request with a free tag that keeps the size rules and meets no
fence waits at its target; one to a fenced port is answered TARGET_RESET and does not wait; one that breaks the
size rules is answered BAD_ALIGN, at once or, behind an earlier request of its master to that target, in its
turn; a request whose tag is not free changes nothing. A port grants the request its arbitration chooses, parks
on its master, and is locked by a locked read; the default target answers a read with zeros and DECODE_ERROR.
The reply of a write to the Hayloft stores its bytes and no others, the reply of a read delivers the bytes
stored, POISONED with the blocks marked that are, and the reply of a configuration read the register's word;
each frees the tag, and waits where an earlier request of its master to that target is still open. A port with
nothing to grant grants nothing, and a transaction not granted or answered already is not answered. Completes
with its own effect, under conditions on the state and the operands alone: YARD_REQUEST, YARD_GRANT, YARD_REPLY.
(09_yard_and_hayloft R211, 09_yard_and_hayloft R212, 09_yard_and_hayloft R213, 09_yard_and_hayloft R214,
09_yard_and_hayloft R215, 09_yard_and_hayloft R216, 09_yard_and_hayloft R220) -/
def Obligations.YardTransfers : Prop :=
  ∀ (q : List Instr) (x : Dev), x.live →
    (∀ m tag wr code a len data, m < 24 → tag < 256 →
      let p := x.chip.xferTarget a
      let t : Txn := ⟨m, tag, if wr then .write else .read, x.chip.classOf m wr code, a % 2 ^ 40, len, padTo len 0 data, p, x.chip.core, none, none⟩
      (x.chip.tagFree m tag = true →
        (sizeOk p wr a len = true → x.chip.refuses m p = false →
          Does (.yardRequest m tag wr code a len data) ⟨q, x⟩ (fun y => y.chip.out = []
            ∧ y.chip.yard = { x.chip.yard with txns := x.chip.yard.txns ++ [t] } ∧ x.only y (fun c => { c with yard := y.chip.yard })
            ∧ x.regsBut y []))
        ∧ (sizeOk p wr a len = false →
          (x.chip.oldest m p = none →
            Does (.yardRequest m tag wr code a len data) ⟨q, x⟩ (fun y => y.chip.out = [.yard m tag .badAlign [] []] ∧ x.only y ∧ x.regsBut y []))
          ∧ (∀ z, x.chip.oldest m p = some z → z.done = none →
            Does (.yardRequest m tag wr code a len data) ⟨q, x⟩ (fun y => y.chip.out = []
              ∧ y.chip.yard = { x.chip.yard with txns := x.chip.yard.txns ++ [{ t with done := some (.badAlign, [], []) }] }
              ∧ x.only y (fun c => { c with yard := y.chip.yard }) ∧ x.regsBut y [])))
        ∧ (sizeOk p wr a len = true → x.chip.refuses m p = true →
          Does (.yardRequest m tag wr code a len data) ⟨q, x⟩ (fun y => y.chip.out = [.yard m tag .targetReset [] []] ∧ x.only y ∧ x.regsBut y [])))
      ∧ (x.chip.tagFree m tag = false → Does (.yardRequest m tag wr code a len data) ⟨q, x⟩ x.idle))
    ∧ (∀ p, p < 40 ∨ p = 0x3F →
      (x.chip.chooseGrant p = none → Does (.yardGrant p) ⟨q, x⟩ x.idle)
      ∧ (∀ t, x.chip.chooseGrant p = some t → p < 40 →
        Does (.yardGrant p) ⟨q, x⟩ (fun y => y.chip.txn t.master t.tag = some { t with grant := some x.chip.core }
          ∧ SMap.get 0 y.chip.yard.parked p = t.master ∧ SMap.get 0 y.chip.yard.rr p = t.master
          ∧ (t.kind = .lockRead → y.chip.lockOf p = some ⟨t.master, t.addr, t.len, x.chip.core⟩)
          ∧ (t.kind ≠ .lockRead → y.chip.yard.locks = x.chip.yard.locks)
          ∧ x.only y (fun c => { c with yard := y.chip.yard }) ∧ x.regsBut y []))
      ∧ (∀ t, x.chip.chooseGrant p = some t → p = 0x3F → x.chip.oldest t.master 0x3F = some t →
        Does (.yardGrant p) ⟨q, x⟩ (fun y =>
          .yard t.master t.tag .decodeError (if t.kind = .write then [] else List.replicate t.len 0) [] ∈ y.chip.out
          ∧ y.chip.rb R.YRD_EVENT 0 = true ∧ y.chip.txn t.master t.tag = none
          ∧ (y.chip.rd R.YRD_DECODE_CNT).toNat = min ((x.chip.rd R.YRD_DECODE_CNT).toNat + 1) 0xFFFFFFFF
          ∧ x.only y (fun c => { c with yard := y.chip.yard })
          ∧ x.regsBut y [R.YRD_EVENT, R.YRD_DECODE_CNT, R.YRD_ERR_LO, R.YRD_ERR_HI])))
    ∧ (∀ m tag ces ues remote, m < 24 → tag < 256 →
      (∀ t, x.chip.txn m tag = some t → t.grant ≠ none → t.done = none → x.chip.oldest m t.target = some t →
        (t.kind = .write → t.target ≤ 31 → x.chip.mayWrite m t.addr = true →
          Does (.yardReply m tag ces ues remote) ⟨q, x⟩ (fun y => .yard m tag .ok [] [] ∈ y.chip.out ∧ y.chip.txn m tag = none
            ∧ (∀ i b, t.data[i]? = some b → y.mem.rd1 (t.addr + i) = b)
            ∧ ∀ a, (a < t.addr ∨ t.addr + t.data.length ≤ a) → y.mem.rd1 a = x.mem.rd1 a))
        ∧ (t.kind = .read → t.target ≤ 31 →
          ((∀ b ∈ blocksOf t.addr t.len, b ∉ x.mem.ue ∧ b ∉ ues) →
            Does (.yardReply m tag ces ues remote) ⟨q, x⟩ (fun y => .yard m tag .ok (x.mem.rdN t.addr t.len) [] ∈ y.chip.out
              ∧ y.chip.txn m tag = none ∧ x.sameMem y))
          ∧ (∀ b ∈ blocksOf t.addr t.len, (b ∈ x.mem.ue ∨ b ∈ ues) →
            Does (.yardReply m tag ces ues remote) ⟨q, x⟩ (fun y =>
              (∃ marks, .yard m tag .poisoned (x.mem.rdN t.addr t.len) marks ∈ y.chip.out ∧ b ∈ marks)
              ∧ y.chip.txn m tag = none ∧ x.sameMem y)))
        ∧ (∀ v, t.kind = .read → t.target = 32 → (({ x.chip with out := [] } : Chip).regRead 0 (t.addr - 0x4200000000)).1 = (.ok, v) →
          Does (.yardReply m tag ces ues remote) ⟨q, x⟩ (fun y => .yard m tag .ok (beBytes 4 v.toNat) [] ∈ y.chip.out
            ∧ y.chip.txn m tag = none ∧ x.sameMem y)))
      ∧ (∀ t z, x.chip.txn m tag = some t → t.grant ≠ none → t.done = none → x.chip.oldest m t.target = some z → z.tag ≠ tag → z.done = none →
          t.kind = .read → t.target ≤ 31 → (∀ b ∈ blocksOf t.addr t.len, b ∉ x.mem.ue ∧ b ∉ ues) →
        Does (.yardReply m tag ces ues remote) ⟨q, x⟩ (fun y => y.chip.out = []
          ∧ y.chip.txn m tag = some { t with done := some (.ok, x.mem.rdN t.addr t.len, []) } ∧ x.sameMem y))
      ∧ ((∀ t, x.chip.txn m tag = some t → t.grant = none ∨ t.done ≠ none) → Does (.yardReply m tag ces ues remote) ⟨q, x⟩ x.idle))

/-- Locked reads, write-unlocks and forced releases. A locked read of 4 to 64 bytes within one aligned 64-byte
block waits at its target where the target can lock (the Hayloft, configuration space, the shared SRAM; the
default target answers it when it grants), is answered DECODE_ERROR where it cannot and BAD_ALIGN where it
breaks the size rules, and TARGET_RESET at a fence. The write-unlock of the holder to the bytes it holds locked
stores them and ends the lock; one without such a lock is answered with the reason, LOCK_TIMEOUT where none is
kept, and changes no byte and no lock. A lock held 4,096 core cycles is released with its flag and count, and
one held less stays. With a tag that is not free neither command changes anything. Completes with its own
effect, under conditions on the state and the operands alone: LOCKED_READ, WRITE_UNLOCK, LOCK_TIMEOUT.
(09_yard_and_hayloft R211, 09_yard_and_hayloft R216, 09_yard_and_hayloft R217, 09_yard_and_hayloft R218,
09_yard_and_hayloft R220) -/
def Obligations.YardLocks : Prop :=
  ∀ (q : List Instr) (x : Dev) (m tag a : Nat), m < 24 → tag < 256 → x.live →
    (∀ code len, x.chip.tagFree m tag = true →
      let p := x.chip.xferTarget a
      let ok := lockSizeOk a len && sizeOk p false a len
      let lockable := p ≤ 32 ∨ p = 34 ∨ p = 0x3F
      let answered := fun (st : Status) => Does (.lockedRead m tag code a len) ⟨q, x⟩ (fun y => y.chip.out = [.yard m tag st [] []]
        ∧ x.only y ∧ x.regsBut y [])
      (ok = true → x.chip.refuses m p = false → lockable →
        Does (.lockedRead m tag code a len) ⟨q, x⟩ (fun y => y.chip.out = []
          ∧ y.chip.yard = { x.chip.yard with txns := x.chip.yard.txns ++ [⟨m, tag, .lockRead, x.chip.classOf m false code, a % 2 ^ 40, len,
              List.replicate len 0, p, x.chip.core, none, none⟩] }
          ∧ x.only y (fun c => { c with yard := y.chip.yard }) ∧ x.regsBut y []))
      ∧ (ok = false → x.chip.oldest m p = none → answered .badAlign)
      ∧ (ok = true → x.chip.refuses m p = true → answered .targetReset)
      ∧ (ok = true → x.chip.refuses m p = false → ¬ lockable → x.chip.oldest m p = none → answered .decodeError))
    ∧ (∀ code len, x.chip.tagFree m tag = false → Does (.lockedRead m tag code a len) ⟨q, x⟩ x.idle)
    ∧ (∀ data, x.chip.tagFree m tag = true → x.chip.oldest m (x.chip.xferTarget (a % 2 ^ 40)) = none →
      (x.chip.unlockJudge m a data.length = none → x.chip.xferTarget (a % 2 ^ 40) ≤ 31 → x.chip.mayWrite m (a % 2 ^ 40) = true →
        Does (.writeUnlock m tag a data) ⟨q, x⟩ (fun y => y.chip.out = [.yard m tag .ok [] []]
          ∧ (∀ l, x.chip.lockedBy m = some l → y.chip.lockOf l = none)
          ∧ (∀ i b, data[i]? = some b → y.mem.rd1 (a % 2 ^ 40 + i) = b)
          ∧ ∀ c, (c < a % 2 ^ 40 ∨ a % 2 ^ 40 + data.length ≤ c) → y.mem.rd1 c = x.mem.rd1 c))
      ∧ (∀ st, x.chip.unlockJudge m a data.length = some st →
        Does (.writeUnlock m tag a data) ⟨q, x⟩ (fun y => y.chip.out = [.yard m tag st [] []] ∧ y.chip.yard.locks = x.chip.yard.locks
          ∧ x.only y (fun c => { c with yard := y.chip.yard }) ∧ x.regsBut y [R.YRD_ERR_LO, R.YRD_ERR_HI])))
    ∧ (∀ data, x.chip.tagFree m tag = false → Does (.writeUnlock m tag a data) ⟨q, x⟩ x.idle)
    ∧ (∀ p, p < 40 →
      (∀ k, x.chip.lockOf p = some k →
        (k.since + 4096 ≤ x.chip.core →
          Does (.lockTimeout p) ⟨q, x⟩ (fun y => y.chip.lockOf p = none ∧ SMap.get none y.chip.yard.broken k.master = some .lockTimeout
            ∧ y.chip.rb R.YRD_EVENT 1 = true
            ∧ (y.chip.rd R.YRD_LOCK_TMO_CNT).toNat = min ((x.chip.rd R.YRD_LOCK_TMO_CNT).toNat + 1) 0xFFFFFFFF
            ∧ x.only y (fun c => { c with yard := y.chip.yard })
            ∧ x.regsBut y [R.YRD_EVENT, R.YRD_LOCK_TMO_CNT, R.YRD_ERR_LO, R.YRD_ERR_HI]))
        ∧ (x.chip.core < k.since + 4096 → Does (.lockTimeout p) ⟨q, x⟩ x.idle))
      ∧ (x.chip.lockOf p = none → Does (.lockTimeout p) ⟨q, x⟩ x.idle))

/-- Yard timeouts and the fence of a port. An overdue transaction of a master that is no processor is completed
TARGET_RESET, counted and flagged, and its target is fenced; one that is not overdue goes on. Once a fence has
stood 10,000 core cycles its grace ends, the transactions granted and not answered at that port are completed
TARGET_RESET and the reset runs; 2,000,000 core cycles later a target port's fence lifts, and the fence of a
master port once its block has power, with its flag and a new event. Before their times, and where no fence is
in that state, nothing changes. Completes with its own effect, under conditions on the state and the operands
alone: YARD_TIMEOUT, FENCE_GRACE_END, FENCE_END. (09_yard_and_hayloft R219, 09_yard_and_hayloft R220) -/
def Obligations.YardTimeoutsAndFences : Prop :=
  ∀ (q : List Instr) (x : Dev), x.live →
    (∀ m tag, m < 24 → tag < 256 →
      (∀ t, x.chip.txn m tag = some t →
        (x.chip.overdue t = true → m ≠ pavPort x.chip.pav.active → m ≠ pavPort (1 - x.chip.pav.active) →
          Does (.yardTimeout m tag) ⟨q, x⟩ (fun y => .yard m tag .targetReset [] [] ∈ y.chip.out ∧ y.chip.txn m tag = none
            ∧ y.chip.rb R.YRD_EVENT 2 = true ∧ SMap.get none y.chip.yard.fences t.target ≠ none
            ∧ (y.chip.rd R.YRD_TIMEOUT_CNT).toNat = min ((x.chip.rd R.YRD_TIMEOUT_CNT).toNat + 1) 0xFFFFFFFF))
        ∧ (x.chip.overdue t = false → Does (.yardTimeout m tag) ⟨q, x⟩ x.idle))
      ∧ (x.chip.txn m tag = none → Does (.yardTimeout m tag) ⟨q, x⟩ x.idle))
    ∧ (∀ p,
      (∀ f, SMap.get none x.chip.yard.fences p = some f →
        (f.reset = none → f.since + 10000 ≤ x.chip.core →
          Does (.fenceGraceEnd p) ⟨q, x⟩ (fun y => SMap.get none y.chip.yard.fences p = some ⟨f.since, some x.chip.core⟩
            ∧ ∀ t ∈ x.chip.yard.txns, t.target = p → t.grant ≠ none → t.done = none →
                .yard t.master t.tag .targetReset [] [] ∈ y.chip.out ∧ y.chip.txn t.master t.tag = none))
        ∧ ((f.reset ≠ none ∨ x.chip.core < f.since + 10000) → Does (.fenceGraceEnd p) ⟨q, x⟩ x.idle)
        ∧ (∀ t, f.reset = some t → (p < 40 → t + 2000000 ≤ x.chip.core) → (64 ≤ p → p - 64 ∉ x.chip.pwr.off) →
          Does (.fenceEnd p) ⟨q, x⟩ (fun y => SMap.get none y.chip.yard.fences p = none ∧ y.chip.rb R.YRD_EVENT 4 = true
            ∧ x.chip.log.next < y.chip.log.next))
        ∧ (∀ t, f.reset = some t → ((p < 40 ∧ x.chip.core < t + 2000000) ∨ (64 ≤ p ∧ p - 64 ∈ x.chip.pwr.off)) →
          Does (.fenceEnd p) ⟨q, x⟩ x.idle)
        ∧ (f.reset = none → Does (.fenceEnd p) ⟨q, x⟩ x.idle))
      ∧ (SMap.get none x.chip.yard.fences p = none →
        Does (.fenceGraceEnd p) ⟨q, x⟩ x.idle ∧ Does (.fenceEnd p) ⟨q, x⟩ x.idle))

/-- Scrub, wear and migration of a stack. A scrub without error changes no memory and no counter and moves the
scrub position on; a correctable error is counted in its pseudo-channel and corrected; an uncorrectable one is
counted and flagged and stays. The end of a pass clears the pass counts, counts the pass and sets its flag. A
running migration copies granule by granule; once the last is copied the logical pseudo-channel is served by the
destination, the source is retired and no migration runs, or, where either lies behind a fenced port, the
migration is abandoned and the mapping stays; no byte of memory changes. With no migration, or at its wrong
point, nothing changes. Completes with its own effect, under conditions on the state and the operands alone:
SCRUB_BLOCK, SCRUB_PASS_END, MIGRATION_COPY, MIGRATION_COMPLETE. (09_yard_and_hayloft R225, 09_yard_and_hayloft
R226, 09_yard_and_hayloft R227, 09_yard_and_hayloft R228, 09_yard_and_hayloft R229) -/
def Obligations.ScrubAndMigration : Prop :=
  ∀ (q : List Instr) (x : Dev) (st : Nat), st < 4 → x.live →
    (∀ pc blk, pc < 32 →
      let at_ := (x.chip.stack st).map.findIdx? (· = pc)
      let moved := fun (y : Dev) => y.chip.rd ⟨.stack, st, 0x114⟩ = w32 (blk / 16) ∧ x.sameMem y
      ((∀ l, at_ = some l → lpcAddr st l (blk * 32) / 32 ∉ x.mem.ce ∧ lpcAddr st l (blk * 32) / 32 ∉ x.mem.ue) →
        Does (.scrubBlock st pc blk 0) ⟨q, x⟩ (fun y => moved y ∧ y.mem = x.mem ∧ x.only y ∧ x.regsBut y [⟨.stack, st, 0x114⟩]))
      ∧ ((∀ l, at_ = some l → lpcAddr st l (blk * 32) / 32 ∉ x.mem.ue) →
          (x.chip.rd ⟨.pc, pcIdx st pc, 0x120⟩).toNat + 1 < x.chip.rf R.HAY_CFG 15 0 →
        Does (.scrubBlock st pc blk 1) ⟨q, x⟩ (fun y => moved y ∧ y.chip.rb ⟨.stack, st, 0x108⟩ 0 = true
          ∧ (∀ l, at_ = some l → lpcAddr st l (blk * 32) / 32 ∉ y.mem.ce)
          ∧ (y.chip.rd ⟨.pc, pcIdx st pc, 0x11C⟩).toNat = min ((x.chip.rd ⟨.pc, pcIdx st pc, 0x11C⟩).toNat + 1) 0xFFFFFFFF
          ∧ x.only y ∧ x.regsBut y [⟨.stack, st, 0x114⟩, ⟨.stack, st, 0x108⟩, ⟨.pc, pcIdx st pc, 0x11C⟩, ⟨.pc, pcIdx st pc, 0x120⟩]))
      ∧ Does (.scrubBlock st pc blk 2) ⟨q, x⟩ (fun y => moved y ∧ y.chip.rb ⟨.stack, st, 0x108⟩ 9 = true ∧ y.chip.rb R.GLB_EVENT 5 = true
          ∧ (∀ l, at_ = some l → lpcAddr st l (blk * 32) / 32 ∈ y.mem.ue)
          ∧ (y.chip.rd ⟨.pc, pcIdx st pc, 0x124⟩).toNat = min ((x.chip.rd ⟨.pc, pcIdx st pc, 0x124⟩).toNat + 1) 0xFFFFFFFF))
    ∧ ((x.chip.stack st).aborted = [] →
      Does (.scrubPassEnd st) ⟨q, x⟩ (fun y => (∀ pc, pc < 32 → y.chip.rd ⟨.pc, pcIdx st pc, 0x120⟩ = 0)
        ∧ y.chip.rf ⟨.stack, st, 0x110⟩ 31 16 = (x.chip.rf ⟨.stack, st, 0x110⟩ 31 16 + 1) % 65536 ∧ y.chip.rb ⟨.stack, st, 0x108⟩ 8 = true
        ∧ x.only y))
    ∧ (∀ g, (x.chip.stack st).mig = some g →
      (g.pos < pcGranules →
        Does (.migrationCopy st) ⟨q, x⟩ (fun y => y.chip.stack st = { x.chip.stack st with mig := some { g with pos := g.pos + 1 } }
          ∧ (∀ n, n ≠ st → y.chip.stack n = x.chip.stack n) ∧ x.only y (fun c => { c with hbm := y.chip.hbm }) ∧ x.regsBut y [])
        ∧ Does (.migrationComplete st) ⟨q, x⟩ x.idle)
      ∧ (pcGranules ≤ g.pos → Does (.migrationCopy st) ⟨q, x⟩ x.idle)
      ∧ (pcGranules ≤ g.pos → x.chip.pcFenced st g.from_ = false → x.chip.pcFenced st g.dest = false → (x.chip.stack st).waiting = [] →
        Does (.migrationComplete st) ⟨q, x⟩ (fun y => (y.chip.stack st).mig = none ∧ x.sameMem y
          ∧ (y.chip.stack st).map = setAt (x.chip.stack st).map g.lpc g.dest ∧ (y.chip.stack st).retired = (x.chip.stack st).retired ++ [g.from_]
          ∧ y.chip.rb ⟨.stack, st, 0x108⟩ 4 = true))
      ∧ (pcGranules ≤ g.pos → (x.chip.pcFenced st g.from_ = true ∨ x.chip.pcFenced st g.dest = true) →
        Does (.migrationComplete st) ⟨q, x⟩ (fun y => (y.chip.stack st).mig = none ∧ x.sameMem y
          ∧ (y.chip.stack st).map = (x.chip.stack st).map ∧ (y.chip.stack st).retired = (x.chip.stack st).retired
          ∧ y.chip.rb ⟨.stack, st, 0x108⟩ 5 = true)))
    ∧ ((x.chip.stack st).mig = none → Does (.migrationCopy st) ⟨q, x⟩ x.idle ∧ Does (.migrationComplete st) ⟨q, x⟩ x.idle)

/-- Steps and loads of Device Time. With the time unit ready and no catch-up running: STEP by 0 does nothing, by
1 to 2^47 - 1 ticks moves Device Time forward by exactly that and sets STEP_DONE, by -1 to -4,000,000,000 begins
a catch-up of twice the step, and beyond either is answered STEP_REFUSED. STEP_MEAS does the same by minus the
offset that is pending, and without a pending step is answered BAD_PARAM. SET loads a later time once, under a
PPS source out of FREERUN the nearest whole number of seconds later, and one that would not move Device Time
forward is answered BAD_PARAM, a second one NOT_PERMITTED. While a catch-up runs STEP and STEP_MEAS are BUSY,
and before the unit is ready all are answered NOT_READY. A catch-up ends when it has run its span, with
STEP_DONE. Only the time unit and, where Device Time moved past their times, the timing ports change. Completes
with its own effect, under conditions on the state and the operands alone: STEP, STEP_MEAS, SET, CATCHUP_DONE.
(10_device_time R249, 10_device_time R250, 10_device_time R251, 10_device_time R252, 10_device_time R418) -/
def Obligations.DeviceTimeSteps : Prop :=
  ∀ (q : List Instr) (x : Dev) (sess : Nat), x.live →
    let kept := fun (y : Dev) (st : Status) => y.answered st ∧ x.only y ∧ x.regsBut y []
    let moved := fun (y : Dev) (n : Nat) => y.answered .ok ∧ y.chip.dt = x.chip.dt + n ∧ y.chip.rb R.TIM_EVENT 1 = true
      ∧ x.only y (fun c => { c with dt := y.chip.dt, tim := y.chip.tim, tps := y.chip.tps })
    let stepped := fun (i : Instr) (a : Int) =>
      (a = 0 → Does i ⟨q, x⟩ (fun y => kept y .ok))
      ∧ (0 < a → a < 2 ^ 47 → Does i ⟨q, x⟩ (fun y => moved y a.toNat ∧ y.chip.tim.stepPend = false ∧ 1 ∉ y.chip.tim.causes
          ∧ (x.chip.tim.st = .holdover → x.chip.tim.causes = [1] → y.chip.tim.st = .tracking)))
      ∧ (-4000000000 ≤ a → a < 0 → Does i ⟨q, x⟩ (fun y => y.answered .ok
          ∧ y.chip.tim = { x.chip.tim with back := some ⟨2 * a.natAbs, x.chip.dt, a⟩ }
          ∧ x.only y (fun c => { c with tim := y.chip.tim }) ∧ x.regsBut y []))
      ∧ ((2 ^ 47 ≤ a ∨ a < -4000000000) → Does i ⟨q, x⟩ (fun y => kept y .stepRefused))
    (x.chip.tim.ready = true →
      (x.allows sess R.TIM_CTRL 1 →
        (x.chip.tim.back = none → stepped (.step sess) (sgn 64 (x.chip.pair R.TIM_STEP_LO R.TIM_STEP_HI)))
        ∧ (x.chip.tim.back ≠ none → Does (.step sess) ⟨q, x⟩ (fun y => kept y .busy)))
      ∧ (x.allows sess R.TIM_CTRL 2 →
        (x.chip.tim.back = none → x.chip.tim.stepPend = true → stepped (.stepMeas sess) (-x.chip.timOffset))
        ∧ (x.chip.tim.back = none → x.chip.tim.stepPend = false → Does (.stepMeas sess) ⟨q, x⟩ (fun y => kept y .badParam))
        ∧ (x.chip.tim.back ≠ none → Does (.stepMeas sess) ⟨q, x⟩ (fun y => kept y .busy)))
      ∧ (x.allows sess R.TIM_CTRL 4 →
        let v := x.chip.pair R.TIM_SET_LO R.TIM_SET_HI
        let secs := (2 * ((v : Int) - x.chip.dt) + 4000000000) / 8000000000
        let loaded := fun (y : Dev) (n : Nat) => moved y n ∧ y.chip.tim.setDone = true
        (x.chip.tim.setDone = true → Does (.set sess) ⟨q, x⟩ (fun y => kept y .notPermitted))
        ∧ (x.chip.tim.setDone = false → (x.chip.timSource ≠ 2 ∨ x.chip.tim.st = .freerun) →
          (x.chip.dt < v → Does (.set sess) ⟨q, x⟩ (fun y => loaded y (v - x.chip.dt)))
          ∧ (v ≤ x.chip.dt → Does (.set sess) ⟨q, x⟩ (fun y => kept y .badParam)))
        ∧ (x.chip.tim.setDone = false → x.chip.timSource = 2 → x.chip.tim.st ≠ .freerun →
          (1 ≤ secs → Does (.set sess) ⟨q, x⟩ (fun y => loaded y (secs.toNat * 4000000000)))
          ∧ (secs < 1 → Does (.set sess) ⟨q, x⟩ (fun y => kept y .badParam)))))
    ∧ (x.chip.tim.ready = false →
      (x.allows sess R.TIM_CTRL 1 → Does (.step sess) ⟨q, x⟩ (fun y => kept y .notReady))
      ∧ (x.allows sess R.TIM_CTRL 2 → Does (.stepMeas sess) ⟨q, x⟩ (fun y => kept y .notReady))
      ∧ (x.allows sess R.TIM_CTRL 4 → Does (.set sess) ⟨q, x⟩ (fun y => kept y .notReady)))
    ∧ (∀ b, x.chip.tim.back = some b →
      (b.left = 0 → Does .catchupDone ⟨q, x⟩ (fun y => y.chip.tim.back = none ∧ y.chip.tim.stepPend = false ∧ 1 ∉ y.chip.tim.causes
        ∧ y.chip.rb R.TIM_EVENT 1 = true ∧ x.only y (fun c => { c with tim := y.chip.tim }) ∧ x.regsBut y [R.TIM_EVENT]))
      ∧ (b.left ≠ 0 → Does .catchupDone ⟨q, x⟩ x.idle))
    ∧ (x.chip.tim.back = none → Does .catchupDone ⟨q, x⟩ x.idle)

/-- Forced holdover and the enable of the time unit. HOLD in TRACKING or HOLDOVER leaves HOLDOVER with cause 5
beside the causes it had, and in FREERUN or MASTER changes nothing; RELEASE of a holdover whose only cause is
the forced hold returns to TRACKING, of one with another cause removes the forced hold alone, and without a
forced hold changes nothing; all are answered OK. A write that sets ENABLE of a ready, disabled time unit
enables it when the checks of R259 pass, ending the cause that its disable gave and entering MASTER where its
role is that; it is answered BAD_PARAM with CFG_ERR when they fail, ENABLE staying 0, and NOT_READY before the
unit is ready; an enabled unit stays enabled. Clearing ENABLE stops PTP and sends TRACKING to HOLDOVER, and
leaves a disabled unit disabled. Device Time does not change. Completes with its own effect, under conditions on
the state and the operands alone: HOLD, RELEASE, TIME_UNIT_ENABLE, TIME_UNIT_DISABLE. (10_device_time R236,
10_device_time R259, 10_device_time R418) -/
def Obligations.ServoHoldAndEnable : Prop :=
  ∀ (q : List Instr) (x : Dev) (sess : Nat), x.live →
    let becomes := fun (y : Dev) (st : Status) => y.answered st ∧ x.only y (fun c => { c with tim := y.chip.tim })
    (x.allows sess R.TIM_CTRL 8 →
      ((x.chip.tim.st = .tracking ∨ x.chip.tim.st = .holdover) →
        Does (.hold sess) ⟨q, x⟩ (fun y => becomes y .ok ∧ y.chip.tim.st = .holdover ∧ y.chip.tim.cause = 5
          ∧ (∀ c, c ∈ y.chip.tim.causes ↔ c = 5 ∨ c ∈ x.chip.tim.causes) ∧ x.regsBut y [R.TIM_EVENT]))
      ∧ ((x.chip.tim.st = .freerun ∨ x.chip.tim.st = .master) →
        Does (.hold sess) ⟨q, x⟩ (fun y => y.answered .ok ∧ x.only y ∧ x.regsBut y [])))
    ∧ (x.allows sess R.TIM_CTRL 16 →
      (x.chip.tim.st = .holdover → x.chip.tim.causes = [5] →
        Does (.release sess) ⟨q, x⟩ (fun y => becomes y .ok ∧ y.chip.tim.st = .tracking ∧ y.chip.tim.causes = [] ∧ x.regsBut y [R.TIM_EVENT]))
      ∧ (∀ c, x.chip.tim.st = .holdover → 5 ∈ x.chip.tim.causes → c ≠ 5 → c ∈ x.chip.tim.causes →
        Does (.release sess) ⟨q, x⟩ (fun y => becomes y .ok
          ∧ y.chip.tim = { x.chip.tim with causes := x.chip.tim.causes.filter (· ≠ 5) } ∧ x.regsBut y []))
      ∧ (5 ∉ x.chip.tim.causes →
        Does (.release sess) ⟨q, x⟩ (fun y => y.answered .ok ∧ x.only y ∧ x.regsBut y [])))
    ∧ (∀ w, x.allows sess R.TIM_CFG (setFld w 0 0 1) →
      let d := (x.chip.store R.TIM_CFG (setFld w 0 0 1)).unflag R.TIM_CFG 0
      (x.chip.timEn = false → x.chip.tim.ready = true → d.timCfgOk = true →
        Does (.timeUnitEnable sess w) ⟨q, x⟩ (fun y => becomes y .ok ∧ y.chip.timEn = true ∧ 4 ∉ y.chip.tim.causes
          ∧ (fld w 9 8 = 2 → y.chip.tim.st = .master)
          ∧ (fld w 9 8 ≠ 2 → x.chip.tim.st = .holdover → x.chip.tim.causes = [4] → y.chip.tim.st = .tracking)
          ∧ x.regsBut y [R.TIM_CFG, R.TIM_EVENT]))
      ∧ (x.chip.timEn = false → x.chip.tim.ready = true → d.timCfgOk = false →
        Does (.timeUnitEnable sess w) ⟨q, x⟩ (fun y => becomes y .badParam ∧ y.chip.timEn = false ∧ y.chip.rb R.TIM_EVENT 9 = true
          ∧ y.chip.tim.st = x.chip.tim.st ∧ y.chip.tim.causes = x.chip.tim.causes ∧ x.regsBut y [R.TIM_CFG, R.TIM_EVENT]))
      ∧ (x.chip.timEn = false → x.chip.tim.ready = false →
        Does (.timeUnitEnable sess w) ⟨q, x⟩ (fun y => becomes y .notReady ∧ y.chip.timEn = false ∧ x.regsBut y [R.TIM_CFG]))
      ∧ (x.chip.timEn = true → Does (.timeUnitEnable sess w) ⟨q, x⟩ (fun y => becomes y .ok ∧ y.chip.timEn = true ∧ x.regsBut y [R.TIM_CFG])))
    ∧ (∀ w, x.allows sess R.TIM_CFG (setFld w 0 0 0) →
      (x.chip.timEn = true →
        Does (.timeUnitDisable sess w) ⟨q, x⟩ (fun y => becomes y .ok ∧ y.chip.timEn = false ∧ y.chip.tim.sel = none ∧ y.chip.tim.masters = []
          ∧ (x.chip.tim.st = .tracking → y.chip.tim.st = .holdover ∧ 4 ∈ y.chip.tim.causes)
          ∧ (x.chip.tim.st = .freerun → y.chip.tim.st = .freerun) ∧ x.regsBut y [R.TIM_CFG, R.TIM_EVENT]))
      ∧ (x.chip.timEn = false →
        Does (.timeUnitDisable sess w) ⟨q, x⟩ (fun y => becomes y .ok ∧ y.chip.timEn = false ∧ x.regsBut y [R.TIM_CFG])))

/-- PTP messages received, sent and missed. A message that is not of the enabled, ready time unit's domain and
transport, or that answers nothing, changes nothing. An Announce from another clock, with a valid stepsRemoved,
puts that clock among those heard. A two-step Sync of the selected master waits for its Follow_Up, and a one-
step Sync or the Follow_Up gives the pair of times. A delay response to the device's own request, and in the
peer-to-peer profile a peer delay response or its Follow_Up, gives a path delay sample. A delay request is
answered as master in the end-to-end profile and a peer delay request in the peer-to-peer profile, in one or two
messages. A due Sync, Announce or delay request is sent where the profile sends it, and none otherwise. A
selected source of which no clock is left when its Announce is overdue is dropped, and TRACKING on PTP holds
over; without one a clock that may be master becomes it. The layout of the messages and the formulas of IEEE
1588 are PRESUMED (log entry 45). Completes with its own effect, under conditions on the state and the operands
alone: PTP_MESSAGE_RX, ANNOUNCE_RECEIPT_TIMEOUT, PTP_MESSAGE_TX. (10_device_time R236, 10_device_time R237,
10_device_time R238, 10_device_time R241, 10_device_time R245, 10_device_time R246) -/
def Obligations.PtpMessages : Prop :=
  ∀ (q : List Instr) (x : Dev), x.live →
    let port := x.chip.rf R.TIM_CFG 11 10
    let peer := x.chip.rb R.TIM_CFG 12
    let now := x.chip.ptpStamp false
    let tim := fun (y : Dev) (t : Tim) => y.chip.tim = t ∧ x.only y (fun c => { c with tim := y.chip.tim }) ∧ x.regsBut y []
    let sends := fun (y : Dev) (l : List Out) => y.chip.out = l ∧ x.only y ∧ x.regsBut y []
    (∀ m : PtpMsg,
      let ours := x.chip.timEn = true ∧ x.chip.tim.ready = true ∧ m.domain = x.chip.rf R.TIM_PTP_DS 7 0 ∧ m.transport = x.chip.rf R.TIM_CFG 14 13
      let mine := x.chip.tim.sel = some m.src
      let does := fun (P : Dev → Prop) => Does (.ptpMessageRx m) ⟨q, x⟩ P
      (¬ ours → does x.idle)
      ∧ (ours →
        (m.kind = .announce → (m.src = x.chip.portId ∨ 255 ≤ m.rank.getD 6 0) → does x.idle)
        ∧ (m.kind = .announce → m.src ≠ x.chip.portId → m.rank.getD 6 0 < 255 →
          does (fun y => x.sameMem y ∧ y.chip.dt = x.chip.dt ∧ ∃ f ∈ y.chip.tim.masters, f.src = m.src ∧ f.gm = m.gm ∧ f.last = x.chip.core
            ∧ f.rank = m.rank.take 7 ++ [m.src] ∧ ((∀ g ∈ x.chip.tim.masters, g.src ≠ m.src) → f.n = 1)))
        ∧ (m.kind = .sync → mine → m.twoStep = true →
          does (fun y => tim y { x.chip.tim with sync := some (m.src, m.seq, now, m.corr) }))
        ∧ (m.kind = .sync → mine → m.twoStep = false →
          does (fun y => y.chip.tim.pair = some (m.time + m.corr, now) ∧ y.chip.tim.fresh = true ∧ y.chip.tim.sync = none ∧ x.sameMem y))
        ∧ ((m.kind = .sync ∨ m.kind = .followUp) → ¬ mine → does x.idle)
        ∧ (∀ t2 c, m.kind = .followUp → mine → x.chip.tim.sync = some (m.src, m.seq, t2, c) →
          does (fun y => y.chip.tim.pair = some (m.time + m.corr + c, t2) ∧ y.chip.tim.fresh = true ∧ y.chip.tim.sync = none ∧ x.sameMem y))
        ∧ (m.kind = .followUp → (∀ t2 c, x.chip.tim.sync ≠ some (m.src, m.seq, t2, c)) → does x.idle)
        ∧ (∀ t3 t1 t2, m.kind = .delayResp → mine → peer = false → m.req = x.chip.portId → x.chip.tim.dreq = some (m.seq, t3) →
            x.chip.tim.pair = some (t1, t2) →
          does (fun y => y.chip.tim.dreq = none ∧ y.chip.tim.window.getLast? = some ((t2 - t1 + (m.time - m.corr - t3)) / 2) ∧ x.sameMem y))
        ∧ (m.kind = .delayResp → (¬ mine ∨ peer = true ∨ m.req ≠ x.chip.portId ∨ (∀ t3, x.chip.tim.dreq ≠ some (m.seq, t3)) ∨ x.chip.tim.pair = none) → does x.idle)
        ∧ (m.kind = .delayReq → x.chip.tim.st = .master → peer = false → does (fun y => sends y [.ptp port 9 [m.seq, m.src, now, m.corr]]))
        ∧ (m.kind = .delayReq → (x.chip.tim.st ≠ .master ∨ peer = true) → does x.idle)
        ∧ (m.kind = .pdelayReq → peer = true → x.chip.rb R.TIM_CFG 15 = true →
          does (fun y => sends y [.ptp port 3 [m.seq, m.src, now, 0], .ptp port 10 [m.seq, m.src, x.chip.ptpStamp true, m.corr]]))
        ∧ (m.kind = .pdelayReq → peer = true → x.chip.rb R.TIM_CFG 15 = false →
          does (fun y => sends y [.ptp port 3 [m.seq, m.src, 0, m.corr + x.chip.ptpStamp true - now]]))
        ∧ (∀ t1, m.kind = .pdelayResp → peer = true → m.req = x.chip.portId → x.chip.tim.dreq = some (m.seq, t1) →
          (m.twoStep = true → does (fun y => tim y { x.chip.tim with presp := some (m.seq, m.time, now, m.corr) }))
          ∧ (m.twoStep = false →
            does (fun y => y.chip.tim.dreq = none ∧ y.chip.tim.window.getLast? = some ((now - t1 - m.corr) / 2) ∧ x.sameMem y)))
        ∧ (∀ t1 t2 t4 c, m.kind = .pdelayFollow → peer = true → m.req = x.chip.portId → x.chip.tim.dreq = some (m.seq, t1) →
            x.chip.tim.presp = some (m.seq, t2, t4, c) →
          does (fun y => y.chip.tim.dreq = none ∧ y.chip.tim.presp = none
            ∧ y.chip.tim.window.getLast? = some ((t4 - t1 - (m.time - t2) - c - m.corr) / 2) ∧ x.sameMem y))
        ∧ ((m.kind = .pdelayReq ∨ m.kind = .pdelayResp ∨ m.kind = .pdelayFollow) → peer = false → does x.idle)
        ∧ ((m.kind = .pdelayResp ∨ m.kind = .pdelayFollow) → (m.req ≠ x.chip.portId ∨ ∀ t1, x.chip.tim.dreq ≠ some (m.seq, t1)) → does x.idle)
        ∧ (m.kind = .pdelayFollow → (∀ t2 t4 c, x.chip.tim.presp ≠ some (m.seq, t2, t4, c)) → does x.idle)
        ∧ (m.kind = .other → does x.idle)))
    ∧ (∀ k : PtpTx,
      let i := ptpSlot k
      let seq := x.chip.tim.txSeq.getD i 0
      let sender := if k = .delay then (peer = true ∨ x.chip.tim.sel ≠ none) else x.chip.tim.st = .master
      let due := x.chip.timEn = true ∧ x.chip.tim.ready = true ∧ sender ∧ x.chip.tim.txT.getD i 0 + x.chip.ptpIvl k ≤ x.chip.core
      let at_ := x.chip.ptpStamp true
      (due →
        Does (.ptpMessageTx k) ⟨q, x⟩ (fun y =>
          let t := { x.chip.tim with txSeq := setAt x.chip.tim.txSeq i ((seq + 1) % 2 ^ 16), txT := setAt x.chip.tim.txT i x.chip.core }
          tim y (if k = .delay then { t with dreq := some (seq, at_), presp := none } else t)
          ∧ (k = .sync → x.chip.rb R.TIM_CFG 15 = true → y.chip.out = [.ptp port 0 [seq, 0], .ptp port 8 [seq, at_]])
          ∧ (k = .sync → x.chip.rb R.TIM_CFG 15 = false → y.chip.out = [.ptp port 0 [seq, at_]])
          ∧ (k = .announce → y.chip.out = [.ptp port 11 [seq, x.chip.clockId, x.chip.rf R.TIM_PTP_DS 15 8, x.chip.rf R.TIM_PTP_DS 31 24,
              0xFE, 0xFFFF, x.chip.rf R.TIM_PTP_DS 23 16, 0xA0]])
          ∧ (k = .delay → y.chip.out = [.ptp port (if peer then 2 else 1) [seq, x.chip.portId]])))
      ∧ (¬ due → Does (.ptpMessageTx k) ⟨q, x⟩ x.idle))
    ∧ (let role := x.chip.rf R.TIM_CFG 9 8
      let due := x.chip.timEn = true ∧ role ≠ 2 ∧ x.chip.tim.annT + x.chip.annTimeout ≤ x.chip.core
      let does := fun (P : Dev → Prop) => Does .announceReceiptTimeout ⟨q, x⟩ P
      (¬ due → does x.idle)
      ∧ (due → x.chip.tim.sel ≠ none → x.chip.bestMaster = none →
        does (fun y => y.chip.tim.sel = none ∧ x.sameMem y
          ∧ ((x.chip.tim.st = .tracking ∨ x.chip.tim.st = .holdover) → x.chip.timSource = 1 → y.chip.tim.st = .holdover ∧ y.chip.tim.cause = 3)))
      ∧ (∀ f, due → x.chip.tim.sel ≠ none → x.chip.bestMaster = some f →
        does (fun y => x.sameMem y ∧ (role = 0 → rankLt x.chip.ownRank f.rank = true → y.chip.tim.sel = none ∧ y.chip.tim.st = .master)
          ∧ (role = 0 → rankLt x.chip.ownRank f.rank = false → x.chip.rf R.TIM_PTP_DS 31 24 < 128 → y.chip.tim.sel = none)
          ∧ ((role ≠ 0 ∨ (rankLt x.chip.ownRank f.rank = false ∧ 128 ≤ x.chip.rf R.TIM_PTP_DS 31 24)) → y.chip.tim.sel = some f.src)))
      ∧ (due → x.chip.tim.sel = none → role = 0 → x.chip.bestMaster = none → does (fun y => y.chip.tim.st = .master ∧ x.sameMem y))
      ∧ (due → x.chip.tim.sel = none → (role ≠ 0 ∨ x.chip.bestMaster ≠ none) → does (fun y => tim y { x.chip.tim with annT := x.chip.core })))

/-- Edges, PPS loss and the 10 MHz input of a timing port. On a port enabled as PPS or trigger input a pulse
shorter than 3.5 ns is counted as a glitch and stamps nothing, one of at least 4 ns passes, and one between does
either; a pulse that passes, has re-armed and lies at least 8 ns after the last reported edge is counted and
stamped with Device Time at its start, one nearer than 8 ns counts as merged, and one that has not re-armed
reports nothing; on a port in another mode nothing is reported. 1.1 s after the last PPS edge PPS_OK clears with
its flag, and not before. A 10 MHz input within 100 ppm, on a port enabled for it, is present, and where TIM_CFG
holds to it sets the lock and its frequency; its loss clears both with the flag of the port; on another port, or
beyond 100 ppm, nothing locks. Completes with its own effect, under conditions on the state and the operands
alone: TP_EDGE, PPS_LOSS, REF_10M_LOCK, REF_LOSS. (10_device_time R253, 10_device_time R254, 10_device_time
R255, 10_device_time R256) -/
def Obligations.TimingInputs : Prop :=
  ∀ (q : List Instr) (x : Dev) (p : Nat), p < 4 → x.live →
    (∀ frac width,
      let at_ := x.chip.core * 4 + frac % 4
      let input := x.chip.tpMode p 1 = true ∨ x.chip.tpMode p 4 = true
      let rearmed := (x.chip.tp p).await = false ∨ (x.chip.tp p).idle + 16 ≤ at_
      let passes := 16 ≤ width ∨ (14 ≤ width ∧ (x.chip.fresh 1).1 ≠ 0#1)
      let silent := fun (y : Dev) (l : List RegId) => x.only y (fun c => { c with tps := y.chip.tps, free := y.chip.free }) ∧ x.regsBut y l
      (input → ¬ passes →
        Does (.tpEdge p frac width) ⟨q, x⟩ (fun y => silent y [R.TP_GLITCH_CNT p, R.TP_EVENT p] ∧ y.chip.rb (R.TP_EVENT p) 2 = true
          ∧ (y.chip.rd (R.TP_GLITCH_CNT p)).toNat = min ((x.chip.rd (R.TP_GLITCH_CNT p)).toNat + 1) 0xFFFFFFFF))
      ∧ (input → passes → rearmed →
        ((∀ r, (x.chip.tp p).rep = some r → r + 32 ≤ at_) →
          Does (.tpEdge p frac width) ⟨q, x⟩ (fun y => x.sameMem y ∧ y.chip.rb (R.TP_EVENT p) 0 = true
            ∧ (y.chip.rd (R.TP_EDGE_CNT p)).toNat = min ((x.chip.rd (R.TP_EDGE_CNT p)).toNat + 1) 0xFFFFFFFF
            ∧ y.chip.pair (R.TP_LAST_LO p) (R.TP_LAST_HI p) = (x.chip.dt + frac % 4) % 2 ^ 64 ∧ (y.chip.tp p).rep = some at_
            ∧ (x.chip.tpMode p 1 = true → (y.chip.tp p).watch = some at_)))
        ∧ (∀ r, (x.chip.tp p).rep = some r → at_ < r + 32 →
          Does (.tpEdge p frac width) ⟨q, x⟩ (fun y => silent y [R.TP_MERGE_CNT p, R.TP_EVENT p] ∧ y.chip.rb (R.TP_EVENT p) 1 = true
            ∧ (y.chip.rd (R.TP_MERGE_CNT p)).toNat = min ((x.chip.rd (R.TP_MERGE_CNT p)).toNat + 1) 0xFFFFFFFF)))
      ∧ (input → passes → ¬ rearmed → Does (.tpEdge p frac width) ⟨q, x⟩ (fun y => silent y [] ∧ (y.chip.tp p).rep = (x.chip.tp p).rep))
      ∧ (¬ input → Does (.tpEdge p frac width) ⟨q, x⟩ (fun y => silent y [] ∧ (y.chip.tp p).rep = (x.chip.tp p).rep)))
    ∧ (∀ k, (x.chip.tp p).watch = some k →
      (k + 4400000000 ≤ x.chip.core * 4 →
        Does (.ppsLoss p) ⟨q, x⟩ (fun y => y.chip.tp p = { x.chip.tp p with watch := none, ppsOk := false } ∧ y.chip.rb (R.TP_EVENT p) 3 = true
          ∧ (x.chip.ppsSource p = true → x.chip.tim.st = .tracking → y.chip.tim.st = .holdover ∧ y.chip.tim.cause = 3)
          ∧ x.only y (fun c => { c with tps := y.chip.tps, tim := y.chip.tim }) ∧ x.regsBut y [R.TP_EVENT p, R.TIM_EVENT]))
      ∧ (x.chip.core * 4 < k + 4400000000 → Does (.ppsLoss p) ⟨q, x⟩ x.idle))
    ∧ ((x.chip.tp p).watch = none → Does (.ppsLoss p) ⟨q, x⟩ x.idle)
    ∧ (∀ f : Int,
      let held := x.chip.hold10 = true ∧ x.chip.rf R.TIM_CFG 7 6 = p
      (x.chip.tpMode p 3 = true → f.natAbs ≤ 100000 →
        Does (.ref10mLock p f) ⟨q, x⟩ (fun y => y.chip.tp p = { x.chip.tp p with refOk := true }
          ∧ (held → y.chip.tim = { x.chip.tim with refLock := true, ref := f }) ∧ (¬ held → y.chip.tim = x.chip.tim)
          ∧ x.only y (fun c => { c with tps := y.chip.tps, tim := y.chip.tim }) ∧ x.regsBut y []))
      ∧ ((x.chip.tpMode p 3 = false ∨ 100000 < f.natAbs) → Does (.ref10mLock p f) ⟨q, x⟩ x.idle))
    ∧ ((x.chip.tpMode p 3 = true ∨ (x.chip.tp p).refOk = true) →
      Does (.refLoss p) ⟨q, x⟩ (fun y => y.chip.tp p = { x.chip.tp p with refOk := false } ∧ y.chip.rb (R.TP_EVENT p) 4 = true
        ∧ (x.chip.hold10 = true → x.chip.rf R.TIM_CFG 7 6 = p → x.chip.tim.refLock = true →
            y.chip.tim = { x.chip.tim with refLock := false, freq := x.chip.tim.ref } ∧ y.chip.rb R.TIM_EVENT 5 = true)
        ∧ x.only y (fun c => { c with tps := y.chip.tps, tim := y.chip.tim }) ∧ x.regsBut y [R.TP_EVENT p, R.TIM_EVENT]))
    ∧ (x.chip.tpMode p 3 = false → (x.chip.tp p).refOk = false → Does (.refLoss p) ⟨q, x⟩ x.idle)

/-- PPS outputs, trigger outputs and the enable of a timing port. A PPS output pulses once Device Time reaches
its second plus offset, unless it is to be quiet while Device Time is not locked, and moves on by one second; a
trigger output is armed for a time not past, answered TOO_LATE and disarmed for one that is, and NOT_PERMITTED
in another mode; once reached it pulses, and disarms or moves on by TP_PERIOD. Before their times neither
pulses. A port is enabled in a mode that exists, a mode above 5 is answered BAD_PARAM with CFG_ERR, and a port
that the time unit uses is not disabled: BUSY with CFG_ERR, ENABLE staying 1; a disabled port is disarmed; a
write that leaves ENABLE as it is is answered OK. Completes with its own effect, under conditions on the state
and the operands alone: PPS_OUT_PULSE, TRIGGER_OUT_ARM, TRIGGER_OUT_FIRE, TP_ENABLE. (10_device_time R257,
10_device_time R258, 10_device_time R260) -/
def Obligations.TimingOutputs : Prop :=
  ∀ (q : List Instr) (x : Dev) (p : Nat), p < 4 → x.live →
    let port := fun (y : Dev) (t : Tp) => y.chip.tp p = t ∧ (∀ n, n ≠ p → y.chip.tp n = x.chip.tp n)
      ∧ x.only y (fun c => { c with tps := y.chip.tps })
    (let target := ((x.chip.tp p).sec : Int) + (x.chip.tp p).off
      let due := x.chip.tpMode p 2 = true ∧ target ≤ x.chip.dt
      let quiet := x.chip.rb (R.TP_CFG p) 5 = true ∧ (x.chip.tim.st = .freerun ∨ x.chip.tim.st = .holdover ∨ x.chip.tim.setDone = false)
      let next := { x.chip.tp p with sec := (x.chip.tp p).sec + 4000000000, off := sgn 32 (x.chip.rd (R.TP_OUT_OFFSET p)).toNat }
      (due → ¬ quiet →
        Does (.ppsOutPulse p) ⟨q, x⟩ (fun y => y.chip.out = [.pulse p target.toNat (x.chip.rf (R.TP_WIDTH p) 19 0 * 4000)]
          ∧ port y next ∧ x.regsBut y []))
      ∧ (due → quiet → Does (.ppsOutPulse p) ⟨q, x⟩ (fun y => y.chip.out = [] ∧ port y next ∧ x.regsBut y []))
      ∧ (¬ due → Does (.ppsOutPulse p) ⟨q, x⟩ x.idle))
    ∧ (∀ a, (x.chip.tp p).armed = some a →
      let target := (a : Int) + sgn 32 (x.chip.rd (R.TP_OUT_OFFSET p)).toNat
      let per := (x.chip.rd (R.TP_PERIOD p)).toNat
      (target ≤ x.chip.dt →
        Does (.triggerOutFire p) ⟨q, x⟩ (fun y => y.chip.out = [.pulse p target.toNat (x.chip.rf (R.TP_WIDTH p) 31 20 * 8)]
          ∧ port y { x.chip.tp p with armed := if per = 0 then none else some (a + per) } ∧ x.regsBut y []))
      ∧ ((x.chip.dt : Int) < target → Does (.triggerOutFire p) ⟨q, x⟩ x.idle))
    ∧ ((x.chip.tp p).armed = none → Does (.triggerOutFire p) ⟨q, x⟩ x.idle)
    ∧ (∀ sess w, x.allows sess (R.TP_TIME_HI p) (setFld w 31 31 1) →
      let v := fld w 15 0 * 2 ^ 32 + (x.chip.rd (R.TP_TIME_LO p)).toNat
      (x.chip.tpMode p 5 = true → 0 ≤ shortDiff x.chip.dt v →
        Does (.triggerOutArm sess p w) ⟨q, x⟩ (fun y => y.answered .ok ∧ y.chip.rf (R.TP_TIME_HI p) 15 0 = fld w 15 0
          ∧ port y { x.chip.tp p with armed := some ((x.chip.dt : Int) + shortDiff x.chip.dt v).toNat } ∧ x.regsBut y [R.TP_TIME_HI p]))
      ∧ (x.chip.tpMode p 5 = true → shortDiff x.chip.dt v < 0 →
        Does (.triggerOutArm sess p w) ⟨q, x⟩ (fun y => y.answered .tooLate ∧ y.chip.rb (R.TP_EVENT p) 5 = true
          ∧ port y { x.chip.tp p with armed := none } ∧ x.regsBut y [R.TP_EVENT p]))
      ∧ (x.chip.tpMode p 5 = false →
        Does (.triggerOutArm sess p w) ⟨q, x⟩ (fun y => y.answered .notPermitted ∧ x.only y ∧ x.regsBut y [])))
    ∧ (∀ sess w, x.allows sess (R.TP_CFG p) w →
      let cfg := [R.TP_CFG p, R.TP_EVENT p]
      (x.chip.rb (R.TP_CFG p) 0 = false → bit w 0 = true →
        (fld w 3 1 < 6 → Does (.tpEnable sess p w) ⟨q, x⟩ (fun y => y.answered .ok ∧ y.chip.rb (R.TP_CFG p) 0 = true
          ∧ port y { x.chip.tp p with sec := (y.chip.tp p).sec, off := (y.chip.tp p).off } ∧ x.regsBut y cfg))
        ∧ (6 ≤ fld w 3 1 → Does (.tpEnable sess p w) ⟨q, x⟩ (fun y => y.answered .badParam ∧ y.chip.rb (R.TP_CFG p) 0 = false
            ∧ y.chip.rb (R.TP_EVENT p) 9 = true ∧ x.only y ∧ x.regsBut y cfg)))
      ∧ (x.chip.rb (R.TP_CFG p) 0 = true → bit w 0 = false →
        (x.chip.tpUsed p = false → Does (.tpEnable sess p w) ⟨q, x⟩ (fun y => y.answered .ok ∧ y.chip.rb (R.TP_CFG p) 0 = false
            ∧ port y { x.chip.tp p with armed := none } ∧ x.regsBut y cfg))
        ∧ (x.chip.tpUsed p = true → Does (.tpEnable sess p w) ⟨q, x⟩ (fun y => y.answered .busy ∧ y.chip.rb (R.TP_CFG p) 0 = true
            ∧ y.chip.rb (R.TP_EVENT p) 9 = true ∧ x.only y ∧ x.regsBut y cfg)))
      ∧ (x.chip.rb (R.TP_CFG p) 0 = bit w 0 → Does (.tpEnable sess p w) ⟨q, x⟩ (fun y => y.answered .ok ∧ y.chip.rb (R.TP_CFG p) 0 = bit w 0
          ∧ x.only y ∧ x.regsBut y cfg)))

/-- Link changes, address frames, readout acknowledgements and timeouts of the host port. A host port of the
mode that comes up or goes down is shown so, with its event flag. An ARP, neighbour discovery or echo frame for
an address that the device has is answered; a pause frame changes nothing; every other frame is dropped and
counted; on a port that the mode has not, or before the host port runs, nothing changes. A session that has been
idle for SESS_IDLE seconds closes, its streams end and its close is logged, and no earlier. A readout
acknowledgement whose tag fails or whose session is not open is dropped and counted, one of no running stream,
or whose ACK_NO is not above the last, changes nothing but the packet count, one that reaches BURSTS ends the
stream, and otherwise each listed burst that is still kept is sent again, byte for byte. When CUM has not
advanced for RO_TMO the oldest kept burst is sent again, and after 100 such resends the stream ends with
STREAM_ABORT; before that time, or of no stream, nothing happens. Completes with its own effect, under
conditions on the state and the operands alone: HOST_LINK_CHANGE, HOST_ADDRESS_ANSWER, SESSION_IDLE_TIMEOUT,
READOUT_ACK, READOUT_RESEND_TIMEOUT. (11_fenene_protocol R261, 11_fenene_protocol R262, 11_fenene_protocol R269,
11_fenene_protocol R273, 11_fenene_protocol R290, 11_fenene_protocol R291) -/
def Obligations.HostPortEvents : Prop :=
  ∀ (q : List Instr) (x : Dev), x.live →
    let sent := fun (z : Stream) (k f : Nat) (l : List Byte) => Out.burst z.port z.udp z.session z.seq z.num k (f.testBit 0) (f.testBit 1) l
      (burstBytes x.chip.unitId x.chip.tdmBit z.session z.seq z.num k (z.part k).1 (f.testBit 0) (f.testBit 1)
        (if f.testBit 2 then .targetReset else .ok) l)
    let dropped := fun (y : Dev) => y.chip.out = [] ∧ y.chip.rb R.HST_EVENT 2 = true ∧ x.only y
      ∧ x.regsBut y [R.HST_RX_CNT, R.HST_AUTH_DROP_CNT, R.HST_EVENT]
      ∧ (y.chip.rd R.HST_AUTH_DROP_CNT).toNat = min ((x.chip.rd R.HST_AUTH_DROP_CNT).toNat + 1) 0xFFFFFFFF
    let seen := fun (y : Dev) => y = x.on (fun d => ({ d with out := [] } : Chip).count R.HST_RX_CNT)
    (∀ p, p < 4 →
      (x.chip.host.ready = true → p < x.chip.hostPorts →
        (p ∉ x.chip.host.link →
          Does (.hostLinkChange p true) ⟨q, x⟩ (fun y => y.chip.host = { x.chip.host with link := p :: x.chip.host.link }
            ∧ y.chip.rb R.HST_EVENT 0 = true ∧ x.only y (fun c => { c with host := y.chip.host }) ∧ x.regsBut y [R.HST_EVENT]))
        ∧ (p ∈ x.chip.host.link →
          Does (.hostLinkChange p false) ⟨q, x⟩ (fun y => y.chip.host = { x.chip.host with link := x.chip.host.link.filter (· ≠ p) }
            ∧ y.chip.rb R.HST_EVENT 1 = true ∧ x.only y (fun c => { c with host := y.chip.host }) ∧ x.regsBut y [R.HST_EVENT]))
        ∧ (∀ k n, HostFrame.answered k = some n → x.chip.answers k = true →
          Does (.hostAddressAnswer p k) ⟨q, x⟩ (fun y => y = x.on (fun d => { d with out := [.hostFrame p n] })))
        ∧ Does (.hostAddressAnswer p .pause) ⟨q, x⟩ x.idle
        ∧ (∀ k, k ≠ .pause → (HostFrame.answered k = none ∨ x.chip.answers k = false) →
          Does (.hostAddressAnswer p k) ⟨q, x⟩ (fun y => y = x.on (fun d => ({ d with out := [] } : Chip).count R.HST_FMT_DROP_CNT))))
      ∧ (∀ up, (x.chip.host.ready = false ∨ x.chip.hostPorts ≤ p ∨ (up = true ↔ p ∈ x.chip.host.link)) →
          Does (.hostLinkChange p up) ⟨q, x⟩ x.idle)
      ∧ (∀ k, (x.chip.host.ready = false ∨ x.chip.hostPorts ≤ p) → Does (.hostAddressAnswer p k) ⟨q, x⟩ x.idle))
    ∧ (∀ n s, x.chip.session n = some s →
      (s.last + x.chip.rf R.HST_TMO 11 0 * 1000000000 ≤ x.chip.core →
        Does (.sessionIdleTimeout n) ⟨q, x⟩ (fun y => x.chip.logged y.chip 0x2030 0x0A03 (n + 2 ^ 16)
          ∧ y.chip.host = { x.chip.host with sessions := x.chip.host.sessions.filter (fun z => z.num ≠ n),
                                             streams := x.chip.host.streams.filter (fun z => z.session ≠ n) }
          ∧ x.only y (fun c => { c with host := y.chip.host }) ∧ x.regsBut y []))
      ∧ (x.chip.core < s.last + x.chip.rf R.HST_TMO 11 0 * 1000000000 → Does (.sessionIdleTimeout n) ⟨q, x⟩ x.idle))
    ∧ (∀ n, x.chip.session n = none → Does (.sessionIdleTimeout n) ⟨q, x⟩ x.idle)
    ∧ (∀ a,
      let of := fun (z : Stream) => z.num = a.stream && decide (z.session = a.session) && decide (z.seq = a.seq)
      let does := fun (P : Dev → Prop) => Does (.readoutAck a) ⟨q, x⟩ P
      ((x.chip.hostPorts ≤ a.port ∨ (x.chip.host.ready = false ∧ x.chip.gth.st ≠ .hold)) → does x.idle)
      ∧ (x.serving → a.port < x.chip.hostPorts →
        (a.tagOk = false → does dropped)
        ∧ (a.tagOk = true → x.chip.host.streams.find? of = none → x.chip.session a.session = none → does dropped)
        ∧ (a.tagOk = true → x.chip.host.streams.find? of = none → x.chip.session a.session ≠ none → does seen)
        ∧ (∀ z, a.tagOk = true → x.chip.host.streams.find? of = some z →
          let cum := max z.cum (min a.cum z.next)
          (a.ackNo ≤ z.ackNo → does seen)
          ∧ (z.ackNo < a.ackNo → z.goal ≤ cum →
            does (fun y => y.chip.out = [] ∧ y.chip.host = { x.chip.host with streams := x.chip.host.streams.filter (fun w => w.num ≠ a.stream) }
              ∧ x.only y (fun c => { c with host := y.chip.host }) ∧ x.regsBut y [R.HST_RX_CNT]))
          ∧ (z.ackNo < a.ackNo → cum < z.goal →
            does (fun y => ∀ k f l, (k, f, l) ∈ z.kept → k ∈ a.missing → a.cum ≤ k → sent z k f l ∈ y.chip.out)))))
    ∧ (∀ n z, x.chip.host.streams.find? (fun z => z.num = n) = some z →
      let late := z.moved + x.chip.rf R.HST_TMO 23 16 * 1000000 ≤ x.chip.core
      (x.chip.pavRuns = true → late → 100 ≤ z.resends →
        Does (.readoutResendTimeout n) ⟨q, x⟩ (fun y => x.chip.logged y.chip 0x2030 0x0A07 z.session
          ∧ y.chip.host = { x.chip.host with streams := x.chip.host.streams.filter (fun w => w.num ≠ n) }
          ∧ x.only y (fun c => { c with host := y.chip.host }) ∧ x.regsBut y []))
      ∧ (∀ k f l r, x.chip.pavRuns = true → late → z.resends < 100 → z.kept = (k, f, l) :: r →
        Does (.readoutResendTimeout n) ⟨q, x⟩ (fun y => sent z k f l ∈ y.chip.out))
      ∧ ((x.chip.pavRuns = false ∨ ¬ late) → Does (.readoutResendTimeout n) ⟨q, x⟩ x.idle))
    ∧ (∀ n, (∀ z ∈ x.chip.host.streams, z.num ≠ n) → Does (.readoutResendTimeout n) ⟨q, x⟩ x.idle)

/-- Packets that are dropped, held, answered from the cache or answered by the Gatehouse. On a port of the mode,
a packet whose form or unit is wrong is counted in HST_FMT_DROP_CNT, one without an open session or with a
failing tag in HST_AUTH_DROP_CNT, one outside the windows of R276, or in them without a cached reply, in
HST_SEQ_DROP_CNT, and has no other effect than the packet count and the flag; a request of a session that a loss
of state has reset is answered SESSION_RESET and executes nothing. A request 1 to 63 ahead of E is held, once. A
request whose reply is cached is answered by that reply again, or POISONED where the cache reads so, and not
executed. In a failover gap up to 256 packets are held in arrival order and later ones dropped and counted, but
GATEHOUSE_STATUS outside a session is answered at once; in autonomous hold GATEHOUSE_STATUS is answered OK and
every other request UNAVAILABLE, in clear. On another port, or before the host port runs, nothing changes.
Completes with its own effect, under conditions on the state and the operands alone: FENENE_PACKET_DROP,
REQUEST_HOLD, REQUEST_DUPLICATE, FAILOVER_PACKET_HOLD, GATEHOUSE_ANSWER. (11_fenene_protocol R261,
11_fenene_protocol R269, 11_fenene_protocol R276, 11_fenene_protocol R277, 13_pavilion_and_gatehouse R324,
13_pavilion_and_gatehouse R328, 13_pavilion_and_gatehouse R331) -/
def Obligations.PacketsDroppedHeldAndResent : Prop :=
  ∀ (q : List Instr) (x : Dev), x.live →
    let counted := ({ x.chip with out := [] } : Chip).count R.HST_RX_CNT
    (∀ h r, x.serving → h.port < x.chip.hostPorts →
      let drops := fun (d : Chip) => Does (.fenenePacketDrop (.request h r)) ⟨q, x⟩ (fun y => y = ⟨d, x.mem⟩)
      (x.chip.packetOk h r = false → drops counted.dropFmt)
      ∧ (x.chip.packetOk h r = true → h.session = 0 → openReq r = false → drops counted.dropAuth)
      ∧ (x.chip.packetOk h r = true → h.session = 0 → reqCode r = 0x0002 → h.seq ≠ 0 → openReq r = true → drops counted.dropSeq)
      ∧ (x.chip.packetOk h r = true → h.session ≠ 0 → (x.chip.session h.session = none ∨ h.tagOk = false) → drops counted.dropAuth)
      ∧ (∀ z, x.chip.packetOk h r = true → h.session ≠ 0 → h.tagOk = true → x.chip.session h.session = some z → z.reset = true →
        r ≠ .sessionClose →
        Does (.fenenePacketDrop (.request h r)) ⟨q, x⟩ (fun y => y.replied h r .sessionReset [] ∧ y.chip.pav = x.chip.pav ∧ y.mem = x.mem))
      ∧ (∀ z, x.chip.packetOk h r = true → h.session ≠ 0 → h.tagOk = true → x.chip.session h.session = some z → z.reset = false →
        let touched := fun (y : Dev) (z : Session) => y.mem = x.mem ∧ y.chip.pav = x.chip.pav
          ∧ y.chip.session h.session = some { z with last := x.chip.core }
        ((h.seq + 1024 < z.next ∨ z.next + 63 < h.seq) → drops counted.dropSeq)
        ∧ (h.seq < z.next → z.next ≤ h.seq + 1024 → z.cache.find? (fun a => a.seq = h.seq) = none → (h.seq + 1 ≠ z.next ∨ z.wait = none) →
          drops counted.dropSeq)
        ∧ (z.next < h.seq → h.seq ≤ z.next + 63 → (∀ k ∈ z.held, k.1.seq ≠ h.seq) →
          Does (.requestHold h r) ⟨q, x⟩ (fun y => y.chip.out = [] ∧ touched y { z with held := z.held ++ [(h, r)] }))
        ∧ (∀ k, z.next < h.seq → h.seq ≤ z.next + 63 → k ∈ z.held → k.1.seq = h.seq →
          Does (.requestHold h r) ⟨q, x⟩ (fun y => y.chip.out = [] ∧ touched y z))
        ∧ (∀ a, h.seq < z.next → z.next ≤ h.seq + 1024 → z.cache.find? (fun a => a.seq = h.seq) = some a →
          let b := if h.poison then { a with status := .poisoned, params := [] } else a
          Does (.requestDuplicate h r) ⟨q, x⟩ (fun y => y.chip.out = [.reply b h.port h.udp (b.bytes (x.chip.replyUnit h))] ∧ touched y z))))
    ∧ (∀ a, x.serving → a.port < x.chip.hostPorts → a.tagOk = false →
        Does (.fenenePacketDrop (.ack a)) ⟨q, x⟩ (fun y => y = ⟨counted.dropAuth, x.mem⟩))
    ∧ (∀ p, x.chip.host.ready = true → packetPort p < x.chip.hostPorts → x.chip.gth.st = .failover →
        (∀ h r, p = .request h r → r ≠ .gatehouseStatus ∨ h.session ≠ 0 ∨ x.chip.packetOk h r = false) →
      (x.chip.gth.held.length < 256 →
        Does (.failoverPacketHold p) ⟨q, x⟩ (fun y => y = ⟨{ counted with gth := { x.chip.gth with held := x.chip.gth.held ++ [p] } }, x.mem⟩))
      ∧ (256 ≤ x.chip.gth.held.length →
        Does (.failoverPacketHold p) ⟨q, x⟩ (fun y => y = ⟨({ counted with gth := { x.chip.gth with dropped := true } } : Chip).count R.GTH_DROP_CNT, x.mem⟩)))
    ∧ (∀ h r, h.port < x.chip.hostPorts →
      let answer := fun (st : Status) (p : List (Nat × List Byte)) => Does (.gatehouseAnswer h r) ⟨q, x⟩ (fun y =>
        let a : Reply := ⟨h.session, h.seq, reqCode r, st, 0, true, x.chip.tdmBit, p⟩
        y.chip.out = [.reply a h.port h.udp (a.bytes (x.chip.replyUnit h))] ∧ x.only y ∧ x.regsBut y [R.HST_RX_CNT, R.HST_TX_CNT])
      (x.chip.packetOk h r = true → (x.chip.gth.st = .hold ∨ (x.chip.gth.st = .failover ∧ x.chip.host.ready = true ∧ h.session = 0)) →
        r = .gatehouseStatus → answer .ok x.chip.gthParams)
      ∧ (x.chip.packetOk h r = true → x.chip.gth.st = .hold → r ≠ .gatehouseStatus → answer .unavailable [])
      ∧ (x.chip.packetOk h r = false → x.chip.gth.st = .hold →
        Does (.gatehouseAnswer h r) ⟨q, x⟩ (fun y => y = ⟨counted.dropFmt, x.mem⟩)))
    ∧ (∀ p, (x.chip.hostPorts ≤ packetPort p ∨ (x.chip.host.ready = false ∧ x.chip.gth.st ≠ .hold)) →
      Does (.fenenePacketDrop p) ⟨q, x⟩ x.idle ∧ Does (.failoverPacketHold p) ⟨q, x⟩ x.idle
        ∧ (∀ h r, p = .request h r → Does (.requestHold h r) ⟨q, x⟩ x.idle ∧ Does (.requestDuplicate h r) ⟨q, x⟩ x.idle
            ∧ Does (.gatehouseAnswer h r) ⟨q, x⟩ x.idle))

/-- Every request in its turn is executed once and answered. Each request row whose request is the next one of
its session (or one that needs no session), which passes the checks that come before its own, completes: its own
operation acts on the device with the packet counted and the request in the journal, and the reply carries the
status and the parameters of that operation, in the layout of R265 and R266, to the port and UDP port that the
request came from. Memory is as that operation leaves it, except that a readout may go on to send. The two
deliberate failovers, which are answered only when they end, are apart. (11_fenene_protocol R263,
11_fenene_protocol R265, 11_fenene_protocol R266, 11_fenene_protocol R275, 11_fenene_protocol R279,
13_pavilion_and_gatehouse R319) -/
def Obligations.RequestsAreExecutedAndAnswered : Prop :=
  ∀ (q : List Instr) (x : Dev) (i : Instr) (h : Hdr) (r : Req), x.live → i.request = some (h, r) →
    r ≠ .fwActivate → r ≠ .failoverRequest → (x.inTurn h r ∨ x.openTurn h r) →
    let done := (x.taken h r).runOp h r
    Does i ⟨q, x⟩ (fun y => y.replied h r done.1.1 done.1.2
      ∧ ((∀ a b c d e, r ≠ .captureReadout a b c d e) → y.mem = done.2.mem)
      ∧ (x.inTurn h r → r ≠ .sessionClose → ∃ z, y.chip.session h.session = some z ∧ z.next = h.seq + 1))

/-- HELLO, sessions, GATEHOUSE_STATUS, EVENT_READ and LEDGER_READ. HELLO is answered with the unit, the identity
key, the version, a nonce that is kept from then on with at most 64 valid ones, and the number of free sessions.
SESSION_OPEN with a valid signature, nonce and key opens a session under a number that was free, expecting
SEQUENCE 1, and logs it; a failing signature, nonce or key is answered AUTH_FAIL and a seventeenth session or a
second owner BUSY, and neither opens anything; the nonce is used up; a role that does not exist is answered
BAD_PARAM. SESSION_CLOSE closes the session, ends its streams and logs it. GATEHOUSE_STATUS answers its fields
and changes nothing of the Gatehouse. EVENT_READ answers up to MAX entries and moves the read position to NEXT;
LEDGER_READ answers the number of slots used and the slots. MAX, FIRST or COUNT out of range is answered
BAD_PARAM. Whether a signature is valid, the keys and the nonce themselves are not computed (log entry 7).
Completes with its own effect, under conditions on the state and the operands alone: HELLO, SESSION_OPEN,
SESSION_CLOSE, GATEHOUSE_STATUS, EVENT_READ, LEDGER_READ. (11_fenene_protocol R270, 11_fenene_protocol R271,
11_fenene_protocol R272, 11_fenene_protocol R273, 11_fenene_protocol R281, 11_fenene_protocol R283,
13_pavilion_and_gatehouse R336, 15_security_and_ledger R375) -/
def Obligations.SessionRequests : Prop :=
  ∀ (q : List Instr) (x : Dev) (h : Hdr), x.live →
    (∀ r, r = Req.hello → x.inTurn h r ∨ x.openTurn h r →
      Does (.hello h) ⟨q, x⟩ (fun y => x.sameMem y ∧ ∃ n : Nat, n < 2 ^ 256 ∧ y.chip.host.nonces.head? = some (n, x.chip.core)
        ∧ y.chip.host.nonces.length ≤ 64
        ∧ y.replied h r .ok [tlv 1 2 x.chip.unitId, (2, identityKey), tlv 3 4 x.chip.activeImage.version, tlv 4 32 n,
            tlv 5 1 (16 - x.chip.host.sessions.length)]))
    ∧ (∀ role key nonce ok, ∀ r, r = Req.sessionOpen role key nonce ok → x.openTurn h r →
      let valid := ok = true ∧ (∃ n ∈ x.chip.host.nonces, n.1 = nonce ∧ x.chip.core ≤ n.2 + 10000000000) ∧ x.chip.keyOk role key = true
      let full := 16 ≤ x.chip.host.sessions.length ∨ (role = 1 ∧ ∃ s ∈ x.chip.host.sessions, s.owner = true)
      (role ≤ 1 → valid → ¬ full →
        Does (.sessionOpen h role key nonce ok) ⟨q, x⟩ (fun y => x.sameMem y ∧ (∀ n ∈ y.chip.host.nonces, n.1 ≠ nonce)
          ∧ ∃ z, y.chip.host.sessions = x.chip.host.sessions ++ [z] ∧ x.chip.session z.num = none ∧ 1 ≤ z.num ∧ z.num ≤ 65535
            ∧ z.owner = decide (role = 1) ∧ z.next = 1 ∧ x.chip.logged y.chip 0x2030 0x0A02 (z.num + role * 2 ^ 16)
            ∧ ∃ k s, y.replied h r .ok [tlv 1 2 z.num, (2, k), (3, s), tlv 4 2 (x.chip.rf R.HST_TMO 11 0)]))
      ∧ (role ≤ 1 → ¬ valid →
        Does (.sessionOpen h role key nonce ok) ⟨q, x⟩ (fun y => y.replied h r .authFail [] ∧ y.chip.host.sessions = x.chip.host.sessions
          ∧ (∀ n ∈ y.chip.host.nonces, n.1 ≠ nonce) ∧ x.sameMem y))
      ∧ (role ≤ 1 → valid → full →
        Does (.sessionOpen h role key nonce ok) ⟨q, x⟩ (fun y => y.replied h r .busy [] ∧ y.chip.host.sessions = x.chip.host.sessions
          ∧ (∀ n ∈ y.chip.host.nonces, n.1 ≠ nonce) ∧ x.sameMem y))
      ∧ (1 < role →
        Does (.sessionOpen h role key nonce ok) ⟨q, x⟩ (fun y => y.replied h r .badParam [] ∧ y.chip.host.sessions = x.chip.host.sessions
          ∧ x.sameMem y)))
    ∧ (x.inTurn h .sessionClose →
      Does (.sessionClose h) ⟨q, x⟩ (fun y => y.replied h .sessionClose .ok [] ∧ y.chip.session h.session = none
        ∧ (∀ z ∈ y.chip.host.streams, z.session ≠ h.session) ∧ x.chip.logged y.chip 0x2030 0x0A03 h.session ∧ x.sameMem y))
    ∧ (x.inTurn h .gatehouseStatus ∨ x.openTurn h .gatehouseStatus →
      Does (.gatehouseStatus h) ⟨q, x⟩ (fun y => y.replied h .gatehouseStatus .ok x.chip.gthParams ∧ y.chip.gth = x.chip.gth ∧ x.sameMem y))
    ∧ (∀ from_ max_ r, r = Req.eventRead from_ max_ → x.inTurn h r →
      (1 ≤ max_ → max_ ≤ 32 → ∀ s, x.chip.session h.session = some s →
        let got := x.chip.log.read (match from_ with | some f => x.chip.log.place f | none => s.evPos) max_
        Does (.eventRead h from_ max_) ⟨q, x⟩ (fun y => y.replied h r .ok got.1 ∧ x.sameMem y ∧ y.chip.log = x.chip.log
          ∧ ∃ z, y.chip.session h.session = some z ∧ z.evPos = got.2))
      ∧ ((max_ = 0 ∨ 32 < max_) →
        Does (.eventRead h from_ max_) ⟨q, x⟩ (fun y => y.replied h r .badParam [] ∧ y.chip.log = x.chip.log ∧ x.sameMem y)))
    ∧ (∀ first count r, r = Req.ledgerRead first count → x.inTurn h r →
      (1 ≤ count → count ≤ 32 → first + count ≤ 48 →
        Does (.ledgerRead h first count) ⟨q, x⟩ (fun y => y.chip.ledger = x.chip.ledger ∧ x.sameMem y
          ∧ y.replied h r .ok [tlv 1 1 x.chip.ledgerUsed, (2, (List.range count).flatMap (fun i => x.chip.slotBytes (first + i)))]))
      ∧ ((count = 0 ∨ 32 < count ∨ 48 < first + count) →
        Does (.ledgerRead h first count) ⟨q, x⟩ (fun y => y.replied h r .badParam [] ∧ y.chip.ledger = x.chip.ledger ∧ x.sameMem y)))

/-- Register reads, writes, blocks, modifications and snapshots by requests. In its turn: REG_READ that passes
the access checks is answered OK with the register's value, and clears its RC bits; a failing check answers its
status without a value. REG_WRITE stores the RW fields, each held to the limit of its range, and clears the W1C
bits written 1 (shown for the Yard and tributary registers that have no action); a lock or a CD change of an
enabled block is answered LOCKED or NOT_APPLIED_ENABLED; a width of 1, 2 or 8 bytes BAD_ALIGN. A block reads or
writes up to the first access that fails, and DONE is the number before it. REG_MODIFY answers the old value and
writes (OLD AND NOT MASK) OR (VALUE AND MASK); where its lock was released by force it is answered LOCK_TIMEOUT,
and where its locked read returned POISONED, POISONED, and it writes nothing (shown for a tributary register).
COUNTER_SNAPSHOT answers Device Time and the RC registers of its range, and clears each; a bad alignment, range
or address is answered so. Completes with its own effect, under conditions on the state and the operands alone:
REG_READ, REG_WRITE, REG_READ_BLOCK, REG_WRITE_BLOCK, REG_MODIFY, COUNTER_SNAPSHOT. (09_yard_and_hayloft R218,
11_fenene_protocol R284, 11_fenene_protocol R287, 12_register_space R297, 12_register_space R299,
12_register_space R300) -/
def Obligations.RegisterRequests : Prop :=
  ∀ (q : List Instr) (x : Dev) (h : Hdr), x.live →
    (∀ a r, r = Req.regRead a → x.inTurn h r →
      (∀ g, x.chip.accessCheck h.session a false = .ok g →
        let g' : RegId := if g.blk = .eng then { g with idx := x.chip.readEngine g.idx } else g
        Does (.regRead h a) ⟨q, x⟩ (fun y => x.sameMem y ∧ y.replied h r .ok [tlv 1 4 ((x.taken h r).chip.readWord g').toNat]
          ∧ ∀ w, g.row = some w → g.blk ≠ .hst → g.blk ≠ .tdm → ¬ (g.blk = .eng ∧ (g.off = 0x084 ∨ g.off = 0x08C)) →
            y.chip.rd (x.chip.reach g') = x.chip.rd (x.chip.reach g') &&& ~~~ w32 w.rc))
      ∧ (∀ st, x.chip.accessCheck h.session a false = .error st →
        Does (.regRead h a) ⟨q, x⟩ (fun y => y.replied h r st [] ∧ x.sameMem y)))
    ∧ (∀ a width v r, r = Req.regWrite a width v → x.inTurn h r →
      (∀ g row, width = 4 → x.chip.accessCheck h.session a true = .ok g → x.chip.lockedWrite g (w32 v) = false →
          (x.chip.cdRefused g (w32 v)).1 = false → (g.blk = .yrd ∨ (g.blk = .trb ∧ g.off ≠ 0)) → g.row = some row →
        let t := x.chip.reach g
        let m : Word := w32 (row.rw ||| row.ot)
        let w := clampWord g (w32 v)
        Does (.regWrite h a width v) ⟨q, x⟩ (fun y => y.replied h r .ok [] ∧ x.sameMem y
          ∧ y.chip.rd t = (x.chip.rd t &&& ~~~ m &&& ~~~ (w &&& w32 row.w1c)) ||| (w &&& m)))
      ∧ (∀ st, width = 4 → x.chip.accessCheck h.session a true = .error st →
        Does (.regWrite h a width v) ⟨q, x⟩ (fun y => y.replied h r st [] ∧ x.sameMem y))
      ∧ (∀ g, width = 4 → x.chip.accessCheck h.session a true = .ok g → x.chip.lockedWrite g (w32 v) = true →
        Does (.regWrite h a width v) ⟨q, x⟩ (fun y => y.replied h r .locked [] ∧ y.chip.rd g = x.chip.rd g ∧ x.sameMem y))
      ∧ (∀ g, width = 4 → x.chip.accessCheck h.session a true = .ok g → x.chip.lockedWrite g (w32 v) = false →
          (x.chip.cdRefused g (w32 v)).1 = true →
        Does (.regWrite h a width v) ⟨q, x⟩ (fun y => y.replied h r .notAppliedEnabled [] ∧ x.sameMem y))
      ∧ ((width = 1 ∨ width = 2 ∨ width = 8) →
        Does (.regWrite h a width v) ⟨q, x⟩ (fun y => y.replied h r .badAlign [] ∧ y.chip.rb R.GLB_EVENT 4 = true ∧ x.sameMem y)))
    ∧ (∀ a n r, r = Req.regReadBlock a n → x.inTurn h r →
      ((n = 0 ∨ 256 < n) → Does (.regReadBlock h a n) ⟨q, x⟩ (fun y => y.replied h r .badParam [] ∧ x.sameMem y))
      ∧ (1 ≤ n → n ≤ 256 → (∀ i < n, ∃ g, x.chip.accessCheck h.session (a + 4 * i) false = .ok g) →
        Does (.regReadBlock h a n) ⟨q, x⟩ (fun y => x.sameMem y ∧ ∃ l : List Word, l.length = n ∧ y.replied h r .ok [(1, words l), tlv 2 2 n]))
      ∧ (∀ k st, n ≤ 256 → k < n → (∀ i < k, ∃ g, x.chip.accessCheck h.session (a + 4 * i) false = .ok g) →
          x.chip.accessCheck h.session (a + 4 * k) false = .error st →
        Does (.regReadBlock h a n) ⟨q, x⟩ (fun y => x.sameMem y ∧ ∃ l : List Word, l.length = k ∧ y.replied h r st [(1, words l), tlv 2 2 k])))
    ∧ (∀ a bytes l r, r = Req.regWriteBlock a bytes l → x.inTurn h r →
      (bytes % 4 ≠ 0 →
        Does (.regWriteBlock h a bytes l) ⟨q, x⟩ (fun y => y.replied h r .badAlign [tlv 1 2 0] ∧ x.sameMem y))
      ∧ (bytes = 4 * l.length → (l = [] ∨ 256 < l.length) →
        Does (.regWriteBlock h a bytes l) ⟨q, x⟩ (fun y => y.replied h r .badParam [] ∧ x.sameMem y))
      ∧ (∀ st, bytes = 4 * l.length → l ≠ [] → l.length ≤ 256 → x.chip.accessCheck h.session a true = .error st →
        Does (.regWriteBlock h a bytes l) ⟨q, x⟩ (fun y => y.replied h r st [tlv 1 2 0] ∧ x.sameMem y))
      ∧ (∀ v g row, l = [v] → bytes = 4 → x.chip.accessCheck h.session a true = .ok g → x.chip.lockedWrite g (w32 v) = false →
          (x.chip.cdRefused g (w32 v)).1 = false → g.blk = .yrd → g.row = some row → row.w1c = 0 →
        let t := x.chip.reach g
        let m : Word := w32 (row.rw ||| row.ot)
        Does (.regWriteBlock h a bytes l) ⟨q, x⟩ (fun y => y.replied h r .ok [tlv 1 2 1] ∧ x.sameMem y
          ∧ y.chip.rd t = (x.chip.rd t &&& ~~~ m) ||| (clampWord g (w32 v) &&& m))))
    ∧ (∀ a width mask v r, r = Req.regModify a width mask v → x.inTurn h r →
      (∀ g row, width = 4 → x.chip.accessCheck h.session a true = .ok g →
        let old := (x.taken h r).chip.readWord g
        let new := (old &&& ~~~ w32 mask) ||| (w32 v &&& w32 mask)
        let t := x.chip.reach g
        let m : Word := w32 (row.rw ||| row.ot)
        h.lock = .kept → x.chip.lockedWrite g new = false → (x.chip.cdRefused g new).1 = false → g.blk = .yrd → g.row = some row → row.w1c = 0 → row.rc = 0 →
        Does (.regModify h a width mask v) ⟨q, x⟩ (fun y => y.replied h r .ok [tlv 1 4 old.toNat] ∧ x.sameMem y
          ∧ y.chip.rd t = (x.chip.rd t &&& ~~~ m) ||| (clampWord g new &&& m)))
      ∧ (∀ st, width = 4 → x.chip.accessCheck h.session a true = .error st →
        Does (.regModify h a width mask v) ⟨q, x⟩ (fun y => y.replied h r st [] ∧ x.sameMem y))
      ∧ (∀ g row, width = 4 → x.chip.accessCheck h.session a true = .ok g → h.lock = .late → g.blk = .trb → g.row = some row → row.rc = 0 →
        Does (.regModify h a width mask v) ⟨q, x⟩ (fun y => y.replied h r .lockTimeout [] ∧ y.chip.rd g = x.chip.rd g
          ∧ y.chip.rb R.YRD_EVENT 1 = true ∧ x.sameMem y))
      ∧ (∀ g, width = 4 → x.chip.accessCheck h.session a true = .ok g → h.lock = .poisoned → g.blk = .trb →
        Does (.regModify h a width mask v) ⟨q, x⟩ (fun y => y.replied h r .poisoned [] ∧ y.chip.rd g = x.chip.rd g ∧ x.sameMem y))
      ∧ ((width = 1 ∨ width = 2 ∨ width = 8) →
        Does (.regModify h a width mask v) ⟨q, x⟩ (fun y => y.replied h r .badAlign [] ∧ x.sameMem y)))
    ∧ (∀ a len r, r = Req.counterSnapshot a len → x.inTurn h r →
      (∀ g, a % 4 = 0 → len % 4 = 0 → 4 ≤ len → a % 4096 + len ≤ 4096 → decodeAddr a = some g → x.chip.fenced 32 = false →
          x.chip.heldReg g = false →
        let rs := x.chip.snapRegs a (len / 4)
        Does (.counterSnapshot h a len) ⟨q, x⟩ (fun y => x.sameMem y
          ∧ y.replied h r .ok [tlv 1 8 x.chip.dt, (2, words (rs.map (x.taken h r).chip.readWord))]
          ∧ ∀ s ∈ rs, ∀ w, s.row = some w → s.blk ≠ .hst → s.blk ≠ .tdm → ¬ (s.blk = .eng ∧ (s.off = 0x084 ∨ s.off = 0x08C)) →
            y.chip.rd (x.chip.reach s) = x.chip.rd (x.chip.reach s) &&& ~~~ w32 w.rc))
      ∧ ((a % 4 ≠ 0 ∨ len % 4 ≠ 0) →
        Does (.counterSnapshot h a len) ⟨q, x⟩ (fun y => y.replied h r .badAlign [] ∧ x.sameMem y))
      ∧ (a % 4 = 0 → len % 4 = 0 → (len < 4 ∨ 4096 < a % 4096 + len) →
        Does (.counterSnapshot h a len) ⟨q, x⟩ (fun y => y.replied h r .badParam [] ∧ x.sameMem y))
      ∧ (a % 4 = 0 → len % 4 = 0 → 4 ≤ len → a % 4096 + len ≤ 4096 → decodeAddr a = none →
        Does (.counterSnapshot h a len) ⟨q, x⟩ (fun y => y.replied h r .decodeError [] ∧ x.sameMem y)))

/-- Ports, channels, tributaries, deskew and regions configured by requests. In its turn PORT_CONFIG,
CHANNEL_CONFIG, TRIB_MAP or REGION_CONFIG whose resulting configuration passes every check is answered OK and,
where it is asked to leave the unit disabled or finds it disabled, or changes none of its CD fields, leaves
ENABLE as asked; one whose configuration fails a check, or that names what is not there or not ready, is
answered with the status of that check and leaves configuration and ENABLE as they were. PORT_CONFIG that would
change the quad mode while another lane of the quad is enabled is answered NOT_APPLIED_ENABLED with
CFG_WHILE_ENABLED; REGION_CONFIG of a running or used region BUSY. DESKEW_CONFIG stores base and size. Completes
with its own effect, under conditions on the state and the operands alone: PORT_CONFIG, CHANNEL_CONFIG,
TRIB_MAP, DESKEW_CONFIG, REGION_CONFIG. (11_fenene_protocol R285, 11_fenene_protocol R286, 05_tributary_mapping
R102, 06_defects_and_protection R150, 07_capture R177, 08_pattern_and_launch R189) -/
def Obligations.ConfigurationRequests : Prop :=
  ∀ (q : List Instr) (x : Dev) (h : Hdr), x.live →
    (∀ n cfg rate tx ppm quad en r, r = Req.portConfig n cfg rate tx ppm quad en → x.inTurn h r →
      let d := (x.taken h r).chip
      let after := d.putImages [] (portImages n cfg rate tx ppm quad)
      let kept := fun (y : Dev) => y.chip.lanes = x.chip.lanes ∧ y.chip.laneEn n = x.chip.laneEn n
        ∧ y.chip.rd (R.LN_CFG n) = x.chip.rd (R.LN_CFG n) ∧ y.chip.rd (R.LN_RATE n) = x.chip.rd (R.LN_RATE n)
        ∧ y.chip.rd (R.LN_TX n) = x.chip.rd (R.LN_TX n) ∧ x.sameMem y
      (n < 128 → (en ≠ 0 → (d.lane n).ready = true) → after.laneCfgOk n = true → fld (w32 tx) 23 16 ≤ 135 → d.quadBusy n quad = false →
        Does (.portConfig h n cfg rate tx ppm quad en) ⟨q, x⟩ (fun y => y.replied h r .ok [tlv 1 4 (y.chip.lnStatus n).toNat]
          ∧ y.chip.laneEn n = decide (en ≠ 0) ∧ y.chip.rf (R.LN_RATE n) 24 0 = rate % 2 ^ 25
          ∧ y.chip.rf (R.LN_TX n) 23 16 = fld (w32 tx) 23 16 ∧ x.sameMem y))
      ∧ (128 ≤ n → Does (.portConfig h n cfg rate tx ppm quad en) ⟨q, x⟩ (fun y => y.replied h r .badParam [] ∧ kept y))
      ∧ (n < 128 → en ≠ 0 → (d.lane n).ready = false →
        Does (.portConfig h n cfg rate tx ppm quad en) ⟨q, x⟩ (fun y => y.replied h r .notReady [] ∧ kept y))
      ∧ (n < 128 → (en ≠ 0 → (d.lane n).ready = true) → fld (w32 tx) 23 16 ≤ 135 → d.quadBusy n quad = true →
        Does (.portConfig h n cfg rate tx ppm quad en) ⟨q, x⟩ (fun y => y.replied h r .notAppliedEnabled []
          ∧ y.chip.rb (R.LN_EVENT n) 8 = true ∧ kept y))
      ∧ (n < 128 → (en ≠ 0 → (d.lane n).ready = true) → (135 < fld (w32 tx) 23 16 ∨ (d.quadBusy n quad = false ∧ after.laneCfgOk n = false)) →
        Does (.portConfig h n cfg rate tx ppm quad en) ⟨q, x⟩ (fun y => y.replied h r .badParam [] ∧ kept y)))
    ∧ (∀ e l en r, r = Req.channelConfig e l en → x.inTurn h r → e < 136 →
      let d := (x.taken h r).chip
      let after := d.putImages [] (chanImages e l)
      let kept := fun (y : Dev) => y.chip.engEn e = x.chip.engEn e ∧ (∀ g ∈ chanRegs e, y.chip.rd g = x.chip.rd g) ∧ x.sameMem y
      (d.engHeld e = true →
        Does (.channelConfig h e l en) ⟨q, x⟩ (fun y => y.replied h r .notReady [] ∧ kept y))
      ∧ (d.engHeld e = false → (en ≠ 0 → d.engReady e = true) → d.subBusy e = true →
        Does (.channelConfig h e l en) ⟨q, x⟩ (fun y => y.replied h r .busy [] ∧ kept y))
      ∧ (∀ v, d.engHeld e = false → (en ≠ 0 → d.engReady e = true) → d.subBusy e = false → l.getD 7 none = some v → 135 < fld (w32 v) 8 1 →
        Does (.channelConfig h e l en) ⟨q, x⟩ (fun y => y.replied h r .badParam [] ∧ kept y))
      ∧ (d.engHeld e = false → d.subBusy e = false → (∀ v, l.getD 7 none = some v → fld (w32 v) 8 1 ≤ 135) →
      ((en = 0 ∨ (d.engEn e = false ∧ d.engReady e = true ∧ after.engCheck e = none)) →
        Does (.channelConfig h e l en) ⟨q, x⟩ (fun y => y.replied h r .ok [tlv 1 4 (y.chip.hntStatus e).toNat]
          ∧ y.chip.engEn e = decide (en ≠ 0)))
      ∧ (en ≠ 0 → d.engEn e = true → d.engReady e = true → after.engCheck e = none →
        Does (.channelConfig h e l en) ⟨q, x⟩ (fun y => y.replied h r .ok [tlv 1 4 (y.chip.hntStatus e).toNat]
          ∧ (d.cdDiffers (chanImages e l) = false → y.chip.engEn e = true)))
      ∧ (∀ f, en ≠ 0 → d.engReady e = true → after.engCheck e = some f →
        Does (.channelConfig h e l en) ⟨q, x⟩ (fun y => y.replied h r f.1 [] ∧ kept y))
      ∧ (en ≠ 0 → d.engReady e = false →
        Does (.channelConfig h e l en) ⟨q, x⟩ (fun y => y.replied h r .notReady [] ∧ kept y))))
    ∧ (∀ e l en r, r = Req.channelConfig e l en → x.inTurn h r → 136 ≤ e →
        Does (.channelConfig h e l en) ⟨q, x⟩ (fun y => y.replied h r .badParam [] ∧ x.sameMem y))
    ∧ (∀ l r, r = Req.tribMap l → x.inTurn h r →
      let d := (x.taken h r).chip
      (∀ t im, l = [⟨t, im⟩] → t < 16384 → im.length = 10 → fld (w32 (im.getD 0 0)) 12 5 ≤ 135 → d.ctxEn t = false →
        d.tribOk [(t, TribMap.images t im)] = true →
        Does (.tribMap h l) ⟨q, x⟩ (fun y => y.replied h r .ok [] ∧ x.sameMem y ∧ y.chip.ctxEn t = bit (w32 (im.getD 0 0)) 0
          ∧ y.chip.ctxOwner t = fld (w32 (im.getD 0 0)) 12 5))
      ∧ ((l = [] ∨ 29 < l.length ∨ (∃ z ∈ l, z.images.length ≠ 10) ∨ (∃ z ∈ l, 16384 ≤ z.ctx)
            ∨ d.tribOk (l.map (fun z => (z.ctx, TribMap.images z.ctx z.images))) = false) →
        Does (.tribMap h l) ⟨q, x⟩ (fun y => y.replied h r .badParam [] ∧ y.chip.ctxs = x.chip.ctxs ∧ x.sameMem y
          ∧ ∀ t k, y.chip.rd ⟨.trb, t, k⟩ = x.chip.rd ⟨.trb, t, k⟩)))
    ∧ (∀ e base size r, r = Req.deskewConfig e base size → x.inTurn h r →
      (e < 136 → base < 2 ^ 17 → size < 256 → x.allows h.session (R.DSK_CFG e) (w32 (base + size * 2 ^ 24)) → x.chip.subBusy e = false →
        Does (.deskewConfig h e base size) ⟨q, x⟩ (fun y => y.replied h r .ok [] ∧ y.chip.rf (R.DSK_CFG e) 16 0 = base
          ∧ y.chip.rf (R.DSK_CFG e) 31 24 = size ∧ y.chip.dsks = x.chip.dsks ∧ x.sameMem y))
      ∧ ((136 ≤ e ∨ 2 ^ 17 ≤ base ∨ 256 ≤ size) →
        Does (.deskewConfig h e base size) ⟨q, x⟩ (fun y => y.replied h r .badParam [] ∧ y.chip.dsks = x.chip.dsks ∧ x.sameMem y)))
    ∧ (∀ n cfg src base size pre post r, r = Req.regionConfig 0 n cfg src base size pre post → x.inTurn h r → n < 4096 →
      let d := (x.taken h r).chip
      let after := d.putImages [R.rgn_CAP_RGN_CFG n] (rgnImages n cfg src base size pre post)
      let c := after.rcfg n
      let kept := fun (y : Dev) => y.chip.rgns = x.chip.rgns ∧ y.chip.rcfg n = x.chip.rcfg n ∧ x.sameMem y
      ((d.rgn n).live = false → c.eng < 136 → (cfg % 2 = 1 → after.stacksReady c.base (c.slots / 128) = true ∧ after.rgnCheck n = none) →
        Does (.regionConfig h 0 n cfg src base size pre post) ⟨q, x⟩ (fun y => y.replied h r .ok [] ∧ x.sameMem y
          ∧ y.chip.rb (R.rgn_CAP_RGN_CFG n) 0 = decide (cfg % 2 = 1) ∧ y.chip.rf (R.rgn_CAP_RGN_BASE n) 20 0 = base % 2 ^ 21
          ∧ y.chip.rf (R.rgn_CAP_RGN_SIZE n) 20 0 = size % 2 ^ 21))
      ∧ ((d.rgn n).live = true →
        Does (.regionConfig h 0 n cfg src base size pre post) ⟨q, x⟩ (fun y => y.replied h r .busy [] ∧ kept y))
      ∧ ((d.rgn n).live = false → c.eng < 136 → cfg % 2 = 1 → after.stacksReady c.base (c.slots / 128) = false →
        Does (.regionConfig h 0 n cfg src base size pre post) ⟨q, x⟩ (fun y => y.replied h r .notReady [] ∧ kept y))
      ∧ (∀ st, (d.rgn n).live = false → c.eng < 136 → cfg % 2 = 1 → after.stacksReady c.base (c.slots / 128) = true →
          after.rgnCheck n = some st →
        Does (.regionConfig h 0 n cfg src base size pre post) ⟨q, x⟩ (fun y => y.replied h r st [] ∧ kept y)))
    ∧ (∀ n cfg base size r, r = Req.regionConfig 1 n cfg none base size none none → x.inTurn h r → n < 1024 →
      let d := (x.taken h r).chip
      let after := d.putImages [R.prgn_PAT_RGN_CFG n] (prgnImages n cfg base size)
      let kept := fun (y : Dev) => y.chip.prgnEn n = x.chip.prgnEn n ∧ y.chip.prgnUnits n = x.chip.prgnUnits n ∧ x.sameMem y
      (d.prgnUsed n = false → (cfg % 2 = 1 → after.stacksReady (after.prgnUnits n).1 (after.prgnUnits n).2 = true ∧ after.prgnOk n = true) →
        Does (.regionConfig h 1 n cfg none base size none none) ⟨q, x⟩ (fun y => y.replied h r .ok [] ∧ x.sameMem y
          ∧ y.chip.prgnEn n = decide (cfg % 2 = 1) ∧ y.chip.prgnUnits n = after.prgnUnits n))
      ∧ (d.prgnUsed n = true →
        Does (.regionConfig h 1 n cfg none base size none none) ⟨q, x⟩ (fun y => y.replied h r .busy [] ∧ kept y))
      ∧ (d.prgnUsed n = false → cfg % 2 = 1 → after.stacksReady (after.prgnUnits n).1 (after.prgnUnits n).2 = false →
        Does (.regionConfig h 1 n cfg none base size none none) ⟨q, x⟩ (fun y => y.replied h r .notReady [] ∧ kept y))
      ∧ (d.prgnUsed n = false → cfg % 2 = 1 → after.stacksReady (after.prgnUnits n).1 (after.prgnUnits n).2 = true → after.prgnOk n = false →
        Does (.regionConfig h 1 n cfg none base size none none) ⟨q, x⟩ (fun y => y.replied h r .badParam [] ∧ kept y)))
    ∧ (∀ kind n cfg src base size pre post r, r = Req.regionConfig kind n cfg src base size pre post → x.inTurn h r →
        (1 < kind ∨ (kind = 0 ∧ 4096 ≤ n) ∨ (kind = 1 ∧ (1024 ≤ n ∨ src ≠ none ∨ pre ≠ none ∨ post ≠ none))) →
      Does (.regionConfig h kind n cfg src base size pre post) ⟨q, x⟩ (fun y => y.replied h r .badParam [] ∧ x.sameMem y
        ∧ y.chip.rgns = x.chip.rgns ∧ y.chip.pats = x.chip.pats))

/-- Protection, hunter, capture, pattern and injection requests. In its turn a request that names a ready engine
out of any substitution acts as its register command does: APS_COMMAND stores the command of an enabled group
that accepts it, with APS_STATUS in the reply, and any other is NOT_PERMITTED with CMD_REJECT, or TANDEM_SPLIT
for a group frozen in split hold; HUNT_CONTROL rehunts, forces a live candidate or is rejected with
FORCE_REJECT, or copies the table and returns it. CAPTURE_ARM answers the Device Time of the arm, CAPTURE_STOP
the held range, CAPTURE_READOUT the stream and its range. PATTERN_LOAD stores the script bytes and no others,
PATTERN_QUEUE appends its entry, INJECT_ERROR arms its record with the count at 0. A check that fails answers
its status and leaves the groups, hunters, regions, streams, queues and injections as they are. Completes with
its own effect, under conditions on the state and the operands alone: APS_COMMAND, HUNT_CONTROL, CAPTURE_ARM,
CAPTURE_STOP, CAPTURE_READOUT, PATTERN_LOAD, PATTERN_QUEUE, INJECT_ERROR. (11_fenene_protocol R283,
11_fenene_protocol R289, 06_defects_and_protection R144, 03_frame_hunting R79, 07_capture R178, 07_capture R179,
08_pattern_and_launch R190, 08_pattern_and_launch R196, 08_pattern_and_launch R203) -/
def Obligations.EngineAndCaptureRequests : Prop :=
  ∀ (q : List Instr) (x : Dev) (h : Hdr), x.live →
    (∀ e cmd chan r, r = Req.apsCommand e cmd chan → x.inTurn h r →
      let i := Instr.apsCommand h e cmd chan
      let refused := fun (st : Status) => Does i ⟨q, x⟩ (fun y => y.replied h r st [] ∧ y.chip.groups = x.chip.groups ∧ x.sameMem y)
      (136 ≤ e → refused .badParam)
      ∧ (e < 136 → x.chip.splitHold = true → x.chip.crossGroups.contains e = true → refused .tandemSplit)
      ∧ (e < 136 → (x.chip.splitHold = false ∨ x.chip.crossGroups.contains e = false) →
        (∀ st, x.chip.engGate e = some st → refused st)
        ∧ (x.chip.engGate e = none →
          let asked := x.chip.apsLocal e ++ (x.chip.apsRxReq e).toList
          let ours := 1 ≤ chan ∧ chan ≤ x.chip.apsN e
          let blocked := ∃ z ∈ asked, z.req = .lo ∨ z.req = .sfP
          let turnedAway := Does i ⟨q, x⟩ (fun y => y.replied h r .notPermitted [] ∧ y.chip.groups = x.chip.groups
            ∧ y.chip.rb (R.APS_EVENT e) 1 = true ∧ x.sameMem y)
          let kept := fun (c : Option ReqCh) => Does i ⟨q, x⟩ (fun y => y.replied h r .ok [tlv 1 4 (y.chip.apsStatus e).toNat]
            ∧ (y.chip.group e).cmd = c ∧ x.sameMem y)
          (((x.chip.group e).st = .disabled ∨ 4 < cmd) → turnedAway)
          ∧ ((x.chip.group e).st ≠ .disabled →
            (cmd = 0 → kept none) ∧ (cmd = 1 → kept (some ⟨.lo, 0⟩))
            ∧ (cmd = 2 → (ours → ¬ blocked → kept (some ⟨.fs, chan⟩)) ∧ ((¬ ours ∨ blocked) → turnedAway))
            ∧ (cmd = 3 → (ours → PReq.ms.rank < (topOf asked).req.rank → kept (some ⟨.ms, chan⟩))
              ∧ ((¬ ours ∨ (topOf asked).req.rank ≤ PReq.ms.rank) → turnedAway))
            ∧ (cmd = 4 → (ours → PReq.exer.rank < (topOf asked).req.rank → kept (some ⟨.exer, chan⟩))
              ∧ ((¬ ours ∨ (topOf asked).req.rank ≤ PReq.exer.rank) → turnedAway))))))
    ∧ (∀ e action index r, r = Req.huntControl e action index → x.inTurn h r →
      let i := Instr.huntControl h e action index
      let refused := fun (st : Status) => Does i ⟨q, x⟩ (fun y => y.replied h r st [] ∧ y.chip.hunters = x.chip.hunters ∧ x.sameMem y)
      ((2 < action ∨ (action = 1 ∧ index = none)) → refused .badParam)
      ∧ (action ≤ 2 → (action = 1 → index ≠ none) →
        (∀ st, x.chip.engGate e = some st → refused st)
        ∧ (x.chip.engGate e = none →
          (action = 0 →
            Does i ⟨q, x⟩ (fun y => y.replied h r .ok [] ∧ x.sameMem y
              ∧ (∀ s ∈ (y.chip.hunter e).streams, s.st = .oof ∧ s.lead = none ∧ s.forced = none)
              ∧ ∀ c ∈ (y.chip.hunter e).cands, (x.chip.hunter e).streams.length ≤ c.2.stream))
          ∧ (∀ k, action = 1 → index = some k →
            let rejected := Does i ⟨q, x⟩ (fun y => y.replied h r .badParam [] ∧ y.chip.hunter e = x.chip.hunter e
              ∧ y.chip.rb (R.HNT_EVENT e) 7 = true ∧ x.sameMem y)
            ((∀ c ∈ (x.chip.hunter e).cands, c.1 ≠ k) → rejected)
            ∧ (∀ c, (x.chip.hunter e).cands.find? (fun z => z.1 = k) = some c →
              (((x.chip.hunter e).stream c.2.stream).st = .inFrame → rejected)
              ∧ (((x.chip.hunter e).stream c.2.stream).st ≠ .inFrame → c.2.stream < (x.chip.hunter e).streams.length →
                Does i ⟨q, x⟩ (fun y => y.replied h r .ok [] ∧ ((y.chip.hunter e).stream c.2.stream).forced = some k
                  ∧ (∀ z ∈ (y.chip.hunter e).cands, z.2.stream = c.2.stream → z.1 = k) ∧ x.sameMem y))))
          ∧ (action = 2 →
            Does i ⟨q, x⟩ (fun y => y.chip.hunters = x.chip.hunters ∧ x.sameMem y
              ∧ (∀ k < 64, y.chip.rd (R.HNT_CAND e k) = x.chip.candWord e k)
              ∧ y.replied h r .ok [(1, (List.range 64).flatMap (fun k => beBytes 4 (x.chip.candWord e k).toNat)),
                  tlv 2 4 (y.chip.hntStatus e).toNat])))))
    ∧ (∀ n r, r = Req.captureArm n → x.inTurn h r →
      ((4096 ≤ n ∨ x.chip.rb (R.rgn_CAP_RGN_CFG n) 0 = false) →
        Does (.captureArm h n) ⟨q, x⟩ (fun y => y.replied h r .badParam [] ∧ y.chip.rgns = x.chip.rgns ∧ x.sameMem y))
      ∧ (n < 4096 → x.chip.rb (R.rgn_CAP_RGN_CFG n) 0 = true → x.chip.rgnCut n = true →
        Does (.captureArm h n) ⟨q, x⟩ (fun y => y.replied h r .tandemSplit [] ∧ y.chip.rgns = x.chip.rgns ∧ x.sameMem y))
      ∧ (n < 4096 → x.chip.rb (R.rgn_CAP_RGN_CFG n) 0 = true → x.chip.rgnCut n = false →
        ((x.chip.rgn n).live = true →
          Does (.captureArm h n) ⟨q, x⟩ (fun y => y.replied h r .busy [] ∧ y.chip.rgns = x.chip.rgns ∧ x.sameMem y))
        ∧ ((x.chip.rgn n).live = false →
          Does (.captureArm h n) ⟨q, x⟩ (fun y => y.replied h r .ok [tlv 1 8 x.chip.dt] ∧ x.sameMem y
            ∧ (y.chip.rgn n).live = true ∧ (y.chip.rgn n).next = 0 ∧ (y.chip.rgn n).done = 0 ∧ (y.chip.rgn n).armT = x.chip.dt))))
    ∧ (∀ n r, r = Req.captureStop n → x.inTurn h r →
      (4096 ≤ n → Does (.captureStop h n) ⟨q, x⟩ (fun y => y.replied h r .badParam [] ∧ y.chip.rgns = x.chip.rgns ∧ x.sameMem y))
      ∧ (n < 4096 → x.chip.rgnCut n = true →
        Does (.captureStop h n) ⟨q, x⟩ (fun y => y.replied h r .tandemSplit [] ∧ y.chip.rgns = x.chip.rgns ∧ x.sameMem y))
      ∧ (n < 4096 → x.chip.rgnCut n = false →
        Does (.captureStop h n) ⟨q, x⟩ (fun y => y.replied h r .ok [tlv 1 4 (y.chip.rgn n).held.1, tlv 2 4 (y.chip.rgn n).held.2]
          ∧ (y.chip.rgn n).live = false ∧ ((x.chip.rgn n).live = false → y.chip.rgns = x.chip.rgns ∧ x.sameMem y))))
    ∧ (∀ n first count burst udp r, r = Req.captureReadout n first count burst udp → x.inTurn h r →
      let own := x.chip.host.streams.filter (fun z => z.session = h.session)
      (4096 ≤ n →
        Does (.captureReadout h n first count burst udp) ⟨q, x⟩ (fun y => y.replied h r .badParam [] ∧ y.chip.host.streams = x.chip.host.streams))
      ∧ (n < 4096 → (4 ≤ own.length ∨ 32 ≤ x.chip.host.streams.length) →
        Does (.captureReadout h n first count burst udp) ⟨q, x⟩ (fun y => y.replied h r .busy [] ∧ y.chip.host.streams = x.chip.host.streams))
      ∧ (n < 4096 → own.length < 4 → x.chip.host.streams.length < 32 →
        ((burst < 512 ∨ 8192 < burst ∨ burst % 512 ≠ 0 ∨ (1024 < burst ∧ x.chip.jumbo = false) ∨ (x.chip.rgn n).st = .idle) →
          Does (.captureReadout h n first count burst udp) ⟨q, x⟩ (fun y => y.replied h r .badParam [] ∧ y.chip.host.streams = x.chip.host.streams))
        ∧ (512 ≤ burst → burst ≤ 8192 → burst % 512 = 0 → (burst ≤ 1024 ∨ x.chip.jumbo = true) → (x.chip.rgn n).st ≠ .idle →
          let held := (x.chip.rgn n).held
          let f := readoutFirst held first
          let bales := min count (held.1 + held.2 - f)
          Does (.captureReadout h n first count burst udp) ⟨q, x⟩ (fun y => ∃ num, 1 ≤ num ∧ num ≤ 255
            ∧ (∀ z ∈ x.chip.host.streams, z.num ≠ num)
            ∧ y.replied h r .ok [tlv 1 1 num, tlv 2 4 f, tlv 3 4 bales, tlv 4 4 (ceilDiv bales (burst / 512))]))))
    ∧ (∀ n off data complete r, r = Req.patternLoad n off data complete → x.inTurn h r →
      ((1024 ≤ n ∨ x.chip.prgnEn n = false ∨ data.length < 4 ∨ 1024 < data.length) →
        Does (.patternLoad h n off data complete) ⟨q, x⟩ (fun y => y.replied h r .badParam [] ∧ x.sameMem y))
      ∧ (n < 1024 → x.chip.prgnEn n = true → 4 ≤ data.length → data.length ≤ 1024 →
        (x.chip.prgnUsed n = true →
          Does (.patternLoad h n off data complete) ⟨q, x⟩ (fun y => y.replied h r .busy [] ∧ x.sameMem y))
        ∧ (x.chip.prgnUsed n = false → x.chip.prgnSpan n < off + data.length →
          Does (.patternLoad h n off data complete) ⟨q, x⟩ (fun y => y.replied h r .badParam [] ∧ x.sameMem y))
        ∧ (x.chip.prgnUsed n = false → off + data.length ≤ x.chip.prgnSpan n →
            x.chip.rangeFenced (x.chip.prgnAt n + off) data.length = true →
          Does (.patternLoad h n off data complete) ⟨q, x⟩ (fun y => y.replied h r .targetReset [] ∧ x.sameMem y))
        ∧ (x.chip.prgnUsed n = false → off + data.length ≤ x.chip.prgnSpan n →
            x.chip.rangeFenced (x.chip.prgnAt n + off) data.length = false →
          let at_ := x.chip.prgnAt n + off
          let loaded := decide (complete.getD 0 ≠ 0) && (x.mem.store at_ data).scriptOk (x.chip.prgnAt n) (x.chip.prgnSpan n)
          Does (.patternLoad h n off data complete) ⟨q, x⟩ (fun y => y.chip.prgnLoaded n = loaded
            ∧ (if complete.getD 0 ≠ 0 ∧ loaded = false then y.replied h r .badParam [] else y.replied h r .ok [tlv 1 1 (b2n loaded)])
            ∧ (∀ i b, data[i]? = some b → y.mem.rd1 (at_ + i) = b)
            ∧ ∀ a, (a < at_ ∨ at_ + data.length ≤ a) → y.mem.rd1 a = x.mem.rd1 a))))
    ∧ (∀ e n sub fs time r, r = Req.patternQueue e n sub fs time → x.inTurn h r →
      (∀ st, x.chip.engGate e = some st →
        Does (.patternQueue h e n sub fs time) ⟨q, x⟩ (fun y => y.replied h r st [] ∧ y.chip.pats = x.chip.pats ∧ x.sameMem y))
      ∧ (x.chip.engGate e = none →
        let t := time.map (· % 2 ^ 48)
        let bad := (x.taken h r).pushCheck e n sub t (decide (fs ≠ 0))
        (bad = none →
          Does (.patternQueue h e n sub fs time) ⟨q, x⟩ (fun y => y.replied h r .ok [tlv 1 1 ((x.chip.pat e).queue.length + 1)] ∧ x.sameMem y
            ∧ (y.chip.pat e).queue = (x.chip.pat e).queue ++ [⟨n, sub, t, decide (fs ≠ 0) && time.isSome, false, false, false⟩]))
        ∧ (∀ st f, bad = some (st, f) →
          Does (.patternQueue h e n sub fs time) ⟨q, x⟩ (fun y => y.replied h r st [] ∧ y.chip.pats = x.chip.pats ∧ x.sameMem y
            ∧ ∀ b, f = some b → y.chip.rb (R.PAT_EVENT e) b = true))))
    ∧ (∀ e rec_ count every time r, r = Req.injectError e rec_ count every time → x.inTurn h r →
      (∀ st, x.chip.engGate e = some st →
        Does (.injectError h e rec_ count every time) ⟨q, x⟩ (fun y => y.replied h r st [] ∧ y.chip.pats = x.chip.pats ∧ x.sameMem y))
      ∧ (x.chip.engGate e = none →
        ((x.chip.pat e).inj ≠ none →
          Does (.injectError h e rec_ count every time) ⟨q, x⟩ (fun y => y.replied h r .busy [] ∧ y.chip.pats = x.chip.pats ∧ x.sameMem y))
        ∧ ((x.chip.pat e).inj = none → injForm rec_ = false →
          Does (.injectError h e rec_ count every time) ⟨q, x⟩ (fun y => y.replied h r .badParam [] ∧ y.chip.pats = x.chip.pats
            ∧ y.chip.rb (R.PAT_EVENT e) 9 = true ∧ x.sameMem y))
        ∧ ((x.chip.pat e).inj = none → injForm rec_ = true →
          let kind := ofBytes (rec_.take 1) % 8
          let len := if 4 ≤ kind then ofBytes ((rec_.drop 1).take 1) else 0
          let tgt := ofBytes ((rec_.drop 8).take 4)
          let t := time.map (· % 2 ^ 48)
          let early := ∃ w, t = some w ∧ shortDiff x.chip.dt w < 0
          (early →
            Does (.injectError h e rec_ count every time) ⟨q, x⟩ (fun y => y.replied h r .tooLate [] ∧ y.chip.pats = x.chip.pats
              ∧ y.chip.rb (R.PAT_EVENT e) 10 = true ∧ x.sameMem y))
          ∧ (¬ early → (x.taken h r).injTargetOk e kind len tgt = false →
            Does (.injectError h e rec_ count every time) ⟨q, x⟩ (fun y => y.replied h r .badParam [] ∧ y.chip.pats = x.chip.pats
              ∧ y.chip.rb (R.PAT_EVENT e) 9 = true ∧ x.sameMem y))
          ∧ (¬ early → (x.taken h r).injTargetOk e kind len tgt = true →
            Does (.injectError h e rec_ count every time) ⟨q, x⟩ (fun y => y.replied h r .ok [] ∧ x.sameMem y
              ∧ y.chip.pat e = { x.chip.pat e with injCnt := 0, inj := some ⟨kind, len, tgt, ofBytes ((rec_.drop 12).take 4),
                  count % 2 ^ 16, max 1 (every % 256), t, false, 0, 0, false⟩ })))))

/-- Time, firmware, failover, attestation, repair and tandem requests. In its turn TIME_SET loads a later time
once and is otherwise NOT_PERMITTED or BAD_PARAM; TIME_STEP steps by exactly the ticks given or measured, and
answers them. FW_STAGE stores the bytes of the staged object and answers what stops it; each owner operation
that is answered OK logs OWNER_ACTION. FW_ACTIVATE and FAILOVER_REQUEST start a failover that waits for its end,
or are answered what stops them. ATTEST forms a report for a nonce of 32 bytes and uses a leaf, or returns a
part of a report that is held; a second report too soon is BUSY and no leaf left NO_SPARE. SPARE_SUBSTITUTE
names what it cannot do; TANDEM_JOIN enters PENDING with the role or is refused; TANDEM_SPLIT leaves the unit
ALONE. Completes with its own effect, under conditions on the state and the operands alone: TIME_SET, TIME_STEP,
FW_STAGE, FW_ACTIVATE, FAILOVER_REQUEST, ATTEST, SPARE_SUBSTITUTE, TANDEM_JOIN, TANDEM_SPLIT. (10_device_time
R249, 10_device_time R251, 11_fenene_protocol R283, 13_pavilion_and_gatehouse R332, 13_pavilion_and_gatehouse
R333, 14_tandem_mode R339, 14_tandem_mode R352, 15_security_and_ledger R363, 15_security_and_ledger R368,
15_security_and_ledger R375) -/
def Obligations.DeviceRequests : Prop :=
  ∀ (q : List Instr) (x : Dev) (h : Hdr), x.live →
    let owner := fun (y : Dev) (op : Nat) => y.chip.log.entries.head?
      = some ⟨(y.chip.log.next - 1) % 2 ^ 32, 0x2030, y.chip.dt, 0x0A04, 0xFFFF, h.session + 2 ^ 16, op * 2 ^ 112⟩
    (∀ v r, r = Req.timeSet v → x.inTurn h r →
      let still := fun (st : Status) => Does (.timeSet h v) ⟨q, x⟩ (fun y => y.replied h r st [] ∧ y.chip.dt = x.chip.dt
        ∧ y.chip.tim = x.chip.tim ∧ x.sameMem y)
      let loads := fun (n : Int) => Does (.timeSet h v) ⟨q, x⟩ (fun y => y.replied h r .ok [] ∧ (y.chip.dt : Int) = x.chip.dt + n
        ∧ y.chip.tim.setDone = true ∧ x.sameMem y)
      (x.chip.tim.ready = false → still .notReady)
      ∧ (x.chip.tim.ready = true → x.chip.tim.setDone = true → still .notPermitted)
      ∧ (x.chip.tim.ready = true → x.chip.tim.setDone = false →
        ((x.chip.timSource ≠ 2 ∨ x.chip.tim.st = .freerun) →
          (x.chip.dt < v → loads ((v : Int) - x.chip.dt)) ∧ (v ≤ x.chip.dt → still .badParam))
        ∧ (x.chip.timSource = 2 → x.chip.tim.st ≠ .freerun →
          let n := (2 * ((v : Int) - x.chip.dt) + 4000000000) / 8000000000
          (n < 1 → still .badParam) ∧ (1 ≤ n → loads (n * 4000000000)))))
    ∧ (∀ step measured r, r = Req.timeStep step measured → x.inTurn h r →
      let still := fun (st : Status) (p : Params) => Does (.timeStep h step measured) ⟨q, x⟩ (fun y => y.replied h r st p
        ∧ y.chip.dt = x.chip.dt ∧ y.chip.tim = x.chip.tim ∧ x.sameMem y)
      (step.isSome = measured.isSome → still .badParam [])
      ∧ (step.isSome ≠ measured.isSome → x.chip.tim.ready = false → still .notReady [])
      ∧ (step.isSome ≠ measured.isSome → x.chip.tim.ready = true → x.chip.tim.back ≠ none → still .busy [])
      ∧ (measured.isSome = true → step = none → x.chip.tim.ready = true → x.chip.tim.back = none → x.chip.tim.stepPend = false →
          still .badParam [])
      ∧ (∀ a, (step = some a ∧ measured = none ∨ step = none ∧ measured.isSome = true ∧ x.chip.tim.stepPend = true ∧ a = -x.chip.timOffset) →
        x.chip.tim.ready = true → x.chip.tim.back = none →
        (a = 0 → still .ok [tlv 1 8 0])
        ∧ (0 < a → a < 2 ^ 47 →
          Does (.timeStep h step measured) ⟨q, x⟩ (fun y => y.replied h r .ok [tlv 1 8 (unsgn 64 a)] ∧ (y.chip.dt : Int) = x.chip.dt + a
            ∧ y.chip.tim.stepPend = false ∧ y.chip.rb R.TIM_EVENT 1 = true ∧ x.sameMem y))
        ∧ (-4000000000 ≤ a → a < 0 →
          Does (.timeStep h step measured) ⟨q, x⟩ (fun y => y.replied h r .ok [tlv 1 8 (unsgn 64 a)] ∧ y.chip.dt = x.chip.dt
            ∧ y.chip.tim.back = some ⟨2 * a.natAbs, x.chip.dt, a⟩ ∧ x.sameMem y))
        ∧ ((2 ^ 47 ≤ a ∨ a < -4000000000) → still .stepRefused [])))
    ∧ (∀ kind off data final v r, r = Req.fwStage kind off data final v → x.inTurn h r →
      let i := Instr.fwStage h kind off data final v
      let refused := fun (st : Status) => Does i ⟨q, x⟩ (fun y => y.replied h r st [] ∧ y.chip.sec = x.chip.sec ∧ x.sameMem y)
      ((data.length < 4 ∨ 1024 < data.length) → refused .badParam)
      ∧ (∀ st, 4 ≤ data.length → data.length ≤ 1024 → x.chip.stageStop kind off data.length = some st → refused st)
      ∧ (4 ≤ data.length → data.length ≤ 1024 → x.chip.stageStop kind off data.length = none →
        ((∀ b ∈ v.failed, 4096 ≤ b) →
          (x.chip.stageFits (off + data.length) = false → refused .noSpare)
          ∧ (x.chip.stageFits (off + data.length) = true →
            let c := if off = 0 then x.chip.stageErase kind else x.chip
            let bytes := stageBytes (if off = 0 then [] else (x.chip.stage kind).bytes) off data
            let staged := c.setStage kind { c.stage kind with bytes := bytes }
            (final.getD 0 = 0 →
              Does i ⟨q, x⟩ (fun y => y.replied h r .ok [] ∧ owner y 0x0060 ∧ x.sameMem y ∧ (y.chip.stage kind).bytes = bytes))
            ∧ (final.getD 0 ≠ 0 →
              Does i ⟨q, x⟩ (fun y => ∃ unwritten : Byte,
                let st := staged.finalCheck unwritten kind v
                (y.chip.stage kind).bytes = bytes ∧ x.sameMem y
                ∧ (st = .ok → y.replied h r .ok [tlv 1 4 (staged.stageVersion unwritten kind)] ∧ owner y 0x0060
                    ∧ (y.chip.stage kind).st = .verified
                    ∧ (kind = 1 → y.chip.sec.image.image = some y.chip.standbyImage ∧ y.chip.standbyImage.good = true
                        ∧ y.chip.standbyImage.version = staged.stageVersion unwritten 1)
                    ∧ (kind = 2 → ∃ slot, y.chip.sec.flash.pend = some ⟨staged.stageVersion unwritten 2, slot, v.body⟩))
                ∧ (st ≠ .ok → y.replied h r st [] ∧ (y.chip.stage kind).st = .failed)))))
        ∧ (∀ b < 4096, v.failed = [b] → x.chip.sec.flash.bad.contains b = false →
          Does i ⟨q, x⟩ (fun y => (∃ st p, y.replied h r st p) ∧ x.sameMem y
            ∧ (x.chip.sec.flash.spares = 0 → y.chip.sec.flash.bad = x.chip.sec.flash.bad ++ [b] ∧ y.chip.sec.flash.spares = 0)
            ∧ (0 < x.chip.sec.flash.spares → y.chip.sec.flash.bad = x.chip.sec.flash.bad
                ∧ y.chip.sec.flash.spares = x.chip.sec.flash.spares - 1)))))
    ∧ (∀ fw : Bool, ∀ r, r = (if fw then Req.fwActivate else .failoverRequest) → x.inTurn h r →
      let i : Instr := if fw then .fwActivate h else .failoverRequest h
      (∀ st, (x.taken h r).chip.deliberateStop fw = some st →
        Does i ⟨q, x⟩ (fun y => y.replied h r st [] ∧ y.chip.gth = x.chip.gth ∧ x.sameMem y))
      ∧ ((x.taken h r).chip.deliberateStop fw = none →
        Does i ⟨q, x⟩ (fun y => y.chip.gth.st = .failover ∧ y.chip.gth.asked = some (h, fw) ∧ y.chip.gth.cause = (if fw then 5 else 4)
          ∧ y.chip.rb R.GTH_EVENT 0 = true ∧ y.chip.pav.active = x.chip.pav.active
          ∧ ∀ a p u b, Out.reply a p u b ∉ y.chip.out)))
    ∧ (∀ nonce id part r, r = (if nonce.isEmpty then Req.attestPart id part else .attestNew nonce) → x.inTurn h r →
      (∀ l, nonce = [] → x.chip.sec.reports.find? (fun z => z.1 = id) = some (id, l) → 1 ≤ part → part ≤ 3 →
        Does (.attest h nonce id part) ⟨q, x⟩ (fun y => y.chip.sec = x.chip.sec ∧ x.sameMem y
          ∧ y.replied h r .ok [tlv 1 4 id, tlv 2 1 part, tlv 3 1 3, (4, (l.drop ((part - 1) * 1024)).take 1024)]))
      ∧ (nonce = [] → ((∀ z ∈ x.chip.sec.reports, z.1 ≠ id) ∨ part = 0 ∨ 3 < part) →
        Does (.attest h nonce id part) ⟨q, x⟩ (fun y => y.replied h r .badParam [] ∧ y.chip.sec = x.chip.sec ∧ x.sameMem y))
      ∧ (nonce ≠ [] → nonce.length ≠ 32 →
        Does (.attest h nonce id part) ⟨q, x⟩ (fun y => y.replied h r .badParam [] ∧ y.chip.sec = x.chip.sec ∧ x.sameMem y))
      ∧ (nonce.length = 32 →
        let soon := ∃ c, x.chip.sec.lastRep = some c ∧ x.chip.core < c + reportTime
        (soon → Does (.attest h nonce id part) ⟨q, x⟩ (fun y => y.replied h r .busy [] ∧ y.chip.sec = x.chip.sec ∧ x.sameMem y))
        ∧ (¬ soon → 4 ≤ x.chip.lmsTree →
          Does (.attest h nonce id part) ⟨q, x⟩ (fun y => y.replied h r .noSpare [] ∧ y.chip.sec = x.chip.sec ∧ x.sameMem y))
        ∧ (¬ soon → x.chip.lmsTree < 4 → x.chip.sec.leaf.length = 4 →
          Does (.attest h nonce id part) ⟨q, x⟩ (fun y => x.sameMem y ∧ y.chip.sec.lastRep = some x.chip.core
            ∧ y.chip.sec.nextId = x.chip.sec.nextId + 1
            ∧ y.chip.sec.leaf.getD x.chip.lmsTree 0 = x.chip.sec.leaf.getD x.chip.lmsTree 0 + 1
            ∧ ∃ l, y.chip.sec.reports.head? = some (x.chip.sec.nextId, l) ∧ l.length = 2148
              ∧ y.replied h r .ok [tlv 1 4 x.chip.sec.nextId, tlv 2 1 1, tlv 3 1 3, (4, l.take 1024)]))))
    ∧ (∀ kind old new r, r = Req.spareSubstitute kind old new → x.inTurn h r →
      let i := Instr.spareSubstitute h kind old new
      let still := fun (st : Status) => Does i ⟨q, x⟩ (fun y => y.replied h r st [] ∧ y.chip.svc = x.chip.svc
        ∧ y.chip.ledger = x.chip.ledger ∧ y.chip.hbm = x.chip.hbm ∧ y.chip.yard = x.chip.yard ∧ x.sameMem y)
      let begins := fun (n : Nat) (P : Dev → Prop) =>
        (x.chip.freeSlot = none → still .ledgerFull)
        ∧ (∀ slot, x.chip.freeSlot = some slot →
          Does i ⟨q, x⟩ (fun y => y.replied h r .ok [tlv 1 1 slot] ∧ owner y 0x0064 ∧ x.sameMem y ∧ P y
            ∧ ∃ v ∈ y.chip.ledger.resv, v.slot = slot ∧ v.kind = kind ∧ v.old = old ∧ v.new = n))
      ((kind = 0 ∨ 3 < kind) → still .badParam)
      ∧ (kind = 1 →
        let spare := fun (n : Nat) => x.chip.svc.spares.contains n
        let wrong := 136 ≤ old ∨ spare old = true ∨ x.chip.svc.retired.contains old = true ∨ ∃ n, new = some n ∧ spare n = false
        (wrong → still .badParam)
        ∧ (¬ wrong → x.chip.subBusy old = true → still .busy)
        ∧ (¬ wrong → x.chip.subBusy old = false → x.chip.ganged old = true → still .noSpare)
        ∧ (¬ wrong → x.chip.subBusy old = false → x.chip.ganged old = false →
          let chosen := match new with | some n => (if x.chip.spareOk n then some n else none) | none => x.chip.svc.spares.find? x.chip.spareOk
          (chosen = none → still .noSpare)
          ∧ (∀ n, chosen = some n → begins n (fun y => y.chip.subBusy old = true ∧ y.chip.subBusy n = true))))
      ∧ (kind = 2 →
        let stk := x.chip.stack (old / 32)
        let pc := old % 32
        let wrong := (stk.map.contains pc = false ∧ ¬ ∃ g, stk.mig = some g ∧ g.dest = pc)
          ∨ ∃ n, new = some n ∧ (n / 32 ≠ old / 32 ∨ stk.spares.contains (n % 32) = false)
        let busy := (∃ g, stk.mig = some g ∧ (g.dest = pc ∨ g.from_ = pc)) ∨ (∃ z ∈ stk.waiting, z.1 = pc)
          ∨ ∃ v ∈ x.chip.ledger.resv, v.kind = 2 ∧ v.old = old ∧ v.ready = false
        (128 ≤ old → still .badParam)
        ∧ (old < 128 → stk.ready = false → still .notReady)
        ∧ (old < 128 → stk.ready = true →
          (wrong → still .badParam)
          ∧ (¬ wrong → busy → still .busy)
          ∧ (¬ wrong → ¬ busy →
            let free := x.chip.freePcs (old / 32)
            let chosen := match new with | some n => (if free.contains (n % 32) then some (n % 32) else none) | none => free.head?
            (chosen = none → still .noSpare)
            ∧ (∀ m, chosen = some m → begins (old / 32 * 32 + m) (fun _ => True)))))
      ∧ (kind = 3 →
        let spare := sparePort old
        let wrong := ¬ (old < 23 ∨ (0x100 ≤ old ∧ old < 0x124)) ∨ x.chip.portTaken old = true ∨ ∃ n, new = some n ∧ some n ≠ spare
        let busy := ∃ v ∈ x.chip.ledger.resv, v.kind = 3 ∧ v.old = old ∧ v.ready = false
        (wrong → still .badParam)
        ∧ (¬ wrong → busy → still .busy)
        ∧ (¬ wrong → ¬ busy → (spare = none ∨ ∃ n, spare = some n ∧ x.chip.spareUsed n = true) → still .noSpare)
        ∧ (¬ wrong → ¬ busy → ∀ n, spare = some n → x.chip.spareUsed n = false → begins n (fun _ => True))))
    ∧ (∀ role lanes r, r = Req.tandemJoin role lanes → x.inTurn h r →
      let still := fun (st : Status) => Does (.tandemJoin h role lanes) ⟨q, x⟩ (fun y => y.replied h r st [] ∧ y.chip.tdm = x.chip.tdm
        ∧ y.chip.tdmSt = x.chip.tdmSt ∧ x.sameMem y)
      let barred := x.chip.tdmSt = 1 ∨ x.chip.tdmSt = 2 ∨ x.chip.tdmSt = 3
        ∨ (x.chip.tdmSt = 4 ∧ decide (role = 1) ≠ x.chip.follower) ∨ x.chip.lanesUp < lanes
      ((1 < role ∨ lanes = 0 ∨ 8 < lanes) → still .badParam)
      ∧ (role ≤ 1 → 1 ≤ lanes → lanes ≤ 8 →
        (x.chip.tdm.ready = false → still .notReady)
        ∧ (x.chip.tdm.ready = true → barred → still .notPermitted)
        ∧ (x.chip.tdm.ready = true → ¬ barred →
          Does (.tandemJoin h role lanes) ⟨q, x⟩ (fun y => y.replied h r .ok [tlv 1 1 1] ∧ y.chip.tdmSt = 1
            ∧ y.chip.follower = decide (role = 1) ∧ y.chip.tdm.pendT = x.chip.core
            ∧ y.chip.tdm.hold = decide (x.chip.tdmSt = 4) ∧ x.sameMem y))))
    ∧ (x.inTurn h .tandemSplit →
      (x.chip.tdmSt = 0 → Does (.tandemSplit h) ⟨q, x⟩ (fun y => y.replied h .tandemSplit .ok [tlv 1 1 0] ∧ y.chip.tdm = x.chip.tdm ∧ x.sameMem y))
      ∧ (x.chip.tdmSt ≠ 0 → Does (.tandemSplit h) ⟨q, x⟩ (fun y => y.replied h .tandemSplit .ok [tlv 1 1 0] ∧ y.chip.tdmSt = 0
          ∧ y.chip.rb R.TDM_EVENT 3 = true)))

/-- Register writes and reads by their access checks. A register write is judged by alignment and address, by
locks and by CD fields, in that order; a refused one is answered with its status, leaves the refusal record and
stores nothing. A write that passes stores the RW and OT fields within their ranges and clears the W1C bits
written 1 (shown for the Yard and tributary registers that have no action). A reserved word reads 0 and ignores
writes, both answered OK, and DECODE_ERROR is answered for the default-target ranges only. A read that passes is
answered with the value, and clears the RC bits. A write of GLB_LOCK that clears no bit stores its bits; one
that would clear a set bit is LOCKED. Completes with its own effect, under conditions on the state and the
operands alone: REGISTER_WRITE, RC_REGISTER_READ, GLB_LOCK_WRITE. (12_register_space R294, 12_register_space
R297, 12_register_space R299, 12_register_space R300, 12_register_space R301, 12_register_space R303,
12_register_space R310, 12_register_space R312) -/
def Obligations.RegisterAccesses : Prop :=
  ∀ (q : List Instr) (x : Dev) (sess a : Nat) (w : Word), x.live →
    (∀ st, x.chip.accessCheck sess a true = .error st →
      (st ≠ .targetReset → Does (.registerWrite sess a w) ⟨q, x⟩ (fun y => x.refusedWith y sess a st ∧ x.sameMem y))
      ∧ (st = .targetReset → Does (.registerWrite sess a w) ⟨q, x⟩ (fun y => y.answered st ∧ y.chip.regs = x.chip.regs ∧ x.sameMem y)))
    ∧ (∀ g, x.chip.accessCheck sess a true = .ok g →
      (x.chip.lockedWrite g w = true →
        Does (.registerWrite sess a w) ⟨q, x⟩ (fun y => x.refusedWith y sess a .locked ∧ y.chip.rb R.GLB_EVENT 0 = true
          ∧ y.chip.rd g = x.chip.rd g ∧ x.sameMem y))
      ∧ (x.chip.lockedWrite g w = false → (x.chip.cdRefused g w).1 = true →
        Does (.registerWrite sess a w) ⟨q, x⟩ (fun y => x.refusedWith y sess a .notAppliedEnabled
          ∧ y.chip.rd (x.chip.reach g) = x.chip.rd (x.chip.reach g) ∧ x.sameMem y
          ∧ ∀ f b, (x.chip.cdRefused g w).2 = some (f, b) → y.chip.rb f b = true))
      ∧ (∀ row, x.chip.lockedWrite g w = false → (x.chip.cdRefused g w).1 = false →
          (g.blk = .yrd ∨ (g.blk = .trb ∧ g.off ≠ 0)) → g.row = some row →
        let t := x.chip.reach g
        let m : Word := w32 (row.rw ||| row.ot)
        let v := clampWord g w
        Does (.registerWrite sess a w) ⟨q, x⟩ (fun y => y.answered .ok ∧ x.sameMem y
          ∧ y.chip.rd t = (x.chip.rd t &&& ~~~ m &&& ~~~ (v &&& w32 row.w1c)) ||| (v &&& m)
          ∧ ∀ k : RegId, k.key ≠ t.key → y.chip.rd k = x.chip.rd k))
      ∧ (g.row = none → (g.blk = .eng → x.chip.subBusy g.idx = false) →
        Does (.registerWrite sess a w) ⟨q, x⟩ (fun y => y = x.on (fun d => { d with out := [.answer .ok none] }))))
    ∧ (∀ g, x.chip.accessCheck sess a false = .ok g →
      let g' : RegId := if g.blk = .eng then { g with idx := x.chip.readEngine g.idx } else g
      Does (.rcRegisterRead sess a) ⟨q, x⟩ (fun y => x.sameMem y ∧ y.chip.out = [.answer .ok (some (x.chip.readWord g'))]
        ∧ (g.row = none → x.chip.readWord g' = 0 ∧ y.chip.regs = x.chip.regs)
        ∧ ∀ row, g.row = some row → g.blk ≠ .tdm → ¬ (g.blk = .eng ∧ (g.off = 0x084 ∨ g.off = 0x08C)) →
            y.chip.rd (x.chip.reach g') = x.chip.rd (x.chip.reach g') &&& ~~~ w32 row.rc))
    ∧ (∀ st, x.chip.accessCheck sess a false = .error st → st ≠ .targetReset →
      Does (.rcRegisterRead sess a) ⟨q, x⟩ (fun y => x.refusedWith y sess a st ∧ x.sameMem y))
    ∧ (x.chip.fenced 32 = false → (x.chip.accessCheck sess a false = .error .decodeError ↔ a % 4 = 0
        ∧ ((0xC000 ≤ a ∧ a < 0x10000) ∨ (0x28000 ≤ a ∧ a < 0x30000) ∨ (0x3C000 ≤ a ∧ a < 0x100000)
          ∨ (0x188000 ≤ a ∧ a < 0x200000) ∨ (0x248000 ≤ a ∧ a < 0x300000) ∨ 0x400000 ≤ a)))
    ∧ (x.chip.accessCheck sess R.GLB_LOCK.addr true = .ok R.GLB_LOCK →
      (x.chip.rd R.GLB_LOCK &&& ~~~ w &&& 7 = 0 →
        Does (.glbLockWrite sess w) ⟨q, x⟩ (fun y => y.answered .ok ∧ x.sameMem y
          ∧ y.chip.rd R.GLB_LOCK = (x.chip.rd R.GLB_LOCK &&& ~~~ 7) ||| (w &&& 7)))
      ∧ (x.chip.rd R.GLB_LOCK &&& ~~~ w &&& 7 ≠ 0 →
        Does (.glbLockWrite sess w) ⟨q, x⟩ (fun y => x.refusedWith y sess R.GLB_LOCK.addr .locked ∧ y.chip.rb R.GLB_EVENT 0 = true
          ∧ y.chip.rd R.GLB_LOCK = x.chip.rd R.GLB_LOCK ∧ x.sameMem y)))

/-- Owner-only registers take writes only from the owner session. For each register marked owner only (GLB_LOCK,
GLB_PWR_CTRL, SVC_CFG, LED_UID_CMD, PAV_CKPT_CFG and GTH_CFG): a write from an operator session changes none of
it and is answered NOT_PERMITTED (while the configuration space is not fenced, which would answer TARGET_RESET
before); a read is answered OK with the value whatever the session; and every write from another session that is
answered OK logs OWNER_ACTION with that session and the opcode as the newest entry. SVC_CFG takes the owner's
write. (12_register_space R311) -/
def Obligations.OwnerOnlyRegisters : Prop :=
  ∀ (q : List Instr) (x : Dev) (sess : Nat) (w : Word), x.live →
    (∀ g ∈ [R.GLB_LOCK, R.GLB_PWR_CTRL, R.SVC_CFG, R.LED_UID_CMD, R.PAV_CKPT_CFG, R.GTH_CFG],
      ((∃ s ∈ x.chip.host.sessions, s.num = sess ∧ s.owner = false) →
        Does (.registerWrite sess g.addr w) ⟨q, x⟩ (fun y => y.chip.rd g = x.chip.rd g ∧ x.sameMem y
          ∧ (x.chip.fenced 32 = false → y.answered .notPermitted)))
      ∧ (x.chip.fenced 32 = false →
        Does (.rcRegisterRead sess g.addr) ⟨q, x⟩ (fun y => y.answered .ok (some (x.chip.readWord g))))
      ∧ ((∀ s ∈ x.chip.host.sessions, s.num = sess → s.owner = true) → sess ≠ 0 →
        Does (.registerWrite sess g.addr w) ⟨q, x⟩ (fun y => y.answered .ok →
          ∃ n t, y.chip.log.entries.head? = some ⟨n, 0x2030, t, 0x0A04, 0xFFFF, sess + 2 ^ 16, 0x0011 * 2 ^ 112⟩)))
    ∧ ((∃ s ∈ x.chip.host.sessions, s.num = sess ∧ s.owner = true) → (∀ s ∈ x.chip.host.sessions, s.num = sess → s.owner = true) →
        x.chip.fenced 32 = false →
      Does (.registerWrite sess R.SVC_CFG.addr w) ⟨q, x⟩ (fun y => y.answered .ok ∧ y.chip.rb R.SVC_CFG 0 = bit w 0
        ∧ y.chip.rb R.SVC_CFG 1 = bit w 1 ∧ y.chip.rf R.SVC_CFG 15 8 = max 1 (fld w 15 8)))

/-- A context with enabled children cannot be disabled. A write, through every check that comes before, that
would clear ENABLE of a context with an enabled child leaves ENABLE 1, sets CFG_ERR of the context and is
answered BAD_PARAM; no context changes its state and no byte of memory changes. (05_tributary_mapping R103) -/
def Obligations.ContextsWithChildrenStayEnabled : Prop :=
  ∀ (q : List Instr) (x : Dev) (sess t u : Nat) (w : Word), t < 16384 → u < 16384 → x.live →
    x.allows sess (R.TRB_CFG t) (setFld w 0 0 0) → x.chip.ctxEn t = true →
    u ≠ t → x.chip.ctxEn u = true → x.chip.ctxTop u = false → x.chip.ctxParent u = t →
    Does (.contextDisable sess t w) ⟨q, x⟩ (fun y => y.answered .badParam ∧ y.chip.ctxEn t = true ∧ y.chip.rb (R.TRB_EVENT t) 11 = true
      ∧ y.chip.ctxs = x.chip.ctxs ∧ x.sameMem y)

/-- Engines enabled, disabled and reset, clusters powered down and up. Setting ENABLE of a disabled engine
outside any substitution is answered OK and enables it when the checks of R313 pass, and otherwise with the
status and the flag of the first that fails, ENABLE staying 0. Clearing ENABLE is always performed: the hunter
is in IDLE and queue, scripts and injection are gone. RESET is refused for a spare and for an engine in a
substitution, and otherwise returns the engine's window to its reset values with READY 0 until 10 us and the
self-test of 2 ms have passed; a substitution answers ENABLE and its clearing BUSY. A cluster in use is not
powered down: BUSY, and nothing is powered; otherwise it is off, and a cluster powered up is no longer off and
its engines are reset anew. What is not due changes nothing. Completes with its own effect, under conditions on
the state and the operands alone: ENGINE_ENABLE, ENGINE_DISABLE, ENGINE_RESET, ENGINE_RESET_DONE,
CLUSTER_POWER_DOWN, CLUSTER_POWER_UP. (12_register_space R313, 12_register_space R316, 16_bringup_reset_power
R384, 16_bringup_reset_power R385, 04_overhead R95) -/
def Obligations.EngineLifecycle : Prop :=
  ∀ (q : List Instr) (x : Dev) (sess : Nat), x.live →
    (∀ e w, e < 136 →
      (x.allows sess (R.ENG_CTRL e) (setFld w 1 0 1) → x.chip.engEn e = true → x.chip.subBusy e = false →
        Does (.engineEnable sess e w) ⟨q, x⟩ (fun y => y.answered .ok ∧ y.chip.engEn e = true ∧ x.only y))
      ∧ (x.allows sess (R.ENG_CTRL e) (setFld w 1 0 1) → x.chip.subBusy e = true →
        Does (.engineEnable sess e w) ⟨q, x⟩ (fun y => y.answered .busy ∧ x.only y ∧ x.regsBut y []))
      ∧ (x.allows sess (R.ENG_CTRL e) (setFld w 1 0 0) → x.chip.subBusy e = true →
        Does (.engineDisable sess e w) ⟨q, x⟩ (fun y => y.answered .busy ∧ x.only y ∧ x.regsBut y []))
      ∧ (x.allows sess (R.ENG_CTRL e) (setFld w 1 0 1) → x.chip.engEn e = false → x.chip.subBusy e = false →
        (x.chip.engCheck e = none →
          Does (.engineEnable sess e w) ⟨q, x⟩ (fun y => y.answered .ok ∧ y.chip.engEn e = true ∧ x.sameMem y))
        ∧ (∀ st f, x.chip.engCheck e = some (st, f) →
          Does (.engineEnable sess e w) ⟨q, x⟩ (fun y => y.answered st ∧ y.chip.engEn e = false ∧ x.only y ∧ ∀ r b, f = some (r, b) → y.chip.rb r b = true))
        ∧ (x.chip.engReady e = true → x.chip.gangOk e = true → x.chip.huntCfgOk e = true → x.chip.rf (R.OHP_CFG e) 23 20 = 0 →
          Does (.engineEnable sess e w) ⟨q, x⟩ (fun y => y.answered .badParam ∧ y.chip.engEn e = false
            ∧ y.chip.rb (R.OHP_EVENT e) 9 = true)))
      ∧ (x.allows sess (R.ENG_CTRL e) (setFld w 1 0 0) → x.chip.subBusy e = false →
        (x.chip.engEn e = true →
          Does (.engineDisable sess e w) ⟨q, x⟩ (fun y => y.answered .ok ∧ y.chip.engEn e = false
            ∧ (y.chip.hunter e).streams = [] ∧ (y.chip.hunter e).cands = []
            ∧ (x.chip.ganged e = false → y.chip.hunter e = Hunter.init)
            ∧ (y.chip.pat e).queue = [] ∧ (y.chip.pat e).runs = [] ∧ (y.chip.pat e).inj = none))
        ∧ (x.chip.engEn e = false →
          Does (.engineDisable sess e w) ⟨q, x⟩ (fun y => y.answered .ok ∧ y.chip.engEn e = false ∧ x.only y)))
      ∧ (x.allows sess (R.ENG_CTRL e) (setFld w 1 1 1) →
        (x.chip.svc.spares.contains e = true →
          Does (.engineReset sess e w) ⟨q, x⟩ (fun y => y.answered .notPermitted ∧ x.only y ∧ x.regsBut y []))
        ∧ (x.chip.svc.spares.contains e = false → x.chip.svc.retired.contains e = false →
          (x.chip.subBusy e = true →
            Does (.engineReset sess e w) ⟨q, x⟩ (fun y => y.answered .busy ∧ x.only y ∧ x.regsBut y []))
          ∧ (x.chip.subBusy e = false →
            Does (.engineReset sess e w) ⟨q, x⟩ (fun y => y.answered .ok ∧ y.chip.hunter e = Hunter.init ∧ y.chip.pat e = Pat.init
              ∧ e ∉ y.chip.engRdy ∧ (∀ o, o < 0x400 → y.chip.rd ⟨.eng, e, o⟩ = (⟨.eng, e, o⟩ : RegId).resetWord)
              ∧ SMap.get (0, 0) y.chip.pwr.engT e = (x.chip.core + 10000, x.chip.core + 2010000)))))
      ∧ (∀ t, SMap.get (0, 0) x.chip.pwr.engT e = t →
        (t.2 ≠ 0 → t.2 ≤ x.chip.core → x.chip.svc.retired.contains e = false →
          Does (.engineResetDone e) ⟨q, x⟩ (fun y => e ∈ y.chip.engRdy ∧ SMap.get (0, 0) y.chip.pwr.engT e = (0, 0)
            ∧ (∀ k, k ≠ e → (k ∈ y.chip.engRdy ↔ k ∈ x.chip.engRdy))
            ∧ x.only y (fun c => { c with engRdy := y.chip.engRdy, pwr := y.chip.pwr }) ∧ x.regsBut y []))
        ∧ ((t.2 = 0 ∨ x.chip.core < t.2 ∨ x.chip.svc.retired.contains e = true) → Does (.engineResetDone e) ⟨q, x⟩ x.idle)))
    ∧ (∀ c, c < 17 →
      let sets := fun (k : Nat) => k < 17 ∧ (k = c ∨ x.chip.rb R.GLB_PWR_CTRL k = true) ∧ k ∉ x.chip.pwr.off
      let others := fun (k : Nat) => k < 17 ∧ k ≠ c ∧ x.chip.rb R.GLB_PWR_CTRL k = true ∧ k ∉ x.chip.pwr.off
      (x.allows sess R.GLB_PWR_CTRL (setFld (x.chip.rd R.GLB_PWR_CTRL) c c 1) →
        ((∃ k, sets k ∧ x.chip.clusterUsed k = true) →
          Does (.clusterPowerDown sess c) ⟨q, x⟩ (fun y => y.answered .busy ∧ x.only y ∧ x.regsBut y []))
        ∧ ((∀ k, sets k → x.chip.clusterUsed k = false) →
          Does (.clusterPowerDown sess c) ⟨q, x⟩ (fun y => y.answered .ok ∧ c ∈ y.chip.pwr.off ∧ y.chip.rb R.GLB_PWR_CTRL c = true
            ∧ (c ∉ x.chip.pwr.off → ∀ k < 8, x.chip.svc.retired.contains (8 * c + k) = false → (8 * c + k) ∉ y.chip.engRdy))))
      ∧ (x.allows sess R.GLB_PWR_CTRL (setFld (x.chip.rd R.GLB_PWR_CTRL) c c 0) →
        ((∃ k, others k ∧ x.chip.clusterUsed k = true) →
          Does (.clusterPowerUp sess c) ⟨q, x⟩ (fun y => y.answered .busy ∧ x.only y ∧ x.regsBut y []))
        ∧ ((∀ k, others k → x.chip.clusterUsed k = false) →
          Does (.clusterPowerUp sess c) ⟨q, x⟩ (fun y => y.answered .ok ∧ c ∉ y.chip.pwr.off ∧ y.chip.rb R.GLB_PWR_CTRL c = false
            ∧ ((∀ k, ¬ others k) → x.sameMem y)
            ∧ (c ∈ x.chip.pwr.off → ∀ k < 8, x.chip.svc.retired.contains (8 * c + k) = false →
              SMap.get (0, 0) y.chip.pwr.engT (8 * c + k) = (x.chip.core + 5000000, x.chip.core + 7000000))))))

/-- Heartbeats, declared failures, takeovers, checkpoints and the replaced processor. A missed heartbeat or a
fatal error of the running processor is declared as a failure with its cause: the failover begins, the processor
is isolated, and without a standby that is ready the device is in autonomous hold. A takeover within 50,000
Gatehouse cycles by a good standby makes it the active processor, with STATE_LOSS and no session when neither
checkpoint can be read; one that fails, by a fault, a fatal error of the new processor or its time, ends in
autonomous hold with the standby retired after a declared failure, and after a deliberate failover goes back to
the old processor, which answers NO_SPARE. A due checkpoint seals the older slot with the command state and
leaves the other slot, or leaves the older one unsealed when it fails. The replaced processor leaves reset after
40 us, and becomes the standby when its self-test passes and its slot, with the active image if its version
differs, verifies; otherwise it is retired. What is not due changes nothing. Completes with its own effect,
under conditions on the state and the operands alone: HEARTBEAT, HEARTBEAT_MISS, FATAL_ERROR, TAKEOVER_RESUME,
TAKEOVER_FAIL, CHECKPOINT_WRITE, REPLACED_RESET_END, SELF_TEST_DONE. (13_pavilion_and_gatehouse R320,
13_pavilion_and_gatehouse R321, 13_pavilion_and_gatehouse R322, 13_pavilion_and_gatehouse R323,
13_pavilion_and_gatehouse R328, 13_pavilion_and_gatehouse R329, 13_pavilion_and_gatehouse R331,
13_pavilion_and_gatehouse R332) -/
def Obligations.FailoverSupervision : Prop :=
  ∀ (q : List Instr) (x : Dev), x.live →
    let same := x.idle
    let declared := fun (cause : Nat) (y : Dev) => y.chip.gth.cause = cause ∧ y.chip.gth.cnt = (x.chip.gth.cnt + 1) % 2 ^ 32
      ∧ y.chip.gth.declT = x.chip.core ∧ y.chip.pav.dead = true
      ∧ ((∀ t ∈ x.chip.yard.txns, t.master = 17 + x.chip.pav.active → t.target ≠ 32) → y.chip.rb R.GTH_EVENT 0 = true)
      ∧ SMap.get none y.chip.yard.fences (mKey (17 + x.chip.pav.active)) ≠ none
      ∧ (x.chip.pav.stby = .ready → y.chip.gth.st = .failover)
      ∧ (x.chip.pav.stby ≠ .ready → y.chip.gth.st = .hold ∧ y.chip.gth.lost = true ∧ y.chip.rb R.GTH_EVENT 1 = true)
    (x.chip.pavRuns = true → Does .heartbeat ⟨q, x⟩ (fun y => y = x.on (fun d => { d with out := [], gth := { d.gth with beat := d.core } })))
    ∧ (x.chip.pavRuns = false → Does .heartbeat ⟨q, x⟩ same)
    ∧ (x.chip.gth.st = .running → x.chip.pav.booted = true →
      (x.chip.gth.beat + x.chip.rf R.GTH_CFG 3 0 * 100000 ≤ x.chip.core → Does .heartbeatMiss ⟨q, x⟩ (declared 1))
      ∧ (x.chip.core < x.chip.gth.beat + x.chip.rf R.GTH_CFG 3 0 * 100000 → Does .heartbeatMiss ⟨q, x⟩ same)
      ∧ Does .fatalError ⟨q, x⟩ (declared 2))
    ∧ ((x.chip.gth.st ≠ .running ∨ x.chip.pav.booted = false) → Does .heartbeatMiss ⟨q, x⟩ same
      ∧ (x.chip.gth.st ≠ .failover → Does .fatalError ⟨q, x⟩ same))
    ∧ (x.chip.gth.st = .failover →
      let fails := fun (i : Instr) =>
        (x.chip.gth.asked = none →
          Does i ⟨q, x⟩ (fun y => y.chip.gth.st = .hold ∧ y.chip.gth.lost = true ∧ y.chip.rb R.GTH_EVENT 1 = true
            ∧ (1 - x.chip.pav.active) ∈ y.chip.pav.retired ∧ y.chip.host.streams = [] ∧ x.sameMem y))
        ∧ (∀ h fw, x.chip.gth.asked = some (h, fw) →
          Does i ⟨q, x⟩ (fun y => y.replied h (if fw then .fwActivate else .failoverRequest) .noSpare []
            ∧ (1 - x.chip.pav.active) ∈ y.chip.pav.retired ∧ y.chip.pav.active = x.chip.pav.active
            ∧ (x.chip.gth.held = [] → y.chip.gth.st = .running ∧ y.chip.rb R.GTH_EVENT 2 = true)))
      fails .fatalError
      ∧ (∀ fault, (fault = true ∨ x.chip.gth.declT + 2000000 ≤ x.chip.core) → fails (.takeoverFail fault))
      ∧ (x.chip.core < x.chip.gth.declT + 2000000 → Does (.takeoverFail false) ⟨q, x⟩ same)
      ∧ (∀ t, x.chip.standbyOk = true → x.chip.core ≤ x.chip.gth.declT + 2000000 →
        Does (.takeoverResume t) ⟨q, x⟩ (fun y => y.chip.pav.active = 1 - x.chip.pav.active
          ∧ (x.chip.gth.held = [] → y.chip.gth.st = .running ∧ y.chip.pav.dead = false ∧ y.chip.rb R.PAV_EVENT 0 = true
            ∧ y.chip.gth.asked = none ∧ y.chip.gth.test = some (x.chip.pav.active, x.chip.core, x.chip.gth.asked.isSome)
            ∧ SMap.get none y.chip.yard.fences (mKey (17 + (1 - x.chip.pav.active))) = none
            ∧ ((∀ k < 2, x.chip.slotValid t k = false) → y.chip.pav.loss = true ∧ y.chip.rb R.PAV_EVENT 1 = true
                ∧ y.chip.host.sessions = []))))
      ∧ (∀ t, (x.chip.standbyOk = false ∨ x.chip.gth.declT + 2000000 < x.chip.core) → Does (.takeoverResume t) ⟨q, x⟩ same))
    ∧ (x.chip.gth.st ≠ .failover → (∀ fault, Does (.takeoverFail fault) ⟨q, x⟩ same) ∧ ∀ t, Does (.takeoverResume t) ⟨q, x⟩ same)
    ∧ (let due := x.chip.rf R.PAV_CKPT_CFG 8 0 ≤ x.chip.pav.since
        ∨ (0 < x.chip.pav.since ∧ x.chip.pav.sealT + x.chip.rf R.PAV_CKPT_CFG 23 16 * 1000000 ≤ x.chip.core)
      let old := x.chip.olderSlot
      (x.chip.pavRuns = true → x.chip.pav.ckpts.length = 2 → due →
        Does (.checkpointWrite false) ⟨q, x⟩ (fun y => y.chip.pav.since = 0
          ∧ y.chip.ckpt old = ⟨((x.chip.ckpt (1 - old)).seq + 1) % 2 ^ 32, x.chip.pav.head, true, some x.chip.cmdState⟩
          ∧ y.chip.ckpt (1 - old) = x.chip.ckpt (1 - old) ∧ x.only y (fun c => { c with pav := y.chip.pav }) ∧ x.regsBut y [])
        ∧ Does (.checkpointWrite true) ⟨q, x⟩ (fun y => y.chip.ckpt old = { x.chip.ckpt old with sealed := false }
          ∧ y.chip.rb R.PAV_EVENT 2 = true ∧ y.chip.ckpt (1 - old) = x.chip.ckpt (1 - old)
          ∧ x.only y (fun c => { c with pav := y.chip.pav }) ∧ x.regsBut y [R.PAV_EVENT, R.PAV_CKPT_FAIL_CNT]))
      ∧ ((x.chip.pavRuns = false ∨ ¬ due) → ∀ fail, Does (.checkpointWrite fail) ⟨q, x⟩ same))
    ∧ (∀ p t, x.chip.gth.test = some (p, t, false) → t + 40000 ≤ x.chip.core →
      Does .replacedResetEnd ⟨q, x⟩ (fun y => y.chip.gth.test = some (p, x.chip.core, true) ∧ y.chip.pav.stby = .preparing
        ∧ x.only y (fun c => { c with gth := y.chip.gth, pav := y.chip.pav }) ∧ x.regsBut y []))
    ∧ ((∀ p t, x.chip.gth.test = some (p, t, false) → x.chip.core < t + 40000) → Does .replacedResetEnd ⟨q, x⟩ same)
    ∧ (∀ p t, x.chip.gth.test = some (p, t, true) →
      let image := if x.chip.standbyImage.version = x.chip.activeImage.version then x.chip.standbyImage else x.chip.activeImage
      let retires := fun (pass : Bool) => Does (.selfTestDone pass) ⟨q, x⟩ (fun y => y.chip.gth.test = none ∧ y.chip.pav.stby = .none
        ∧ p ∈ y.chip.pav.retired ∧ x.sameMem y)
      (x.chip.imageOk image = true →
        Does (.selfTestDone true) ⟨q, x⟩ (fun y => y.chip.gth.test = none ∧ y.chip.pav.stby = .ready ∧ y.chip.pav.retired = x.chip.pav.retired
          ∧ y.chip.standbyImage = image ∧ x.only y (fun c => { c with gth := y.chip.gth, pav := y.chip.pav, sec := y.chip.sec })
          ∧ x.regsBut y []))
      ∧ (x.chip.imageOk image = false → retires true) ∧ retires false)
    ∧ ((∀ p t, x.chip.gth.test ≠ some (p, t, true)) → ∀ pass, Does (.selfTestDone pass) ⟨q, x⟩ same)

/-- Tandem lanes, join, split hold, forwarded replies and the bridge registers. A locked tandem lane comes up
once, 1 ms after it went down at the earliest, and goes down at LOS or 16 failed link frames, which are counted
always; JOINED follows eight lanes up and DEGRADED fewer, each change with its flag. A handshake with the
opposite role and the same firmware joins a pending unit, one with another is only recorded, and 10 s of PENDING
end ALONE. Fewer than MIN_LANES for SPLIT_DELAY enters split hold with its count and time, and answers a
forwarded request that waits with TANDEM_SPLIT if it is idempotent and INDETERMINATE if not. The follower's
reply to a forwarded request goes out at its place. TDM_CFG is written only in ALONE, TDM_XMEMBER only while the
groups that it names are disabled. What is not due changes nothing. Completes with its own effect, under
conditions on the state and the operands alone: TANDEM_LANE_UP, TANDEM_LANE_DOWN, TANDEM_HANDSHAKE,
JOIN_TIMEOUT, SPLIT_HOLD_ENTER, FORWARDED_REPLY, TDM_CFG_WRITE, TDM_XMEMBER_WRITE. (14_tandem_mode R337,
14_tandem_mode R340, 14_tandem_mode R343, 14_tandem_mode R348, 14_tandem_mode R350, 14_tandem_mode R354) -/
def Obligations.TandemBridge : Prop :=
  ∀ (q : List Instr) (x : Dev), x.live →
    let same := x.idle
    (∀ n, n < 8 →
      let was := x.chip.tdm.up
      let moved := fun (y : Dev) => x.only y (fun c => { c with tdm := y.chip.tdm })
      let able := x.chip.tdm.ready = true ∧ (x.chip.lane (132 + n)).lock = true ∧ (x.chip.lane (132 + n)).los = false ∧ n ∉ was
        ∧ ∀ t, SMap.get none x.chip.tdm.downT n = some t → t + 1000000 ≤ x.chip.core
      (able →
        Does (.tandemLaneUp n) ⟨q, x⟩ (fun y => y.chip.tdm.up = n :: was ∧ moved y ∧ x.regsBut y [R.TDM_STATUS, R.TDM_EVENT]
          ∧ (x.chip.tdmSt = 3 → was.length = 7 → y.chip.tdmSt = 2 ∧ y.chip.rb R.TDM_EVENT 1 = true)
          ∧ (x.chip.tdmSt = 4 → was.length < x.chip.minLanes → x.chip.minLanes ≤ was.length + 1 → y.chip.rb R.TDM_EVENT 4 = true)
          ∧ ((x.chip.tdmSt ≠ 3 ∨ was.length ≠ 7) → x.chip.tdmSt ≠ 2 → y.chip.tdmSt = x.chip.tdmSt)))
      ∧ (¬ able → Does (.tandemLaneUp n) ⟨q, x⟩ same)
      ∧ (∀ fails,
        let counted := fun (y : Dev) =>
          (y.chip.rd R.TDM_LINK_ERR_CNT).toNat = min ((x.chip.rd R.TDM_LINK_ERR_CNT).toNat + fails) 0xFFFFFFFF
        let down := n ∈ was ∧ ((x.chip.lane (132 + n)).los = true ∨ 16 ≤ fails)
        (down →
          Does (.tandemLaneDown n fails) ⟨q, x⟩ (fun y => y.chip.tdm.up = was.filter (fun k => k ≠ n) ∧ counted y ∧ moved y
            ∧ SMap.get none y.chip.tdm.downT n = some x.chip.core ∧ x.regsBut y [R.TDM_STATUS, R.TDM_EVENT, R.TDM_LINK_ERR_CNT]
            ∧ (x.chip.tdmSt = 2 → was.length ≤ 8 → y.chip.tdmSt = 3 ∧ y.chip.rb R.TDM_EVENT 1 = true)))
        ∧ (¬ down →
          Does (.tandemLaneDown n fails) ⟨q, x⟩ (fun y => counted y ∧ x.only y ∧ x.regsBut y [R.TDM_LINK_ERR_CNT]))))
    ∧ (∀ unit fw role lanes,
      (x.chip.tdmSt ≠ 1 → Does (.tandemHandshake unit fw role lanes) ⟨q, x⟩ same)
      ∧ (x.chip.tdmSt = 1 → (role = x.chip.follower ∨ fw ≠ x.chip.activeImage.version) →
        Does (.tandemHandshake unit fw role lanes) ⟨q, x⟩ (fun y => y.chip.rd R.TDM_PEER = w32 (unit % 4096 + 4096)
          ∧ x.only y ∧ x.regsBut y [R.TDM_PEER]))
      ∧ (x.chip.tdmSt = 1 → role ≠ x.chip.follower → fw = x.chip.activeImage.version →
        Does (.tandemHandshake unit fw role lanes) ⟨q, x⟩ (fun y => y.chip.tdmSt = (if x.chip.tdm.up.length = 8 then 2 else 3)
          ∧ y.chip.tdm.minEff = (if x.chip.follower then lanes else x.chip.rf R.TDM_CFG 3 0)
          ∧ y.chip.rb R.TDM_EVENT 0 = true ∧ y.chip.rd R.TDM_PEER = w32 (unit % 4096 + 4096) ∧ x.sameMem y)))
    ∧ (x.chip.tdmSt = 1 → x.chip.tdm.pendT + 10000000000 ≤ x.chip.core →
      Does .joinTimeout ⟨q, x⟩ (fun y => y.chip.tdmSt = 0 ∧ y.chip.tdm.hold = false ∧ y.chip.rb R.TDM_EVENT 5 = true))
    ∧ ((x.chip.tdmSt ≠ 1 ∨ x.chip.core < x.chip.tdm.pendT + 10000000000) → Does .joinTimeout ⟨q, x⟩ same)
    ∧ (∀ t, x.chip.tdm.shortT = some t → (x.chip.tdmSt = 2 ∨ x.chip.tdmSt = 3) →
      (t + x.chip.rf R.TDM_CFG 15 8 * 1000 ≤ x.chip.core →
        ((∀ z ∈ x.chip.host.sessions, z.wait = none) →
          Does .splitHoldEnter ⟨q, x⟩ (fun y => y.chip.tdmSt = 4 ∧ y.chip.rb R.TDM_EVENT 2 = true ∧ y.chip.tdm.holdT = x.chip.core
            ∧ y.chip.pair R.TDM_SPLIT_TIME_LO R.TDM_SPLIT_TIME_HI = x.chip.dt % 2 ^ 64 ∧ x.sameMem y
            ∧ (y.chip.rd R.TDM_SPLIT_CNT).toNat = min ((x.chip.rd R.TDM_SPLIT_CNT).toNat + 1) 0xFFFFFFFF))
        ∧ (∀ z ∈ x.chip.host.sessions, ∀ h idem, x.chip.pavRuns = true → (∀ u ∈ x.chip.host.sessions, u.held = []) → z.wait = some (h, idem) →
          Does .splitHoldEnter ⟨q, x⟩ (fun y => y.replied h (x.chip.waitReq h) (if idem then .tandemSplit else .indeterminate) []))))
    ∧ ((x.chip.tdm.shortT = none ∨ (x.chip.tdmSt ≠ 2 ∧ x.chip.tdmSt ≠ 3)
        ∨ ∃ t, x.chip.tdm.shortT = some t ∧ x.chip.core < t + x.chip.rf R.TDM_CFG 15 8 * 1000) → Does .splitHoldEnter ⟨q, x⟩ same)
    ∧ (∀ n z h idem r, x.chip.pavRuns = true → x.chip.session n = some z → z.wait = some (h, idem) → h.session = n →
      Does (.forwardedReply n r) ⟨q, x⟩ (fun y => y.replied h (x.chip.waitReq h) (statusOf r.status) r.params
        ∧ (z.held = [] → x.sameMem y ∧ (h.seq < 0xFFFFFFFF → x.chip.waitReq h ≠ .sessionClose →
            ∃ u, y.chip.session n = some u ∧ u.next = h.seq + 1 ∧ u.wait = none))))
    ∧ (∀ n r, (x.chip.pavRuns = false ∨ x.chip.session n = none ∨ ∃ z, x.chip.session n = some z ∧ z.wait = none) →
        Does (.forwardedReply n r) ⟨q, x⟩ same)
    ∧ (∀ sess w, x.allows sess R.TDM_CFG w →
      (x.chip.tdmSt = 0 → Does (.tdmCfgWrite sess w) ⟨q, x⟩ (fun y => y.answered .ok ∧ y.chip.rf R.TDM_CFG 3 0 = max 1 (min 8 (fld w 3 0))
        ∧ y.chip.rf R.TDM_CFG 15 8 = max 1 (fld w 15 8) ∧ x.only y ∧ x.regsBut y [R.TDM_CFG]))
      ∧ (x.chip.tdmSt ≠ 0 → Does (.tdmCfgWrite sess w) ⟨q, x⟩ (fun y => y.answered .notPermitted
        ∧ x.only y ∧ x.regsBut y [])))
    ∧ (∀ sess w, x.chip.accessCheck sess R.TDM_XMEMBER.addr true = .ok R.TDM_XMEMBER →
      let k := x.chip.rf R.TDM_XMEM_IDX 5 0
      let m : Word := 0x3FFFFF
      (x.chip.xmemberOk k w = true → Does (.tdmXmemberWrite sess w) ⟨q, x⟩ (fun y => y.answered .ok ∧ x.only y
        ∧ x.regsBut y [R.xmem_TDM_XMEMBER k] ∧ y.chip.rd (R.xmem_TDM_XMEMBER k) &&& m = w &&& m))
      ∧ (x.chip.xmemberOk k w = false → Does (.tdmXmemberWrite sess w) ⟨q, x⟩ (fun y =>
        x.refusedWith y sess R.TDM_XMEMBER.addr .notAppliedEnabled
          ∧ y.chip.rd (R.xmem_TDM_XMEMBER k) = x.chip.rd (R.xmem_TDM_XMEMBER k) ∧ x.sameMem y)))

/-- Unit ID burns, ledger burns, understudy checks, votes and engine substitutions. A unit ID burn changes the
fused ID and uses one of those left, or is refused in the order of R366. A ledger burn of 1 ms fuses the
reserved slot with its bytes. With checks enabled a free spare takes up the eligible engine checked least
recently; a check passes after 10 s, is skipped after 20 s, and a difference brings a second spare, if need be
one taken from another check, or ends UNCONFIRMED. A vote ends the check with its verdict: a faulty spare is
retired, a faulty engine is substituted when AUTO_SUB is 1 and it is in no gang, and without a free slot neither
happens and LEDGER_FULL is set. At the cutover OLD is retired and NEW is no spare any more, at the cutover point
or after SUB_TMO with SUB_TIMEOUT. What is not due changes nothing. Completes with its own effect, under
conditions on the state and the operands alone: UID_BURN, LEDGER_BURN_DONE, UNDERSTUDY_START, UNDERSTUDY_PASS,
UNDERSTUDY_SKIP, UNDERSTUDY_MISMATCH, VOTE_END, CUTOVER, SUB_TIMEOUT. (15_security_and_ledger R366,
15_security_and_ledger R372, 16_bringup_reset_power R388, 16_bringup_reset_power R389, 16_bringup_reset_power
R390, 16_bringup_reset_power R391, 16_bringup_reset_power R392) -/
def Obligations.RepairAndUnderstudy : Prop :=
  ∀ (q : List Instr) (x : Dev), x.live →
    let same := x.idle
    (∀ sess newId, newId < 4096 → x.allows sess R.LED_UID_CMD (w32 (newId % 2 ^ 12 + 2 ^ 31)) →
      (newId = 0xFFF → Does (.uidBurn sess newId) ⟨q, x⟩ (fun y => y.answered .badParam ∧ y.chip.sec = x.chip.sec ∧ x.sameMem y))
      ∧ (newId ≠ 0xFFF → (x.chip.tdmSt ≠ 0 ∨ x.chip.sec.fuse.uidLeft = 0) →
        Does (.uidBurn sess newId) ⟨q, x⟩ (fun y => y.answered .notPermitted ∧ y.chip.sec = x.chip.sec ∧ x.sameMem y))
      ∧ (newId ≠ 0xFFF → x.chip.tdmSt = 0 → x.chip.sec.fuse.uidLeft ≠ 0 →
        (newId = x.chip.sec.fuse.unitId → Does (.uidBurn sess newId) ⟨q, x⟩ (fun y => y.answered .ok ∧ y.chip.sec = x.chip.sec ∧ x.sameMem y))
        ∧ (newId ≠ x.chip.sec.fuse.unitId →
          Does (.uidBurn sess newId) ⟨q, x⟩ (fun y => y.answered .ok ∧ y.chip.unitId = newId
            ∧ y.chip.sec.fuse.uidLeft + 1 = x.chip.sec.fuse.uidLeft ∧ y.chip.rb R.LED_EVENT 3 = true
            ∧ y.chip.host.sessions = x.chip.host.sessions ∧ x.sameMem y))))
    ∧ (∀ t r, x.chip.ledger.burn = some t → x.chip.ledger.resv.find? (fun r => r.ready) = some r →
      (t + 1000000 ≤ x.chip.core →
        Does .ledgerBurnDone ⟨q, x⟩ (fun y => y.chip.lslot r.slot = ⟨r.bytes x.chip.unitId, false⟩ ∧ y.chip.rb R.LED_EVENT 0 = true
          ∧ (r.kind = 1 → r.new ≠ 0xFFFF → y.chip.rb R.SVC_EVENT 7 = true)
          ∧ (∀ z ∈ y.chip.ledger.resv, z.slot ≠ r.slot) ∧ (∀ k, k ≠ r.slot → y.chip.lslot k = x.chip.lslot k)
          ∧ x.only y (fun c => { c with ledger := y.chip.ledger, svc := y.chip.svc }) ∧ x.regsBut y [R.LED_EVENT, R.SVC_EVENT]))
      ∧ (x.chip.core < t + 1000000 → Does .ledgerBurnDone ⟨q, x⟩ (fun y => x.only y (fun c => { c with svc := y.chip.svc }) ∧ x.regsBut y [])))
    ∧ ((x.chip.ledger.burn = none ∨ ∀ r ∈ x.chip.ledger.resv, r.ready = false) →
      Does .ledgerBurnDone ⟨q, x⟩ (fun y => x.only y (fun c => { c with svc := y.chip.svc }) ∧ x.regsBut y []))
    ∧ (∀ k, k < 136 →
      let ends := fun (i : Instr) (P : Dev → Prop) => Does i ⟨q, x⟩ (fun y => y.chip.checkOf k = none ∧ P y
        ∧ x.only y (fun c => { c with svc := y.chip.svc }))
      let full := fun (v : Vote) => Does (.voteEnd k v) ⟨q, x⟩ (fun y => y.chip.checkOf k = none ∧ y.chip.rb R.LED_EVENT 1 = true
        ∧ y.chip.svc.retired = x.chip.svc.retired ∧ y.chip.svc.spares = x.chip.svc.spares ∧ y.chip.svc.subs = x.chip.svc.subs ∧ x.sameMem y)
      let may := x.chip.svc.ready = true ∧ x.chip.rb R.SVC_CFG 0 = true ∧ x.chip.pwr.crit = false ∧ x.chip.spareFree k = true
      (∀ e, may → x.chip.svc.order.find? x.chip.eligible = some e →
        Does (.understudyStart k) ⟨q, x⟩ (fun y => y.chip.svc = { x.chip.svc with checks := x.chip.svc.checks ++ [⟨k, e, x.chip.core, none, 0⟩] }
          ∧ x.only y (fun c => { c with svc := y.chip.svc })))
      ∧ ((¬ may ∨ x.chip.svc.order.find? x.chip.eligible = none) → Does (.understudyStart k) ⟨q, x⟩ same)
      ∧ (∀ c, x.chip.checkOf k = some c → c.second = none →
        (c.start + 10000000000 ≤ x.chip.core →
          ends (.understudyPass k) (fun y => y.chip.rb R.SVC_EVENT 0 = true
            ∧ (y.chip.rd R.SVC_UND_PASS_CNT).toNat = min ((x.chip.rd R.SVC_UND_PASS_CNT).toNat + 1) 0xFFFFFFFF
            ∧ x.regsBut y [R.SVC_EVENT, R.SVC_UND_LAST, R.SVC_UND_PASS_CNT]))
        ∧ (x.chip.core < c.start + 10000000000 → Does (.understudyPass k) ⟨q, x⟩ same)
        ∧ (c.start + 20000000000 ≤ x.chip.core →
          ends (.understudySkip k) (fun y => y.chip.rb R.SVC_EVENT 2 = true
            ∧ (y.chip.rd R.SVC_UND_SKIP_CNT).toNat = min ((x.chip.rd R.SVC_UND_SKIP_CNT).toNat + 1) 0xFFFFFFFF
            ∧ x.regsBut y [R.SVC_EVENT, R.SVC_UND_LAST, R.SVC_UND_SKIP_CNT]))
        ∧ (x.chip.core < c.start + 20000000000 → Does (.understudySkip k) ⟨q, x⟩ same)
        ∧ (∀ s, x.chip.svc.spares.find? x.chip.spareFree = some s →
          Does (.understudyMismatch k) ⟨q, x⟩ (fun y => y.chip.checkOf k = some { c with second := some s, vote := x.chip.core }
            ∧ y.chip.rb R.SVC_EVENT 1 = true ∧ x.only y (fun c => { c with svc := y.chip.svc })))
        ∧ (x.chip.svc.spares.find? x.chip.spareFree = none →
          let taken := x.chip.svc.spares.find? (fun z => x.chip.spareOk z
            && x.chip.svc.checks.any (fun y => y.spare = z && y.second.isNone && decide (z ≠ k)))
          (∀ s, taken = some s →
            Does (.understudyMismatch k) ⟨q, x⟩ (fun y => y.chip.checkOf k = some { c with second := some s, vote := x.chip.core }
              ∧ y.chip.checkOf s = none ∧ y.chip.rb R.SVC_EVENT 1 = true ∧ x.only y (fun c => { c with svc := y.chip.svc })))
          ∧ (taken = none → ends (.understudyMismatch k) (fun y => y.chip.rb R.SVC_EVENT 1 = true ∧ y.chip.rb R.SVC_EVENT 5 = true))))
      ∧ (∀ c s2, x.chip.checkOf k = some c → c.second = some s2 →
        ends (.voteEnd k .none) (fun y => y.chip.svc.order.head? = some c.engine ∧ y.chip.rb R.SVC_EVENT 5 = true)
        ∧ (x.chip.freeSlot = none → full .first ∧ full .second)
        ∧ (x.chip.freeSlot ≠ none →
          Does (.voteEnd k .first) ⟨q, x⟩ (fun y => k ∈ y.chip.svc.retired ∧ k ∉ y.chip.svc.spares ∧ y.chip.rb R.SVC_EVENT 4 = true ∧ x.sameMem y)
          ∧ Does (.voteEnd k .second) ⟨q, x⟩ (fun y => s2 ∈ y.chip.svc.retired ∧ s2 ∉ y.chip.svc.spares ∧ y.chip.rb R.SVC_EVENT 4 = true ∧ x.sameMem y))
        ∧ (x.chip.rb R.SVC_CFG 1 = true → x.chip.ganged c.engine = false →
          (x.chip.freeSlot = none → full .engine)
          ∧ (x.chip.freeSlot ≠ none →
            Does (.voteEnd k .engine) ⟨q, x⟩ (fun y => y.chip.subBusy c.engine = true ∧ y.chip.subBusy k = true
              ∧ y.chip.rb R.SVC_EVENT 3 = true ∧ y.chip.rb R.SVC_EVENT 6 = true ∧ x.sameMem y)))
        ∧ ((x.chip.rb R.SVC_CFG 1 = false ∨ x.chip.ganged c.engine = true) →
          ends (.voteEnd k .engine) (fun y => y.chip.svc.subs = x.chip.svc.subs ∧ y.chip.rb R.SVC_EVENT 3 = true
            ∧ (x.chip.rb R.SVC_CFG 1 = true → y.chip.rb R.SVC_EVENT 9 = true))))
      ∧ ((∀ c, x.chip.checkOf k = some c → c.second ≠ none) →
          Does (.understudyPass k) ⟨q, x⟩ same ∧ Does (.understudySkip k) ⟨q, x⟩ same ∧ Does (.understudyMismatch k) ⟨q, x⟩ same)
      ∧ ((∀ c, x.chip.checkOf k = some c → c.second = none) → ∀ v, Does (.voteEnd k v) ⟨q, x⟩ same))
    ∧ (∀ old s, old < 136 → x.chip.svc.subs.find? (fun s => s.old = old && s.cut.isNone) = some s →
      Does (.cutover old) ⟨q, x⟩ (fun y => old ∈ y.chip.svc.retired ∧ s.new ∉ y.chip.svc.spares ∧ old ∉ y.chip.engRdy
        ∧ ∀ z ∈ y.chip.svc.subs, z.slot = s.slot → z.cut = some false)
      ∧ (∀ lost, s.start + x.chip.rf R.SVC_CFG 15 8 * 1000000 ≤ x.chip.core →
        Does (.subTimeout old lost) ⟨q, x⟩ (fun y => old ∈ y.chip.svc.retired ∧ s.new ∉ y.chip.svc.spares ∧ old ∉ y.chip.engRdy
          ∧ y.chip.rb R.SVC_EVENT 10 = true ∧ ∀ z ∈ y.chip.svc.subs, z.slot = s.slot → z.cut = some true))
      ∧ (∀ lost, x.chip.core < s.start + x.chip.rf R.SVC_CFG 15 8 * 1000000 →
        Does (.subTimeout old lost) ⟨q, x⟩ (fun y => y.chip.svc = x.chip.svc ∧ y.chip.engRdy = x.chip.engRdy)))
    ∧ (∀ old, old < 136 → x.chip.svc.subs.find? (fun s => s.old = old && s.cut.isNone) = none →
      Does (.cutover old) ⟨q, x⟩ (fun y => y.chip.svc = x.chip.svc ∧ y.chip.engRdy = x.chip.engRdy)
      ∧ ∀ lost, Does (.subTimeout old lost) ⟨q, x⟩ (fun y => y.chip.svc = x.chip.svc ∧ y.chip.engRdy = x.chip.engRdy))

/-- Commands that store nothing leave every byte of memory. For every command that stores no byte of memory (the
commands of the lanes, hunters, defects, protection, time, tandem and repair, and the register writes that stop
no region), in every state, every byte of memory reads after the command as it read before. (09_yard_and_hayloft
R207, 01_device_architecture R3) -/
def Obligations.CommandsThatStoreNothing : Prop :=
  ∀ (i : Instr) (s t : State), i.storesNothing = true → exec i s = .next t → ∀ a : Nat, t.dev.mem.rd1 a = s.dev.mem.rd1 a

/-- Commands of the line side leave processors, sessions, Gatehouse and tandem state. Every command that is no
packet, no reset, and no command of the host port, the Pavilion, the Gatehouse or the tandem bridge leaves the
host port with its sessions and streams, the processors with their journal and checkpoints, the Gatehouse, the
tandem bridge and the core clock exactly as they were. (13_pavilion_and_gatehouse R324, 11_fenene_protocol R273,
14_tandem_mode R337) -/
def Obligations.CommandsApartFromControl : Prop :=
  ∀ (i : Instr) (s t : State), i.reachesControl = false → exec i s = .next t →
    t.dev.chip.host = s.dev.chip.host ∧ t.dev.chip.pav = s.dev.chip.pav ∧ t.dev.chip.gth = s.dev.chip.gth
      ∧ t.dev.chip.tdm = s.dev.chip.tdm ∧ t.dev.chip.core = s.dev.chip.core
end

