-- ==== Sys2Proof/Laws/State.lean ====
section
/-! SUPPORT. One lemma for each field under each update of the state: what an update writes, and that every other
field stays.  The proof (rfl) keeps simp from leaving the check of a whole chain of updates to the kernel. -/

namespace Sys2Proof.Machine

/-! ## The device: an update of the chip -/

@[simp] theorem Dev.on_chip (x : Dev) (f : Chip → Chip) : (x.on f).chip = f x.chip := rfl
@[simp] theorem Dev.on_mem (x : Dev) (f : Chip → Chip) : (x.on f).mem = x.mem := rfl
theorem Dev.on_on (x : Dev) (f g : Chip → Chip) : (x.on f).on g = x.on (fun d => g (f d)) := rfl

/-! ## Chip.wr -/

@[simp] theorem Chip.wr_core (d : Chip) (r : RegId) (w : Word) : (d.wr r w).core = d.core := (rfl)
@[simp] theorem Chip.wr_dt (d : Chip) (r : RegId) (w : Word) : (d.wr r w).dt = d.dt := (rfl)
@[simp] theorem Chip.wr_free (d : Chip) (r : RegId) (w : Word) : (d.wr r w).free = d.free := (rfl)
@[simp] theorem Chip.wr_out (d : Chip) (r : RegId) (w : Word) : (d.wr r w).out = d.out := (rfl)
@[simp] theorem Chip.wr_regs (d : Chip) (r : RegId) (w : Word) : (d.wr r w).regs = SMap.put r.resetWord d.regs r.key w := (rfl)
@[simp] theorem Chip.wr_log (d : Chip) (r : RegId) (w : Word) : (d.wr r w).log = d.log := (rfl)
@[simp] theorem Chip.wr_lanes (d : Chip) (r : RegId) (w : Word) : (d.wr r w).lanes = d.lanes := (rfl)
@[simp] theorem Chip.wr_mmbs (d : Chip) (r : RegId) (w : Word) : (d.wr r w).mmbs = d.mmbs := (rfl)
@[simp] theorem Chip.wr_cals (d : Chip) (r : RegId) (w : Word) : (d.wr r w).cals = d.cals := (rfl)
@[simp] theorem Chip.wr_hunters (d : Chip) (r : RegId) (w : Word) : (d.wr r w).hunters = d.hunters := (rfl)
@[simp] theorem Chip.wr_caps (d : Chip) (r : RegId) (w : Word) : (d.wr r w).caps = d.caps := (rfl)
@[simp] theorem Chip.wr_writers (d : Chip) (r : RegId) (w : Word) : (d.wr r w).writers = d.writers := (rfl)
@[simp] theorem Chip.wr_rgns (d : Chip) (r : RegId) (w : Word) : (d.wr r w).rgns = d.rgns := (rfl)
@[simp] theorem Chip.wr_combs (d : Chip) (r : RegId) (w : Word) : (d.wr r w).combs = d.combs := (rfl)
@[simp] theorem Chip.wr_cmps (d : Chip) (r : RegId) (w : Word) : (d.wr r w).cmps = d.cmps := (rfl)
@[simp] theorem Chip.wr_lines (d : Chip) (r : RegId) (w : Word) : (d.wr r w).lines = d.lines := (rfl)
@[simp] theorem Chip.wr_mats (d : Chip) (r : RegId) (w : Word) : (d.wr r w).mats = d.mats := (rfl)
@[simp] theorem Chip.wr_yard (d : Chip) (r : RegId) (w : Word) : (d.wr r w).yard = d.yard := (rfl)
@[simp] theorem Chip.wr_hbm (d : Chip) (r : RegId) (w : Word) : (d.wr r w).hbm = d.hbm := (rfl)
@[simp] theorem Chip.wr_defts (d : Chip) (r : RegId) (w : Word) : (d.wr r w).defts = d.defts := (rfl)
@[simp] theorem Chip.wr_paths (d : Chip) (r : RegId) (w : Word) : (d.wr r w).paths = d.paths := (rfl)
@[simp] theorem Chip.wr_mons (d : Chip) (r : RegId) (w : Word) : (d.wr r w).mons = d.mons := (rfl)
@[simp] theorem Chip.wr_groups (d : Chip) (r : RegId) (w : Word) : (d.wr r w).groups = d.groups := (rfl)
@[simp] theorem Chip.wr_dsks (d : Chip) (r : RegId) (w : Word) : (d.wr r w).dsks = d.dsks := (rfl)
@[simp] theorem Chip.wr_traces (d : Chip) (r : RegId) (w : Word) : (d.wr r w).traces = d.traces := (rfl)
@[simp] theorem Chip.wr_ohps (d : Chip) (r : RegId) (w : Word) : (d.wr r w).ohps = d.ohps := (rfl)
@[simp] theorem Chip.wr_ctxs (d : Chip) (r : RegId) (w : Word) : (d.wr r w).ctxs = d.ctxs := (rfl)
@[simp] theorem Chip.wr_pats (d : Chip) (r : RegId) (w : Word) : (d.wr r w).pats = d.pats := (rfl)
@[simp] theorem Chip.wr_engRdy (d : Chip) (r : RegId) (w : Word) : (d.wr r w).engRdy = d.engRdy := (rfl)
@[simp] theorem Chip.wr_ledger (d : Chip) (r : RegId) (w : Word) : (d.wr r w).ledger = d.ledger := (rfl)
@[simp] theorem Chip.wr_tim (d : Chip) (r : RegId) (w : Word) : (d.wr r w).tim = d.tim := (rfl)
@[simp] theorem Chip.wr_tps (d : Chip) (r : RegId) (w : Word) : (d.wr r w).tps = d.tps := (rfl)
@[simp] theorem Chip.wr_host (d : Chip) (r : RegId) (w : Word) : (d.wr r w).host = d.host := (rfl)
@[simp] theorem Chip.wr_sec (d : Chip) (r : RegId) (w : Word) : (d.wr r w).sec = d.sec := (rfl)
@[simp] theorem Chip.wr_pav (d : Chip) (r : RegId) (w : Word) : (d.wr r w).pav = d.pav := (rfl)
@[simp] theorem Chip.wr_gth (d : Chip) (r : RegId) (w : Word) : (d.wr r w).gth = d.gth := (rfl)
@[simp] theorem Chip.wr_tdm (d : Chip) (r : RegId) (w : Word) : (d.wr r w).tdm = d.tdm := (rfl)
@[simp] theorem Chip.wr_svc (d : Chip) (r : RegId) (w : Word) : (d.wr r w).svc = d.svc := (rfl)
@[simp] theorem Chip.wr_pwr (d : Chip) (r : RegId) (w : Word) : (d.wr r w).pwr = d.pwr := (rfl)

/-! ## Chip.sf -/

@[simp] theorem Chip.sf_core (d : Chip) (r : RegId) (hi lo v : Nat) : (d.sf r hi lo v).core = d.core := (rfl)
@[simp] theorem Chip.sf_dt (d : Chip) (r : RegId) (hi lo v : Nat) : (d.sf r hi lo v).dt = d.dt := (rfl)
@[simp] theorem Chip.sf_free (d : Chip) (r : RegId) (hi lo v : Nat) : (d.sf r hi lo v).free = d.free := (rfl)
@[simp] theorem Chip.sf_out (d : Chip) (r : RegId) (hi lo v : Nat) : (d.sf r hi lo v).out = d.out := (rfl)
@[simp] theorem Chip.sf_log (d : Chip) (r : RegId) (hi lo v : Nat) : (d.sf r hi lo v).log = d.log := (rfl)
@[simp] theorem Chip.sf_lanes (d : Chip) (r : RegId) (hi lo v : Nat) : (d.sf r hi lo v).lanes = d.lanes := (rfl)
@[simp] theorem Chip.sf_mmbs (d : Chip) (r : RegId) (hi lo v : Nat) : (d.sf r hi lo v).mmbs = d.mmbs := (rfl)
@[simp] theorem Chip.sf_cals (d : Chip) (r : RegId) (hi lo v : Nat) : (d.sf r hi lo v).cals = d.cals := (rfl)
@[simp] theorem Chip.sf_hunters (d : Chip) (r : RegId) (hi lo v : Nat) : (d.sf r hi lo v).hunters = d.hunters := (rfl)
@[simp] theorem Chip.sf_caps (d : Chip) (r : RegId) (hi lo v : Nat) : (d.sf r hi lo v).caps = d.caps := (rfl)
@[simp] theorem Chip.sf_writers (d : Chip) (r : RegId) (hi lo v : Nat) : (d.sf r hi lo v).writers = d.writers := (rfl)
@[simp] theorem Chip.sf_rgns (d : Chip) (r : RegId) (hi lo v : Nat) : (d.sf r hi lo v).rgns = d.rgns := (rfl)
@[simp] theorem Chip.sf_combs (d : Chip) (r : RegId) (hi lo v : Nat) : (d.sf r hi lo v).combs = d.combs := (rfl)
@[simp] theorem Chip.sf_cmps (d : Chip) (r : RegId) (hi lo v : Nat) : (d.sf r hi lo v).cmps = d.cmps := (rfl)
@[simp] theorem Chip.sf_lines (d : Chip) (r : RegId) (hi lo v : Nat) : (d.sf r hi lo v).lines = d.lines := (rfl)
@[simp] theorem Chip.sf_mats (d : Chip) (r : RegId) (hi lo v : Nat) : (d.sf r hi lo v).mats = d.mats := (rfl)
@[simp] theorem Chip.sf_yard (d : Chip) (r : RegId) (hi lo v : Nat) : (d.sf r hi lo v).yard = d.yard := (rfl)
@[simp] theorem Chip.sf_hbm (d : Chip) (r : RegId) (hi lo v : Nat) : (d.sf r hi lo v).hbm = d.hbm := (rfl)
@[simp] theorem Chip.sf_defts (d : Chip) (r : RegId) (hi lo v : Nat) : (d.sf r hi lo v).defts = d.defts := (rfl)
@[simp] theorem Chip.sf_paths (d : Chip) (r : RegId) (hi lo v : Nat) : (d.sf r hi lo v).paths = d.paths := (rfl)
@[simp] theorem Chip.sf_mons (d : Chip) (r : RegId) (hi lo v : Nat) : (d.sf r hi lo v).mons = d.mons := (rfl)
@[simp] theorem Chip.sf_groups (d : Chip) (r : RegId) (hi lo v : Nat) : (d.sf r hi lo v).groups = d.groups := (rfl)
@[simp] theorem Chip.sf_dsks (d : Chip) (r : RegId) (hi lo v : Nat) : (d.sf r hi lo v).dsks = d.dsks := (rfl)
@[simp] theorem Chip.sf_traces (d : Chip) (r : RegId) (hi lo v : Nat) : (d.sf r hi lo v).traces = d.traces := (rfl)
@[simp] theorem Chip.sf_ohps (d : Chip) (r : RegId) (hi lo v : Nat) : (d.sf r hi lo v).ohps = d.ohps := (rfl)
@[simp] theorem Chip.sf_ctxs (d : Chip) (r : RegId) (hi lo v : Nat) : (d.sf r hi lo v).ctxs = d.ctxs := (rfl)
@[simp] theorem Chip.sf_pats (d : Chip) (r : RegId) (hi lo v : Nat) : (d.sf r hi lo v).pats = d.pats := (rfl)
@[simp] theorem Chip.sf_engRdy (d : Chip) (r : RegId) (hi lo v : Nat) : (d.sf r hi lo v).engRdy = d.engRdy := (rfl)
@[simp] theorem Chip.sf_ledger (d : Chip) (r : RegId) (hi lo v : Nat) : (d.sf r hi lo v).ledger = d.ledger := (rfl)
@[simp] theorem Chip.sf_tim (d : Chip) (r : RegId) (hi lo v : Nat) : (d.sf r hi lo v).tim = d.tim := (rfl)
@[simp] theorem Chip.sf_tps (d : Chip) (r : RegId) (hi lo v : Nat) : (d.sf r hi lo v).tps = d.tps := (rfl)
@[simp] theorem Chip.sf_host (d : Chip) (r : RegId) (hi lo v : Nat) : (d.sf r hi lo v).host = d.host := (rfl)
@[simp] theorem Chip.sf_sec (d : Chip) (r : RegId) (hi lo v : Nat) : (d.sf r hi lo v).sec = d.sec := (rfl)
@[simp] theorem Chip.sf_pav (d : Chip) (r : RegId) (hi lo v : Nat) : (d.sf r hi lo v).pav = d.pav := (rfl)
@[simp] theorem Chip.sf_gth (d : Chip) (r : RegId) (hi lo v : Nat) : (d.sf r hi lo v).gth = d.gth := (rfl)
@[simp] theorem Chip.sf_tdm (d : Chip) (r : RegId) (hi lo v : Nat) : (d.sf r hi lo v).tdm = d.tdm := (rfl)
@[simp] theorem Chip.sf_svc (d : Chip) (r : RegId) (hi lo v : Nat) : (d.sf r hi lo v).svc = d.svc := (rfl)
@[simp] theorem Chip.sf_pwr (d : Chip) (r : RegId) (hi lo v : Nat) : (d.sf r hi lo v).pwr = d.pwr := (rfl)

/-! ## Chip.flag -/

@[simp] theorem Chip.flag_core (d : Chip) (r : RegId) (i : Nat) : (d.flag r i).core = d.core := (rfl)
@[simp] theorem Chip.flag_dt (d : Chip) (r : RegId) (i : Nat) : (d.flag r i).dt = d.dt := (rfl)
@[simp] theorem Chip.flag_free (d : Chip) (r : RegId) (i : Nat) : (d.flag r i).free = d.free := (rfl)
@[simp] theorem Chip.flag_out (d : Chip) (r : RegId) (i : Nat) : (d.flag r i).out = d.out := (rfl)
@[simp] theorem Chip.flag_log (d : Chip) (r : RegId) (i : Nat) : (d.flag r i).log = d.log := (rfl)
@[simp] theorem Chip.flag_lanes (d : Chip) (r : RegId) (i : Nat) : (d.flag r i).lanes = d.lanes := (rfl)
@[simp] theorem Chip.flag_mmbs (d : Chip) (r : RegId) (i : Nat) : (d.flag r i).mmbs = d.mmbs := (rfl)
@[simp] theorem Chip.flag_cals (d : Chip) (r : RegId) (i : Nat) : (d.flag r i).cals = d.cals := (rfl)
@[simp] theorem Chip.flag_hunters (d : Chip) (r : RegId) (i : Nat) : (d.flag r i).hunters = d.hunters := (rfl)
@[simp] theorem Chip.flag_caps (d : Chip) (r : RegId) (i : Nat) : (d.flag r i).caps = d.caps := (rfl)
@[simp] theorem Chip.flag_writers (d : Chip) (r : RegId) (i : Nat) : (d.flag r i).writers = d.writers := (rfl)
@[simp] theorem Chip.flag_rgns (d : Chip) (r : RegId) (i : Nat) : (d.flag r i).rgns = d.rgns := (rfl)
@[simp] theorem Chip.flag_combs (d : Chip) (r : RegId) (i : Nat) : (d.flag r i).combs = d.combs := (rfl)
@[simp] theorem Chip.flag_cmps (d : Chip) (r : RegId) (i : Nat) : (d.flag r i).cmps = d.cmps := (rfl)
@[simp] theorem Chip.flag_lines (d : Chip) (r : RegId) (i : Nat) : (d.flag r i).lines = d.lines := (rfl)
@[simp] theorem Chip.flag_mats (d : Chip) (r : RegId) (i : Nat) : (d.flag r i).mats = d.mats := (rfl)
@[simp] theorem Chip.flag_yard (d : Chip) (r : RegId) (i : Nat) : (d.flag r i).yard = d.yard := (rfl)
@[simp] theorem Chip.flag_hbm (d : Chip) (r : RegId) (i : Nat) : (d.flag r i).hbm = d.hbm := (rfl)
@[simp] theorem Chip.flag_defts (d : Chip) (r : RegId) (i : Nat) : (d.flag r i).defts = d.defts := (rfl)
@[simp] theorem Chip.flag_paths (d : Chip) (r : RegId) (i : Nat) : (d.flag r i).paths = d.paths := (rfl)
@[simp] theorem Chip.flag_mons (d : Chip) (r : RegId) (i : Nat) : (d.flag r i).mons = d.mons := (rfl)
@[simp] theorem Chip.flag_groups (d : Chip) (r : RegId) (i : Nat) : (d.flag r i).groups = d.groups := (rfl)
@[simp] theorem Chip.flag_dsks (d : Chip) (r : RegId) (i : Nat) : (d.flag r i).dsks = d.dsks := (rfl)
@[simp] theorem Chip.flag_traces (d : Chip) (r : RegId) (i : Nat) : (d.flag r i).traces = d.traces := (rfl)
@[simp] theorem Chip.flag_ohps (d : Chip) (r : RegId) (i : Nat) : (d.flag r i).ohps = d.ohps := (rfl)
@[simp] theorem Chip.flag_ctxs (d : Chip) (r : RegId) (i : Nat) : (d.flag r i).ctxs = d.ctxs := (rfl)
@[simp] theorem Chip.flag_pats (d : Chip) (r : RegId) (i : Nat) : (d.flag r i).pats = d.pats := (rfl)
@[simp] theorem Chip.flag_engRdy (d : Chip) (r : RegId) (i : Nat) : (d.flag r i).engRdy = d.engRdy := (rfl)
@[simp] theorem Chip.flag_ledger (d : Chip) (r : RegId) (i : Nat) : (d.flag r i).ledger = d.ledger := (rfl)
@[simp] theorem Chip.flag_tim (d : Chip) (r : RegId) (i : Nat) : (d.flag r i).tim = d.tim := (rfl)
@[simp] theorem Chip.flag_tps (d : Chip) (r : RegId) (i : Nat) : (d.flag r i).tps = d.tps := (rfl)
@[simp] theorem Chip.flag_host (d : Chip) (r : RegId) (i : Nat) : (d.flag r i).host = d.host := (rfl)
@[simp] theorem Chip.flag_sec (d : Chip) (r : RegId) (i : Nat) : (d.flag r i).sec = d.sec := (rfl)
@[simp] theorem Chip.flag_pav (d : Chip) (r : RegId) (i : Nat) : (d.flag r i).pav = d.pav := (rfl)
@[simp] theorem Chip.flag_gth (d : Chip) (r : RegId) (i : Nat) : (d.flag r i).gth = d.gth := (rfl)
@[simp] theorem Chip.flag_tdm (d : Chip) (r : RegId) (i : Nat) : (d.flag r i).tdm = d.tdm := (rfl)
@[simp] theorem Chip.flag_svc (d : Chip) (r : RegId) (i : Nat) : (d.flag r i).svc = d.svc := (rfl)
@[simp] theorem Chip.flag_pwr (d : Chip) (r : RegId) (i : Nat) : (d.flag r i).pwr = d.pwr := (rfl)

/-! ## Chip.unflag -/

@[simp] theorem Chip.unflag_core (d : Chip) (r : RegId) (i : Nat) : (d.unflag r i).core = d.core := (rfl)
@[simp] theorem Chip.unflag_dt (d : Chip) (r : RegId) (i : Nat) : (d.unflag r i).dt = d.dt := (rfl)
@[simp] theorem Chip.unflag_free (d : Chip) (r : RegId) (i : Nat) : (d.unflag r i).free = d.free := (rfl)
@[simp] theorem Chip.unflag_out (d : Chip) (r : RegId) (i : Nat) : (d.unflag r i).out = d.out := (rfl)
@[simp] theorem Chip.unflag_log (d : Chip) (r : RegId) (i : Nat) : (d.unflag r i).log = d.log := (rfl)
@[simp] theorem Chip.unflag_lanes (d : Chip) (r : RegId) (i : Nat) : (d.unflag r i).lanes = d.lanes := (rfl)
@[simp] theorem Chip.unflag_mmbs (d : Chip) (r : RegId) (i : Nat) : (d.unflag r i).mmbs = d.mmbs := (rfl)
@[simp] theorem Chip.unflag_cals (d : Chip) (r : RegId) (i : Nat) : (d.unflag r i).cals = d.cals := (rfl)
@[simp] theorem Chip.unflag_hunters (d : Chip) (r : RegId) (i : Nat) : (d.unflag r i).hunters = d.hunters := (rfl)
@[simp] theorem Chip.unflag_caps (d : Chip) (r : RegId) (i : Nat) : (d.unflag r i).caps = d.caps := (rfl)
@[simp] theorem Chip.unflag_writers (d : Chip) (r : RegId) (i : Nat) : (d.unflag r i).writers = d.writers := (rfl)
@[simp] theorem Chip.unflag_rgns (d : Chip) (r : RegId) (i : Nat) : (d.unflag r i).rgns = d.rgns := (rfl)
@[simp] theorem Chip.unflag_combs (d : Chip) (r : RegId) (i : Nat) : (d.unflag r i).combs = d.combs := (rfl)
@[simp] theorem Chip.unflag_cmps (d : Chip) (r : RegId) (i : Nat) : (d.unflag r i).cmps = d.cmps := (rfl)
@[simp] theorem Chip.unflag_lines (d : Chip) (r : RegId) (i : Nat) : (d.unflag r i).lines = d.lines := (rfl)
@[simp] theorem Chip.unflag_mats (d : Chip) (r : RegId) (i : Nat) : (d.unflag r i).mats = d.mats := (rfl)
@[simp] theorem Chip.unflag_yard (d : Chip) (r : RegId) (i : Nat) : (d.unflag r i).yard = d.yard := (rfl)
@[simp] theorem Chip.unflag_hbm (d : Chip) (r : RegId) (i : Nat) : (d.unflag r i).hbm = d.hbm := (rfl)
@[simp] theorem Chip.unflag_defts (d : Chip) (r : RegId) (i : Nat) : (d.unflag r i).defts = d.defts := (rfl)
@[simp] theorem Chip.unflag_paths (d : Chip) (r : RegId) (i : Nat) : (d.unflag r i).paths = d.paths := (rfl)
@[simp] theorem Chip.unflag_mons (d : Chip) (r : RegId) (i : Nat) : (d.unflag r i).mons = d.mons := (rfl)
@[simp] theorem Chip.unflag_groups (d : Chip) (r : RegId) (i : Nat) : (d.unflag r i).groups = d.groups := (rfl)
@[simp] theorem Chip.unflag_dsks (d : Chip) (r : RegId) (i : Nat) : (d.unflag r i).dsks = d.dsks := (rfl)
@[simp] theorem Chip.unflag_traces (d : Chip) (r : RegId) (i : Nat) : (d.unflag r i).traces = d.traces := (rfl)
@[simp] theorem Chip.unflag_ohps (d : Chip) (r : RegId) (i : Nat) : (d.unflag r i).ohps = d.ohps := (rfl)
@[simp] theorem Chip.unflag_ctxs (d : Chip) (r : RegId) (i : Nat) : (d.unflag r i).ctxs = d.ctxs := (rfl)
@[simp] theorem Chip.unflag_pats (d : Chip) (r : RegId) (i : Nat) : (d.unflag r i).pats = d.pats := (rfl)
@[simp] theorem Chip.unflag_engRdy (d : Chip) (r : RegId) (i : Nat) : (d.unflag r i).engRdy = d.engRdy := (rfl)
@[simp] theorem Chip.unflag_ledger (d : Chip) (r : RegId) (i : Nat) : (d.unflag r i).ledger = d.ledger := (rfl)
@[simp] theorem Chip.unflag_tim (d : Chip) (r : RegId) (i : Nat) : (d.unflag r i).tim = d.tim := (rfl)
@[simp] theorem Chip.unflag_tps (d : Chip) (r : RegId) (i : Nat) : (d.unflag r i).tps = d.tps := (rfl)
@[simp] theorem Chip.unflag_host (d : Chip) (r : RegId) (i : Nat) : (d.unflag r i).host = d.host := (rfl)
@[simp] theorem Chip.unflag_sec (d : Chip) (r : RegId) (i : Nat) : (d.unflag r i).sec = d.sec := (rfl)
@[simp] theorem Chip.unflag_pav (d : Chip) (r : RegId) (i : Nat) : (d.unflag r i).pav = d.pav := (rfl)
@[simp] theorem Chip.unflag_gth (d : Chip) (r : RegId) (i : Nat) : (d.unflag r i).gth = d.gth := (rfl)
@[simp] theorem Chip.unflag_tdm (d : Chip) (r : RegId) (i : Nat) : (d.unflag r i).tdm = d.tdm := (rfl)
@[simp] theorem Chip.unflag_svc (d : Chip) (r : RegId) (i : Nat) : (d.unflag r i).svc = d.svc := (rfl)
@[simp] theorem Chip.unflag_pwr (d : Chip) (r : RegId) (i : Nat) : (d.unflag r i).pwr = d.pwr := (rfl)

/-! ## Chip.sbit -/

@[simp] theorem Chip.sbit_core (d : Chip) (r : RegId) (i : Nat) (b : Bool) : (d.sbit r i b).core = d.core := (rfl)
@[simp] theorem Chip.sbit_dt (d : Chip) (r : RegId) (i : Nat) (b : Bool) : (d.sbit r i b).dt = d.dt := (rfl)
@[simp] theorem Chip.sbit_free (d : Chip) (r : RegId) (i : Nat) (b : Bool) : (d.sbit r i b).free = d.free := (rfl)
@[simp] theorem Chip.sbit_out (d : Chip) (r : RegId) (i : Nat) (b : Bool) : (d.sbit r i b).out = d.out := (rfl)
@[simp] theorem Chip.sbit_log (d : Chip) (r : RegId) (i : Nat) (b : Bool) : (d.sbit r i b).log = d.log := (rfl)
@[simp] theorem Chip.sbit_lanes (d : Chip) (r : RegId) (i : Nat) (b : Bool) : (d.sbit r i b).lanes = d.lanes := (rfl)
@[simp] theorem Chip.sbit_mmbs (d : Chip) (r : RegId) (i : Nat) (b : Bool) : (d.sbit r i b).mmbs = d.mmbs := (rfl)
@[simp] theorem Chip.sbit_cals (d : Chip) (r : RegId) (i : Nat) (b : Bool) : (d.sbit r i b).cals = d.cals := (rfl)
@[simp] theorem Chip.sbit_hunters (d : Chip) (r : RegId) (i : Nat) (b : Bool) : (d.sbit r i b).hunters = d.hunters := (rfl)
@[simp] theorem Chip.sbit_caps (d : Chip) (r : RegId) (i : Nat) (b : Bool) : (d.sbit r i b).caps = d.caps := (rfl)
@[simp] theorem Chip.sbit_writers (d : Chip) (r : RegId) (i : Nat) (b : Bool) : (d.sbit r i b).writers = d.writers := (rfl)
@[simp] theorem Chip.sbit_rgns (d : Chip) (r : RegId) (i : Nat) (b : Bool) : (d.sbit r i b).rgns = d.rgns := (rfl)
@[simp] theorem Chip.sbit_combs (d : Chip) (r : RegId) (i : Nat) (b : Bool) : (d.sbit r i b).combs = d.combs := (rfl)
@[simp] theorem Chip.sbit_cmps (d : Chip) (r : RegId) (i : Nat) (b : Bool) : (d.sbit r i b).cmps = d.cmps := (rfl)
@[simp] theorem Chip.sbit_lines (d : Chip) (r : RegId) (i : Nat) (b : Bool) : (d.sbit r i b).lines = d.lines := (rfl)
@[simp] theorem Chip.sbit_mats (d : Chip) (r : RegId) (i : Nat) (b : Bool) : (d.sbit r i b).mats = d.mats := (rfl)
@[simp] theorem Chip.sbit_yard (d : Chip) (r : RegId) (i : Nat) (b : Bool) : (d.sbit r i b).yard = d.yard := (rfl)
@[simp] theorem Chip.sbit_hbm (d : Chip) (r : RegId) (i : Nat) (b : Bool) : (d.sbit r i b).hbm = d.hbm := (rfl)
@[simp] theorem Chip.sbit_defts (d : Chip) (r : RegId) (i : Nat) (b : Bool) : (d.sbit r i b).defts = d.defts := (rfl)
@[simp] theorem Chip.sbit_paths (d : Chip) (r : RegId) (i : Nat) (b : Bool) : (d.sbit r i b).paths = d.paths := (rfl)
@[simp] theorem Chip.sbit_mons (d : Chip) (r : RegId) (i : Nat) (b : Bool) : (d.sbit r i b).mons = d.mons := (rfl)
@[simp] theorem Chip.sbit_groups (d : Chip) (r : RegId) (i : Nat) (b : Bool) : (d.sbit r i b).groups = d.groups := (rfl)
@[simp] theorem Chip.sbit_dsks (d : Chip) (r : RegId) (i : Nat) (b : Bool) : (d.sbit r i b).dsks = d.dsks := (rfl)
@[simp] theorem Chip.sbit_traces (d : Chip) (r : RegId) (i : Nat) (b : Bool) : (d.sbit r i b).traces = d.traces := (rfl)
@[simp] theorem Chip.sbit_ohps (d : Chip) (r : RegId) (i : Nat) (b : Bool) : (d.sbit r i b).ohps = d.ohps := (rfl)
@[simp] theorem Chip.sbit_ctxs (d : Chip) (r : RegId) (i : Nat) (b : Bool) : (d.sbit r i b).ctxs = d.ctxs := (rfl)
@[simp] theorem Chip.sbit_pats (d : Chip) (r : RegId) (i : Nat) (b : Bool) : (d.sbit r i b).pats = d.pats := (rfl)
@[simp] theorem Chip.sbit_engRdy (d : Chip) (r : RegId) (i : Nat) (b : Bool) : (d.sbit r i b).engRdy = d.engRdy := (rfl)
@[simp] theorem Chip.sbit_ledger (d : Chip) (r : RegId) (i : Nat) (b : Bool) : (d.sbit r i b).ledger = d.ledger := (rfl)
@[simp] theorem Chip.sbit_tim (d : Chip) (r : RegId) (i : Nat) (b : Bool) : (d.sbit r i b).tim = d.tim := (rfl)
@[simp] theorem Chip.sbit_tps (d : Chip) (r : RegId) (i : Nat) (b : Bool) : (d.sbit r i b).tps = d.tps := (rfl)
@[simp] theorem Chip.sbit_host (d : Chip) (r : RegId) (i : Nat) (b : Bool) : (d.sbit r i b).host = d.host := (rfl)
@[simp] theorem Chip.sbit_sec (d : Chip) (r : RegId) (i : Nat) (b : Bool) : (d.sbit r i b).sec = d.sec := (rfl)
@[simp] theorem Chip.sbit_pav (d : Chip) (r : RegId) (i : Nat) (b : Bool) : (d.sbit r i b).pav = d.pav := (rfl)
@[simp] theorem Chip.sbit_gth (d : Chip) (r : RegId) (i : Nat) (b : Bool) : (d.sbit r i b).gth = d.gth := (rfl)
@[simp] theorem Chip.sbit_tdm (d : Chip) (r : RegId) (i : Nat) (b : Bool) : (d.sbit r i b).tdm = d.tdm := (rfl)
@[simp] theorem Chip.sbit_svc (d : Chip) (r : RegId) (i : Nat) (b : Bool) : (d.sbit r i b).svc = d.svc := (rfl)
@[simp] theorem Chip.sbit_pwr (d : Chip) (r : RegId) (i : Nat) (b : Bool) : (d.sbit r i b).pwr = d.pwr := (rfl)

/-! ## Chip.count -/

@[simp] theorem Chip.count_core (d : Chip) (r : RegId) (n : Nat) : (d.count r n).core = d.core := (rfl)
@[simp] theorem Chip.count_dt (d : Chip) (r : RegId) (n : Nat) : (d.count r n).dt = d.dt := (rfl)
@[simp] theorem Chip.count_free (d : Chip) (r : RegId) (n : Nat) : (d.count r n).free = d.free := (rfl)
@[simp] theorem Chip.count_out (d : Chip) (r : RegId) (n : Nat) : (d.count r n).out = d.out := (rfl)
@[simp] theorem Chip.count_log (d : Chip) (r : RegId) (n : Nat) : (d.count r n).log = d.log := (rfl)
@[simp] theorem Chip.count_lanes (d : Chip) (r : RegId) (n : Nat) : (d.count r n).lanes = d.lanes := (rfl)
@[simp] theorem Chip.count_mmbs (d : Chip) (r : RegId) (n : Nat) : (d.count r n).mmbs = d.mmbs := (rfl)
@[simp] theorem Chip.count_cals (d : Chip) (r : RegId) (n : Nat) : (d.count r n).cals = d.cals := (rfl)
@[simp] theorem Chip.count_hunters (d : Chip) (r : RegId) (n : Nat) : (d.count r n).hunters = d.hunters := (rfl)
@[simp] theorem Chip.count_caps (d : Chip) (r : RegId) (n : Nat) : (d.count r n).caps = d.caps := (rfl)
@[simp] theorem Chip.count_writers (d : Chip) (r : RegId) (n : Nat) : (d.count r n).writers = d.writers := (rfl)
@[simp] theorem Chip.count_rgns (d : Chip) (r : RegId) (n : Nat) : (d.count r n).rgns = d.rgns := (rfl)
@[simp] theorem Chip.count_combs (d : Chip) (r : RegId) (n : Nat) : (d.count r n).combs = d.combs := (rfl)
@[simp] theorem Chip.count_cmps (d : Chip) (r : RegId) (n : Nat) : (d.count r n).cmps = d.cmps := (rfl)
@[simp] theorem Chip.count_lines (d : Chip) (r : RegId) (n : Nat) : (d.count r n).lines = d.lines := (rfl)
@[simp] theorem Chip.count_mats (d : Chip) (r : RegId) (n : Nat) : (d.count r n).mats = d.mats := (rfl)
@[simp] theorem Chip.count_yard (d : Chip) (r : RegId) (n : Nat) : (d.count r n).yard = d.yard := (rfl)
@[simp] theorem Chip.count_hbm (d : Chip) (r : RegId) (n : Nat) : (d.count r n).hbm = d.hbm := (rfl)
@[simp] theorem Chip.count_defts (d : Chip) (r : RegId) (n : Nat) : (d.count r n).defts = d.defts := (rfl)
@[simp] theorem Chip.count_paths (d : Chip) (r : RegId) (n : Nat) : (d.count r n).paths = d.paths := (rfl)
@[simp] theorem Chip.count_mons (d : Chip) (r : RegId) (n : Nat) : (d.count r n).mons = d.mons := (rfl)
@[simp] theorem Chip.count_groups (d : Chip) (r : RegId) (n : Nat) : (d.count r n).groups = d.groups := (rfl)
@[simp] theorem Chip.count_dsks (d : Chip) (r : RegId) (n : Nat) : (d.count r n).dsks = d.dsks := (rfl)
@[simp] theorem Chip.count_traces (d : Chip) (r : RegId) (n : Nat) : (d.count r n).traces = d.traces := (rfl)
@[simp] theorem Chip.count_ohps (d : Chip) (r : RegId) (n : Nat) : (d.count r n).ohps = d.ohps := (rfl)
@[simp] theorem Chip.count_ctxs (d : Chip) (r : RegId) (n : Nat) : (d.count r n).ctxs = d.ctxs := (rfl)
@[simp] theorem Chip.count_pats (d : Chip) (r : RegId) (n : Nat) : (d.count r n).pats = d.pats := (rfl)
@[simp] theorem Chip.count_engRdy (d : Chip) (r : RegId) (n : Nat) : (d.count r n).engRdy = d.engRdy := (rfl)
@[simp] theorem Chip.count_ledger (d : Chip) (r : RegId) (n : Nat) : (d.count r n).ledger = d.ledger := (rfl)
@[simp] theorem Chip.count_tim (d : Chip) (r : RegId) (n : Nat) : (d.count r n).tim = d.tim := (rfl)
@[simp] theorem Chip.count_tps (d : Chip) (r : RegId) (n : Nat) : (d.count r n).tps = d.tps := (rfl)
@[simp] theorem Chip.count_host (d : Chip) (r : RegId) (n : Nat) : (d.count r n).host = d.host := (rfl)
@[simp] theorem Chip.count_sec (d : Chip) (r : RegId) (n : Nat) : (d.count r n).sec = d.sec := (rfl)
@[simp] theorem Chip.count_pav (d : Chip) (r : RegId) (n : Nat) : (d.count r n).pav = d.pav := (rfl)
@[simp] theorem Chip.count_gth (d : Chip) (r : RegId) (n : Nat) : (d.count r n).gth = d.gth := (rfl)
@[simp] theorem Chip.count_tdm (d : Chip) (r : RegId) (n : Nat) : (d.count r n).tdm = d.tdm := (rfl)
@[simp] theorem Chip.count_svc (d : Chip) (r : RegId) (n : Nat) : (d.count r n).svc = d.svc := (rfl)
@[simp] theorem Chip.count_pwr (d : Chip) (r : RegId) (n : Nat) : (d.count r n).pwr = d.pwr := (rfl)

/-! ## Chip.setPair -/

@[simp] theorem Chip.setPair_core (d : Chip) (lo hi : RegId) (v : Nat) : (d.setPair lo hi v).core = d.core := (rfl)
@[simp] theorem Chip.setPair_dt (d : Chip) (lo hi : RegId) (v : Nat) : (d.setPair lo hi v).dt = d.dt := (rfl)
@[simp] theorem Chip.setPair_free (d : Chip) (lo hi : RegId) (v : Nat) : (d.setPair lo hi v).free = d.free := (rfl)
@[simp] theorem Chip.setPair_out (d : Chip) (lo hi : RegId) (v : Nat) : (d.setPair lo hi v).out = d.out := (rfl)
@[simp] theorem Chip.setPair_log (d : Chip) (lo hi : RegId) (v : Nat) : (d.setPair lo hi v).log = d.log := (rfl)
@[simp] theorem Chip.setPair_lanes (d : Chip) (lo hi : RegId) (v : Nat) : (d.setPair lo hi v).lanes = d.lanes := (rfl)
@[simp] theorem Chip.setPair_mmbs (d : Chip) (lo hi : RegId) (v : Nat) : (d.setPair lo hi v).mmbs = d.mmbs := (rfl)
@[simp] theorem Chip.setPair_cals (d : Chip) (lo hi : RegId) (v : Nat) : (d.setPair lo hi v).cals = d.cals := (rfl)
@[simp] theorem Chip.setPair_hunters (d : Chip) (lo hi : RegId) (v : Nat) : (d.setPair lo hi v).hunters = d.hunters := (rfl)
@[simp] theorem Chip.setPair_caps (d : Chip) (lo hi : RegId) (v : Nat) : (d.setPair lo hi v).caps = d.caps := (rfl)
@[simp] theorem Chip.setPair_writers (d : Chip) (lo hi : RegId) (v : Nat) : (d.setPair lo hi v).writers = d.writers := (rfl)
@[simp] theorem Chip.setPair_rgns (d : Chip) (lo hi : RegId) (v : Nat) : (d.setPair lo hi v).rgns = d.rgns := (rfl)
@[simp] theorem Chip.setPair_combs (d : Chip) (lo hi : RegId) (v : Nat) : (d.setPair lo hi v).combs = d.combs := (rfl)
@[simp] theorem Chip.setPair_cmps (d : Chip) (lo hi : RegId) (v : Nat) : (d.setPair lo hi v).cmps = d.cmps := (rfl)
@[simp] theorem Chip.setPair_lines (d : Chip) (lo hi : RegId) (v : Nat) : (d.setPair lo hi v).lines = d.lines := (rfl)
@[simp] theorem Chip.setPair_mats (d : Chip) (lo hi : RegId) (v : Nat) : (d.setPair lo hi v).mats = d.mats := (rfl)
@[simp] theorem Chip.setPair_yard (d : Chip) (lo hi : RegId) (v : Nat) : (d.setPair lo hi v).yard = d.yard := (rfl)
@[simp] theorem Chip.setPair_hbm (d : Chip) (lo hi : RegId) (v : Nat) : (d.setPair lo hi v).hbm = d.hbm := (rfl)
@[simp] theorem Chip.setPair_defts (d : Chip) (lo hi : RegId) (v : Nat) : (d.setPair lo hi v).defts = d.defts := (rfl)
@[simp] theorem Chip.setPair_paths (d : Chip) (lo hi : RegId) (v : Nat) : (d.setPair lo hi v).paths = d.paths := (rfl)
@[simp] theorem Chip.setPair_mons (d : Chip) (lo hi : RegId) (v : Nat) : (d.setPair lo hi v).mons = d.mons := (rfl)
@[simp] theorem Chip.setPair_groups (d : Chip) (lo hi : RegId) (v : Nat) : (d.setPair lo hi v).groups = d.groups := (rfl)
@[simp] theorem Chip.setPair_dsks (d : Chip) (lo hi : RegId) (v : Nat) : (d.setPair lo hi v).dsks = d.dsks := (rfl)
@[simp] theorem Chip.setPair_traces (d : Chip) (lo hi : RegId) (v : Nat) : (d.setPair lo hi v).traces = d.traces := (rfl)
@[simp] theorem Chip.setPair_ohps (d : Chip) (lo hi : RegId) (v : Nat) : (d.setPair lo hi v).ohps = d.ohps := (rfl)
@[simp] theorem Chip.setPair_ctxs (d : Chip) (lo hi : RegId) (v : Nat) : (d.setPair lo hi v).ctxs = d.ctxs := (rfl)
@[simp] theorem Chip.setPair_pats (d : Chip) (lo hi : RegId) (v : Nat) : (d.setPair lo hi v).pats = d.pats := (rfl)
@[simp] theorem Chip.setPair_engRdy (d : Chip) (lo hi : RegId) (v : Nat) : (d.setPair lo hi v).engRdy = d.engRdy := (rfl)
@[simp] theorem Chip.setPair_ledger (d : Chip) (lo hi : RegId) (v : Nat) : (d.setPair lo hi v).ledger = d.ledger := (rfl)
@[simp] theorem Chip.setPair_tim (d : Chip) (lo hi : RegId) (v : Nat) : (d.setPair lo hi v).tim = d.tim := (rfl)
@[simp] theorem Chip.setPair_tps (d : Chip) (lo hi : RegId) (v : Nat) : (d.setPair lo hi v).tps = d.tps := (rfl)
@[simp] theorem Chip.setPair_host (d : Chip) (lo hi : RegId) (v : Nat) : (d.setPair lo hi v).host = d.host := (rfl)
@[simp] theorem Chip.setPair_sec (d : Chip) (lo hi : RegId) (v : Nat) : (d.setPair lo hi v).sec = d.sec := (rfl)
@[simp] theorem Chip.setPair_pav (d : Chip) (lo hi : RegId) (v : Nat) : (d.setPair lo hi v).pav = d.pav := (rfl)
@[simp] theorem Chip.setPair_gth (d : Chip) (lo hi : RegId) (v : Nat) : (d.setPair lo hi v).gth = d.gth := (rfl)
@[simp] theorem Chip.setPair_tdm (d : Chip) (lo hi : RegId) (v : Nat) : (d.setPair lo hi v).tdm = d.tdm := (rfl)
@[simp] theorem Chip.setPair_svc (d : Chip) (lo hi : RegId) (v : Nat) : (d.setPair lo hi v).svc = d.svc := (rfl)
@[simp] theorem Chip.setPair_pwr (d : Chip) (lo hi : RegId) (v : Nat) : (d.setPair lo hi v).pwr = d.pwr := (rfl)

/-! ## Chip.answer -/

@[simp] theorem Chip.answer_core (d : Chip) (st : Status) (v : Option Word) : (d.answer st v).core = d.core := (rfl)
@[simp] theorem Chip.answer_dt (d : Chip) (st : Status) (v : Option Word) : (d.answer st v).dt = d.dt := (rfl)
@[simp] theorem Chip.answer_free (d : Chip) (st : Status) (v : Option Word) : (d.answer st v).free = d.free := (rfl)
@[simp] theorem Chip.answer_out (d : Chip) (st : Status) (v : Option Word) : (d.answer st v).out = d.out ++ [.answer st v] := (rfl)
@[simp] theorem Chip.answer_regs (d : Chip) (st : Status) (v : Option Word) : (d.answer st v).regs = d.regs := (rfl)
@[simp] theorem Chip.answer_log (d : Chip) (st : Status) (v : Option Word) : (d.answer st v).log = d.log := (rfl)
@[simp] theorem Chip.answer_lanes (d : Chip) (st : Status) (v : Option Word) : (d.answer st v).lanes = d.lanes := (rfl)
@[simp] theorem Chip.answer_mmbs (d : Chip) (st : Status) (v : Option Word) : (d.answer st v).mmbs = d.mmbs := (rfl)
@[simp] theorem Chip.answer_cals (d : Chip) (st : Status) (v : Option Word) : (d.answer st v).cals = d.cals := (rfl)
@[simp] theorem Chip.answer_hunters (d : Chip) (st : Status) (v : Option Word) : (d.answer st v).hunters = d.hunters := (rfl)
@[simp] theorem Chip.answer_caps (d : Chip) (st : Status) (v : Option Word) : (d.answer st v).caps = d.caps := (rfl)
@[simp] theorem Chip.answer_writers (d : Chip) (st : Status) (v : Option Word) : (d.answer st v).writers = d.writers := (rfl)
@[simp] theorem Chip.answer_rgns (d : Chip) (st : Status) (v : Option Word) : (d.answer st v).rgns = d.rgns := (rfl)
@[simp] theorem Chip.answer_combs (d : Chip) (st : Status) (v : Option Word) : (d.answer st v).combs = d.combs := (rfl)
@[simp] theorem Chip.answer_cmps (d : Chip) (st : Status) (v : Option Word) : (d.answer st v).cmps = d.cmps := (rfl)
@[simp] theorem Chip.answer_lines (d : Chip) (st : Status) (v : Option Word) : (d.answer st v).lines = d.lines := (rfl)
@[simp] theorem Chip.answer_mats (d : Chip) (st : Status) (v : Option Word) : (d.answer st v).mats = d.mats := (rfl)
@[simp] theorem Chip.answer_yard (d : Chip) (st : Status) (v : Option Word) : (d.answer st v).yard = d.yard := (rfl)
@[simp] theorem Chip.answer_hbm (d : Chip) (st : Status) (v : Option Word) : (d.answer st v).hbm = d.hbm := (rfl)
@[simp] theorem Chip.answer_defts (d : Chip) (st : Status) (v : Option Word) : (d.answer st v).defts = d.defts := (rfl)
@[simp] theorem Chip.answer_paths (d : Chip) (st : Status) (v : Option Word) : (d.answer st v).paths = d.paths := (rfl)
@[simp] theorem Chip.answer_mons (d : Chip) (st : Status) (v : Option Word) : (d.answer st v).mons = d.mons := (rfl)
@[simp] theorem Chip.answer_groups (d : Chip) (st : Status) (v : Option Word) : (d.answer st v).groups = d.groups := (rfl)
@[simp] theorem Chip.answer_dsks (d : Chip) (st : Status) (v : Option Word) : (d.answer st v).dsks = d.dsks := (rfl)
@[simp] theorem Chip.answer_traces (d : Chip) (st : Status) (v : Option Word) : (d.answer st v).traces = d.traces := (rfl)
@[simp] theorem Chip.answer_ohps (d : Chip) (st : Status) (v : Option Word) : (d.answer st v).ohps = d.ohps := (rfl)
@[simp] theorem Chip.answer_ctxs (d : Chip) (st : Status) (v : Option Word) : (d.answer st v).ctxs = d.ctxs := (rfl)
@[simp] theorem Chip.answer_pats (d : Chip) (st : Status) (v : Option Word) : (d.answer st v).pats = d.pats := (rfl)
@[simp] theorem Chip.answer_engRdy (d : Chip) (st : Status) (v : Option Word) : (d.answer st v).engRdy = d.engRdy := (rfl)
@[simp] theorem Chip.answer_ledger (d : Chip) (st : Status) (v : Option Word) : (d.answer st v).ledger = d.ledger := (rfl)
@[simp] theorem Chip.answer_tim (d : Chip) (st : Status) (v : Option Word) : (d.answer st v).tim = d.tim := (rfl)
@[simp] theorem Chip.answer_tps (d : Chip) (st : Status) (v : Option Word) : (d.answer st v).tps = d.tps := (rfl)
@[simp] theorem Chip.answer_host (d : Chip) (st : Status) (v : Option Word) : (d.answer st v).host = d.host := (rfl)
@[simp] theorem Chip.answer_sec (d : Chip) (st : Status) (v : Option Word) : (d.answer st v).sec = d.sec := (rfl)
@[simp] theorem Chip.answer_pav (d : Chip) (st : Status) (v : Option Word) : (d.answer st v).pav = d.pav := (rfl)
@[simp] theorem Chip.answer_gth (d : Chip) (st : Status) (v : Option Word) : (d.answer st v).gth = d.gth := (rfl)
@[simp] theorem Chip.answer_tdm (d : Chip) (st : Status) (v : Option Word) : (d.answer st v).tdm = d.tdm := (rfl)
@[simp] theorem Chip.answer_svc (d : Chip) (st : Status) (v : Option Word) : (d.answer st v).svc = d.svc := (rfl)
@[simp] theorem Chip.answer_pwr (d : Chip) (st : Status) (v : Option Word) : (d.answer st v).pwr = d.pwr := (rfl)

/-! ## Chip.emit -/

@[simp] theorem Chip.emit_core (d : Chip) (o : Out) : (d.emit o).core = d.core := (rfl)
@[simp] theorem Chip.emit_dt (d : Chip) (o : Out) : (d.emit o).dt = d.dt := (rfl)
@[simp] theorem Chip.emit_free (d : Chip) (o : Out) : (d.emit o).free = d.free := (rfl)
@[simp] theorem Chip.emit_out (d : Chip) (o : Out) : (d.emit o).out = d.out ++ [o] := (rfl)
@[simp] theorem Chip.emit_regs (d : Chip) (o : Out) : (d.emit o).regs = d.regs := (rfl)
@[simp] theorem Chip.emit_log (d : Chip) (o : Out) : (d.emit o).log = d.log := (rfl)
@[simp] theorem Chip.emit_lanes (d : Chip) (o : Out) : (d.emit o).lanes = d.lanes := (rfl)
@[simp] theorem Chip.emit_mmbs (d : Chip) (o : Out) : (d.emit o).mmbs = d.mmbs := (rfl)
@[simp] theorem Chip.emit_cals (d : Chip) (o : Out) : (d.emit o).cals = d.cals := (rfl)
@[simp] theorem Chip.emit_hunters (d : Chip) (o : Out) : (d.emit o).hunters = d.hunters := (rfl)
@[simp] theorem Chip.emit_caps (d : Chip) (o : Out) : (d.emit o).caps = d.caps := (rfl)
@[simp] theorem Chip.emit_writers (d : Chip) (o : Out) : (d.emit o).writers = d.writers := (rfl)
@[simp] theorem Chip.emit_rgns (d : Chip) (o : Out) : (d.emit o).rgns = d.rgns := (rfl)
@[simp] theorem Chip.emit_combs (d : Chip) (o : Out) : (d.emit o).combs = d.combs := (rfl)
@[simp] theorem Chip.emit_cmps (d : Chip) (o : Out) : (d.emit o).cmps = d.cmps := (rfl)
@[simp] theorem Chip.emit_lines (d : Chip) (o : Out) : (d.emit o).lines = d.lines := (rfl)
@[simp] theorem Chip.emit_mats (d : Chip) (o : Out) : (d.emit o).mats = d.mats := (rfl)
@[simp] theorem Chip.emit_yard (d : Chip) (o : Out) : (d.emit o).yard = d.yard := (rfl)
@[simp] theorem Chip.emit_hbm (d : Chip) (o : Out) : (d.emit o).hbm = d.hbm := (rfl)
@[simp] theorem Chip.emit_defts (d : Chip) (o : Out) : (d.emit o).defts = d.defts := (rfl)
@[simp] theorem Chip.emit_paths (d : Chip) (o : Out) : (d.emit o).paths = d.paths := (rfl)
@[simp] theorem Chip.emit_mons (d : Chip) (o : Out) : (d.emit o).mons = d.mons := (rfl)
@[simp] theorem Chip.emit_groups (d : Chip) (o : Out) : (d.emit o).groups = d.groups := (rfl)
@[simp] theorem Chip.emit_dsks (d : Chip) (o : Out) : (d.emit o).dsks = d.dsks := (rfl)
@[simp] theorem Chip.emit_traces (d : Chip) (o : Out) : (d.emit o).traces = d.traces := (rfl)
@[simp] theorem Chip.emit_ohps (d : Chip) (o : Out) : (d.emit o).ohps = d.ohps := (rfl)
@[simp] theorem Chip.emit_ctxs (d : Chip) (o : Out) : (d.emit o).ctxs = d.ctxs := (rfl)
@[simp] theorem Chip.emit_pats (d : Chip) (o : Out) : (d.emit o).pats = d.pats := (rfl)
@[simp] theorem Chip.emit_engRdy (d : Chip) (o : Out) : (d.emit o).engRdy = d.engRdy := (rfl)
@[simp] theorem Chip.emit_ledger (d : Chip) (o : Out) : (d.emit o).ledger = d.ledger := (rfl)
@[simp] theorem Chip.emit_tim (d : Chip) (o : Out) : (d.emit o).tim = d.tim := (rfl)
@[simp] theorem Chip.emit_tps (d : Chip) (o : Out) : (d.emit o).tps = d.tps := (rfl)
@[simp] theorem Chip.emit_host (d : Chip) (o : Out) : (d.emit o).host = d.host := (rfl)
@[simp] theorem Chip.emit_sec (d : Chip) (o : Out) : (d.emit o).sec = d.sec := (rfl)
@[simp] theorem Chip.emit_pav (d : Chip) (o : Out) : (d.emit o).pav = d.pav := (rfl)
@[simp] theorem Chip.emit_gth (d : Chip) (o : Out) : (d.emit o).gth = d.gth := (rfl)
@[simp] theorem Chip.emit_tdm (d : Chip) (o : Out) : (d.emit o).tdm = d.tdm := (rfl)
@[simp] theorem Chip.emit_svc (d : Chip) (o : Out) : (d.emit o).svc = d.svc := (rfl)
@[simp] theorem Chip.emit_pwr (d : Chip) (o : Out) : (d.emit o).pwr = d.pwr := (rfl)

/-! ## Chip.setHost -/

@[simp] theorem Chip.setHost_core (d : Chip) (x : HostP) : (d.setHost x).core = d.core := (rfl)
@[simp] theorem Chip.setHost_dt (d : Chip) (x : HostP) : (d.setHost x).dt = d.dt := (rfl)
@[simp] theorem Chip.setHost_free (d : Chip) (x : HostP) : (d.setHost x).free = d.free := (rfl)
@[simp] theorem Chip.setHost_out (d : Chip) (x : HostP) : (d.setHost x).out = d.out := (rfl)
@[simp] theorem Chip.setHost_regs (d : Chip) (x : HostP) : (d.setHost x).regs = d.regs := (rfl)
@[simp] theorem Chip.setHost_log (d : Chip) (x : HostP) : (d.setHost x).log = d.log := (rfl)
@[simp] theorem Chip.setHost_lanes (d : Chip) (x : HostP) : (d.setHost x).lanes = d.lanes := (rfl)
@[simp] theorem Chip.setHost_mmbs (d : Chip) (x : HostP) : (d.setHost x).mmbs = d.mmbs := (rfl)
@[simp] theorem Chip.setHost_cals (d : Chip) (x : HostP) : (d.setHost x).cals = d.cals := (rfl)
@[simp] theorem Chip.setHost_hunters (d : Chip) (x : HostP) : (d.setHost x).hunters = d.hunters := (rfl)
@[simp] theorem Chip.setHost_caps (d : Chip) (x : HostP) : (d.setHost x).caps = d.caps := (rfl)
@[simp] theorem Chip.setHost_writers (d : Chip) (x : HostP) : (d.setHost x).writers = d.writers := (rfl)
@[simp] theorem Chip.setHost_rgns (d : Chip) (x : HostP) : (d.setHost x).rgns = d.rgns := (rfl)
@[simp] theorem Chip.setHost_combs (d : Chip) (x : HostP) : (d.setHost x).combs = d.combs := (rfl)
@[simp] theorem Chip.setHost_cmps (d : Chip) (x : HostP) : (d.setHost x).cmps = d.cmps := (rfl)
@[simp] theorem Chip.setHost_lines (d : Chip) (x : HostP) : (d.setHost x).lines = d.lines := (rfl)
@[simp] theorem Chip.setHost_mats (d : Chip) (x : HostP) : (d.setHost x).mats = d.mats := (rfl)
@[simp] theorem Chip.setHost_yard (d : Chip) (x : HostP) : (d.setHost x).yard = d.yard := (rfl)
@[simp] theorem Chip.setHost_hbm (d : Chip) (x : HostP) : (d.setHost x).hbm = d.hbm := (rfl)
@[simp] theorem Chip.setHost_defts (d : Chip) (x : HostP) : (d.setHost x).defts = d.defts := (rfl)
@[simp] theorem Chip.setHost_paths (d : Chip) (x : HostP) : (d.setHost x).paths = d.paths := (rfl)
@[simp] theorem Chip.setHost_mons (d : Chip) (x : HostP) : (d.setHost x).mons = d.mons := (rfl)
@[simp] theorem Chip.setHost_groups (d : Chip) (x : HostP) : (d.setHost x).groups = d.groups := (rfl)
@[simp] theorem Chip.setHost_dsks (d : Chip) (x : HostP) : (d.setHost x).dsks = d.dsks := (rfl)
@[simp] theorem Chip.setHost_traces (d : Chip) (x : HostP) : (d.setHost x).traces = d.traces := (rfl)
@[simp] theorem Chip.setHost_ohps (d : Chip) (x : HostP) : (d.setHost x).ohps = d.ohps := (rfl)
@[simp] theorem Chip.setHost_ctxs (d : Chip) (x : HostP) : (d.setHost x).ctxs = d.ctxs := (rfl)
@[simp] theorem Chip.setHost_pats (d : Chip) (x : HostP) : (d.setHost x).pats = d.pats := (rfl)
@[simp] theorem Chip.setHost_engRdy (d : Chip) (x : HostP) : (d.setHost x).engRdy = d.engRdy := (rfl)
@[simp] theorem Chip.setHost_ledger (d : Chip) (x : HostP) : (d.setHost x).ledger = d.ledger := (rfl)
@[simp] theorem Chip.setHost_tim (d : Chip) (x : HostP) : (d.setHost x).tim = d.tim := (rfl)
@[simp] theorem Chip.setHost_tps (d : Chip) (x : HostP) : (d.setHost x).tps = d.tps := (rfl)
@[simp] theorem Chip.setHost_host (d : Chip) (x : HostP) : (d.setHost x).host = x := (rfl)
@[simp] theorem Chip.setHost_sec (d : Chip) (x : HostP) : (d.setHost x).sec = d.sec := (rfl)
@[simp] theorem Chip.setHost_pav (d : Chip) (x : HostP) : (d.setHost x).pav = d.pav := (rfl)
@[simp] theorem Chip.setHost_gth (d : Chip) (x : HostP) : (d.setHost x).gth = d.gth := (rfl)
@[simp] theorem Chip.setHost_tdm (d : Chip) (x : HostP) : (d.setHost x).tdm = d.tdm := (rfl)
@[simp] theorem Chip.setHost_svc (d : Chip) (x : HostP) : (d.setHost x).svc = d.svc := (rfl)
@[simp] theorem Chip.setHost_pwr (d : Chip) (x : HostP) : (d.setHost x).pwr = d.pwr := (rfl)

/-! ## Chip.setPav -/

@[simp] theorem Chip.setPav_core (d : Chip) (x : Pav) : (d.setPav x).core = d.core := (rfl)
@[simp] theorem Chip.setPav_dt (d : Chip) (x : Pav) : (d.setPav x).dt = d.dt := (rfl)
@[simp] theorem Chip.setPav_free (d : Chip) (x : Pav) : (d.setPav x).free = d.free := (rfl)
@[simp] theorem Chip.setPav_out (d : Chip) (x : Pav) : (d.setPav x).out = d.out := (rfl)
@[simp] theorem Chip.setPav_regs (d : Chip) (x : Pav) : (d.setPav x).regs = d.regs := (rfl)
@[simp] theorem Chip.setPav_log (d : Chip) (x : Pav) : (d.setPav x).log = d.log := (rfl)
@[simp] theorem Chip.setPav_lanes (d : Chip) (x : Pav) : (d.setPav x).lanes = d.lanes := (rfl)
@[simp] theorem Chip.setPav_mmbs (d : Chip) (x : Pav) : (d.setPav x).mmbs = d.mmbs := (rfl)
@[simp] theorem Chip.setPav_cals (d : Chip) (x : Pav) : (d.setPav x).cals = d.cals := (rfl)
@[simp] theorem Chip.setPav_hunters (d : Chip) (x : Pav) : (d.setPav x).hunters = d.hunters := (rfl)
@[simp] theorem Chip.setPav_caps (d : Chip) (x : Pav) : (d.setPav x).caps = d.caps := (rfl)
@[simp] theorem Chip.setPav_writers (d : Chip) (x : Pav) : (d.setPav x).writers = d.writers := (rfl)
@[simp] theorem Chip.setPav_rgns (d : Chip) (x : Pav) : (d.setPav x).rgns = d.rgns := (rfl)
@[simp] theorem Chip.setPav_combs (d : Chip) (x : Pav) : (d.setPav x).combs = d.combs := (rfl)
@[simp] theorem Chip.setPav_cmps (d : Chip) (x : Pav) : (d.setPav x).cmps = d.cmps := (rfl)
@[simp] theorem Chip.setPav_lines (d : Chip) (x : Pav) : (d.setPav x).lines = d.lines := (rfl)
@[simp] theorem Chip.setPav_mats (d : Chip) (x : Pav) : (d.setPav x).mats = d.mats := (rfl)
@[simp] theorem Chip.setPav_yard (d : Chip) (x : Pav) : (d.setPav x).yard = d.yard := (rfl)
@[simp] theorem Chip.setPav_hbm (d : Chip) (x : Pav) : (d.setPav x).hbm = d.hbm := (rfl)
@[simp] theorem Chip.setPav_defts (d : Chip) (x : Pav) : (d.setPav x).defts = d.defts := (rfl)
@[simp] theorem Chip.setPav_paths (d : Chip) (x : Pav) : (d.setPav x).paths = d.paths := (rfl)
@[simp] theorem Chip.setPav_mons (d : Chip) (x : Pav) : (d.setPav x).mons = d.mons := (rfl)
@[simp] theorem Chip.setPav_groups (d : Chip) (x : Pav) : (d.setPav x).groups = d.groups := (rfl)
@[simp] theorem Chip.setPav_dsks (d : Chip) (x : Pav) : (d.setPav x).dsks = d.dsks := (rfl)
@[simp] theorem Chip.setPav_traces (d : Chip) (x : Pav) : (d.setPav x).traces = d.traces := (rfl)
@[simp] theorem Chip.setPav_ohps (d : Chip) (x : Pav) : (d.setPav x).ohps = d.ohps := (rfl)
@[simp] theorem Chip.setPav_ctxs (d : Chip) (x : Pav) : (d.setPav x).ctxs = d.ctxs := (rfl)
@[simp] theorem Chip.setPav_pats (d : Chip) (x : Pav) : (d.setPav x).pats = d.pats := (rfl)
@[simp] theorem Chip.setPav_engRdy (d : Chip) (x : Pav) : (d.setPav x).engRdy = d.engRdy := (rfl)
@[simp] theorem Chip.setPav_ledger (d : Chip) (x : Pav) : (d.setPav x).ledger = d.ledger := (rfl)
@[simp] theorem Chip.setPav_tim (d : Chip) (x : Pav) : (d.setPav x).tim = d.tim := (rfl)
@[simp] theorem Chip.setPav_tps (d : Chip) (x : Pav) : (d.setPav x).tps = d.tps := (rfl)
@[simp] theorem Chip.setPav_host (d : Chip) (x : Pav) : (d.setPav x).host = d.host := (rfl)
@[simp] theorem Chip.setPav_sec (d : Chip) (x : Pav) : (d.setPav x).sec = d.sec := (rfl)
@[simp] theorem Chip.setPav_pav (d : Chip) (x : Pav) : (d.setPav x).pav = x := (rfl)
@[simp] theorem Chip.setPav_gth (d : Chip) (x : Pav) : (d.setPav x).gth = d.gth := (rfl)
@[simp] theorem Chip.setPav_tdm (d : Chip) (x : Pav) : (d.setPav x).tdm = d.tdm := (rfl)
@[simp] theorem Chip.setPav_svc (d : Chip) (x : Pav) : (d.setPav x).svc = d.svc := (rfl)
@[simp] theorem Chip.setPav_pwr (d : Chip) (x : Pav) : (d.setPav x).pwr = d.pwr := (rfl)

/-! ## Chip.setGth -/

@[simp] theorem Chip.setGth_core (d : Chip) (x : Gth) : (d.setGth x).core = d.core := (rfl)
@[simp] theorem Chip.setGth_dt (d : Chip) (x : Gth) : (d.setGth x).dt = d.dt := (rfl)
@[simp] theorem Chip.setGth_free (d : Chip) (x : Gth) : (d.setGth x).free = d.free := (rfl)
@[simp] theorem Chip.setGth_out (d : Chip) (x : Gth) : (d.setGth x).out = d.out := (rfl)
@[simp] theorem Chip.setGth_regs (d : Chip) (x : Gth) : (d.setGth x).regs = d.regs := (rfl)
@[simp] theorem Chip.setGth_log (d : Chip) (x : Gth) : (d.setGth x).log = d.log := (rfl)
@[simp] theorem Chip.setGth_lanes (d : Chip) (x : Gth) : (d.setGth x).lanes = d.lanes := (rfl)
@[simp] theorem Chip.setGth_mmbs (d : Chip) (x : Gth) : (d.setGth x).mmbs = d.mmbs := (rfl)
@[simp] theorem Chip.setGth_cals (d : Chip) (x : Gth) : (d.setGth x).cals = d.cals := (rfl)
@[simp] theorem Chip.setGth_hunters (d : Chip) (x : Gth) : (d.setGth x).hunters = d.hunters := (rfl)
@[simp] theorem Chip.setGth_caps (d : Chip) (x : Gth) : (d.setGth x).caps = d.caps := (rfl)
@[simp] theorem Chip.setGth_writers (d : Chip) (x : Gth) : (d.setGth x).writers = d.writers := (rfl)
@[simp] theorem Chip.setGth_rgns (d : Chip) (x : Gth) : (d.setGth x).rgns = d.rgns := (rfl)
@[simp] theorem Chip.setGth_combs (d : Chip) (x : Gth) : (d.setGth x).combs = d.combs := (rfl)
@[simp] theorem Chip.setGth_cmps (d : Chip) (x : Gth) : (d.setGth x).cmps = d.cmps := (rfl)
@[simp] theorem Chip.setGth_lines (d : Chip) (x : Gth) : (d.setGth x).lines = d.lines := (rfl)
@[simp] theorem Chip.setGth_mats (d : Chip) (x : Gth) : (d.setGth x).mats = d.mats := (rfl)
@[simp] theorem Chip.setGth_yard (d : Chip) (x : Gth) : (d.setGth x).yard = d.yard := (rfl)
@[simp] theorem Chip.setGth_hbm (d : Chip) (x : Gth) : (d.setGth x).hbm = d.hbm := (rfl)
@[simp] theorem Chip.setGth_defts (d : Chip) (x : Gth) : (d.setGth x).defts = d.defts := (rfl)
@[simp] theorem Chip.setGth_paths (d : Chip) (x : Gth) : (d.setGth x).paths = d.paths := (rfl)
@[simp] theorem Chip.setGth_mons (d : Chip) (x : Gth) : (d.setGth x).mons = d.mons := (rfl)
@[simp] theorem Chip.setGth_groups (d : Chip) (x : Gth) : (d.setGth x).groups = d.groups := (rfl)
@[simp] theorem Chip.setGth_dsks (d : Chip) (x : Gth) : (d.setGth x).dsks = d.dsks := (rfl)
@[simp] theorem Chip.setGth_traces (d : Chip) (x : Gth) : (d.setGth x).traces = d.traces := (rfl)
@[simp] theorem Chip.setGth_ohps (d : Chip) (x : Gth) : (d.setGth x).ohps = d.ohps := (rfl)
@[simp] theorem Chip.setGth_ctxs (d : Chip) (x : Gth) : (d.setGth x).ctxs = d.ctxs := (rfl)
@[simp] theorem Chip.setGth_pats (d : Chip) (x : Gth) : (d.setGth x).pats = d.pats := (rfl)
@[simp] theorem Chip.setGth_engRdy (d : Chip) (x : Gth) : (d.setGth x).engRdy = d.engRdy := (rfl)
@[simp] theorem Chip.setGth_ledger (d : Chip) (x : Gth) : (d.setGth x).ledger = d.ledger := (rfl)
@[simp] theorem Chip.setGth_tim (d : Chip) (x : Gth) : (d.setGth x).tim = d.tim := (rfl)
@[simp] theorem Chip.setGth_tps (d : Chip) (x : Gth) : (d.setGth x).tps = d.tps := (rfl)
@[simp] theorem Chip.setGth_host (d : Chip) (x : Gth) : (d.setGth x).host = d.host := (rfl)
@[simp] theorem Chip.setGth_sec (d : Chip) (x : Gth) : (d.setGth x).sec = d.sec := (rfl)
@[simp] theorem Chip.setGth_pav (d : Chip) (x : Gth) : (d.setGth x).pav = d.pav := (rfl)
@[simp] theorem Chip.setGth_gth (d : Chip) (x : Gth) : (d.setGth x).gth = x := (rfl)
@[simp] theorem Chip.setGth_tdm (d : Chip) (x : Gth) : (d.setGth x).tdm = d.tdm := (rfl)
@[simp] theorem Chip.setGth_svc (d : Chip) (x : Gth) : (d.setGth x).svc = d.svc := (rfl)
@[simp] theorem Chip.setGth_pwr (d : Chip) (x : Gth) : (d.setGth x).pwr = d.pwr := (rfl)

/-! ## Chip.setTdm -/

@[simp] theorem Chip.setTdm_core (d : Chip) (x : Tdm) : (d.setTdm x).core = d.core := (rfl)
@[simp] theorem Chip.setTdm_dt (d : Chip) (x : Tdm) : (d.setTdm x).dt = d.dt := (rfl)
@[simp] theorem Chip.setTdm_free (d : Chip) (x : Tdm) : (d.setTdm x).free = d.free := (rfl)
@[simp] theorem Chip.setTdm_out (d : Chip) (x : Tdm) : (d.setTdm x).out = d.out := (rfl)
@[simp] theorem Chip.setTdm_regs (d : Chip) (x : Tdm) : (d.setTdm x).regs = d.regs := (rfl)
@[simp] theorem Chip.setTdm_log (d : Chip) (x : Tdm) : (d.setTdm x).log = d.log := (rfl)
@[simp] theorem Chip.setTdm_lanes (d : Chip) (x : Tdm) : (d.setTdm x).lanes = d.lanes := (rfl)
@[simp] theorem Chip.setTdm_mmbs (d : Chip) (x : Tdm) : (d.setTdm x).mmbs = d.mmbs := (rfl)
@[simp] theorem Chip.setTdm_cals (d : Chip) (x : Tdm) : (d.setTdm x).cals = d.cals := (rfl)
@[simp] theorem Chip.setTdm_hunters (d : Chip) (x : Tdm) : (d.setTdm x).hunters = d.hunters := (rfl)
@[simp] theorem Chip.setTdm_caps (d : Chip) (x : Tdm) : (d.setTdm x).caps = d.caps := (rfl)
@[simp] theorem Chip.setTdm_writers (d : Chip) (x : Tdm) : (d.setTdm x).writers = d.writers := (rfl)
@[simp] theorem Chip.setTdm_rgns (d : Chip) (x : Tdm) : (d.setTdm x).rgns = d.rgns := (rfl)
@[simp] theorem Chip.setTdm_combs (d : Chip) (x : Tdm) : (d.setTdm x).combs = d.combs := (rfl)
@[simp] theorem Chip.setTdm_cmps (d : Chip) (x : Tdm) : (d.setTdm x).cmps = d.cmps := (rfl)
@[simp] theorem Chip.setTdm_lines (d : Chip) (x : Tdm) : (d.setTdm x).lines = d.lines := (rfl)
@[simp] theorem Chip.setTdm_mats (d : Chip) (x : Tdm) : (d.setTdm x).mats = d.mats := (rfl)
@[simp] theorem Chip.setTdm_yard (d : Chip) (x : Tdm) : (d.setTdm x).yard = d.yard := (rfl)
@[simp] theorem Chip.setTdm_hbm (d : Chip) (x : Tdm) : (d.setTdm x).hbm = d.hbm := (rfl)
@[simp] theorem Chip.setTdm_defts (d : Chip) (x : Tdm) : (d.setTdm x).defts = d.defts := (rfl)
@[simp] theorem Chip.setTdm_paths (d : Chip) (x : Tdm) : (d.setTdm x).paths = d.paths := (rfl)
@[simp] theorem Chip.setTdm_mons (d : Chip) (x : Tdm) : (d.setTdm x).mons = d.mons := (rfl)
@[simp] theorem Chip.setTdm_groups (d : Chip) (x : Tdm) : (d.setTdm x).groups = d.groups := (rfl)
@[simp] theorem Chip.setTdm_dsks (d : Chip) (x : Tdm) : (d.setTdm x).dsks = d.dsks := (rfl)
@[simp] theorem Chip.setTdm_traces (d : Chip) (x : Tdm) : (d.setTdm x).traces = d.traces := (rfl)
@[simp] theorem Chip.setTdm_ohps (d : Chip) (x : Tdm) : (d.setTdm x).ohps = d.ohps := (rfl)
@[simp] theorem Chip.setTdm_ctxs (d : Chip) (x : Tdm) : (d.setTdm x).ctxs = d.ctxs := (rfl)
@[simp] theorem Chip.setTdm_pats (d : Chip) (x : Tdm) : (d.setTdm x).pats = d.pats := (rfl)
@[simp] theorem Chip.setTdm_engRdy (d : Chip) (x : Tdm) : (d.setTdm x).engRdy = d.engRdy := (rfl)
@[simp] theorem Chip.setTdm_ledger (d : Chip) (x : Tdm) : (d.setTdm x).ledger = d.ledger := (rfl)
@[simp] theorem Chip.setTdm_tim (d : Chip) (x : Tdm) : (d.setTdm x).tim = d.tim := (rfl)
@[simp] theorem Chip.setTdm_tps (d : Chip) (x : Tdm) : (d.setTdm x).tps = d.tps := (rfl)
@[simp] theorem Chip.setTdm_host (d : Chip) (x : Tdm) : (d.setTdm x).host = d.host := (rfl)
@[simp] theorem Chip.setTdm_sec (d : Chip) (x : Tdm) : (d.setTdm x).sec = d.sec := (rfl)
@[simp] theorem Chip.setTdm_pav (d : Chip) (x : Tdm) : (d.setTdm x).pav = d.pav := (rfl)
@[simp] theorem Chip.setTdm_gth (d : Chip) (x : Tdm) : (d.setTdm x).gth = d.gth := (rfl)
@[simp] theorem Chip.setTdm_tdm (d : Chip) (x : Tdm) : (d.setTdm x).tdm = x := (rfl)
@[simp] theorem Chip.setTdm_svc (d : Chip) (x : Tdm) : (d.setTdm x).svc = d.svc := (rfl)
@[simp] theorem Chip.setTdm_pwr (d : Chip) (x : Tdm) : (d.setTdm x).pwr = d.pwr := (rfl)

/-! ## Chip.setSvc -/

@[simp] theorem Chip.setSvc_core (d : Chip) (x : Svc) : (d.setSvc x).core = d.core := (rfl)
@[simp] theorem Chip.setSvc_dt (d : Chip) (x : Svc) : (d.setSvc x).dt = d.dt := (rfl)
@[simp] theorem Chip.setSvc_free (d : Chip) (x : Svc) : (d.setSvc x).free = d.free := (rfl)
@[simp] theorem Chip.setSvc_out (d : Chip) (x : Svc) : (d.setSvc x).out = d.out := (rfl)
@[simp] theorem Chip.setSvc_regs (d : Chip) (x : Svc) : (d.setSvc x).regs = d.regs := (rfl)
@[simp] theorem Chip.setSvc_log (d : Chip) (x : Svc) : (d.setSvc x).log = d.log := (rfl)
@[simp] theorem Chip.setSvc_lanes (d : Chip) (x : Svc) : (d.setSvc x).lanes = d.lanes := (rfl)
@[simp] theorem Chip.setSvc_mmbs (d : Chip) (x : Svc) : (d.setSvc x).mmbs = d.mmbs := (rfl)
@[simp] theorem Chip.setSvc_cals (d : Chip) (x : Svc) : (d.setSvc x).cals = d.cals := (rfl)
@[simp] theorem Chip.setSvc_hunters (d : Chip) (x : Svc) : (d.setSvc x).hunters = d.hunters := (rfl)
@[simp] theorem Chip.setSvc_caps (d : Chip) (x : Svc) : (d.setSvc x).caps = d.caps := (rfl)
@[simp] theorem Chip.setSvc_writers (d : Chip) (x : Svc) : (d.setSvc x).writers = d.writers := (rfl)
@[simp] theorem Chip.setSvc_rgns (d : Chip) (x : Svc) : (d.setSvc x).rgns = d.rgns := (rfl)
@[simp] theorem Chip.setSvc_combs (d : Chip) (x : Svc) : (d.setSvc x).combs = d.combs := (rfl)
@[simp] theorem Chip.setSvc_cmps (d : Chip) (x : Svc) : (d.setSvc x).cmps = d.cmps := (rfl)
@[simp] theorem Chip.setSvc_lines (d : Chip) (x : Svc) : (d.setSvc x).lines = d.lines := (rfl)
@[simp] theorem Chip.setSvc_mats (d : Chip) (x : Svc) : (d.setSvc x).mats = d.mats := (rfl)
@[simp] theorem Chip.setSvc_yard (d : Chip) (x : Svc) : (d.setSvc x).yard = d.yard := (rfl)
@[simp] theorem Chip.setSvc_hbm (d : Chip) (x : Svc) : (d.setSvc x).hbm = d.hbm := (rfl)
@[simp] theorem Chip.setSvc_defts (d : Chip) (x : Svc) : (d.setSvc x).defts = d.defts := (rfl)
@[simp] theorem Chip.setSvc_paths (d : Chip) (x : Svc) : (d.setSvc x).paths = d.paths := (rfl)
@[simp] theorem Chip.setSvc_mons (d : Chip) (x : Svc) : (d.setSvc x).mons = d.mons := (rfl)
@[simp] theorem Chip.setSvc_groups (d : Chip) (x : Svc) : (d.setSvc x).groups = d.groups := (rfl)
@[simp] theorem Chip.setSvc_dsks (d : Chip) (x : Svc) : (d.setSvc x).dsks = d.dsks := (rfl)
@[simp] theorem Chip.setSvc_traces (d : Chip) (x : Svc) : (d.setSvc x).traces = d.traces := (rfl)
@[simp] theorem Chip.setSvc_ohps (d : Chip) (x : Svc) : (d.setSvc x).ohps = d.ohps := (rfl)
@[simp] theorem Chip.setSvc_ctxs (d : Chip) (x : Svc) : (d.setSvc x).ctxs = d.ctxs := (rfl)
@[simp] theorem Chip.setSvc_pats (d : Chip) (x : Svc) : (d.setSvc x).pats = d.pats := (rfl)
@[simp] theorem Chip.setSvc_engRdy (d : Chip) (x : Svc) : (d.setSvc x).engRdy = d.engRdy := (rfl)
@[simp] theorem Chip.setSvc_ledger (d : Chip) (x : Svc) : (d.setSvc x).ledger = d.ledger := (rfl)
@[simp] theorem Chip.setSvc_tim (d : Chip) (x : Svc) : (d.setSvc x).tim = d.tim := (rfl)
@[simp] theorem Chip.setSvc_tps (d : Chip) (x : Svc) : (d.setSvc x).tps = d.tps := (rfl)
@[simp] theorem Chip.setSvc_host (d : Chip) (x : Svc) : (d.setSvc x).host = d.host := (rfl)
@[simp] theorem Chip.setSvc_sec (d : Chip) (x : Svc) : (d.setSvc x).sec = d.sec := (rfl)
@[simp] theorem Chip.setSvc_pav (d : Chip) (x : Svc) : (d.setSvc x).pav = d.pav := (rfl)
@[simp] theorem Chip.setSvc_gth (d : Chip) (x : Svc) : (d.setSvc x).gth = d.gth := (rfl)
@[simp] theorem Chip.setSvc_tdm (d : Chip) (x : Svc) : (d.setSvc x).tdm = d.tdm := (rfl)
@[simp] theorem Chip.setSvc_svc (d : Chip) (x : Svc) : (d.setSvc x).svc = x := (rfl)
@[simp] theorem Chip.setSvc_pwr (d : Chip) (x : Svc) : (d.setSvc x).pwr = d.pwr := (rfl)

/-! ## Chip.setSec -/

@[simp] theorem Chip.setSec_core (d : Chip) (x : Sec) : (d.setSec x).core = d.core := (rfl)
@[simp] theorem Chip.setSec_dt (d : Chip) (x : Sec) : (d.setSec x).dt = d.dt := (rfl)
@[simp] theorem Chip.setSec_free (d : Chip) (x : Sec) : (d.setSec x).free = d.free := (rfl)
@[simp] theorem Chip.setSec_out (d : Chip) (x : Sec) : (d.setSec x).out = d.out := (rfl)
@[simp] theorem Chip.setSec_regs (d : Chip) (x : Sec) : (d.setSec x).regs = d.regs := (rfl)
@[simp] theorem Chip.setSec_log (d : Chip) (x : Sec) : (d.setSec x).log = d.log := (rfl)
@[simp] theorem Chip.setSec_lanes (d : Chip) (x : Sec) : (d.setSec x).lanes = d.lanes := (rfl)
@[simp] theorem Chip.setSec_mmbs (d : Chip) (x : Sec) : (d.setSec x).mmbs = d.mmbs := (rfl)
@[simp] theorem Chip.setSec_cals (d : Chip) (x : Sec) : (d.setSec x).cals = d.cals := (rfl)
@[simp] theorem Chip.setSec_hunters (d : Chip) (x : Sec) : (d.setSec x).hunters = d.hunters := (rfl)
@[simp] theorem Chip.setSec_caps (d : Chip) (x : Sec) : (d.setSec x).caps = d.caps := (rfl)
@[simp] theorem Chip.setSec_writers (d : Chip) (x : Sec) : (d.setSec x).writers = d.writers := (rfl)
@[simp] theorem Chip.setSec_rgns (d : Chip) (x : Sec) : (d.setSec x).rgns = d.rgns := (rfl)
@[simp] theorem Chip.setSec_combs (d : Chip) (x : Sec) : (d.setSec x).combs = d.combs := (rfl)
@[simp] theorem Chip.setSec_cmps (d : Chip) (x : Sec) : (d.setSec x).cmps = d.cmps := (rfl)
@[simp] theorem Chip.setSec_lines (d : Chip) (x : Sec) : (d.setSec x).lines = d.lines := (rfl)
@[simp] theorem Chip.setSec_mats (d : Chip) (x : Sec) : (d.setSec x).mats = d.mats := (rfl)
@[simp] theorem Chip.setSec_yard (d : Chip) (x : Sec) : (d.setSec x).yard = d.yard := (rfl)
@[simp] theorem Chip.setSec_hbm (d : Chip) (x : Sec) : (d.setSec x).hbm = d.hbm := (rfl)
@[simp] theorem Chip.setSec_defts (d : Chip) (x : Sec) : (d.setSec x).defts = d.defts := (rfl)
@[simp] theorem Chip.setSec_paths (d : Chip) (x : Sec) : (d.setSec x).paths = d.paths := (rfl)
@[simp] theorem Chip.setSec_mons (d : Chip) (x : Sec) : (d.setSec x).mons = d.mons := (rfl)
@[simp] theorem Chip.setSec_groups (d : Chip) (x : Sec) : (d.setSec x).groups = d.groups := (rfl)
@[simp] theorem Chip.setSec_dsks (d : Chip) (x : Sec) : (d.setSec x).dsks = d.dsks := (rfl)
@[simp] theorem Chip.setSec_traces (d : Chip) (x : Sec) : (d.setSec x).traces = d.traces := (rfl)
@[simp] theorem Chip.setSec_ohps (d : Chip) (x : Sec) : (d.setSec x).ohps = d.ohps := (rfl)
@[simp] theorem Chip.setSec_ctxs (d : Chip) (x : Sec) : (d.setSec x).ctxs = d.ctxs := (rfl)
@[simp] theorem Chip.setSec_pats (d : Chip) (x : Sec) : (d.setSec x).pats = d.pats := (rfl)
@[simp] theorem Chip.setSec_engRdy (d : Chip) (x : Sec) : (d.setSec x).engRdy = d.engRdy := (rfl)
@[simp] theorem Chip.setSec_ledger (d : Chip) (x : Sec) : (d.setSec x).ledger = d.ledger := (rfl)
@[simp] theorem Chip.setSec_tim (d : Chip) (x : Sec) : (d.setSec x).tim = d.tim := (rfl)
@[simp] theorem Chip.setSec_tps (d : Chip) (x : Sec) : (d.setSec x).tps = d.tps := (rfl)
@[simp] theorem Chip.setSec_host (d : Chip) (x : Sec) : (d.setSec x).host = d.host := (rfl)
@[simp] theorem Chip.setSec_sec (d : Chip) (x : Sec) : (d.setSec x).sec = x := (rfl)
@[simp] theorem Chip.setSec_pav (d : Chip) (x : Sec) : (d.setSec x).pav = d.pav := (rfl)
@[simp] theorem Chip.setSec_gth (d : Chip) (x : Sec) : (d.setSec x).gth = d.gth := (rfl)
@[simp] theorem Chip.setSec_tdm (d : Chip) (x : Sec) : (d.setSec x).tdm = d.tdm := (rfl)
@[simp] theorem Chip.setSec_svc (d : Chip) (x : Sec) : (d.setSec x).svc = d.svc := (rfl)
@[simp] theorem Chip.setSec_pwr (d : Chip) (x : Sec) : (d.setSec x).pwr = d.pwr := (rfl)

/-! ## Chip.setPwr -/

@[simp] theorem Chip.setPwr_core (d : Chip) (x : Pwr) : (d.setPwr x).core = d.core := (rfl)
@[simp] theorem Chip.setPwr_dt (d : Chip) (x : Pwr) : (d.setPwr x).dt = d.dt := (rfl)
@[simp] theorem Chip.setPwr_free (d : Chip) (x : Pwr) : (d.setPwr x).free = d.free := (rfl)
@[simp] theorem Chip.setPwr_out (d : Chip) (x : Pwr) : (d.setPwr x).out = d.out := (rfl)
@[simp] theorem Chip.setPwr_regs (d : Chip) (x : Pwr) : (d.setPwr x).regs = d.regs := (rfl)
@[simp] theorem Chip.setPwr_log (d : Chip) (x : Pwr) : (d.setPwr x).log = d.log := (rfl)
@[simp] theorem Chip.setPwr_lanes (d : Chip) (x : Pwr) : (d.setPwr x).lanes = d.lanes := (rfl)
@[simp] theorem Chip.setPwr_mmbs (d : Chip) (x : Pwr) : (d.setPwr x).mmbs = d.mmbs := (rfl)
@[simp] theorem Chip.setPwr_cals (d : Chip) (x : Pwr) : (d.setPwr x).cals = d.cals := (rfl)
@[simp] theorem Chip.setPwr_hunters (d : Chip) (x : Pwr) : (d.setPwr x).hunters = d.hunters := (rfl)
@[simp] theorem Chip.setPwr_caps (d : Chip) (x : Pwr) : (d.setPwr x).caps = d.caps := (rfl)
@[simp] theorem Chip.setPwr_writers (d : Chip) (x : Pwr) : (d.setPwr x).writers = d.writers := (rfl)
@[simp] theorem Chip.setPwr_rgns (d : Chip) (x : Pwr) : (d.setPwr x).rgns = d.rgns := (rfl)
@[simp] theorem Chip.setPwr_combs (d : Chip) (x : Pwr) : (d.setPwr x).combs = d.combs := (rfl)
@[simp] theorem Chip.setPwr_cmps (d : Chip) (x : Pwr) : (d.setPwr x).cmps = d.cmps := (rfl)
@[simp] theorem Chip.setPwr_lines (d : Chip) (x : Pwr) : (d.setPwr x).lines = d.lines := (rfl)
@[simp] theorem Chip.setPwr_mats (d : Chip) (x : Pwr) : (d.setPwr x).mats = d.mats := (rfl)
@[simp] theorem Chip.setPwr_yard (d : Chip) (x : Pwr) : (d.setPwr x).yard = d.yard := (rfl)
@[simp] theorem Chip.setPwr_hbm (d : Chip) (x : Pwr) : (d.setPwr x).hbm = d.hbm := (rfl)
@[simp] theorem Chip.setPwr_defts (d : Chip) (x : Pwr) : (d.setPwr x).defts = d.defts := (rfl)
@[simp] theorem Chip.setPwr_paths (d : Chip) (x : Pwr) : (d.setPwr x).paths = d.paths := (rfl)
@[simp] theorem Chip.setPwr_mons (d : Chip) (x : Pwr) : (d.setPwr x).mons = d.mons := (rfl)
@[simp] theorem Chip.setPwr_groups (d : Chip) (x : Pwr) : (d.setPwr x).groups = d.groups := (rfl)
@[simp] theorem Chip.setPwr_dsks (d : Chip) (x : Pwr) : (d.setPwr x).dsks = d.dsks := (rfl)
@[simp] theorem Chip.setPwr_traces (d : Chip) (x : Pwr) : (d.setPwr x).traces = d.traces := (rfl)
@[simp] theorem Chip.setPwr_ohps (d : Chip) (x : Pwr) : (d.setPwr x).ohps = d.ohps := (rfl)
@[simp] theorem Chip.setPwr_ctxs (d : Chip) (x : Pwr) : (d.setPwr x).ctxs = d.ctxs := (rfl)
@[simp] theorem Chip.setPwr_pats (d : Chip) (x : Pwr) : (d.setPwr x).pats = d.pats := (rfl)
@[simp] theorem Chip.setPwr_engRdy (d : Chip) (x : Pwr) : (d.setPwr x).engRdy = d.engRdy := (rfl)
@[simp] theorem Chip.setPwr_ledger (d : Chip) (x : Pwr) : (d.setPwr x).ledger = d.ledger := (rfl)
@[simp] theorem Chip.setPwr_tim (d : Chip) (x : Pwr) : (d.setPwr x).tim = d.tim := (rfl)
@[simp] theorem Chip.setPwr_tps (d : Chip) (x : Pwr) : (d.setPwr x).tps = d.tps := (rfl)
@[simp] theorem Chip.setPwr_host (d : Chip) (x : Pwr) : (d.setPwr x).host = d.host := (rfl)
@[simp] theorem Chip.setPwr_sec (d : Chip) (x : Pwr) : (d.setPwr x).sec = d.sec := (rfl)
@[simp] theorem Chip.setPwr_pav (d : Chip) (x : Pwr) : (d.setPwr x).pav = d.pav := (rfl)
@[simp] theorem Chip.setPwr_gth (d : Chip) (x : Pwr) : (d.setPwr x).gth = d.gth := (rfl)
@[simp] theorem Chip.setPwr_tdm (d : Chip) (x : Pwr) : (d.setPwr x).tdm = d.tdm := (rfl)
@[simp] theorem Chip.setPwr_svc (d : Chip) (x : Pwr) : (d.setPwr x).svc = d.svc := (rfl)
@[simp] theorem Chip.setPwr_pwr (d : Chip) (x : Pwr) : (d.setPwr x).pwr = x := (rfl)

/-! ## Chip.setTim -/

@[simp] theorem Chip.setTim_core (d : Chip) (x : Tim) : (d.setTim x).core = d.core := (rfl)
@[simp] theorem Chip.setTim_dt (d : Chip) (x : Tim) : (d.setTim x).dt = d.dt := (rfl)
@[simp] theorem Chip.setTim_free (d : Chip) (x : Tim) : (d.setTim x).free = d.free := (rfl)
@[simp] theorem Chip.setTim_out (d : Chip) (x : Tim) : (d.setTim x).out = d.out := (rfl)
@[simp] theorem Chip.setTim_regs (d : Chip) (x : Tim) : (d.setTim x).regs = d.regs := (rfl)
@[simp] theorem Chip.setTim_log (d : Chip) (x : Tim) : (d.setTim x).log = d.log := (rfl)
@[simp] theorem Chip.setTim_lanes (d : Chip) (x : Tim) : (d.setTim x).lanes = d.lanes := (rfl)
@[simp] theorem Chip.setTim_mmbs (d : Chip) (x : Tim) : (d.setTim x).mmbs = d.mmbs := (rfl)
@[simp] theorem Chip.setTim_cals (d : Chip) (x : Tim) : (d.setTim x).cals = d.cals := (rfl)
@[simp] theorem Chip.setTim_hunters (d : Chip) (x : Tim) : (d.setTim x).hunters = d.hunters := (rfl)
@[simp] theorem Chip.setTim_caps (d : Chip) (x : Tim) : (d.setTim x).caps = d.caps := (rfl)
@[simp] theorem Chip.setTim_writers (d : Chip) (x : Tim) : (d.setTim x).writers = d.writers := (rfl)
@[simp] theorem Chip.setTim_rgns (d : Chip) (x : Tim) : (d.setTim x).rgns = d.rgns := (rfl)
@[simp] theorem Chip.setTim_combs (d : Chip) (x : Tim) : (d.setTim x).combs = d.combs := (rfl)
@[simp] theorem Chip.setTim_cmps (d : Chip) (x : Tim) : (d.setTim x).cmps = d.cmps := (rfl)
@[simp] theorem Chip.setTim_lines (d : Chip) (x : Tim) : (d.setTim x).lines = d.lines := (rfl)
@[simp] theorem Chip.setTim_mats (d : Chip) (x : Tim) : (d.setTim x).mats = d.mats := (rfl)
@[simp] theorem Chip.setTim_yard (d : Chip) (x : Tim) : (d.setTim x).yard = d.yard := (rfl)
@[simp] theorem Chip.setTim_hbm (d : Chip) (x : Tim) : (d.setTim x).hbm = d.hbm := (rfl)
@[simp] theorem Chip.setTim_defts (d : Chip) (x : Tim) : (d.setTim x).defts = d.defts := (rfl)
@[simp] theorem Chip.setTim_paths (d : Chip) (x : Tim) : (d.setTim x).paths = d.paths := (rfl)
@[simp] theorem Chip.setTim_mons (d : Chip) (x : Tim) : (d.setTim x).mons = d.mons := (rfl)
@[simp] theorem Chip.setTim_groups (d : Chip) (x : Tim) : (d.setTim x).groups = d.groups := (rfl)
@[simp] theorem Chip.setTim_dsks (d : Chip) (x : Tim) : (d.setTim x).dsks = d.dsks := (rfl)
@[simp] theorem Chip.setTim_traces (d : Chip) (x : Tim) : (d.setTim x).traces = d.traces := (rfl)
@[simp] theorem Chip.setTim_ohps (d : Chip) (x : Tim) : (d.setTim x).ohps = d.ohps := (rfl)
@[simp] theorem Chip.setTim_ctxs (d : Chip) (x : Tim) : (d.setTim x).ctxs = d.ctxs := (rfl)
@[simp] theorem Chip.setTim_pats (d : Chip) (x : Tim) : (d.setTim x).pats = d.pats := (rfl)
@[simp] theorem Chip.setTim_engRdy (d : Chip) (x : Tim) : (d.setTim x).engRdy = d.engRdy := (rfl)
@[simp] theorem Chip.setTim_ledger (d : Chip) (x : Tim) : (d.setTim x).ledger = d.ledger := (rfl)
@[simp] theorem Chip.setTim_tim (d : Chip) (x : Tim) : (d.setTim x).tim = x := (rfl)
@[simp] theorem Chip.setTim_tps (d : Chip) (x : Tim) : (d.setTim x).tps = d.tps := (rfl)
@[simp] theorem Chip.setTim_host (d : Chip) (x : Tim) : (d.setTim x).host = d.host := (rfl)
@[simp] theorem Chip.setTim_sec (d : Chip) (x : Tim) : (d.setTim x).sec = d.sec := (rfl)
@[simp] theorem Chip.setTim_pav (d : Chip) (x : Tim) : (d.setTim x).pav = d.pav := (rfl)
@[simp] theorem Chip.setTim_gth (d : Chip) (x : Tim) : (d.setTim x).gth = d.gth := (rfl)
@[simp] theorem Chip.setTim_tdm (d : Chip) (x : Tim) : (d.setTim x).tdm = d.tdm := (rfl)
@[simp] theorem Chip.setTim_svc (d : Chip) (x : Tim) : (d.setTim x).svc = d.svc := (rfl)
@[simp] theorem Chip.setTim_pwr (d : Chip) (x : Tim) : (d.setTim x).pwr = d.pwr := (rfl)

/-! ## Chip.setYard -/

@[simp] theorem Chip.setYard_core (d : Chip) (x : Yard) : (d.setYard x).core = d.core := (rfl)
@[simp] theorem Chip.setYard_dt (d : Chip) (x : Yard) : (d.setYard x).dt = d.dt := (rfl)
@[simp] theorem Chip.setYard_free (d : Chip) (x : Yard) : (d.setYard x).free = d.free := (rfl)
@[simp] theorem Chip.setYard_out (d : Chip) (x : Yard) : (d.setYard x).out = d.out := (rfl)
@[simp] theorem Chip.setYard_regs (d : Chip) (x : Yard) : (d.setYard x).regs = d.regs := (rfl)
@[simp] theorem Chip.setYard_log (d : Chip) (x : Yard) : (d.setYard x).log = d.log := (rfl)
@[simp] theorem Chip.setYard_lanes (d : Chip) (x : Yard) : (d.setYard x).lanes = d.lanes := (rfl)
@[simp] theorem Chip.setYard_mmbs (d : Chip) (x : Yard) : (d.setYard x).mmbs = d.mmbs := (rfl)
@[simp] theorem Chip.setYard_cals (d : Chip) (x : Yard) : (d.setYard x).cals = d.cals := (rfl)
@[simp] theorem Chip.setYard_hunters (d : Chip) (x : Yard) : (d.setYard x).hunters = d.hunters := (rfl)
@[simp] theorem Chip.setYard_caps (d : Chip) (x : Yard) : (d.setYard x).caps = d.caps := (rfl)
@[simp] theorem Chip.setYard_writers (d : Chip) (x : Yard) : (d.setYard x).writers = d.writers := (rfl)
@[simp] theorem Chip.setYard_rgns (d : Chip) (x : Yard) : (d.setYard x).rgns = d.rgns := (rfl)
@[simp] theorem Chip.setYard_combs (d : Chip) (x : Yard) : (d.setYard x).combs = d.combs := (rfl)
@[simp] theorem Chip.setYard_cmps (d : Chip) (x : Yard) : (d.setYard x).cmps = d.cmps := (rfl)
@[simp] theorem Chip.setYard_lines (d : Chip) (x : Yard) : (d.setYard x).lines = d.lines := (rfl)
@[simp] theorem Chip.setYard_mats (d : Chip) (x : Yard) : (d.setYard x).mats = d.mats := (rfl)
@[simp] theorem Chip.setYard_yard (d : Chip) (x : Yard) : (d.setYard x).yard = x := (rfl)
@[simp] theorem Chip.setYard_hbm (d : Chip) (x : Yard) : (d.setYard x).hbm = d.hbm := (rfl)
@[simp] theorem Chip.setYard_defts (d : Chip) (x : Yard) : (d.setYard x).defts = d.defts := (rfl)
@[simp] theorem Chip.setYard_paths (d : Chip) (x : Yard) : (d.setYard x).paths = d.paths := (rfl)
@[simp] theorem Chip.setYard_mons (d : Chip) (x : Yard) : (d.setYard x).mons = d.mons := (rfl)
@[simp] theorem Chip.setYard_groups (d : Chip) (x : Yard) : (d.setYard x).groups = d.groups := (rfl)
@[simp] theorem Chip.setYard_dsks (d : Chip) (x : Yard) : (d.setYard x).dsks = d.dsks := (rfl)
@[simp] theorem Chip.setYard_traces (d : Chip) (x : Yard) : (d.setYard x).traces = d.traces := (rfl)
@[simp] theorem Chip.setYard_ohps (d : Chip) (x : Yard) : (d.setYard x).ohps = d.ohps := (rfl)
@[simp] theorem Chip.setYard_ctxs (d : Chip) (x : Yard) : (d.setYard x).ctxs = d.ctxs := (rfl)
@[simp] theorem Chip.setYard_pats (d : Chip) (x : Yard) : (d.setYard x).pats = d.pats := (rfl)
@[simp] theorem Chip.setYard_engRdy (d : Chip) (x : Yard) : (d.setYard x).engRdy = d.engRdy := (rfl)
@[simp] theorem Chip.setYard_ledger (d : Chip) (x : Yard) : (d.setYard x).ledger = d.ledger := (rfl)
@[simp] theorem Chip.setYard_tim (d : Chip) (x : Yard) : (d.setYard x).tim = d.tim := (rfl)
@[simp] theorem Chip.setYard_tps (d : Chip) (x : Yard) : (d.setYard x).tps = d.tps := (rfl)
@[simp] theorem Chip.setYard_host (d : Chip) (x : Yard) : (d.setYard x).host = d.host := (rfl)
@[simp] theorem Chip.setYard_sec (d : Chip) (x : Yard) : (d.setYard x).sec = d.sec := (rfl)
@[simp] theorem Chip.setYard_pav (d : Chip) (x : Yard) : (d.setYard x).pav = d.pav := (rfl)
@[simp] theorem Chip.setYard_gth (d : Chip) (x : Yard) : (d.setYard x).gth = d.gth := (rfl)
@[simp] theorem Chip.setYard_tdm (d : Chip) (x : Yard) : (d.setYard x).tdm = d.tdm := (rfl)
@[simp] theorem Chip.setYard_svc (d : Chip) (x : Yard) : (d.setYard x).svc = d.svc := (rfl)
@[simp] theorem Chip.setYard_pwr (d : Chip) (x : Yard) : (d.setYard x).pwr = d.pwr := (rfl)

/-! ## Chip.setTp -/

@[simp] theorem Chip.setTp_core (d : Chip) (n : Nat) (x : Tp) : (d.setTp n x).core = d.core := (rfl)
@[simp] theorem Chip.setTp_dt (d : Chip) (n : Nat) (x : Tp) : (d.setTp n x).dt = d.dt := (rfl)
@[simp] theorem Chip.setTp_free (d : Chip) (n : Nat) (x : Tp) : (d.setTp n x).free = d.free := (rfl)
@[simp] theorem Chip.setTp_out (d : Chip) (n : Nat) (x : Tp) : (d.setTp n x).out = d.out := (rfl)
@[simp] theorem Chip.setTp_regs (d : Chip) (n : Nat) (x : Tp) : (d.setTp n x).regs = d.regs := (rfl)
@[simp] theorem Chip.setTp_log (d : Chip) (n : Nat) (x : Tp) : (d.setTp n x).log = d.log := (rfl)
@[simp] theorem Chip.setTp_lanes (d : Chip) (n : Nat) (x : Tp) : (d.setTp n x).lanes = d.lanes := (rfl)
@[simp] theorem Chip.setTp_mmbs (d : Chip) (n : Nat) (x : Tp) : (d.setTp n x).mmbs = d.mmbs := (rfl)
@[simp] theorem Chip.setTp_cals (d : Chip) (n : Nat) (x : Tp) : (d.setTp n x).cals = d.cals := (rfl)
@[simp] theorem Chip.setTp_hunters (d : Chip) (n : Nat) (x : Tp) : (d.setTp n x).hunters = d.hunters := (rfl)
@[simp] theorem Chip.setTp_caps (d : Chip) (n : Nat) (x : Tp) : (d.setTp n x).caps = d.caps := (rfl)
@[simp] theorem Chip.setTp_writers (d : Chip) (n : Nat) (x : Tp) : (d.setTp n x).writers = d.writers := (rfl)
@[simp] theorem Chip.setTp_rgns (d : Chip) (n : Nat) (x : Tp) : (d.setTp n x).rgns = d.rgns := (rfl)
@[simp] theorem Chip.setTp_combs (d : Chip) (n : Nat) (x : Tp) : (d.setTp n x).combs = d.combs := (rfl)
@[simp] theorem Chip.setTp_cmps (d : Chip) (n : Nat) (x : Tp) : (d.setTp n x).cmps = d.cmps := (rfl)
@[simp] theorem Chip.setTp_lines (d : Chip) (n : Nat) (x : Tp) : (d.setTp n x).lines = d.lines := (rfl)
@[simp] theorem Chip.setTp_mats (d : Chip) (n : Nat) (x : Tp) : (d.setTp n x).mats = d.mats := (rfl)
@[simp] theorem Chip.setTp_yard (d : Chip) (n : Nat) (x : Tp) : (d.setTp n x).yard = d.yard := (rfl)
@[simp] theorem Chip.setTp_hbm (d : Chip) (n : Nat) (x : Tp) : (d.setTp n x).hbm = d.hbm := (rfl)
@[simp] theorem Chip.setTp_defts (d : Chip) (n : Nat) (x : Tp) : (d.setTp n x).defts = d.defts := (rfl)
@[simp] theorem Chip.setTp_paths (d : Chip) (n : Nat) (x : Tp) : (d.setTp n x).paths = d.paths := (rfl)
@[simp] theorem Chip.setTp_mons (d : Chip) (n : Nat) (x : Tp) : (d.setTp n x).mons = d.mons := (rfl)
@[simp] theorem Chip.setTp_groups (d : Chip) (n : Nat) (x : Tp) : (d.setTp n x).groups = d.groups := (rfl)
@[simp] theorem Chip.setTp_dsks (d : Chip) (n : Nat) (x : Tp) : (d.setTp n x).dsks = d.dsks := (rfl)
@[simp] theorem Chip.setTp_traces (d : Chip) (n : Nat) (x : Tp) : (d.setTp n x).traces = d.traces := (rfl)
@[simp] theorem Chip.setTp_ohps (d : Chip) (n : Nat) (x : Tp) : (d.setTp n x).ohps = d.ohps := (rfl)
@[simp] theorem Chip.setTp_ctxs (d : Chip) (n : Nat) (x : Tp) : (d.setTp n x).ctxs = d.ctxs := (rfl)
@[simp] theorem Chip.setTp_pats (d : Chip) (n : Nat) (x : Tp) : (d.setTp n x).pats = d.pats := (rfl)
@[simp] theorem Chip.setTp_engRdy (d : Chip) (n : Nat) (x : Tp) : (d.setTp n x).engRdy = d.engRdy := (rfl)
@[simp] theorem Chip.setTp_ledger (d : Chip) (n : Nat) (x : Tp) : (d.setTp n x).ledger = d.ledger := (rfl)
@[simp] theorem Chip.setTp_tim (d : Chip) (n : Nat) (x : Tp) : (d.setTp n x).tim = d.tim := (rfl)
@[simp] theorem Chip.setTp_tps (d : Chip) (n : Nat) (x : Tp) : (d.setTp n x).tps = SMap.put Tp.init d.tps n x := (rfl)
@[simp] theorem Chip.setTp_host (d : Chip) (n : Nat) (x : Tp) : (d.setTp n x).host = d.host := (rfl)
@[simp] theorem Chip.setTp_sec (d : Chip) (n : Nat) (x : Tp) : (d.setTp n x).sec = d.sec := (rfl)
@[simp] theorem Chip.setTp_pav (d : Chip) (n : Nat) (x : Tp) : (d.setTp n x).pav = d.pav := (rfl)
@[simp] theorem Chip.setTp_gth (d : Chip) (n : Nat) (x : Tp) : (d.setTp n x).gth = d.gth := (rfl)
@[simp] theorem Chip.setTp_tdm (d : Chip) (n : Nat) (x : Tp) : (d.setTp n x).tdm = d.tdm := (rfl)
@[simp] theorem Chip.setTp_svc (d : Chip) (n : Nat) (x : Tp) : (d.setTp n x).svc = d.svc := (rfl)
@[simp] theorem Chip.setTp_pwr (d : Chip) (n : Nat) (x : Tp) : (d.setTp n x).pwr = d.pwr := (rfl)

/-! ## Chip.setStack -/

@[simp] theorem Chip.setStack_core (d : Chip) (n : Nat) (x : Stack) : (d.setStack n x).core = d.core := (rfl)
@[simp] theorem Chip.setStack_dt (d : Chip) (n : Nat) (x : Stack) : (d.setStack n x).dt = d.dt := (rfl)
@[simp] theorem Chip.setStack_free (d : Chip) (n : Nat) (x : Stack) : (d.setStack n x).free = d.free := (rfl)
@[simp] theorem Chip.setStack_out (d : Chip) (n : Nat) (x : Stack) : (d.setStack n x).out = d.out := (rfl)
@[simp] theorem Chip.setStack_regs (d : Chip) (n : Nat) (x : Stack) : (d.setStack n x).regs = d.regs := (rfl)
@[simp] theorem Chip.setStack_log (d : Chip) (n : Nat) (x : Stack) : (d.setStack n x).log = d.log := (rfl)
@[simp] theorem Chip.setStack_lanes (d : Chip) (n : Nat) (x : Stack) : (d.setStack n x).lanes = d.lanes := (rfl)
@[simp] theorem Chip.setStack_mmbs (d : Chip) (n : Nat) (x : Stack) : (d.setStack n x).mmbs = d.mmbs := (rfl)
@[simp] theorem Chip.setStack_cals (d : Chip) (n : Nat) (x : Stack) : (d.setStack n x).cals = d.cals := (rfl)
@[simp] theorem Chip.setStack_hunters (d : Chip) (n : Nat) (x : Stack) : (d.setStack n x).hunters = d.hunters := (rfl)
@[simp] theorem Chip.setStack_caps (d : Chip) (n : Nat) (x : Stack) : (d.setStack n x).caps = d.caps := (rfl)
@[simp] theorem Chip.setStack_writers (d : Chip) (n : Nat) (x : Stack) : (d.setStack n x).writers = d.writers := (rfl)
@[simp] theorem Chip.setStack_rgns (d : Chip) (n : Nat) (x : Stack) : (d.setStack n x).rgns = d.rgns := (rfl)
@[simp] theorem Chip.setStack_combs (d : Chip) (n : Nat) (x : Stack) : (d.setStack n x).combs = d.combs := (rfl)
@[simp] theorem Chip.setStack_cmps (d : Chip) (n : Nat) (x : Stack) : (d.setStack n x).cmps = d.cmps := (rfl)
@[simp] theorem Chip.setStack_lines (d : Chip) (n : Nat) (x : Stack) : (d.setStack n x).lines = d.lines := (rfl)
@[simp] theorem Chip.setStack_mats (d : Chip) (n : Nat) (x : Stack) : (d.setStack n x).mats = d.mats := (rfl)
@[simp] theorem Chip.setStack_yard (d : Chip) (n : Nat) (x : Stack) : (d.setStack n x).yard = d.yard := (rfl)
@[simp] theorem Chip.setStack_hbm (d : Chip) (n : Nat) (x : Stack) : (d.setStack n x).hbm = SMap.put Stack.init d.hbm n x := (rfl)
@[simp] theorem Chip.setStack_defts (d : Chip) (n : Nat) (x : Stack) : (d.setStack n x).defts = d.defts := (rfl)
@[simp] theorem Chip.setStack_paths (d : Chip) (n : Nat) (x : Stack) : (d.setStack n x).paths = d.paths := (rfl)
@[simp] theorem Chip.setStack_mons (d : Chip) (n : Nat) (x : Stack) : (d.setStack n x).mons = d.mons := (rfl)
@[simp] theorem Chip.setStack_groups (d : Chip) (n : Nat) (x : Stack) : (d.setStack n x).groups = d.groups := (rfl)
@[simp] theorem Chip.setStack_dsks (d : Chip) (n : Nat) (x : Stack) : (d.setStack n x).dsks = d.dsks := (rfl)
@[simp] theorem Chip.setStack_traces (d : Chip) (n : Nat) (x : Stack) : (d.setStack n x).traces = d.traces := (rfl)
@[simp] theorem Chip.setStack_ohps (d : Chip) (n : Nat) (x : Stack) : (d.setStack n x).ohps = d.ohps := (rfl)
@[simp] theorem Chip.setStack_ctxs (d : Chip) (n : Nat) (x : Stack) : (d.setStack n x).ctxs = d.ctxs := (rfl)
@[simp] theorem Chip.setStack_pats (d : Chip) (n : Nat) (x : Stack) : (d.setStack n x).pats = d.pats := (rfl)
@[simp] theorem Chip.setStack_engRdy (d : Chip) (n : Nat) (x : Stack) : (d.setStack n x).engRdy = d.engRdy := (rfl)
@[simp] theorem Chip.setStack_ledger (d : Chip) (n : Nat) (x : Stack) : (d.setStack n x).ledger = d.ledger := (rfl)
@[simp] theorem Chip.setStack_tim (d : Chip) (n : Nat) (x : Stack) : (d.setStack n x).tim = d.tim := (rfl)
@[simp] theorem Chip.setStack_tps (d : Chip) (n : Nat) (x : Stack) : (d.setStack n x).tps = d.tps := (rfl)
@[simp] theorem Chip.setStack_host (d : Chip) (n : Nat) (x : Stack) : (d.setStack n x).host = d.host := (rfl)
@[simp] theorem Chip.setStack_sec (d : Chip) (n : Nat) (x : Stack) : (d.setStack n x).sec = d.sec := (rfl)
@[simp] theorem Chip.setStack_pav (d : Chip) (n : Nat) (x : Stack) : (d.setStack n x).pav = d.pav := (rfl)
@[simp] theorem Chip.setStack_gth (d : Chip) (n : Nat) (x : Stack) : (d.setStack n x).gth = d.gth := (rfl)
@[simp] theorem Chip.setStack_tdm (d : Chip) (n : Nat) (x : Stack) : (d.setStack n x).tdm = d.tdm := (rfl)
@[simp] theorem Chip.setStack_svc (d : Chip) (n : Nat) (x : Stack) : (d.setStack n x).svc = d.svc := (rfl)
@[simp] theorem Chip.setStack_pwr (d : Chip) (n : Nat) (x : Stack) : (d.setStack n x).pwr = d.pwr := (rfl)

/-! ## Chip.setLane -/

@[simp] theorem Chip.setLane_core (d : Chip) (n : Nat) (x : Lane) : (d.setLane n x).core = d.core := (rfl)
@[simp] theorem Chip.setLane_dt (d : Chip) (n : Nat) (x : Lane) : (d.setLane n x).dt = d.dt := (rfl)
@[simp] theorem Chip.setLane_free (d : Chip) (n : Nat) (x : Lane) : (d.setLane n x).free = d.free := (rfl)
@[simp] theorem Chip.setLane_out (d : Chip) (n : Nat) (x : Lane) : (d.setLane n x).out = d.out := (rfl)
@[simp] theorem Chip.setLane_regs (d : Chip) (n : Nat) (x : Lane) : (d.setLane n x).regs = d.regs := (rfl)
@[simp] theorem Chip.setLane_log (d : Chip) (n : Nat) (x : Lane) : (d.setLane n x).log = d.log := (rfl)
@[simp] theorem Chip.setLane_lanes (d : Chip) (n : Nat) (x : Lane) : (d.setLane n x).lanes = SMap.put Lane.init d.lanes n x := (rfl)
@[simp] theorem Chip.setLane_mmbs (d : Chip) (n : Nat) (x : Lane) : (d.setLane n x).mmbs = d.mmbs := (rfl)
@[simp] theorem Chip.setLane_cals (d : Chip) (n : Nat) (x : Lane) : (d.setLane n x).cals = d.cals := (rfl)
@[simp] theorem Chip.setLane_hunters (d : Chip) (n : Nat) (x : Lane) : (d.setLane n x).hunters = d.hunters := (rfl)
@[simp] theorem Chip.setLane_caps (d : Chip) (n : Nat) (x : Lane) : (d.setLane n x).caps = d.caps := (rfl)
@[simp] theorem Chip.setLane_writers (d : Chip) (n : Nat) (x : Lane) : (d.setLane n x).writers = d.writers := (rfl)
@[simp] theorem Chip.setLane_rgns (d : Chip) (n : Nat) (x : Lane) : (d.setLane n x).rgns = d.rgns := (rfl)
@[simp] theorem Chip.setLane_combs (d : Chip) (n : Nat) (x : Lane) : (d.setLane n x).combs = d.combs := (rfl)
@[simp] theorem Chip.setLane_cmps (d : Chip) (n : Nat) (x : Lane) : (d.setLane n x).cmps = d.cmps := (rfl)
@[simp] theorem Chip.setLane_lines (d : Chip) (n : Nat) (x : Lane) : (d.setLane n x).lines = d.lines := (rfl)
@[simp] theorem Chip.setLane_mats (d : Chip) (n : Nat) (x : Lane) : (d.setLane n x).mats = d.mats := (rfl)
@[simp] theorem Chip.setLane_yard (d : Chip) (n : Nat) (x : Lane) : (d.setLane n x).yard = d.yard := (rfl)
@[simp] theorem Chip.setLane_hbm (d : Chip) (n : Nat) (x : Lane) : (d.setLane n x).hbm = d.hbm := (rfl)
@[simp] theorem Chip.setLane_defts (d : Chip) (n : Nat) (x : Lane) : (d.setLane n x).defts = d.defts := (rfl)
@[simp] theorem Chip.setLane_paths (d : Chip) (n : Nat) (x : Lane) : (d.setLane n x).paths = d.paths := (rfl)
@[simp] theorem Chip.setLane_mons (d : Chip) (n : Nat) (x : Lane) : (d.setLane n x).mons = d.mons := (rfl)
@[simp] theorem Chip.setLane_groups (d : Chip) (n : Nat) (x : Lane) : (d.setLane n x).groups = d.groups := (rfl)
@[simp] theorem Chip.setLane_dsks (d : Chip) (n : Nat) (x : Lane) : (d.setLane n x).dsks = d.dsks := (rfl)
@[simp] theorem Chip.setLane_traces (d : Chip) (n : Nat) (x : Lane) : (d.setLane n x).traces = d.traces := (rfl)
@[simp] theorem Chip.setLane_ohps (d : Chip) (n : Nat) (x : Lane) : (d.setLane n x).ohps = d.ohps := (rfl)
@[simp] theorem Chip.setLane_ctxs (d : Chip) (n : Nat) (x : Lane) : (d.setLane n x).ctxs = d.ctxs := (rfl)
@[simp] theorem Chip.setLane_pats (d : Chip) (n : Nat) (x : Lane) : (d.setLane n x).pats = d.pats := (rfl)
@[simp] theorem Chip.setLane_engRdy (d : Chip) (n : Nat) (x : Lane) : (d.setLane n x).engRdy = d.engRdy := (rfl)
@[simp] theorem Chip.setLane_ledger (d : Chip) (n : Nat) (x : Lane) : (d.setLane n x).ledger = d.ledger := (rfl)
@[simp] theorem Chip.setLane_tim (d : Chip) (n : Nat) (x : Lane) : (d.setLane n x).tim = d.tim := (rfl)
@[simp] theorem Chip.setLane_tps (d : Chip) (n : Nat) (x : Lane) : (d.setLane n x).tps = d.tps := (rfl)
@[simp] theorem Chip.setLane_host (d : Chip) (n : Nat) (x : Lane) : (d.setLane n x).host = d.host := (rfl)
@[simp] theorem Chip.setLane_sec (d : Chip) (n : Nat) (x : Lane) : (d.setLane n x).sec = d.sec := (rfl)
@[simp] theorem Chip.setLane_pav (d : Chip) (n : Nat) (x : Lane) : (d.setLane n x).pav = d.pav := (rfl)
@[simp] theorem Chip.setLane_gth (d : Chip) (n : Nat) (x : Lane) : (d.setLane n x).gth = d.gth := (rfl)
@[simp] theorem Chip.setLane_tdm (d : Chip) (n : Nat) (x : Lane) : (d.setLane n x).tdm = d.tdm := (rfl)
@[simp] theorem Chip.setLane_svc (d : Chip) (n : Nat) (x : Lane) : (d.setLane n x).svc = d.svc := (rfl)
@[simp] theorem Chip.setLane_pwr (d : Chip) (n : Nat) (x : Lane) : (d.setLane n x).pwr = d.pwr := (rfl)

/-! ## Chip.setMmb -/

@[simp] theorem Chip.setMmb_core (d : Chip) (n : Nat) (x : Mmb) : (d.setMmb n x).core = d.core := (rfl)
@[simp] theorem Chip.setMmb_dt (d : Chip) (n : Nat) (x : Mmb) : (d.setMmb n x).dt = d.dt := (rfl)
@[simp] theorem Chip.setMmb_free (d : Chip) (n : Nat) (x : Mmb) : (d.setMmb n x).free = d.free := (rfl)
@[simp] theorem Chip.setMmb_out (d : Chip) (n : Nat) (x : Mmb) : (d.setMmb n x).out = d.out := (rfl)
@[simp] theorem Chip.setMmb_regs (d : Chip) (n : Nat) (x : Mmb) : (d.setMmb n x).regs = d.regs := (rfl)
@[simp] theorem Chip.setMmb_log (d : Chip) (n : Nat) (x : Mmb) : (d.setMmb n x).log = d.log := (rfl)
@[simp] theorem Chip.setMmb_lanes (d : Chip) (n : Nat) (x : Mmb) : (d.setMmb n x).lanes = d.lanes := (rfl)
@[simp] theorem Chip.setMmb_mmbs (d : Chip) (n : Nat) (x : Mmb) : (d.setMmb n x).mmbs = SMap.put Mmb.init d.mmbs n x := (rfl)
@[simp] theorem Chip.setMmb_cals (d : Chip) (n : Nat) (x : Mmb) : (d.setMmb n x).cals = d.cals := (rfl)
@[simp] theorem Chip.setMmb_hunters (d : Chip) (n : Nat) (x : Mmb) : (d.setMmb n x).hunters = d.hunters := (rfl)
@[simp] theorem Chip.setMmb_caps (d : Chip) (n : Nat) (x : Mmb) : (d.setMmb n x).caps = d.caps := (rfl)
@[simp] theorem Chip.setMmb_writers (d : Chip) (n : Nat) (x : Mmb) : (d.setMmb n x).writers = d.writers := (rfl)
@[simp] theorem Chip.setMmb_rgns (d : Chip) (n : Nat) (x : Mmb) : (d.setMmb n x).rgns = d.rgns := (rfl)
@[simp] theorem Chip.setMmb_combs (d : Chip) (n : Nat) (x : Mmb) : (d.setMmb n x).combs = d.combs := (rfl)
@[simp] theorem Chip.setMmb_cmps (d : Chip) (n : Nat) (x : Mmb) : (d.setMmb n x).cmps = d.cmps := (rfl)
@[simp] theorem Chip.setMmb_lines (d : Chip) (n : Nat) (x : Mmb) : (d.setMmb n x).lines = d.lines := (rfl)
@[simp] theorem Chip.setMmb_mats (d : Chip) (n : Nat) (x : Mmb) : (d.setMmb n x).mats = d.mats := (rfl)
@[simp] theorem Chip.setMmb_yard (d : Chip) (n : Nat) (x : Mmb) : (d.setMmb n x).yard = d.yard := (rfl)
@[simp] theorem Chip.setMmb_hbm (d : Chip) (n : Nat) (x : Mmb) : (d.setMmb n x).hbm = d.hbm := (rfl)
@[simp] theorem Chip.setMmb_defts (d : Chip) (n : Nat) (x : Mmb) : (d.setMmb n x).defts = d.defts := (rfl)
@[simp] theorem Chip.setMmb_paths (d : Chip) (n : Nat) (x : Mmb) : (d.setMmb n x).paths = d.paths := (rfl)
@[simp] theorem Chip.setMmb_mons (d : Chip) (n : Nat) (x : Mmb) : (d.setMmb n x).mons = d.mons := (rfl)
@[simp] theorem Chip.setMmb_groups (d : Chip) (n : Nat) (x : Mmb) : (d.setMmb n x).groups = d.groups := (rfl)
@[simp] theorem Chip.setMmb_dsks (d : Chip) (n : Nat) (x : Mmb) : (d.setMmb n x).dsks = d.dsks := (rfl)
@[simp] theorem Chip.setMmb_traces (d : Chip) (n : Nat) (x : Mmb) : (d.setMmb n x).traces = d.traces := (rfl)
@[simp] theorem Chip.setMmb_ohps (d : Chip) (n : Nat) (x : Mmb) : (d.setMmb n x).ohps = d.ohps := (rfl)
@[simp] theorem Chip.setMmb_ctxs (d : Chip) (n : Nat) (x : Mmb) : (d.setMmb n x).ctxs = d.ctxs := (rfl)
@[simp] theorem Chip.setMmb_pats (d : Chip) (n : Nat) (x : Mmb) : (d.setMmb n x).pats = d.pats := (rfl)
@[simp] theorem Chip.setMmb_engRdy (d : Chip) (n : Nat) (x : Mmb) : (d.setMmb n x).engRdy = d.engRdy := (rfl)
@[simp] theorem Chip.setMmb_ledger (d : Chip) (n : Nat) (x : Mmb) : (d.setMmb n x).ledger = d.ledger := (rfl)
@[simp] theorem Chip.setMmb_tim (d : Chip) (n : Nat) (x : Mmb) : (d.setMmb n x).tim = d.tim := (rfl)
@[simp] theorem Chip.setMmb_tps (d : Chip) (n : Nat) (x : Mmb) : (d.setMmb n x).tps = d.tps := (rfl)
@[simp] theorem Chip.setMmb_host (d : Chip) (n : Nat) (x : Mmb) : (d.setMmb n x).host = d.host := (rfl)
@[simp] theorem Chip.setMmb_sec (d : Chip) (n : Nat) (x : Mmb) : (d.setMmb n x).sec = d.sec := (rfl)
@[simp] theorem Chip.setMmb_pav (d : Chip) (n : Nat) (x : Mmb) : (d.setMmb n x).pav = d.pav := (rfl)
@[simp] theorem Chip.setMmb_gth (d : Chip) (n : Nat) (x : Mmb) : (d.setMmb n x).gth = d.gth := (rfl)
@[simp] theorem Chip.setMmb_tdm (d : Chip) (n : Nat) (x : Mmb) : (d.setMmb n x).tdm = d.tdm := (rfl)
@[simp] theorem Chip.setMmb_svc (d : Chip) (n : Nat) (x : Mmb) : (d.setMmb n x).svc = d.svc := (rfl)
@[simp] theorem Chip.setMmb_pwr (d : Chip) (n : Nat) (x : Mmb) : (d.setMmb n x).pwr = d.pwr := (rfl)

/-! ## Chip.setHunter -/

@[simp] theorem Chip.setHunter_core (d : Chip) (n : Nat) (x : Hunter) : (d.setHunter n x).core = d.core := (rfl)
@[simp] theorem Chip.setHunter_dt (d : Chip) (n : Nat) (x : Hunter) : (d.setHunter n x).dt = d.dt := (rfl)
@[simp] theorem Chip.setHunter_free (d : Chip) (n : Nat) (x : Hunter) : (d.setHunter n x).free = d.free := (rfl)
@[simp] theorem Chip.setHunter_out (d : Chip) (n : Nat) (x : Hunter) : (d.setHunter n x).out = d.out := (rfl)
@[simp] theorem Chip.setHunter_regs (d : Chip) (n : Nat) (x : Hunter) : (d.setHunter n x).regs = d.regs := (rfl)
@[simp] theorem Chip.setHunter_log (d : Chip) (n : Nat) (x : Hunter) : (d.setHunter n x).log = d.log := (rfl)
@[simp] theorem Chip.setHunter_lanes (d : Chip) (n : Nat) (x : Hunter) : (d.setHunter n x).lanes = d.lanes := (rfl)
@[simp] theorem Chip.setHunter_mmbs (d : Chip) (n : Nat) (x : Hunter) : (d.setHunter n x).mmbs = d.mmbs := (rfl)
@[simp] theorem Chip.setHunter_cals (d : Chip) (n : Nat) (x : Hunter) : (d.setHunter n x).cals = d.cals := (rfl)
@[simp] theorem Chip.setHunter_hunters (d : Chip) (n : Nat) (x : Hunter) : (d.setHunter n x).hunters = SMap.put Hunter.init d.hunters n x := (rfl)
@[simp] theorem Chip.setHunter_caps (d : Chip) (n : Nat) (x : Hunter) : (d.setHunter n x).caps = d.caps := (rfl)
@[simp] theorem Chip.setHunter_writers (d : Chip) (n : Nat) (x : Hunter) : (d.setHunter n x).writers = d.writers := (rfl)
@[simp] theorem Chip.setHunter_rgns (d : Chip) (n : Nat) (x : Hunter) : (d.setHunter n x).rgns = d.rgns := (rfl)
@[simp] theorem Chip.setHunter_combs (d : Chip) (n : Nat) (x : Hunter) : (d.setHunter n x).combs = d.combs := (rfl)
@[simp] theorem Chip.setHunter_cmps (d : Chip) (n : Nat) (x : Hunter) : (d.setHunter n x).cmps = d.cmps := (rfl)
@[simp] theorem Chip.setHunter_lines (d : Chip) (n : Nat) (x : Hunter) : (d.setHunter n x).lines = d.lines := (rfl)
@[simp] theorem Chip.setHunter_mats (d : Chip) (n : Nat) (x : Hunter) : (d.setHunter n x).mats = d.mats := (rfl)
@[simp] theorem Chip.setHunter_yard (d : Chip) (n : Nat) (x : Hunter) : (d.setHunter n x).yard = d.yard := (rfl)
@[simp] theorem Chip.setHunter_hbm (d : Chip) (n : Nat) (x : Hunter) : (d.setHunter n x).hbm = d.hbm := (rfl)
@[simp] theorem Chip.setHunter_defts (d : Chip) (n : Nat) (x : Hunter) : (d.setHunter n x).defts = d.defts := (rfl)
@[simp] theorem Chip.setHunter_paths (d : Chip) (n : Nat) (x : Hunter) : (d.setHunter n x).paths = d.paths := (rfl)
@[simp] theorem Chip.setHunter_mons (d : Chip) (n : Nat) (x : Hunter) : (d.setHunter n x).mons = d.mons := (rfl)
@[simp] theorem Chip.setHunter_groups (d : Chip) (n : Nat) (x : Hunter) : (d.setHunter n x).groups = d.groups := (rfl)
@[simp] theorem Chip.setHunter_dsks (d : Chip) (n : Nat) (x : Hunter) : (d.setHunter n x).dsks = d.dsks := (rfl)
@[simp] theorem Chip.setHunter_traces (d : Chip) (n : Nat) (x : Hunter) : (d.setHunter n x).traces = d.traces := (rfl)
@[simp] theorem Chip.setHunter_ohps (d : Chip) (n : Nat) (x : Hunter) : (d.setHunter n x).ohps = d.ohps := (rfl)
@[simp] theorem Chip.setHunter_ctxs (d : Chip) (n : Nat) (x : Hunter) : (d.setHunter n x).ctxs = d.ctxs := (rfl)
@[simp] theorem Chip.setHunter_pats (d : Chip) (n : Nat) (x : Hunter) : (d.setHunter n x).pats = d.pats := (rfl)
@[simp] theorem Chip.setHunter_engRdy (d : Chip) (n : Nat) (x : Hunter) : (d.setHunter n x).engRdy = d.engRdy := (rfl)
@[simp] theorem Chip.setHunter_ledger (d : Chip) (n : Nat) (x : Hunter) : (d.setHunter n x).ledger = d.ledger := (rfl)
@[simp] theorem Chip.setHunter_tim (d : Chip) (n : Nat) (x : Hunter) : (d.setHunter n x).tim = d.tim := (rfl)
@[simp] theorem Chip.setHunter_tps (d : Chip) (n : Nat) (x : Hunter) : (d.setHunter n x).tps = d.tps := (rfl)
@[simp] theorem Chip.setHunter_host (d : Chip) (n : Nat) (x : Hunter) : (d.setHunter n x).host = d.host := (rfl)
@[simp] theorem Chip.setHunter_sec (d : Chip) (n : Nat) (x : Hunter) : (d.setHunter n x).sec = d.sec := (rfl)
@[simp] theorem Chip.setHunter_pav (d : Chip) (n : Nat) (x : Hunter) : (d.setHunter n x).pav = d.pav := (rfl)
@[simp] theorem Chip.setHunter_gth (d : Chip) (n : Nat) (x : Hunter) : (d.setHunter n x).gth = d.gth := (rfl)
@[simp] theorem Chip.setHunter_tdm (d : Chip) (n : Nat) (x : Hunter) : (d.setHunter n x).tdm = d.tdm := (rfl)
@[simp] theorem Chip.setHunter_svc (d : Chip) (n : Nat) (x : Hunter) : (d.setHunter n x).svc = d.svc := (rfl)
@[simp] theorem Chip.setHunter_pwr (d : Chip) (n : Nat) (x : Hunter) : (d.setHunter n x).pwr = d.pwr := (rfl)

/-! ## Chip.setCap -/

@[simp] theorem Chip.setCap_core (d : Chip) (n : Nat) (x : Cap) : (d.setCap n x).core = d.core := (rfl)
@[simp] theorem Chip.setCap_dt (d : Chip) (n : Nat) (x : Cap) : (d.setCap n x).dt = d.dt := (rfl)
@[simp] theorem Chip.setCap_free (d : Chip) (n : Nat) (x : Cap) : (d.setCap n x).free = d.free := (rfl)
@[simp] theorem Chip.setCap_out (d : Chip) (n : Nat) (x : Cap) : (d.setCap n x).out = d.out := (rfl)
@[simp] theorem Chip.setCap_regs (d : Chip) (n : Nat) (x : Cap) : (d.setCap n x).regs = d.regs := (rfl)
@[simp] theorem Chip.setCap_log (d : Chip) (n : Nat) (x : Cap) : (d.setCap n x).log = d.log := (rfl)
@[simp] theorem Chip.setCap_lanes (d : Chip) (n : Nat) (x : Cap) : (d.setCap n x).lanes = d.lanes := (rfl)
@[simp] theorem Chip.setCap_mmbs (d : Chip) (n : Nat) (x : Cap) : (d.setCap n x).mmbs = d.mmbs := (rfl)
@[simp] theorem Chip.setCap_cals (d : Chip) (n : Nat) (x : Cap) : (d.setCap n x).cals = d.cals := (rfl)
@[simp] theorem Chip.setCap_hunters (d : Chip) (n : Nat) (x : Cap) : (d.setCap n x).hunters = d.hunters := (rfl)
@[simp] theorem Chip.setCap_caps (d : Chip) (n : Nat) (x : Cap) : (d.setCap n x).caps = SMap.put Cap.init d.caps n x := (rfl)
@[simp] theorem Chip.setCap_writers (d : Chip) (n : Nat) (x : Cap) : (d.setCap n x).writers = d.writers := (rfl)
@[simp] theorem Chip.setCap_rgns (d : Chip) (n : Nat) (x : Cap) : (d.setCap n x).rgns = d.rgns := (rfl)
@[simp] theorem Chip.setCap_combs (d : Chip) (n : Nat) (x : Cap) : (d.setCap n x).combs = d.combs := (rfl)
@[simp] theorem Chip.setCap_cmps (d : Chip) (n : Nat) (x : Cap) : (d.setCap n x).cmps = d.cmps := (rfl)
@[simp] theorem Chip.setCap_lines (d : Chip) (n : Nat) (x : Cap) : (d.setCap n x).lines = d.lines := (rfl)
@[simp] theorem Chip.setCap_mats (d : Chip) (n : Nat) (x : Cap) : (d.setCap n x).mats = d.mats := (rfl)
@[simp] theorem Chip.setCap_yard (d : Chip) (n : Nat) (x : Cap) : (d.setCap n x).yard = d.yard := (rfl)
@[simp] theorem Chip.setCap_hbm (d : Chip) (n : Nat) (x : Cap) : (d.setCap n x).hbm = d.hbm := (rfl)
@[simp] theorem Chip.setCap_defts (d : Chip) (n : Nat) (x : Cap) : (d.setCap n x).defts = d.defts := (rfl)
@[simp] theorem Chip.setCap_paths (d : Chip) (n : Nat) (x : Cap) : (d.setCap n x).paths = d.paths := (rfl)
@[simp] theorem Chip.setCap_mons (d : Chip) (n : Nat) (x : Cap) : (d.setCap n x).mons = d.mons := (rfl)
@[simp] theorem Chip.setCap_groups (d : Chip) (n : Nat) (x : Cap) : (d.setCap n x).groups = d.groups := (rfl)
@[simp] theorem Chip.setCap_dsks (d : Chip) (n : Nat) (x : Cap) : (d.setCap n x).dsks = d.dsks := (rfl)
@[simp] theorem Chip.setCap_traces (d : Chip) (n : Nat) (x : Cap) : (d.setCap n x).traces = d.traces := (rfl)
@[simp] theorem Chip.setCap_ohps (d : Chip) (n : Nat) (x : Cap) : (d.setCap n x).ohps = d.ohps := (rfl)
@[simp] theorem Chip.setCap_ctxs (d : Chip) (n : Nat) (x : Cap) : (d.setCap n x).ctxs = d.ctxs := (rfl)
@[simp] theorem Chip.setCap_pats (d : Chip) (n : Nat) (x : Cap) : (d.setCap n x).pats = d.pats := (rfl)
@[simp] theorem Chip.setCap_engRdy (d : Chip) (n : Nat) (x : Cap) : (d.setCap n x).engRdy = d.engRdy := (rfl)
@[simp] theorem Chip.setCap_ledger (d : Chip) (n : Nat) (x : Cap) : (d.setCap n x).ledger = d.ledger := (rfl)
@[simp] theorem Chip.setCap_tim (d : Chip) (n : Nat) (x : Cap) : (d.setCap n x).tim = d.tim := (rfl)
@[simp] theorem Chip.setCap_tps (d : Chip) (n : Nat) (x : Cap) : (d.setCap n x).tps = d.tps := (rfl)
@[simp] theorem Chip.setCap_host (d : Chip) (n : Nat) (x : Cap) : (d.setCap n x).host = d.host := (rfl)
@[simp] theorem Chip.setCap_sec (d : Chip) (n : Nat) (x : Cap) : (d.setCap n x).sec = d.sec := (rfl)
@[simp] theorem Chip.setCap_pav (d : Chip) (n : Nat) (x : Cap) : (d.setCap n x).pav = d.pav := (rfl)
@[simp] theorem Chip.setCap_gth (d : Chip) (n : Nat) (x : Cap) : (d.setCap n x).gth = d.gth := (rfl)
@[simp] theorem Chip.setCap_tdm (d : Chip) (n : Nat) (x : Cap) : (d.setCap n x).tdm = d.tdm := (rfl)
@[simp] theorem Chip.setCap_svc (d : Chip) (n : Nat) (x : Cap) : (d.setCap n x).svc = d.svc := (rfl)
@[simp] theorem Chip.setCap_pwr (d : Chip) (n : Nat) (x : Cap) : (d.setCap n x).pwr = d.pwr := (rfl)

/-! ## Chip.setWriter -/

@[simp] theorem Chip.setWriter_core (d : Chip) (n : Nat) (x : Writer) : (d.setWriter n x).core = d.core := (rfl)
@[simp] theorem Chip.setWriter_dt (d : Chip) (n : Nat) (x : Writer) : (d.setWriter n x).dt = d.dt := (rfl)
@[simp] theorem Chip.setWriter_free (d : Chip) (n : Nat) (x : Writer) : (d.setWriter n x).free = d.free := (rfl)
@[simp] theorem Chip.setWriter_out (d : Chip) (n : Nat) (x : Writer) : (d.setWriter n x).out = d.out := (rfl)
@[simp] theorem Chip.setWriter_regs (d : Chip) (n : Nat) (x : Writer) : (d.setWriter n x).regs = d.regs := (rfl)
@[simp] theorem Chip.setWriter_log (d : Chip) (n : Nat) (x : Writer) : (d.setWriter n x).log = d.log := (rfl)
@[simp] theorem Chip.setWriter_lanes (d : Chip) (n : Nat) (x : Writer) : (d.setWriter n x).lanes = d.lanes := (rfl)
@[simp] theorem Chip.setWriter_mmbs (d : Chip) (n : Nat) (x : Writer) : (d.setWriter n x).mmbs = d.mmbs := (rfl)
@[simp] theorem Chip.setWriter_cals (d : Chip) (n : Nat) (x : Writer) : (d.setWriter n x).cals = d.cals := (rfl)
@[simp] theorem Chip.setWriter_hunters (d : Chip) (n : Nat) (x : Writer) : (d.setWriter n x).hunters = d.hunters := (rfl)
@[simp] theorem Chip.setWriter_caps (d : Chip) (n : Nat) (x : Writer) : (d.setWriter n x).caps = d.caps := (rfl)
@[simp] theorem Chip.setWriter_writers (d : Chip) (n : Nat) (x : Writer) : (d.setWriter n x).writers = SMap.put Writer.init d.writers n x := (rfl)
@[simp] theorem Chip.setWriter_rgns (d : Chip) (n : Nat) (x : Writer) : (d.setWriter n x).rgns = d.rgns := (rfl)
@[simp] theorem Chip.setWriter_combs (d : Chip) (n : Nat) (x : Writer) : (d.setWriter n x).combs = d.combs := (rfl)
@[simp] theorem Chip.setWriter_cmps (d : Chip) (n : Nat) (x : Writer) : (d.setWriter n x).cmps = d.cmps := (rfl)
@[simp] theorem Chip.setWriter_lines (d : Chip) (n : Nat) (x : Writer) : (d.setWriter n x).lines = d.lines := (rfl)
@[simp] theorem Chip.setWriter_mats (d : Chip) (n : Nat) (x : Writer) : (d.setWriter n x).mats = d.mats := (rfl)
@[simp] theorem Chip.setWriter_yard (d : Chip) (n : Nat) (x : Writer) : (d.setWriter n x).yard = d.yard := (rfl)
@[simp] theorem Chip.setWriter_hbm (d : Chip) (n : Nat) (x : Writer) : (d.setWriter n x).hbm = d.hbm := (rfl)
@[simp] theorem Chip.setWriter_defts (d : Chip) (n : Nat) (x : Writer) : (d.setWriter n x).defts = d.defts := (rfl)
@[simp] theorem Chip.setWriter_paths (d : Chip) (n : Nat) (x : Writer) : (d.setWriter n x).paths = d.paths := (rfl)
@[simp] theorem Chip.setWriter_mons (d : Chip) (n : Nat) (x : Writer) : (d.setWriter n x).mons = d.mons := (rfl)
@[simp] theorem Chip.setWriter_groups (d : Chip) (n : Nat) (x : Writer) : (d.setWriter n x).groups = d.groups := (rfl)
@[simp] theorem Chip.setWriter_dsks (d : Chip) (n : Nat) (x : Writer) : (d.setWriter n x).dsks = d.dsks := (rfl)
@[simp] theorem Chip.setWriter_traces (d : Chip) (n : Nat) (x : Writer) : (d.setWriter n x).traces = d.traces := (rfl)
@[simp] theorem Chip.setWriter_ohps (d : Chip) (n : Nat) (x : Writer) : (d.setWriter n x).ohps = d.ohps := (rfl)
@[simp] theorem Chip.setWriter_ctxs (d : Chip) (n : Nat) (x : Writer) : (d.setWriter n x).ctxs = d.ctxs := (rfl)
@[simp] theorem Chip.setWriter_pats (d : Chip) (n : Nat) (x : Writer) : (d.setWriter n x).pats = d.pats := (rfl)
@[simp] theorem Chip.setWriter_engRdy (d : Chip) (n : Nat) (x : Writer) : (d.setWriter n x).engRdy = d.engRdy := (rfl)
@[simp] theorem Chip.setWriter_ledger (d : Chip) (n : Nat) (x : Writer) : (d.setWriter n x).ledger = d.ledger := (rfl)
@[simp] theorem Chip.setWriter_tim (d : Chip) (n : Nat) (x : Writer) : (d.setWriter n x).tim = d.tim := (rfl)
@[simp] theorem Chip.setWriter_tps (d : Chip) (n : Nat) (x : Writer) : (d.setWriter n x).tps = d.tps := (rfl)
@[simp] theorem Chip.setWriter_host (d : Chip) (n : Nat) (x : Writer) : (d.setWriter n x).host = d.host := (rfl)
@[simp] theorem Chip.setWriter_sec (d : Chip) (n : Nat) (x : Writer) : (d.setWriter n x).sec = d.sec := (rfl)
@[simp] theorem Chip.setWriter_pav (d : Chip) (n : Nat) (x : Writer) : (d.setWriter n x).pav = d.pav := (rfl)
@[simp] theorem Chip.setWriter_gth (d : Chip) (n : Nat) (x : Writer) : (d.setWriter n x).gth = d.gth := (rfl)
@[simp] theorem Chip.setWriter_tdm (d : Chip) (n : Nat) (x : Writer) : (d.setWriter n x).tdm = d.tdm := (rfl)
@[simp] theorem Chip.setWriter_svc (d : Chip) (n : Nat) (x : Writer) : (d.setWriter n x).svc = d.svc := (rfl)
@[simp] theorem Chip.setWriter_pwr (d : Chip) (n : Nat) (x : Writer) : (d.setWriter n x).pwr = d.pwr := (rfl)

/-! ## Chip.setRgn -/

@[simp] theorem Chip.setRgn_core (d : Chip) (n : Nat) (x : Rgn) : (d.setRgn n x).core = d.core := (rfl)
@[simp] theorem Chip.setRgn_dt (d : Chip) (n : Nat) (x : Rgn) : (d.setRgn n x).dt = d.dt := (rfl)
@[simp] theorem Chip.setRgn_free (d : Chip) (n : Nat) (x : Rgn) : (d.setRgn n x).free = d.free := (rfl)
@[simp] theorem Chip.setRgn_out (d : Chip) (n : Nat) (x : Rgn) : (d.setRgn n x).out = d.out := (rfl)
@[simp] theorem Chip.setRgn_regs (d : Chip) (n : Nat) (x : Rgn) : (d.setRgn n x).regs = d.regs := (rfl)
@[simp] theorem Chip.setRgn_log (d : Chip) (n : Nat) (x : Rgn) : (d.setRgn n x).log = d.log := (rfl)
@[simp] theorem Chip.setRgn_lanes (d : Chip) (n : Nat) (x : Rgn) : (d.setRgn n x).lanes = d.lanes := (rfl)
@[simp] theorem Chip.setRgn_mmbs (d : Chip) (n : Nat) (x : Rgn) : (d.setRgn n x).mmbs = d.mmbs := (rfl)
@[simp] theorem Chip.setRgn_cals (d : Chip) (n : Nat) (x : Rgn) : (d.setRgn n x).cals = d.cals := (rfl)
@[simp] theorem Chip.setRgn_hunters (d : Chip) (n : Nat) (x : Rgn) : (d.setRgn n x).hunters = d.hunters := (rfl)
@[simp] theorem Chip.setRgn_caps (d : Chip) (n : Nat) (x : Rgn) : (d.setRgn n x).caps = d.caps := (rfl)
@[simp] theorem Chip.setRgn_writers (d : Chip) (n : Nat) (x : Rgn) : (d.setRgn n x).writers = d.writers := (rfl)
@[simp] theorem Chip.setRgn_rgns (d : Chip) (n : Nat) (x : Rgn) : (d.setRgn n x).rgns = SMap.put Rgn.init d.rgns n x := (rfl)
@[simp] theorem Chip.setRgn_combs (d : Chip) (n : Nat) (x : Rgn) : (d.setRgn n x).combs = d.combs := (rfl)
@[simp] theorem Chip.setRgn_cmps (d : Chip) (n : Nat) (x : Rgn) : (d.setRgn n x).cmps = d.cmps := (rfl)
@[simp] theorem Chip.setRgn_lines (d : Chip) (n : Nat) (x : Rgn) : (d.setRgn n x).lines = d.lines := (rfl)
@[simp] theorem Chip.setRgn_mats (d : Chip) (n : Nat) (x : Rgn) : (d.setRgn n x).mats = d.mats := (rfl)
@[simp] theorem Chip.setRgn_yard (d : Chip) (n : Nat) (x : Rgn) : (d.setRgn n x).yard = d.yard := (rfl)
@[simp] theorem Chip.setRgn_hbm (d : Chip) (n : Nat) (x : Rgn) : (d.setRgn n x).hbm = d.hbm := (rfl)
@[simp] theorem Chip.setRgn_defts (d : Chip) (n : Nat) (x : Rgn) : (d.setRgn n x).defts = d.defts := (rfl)
@[simp] theorem Chip.setRgn_paths (d : Chip) (n : Nat) (x : Rgn) : (d.setRgn n x).paths = d.paths := (rfl)
@[simp] theorem Chip.setRgn_mons (d : Chip) (n : Nat) (x : Rgn) : (d.setRgn n x).mons = d.mons := (rfl)
@[simp] theorem Chip.setRgn_groups (d : Chip) (n : Nat) (x : Rgn) : (d.setRgn n x).groups = d.groups := (rfl)
@[simp] theorem Chip.setRgn_dsks (d : Chip) (n : Nat) (x : Rgn) : (d.setRgn n x).dsks = d.dsks := (rfl)
@[simp] theorem Chip.setRgn_traces (d : Chip) (n : Nat) (x : Rgn) : (d.setRgn n x).traces = d.traces := (rfl)
@[simp] theorem Chip.setRgn_ohps (d : Chip) (n : Nat) (x : Rgn) : (d.setRgn n x).ohps = d.ohps := (rfl)
@[simp] theorem Chip.setRgn_ctxs (d : Chip) (n : Nat) (x : Rgn) : (d.setRgn n x).ctxs = d.ctxs := (rfl)
@[simp] theorem Chip.setRgn_pats (d : Chip) (n : Nat) (x : Rgn) : (d.setRgn n x).pats = d.pats := (rfl)
@[simp] theorem Chip.setRgn_engRdy (d : Chip) (n : Nat) (x : Rgn) : (d.setRgn n x).engRdy = d.engRdy := (rfl)
@[simp] theorem Chip.setRgn_ledger (d : Chip) (n : Nat) (x : Rgn) : (d.setRgn n x).ledger = d.ledger := (rfl)
@[simp] theorem Chip.setRgn_tim (d : Chip) (n : Nat) (x : Rgn) : (d.setRgn n x).tim = d.tim := (rfl)
@[simp] theorem Chip.setRgn_tps (d : Chip) (n : Nat) (x : Rgn) : (d.setRgn n x).tps = d.tps := (rfl)
@[simp] theorem Chip.setRgn_host (d : Chip) (n : Nat) (x : Rgn) : (d.setRgn n x).host = d.host := (rfl)
@[simp] theorem Chip.setRgn_sec (d : Chip) (n : Nat) (x : Rgn) : (d.setRgn n x).sec = d.sec := (rfl)
@[simp] theorem Chip.setRgn_pav (d : Chip) (n : Nat) (x : Rgn) : (d.setRgn n x).pav = d.pav := (rfl)
@[simp] theorem Chip.setRgn_gth (d : Chip) (n : Nat) (x : Rgn) : (d.setRgn n x).gth = d.gth := (rfl)
@[simp] theorem Chip.setRgn_tdm (d : Chip) (n : Nat) (x : Rgn) : (d.setRgn n x).tdm = d.tdm := (rfl)
@[simp] theorem Chip.setRgn_svc (d : Chip) (n : Nat) (x : Rgn) : (d.setRgn n x).svc = d.svc := (rfl)
@[simp] theorem Chip.setRgn_pwr (d : Chip) (n : Nat) (x : Rgn) : (d.setRgn n x).pwr = d.pwr := (rfl)

/-! ## Chip.setComb -/

@[simp] theorem Chip.setComb_core (d : Chip) (n : Nat) (x : Comb) : (d.setComb n x).core = d.core := (rfl)
@[simp] theorem Chip.setComb_dt (d : Chip) (n : Nat) (x : Comb) : (d.setComb n x).dt = d.dt := (rfl)
@[simp] theorem Chip.setComb_free (d : Chip) (n : Nat) (x : Comb) : (d.setComb n x).free = d.free := (rfl)
@[simp] theorem Chip.setComb_out (d : Chip) (n : Nat) (x : Comb) : (d.setComb n x).out = d.out := (rfl)
@[simp] theorem Chip.setComb_regs (d : Chip) (n : Nat) (x : Comb) : (d.setComb n x).regs = d.regs := (rfl)
@[simp] theorem Chip.setComb_log (d : Chip) (n : Nat) (x : Comb) : (d.setComb n x).log = d.log := (rfl)
@[simp] theorem Chip.setComb_lanes (d : Chip) (n : Nat) (x : Comb) : (d.setComb n x).lanes = d.lanes := (rfl)
@[simp] theorem Chip.setComb_mmbs (d : Chip) (n : Nat) (x : Comb) : (d.setComb n x).mmbs = d.mmbs := (rfl)
@[simp] theorem Chip.setComb_cals (d : Chip) (n : Nat) (x : Comb) : (d.setComb n x).cals = d.cals := (rfl)
@[simp] theorem Chip.setComb_hunters (d : Chip) (n : Nat) (x : Comb) : (d.setComb n x).hunters = d.hunters := (rfl)
@[simp] theorem Chip.setComb_caps (d : Chip) (n : Nat) (x : Comb) : (d.setComb n x).caps = d.caps := (rfl)
@[simp] theorem Chip.setComb_writers (d : Chip) (n : Nat) (x : Comb) : (d.setComb n x).writers = d.writers := (rfl)
@[simp] theorem Chip.setComb_rgns (d : Chip) (n : Nat) (x : Comb) : (d.setComb n x).rgns = d.rgns := (rfl)
@[simp] theorem Chip.setComb_combs (d : Chip) (n : Nat) (x : Comb) : (d.setComb n x).combs = SMap.put Comb.init d.combs n x := (rfl)
@[simp] theorem Chip.setComb_cmps (d : Chip) (n : Nat) (x : Comb) : (d.setComb n x).cmps = d.cmps := (rfl)
@[simp] theorem Chip.setComb_lines (d : Chip) (n : Nat) (x : Comb) : (d.setComb n x).lines = d.lines := (rfl)
@[simp] theorem Chip.setComb_mats (d : Chip) (n : Nat) (x : Comb) : (d.setComb n x).mats = d.mats := (rfl)
@[simp] theorem Chip.setComb_yard (d : Chip) (n : Nat) (x : Comb) : (d.setComb n x).yard = d.yard := (rfl)
@[simp] theorem Chip.setComb_hbm (d : Chip) (n : Nat) (x : Comb) : (d.setComb n x).hbm = d.hbm := (rfl)
@[simp] theorem Chip.setComb_defts (d : Chip) (n : Nat) (x : Comb) : (d.setComb n x).defts = d.defts := (rfl)
@[simp] theorem Chip.setComb_paths (d : Chip) (n : Nat) (x : Comb) : (d.setComb n x).paths = d.paths := (rfl)
@[simp] theorem Chip.setComb_mons (d : Chip) (n : Nat) (x : Comb) : (d.setComb n x).mons = d.mons := (rfl)
@[simp] theorem Chip.setComb_groups (d : Chip) (n : Nat) (x : Comb) : (d.setComb n x).groups = d.groups := (rfl)
@[simp] theorem Chip.setComb_dsks (d : Chip) (n : Nat) (x : Comb) : (d.setComb n x).dsks = d.dsks := (rfl)
@[simp] theorem Chip.setComb_traces (d : Chip) (n : Nat) (x : Comb) : (d.setComb n x).traces = d.traces := (rfl)
@[simp] theorem Chip.setComb_ohps (d : Chip) (n : Nat) (x : Comb) : (d.setComb n x).ohps = d.ohps := (rfl)
@[simp] theorem Chip.setComb_ctxs (d : Chip) (n : Nat) (x : Comb) : (d.setComb n x).ctxs = d.ctxs := (rfl)
@[simp] theorem Chip.setComb_pats (d : Chip) (n : Nat) (x : Comb) : (d.setComb n x).pats = d.pats := (rfl)
@[simp] theorem Chip.setComb_engRdy (d : Chip) (n : Nat) (x : Comb) : (d.setComb n x).engRdy = d.engRdy := (rfl)
@[simp] theorem Chip.setComb_ledger (d : Chip) (n : Nat) (x : Comb) : (d.setComb n x).ledger = d.ledger := (rfl)
@[simp] theorem Chip.setComb_tim (d : Chip) (n : Nat) (x : Comb) : (d.setComb n x).tim = d.tim := (rfl)
@[simp] theorem Chip.setComb_tps (d : Chip) (n : Nat) (x : Comb) : (d.setComb n x).tps = d.tps := (rfl)
@[simp] theorem Chip.setComb_host (d : Chip) (n : Nat) (x : Comb) : (d.setComb n x).host = d.host := (rfl)
@[simp] theorem Chip.setComb_sec (d : Chip) (n : Nat) (x : Comb) : (d.setComb n x).sec = d.sec := (rfl)
@[simp] theorem Chip.setComb_pav (d : Chip) (n : Nat) (x : Comb) : (d.setComb n x).pav = d.pav := (rfl)
@[simp] theorem Chip.setComb_gth (d : Chip) (n : Nat) (x : Comb) : (d.setComb n x).gth = d.gth := (rfl)
@[simp] theorem Chip.setComb_tdm (d : Chip) (n : Nat) (x : Comb) : (d.setComb n x).tdm = d.tdm := (rfl)
@[simp] theorem Chip.setComb_svc (d : Chip) (n : Nat) (x : Comb) : (d.setComb n x).svc = d.svc := (rfl)
@[simp] theorem Chip.setComb_pwr (d : Chip) (n : Nat) (x : Comb) : (d.setComb n x).pwr = d.pwr := (rfl)

/-! ## Chip.setOhp -/

@[simp] theorem Chip.setOhp_core (d : Chip) (n : Nat) (x : Ohp) : (d.setOhp n x).core = d.core := (rfl)
@[simp] theorem Chip.setOhp_dt (d : Chip) (n : Nat) (x : Ohp) : (d.setOhp n x).dt = d.dt := (rfl)
@[simp] theorem Chip.setOhp_free (d : Chip) (n : Nat) (x : Ohp) : (d.setOhp n x).free = d.free := (rfl)
@[simp] theorem Chip.setOhp_out (d : Chip) (n : Nat) (x : Ohp) : (d.setOhp n x).out = d.out := (rfl)
@[simp] theorem Chip.setOhp_regs (d : Chip) (n : Nat) (x : Ohp) : (d.setOhp n x).regs = d.regs := (rfl)
@[simp] theorem Chip.setOhp_log (d : Chip) (n : Nat) (x : Ohp) : (d.setOhp n x).log = d.log := (rfl)
@[simp] theorem Chip.setOhp_lanes (d : Chip) (n : Nat) (x : Ohp) : (d.setOhp n x).lanes = d.lanes := (rfl)
@[simp] theorem Chip.setOhp_mmbs (d : Chip) (n : Nat) (x : Ohp) : (d.setOhp n x).mmbs = d.mmbs := (rfl)
@[simp] theorem Chip.setOhp_cals (d : Chip) (n : Nat) (x : Ohp) : (d.setOhp n x).cals = d.cals := (rfl)
@[simp] theorem Chip.setOhp_hunters (d : Chip) (n : Nat) (x : Ohp) : (d.setOhp n x).hunters = d.hunters := (rfl)
@[simp] theorem Chip.setOhp_caps (d : Chip) (n : Nat) (x : Ohp) : (d.setOhp n x).caps = d.caps := (rfl)
@[simp] theorem Chip.setOhp_writers (d : Chip) (n : Nat) (x : Ohp) : (d.setOhp n x).writers = d.writers := (rfl)
@[simp] theorem Chip.setOhp_rgns (d : Chip) (n : Nat) (x : Ohp) : (d.setOhp n x).rgns = d.rgns := (rfl)
@[simp] theorem Chip.setOhp_combs (d : Chip) (n : Nat) (x : Ohp) : (d.setOhp n x).combs = d.combs := (rfl)
@[simp] theorem Chip.setOhp_cmps (d : Chip) (n : Nat) (x : Ohp) : (d.setOhp n x).cmps = d.cmps := (rfl)
@[simp] theorem Chip.setOhp_lines (d : Chip) (n : Nat) (x : Ohp) : (d.setOhp n x).lines = d.lines := (rfl)
@[simp] theorem Chip.setOhp_mats (d : Chip) (n : Nat) (x : Ohp) : (d.setOhp n x).mats = d.mats := (rfl)
@[simp] theorem Chip.setOhp_yard (d : Chip) (n : Nat) (x : Ohp) : (d.setOhp n x).yard = d.yard := (rfl)
@[simp] theorem Chip.setOhp_hbm (d : Chip) (n : Nat) (x : Ohp) : (d.setOhp n x).hbm = d.hbm := (rfl)
@[simp] theorem Chip.setOhp_defts (d : Chip) (n : Nat) (x : Ohp) : (d.setOhp n x).defts = d.defts := (rfl)
@[simp] theorem Chip.setOhp_paths (d : Chip) (n : Nat) (x : Ohp) : (d.setOhp n x).paths = d.paths := (rfl)
@[simp] theorem Chip.setOhp_mons (d : Chip) (n : Nat) (x : Ohp) : (d.setOhp n x).mons = d.mons := (rfl)
@[simp] theorem Chip.setOhp_groups (d : Chip) (n : Nat) (x : Ohp) : (d.setOhp n x).groups = d.groups := (rfl)
@[simp] theorem Chip.setOhp_dsks (d : Chip) (n : Nat) (x : Ohp) : (d.setOhp n x).dsks = d.dsks := (rfl)
@[simp] theorem Chip.setOhp_traces (d : Chip) (n : Nat) (x : Ohp) : (d.setOhp n x).traces = d.traces := (rfl)
@[simp] theorem Chip.setOhp_ohps (d : Chip) (n : Nat) (x : Ohp) : (d.setOhp n x).ohps = SMap.put Ohp.init d.ohps n x := (rfl)
@[simp] theorem Chip.setOhp_ctxs (d : Chip) (n : Nat) (x : Ohp) : (d.setOhp n x).ctxs = d.ctxs := (rfl)
@[simp] theorem Chip.setOhp_pats (d : Chip) (n : Nat) (x : Ohp) : (d.setOhp n x).pats = d.pats := (rfl)
@[simp] theorem Chip.setOhp_engRdy (d : Chip) (n : Nat) (x : Ohp) : (d.setOhp n x).engRdy = d.engRdy := (rfl)
@[simp] theorem Chip.setOhp_ledger (d : Chip) (n : Nat) (x : Ohp) : (d.setOhp n x).ledger = d.ledger := (rfl)
@[simp] theorem Chip.setOhp_tim (d : Chip) (n : Nat) (x : Ohp) : (d.setOhp n x).tim = d.tim := (rfl)
@[simp] theorem Chip.setOhp_tps (d : Chip) (n : Nat) (x : Ohp) : (d.setOhp n x).tps = d.tps := (rfl)
@[simp] theorem Chip.setOhp_host (d : Chip) (n : Nat) (x : Ohp) : (d.setOhp n x).host = d.host := (rfl)
@[simp] theorem Chip.setOhp_sec (d : Chip) (n : Nat) (x : Ohp) : (d.setOhp n x).sec = d.sec := (rfl)
@[simp] theorem Chip.setOhp_pav (d : Chip) (n : Nat) (x : Ohp) : (d.setOhp n x).pav = d.pav := (rfl)
@[simp] theorem Chip.setOhp_gth (d : Chip) (n : Nat) (x : Ohp) : (d.setOhp n x).gth = d.gth := (rfl)
@[simp] theorem Chip.setOhp_tdm (d : Chip) (n : Nat) (x : Ohp) : (d.setOhp n x).tdm = d.tdm := (rfl)
@[simp] theorem Chip.setOhp_svc (d : Chip) (n : Nat) (x : Ohp) : (d.setOhp n x).svc = d.svc := (rfl)
@[simp] theorem Chip.setOhp_pwr (d : Chip) (n : Nat) (x : Ohp) : (d.setOhp n x).pwr = d.pwr := (rfl)

/-! ## Chip.setCtx -/

@[simp] theorem Chip.setCtx_core (d : Chip) (n : Nat) (x : Ctx) : (d.setCtx n x).core = d.core := (rfl)
@[simp] theorem Chip.setCtx_dt (d : Chip) (n : Nat) (x : Ctx) : (d.setCtx n x).dt = d.dt := (rfl)
@[simp] theorem Chip.setCtx_free (d : Chip) (n : Nat) (x : Ctx) : (d.setCtx n x).free = d.free := (rfl)
@[simp] theorem Chip.setCtx_out (d : Chip) (n : Nat) (x : Ctx) : (d.setCtx n x).out = d.out := (rfl)
@[simp] theorem Chip.setCtx_regs (d : Chip) (n : Nat) (x : Ctx) : (d.setCtx n x).regs = d.regs := (rfl)
@[simp] theorem Chip.setCtx_log (d : Chip) (n : Nat) (x : Ctx) : (d.setCtx n x).log = d.log := (rfl)
@[simp] theorem Chip.setCtx_lanes (d : Chip) (n : Nat) (x : Ctx) : (d.setCtx n x).lanes = d.lanes := (rfl)
@[simp] theorem Chip.setCtx_mmbs (d : Chip) (n : Nat) (x : Ctx) : (d.setCtx n x).mmbs = d.mmbs := (rfl)
@[simp] theorem Chip.setCtx_cals (d : Chip) (n : Nat) (x : Ctx) : (d.setCtx n x).cals = d.cals := (rfl)
@[simp] theorem Chip.setCtx_hunters (d : Chip) (n : Nat) (x : Ctx) : (d.setCtx n x).hunters = d.hunters := (rfl)
@[simp] theorem Chip.setCtx_caps (d : Chip) (n : Nat) (x : Ctx) : (d.setCtx n x).caps = d.caps := (rfl)
@[simp] theorem Chip.setCtx_writers (d : Chip) (n : Nat) (x : Ctx) : (d.setCtx n x).writers = d.writers := (rfl)
@[simp] theorem Chip.setCtx_rgns (d : Chip) (n : Nat) (x : Ctx) : (d.setCtx n x).rgns = d.rgns := (rfl)
@[simp] theorem Chip.setCtx_combs (d : Chip) (n : Nat) (x : Ctx) : (d.setCtx n x).combs = d.combs := (rfl)
@[simp] theorem Chip.setCtx_cmps (d : Chip) (n : Nat) (x : Ctx) : (d.setCtx n x).cmps = d.cmps := (rfl)
@[simp] theorem Chip.setCtx_lines (d : Chip) (n : Nat) (x : Ctx) : (d.setCtx n x).lines = d.lines := (rfl)
@[simp] theorem Chip.setCtx_mats (d : Chip) (n : Nat) (x : Ctx) : (d.setCtx n x).mats = d.mats := (rfl)
@[simp] theorem Chip.setCtx_yard (d : Chip) (n : Nat) (x : Ctx) : (d.setCtx n x).yard = d.yard := (rfl)
@[simp] theorem Chip.setCtx_hbm (d : Chip) (n : Nat) (x : Ctx) : (d.setCtx n x).hbm = d.hbm := (rfl)
@[simp] theorem Chip.setCtx_defts (d : Chip) (n : Nat) (x : Ctx) : (d.setCtx n x).defts = d.defts := (rfl)
@[simp] theorem Chip.setCtx_paths (d : Chip) (n : Nat) (x : Ctx) : (d.setCtx n x).paths = d.paths := (rfl)
@[simp] theorem Chip.setCtx_mons (d : Chip) (n : Nat) (x : Ctx) : (d.setCtx n x).mons = d.mons := (rfl)
@[simp] theorem Chip.setCtx_groups (d : Chip) (n : Nat) (x : Ctx) : (d.setCtx n x).groups = d.groups := (rfl)
@[simp] theorem Chip.setCtx_dsks (d : Chip) (n : Nat) (x : Ctx) : (d.setCtx n x).dsks = d.dsks := (rfl)
@[simp] theorem Chip.setCtx_traces (d : Chip) (n : Nat) (x : Ctx) : (d.setCtx n x).traces = d.traces := (rfl)
@[simp] theorem Chip.setCtx_ohps (d : Chip) (n : Nat) (x : Ctx) : (d.setCtx n x).ohps = d.ohps := (rfl)
@[simp] theorem Chip.setCtx_ctxs (d : Chip) (n : Nat) (x : Ctx) : (d.setCtx n x).ctxs = SMap.put Ctx.init d.ctxs n x := (rfl)
@[simp] theorem Chip.setCtx_pats (d : Chip) (n : Nat) (x : Ctx) : (d.setCtx n x).pats = d.pats := (rfl)
@[simp] theorem Chip.setCtx_engRdy (d : Chip) (n : Nat) (x : Ctx) : (d.setCtx n x).engRdy = d.engRdy := (rfl)
@[simp] theorem Chip.setCtx_ledger (d : Chip) (n : Nat) (x : Ctx) : (d.setCtx n x).ledger = d.ledger := (rfl)
@[simp] theorem Chip.setCtx_tim (d : Chip) (n : Nat) (x : Ctx) : (d.setCtx n x).tim = d.tim := (rfl)
@[simp] theorem Chip.setCtx_tps (d : Chip) (n : Nat) (x : Ctx) : (d.setCtx n x).tps = d.tps := (rfl)
@[simp] theorem Chip.setCtx_host (d : Chip) (n : Nat) (x : Ctx) : (d.setCtx n x).host = d.host := (rfl)
@[simp] theorem Chip.setCtx_sec (d : Chip) (n : Nat) (x : Ctx) : (d.setCtx n x).sec = d.sec := (rfl)
@[simp] theorem Chip.setCtx_pav (d : Chip) (n : Nat) (x : Ctx) : (d.setCtx n x).pav = d.pav := (rfl)
@[simp] theorem Chip.setCtx_gth (d : Chip) (n : Nat) (x : Ctx) : (d.setCtx n x).gth = d.gth := (rfl)
@[simp] theorem Chip.setCtx_tdm (d : Chip) (n : Nat) (x : Ctx) : (d.setCtx n x).tdm = d.tdm := (rfl)
@[simp] theorem Chip.setCtx_svc (d : Chip) (n : Nat) (x : Ctx) : (d.setCtx n x).svc = d.svc := (rfl)
@[simp] theorem Chip.setCtx_pwr (d : Chip) (n : Nat) (x : Ctx) : (d.setCtx n x).pwr = d.pwr := (rfl)

/-! ## Chip.setTrace -/

@[simp] theorem Chip.setTrace_core (d : Chip) (n : Nat) (x : Trace) : (d.setTrace n x).core = d.core := (rfl)
@[simp] theorem Chip.setTrace_dt (d : Chip) (n : Nat) (x : Trace) : (d.setTrace n x).dt = d.dt := (rfl)
@[simp] theorem Chip.setTrace_free (d : Chip) (n : Nat) (x : Trace) : (d.setTrace n x).free = d.free := (rfl)
@[simp] theorem Chip.setTrace_out (d : Chip) (n : Nat) (x : Trace) : (d.setTrace n x).out = d.out := (rfl)
@[simp] theorem Chip.setTrace_regs (d : Chip) (n : Nat) (x : Trace) : (d.setTrace n x).regs = d.regs := (rfl)
@[simp] theorem Chip.setTrace_log (d : Chip) (n : Nat) (x : Trace) : (d.setTrace n x).log = d.log := (rfl)
@[simp] theorem Chip.setTrace_lanes (d : Chip) (n : Nat) (x : Trace) : (d.setTrace n x).lanes = d.lanes := (rfl)
@[simp] theorem Chip.setTrace_mmbs (d : Chip) (n : Nat) (x : Trace) : (d.setTrace n x).mmbs = d.mmbs := (rfl)
@[simp] theorem Chip.setTrace_cals (d : Chip) (n : Nat) (x : Trace) : (d.setTrace n x).cals = d.cals := (rfl)
@[simp] theorem Chip.setTrace_hunters (d : Chip) (n : Nat) (x : Trace) : (d.setTrace n x).hunters = d.hunters := (rfl)
@[simp] theorem Chip.setTrace_caps (d : Chip) (n : Nat) (x : Trace) : (d.setTrace n x).caps = d.caps := (rfl)
@[simp] theorem Chip.setTrace_writers (d : Chip) (n : Nat) (x : Trace) : (d.setTrace n x).writers = d.writers := (rfl)
@[simp] theorem Chip.setTrace_rgns (d : Chip) (n : Nat) (x : Trace) : (d.setTrace n x).rgns = d.rgns := (rfl)
@[simp] theorem Chip.setTrace_combs (d : Chip) (n : Nat) (x : Trace) : (d.setTrace n x).combs = d.combs := (rfl)
@[simp] theorem Chip.setTrace_cmps (d : Chip) (n : Nat) (x : Trace) : (d.setTrace n x).cmps = d.cmps := (rfl)
@[simp] theorem Chip.setTrace_lines (d : Chip) (n : Nat) (x : Trace) : (d.setTrace n x).lines = d.lines := (rfl)
@[simp] theorem Chip.setTrace_mats (d : Chip) (n : Nat) (x : Trace) : (d.setTrace n x).mats = d.mats := (rfl)
@[simp] theorem Chip.setTrace_yard (d : Chip) (n : Nat) (x : Trace) : (d.setTrace n x).yard = d.yard := (rfl)
@[simp] theorem Chip.setTrace_hbm (d : Chip) (n : Nat) (x : Trace) : (d.setTrace n x).hbm = d.hbm := (rfl)
@[simp] theorem Chip.setTrace_defts (d : Chip) (n : Nat) (x : Trace) : (d.setTrace n x).defts = d.defts := (rfl)
@[simp] theorem Chip.setTrace_paths (d : Chip) (n : Nat) (x : Trace) : (d.setTrace n x).paths = d.paths := (rfl)
@[simp] theorem Chip.setTrace_mons (d : Chip) (n : Nat) (x : Trace) : (d.setTrace n x).mons = d.mons := (rfl)
@[simp] theorem Chip.setTrace_groups (d : Chip) (n : Nat) (x : Trace) : (d.setTrace n x).groups = d.groups := (rfl)
@[simp] theorem Chip.setTrace_dsks (d : Chip) (n : Nat) (x : Trace) : (d.setTrace n x).dsks = d.dsks := (rfl)
@[simp] theorem Chip.setTrace_traces (d : Chip) (n : Nat) (x : Trace) : (d.setTrace n x).traces = SMap.put Trace.init d.traces n x := (rfl)
@[simp] theorem Chip.setTrace_ohps (d : Chip) (n : Nat) (x : Trace) : (d.setTrace n x).ohps = d.ohps := (rfl)
@[simp] theorem Chip.setTrace_ctxs (d : Chip) (n : Nat) (x : Trace) : (d.setTrace n x).ctxs = d.ctxs := (rfl)
@[simp] theorem Chip.setTrace_pats (d : Chip) (n : Nat) (x : Trace) : (d.setTrace n x).pats = d.pats := (rfl)
@[simp] theorem Chip.setTrace_engRdy (d : Chip) (n : Nat) (x : Trace) : (d.setTrace n x).engRdy = d.engRdy := (rfl)
@[simp] theorem Chip.setTrace_ledger (d : Chip) (n : Nat) (x : Trace) : (d.setTrace n x).ledger = d.ledger := (rfl)
@[simp] theorem Chip.setTrace_tim (d : Chip) (n : Nat) (x : Trace) : (d.setTrace n x).tim = d.tim := (rfl)
@[simp] theorem Chip.setTrace_tps (d : Chip) (n : Nat) (x : Trace) : (d.setTrace n x).tps = d.tps := (rfl)
@[simp] theorem Chip.setTrace_host (d : Chip) (n : Nat) (x : Trace) : (d.setTrace n x).host = d.host := (rfl)
@[simp] theorem Chip.setTrace_sec (d : Chip) (n : Nat) (x : Trace) : (d.setTrace n x).sec = d.sec := (rfl)
@[simp] theorem Chip.setTrace_pav (d : Chip) (n : Nat) (x : Trace) : (d.setTrace n x).pav = d.pav := (rfl)
@[simp] theorem Chip.setTrace_gth (d : Chip) (n : Nat) (x : Trace) : (d.setTrace n x).gth = d.gth := (rfl)
@[simp] theorem Chip.setTrace_tdm (d : Chip) (n : Nat) (x : Trace) : (d.setTrace n x).tdm = d.tdm := (rfl)
@[simp] theorem Chip.setTrace_svc (d : Chip) (n : Nat) (x : Trace) : (d.setTrace n x).svc = d.svc := (rfl)
@[simp] theorem Chip.setTrace_pwr (d : Chip) (n : Nat) (x : Trace) : (d.setTrace n x).pwr = d.pwr := (rfl)

/-! ## Chip.setPat -/

@[simp] theorem Chip.setPat_core (d : Chip) (n : Nat) (x : Pat) : (d.setPat n x).core = d.core := (rfl)
@[simp] theorem Chip.setPat_dt (d : Chip) (n : Nat) (x : Pat) : (d.setPat n x).dt = d.dt := (rfl)
@[simp] theorem Chip.setPat_free (d : Chip) (n : Nat) (x : Pat) : (d.setPat n x).free = d.free := (rfl)
@[simp] theorem Chip.setPat_out (d : Chip) (n : Nat) (x : Pat) : (d.setPat n x).out = d.out := (rfl)
@[simp] theorem Chip.setPat_regs (d : Chip) (n : Nat) (x : Pat) : (d.setPat n x).regs = d.regs := (rfl)
@[simp] theorem Chip.setPat_log (d : Chip) (n : Nat) (x : Pat) : (d.setPat n x).log = d.log := (rfl)
@[simp] theorem Chip.setPat_lanes (d : Chip) (n : Nat) (x : Pat) : (d.setPat n x).lanes = d.lanes := (rfl)
@[simp] theorem Chip.setPat_mmbs (d : Chip) (n : Nat) (x : Pat) : (d.setPat n x).mmbs = d.mmbs := (rfl)
@[simp] theorem Chip.setPat_cals (d : Chip) (n : Nat) (x : Pat) : (d.setPat n x).cals = d.cals := (rfl)
@[simp] theorem Chip.setPat_hunters (d : Chip) (n : Nat) (x : Pat) : (d.setPat n x).hunters = d.hunters := (rfl)
@[simp] theorem Chip.setPat_caps (d : Chip) (n : Nat) (x : Pat) : (d.setPat n x).caps = d.caps := (rfl)
@[simp] theorem Chip.setPat_writers (d : Chip) (n : Nat) (x : Pat) : (d.setPat n x).writers = d.writers := (rfl)
@[simp] theorem Chip.setPat_rgns (d : Chip) (n : Nat) (x : Pat) : (d.setPat n x).rgns = d.rgns := (rfl)
@[simp] theorem Chip.setPat_combs (d : Chip) (n : Nat) (x : Pat) : (d.setPat n x).combs = d.combs := (rfl)
@[simp] theorem Chip.setPat_cmps (d : Chip) (n : Nat) (x : Pat) : (d.setPat n x).cmps = d.cmps := (rfl)
@[simp] theorem Chip.setPat_lines (d : Chip) (n : Nat) (x : Pat) : (d.setPat n x).lines = d.lines := (rfl)
@[simp] theorem Chip.setPat_mats (d : Chip) (n : Nat) (x : Pat) : (d.setPat n x).mats = d.mats := (rfl)
@[simp] theorem Chip.setPat_yard (d : Chip) (n : Nat) (x : Pat) : (d.setPat n x).yard = d.yard := (rfl)
@[simp] theorem Chip.setPat_hbm (d : Chip) (n : Nat) (x : Pat) : (d.setPat n x).hbm = d.hbm := (rfl)
@[simp] theorem Chip.setPat_defts (d : Chip) (n : Nat) (x : Pat) : (d.setPat n x).defts = d.defts := (rfl)
@[simp] theorem Chip.setPat_paths (d : Chip) (n : Nat) (x : Pat) : (d.setPat n x).paths = d.paths := (rfl)
@[simp] theorem Chip.setPat_mons (d : Chip) (n : Nat) (x : Pat) : (d.setPat n x).mons = d.mons := (rfl)
@[simp] theorem Chip.setPat_groups (d : Chip) (n : Nat) (x : Pat) : (d.setPat n x).groups = d.groups := (rfl)
@[simp] theorem Chip.setPat_dsks (d : Chip) (n : Nat) (x : Pat) : (d.setPat n x).dsks = d.dsks := (rfl)
@[simp] theorem Chip.setPat_traces (d : Chip) (n : Nat) (x : Pat) : (d.setPat n x).traces = d.traces := (rfl)
@[simp] theorem Chip.setPat_ohps (d : Chip) (n : Nat) (x : Pat) : (d.setPat n x).ohps = d.ohps := (rfl)
@[simp] theorem Chip.setPat_ctxs (d : Chip) (n : Nat) (x : Pat) : (d.setPat n x).ctxs = d.ctxs := (rfl)
@[simp] theorem Chip.setPat_pats (d : Chip) (n : Nat) (x : Pat) : (d.setPat n x).pats = SMap.put Pat.init d.pats n x := (rfl)
@[simp] theorem Chip.setPat_engRdy (d : Chip) (n : Nat) (x : Pat) : (d.setPat n x).engRdy = d.engRdy := (rfl)
@[simp] theorem Chip.setPat_ledger (d : Chip) (n : Nat) (x : Pat) : (d.setPat n x).ledger = d.ledger := (rfl)
@[simp] theorem Chip.setPat_tim (d : Chip) (n : Nat) (x : Pat) : (d.setPat n x).tim = d.tim := (rfl)
@[simp] theorem Chip.setPat_tps (d : Chip) (n : Nat) (x : Pat) : (d.setPat n x).tps = d.tps := (rfl)
@[simp] theorem Chip.setPat_host (d : Chip) (n : Nat) (x : Pat) : (d.setPat n x).host = d.host := (rfl)
@[simp] theorem Chip.setPat_sec (d : Chip) (n : Nat) (x : Pat) : (d.setPat n x).sec = d.sec := (rfl)
@[simp] theorem Chip.setPat_pav (d : Chip) (n : Nat) (x : Pat) : (d.setPat n x).pav = d.pav := (rfl)
@[simp] theorem Chip.setPat_gth (d : Chip) (n : Nat) (x : Pat) : (d.setPat n x).gth = d.gth := (rfl)
@[simp] theorem Chip.setPat_tdm (d : Chip) (n : Nat) (x : Pat) : (d.setPat n x).tdm = d.tdm := (rfl)
@[simp] theorem Chip.setPat_svc (d : Chip) (n : Nat) (x : Pat) : (d.setPat n x).svc = d.svc := (rfl)
@[simp] theorem Chip.setPat_pwr (d : Chip) (n : Nat) (x : Pat) : (d.setPat n x).pwr = d.pwr := (rfl)

/-! ## Chip.setDefT -/

@[simp] theorem Chip.setDefT_core (d : Chip) (k : DKey) (x : DefT) : (d.setDefT k x).core = d.core := (rfl)
@[simp] theorem Chip.setDefT_dt (d : Chip) (k : DKey) (x : DefT) : (d.setDefT k x).dt = d.dt := (rfl)
@[simp] theorem Chip.setDefT_free (d : Chip) (k : DKey) (x : DefT) : (d.setDefT k x).free = d.free := (rfl)
@[simp] theorem Chip.setDefT_out (d : Chip) (k : DKey) (x : DefT) : (d.setDefT k x).out = d.out := (rfl)
@[simp] theorem Chip.setDefT_regs (d : Chip) (k : DKey) (x : DefT) : (d.setDefT k x).regs = d.regs := (rfl)
@[simp] theorem Chip.setDefT_log (d : Chip) (k : DKey) (x : DefT) : (d.setDefT k x).log = d.log := (rfl)
@[simp] theorem Chip.setDefT_lanes (d : Chip) (k : DKey) (x : DefT) : (d.setDefT k x).lanes = d.lanes := (rfl)
@[simp] theorem Chip.setDefT_mmbs (d : Chip) (k : DKey) (x : DefT) : (d.setDefT k x).mmbs = d.mmbs := (rfl)
@[simp] theorem Chip.setDefT_cals (d : Chip) (k : DKey) (x : DefT) : (d.setDefT k x).cals = d.cals := (rfl)
@[simp] theorem Chip.setDefT_hunters (d : Chip) (k : DKey) (x : DefT) : (d.setDefT k x).hunters = d.hunters := (rfl)
@[simp] theorem Chip.setDefT_caps (d : Chip) (k : DKey) (x : DefT) : (d.setDefT k x).caps = d.caps := (rfl)
@[simp] theorem Chip.setDefT_writers (d : Chip) (k : DKey) (x : DefT) : (d.setDefT k x).writers = d.writers := (rfl)
@[simp] theorem Chip.setDefT_rgns (d : Chip) (k : DKey) (x : DefT) : (d.setDefT k x).rgns = d.rgns := (rfl)
@[simp] theorem Chip.setDefT_combs (d : Chip) (k : DKey) (x : DefT) : (d.setDefT k x).combs = d.combs := (rfl)
@[simp] theorem Chip.setDefT_cmps (d : Chip) (k : DKey) (x : DefT) : (d.setDefT k x).cmps = d.cmps := (rfl)
@[simp] theorem Chip.setDefT_lines (d : Chip) (k : DKey) (x : DefT) : (d.setDefT k x).lines = d.lines := (rfl)
@[simp] theorem Chip.setDefT_mats (d : Chip) (k : DKey) (x : DefT) : (d.setDefT k x).mats = d.mats := (rfl)
@[simp] theorem Chip.setDefT_yard (d : Chip) (k : DKey) (x : DefT) : (d.setDefT k x).yard = d.yard := (rfl)
@[simp] theorem Chip.setDefT_hbm (d : Chip) (k : DKey) (x : DefT) : (d.setDefT k x).hbm = d.hbm := (rfl)
@[simp] theorem Chip.setDefT_defts (d : Chip) (k : DKey) (x : DefT) : (d.setDefT k x).defts = SMap.put DefT.init d.defts k.key x := (rfl)
@[simp] theorem Chip.setDefT_paths (d : Chip) (k : DKey) (x : DefT) : (d.setDefT k x).paths = d.paths := (rfl)
@[simp] theorem Chip.setDefT_mons (d : Chip) (k : DKey) (x : DefT) : (d.setDefT k x).mons = d.mons := (rfl)
@[simp] theorem Chip.setDefT_groups (d : Chip) (k : DKey) (x : DefT) : (d.setDefT k x).groups = d.groups := (rfl)
@[simp] theorem Chip.setDefT_dsks (d : Chip) (k : DKey) (x : DefT) : (d.setDefT k x).dsks = d.dsks := (rfl)
@[simp] theorem Chip.setDefT_traces (d : Chip) (k : DKey) (x : DefT) : (d.setDefT k x).traces = d.traces := (rfl)
@[simp] theorem Chip.setDefT_ohps (d : Chip) (k : DKey) (x : DefT) : (d.setDefT k x).ohps = d.ohps := (rfl)
@[simp] theorem Chip.setDefT_ctxs (d : Chip) (k : DKey) (x : DefT) : (d.setDefT k x).ctxs = d.ctxs := (rfl)
@[simp] theorem Chip.setDefT_pats (d : Chip) (k : DKey) (x : DefT) : (d.setDefT k x).pats = d.pats := (rfl)
@[simp] theorem Chip.setDefT_engRdy (d : Chip) (k : DKey) (x : DefT) : (d.setDefT k x).engRdy = d.engRdy := (rfl)
@[simp] theorem Chip.setDefT_ledger (d : Chip) (k : DKey) (x : DefT) : (d.setDefT k x).ledger = d.ledger := (rfl)
@[simp] theorem Chip.setDefT_tim (d : Chip) (k : DKey) (x : DefT) : (d.setDefT k x).tim = d.tim := (rfl)
@[simp] theorem Chip.setDefT_tps (d : Chip) (k : DKey) (x : DefT) : (d.setDefT k x).tps = d.tps := (rfl)
@[simp] theorem Chip.setDefT_host (d : Chip) (k : DKey) (x : DefT) : (d.setDefT k x).host = d.host := (rfl)
@[simp] theorem Chip.setDefT_sec (d : Chip) (k : DKey) (x : DefT) : (d.setDefT k x).sec = d.sec := (rfl)
@[simp] theorem Chip.setDefT_pav (d : Chip) (k : DKey) (x : DefT) : (d.setDefT k x).pav = d.pav := (rfl)
@[simp] theorem Chip.setDefT_gth (d : Chip) (k : DKey) (x : DefT) : (d.setDefT k x).gth = d.gth := (rfl)
@[simp] theorem Chip.setDefT_tdm (d : Chip) (k : DKey) (x : DefT) : (d.setDefT k x).tdm = d.tdm := (rfl)
@[simp] theorem Chip.setDefT_svc (d : Chip) (k : DKey) (x : DefT) : (d.setDefT k x).svc = d.svc := (rfl)
@[simp] theorem Chip.setDefT_pwr (d : Chip) (k : DKey) (x : DefT) : (d.setDefT k x).pwr = d.pwr := (rfl)

/-! ## Chip.setMon -/

@[simp] theorem Chip.setMon_core (d : Chip) (n : Nat) (x : DefMon) : (d.setMon n x).core = d.core := (rfl)
@[simp] theorem Chip.setMon_dt (d : Chip) (n : Nat) (x : DefMon) : (d.setMon n x).dt = d.dt := (rfl)
@[simp] theorem Chip.setMon_free (d : Chip) (n : Nat) (x : DefMon) : (d.setMon n x).free = d.free := (rfl)
@[simp] theorem Chip.setMon_out (d : Chip) (n : Nat) (x : DefMon) : (d.setMon n x).out = d.out := (rfl)
@[simp] theorem Chip.setMon_regs (d : Chip) (n : Nat) (x : DefMon) : (d.setMon n x).regs = d.regs := (rfl)
@[simp] theorem Chip.setMon_log (d : Chip) (n : Nat) (x : DefMon) : (d.setMon n x).log = d.log := (rfl)
@[simp] theorem Chip.setMon_lanes (d : Chip) (n : Nat) (x : DefMon) : (d.setMon n x).lanes = d.lanes := (rfl)
@[simp] theorem Chip.setMon_mmbs (d : Chip) (n : Nat) (x : DefMon) : (d.setMon n x).mmbs = d.mmbs := (rfl)
@[simp] theorem Chip.setMon_cals (d : Chip) (n : Nat) (x : DefMon) : (d.setMon n x).cals = d.cals := (rfl)
@[simp] theorem Chip.setMon_hunters (d : Chip) (n : Nat) (x : DefMon) : (d.setMon n x).hunters = d.hunters := (rfl)
@[simp] theorem Chip.setMon_caps (d : Chip) (n : Nat) (x : DefMon) : (d.setMon n x).caps = d.caps := (rfl)
@[simp] theorem Chip.setMon_writers (d : Chip) (n : Nat) (x : DefMon) : (d.setMon n x).writers = d.writers := (rfl)
@[simp] theorem Chip.setMon_rgns (d : Chip) (n : Nat) (x : DefMon) : (d.setMon n x).rgns = d.rgns := (rfl)
@[simp] theorem Chip.setMon_combs (d : Chip) (n : Nat) (x : DefMon) : (d.setMon n x).combs = d.combs := (rfl)
@[simp] theorem Chip.setMon_cmps (d : Chip) (n : Nat) (x : DefMon) : (d.setMon n x).cmps = d.cmps := (rfl)
@[simp] theorem Chip.setMon_lines (d : Chip) (n : Nat) (x : DefMon) : (d.setMon n x).lines = d.lines := (rfl)
@[simp] theorem Chip.setMon_mats (d : Chip) (n : Nat) (x : DefMon) : (d.setMon n x).mats = d.mats := (rfl)
@[simp] theorem Chip.setMon_yard (d : Chip) (n : Nat) (x : DefMon) : (d.setMon n x).yard = d.yard := (rfl)
@[simp] theorem Chip.setMon_hbm (d : Chip) (n : Nat) (x : DefMon) : (d.setMon n x).hbm = d.hbm := (rfl)
@[simp] theorem Chip.setMon_defts (d : Chip) (n : Nat) (x : DefMon) : (d.setMon n x).defts = d.defts := (rfl)
@[simp] theorem Chip.setMon_paths (d : Chip) (n : Nat) (x : DefMon) : (d.setMon n x).paths = d.paths := (rfl)
@[simp] theorem Chip.setMon_mons (d : Chip) (n : Nat) (x : DefMon) : (d.setMon n x).mons = SMap.put DefMon.init d.mons n x := (rfl)
@[simp] theorem Chip.setMon_groups (d : Chip) (n : Nat) (x : DefMon) : (d.setMon n x).groups = d.groups := (rfl)
@[simp] theorem Chip.setMon_dsks (d : Chip) (n : Nat) (x : DefMon) : (d.setMon n x).dsks = d.dsks := (rfl)
@[simp] theorem Chip.setMon_traces (d : Chip) (n : Nat) (x : DefMon) : (d.setMon n x).traces = d.traces := (rfl)
@[simp] theorem Chip.setMon_ohps (d : Chip) (n : Nat) (x : DefMon) : (d.setMon n x).ohps = d.ohps := (rfl)
@[simp] theorem Chip.setMon_ctxs (d : Chip) (n : Nat) (x : DefMon) : (d.setMon n x).ctxs = d.ctxs := (rfl)
@[simp] theorem Chip.setMon_pats (d : Chip) (n : Nat) (x : DefMon) : (d.setMon n x).pats = d.pats := (rfl)
@[simp] theorem Chip.setMon_engRdy (d : Chip) (n : Nat) (x : DefMon) : (d.setMon n x).engRdy = d.engRdy := (rfl)
@[simp] theorem Chip.setMon_ledger (d : Chip) (n : Nat) (x : DefMon) : (d.setMon n x).ledger = d.ledger := (rfl)
@[simp] theorem Chip.setMon_tim (d : Chip) (n : Nat) (x : DefMon) : (d.setMon n x).tim = d.tim := (rfl)
@[simp] theorem Chip.setMon_tps (d : Chip) (n : Nat) (x : DefMon) : (d.setMon n x).tps = d.tps := (rfl)
@[simp] theorem Chip.setMon_host (d : Chip) (n : Nat) (x : DefMon) : (d.setMon n x).host = d.host := (rfl)
@[simp] theorem Chip.setMon_sec (d : Chip) (n : Nat) (x : DefMon) : (d.setMon n x).sec = d.sec := (rfl)
@[simp] theorem Chip.setMon_pav (d : Chip) (n : Nat) (x : DefMon) : (d.setMon n x).pav = d.pav := (rfl)
@[simp] theorem Chip.setMon_gth (d : Chip) (n : Nat) (x : DefMon) : (d.setMon n x).gth = d.gth := (rfl)
@[simp] theorem Chip.setMon_tdm (d : Chip) (n : Nat) (x : DefMon) : (d.setMon n x).tdm = d.tdm := (rfl)
@[simp] theorem Chip.setMon_svc (d : Chip) (n : Nat) (x : DefMon) : (d.setMon n x).svc = d.svc := (rfl)
@[simp] theorem Chip.setMon_pwr (d : Chip) (n : Nat) (x : DefMon) : (d.setMon n x).pwr = d.pwr := (rfl)

/-! ## Chip.setGroup -/

@[simp] theorem Chip.setGroup_core (d : Chip) (n : Nat) (x : Group) : (d.setGroup n x).core = d.core := (rfl)
@[simp] theorem Chip.setGroup_dt (d : Chip) (n : Nat) (x : Group) : (d.setGroup n x).dt = d.dt := (rfl)
@[simp] theorem Chip.setGroup_free (d : Chip) (n : Nat) (x : Group) : (d.setGroup n x).free = d.free := (rfl)
@[simp] theorem Chip.setGroup_out (d : Chip) (n : Nat) (x : Group) : (d.setGroup n x).out = d.out := (rfl)
@[simp] theorem Chip.setGroup_regs (d : Chip) (n : Nat) (x : Group) : (d.setGroup n x).regs = d.regs := (rfl)
@[simp] theorem Chip.setGroup_log (d : Chip) (n : Nat) (x : Group) : (d.setGroup n x).log = d.log := (rfl)
@[simp] theorem Chip.setGroup_lanes (d : Chip) (n : Nat) (x : Group) : (d.setGroup n x).lanes = d.lanes := (rfl)
@[simp] theorem Chip.setGroup_mmbs (d : Chip) (n : Nat) (x : Group) : (d.setGroup n x).mmbs = d.mmbs := (rfl)
@[simp] theorem Chip.setGroup_cals (d : Chip) (n : Nat) (x : Group) : (d.setGroup n x).cals = d.cals := (rfl)
@[simp] theorem Chip.setGroup_hunters (d : Chip) (n : Nat) (x : Group) : (d.setGroup n x).hunters = d.hunters := (rfl)
@[simp] theorem Chip.setGroup_caps (d : Chip) (n : Nat) (x : Group) : (d.setGroup n x).caps = d.caps := (rfl)
@[simp] theorem Chip.setGroup_writers (d : Chip) (n : Nat) (x : Group) : (d.setGroup n x).writers = d.writers := (rfl)
@[simp] theorem Chip.setGroup_rgns (d : Chip) (n : Nat) (x : Group) : (d.setGroup n x).rgns = d.rgns := (rfl)
@[simp] theorem Chip.setGroup_combs (d : Chip) (n : Nat) (x : Group) : (d.setGroup n x).combs = d.combs := (rfl)
@[simp] theorem Chip.setGroup_cmps (d : Chip) (n : Nat) (x : Group) : (d.setGroup n x).cmps = d.cmps := (rfl)
@[simp] theorem Chip.setGroup_lines (d : Chip) (n : Nat) (x : Group) : (d.setGroup n x).lines = d.lines := (rfl)
@[simp] theorem Chip.setGroup_mats (d : Chip) (n : Nat) (x : Group) : (d.setGroup n x).mats = d.mats := (rfl)
@[simp] theorem Chip.setGroup_yard (d : Chip) (n : Nat) (x : Group) : (d.setGroup n x).yard = d.yard := (rfl)
@[simp] theorem Chip.setGroup_hbm (d : Chip) (n : Nat) (x : Group) : (d.setGroup n x).hbm = d.hbm := (rfl)
@[simp] theorem Chip.setGroup_defts (d : Chip) (n : Nat) (x : Group) : (d.setGroup n x).defts = d.defts := (rfl)
@[simp] theorem Chip.setGroup_paths (d : Chip) (n : Nat) (x : Group) : (d.setGroup n x).paths = d.paths := (rfl)
@[simp] theorem Chip.setGroup_mons (d : Chip) (n : Nat) (x : Group) : (d.setGroup n x).mons = d.mons := (rfl)
@[simp] theorem Chip.setGroup_groups (d : Chip) (n : Nat) (x : Group) : (d.setGroup n x).groups = SMap.put Group.init d.groups n x := (rfl)
@[simp] theorem Chip.setGroup_dsks (d : Chip) (n : Nat) (x : Group) : (d.setGroup n x).dsks = d.dsks := (rfl)
@[simp] theorem Chip.setGroup_traces (d : Chip) (n : Nat) (x : Group) : (d.setGroup n x).traces = d.traces := (rfl)
@[simp] theorem Chip.setGroup_ohps (d : Chip) (n : Nat) (x : Group) : (d.setGroup n x).ohps = d.ohps := (rfl)
@[simp] theorem Chip.setGroup_ctxs (d : Chip) (n : Nat) (x : Group) : (d.setGroup n x).ctxs = d.ctxs := (rfl)
@[simp] theorem Chip.setGroup_pats (d : Chip) (n : Nat) (x : Group) : (d.setGroup n x).pats = d.pats := (rfl)
@[simp] theorem Chip.setGroup_engRdy (d : Chip) (n : Nat) (x : Group) : (d.setGroup n x).engRdy = d.engRdy := (rfl)
@[simp] theorem Chip.setGroup_ledger (d : Chip) (n : Nat) (x : Group) : (d.setGroup n x).ledger = d.ledger := (rfl)
@[simp] theorem Chip.setGroup_tim (d : Chip) (n : Nat) (x : Group) : (d.setGroup n x).tim = d.tim := (rfl)
@[simp] theorem Chip.setGroup_tps (d : Chip) (n : Nat) (x : Group) : (d.setGroup n x).tps = d.tps := (rfl)
@[simp] theorem Chip.setGroup_host (d : Chip) (n : Nat) (x : Group) : (d.setGroup n x).host = d.host := (rfl)
@[simp] theorem Chip.setGroup_sec (d : Chip) (n : Nat) (x : Group) : (d.setGroup n x).sec = d.sec := (rfl)
@[simp] theorem Chip.setGroup_pav (d : Chip) (n : Nat) (x : Group) : (d.setGroup n x).pav = d.pav := (rfl)
@[simp] theorem Chip.setGroup_gth (d : Chip) (n : Nat) (x : Group) : (d.setGroup n x).gth = d.gth := (rfl)
@[simp] theorem Chip.setGroup_tdm (d : Chip) (n : Nat) (x : Group) : (d.setGroup n x).tdm = d.tdm := (rfl)
@[simp] theorem Chip.setGroup_svc (d : Chip) (n : Nat) (x : Group) : (d.setGroup n x).svc = d.svc := (rfl)
@[simp] theorem Chip.setGroup_pwr (d : Chip) (n : Nat) (x : Group) : (d.setGroup n x).pwr = d.pwr := (rfl)

/-! ## Chip.setDsk -/

@[simp] theorem Chip.setDsk_core (d : Chip) (n : Nat) (x : Dsk) : (d.setDsk n x).core = d.core := (rfl)
@[simp] theorem Chip.setDsk_dt (d : Chip) (n : Nat) (x : Dsk) : (d.setDsk n x).dt = d.dt := (rfl)
@[simp] theorem Chip.setDsk_free (d : Chip) (n : Nat) (x : Dsk) : (d.setDsk n x).free = d.free := (rfl)
@[simp] theorem Chip.setDsk_out (d : Chip) (n : Nat) (x : Dsk) : (d.setDsk n x).out = d.out := (rfl)
@[simp] theorem Chip.setDsk_regs (d : Chip) (n : Nat) (x : Dsk) : (d.setDsk n x).regs = d.regs := (rfl)
@[simp] theorem Chip.setDsk_log (d : Chip) (n : Nat) (x : Dsk) : (d.setDsk n x).log = d.log := (rfl)
@[simp] theorem Chip.setDsk_lanes (d : Chip) (n : Nat) (x : Dsk) : (d.setDsk n x).lanes = d.lanes := (rfl)
@[simp] theorem Chip.setDsk_mmbs (d : Chip) (n : Nat) (x : Dsk) : (d.setDsk n x).mmbs = d.mmbs := (rfl)
@[simp] theorem Chip.setDsk_cals (d : Chip) (n : Nat) (x : Dsk) : (d.setDsk n x).cals = d.cals := (rfl)
@[simp] theorem Chip.setDsk_hunters (d : Chip) (n : Nat) (x : Dsk) : (d.setDsk n x).hunters = d.hunters := (rfl)
@[simp] theorem Chip.setDsk_caps (d : Chip) (n : Nat) (x : Dsk) : (d.setDsk n x).caps = d.caps := (rfl)
@[simp] theorem Chip.setDsk_writers (d : Chip) (n : Nat) (x : Dsk) : (d.setDsk n x).writers = d.writers := (rfl)
@[simp] theorem Chip.setDsk_rgns (d : Chip) (n : Nat) (x : Dsk) : (d.setDsk n x).rgns = d.rgns := (rfl)
@[simp] theorem Chip.setDsk_combs (d : Chip) (n : Nat) (x : Dsk) : (d.setDsk n x).combs = d.combs := (rfl)
@[simp] theorem Chip.setDsk_cmps (d : Chip) (n : Nat) (x : Dsk) : (d.setDsk n x).cmps = d.cmps := (rfl)
@[simp] theorem Chip.setDsk_lines (d : Chip) (n : Nat) (x : Dsk) : (d.setDsk n x).lines = d.lines := (rfl)
@[simp] theorem Chip.setDsk_mats (d : Chip) (n : Nat) (x : Dsk) : (d.setDsk n x).mats = d.mats := (rfl)
@[simp] theorem Chip.setDsk_yard (d : Chip) (n : Nat) (x : Dsk) : (d.setDsk n x).yard = d.yard := (rfl)
@[simp] theorem Chip.setDsk_hbm (d : Chip) (n : Nat) (x : Dsk) : (d.setDsk n x).hbm = d.hbm := (rfl)
@[simp] theorem Chip.setDsk_defts (d : Chip) (n : Nat) (x : Dsk) : (d.setDsk n x).defts = d.defts := (rfl)
@[simp] theorem Chip.setDsk_paths (d : Chip) (n : Nat) (x : Dsk) : (d.setDsk n x).paths = d.paths := (rfl)
@[simp] theorem Chip.setDsk_mons (d : Chip) (n : Nat) (x : Dsk) : (d.setDsk n x).mons = d.mons := (rfl)
@[simp] theorem Chip.setDsk_groups (d : Chip) (n : Nat) (x : Dsk) : (d.setDsk n x).groups = d.groups := (rfl)
@[simp] theorem Chip.setDsk_dsks (d : Chip) (n : Nat) (x : Dsk) : (d.setDsk n x).dsks = SMap.put Dsk.init d.dsks n x := (rfl)
@[simp] theorem Chip.setDsk_traces (d : Chip) (n : Nat) (x : Dsk) : (d.setDsk n x).traces = d.traces := (rfl)
@[simp] theorem Chip.setDsk_ohps (d : Chip) (n : Nat) (x : Dsk) : (d.setDsk n x).ohps = d.ohps := (rfl)
@[simp] theorem Chip.setDsk_ctxs (d : Chip) (n : Nat) (x : Dsk) : (d.setDsk n x).ctxs = d.ctxs := (rfl)
@[simp] theorem Chip.setDsk_pats (d : Chip) (n : Nat) (x : Dsk) : (d.setDsk n x).pats = d.pats := (rfl)
@[simp] theorem Chip.setDsk_engRdy (d : Chip) (n : Nat) (x : Dsk) : (d.setDsk n x).engRdy = d.engRdy := (rfl)
@[simp] theorem Chip.setDsk_ledger (d : Chip) (n : Nat) (x : Dsk) : (d.setDsk n x).ledger = d.ledger := (rfl)
@[simp] theorem Chip.setDsk_tim (d : Chip) (n : Nat) (x : Dsk) : (d.setDsk n x).tim = d.tim := (rfl)
@[simp] theorem Chip.setDsk_tps (d : Chip) (n : Nat) (x : Dsk) : (d.setDsk n x).tps = d.tps := (rfl)
@[simp] theorem Chip.setDsk_host (d : Chip) (n : Nat) (x : Dsk) : (d.setDsk n x).host = d.host := (rfl)
@[simp] theorem Chip.setDsk_sec (d : Chip) (n : Nat) (x : Dsk) : (d.setDsk n x).sec = d.sec := (rfl)
@[simp] theorem Chip.setDsk_pav (d : Chip) (n : Nat) (x : Dsk) : (d.setDsk n x).pav = d.pav := (rfl)
@[simp] theorem Chip.setDsk_gth (d : Chip) (n : Nat) (x : Dsk) : (d.setDsk n x).gth = d.gth := (rfl)
@[simp] theorem Chip.setDsk_tdm (d : Chip) (n : Nat) (x : Dsk) : (d.setDsk n x).tdm = d.tdm := (rfl)
@[simp] theorem Chip.setDsk_svc (d : Chip) (n : Nat) (x : Dsk) : (d.setDsk n x).svc = d.svc := (rfl)
@[simp] theorem Chip.setDsk_pwr (d : Chip) (n : Nat) (x : Dsk) : (d.setDsk n x).pwr = d.pwr := (rfl)

end Sys2Proof.Machine
end

