-- ==== Sys2Proof/Laws/Tables.lean ====
section
/-! SUPPORT. What the sparse tables, memory and the register table do: a read after a write, and the canonical form
that every write keeps. -/

set_option Elab.async false

namespace Sys2Proof.Machine

/-! ## Sparse tables -/

theorem SMap.get_erase_same {α : Type} (d : α) (m : SMap α) (k : Nat) : SMap.get d (SMap.erase m k) k = d := by
  induction m with
  | nil => rfl
  | cons x m ih =>
    obtain ⟨a, v⟩ := x
    by_cases h : a = k <;> simp [SMap.erase, SMap.get, h, ih]

theorem SMap.get_erase_other {α : Type} (d : α) (m : SMap α) {k j : Nat} (hj : j ≠ k) :
    SMap.get d (SMap.erase m k) j = SMap.get d m j := by
  induction m with
  | nil => rfl
  | cons x m ih =>
    obtain ⟨a, v⟩ := x
    by_cases h : a = k
    · subst h
      simp [SMap.erase, SMap.get, Ne.symm hj, ih]
    · by_cases h2 : a = j <;> simp [SMap.erase, SMap.get, h, h2, ih]
      subst h2
      simp [h, SMap.get]

theorem SMap.get_insert_same {α : Type} (d : α) (m : SMap α) (k : Nat) (v : α) :
    SMap.get d (SMap.insert k v m) k = v := by
  induction m with
  | nil => simp [SMap.insert, SMap.get]
  | cons x m ih =>
    obtain ⟨a, w⟩ := x
    unfold SMap.insert
    split
    · simp [SMap.get]
    · split
      · simp [SMap.get]
      · rename_i h
        simp [SMap.get, h, ih]

theorem SMap.get_insert_other {α : Type} (d : α) (m : SMap α) {k j : Nat} (v : α) (hj : j ≠ k) :
    SMap.get d (SMap.insert k v m) j = SMap.get d m j := by
  induction m with
  | nil => simp [SMap.insert, SMap.get, Ne.symm hj]
  | cons x m ih =>
    obtain ⟨a, w⟩ := x
    unfold SMap.insert
    split
    · simp [SMap.get, Ne.symm hj]
    · split
      · rename_i h
        subst h
        simp [SMap.get, Ne.symm hj]
      · simp [SMap.get, ih]

@[simp] theorem SMap.get_put_same {α : Type} [DecidableEq α] (d : α) (m : SMap α) (k : Nat) (v : α) :
    SMap.get d (SMap.put d m k v) k = v := by
  unfold SMap.put
  split
  · rename_i h
    rw [SMap.get_erase_same, h]
  · exact SMap.get_insert_same d m k v

theorem SMap.get_put_other {α : Type} [DecidableEq α] (d d' : α) (m : SMap α) {k j : Nat} (v : α) (hj : j ≠ k) :
    SMap.get d (SMap.put d' m k v) j = SMap.get d m j := by
  unfold SMap.put
  split
  · exact SMap.get_erase_other d m hj
  · exact SMap.get_insert_other d m v hj

theorem SMap.get_put {α : Type} [DecidableEq α] (d : α) (m : SMap α) (k j : Nat) (v : α) :
    SMap.get d (SMap.put d m k v) j = if j = k then v else SMap.get d m j := by
  split
  · rename_i h
    rw [h, SMap.get_put_same]
  · rename_i h
    exact SMap.get_put_other d d m v h

/-- A lower bound may be loosened. -/
theorem SMap.wfFrom_weaken {α : Type} [DecidableEq α] (d : Nat → α) (m : SMap α) (a b : Nat) (h : b ≤ a)
    (hw : SMap.wfFrom d (some a) m = true) : SMap.wfFrom d (some b) m = true := by
  cases m with
  | nil => rfl
  | cons x m =>
    obtain ⟨k, v⟩ := x
    simp only [SMap.wfFrom, Bool.and_eq_true, decide_eq_true_eq] at hw ⊢
    exact ⟨⟨by omega, hw.1.2⟩, hw.2⟩

theorem SMap.wfFrom_erase {α : Type} [DecidableEq α] (d : Nat → α) (m : SMap α) (k : Nat) :
    ∀ lo, SMap.wfFrom d lo m = true → SMap.wfFrom d lo (SMap.erase m k) = true := by
  induction m with
  | nil => intro lo h; exact h
  | cons x m ih =>
    obtain ⟨a, v⟩ := x
    intro lo h
    simp only [SMap.wfFrom, Bool.and_eq_true, decide_eq_true_eq] at h
    unfold SMap.erase
    split
    · refine ih lo ?_
      cases lo with
      | none =>
        cases m with
        | nil => rfl
        | cons y m =>
          obtain ⟨b, w⟩ := y
          have h2 := h.2
          simp only [SMap.wfFrom, Bool.and_eq_true, decide_eq_true_eq] at h2 ⊢
          exact ⟨⟨trivial, h2.1.2⟩, h2.2⟩
      | some l => exact SMap.wfFrom_weaken d m a l (by have := h.1.1; simp at this; omega) h.2
    · simp only [SMap.wfFrom, Bool.and_eq_true, decide_eq_true_eq]
      exact ⟨h.1, ih _ h.2⟩

/-- Entries may be dropped by any test. -/
theorem SMap.wfFrom_filter {α : Type} [DecidableEq α] (d : Nat → α) (p : Nat × α → Bool) (m : SMap α) :
    ∀ lo, SMap.wfFrom d lo m = true → SMap.wfFrom d lo (m.filter p) = true := by
  induction m with
  | nil => intro lo h; exact h
  | cons x m ih =>
    obtain ⟨a, v⟩ := x
    intro lo h
    simp only [SMap.wfFrom, Bool.and_eq_true, decide_eq_true_eq] at h
    cases hp : p (a, v) with
    | true =>
      simp only [List.filter_cons, hp, if_true, SMap.wfFrom, Bool.and_eq_true, decide_eq_true_eq]
      exact ⟨h.1, ih _ h.2⟩
    | false =>
      simp only [List.filter_cons, hp, Bool.false_eq_true, if_false]
      refine ih lo ?_
      cases lo with
      | none =>
        cases m with
        | nil => rfl
        | cons y m =>
          obtain ⟨b, w⟩ := y
          have h2 := h.2
          simp only [SMap.wfFrom, Bool.and_eq_true, decide_eq_true_eq] at h2 ⊢
          exact ⟨⟨trivial, h2.1.2⟩, h2.2⟩
      | some l => exact SMap.wfFrom_weaken d m a l (by have := h.1.1; simp at this; omega) h.2

theorem SMap.wfFrom_insert {α : Type} [DecidableEq α] (d : Nat → α) (m : SMap α) (k : Nat) (v : α) (hv : v ≠ d k) :
    ∀ lo, (match lo with | none => true | some l => decide (l < k)) = true → SMap.wfFrom d lo m = true →
      SMap.wfFrom d lo (SMap.insert k v m) = true := by
  induction m with
  | nil =>
    intro lo hl _
    simp only [SMap.insert, SMap.wfFrom, Bool.and_eq_true, decide_eq_true_eq]
    exact ⟨⟨hl, hv⟩, trivial⟩
  | cons x m ih =>
    obtain ⟨a, w⟩ := x
    intro lo hl h
    have h' := h
    simp only [SMap.wfFrom, Bool.and_eq_true, decide_eq_true_eq] at h
    unfold SMap.insert
    split
    · rename_i hk
      simp only [SMap.wfFrom, Bool.and_eq_true, decide_eq_true_eq]
      exact ⟨⟨hl, hv⟩, ⟨hk, h.1.2⟩, h.2⟩
    · split
      · rename_i hk
        subst hk
        simp only [SMap.wfFrom, Bool.and_eq_true, decide_eq_true_eq]
        exact ⟨⟨hl, hv⟩, h.2⟩
      · rename_i hk hk2
        simp only [SMap.wfFrom, Bool.and_eq_true, decide_eq_true_eq]
        exact ⟨h.1, ih (some a) (by simp; omega) h.2⟩

theorem SMap.wf_put {α : Type} [DecidableEq α] (d : α) (m : SMap α) (k : Nat) (v : α)
    (h : SMap.wf (fun _ => d) m = true) : SMap.wf (fun _ => d) (SMap.put d m k v) = true := by
  unfold SMap.put
  split
  · exact SMap.wfFrom_erase (fun _ => d) m k none h
  · rename_i hv
    exact SMap.wfFrom_insert (fun _ => d) m k v hv none rfl h

/-! ## Memory (R224) -/

@[simp] theorem Mem.rd1_wr1_same (m : Mem) (a : Nat) (b : Byte) : (m.wr1 a b).rd1 a = b := by
  simp [Mem.rd1, Mem.wr1]

theorem Mem.rd1_wr1_other (m : Mem) {a c : Nat} (b : Byte) (h : c ≠ a) : (m.wr1 a b).rd1 c = m.rd1 c := by
  simp [Mem.rd1, Mem.wr1, SMap.get_put_other _ _ _ _ h]

@[simp] theorem Mem.rd1_fresh (m : Mem) (a n c : Nat) : (m.fresh a n).rd1 c = m.rd1 c := rfl

/-- A write of bytes leaves every byte outside them. -/
theorem Mem.rd1_wrN_outside (l : List Byte) : ∀ (m : Mem) (a c : Nat), (c < a ∨ a + l.length ≤ c) →
    (m.wrN a l).rd1 c = m.rd1 c := by
  induction l with
  | nil => intro m a c _; rfl
  | cons b l ih =>
    intro m a c h
    simp only [List.length_cons] at h
    simp only [Mem.wrN]
    rw [ih _ _ _ (by omega), Mem.rd1_wr1_other _ _ (by omega)]

/-- A write of bytes puts each at its place. -/
theorem Mem.rd1_wrN_inside (l : List Byte) : ∀ (m : Mem) (a k : Nat), k < l.length →
    (m.wrN a l).rd1 (a + k) = l.getD k 0 := by
  induction l with
  | nil => intro m a k h; simp at h
  | cons b l ih =>
    intro m a k h
    simp only [Mem.wrN]
    cases k with
    | zero =>
      rw [Mem.rd1_wrN_outside l _ _ _ (by omega)]
      exact Mem.rd1_wr1_same m a b
    | succ k =>
      have h2 := ih (m.wr1 a b) (a + 1) k (by simpa using h)
      rw [show a + (k + 1) = a + 1 + k by omega, h2]
      rfl

/-- What `Mem.store` does to every byte. -/
theorem Mem.rd1_store (m : Mem) (a c : Nat) (l : List Byte) :
    (m.store a l).rd1 c = if a ≤ c ∧ c < a + l.length then l.getD (c - a) 0 else m.rd1 c := by
  unfold Mem.store
  rw [Mem.rd1_fresh]
  split
  · rename_i h
    have h2 := Mem.rd1_wrN_inside l m a (c - a) (by omega)
    rw [show a + (c - a) = c by omega] at h2
    exact h2
  · rename_i h
    exact Mem.rd1_wrN_outside l m a c (by omega)

theorem Mem.wf_wr1 (m : Mem) (a : Nat) (b : Byte) (h : m.wf = true) : (m.wr1 a b).wf = true :=
  SMap.wf_put 0 m.bytes a b h

theorem Mem.wf_wrN (l : List Byte) : ∀ (m : Mem) (a : Nat), m.wf = true → (m.wrN a l).wf = true := by
  induction l with
  | nil => intro m a h; exact h
  | cons b l ih => intro m a h; exact ih _ _ (Mem.wf_wr1 m a b h)

theorem Mem.wf_fresh (m : Mem) (a n : Nat) (h : m.wf = true) : (m.fresh a n).wf = true := h

theorem Mem.wf_store (m : Mem) (a : Nat) (l : List Byte) (h : m.wf = true) : (m.store a l).wf = true :=
  Mem.wf_wrN l m a h

/-! ## The register table (R296) -/

@[simp] theorem Chip.rd_wr_same (d : Chip) (r : RegId) (w : Word) : (d.wr r w).rd r = w := by
  simp [Chip.rd, Chip.wr]

theorem Chip.rd_wr_other (d : Chip) {r q : RegId} (w : Word) (h : q.key ≠ r.key) : (d.wr r w).rd q = d.rd q := by
  simp [Chip.rd, Chip.wr, SMap.get_put_other _ _ _ _ h]

theorem Chip.rb_wr_other (d : Chip) {r q : RegId} (w : Word) (i : Nat) (h : q.key ≠ r.key) :
    (d.wr r w).rb q i = d.rb q i := by
  simp [Chip.rb, Chip.rd_wr_other d w h]

theorem Chip.rf_wr_other (d : Chip) {r q : RegId} (w : Word) (hi lo : Nat) (h : q.key ≠ r.key) :
    (d.wr r w).rf q hi lo = d.rf q hi lo := by
  simp [Chip.rf, Chip.rd_wr_other d w h]

theorem Chip.rd_sf_other (d : Chip) {r q : RegId} (hi lo v : Nat) (h : q.key ≠ r.key) : (d.sf r hi lo v).rd q = d.rd q :=
  Chip.rd_wr_other d _ h

theorem Chip.rd_flag_other (d : Chip) {r q : RegId} (i : Nat) (h : q.key ≠ r.key) : (d.flag r i).rd q = d.rd q :=
  Chip.rd_wr_other d _ h

theorem Chip.rd_count_other (d : Chip) {r q : RegId} (n : Nat) (h : q.key ≠ r.key) : (d.count r n).rd q = d.rd q :=
  Chip.rd_wr_other d _ h

/-- A counter saturates. -/
theorem Chip.rd_count_same (d : Chip) (r : RegId) (n : Nat) :
    ((d.count r n).rd r).toNat = min ((d.rd r).toNat + n) 0xFFFFFFFF := by
  simp only [Chip.count, Chip.rd_wr_same, w32, BitVec.toNat_ofNat]
  omega

/-- The registers depend on the register table alone. -/
theorem Chip.rd_congr {d e : Chip} (h : d.regs = e.regs) (r : RegId) : d.rd r = e.rd r := by
  simp [Chip.rd, h]

/-! ## Fields of a word -/

theorem fld_lt (w : Word) (hi lo : Nat) : fld w hi lo < 2 ^ (hi + 1 - lo) := Nat.mod_lt _ (Nat.two_pow_pos _)

/-- The field of a word just set. -/
theorem fld_setFld (w : Word) (hi lo v : Nat) (h : hi < 32) (hl : lo ≤ hi) :
    fld (setFld w hi lo v) hi lo = v % 2 ^ (hi + 1 - lo) := by
  have hw := w.isLt
  unfold setFld fld
  generalize w.toNat = x at *
  set p := 2 ^ lo with hp
  set q := 2 ^ (hi + 1 - lo) with hq
  have hpq : p * q = 2 ^ (hi + 1) := by rw [hp, hq, ← pow_add]; congr 1; omega
  have h32 : (2 : Nat) ^ 32 = p * q * 2 ^ (31 - hi) := by rw [hpq, ← pow_add]; congr 1; omega
  have hp0 : 0 < p := Nat.two_pow_pos _
  have hq0 : 0 < q := Nat.two_pow_pos _
  have hvq : v % q < q := Nat.mod_lt _ hq0
  generalize v % q = u at *
  set r := 2 ^ (31 - hi) with hr
  -- x = a + p * (b + q * c)
  set a := x % p with ha
  set b := x / p % q with hb
  set c := x / p / q with hc
  have hx : x = a + p * (b + q * c) := by
    have h1 := Nat.mod_add_div x p
    have h2 := Nat.mod_add_div (x / p) q
    rw [← ha] at h1
    rw [← hb, ← hc] at h2
    rw [h2]; exact h1.symm
  have hap : a < p := Nat.mod_lt _ hp0
  have hy : x - b * p + u * p = a + p * (u + q * c) := by
    have e : x = a + p * (q * c) + b * p := by rw [hx]; ring
    rw [e, Nat.add_sub_cancel]; ring
  have hcr : c < r := by
    by_contra hcr
    have h3 : r ≤ c := Nat.le_of_not_lt hcr
    have h4 : p * q * r ≤ p * q * c := Nat.mul_le_mul_left _ h3
    have h5 : p * q * c ≤ x := by
      rw [hx]
      calc p * q * c = p * (q * c) := by ring
        _ ≤ a + p * (b + q * c) := by nlinarith [Nat.zero_le (p * b), Nat.zero_le a]
    omega
  have hlt : a + p * (u + q * c) < 2 ^ 32 := by
    rw [h32]
    have h6 : u + q * c + 1 ≤ q * (c + 1) := by rw [Nat.mul_add]; omega
    have h7 : q * (c + 1) ≤ q * r := Nat.mul_le_mul_left _ hcr
    calc a + p * (u + q * c) < p + p * (u + q * c) := by omega
      _ = p * (u + q * c + 1) := by ring
      _ ≤ p * (q * r) := Nat.mul_le_mul_left _ (by omega)
      _ = p * q * r := by ring
  rw [BitVec.toNat_ofNat, hy, Nat.mod_eq_of_lt hlt, Nat.add_mul_div_left _ _ hp0, Nat.div_eq_of_lt hap, Nat.zero_add,
    Nat.add_mul_mod_self_left, Nat.mod_eq_of_lt hvq]

@[simp] theorem Chip.rf_sf_same (d : Chip) (r : RegId) (hi lo v : Nat) (h : hi < 32) (hl : lo ≤ hi) :
    (d.sf r hi lo v).rf r hi lo = v % 2 ^ (hi + 1 - lo) := by
  simp only [Chip.rf, Chip.sf, Chip.rd_wr_same]
  exact fld_setFld _ _ _ _ h hl

/-- A bit is a field of one bit. -/
theorem bit_eq_fld (w : Word) (i : Nat) : bit w i = decide (fld w i i = 1) := by
  simp [bit, fld, Nat.testBit_eq_decide_div_mod_eq]

/-- A flag that is set reads as set. -/
@[simp] theorem Chip.rb_flag_same (d : Chip) (r : RegId) (i : Nat) (h : i < 32) : (d.flag r i).rb r i = true := by
  have h2 := Chip.rf_sf_same d r i i 1 h (Nat.le_refl i)
  simp only [Chip.rf, show i + 1 - i = 1 by omega] at h2
  simp only [Chip.rb, Chip.flag, bit_eq_fld]
  simpa using h2

end Sys2Proof.Machine
end

