-- ==== Sys2Proof/Laws/Events.lean ====
section
/-! SUPPORT. Register keys, and what logging an event changes: the log, the capture buffers that carry the event
streams and their count of octets lost, and nothing else (R27, R170, R281). -/

set_option Elab.async false

namespace Sys2Proof.Machine

/-! ## Register keys -/

theorem RegId.key_blk (r : RegId) : r.key / 2 ^ 48 = r.blk.code := by
  unfold RegId.key; omega

theorem RegId.key_off (r : RegId) : r.key % 2 ^ 12 = r.off % 2 ^ 12 := by
  unfold RegId.key; omega

theorem RegId.key_idx (r : RegId) : r.key / 2 ^ 12 % 2 ^ 36 = r.idx % 2 ^ 36 := by
  unfold RegId.key; omega

theorem Blk.code_injective (a b : Blk) (h : a.code = b.code) : a = b := by
  cases a <;> cases b <;> first | rfl | exact absurd h (by decide)

/-- Registers of different blocks have different keys. -/
theorem RegId.key_ne_of_blk {r q : RegId} (h : r.blk ≠ q.blk) : r.key ≠ q.key := by
  intro hk
  have h1 := r.key_blk
  rw [hk, q.key_blk] at h1
  exact h (Blk.code_injective _ _ h1.symm)

/-- Registers at different offsets have different keys. -/
theorem RegId.key_ne_of_off {r q : RegId} (h : r.off % 2 ^ 12 ≠ q.off % 2 ^ 12) : r.key ≠ q.key := by
  intro hk
  have h1 := r.key_off
  rw [hk, q.key_off] at h1
  exact h h1.symm

/-- Registers of different objects have different keys. -/
theorem RegId.key_ne_of_idx {r q : RegId} (h : r.idx % 2 ^ 36 ≠ q.idx % 2 ^ 36) : r.key ≠ q.key := by
  intro hk
  have h1 := r.key_idx
  rw [hk, q.key_idx] at h1
  exact h h1.symm

/-! ## A fold that keeps something -/

theorem foldl_keeps {α β γ : Type} (f : α → γ) (g : α → β → α) (h : ∀ (x : α) (b : β), f (g x b) = f x) (l : List β) :
    ∀ x : α, f (l.foldl g x) = f x := by
  induction l with
  | nil => intro x; rfl
  | cons b l ih => intro x; rw [List.foldl_cons, ih, h]

/-! ## The capture tap -/

/-- The count of octets lost, each half written whole. -/
def Chip.lostSet (d : Chip) (e lo hi : Nat) : Chip := (d.sf (R.CAP_LOST_LO e) 31 0 lo).sf (R.CAP_LOST_HI e) 31 0 hi

section Keeps

variable {γ : Type} (f : Chip → γ) (hc : ∀ (d : Chip) (k : Nat) (c : Cap), f (d.setCap k c) = f d)
  (hl : ∀ (d : Chip) (e lo hi : Nat), f (d.lostSet e lo hi) = f d)

include hc

theorem Chip.ebPut_keeps (d : Chip) (g : Nat) (join : Bool) (w : SWord) : f (d.ebPut g join w) = f d := by
  unfold Chip.ebPut
  dsimp only
  split
  · exact hc _ _ _
  · split
    · rw [hc, hc]
    · exact hc _ _ _

theorem Chip.tapToken_keeps (d : Chip) (e : Nat) (w : SWord) : f (d.tapToken e w) = f d := by
  unfold Chip.tapToken
  dsimp only
  rw [foldl_keeps f _ (fun x t => by split <;> simp only [Chip.ebPut_keeps f hc, hc]),
    foldl_keeps f _ (fun x k => hc _ _ _)]

include hl

theorem Chip.lose_keeps (d : Chip) (e x : Nat) (w : SWord) : f (d.lose e x w) = f d := by
  unfold Chip.lose
  dsimp only
  exact (hl _ _ _ _).trans (hc _ _ _)

theorem Chip.tapData_keeps (d : Chip) (e : Nat) (w : SWord) : f (d.tapData e w) = f d := by
  unfold Chip.tapData
  extract_lets
  split
  · exact Chip.lose_keeps f hc hl _ _ _ _
  · split
    · exact Chip.lose_keeps f hc hl _ _ _ _
    · rw [Chip.ebPut_keeps f hc, hc]

/-- A tap changes capture buffers and counts of octets lost only: what neither changes, no tap changes. -/
theorem Chip.tapWord_keeps (d : Chip) (e : Nat) (w : SWord) : f (d.tapWord e w) = f d := by
  unfold Chip.tapWord
  dsimp only
  split
  · exact Chip.tapData_keeps f hc hl _ _ _
  · exact Chip.tapToken_keeps f hc _ _ _

end Keeps

@[simp] theorem Chip.tapWord_core (d : Chip) (e : Nat) (w : SWord) : (d.tapWord e w).core = d.core :=
  Chip.tapWord_keeps (fun x => x.core) (fun _ _ _ => rfl) (fun _ _ _ _ => rfl) d e w
@[simp] theorem Chip.tapWord_dt (d : Chip) (e : Nat) (w : SWord) : (d.tapWord e w).dt = d.dt :=
  Chip.tapWord_keeps (fun x => x.dt) (fun _ _ _ => rfl) (fun _ _ _ _ => rfl) d e w
@[simp] theorem Chip.tapWord_free (d : Chip) (e : Nat) (w : SWord) : (d.tapWord e w).free = d.free :=
  Chip.tapWord_keeps (fun x => x.free) (fun _ _ _ => rfl) (fun _ _ _ _ => rfl) d e w
@[simp] theorem Chip.tapWord_out (d : Chip) (e : Nat) (w : SWord) : (d.tapWord e w).out = d.out :=
  Chip.tapWord_keeps (fun x => x.out) (fun _ _ _ => rfl) (fun _ _ _ _ => rfl) d e w
@[simp] theorem Chip.tapWord_log (d : Chip) (e : Nat) (w : SWord) : (d.tapWord e w).log = d.log :=
  Chip.tapWord_keeps (fun x => x.log) (fun _ _ _ => rfl) (fun _ _ _ _ => rfl) d e w
@[simp] theorem Chip.tapWord_lanes (d : Chip) (e : Nat) (w : SWord) : (d.tapWord e w).lanes = d.lanes :=
  Chip.tapWord_keeps (fun x => x.lanes) (fun _ _ _ => rfl) (fun _ _ _ _ => rfl) d e w
@[simp] theorem Chip.tapWord_mmbs (d : Chip) (e : Nat) (w : SWord) : (d.tapWord e w).mmbs = d.mmbs :=
  Chip.tapWord_keeps (fun x => x.mmbs) (fun _ _ _ => rfl) (fun _ _ _ _ => rfl) d e w
@[simp] theorem Chip.tapWord_cals (d : Chip) (e : Nat) (w : SWord) : (d.tapWord e w).cals = d.cals :=
  Chip.tapWord_keeps (fun x => x.cals) (fun _ _ _ => rfl) (fun _ _ _ _ => rfl) d e w
@[simp] theorem Chip.tapWord_hunters (d : Chip) (e : Nat) (w : SWord) : (d.tapWord e w).hunters = d.hunters :=
  Chip.tapWord_keeps (fun x => x.hunters) (fun _ _ _ => rfl) (fun _ _ _ _ => rfl) d e w
@[simp] theorem Chip.tapWord_rgns (d : Chip) (e : Nat) (w : SWord) : (d.tapWord e w).rgns = d.rgns :=
  Chip.tapWord_keeps (fun x => x.rgns) (fun _ _ _ => rfl) (fun _ _ _ _ => rfl) d e w
@[simp] theorem Chip.tapWord_writers (d : Chip) (e : Nat) (w : SWord) : (d.tapWord e w).writers = d.writers :=
  Chip.tapWord_keeps (fun x => x.writers) (fun _ _ _ => rfl) (fun _ _ _ _ => rfl) d e w
@[simp] theorem Chip.tapWord_combs (d : Chip) (e : Nat) (w : SWord) : (d.tapWord e w).combs = d.combs :=
  Chip.tapWord_keeps (fun x => x.combs) (fun _ _ _ => rfl) (fun _ _ _ _ => rfl) d e w
@[simp] theorem Chip.tapWord_cmps (d : Chip) (e : Nat) (w : SWord) : (d.tapWord e w).cmps = d.cmps :=
  Chip.tapWord_keeps (fun x => x.cmps) (fun _ _ _ => rfl) (fun _ _ _ _ => rfl) d e w
@[simp] theorem Chip.tapWord_lines (d : Chip) (e : Nat) (w : SWord) : (d.tapWord e w).lines = d.lines :=
  Chip.tapWord_keeps (fun x => x.lines) (fun _ _ _ => rfl) (fun _ _ _ _ => rfl) d e w
@[simp] theorem Chip.tapWord_mats (d : Chip) (e : Nat) (w : SWord) : (d.tapWord e w).mats = d.mats :=
  Chip.tapWord_keeps (fun x => x.mats) (fun _ _ _ => rfl) (fun _ _ _ _ => rfl) d e w
@[simp] theorem Chip.tapWord_yard (d : Chip) (e : Nat) (w : SWord) : (d.tapWord e w).yard = d.yard :=
  Chip.tapWord_keeps (fun x => x.yard) (fun _ _ _ => rfl) (fun _ _ _ _ => rfl) d e w
@[simp] theorem Chip.tapWord_hbm (d : Chip) (e : Nat) (w : SWord) : (d.tapWord e w).hbm = d.hbm :=
  Chip.tapWord_keeps (fun x => x.hbm) (fun _ _ _ => rfl) (fun _ _ _ _ => rfl) d e w
@[simp] theorem Chip.tapWord_defts (d : Chip) (e : Nat) (w : SWord) : (d.tapWord e w).defts = d.defts :=
  Chip.tapWord_keeps (fun x => x.defts) (fun _ _ _ => rfl) (fun _ _ _ _ => rfl) d e w
@[simp] theorem Chip.tapWord_paths (d : Chip) (e : Nat) (w : SWord) : (d.tapWord e w).paths = d.paths :=
  Chip.tapWord_keeps (fun x => x.paths) (fun _ _ _ => rfl) (fun _ _ _ _ => rfl) d e w
@[simp] theorem Chip.tapWord_mons (d : Chip) (e : Nat) (w : SWord) : (d.tapWord e w).mons = d.mons :=
  Chip.tapWord_keeps (fun x => x.mons) (fun _ _ _ => rfl) (fun _ _ _ _ => rfl) d e w
@[simp] theorem Chip.tapWord_groups (d : Chip) (e : Nat) (w : SWord) : (d.tapWord e w).groups = d.groups :=
  Chip.tapWord_keeps (fun x => x.groups) (fun _ _ _ => rfl) (fun _ _ _ _ => rfl) d e w
@[simp] theorem Chip.tapWord_dsks (d : Chip) (e : Nat) (w : SWord) : (d.tapWord e w).dsks = d.dsks :=
  Chip.tapWord_keeps (fun x => x.dsks) (fun _ _ _ => rfl) (fun _ _ _ _ => rfl) d e w
@[simp] theorem Chip.tapWord_traces (d : Chip) (e : Nat) (w : SWord) : (d.tapWord e w).traces = d.traces :=
  Chip.tapWord_keeps (fun x => x.traces) (fun _ _ _ => rfl) (fun _ _ _ _ => rfl) d e w
@[simp] theorem Chip.tapWord_ohps (d : Chip) (e : Nat) (w : SWord) : (d.tapWord e w).ohps = d.ohps :=
  Chip.tapWord_keeps (fun x => x.ohps) (fun _ _ _ => rfl) (fun _ _ _ _ => rfl) d e w
@[simp] theorem Chip.tapWord_ctxs (d : Chip) (e : Nat) (w : SWord) : (d.tapWord e w).ctxs = d.ctxs :=
  Chip.tapWord_keeps (fun x => x.ctxs) (fun _ _ _ => rfl) (fun _ _ _ _ => rfl) d e w
@[simp] theorem Chip.tapWord_pats (d : Chip) (e : Nat) (w : SWord) : (d.tapWord e w).pats = d.pats :=
  Chip.tapWord_keeps (fun x => x.pats) (fun _ _ _ => rfl) (fun _ _ _ _ => rfl) d e w
@[simp] theorem Chip.tapWord_engRdy (d : Chip) (e : Nat) (w : SWord) : (d.tapWord e w).engRdy = d.engRdy :=
  Chip.tapWord_keeps (fun x => x.engRdy) (fun _ _ _ => rfl) (fun _ _ _ _ => rfl) d e w
@[simp] theorem Chip.tapWord_ledger (d : Chip) (e : Nat) (w : SWord) : (d.tapWord e w).ledger = d.ledger :=
  Chip.tapWord_keeps (fun x => x.ledger) (fun _ _ _ => rfl) (fun _ _ _ _ => rfl) d e w
@[simp] theorem Chip.tapWord_tim (d : Chip) (e : Nat) (w : SWord) : (d.tapWord e w).tim = d.tim :=
  Chip.tapWord_keeps (fun x => x.tim) (fun _ _ _ => rfl) (fun _ _ _ _ => rfl) d e w
@[simp] theorem Chip.tapWord_tps (d : Chip) (e : Nat) (w : SWord) : (d.tapWord e w).tps = d.tps :=
  Chip.tapWord_keeps (fun x => x.tps) (fun _ _ _ => rfl) (fun _ _ _ _ => rfl) d e w
@[simp] theorem Chip.tapWord_host (d : Chip) (e : Nat) (w : SWord) : (d.tapWord e w).host = d.host :=
  Chip.tapWord_keeps (fun x => x.host) (fun _ _ _ => rfl) (fun _ _ _ _ => rfl) d e w
@[simp] theorem Chip.tapWord_sec (d : Chip) (e : Nat) (w : SWord) : (d.tapWord e w).sec = d.sec :=
  Chip.tapWord_keeps (fun x => x.sec) (fun _ _ _ => rfl) (fun _ _ _ _ => rfl) d e w
@[simp] theorem Chip.tapWord_pav (d : Chip) (e : Nat) (w : SWord) : (d.tapWord e w).pav = d.pav :=
  Chip.tapWord_keeps (fun x => x.pav) (fun _ _ _ => rfl) (fun _ _ _ _ => rfl) d e w
@[simp] theorem Chip.tapWord_gth (d : Chip) (e : Nat) (w : SWord) : (d.tapWord e w).gth = d.gth :=
  Chip.tapWord_keeps (fun x => x.gth) (fun _ _ _ => rfl) (fun _ _ _ _ => rfl) d e w
@[simp] theorem Chip.tapWord_tdm (d : Chip) (e : Nat) (w : SWord) : (d.tapWord e w).tdm = d.tdm :=
  Chip.tapWord_keeps (fun x => x.tdm) (fun _ _ _ => rfl) (fun _ _ _ _ => rfl) d e w
@[simp] theorem Chip.tapWord_svc (d : Chip) (e : Nat) (w : SWord) : (d.tapWord e w).svc = d.svc :=
  Chip.tapWord_keeps (fun x => x.svc) (fun _ _ _ => rfl) (fun _ _ _ _ => rfl) d e w
@[simp] theorem Chip.tapWord_pwr (d : Chip) (e : Nat) (w : SWord) : (d.tapWord e w).pwr = d.pwr :=
  Chip.tapWord_keeps (fun x => x.pwr) (fun _ _ _ => rfl) (fun _ _ _ _ => rfl) d e w

/-- A register that does not count octets lost keeps its word when a tap fills a buffer. -/
theorem Chip.rd_tapWord (d : Chip) (e : Nat) (w : SWord) (r : RegId) (h1 : ∀ k, r.key ≠ (R.CAP_LOST_LO k).key)
    (h2 : ∀ k, r.key ≠ (R.CAP_LOST_HI k).key) : (d.tapWord e w).rd r = d.rd r :=
  Chip.tapWord_keeps (fun x => x.rd r) (fun d k c => Chip.rd_congr (Chip.setCap_regs d k c) r)
    (fun d k lo hi => by
      show ((d.sf (R.CAP_LOST_LO k) 31 0 lo).sf (R.CAP_LOST_HI k) 31 0 hi).rd r = d.rd r
      rw [Chip.rd_sf_other _ _ _ _ (h2 k), Chip.rd_sf_other _ _ _ _ (h1 k)]) d e w

/-! ## Logging an event -/

/-- The step of an event into the event stream of one engine. -/
def tapEvent (t : Nat) (v : Event) (x : Chip) (e : Nat) : Chip :=
  match x.armedRgn e 2 with
  | some _ => x.tapWord e (SWord.data 2 v.record (List.replicate 16 (t, 0x3FFFF)) false false)
  | none => x

theorem Chip.evtAt_eq (d : Chip) (t src code ctx det ext : Nat) :
    d.evtAt t src code ctx det ext = (d.eventEngines src).foldl (tapEvent t ⟨d.log.next % 2 ^ 32, src, t, code, ctx, det, ext⟩)
      { d with log := ⟨d.log.next + 1, ((⟨d.log.next % 2 ^ 32, src, t, code, ctx, det, ext⟩ : Event) :: d.log.entries).take 65536⟩ } :=
  rfl

/-- What the event streams leave alone. -/
theorem tapEvent_keeps {γ : Type} (f : Chip → γ) (h : ∀ (d : Chip) (e : Nat) (w : SWord), f (d.tapWord e w) = f d)
    (t : Nat) (v : Event) (x : Chip) (e : Nat) : f (tapEvent t v x e) = f x := by
  unfold tapEvent
  split
  · exact h _ _ _
  · rfl

theorem Chip.evtAt_keeps {γ : Type} (f : Chip → γ) (h : ∀ (d : Chip) (e : Nat) (w : SWord), f (d.tapWord e w) = f d)
    (hl : ∀ (d : Chip) (l : EvLog), f { d with log := l } = f d) (d : Chip) (t src code ctx det ext : Nat) :
    f (d.evtAt t src code ctx det ext) = f d := by
  rw [Chip.evtAt_eq, foldl_keeps f _ (tapEvent_keeps f h t _), hl]

/-- The log gets one entry, and keeps the newest 65,536. -/
@[simp] theorem Chip.evtAt_log (d : Chip) (t src code ctx det ext : Nat) :
    (d.evtAt t src code ctx det ext).log
      = ⟨d.log.next + 1, ((⟨d.log.next % 2 ^ 32, src, t, code, ctx, det, ext⟩ : Event) :: d.log.entries).take 65536⟩ := by
  rw [Chip.evtAt_eq, foldl_keeps (fun x : Chip => x.log) _ (tapEvent_keeps _ Chip.tapWord_log t _)]

/-- Logging an event leaves every register that does not count octets lost. -/
theorem Chip.rd_evtAt (d : Chip) (t src code ctx det ext : Nat) (r : RegId) (h1 : ∀ e, r.key ≠ (R.CAP_LOST_LO e).key)
    (h2 : ∀ e, r.key ≠ (R.CAP_LOST_HI e).key) : (d.evtAt t src code ctx det ext).rd r = d.rd r :=
  Chip.evtAt_keeps (fun x => x.rd r) (fun x e w => x.rd_tapWord e w r h1 h2) (fun _ _ => rfl) d t src code ctx det ext

/-- A register outside the engine windows is left by an event. -/
theorem Chip.rd_ev_of_blk (d : Chip) (src code det : Nat) (r : RegId) (h : r.blk ≠ .eng) : (d.ev src code det).rd r = d.rd r :=
  Chip.rd_evtAt d _ _ _ _ _ _ r (fun _ => RegId.key_ne_of_blk h) (fun _ => RegId.key_ne_of_blk h)

/-- An event is the newest entry of the log. -/
theorem Chip.logged_ev (d : Chip) (src code det : Nat) : Chip.logged d (d.ev src code det) src code det := by
  unfold Chip.logged Chip.ev Chip.evt
  rw [Chip.evtAt_log]
  exact ⟨rfl, rfl⟩

@[simp] theorem Chip.evtAt_core (d : Chip) (t src code ctx det ext : Nat) : (d.evtAt t src code ctx det ext).core = d.core :=
  Chip.evtAt_keeps (fun x => x.core) Chip.tapWord_core (fun _ _ => rfl) d t src code ctx det ext
@[simp] theorem Chip.ev_core (d : Chip) (src code det : Nat) : (d.ev src code det).core = d.core := Chip.evtAt_core d _ _ _ _ _ _
@[simp] theorem Chip.evt_core (d : Chip) (src code ctx det ext : Nat) : (d.evt src code ctx det ext).core = d.core :=
  Chip.evtAt_core d _ _ _ _ _ _
@[simp] theorem Chip.evtAt_dt (d : Chip) (t src code ctx det ext : Nat) : (d.evtAt t src code ctx det ext).dt = d.dt :=
  Chip.evtAt_keeps (fun x => x.dt) Chip.tapWord_dt (fun _ _ => rfl) d t src code ctx det ext
@[simp] theorem Chip.ev_dt (d : Chip) (src code det : Nat) : (d.ev src code det).dt = d.dt := Chip.evtAt_dt d _ _ _ _ _ _
@[simp] theorem Chip.evt_dt (d : Chip) (src code ctx det ext : Nat) : (d.evt src code ctx det ext).dt = d.dt :=
  Chip.evtAt_dt d _ _ _ _ _ _
@[simp] theorem Chip.evtAt_free (d : Chip) (t src code ctx det ext : Nat) : (d.evtAt t src code ctx det ext).free = d.free :=
  Chip.evtAt_keeps (fun x => x.free) Chip.tapWord_free (fun _ _ => rfl) d t src code ctx det ext
@[simp] theorem Chip.ev_free (d : Chip) (src code det : Nat) : (d.ev src code det).free = d.free := Chip.evtAt_free d _ _ _ _ _ _
@[simp] theorem Chip.evt_free (d : Chip) (src code ctx det ext : Nat) : (d.evt src code ctx det ext).free = d.free :=
  Chip.evtAt_free d _ _ _ _ _ _
@[simp] theorem Chip.evtAt_out (d : Chip) (t src code ctx det ext : Nat) : (d.evtAt t src code ctx det ext).out = d.out :=
  Chip.evtAt_keeps (fun x => x.out) Chip.tapWord_out (fun _ _ => rfl) d t src code ctx det ext
@[simp] theorem Chip.ev_out (d : Chip) (src code det : Nat) : (d.ev src code det).out = d.out := Chip.evtAt_out d _ _ _ _ _ _
@[simp] theorem Chip.evt_out (d : Chip) (src code ctx det ext : Nat) : (d.evt src code ctx det ext).out = d.out :=
  Chip.evtAt_out d _ _ _ _ _ _
@[simp] theorem Chip.evtAt_lanes (d : Chip) (t src code ctx det ext : Nat) : (d.evtAt t src code ctx det ext).lanes = d.lanes :=
  Chip.evtAt_keeps (fun x => x.lanes) Chip.tapWord_lanes (fun _ _ => rfl) d t src code ctx det ext
@[simp] theorem Chip.ev_lanes (d : Chip) (src code det : Nat) : (d.ev src code det).lanes = d.lanes := Chip.evtAt_lanes d _ _ _ _ _ _
@[simp] theorem Chip.evt_lanes (d : Chip) (src code ctx det ext : Nat) : (d.evt src code ctx det ext).lanes = d.lanes :=
  Chip.evtAt_lanes d _ _ _ _ _ _
@[simp] theorem Chip.evtAt_mmbs (d : Chip) (t src code ctx det ext : Nat) : (d.evtAt t src code ctx det ext).mmbs = d.mmbs :=
  Chip.evtAt_keeps (fun x => x.mmbs) Chip.tapWord_mmbs (fun _ _ => rfl) d t src code ctx det ext
@[simp] theorem Chip.ev_mmbs (d : Chip) (src code det : Nat) : (d.ev src code det).mmbs = d.mmbs := Chip.evtAt_mmbs d _ _ _ _ _ _
@[simp] theorem Chip.evt_mmbs (d : Chip) (src code ctx det ext : Nat) : (d.evt src code ctx det ext).mmbs = d.mmbs :=
  Chip.evtAt_mmbs d _ _ _ _ _ _
@[simp] theorem Chip.evtAt_cals (d : Chip) (t src code ctx det ext : Nat) : (d.evtAt t src code ctx det ext).cals = d.cals :=
  Chip.evtAt_keeps (fun x => x.cals) Chip.tapWord_cals (fun _ _ => rfl) d t src code ctx det ext
@[simp] theorem Chip.ev_cals (d : Chip) (src code det : Nat) : (d.ev src code det).cals = d.cals := Chip.evtAt_cals d _ _ _ _ _ _
@[simp] theorem Chip.evt_cals (d : Chip) (src code ctx det ext : Nat) : (d.evt src code ctx det ext).cals = d.cals :=
  Chip.evtAt_cals d _ _ _ _ _ _
@[simp] theorem Chip.evtAt_hunters (d : Chip) (t src code ctx det ext : Nat) : (d.evtAt t src code ctx det ext).hunters = d.hunters :=
  Chip.evtAt_keeps (fun x => x.hunters) Chip.tapWord_hunters (fun _ _ => rfl) d t src code ctx det ext
@[simp] theorem Chip.ev_hunters (d : Chip) (src code det : Nat) : (d.ev src code det).hunters = d.hunters := Chip.evtAt_hunters d _ _ _ _ _ _
@[simp] theorem Chip.evt_hunters (d : Chip) (src code ctx det ext : Nat) : (d.evt src code ctx det ext).hunters = d.hunters :=
  Chip.evtAt_hunters d _ _ _ _ _ _
@[simp] theorem Chip.evtAt_rgns (d : Chip) (t src code ctx det ext : Nat) : (d.evtAt t src code ctx det ext).rgns = d.rgns :=
  Chip.evtAt_keeps (fun x => x.rgns) Chip.tapWord_rgns (fun _ _ => rfl) d t src code ctx det ext
@[simp] theorem Chip.ev_rgns (d : Chip) (src code det : Nat) : (d.ev src code det).rgns = d.rgns := Chip.evtAt_rgns d _ _ _ _ _ _
@[simp] theorem Chip.evt_rgns (d : Chip) (src code ctx det ext : Nat) : (d.evt src code ctx det ext).rgns = d.rgns :=
  Chip.evtAt_rgns d _ _ _ _ _ _
@[simp] theorem Chip.evtAt_writers (d : Chip) (t src code ctx det ext : Nat) : (d.evtAt t src code ctx det ext).writers = d.writers :=
  Chip.evtAt_keeps (fun x => x.writers) Chip.tapWord_writers (fun _ _ => rfl) d t src code ctx det ext
@[simp] theorem Chip.ev_writers (d : Chip) (src code det : Nat) : (d.ev src code det).writers = d.writers := Chip.evtAt_writers d _ _ _ _ _ _
@[simp] theorem Chip.evt_writers (d : Chip) (src code ctx det ext : Nat) : (d.evt src code ctx det ext).writers = d.writers :=
  Chip.evtAt_writers d _ _ _ _ _ _
@[simp] theorem Chip.evtAt_combs (d : Chip) (t src code ctx det ext : Nat) : (d.evtAt t src code ctx det ext).combs = d.combs :=
  Chip.evtAt_keeps (fun x => x.combs) Chip.tapWord_combs (fun _ _ => rfl) d t src code ctx det ext
@[simp] theorem Chip.ev_combs (d : Chip) (src code det : Nat) : (d.ev src code det).combs = d.combs := Chip.evtAt_combs d _ _ _ _ _ _
@[simp] theorem Chip.evt_combs (d : Chip) (src code ctx det ext : Nat) : (d.evt src code ctx det ext).combs = d.combs :=
  Chip.evtAt_combs d _ _ _ _ _ _
@[simp] theorem Chip.evtAt_cmps (d : Chip) (t src code ctx det ext : Nat) : (d.evtAt t src code ctx det ext).cmps = d.cmps :=
  Chip.evtAt_keeps (fun x => x.cmps) Chip.tapWord_cmps (fun _ _ => rfl) d t src code ctx det ext
@[simp] theorem Chip.ev_cmps (d : Chip) (src code det : Nat) : (d.ev src code det).cmps = d.cmps := Chip.evtAt_cmps d _ _ _ _ _ _
@[simp] theorem Chip.evt_cmps (d : Chip) (src code ctx det ext : Nat) : (d.evt src code ctx det ext).cmps = d.cmps :=
  Chip.evtAt_cmps d _ _ _ _ _ _
@[simp] theorem Chip.evtAt_lines (d : Chip) (t src code ctx det ext : Nat) : (d.evtAt t src code ctx det ext).lines = d.lines :=
  Chip.evtAt_keeps (fun x => x.lines) Chip.tapWord_lines (fun _ _ => rfl) d t src code ctx det ext
@[simp] theorem Chip.ev_lines (d : Chip) (src code det : Nat) : (d.ev src code det).lines = d.lines := Chip.evtAt_lines d _ _ _ _ _ _
@[simp] theorem Chip.evt_lines (d : Chip) (src code ctx det ext : Nat) : (d.evt src code ctx det ext).lines = d.lines :=
  Chip.evtAt_lines d _ _ _ _ _ _
@[simp] theorem Chip.evtAt_mats (d : Chip) (t src code ctx det ext : Nat) : (d.evtAt t src code ctx det ext).mats = d.mats :=
  Chip.evtAt_keeps (fun x => x.mats) Chip.tapWord_mats (fun _ _ => rfl) d t src code ctx det ext
@[simp] theorem Chip.ev_mats (d : Chip) (src code det : Nat) : (d.ev src code det).mats = d.mats := Chip.evtAt_mats d _ _ _ _ _ _
@[simp] theorem Chip.evt_mats (d : Chip) (src code ctx det ext : Nat) : (d.evt src code ctx det ext).mats = d.mats :=
  Chip.evtAt_mats d _ _ _ _ _ _
@[simp] theorem Chip.evtAt_yard (d : Chip) (t src code ctx det ext : Nat) : (d.evtAt t src code ctx det ext).yard = d.yard :=
  Chip.evtAt_keeps (fun x => x.yard) Chip.tapWord_yard (fun _ _ => rfl) d t src code ctx det ext
@[simp] theorem Chip.ev_yard (d : Chip) (src code det : Nat) : (d.ev src code det).yard = d.yard := Chip.evtAt_yard d _ _ _ _ _ _
@[simp] theorem Chip.evt_yard (d : Chip) (src code ctx det ext : Nat) : (d.evt src code ctx det ext).yard = d.yard :=
  Chip.evtAt_yard d _ _ _ _ _ _
@[simp] theorem Chip.evtAt_hbm (d : Chip) (t src code ctx det ext : Nat) : (d.evtAt t src code ctx det ext).hbm = d.hbm :=
  Chip.evtAt_keeps (fun x => x.hbm) Chip.tapWord_hbm (fun _ _ => rfl) d t src code ctx det ext
@[simp] theorem Chip.ev_hbm (d : Chip) (src code det : Nat) : (d.ev src code det).hbm = d.hbm := Chip.evtAt_hbm d _ _ _ _ _ _
@[simp] theorem Chip.evt_hbm (d : Chip) (src code ctx det ext : Nat) : (d.evt src code ctx det ext).hbm = d.hbm :=
  Chip.evtAt_hbm d _ _ _ _ _ _
@[simp] theorem Chip.evtAt_defts (d : Chip) (t src code ctx det ext : Nat) : (d.evtAt t src code ctx det ext).defts = d.defts :=
  Chip.evtAt_keeps (fun x => x.defts) Chip.tapWord_defts (fun _ _ => rfl) d t src code ctx det ext
@[simp] theorem Chip.ev_defts (d : Chip) (src code det : Nat) : (d.ev src code det).defts = d.defts := Chip.evtAt_defts d _ _ _ _ _ _
@[simp] theorem Chip.evt_defts (d : Chip) (src code ctx det ext : Nat) : (d.evt src code ctx det ext).defts = d.defts :=
  Chip.evtAt_defts d _ _ _ _ _ _
@[simp] theorem Chip.evtAt_paths (d : Chip) (t src code ctx det ext : Nat) : (d.evtAt t src code ctx det ext).paths = d.paths :=
  Chip.evtAt_keeps (fun x => x.paths) Chip.tapWord_paths (fun _ _ => rfl) d t src code ctx det ext
@[simp] theorem Chip.ev_paths (d : Chip) (src code det : Nat) : (d.ev src code det).paths = d.paths := Chip.evtAt_paths d _ _ _ _ _ _
@[simp] theorem Chip.evt_paths (d : Chip) (src code ctx det ext : Nat) : (d.evt src code ctx det ext).paths = d.paths :=
  Chip.evtAt_paths d _ _ _ _ _ _
@[simp] theorem Chip.evtAt_mons (d : Chip) (t src code ctx det ext : Nat) : (d.evtAt t src code ctx det ext).mons = d.mons :=
  Chip.evtAt_keeps (fun x => x.mons) Chip.tapWord_mons (fun _ _ => rfl) d t src code ctx det ext
@[simp] theorem Chip.ev_mons (d : Chip) (src code det : Nat) : (d.ev src code det).mons = d.mons := Chip.evtAt_mons d _ _ _ _ _ _
@[simp] theorem Chip.evt_mons (d : Chip) (src code ctx det ext : Nat) : (d.evt src code ctx det ext).mons = d.mons :=
  Chip.evtAt_mons d _ _ _ _ _ _
@[simp] theorem Chip.evtAt_groups (d : Chip) (t src code ctx det ext : Nat) : (d.evtAt t src code ctx det ext).groups = d.groups :=
  Chip.evtAt_keeps (fun x => x.groups) Chip.tapWord_groups (fun _ _ => rfl) d t src code ctx det ext
@[simp] theorem Chip.ev_groups (d : Chip) (src code det : Nat) : (d.ev src code det).groups = d.groups := Chip.evtAt_groups d _ _ _ _ _ _
@[simp] theorem Chip.evt_groups (d : Chip) (src code ctx det ext : Nat) : (d.evt src code ctx det ext).groups = d.groups :=
  Chip.evtAt_groups d _ _ _ _ _ _
@[simp] theorem Chip.evtAt_dsks (d : Chip) (t src code ctx det ext : Nat) : (d.evtAt t src code ctx det ext).dsks = d.dsks :=
  Chip.evtAt_keeps (fun x => x.dsks) Chip.tapWord_dsks (fun _ _ => rfl) d t src code ctx det ext
@[simp] theorem Chip.ev_dsks (d : Chip) (src code det : Nat) : (d.ev src code det).dsks = d.dsks := Chip.evtAt_dsks d _ _ _ _ _ _
@[simp] theorem Chip.evt_dsks (d : Chip) (src code ctx det ext : Nat) : (d.evt src code ctx det ext).dsks = d.dsks :=
  Chip.evtAt_dsks d _ _ _ _ _ _
@[simp] theorem Chip.evtAt_traces (d : Chip) (t src code ctx det ext : Nat) : (d.evtAt t src code ctx det ext).traces = d.traces :=
  Chip.evtAt_keeps (fun x => x.traces) Chip.tapWord_traces (fun _ _ => rfl) d t src code ctx det ext
@[simp] theorem Chip.ev_traces (d : Chip) (src code det : Nat) : (d.ev src code det).traces = d.traces := Chip.evtAt_traces d _ _ _ _ _ _
@[simp] theorem Chip.evt_traces (d : Chip) (src code ctx det ext : Nat) : (d.evt src code ctx det ext).traces = d.traces :=
  Chip.evtAt_traces d _ _ _ _ _ _
@[simp] theorem Chip.evtAt_ohps (d : Chip) (t src code ctx det ext : Nat) : (d.evtAt t src code ctx det ext).ohps = d.ohps :=
  Chip.evtAt_keeps (fun x => x.ohps) Chip.tapWord_ohps (fun _ _ => rfl) d t src code ctx det ext
@[simp] theorem Chip.ev_ohps (d : Chip) (src code det : Nat) : (d.ev src code det).ohps = d.ohps := Chip.evtAt_ohps d _ _ _ _ _ _
@[simp] theorem Chip.evt_ohps (d : Chip) (src code ctx det ext : Nat) : (d.evt src code ctx det ext).ohps = d.ohps :=
  Chip.evtAt_ohps d _ _ _ _ _ _
@[simp] theorem Chip.evtAt_ctxs (d : Chip) (t src code ctx det ext : Nat) : (d.evtAt t src code ctx det ext).ctxs = d.ctxs :=
  Chip.evtAt_keeps (fun x => x.ctxs) Chip.tapWord_ctxs (fun _ _ => rfl) d t src code ctx det ext
@[simp] theorem Chip.ev_ctxs (d : Chip) (src code det : Nat) : (d.ev src code det).ctxs = d.ctxs := Chip.evtAt_ctxs d _ _ _ _ _ _
@[simp] theorem Chip.evt_ctxs (d : Chip) (src code ctx det ext : Nat) : (d.evt src code ctx det ext).ctxs = d.ctxs :=
  Chip.evtAt_ctxs d _ _ _ _ _ _
@[simp] theorem Chip.evtAt_pats (d : Chip) (t src code ctx det ext : Nat) : (d.evtAt t src code ctx det ext).pats = d.pats :=
  Chip.evtAt_keeps (fun x => x.pats) Chip.tapWord_pats (fun _ _ => rfl) d t src code ctx det ext
@[simp] theorem Chip.ev_pats (d : Chip) (src code det : Nat) : (d.ev src code det).pats = d.pats := Chip.evtAt_pats d _ _ _ _ _ _
@[simp] theorem Chip.evt_pats (d : Chip) (src code ctx det ext : Nat) : (d.evt src code ctx det ext).pats = d.pats :=
  Chip.evtAt_pats d _ _ _ _ _ _
@[simp] theorem Chip.evtAt_engRdy (d : Chip) (t src code ctx det ext : Nat) : (d.evtAt t src code ctx det ext).engRdy = d.engRdy :=
  Chip.evtAt_keeps (fun x => x.engRdy) Chip.tapWord_engRdy (fun _ _ => rfl) d t src code ctx det ext
@[simp] theorem Chip.ev_engRdy (d : Chip) (src code det : Nat) : (d.ev src code det).engRdy = d.engRdy := Chip.evtAt_engRdy d _ _ _ _ _ _
@[simp] theorem Chip.evt_engRdy (d : Chip) (src code ctx det ext : Nat) : (d.evt src code ctx det ext).engRdy = d.engRdy :=
  Chip.evtAt_engRdy d _ _ _ _ _ _
@[simp] theorem Chip.evtAt_ledger (d : Chip) (t src code ctx det ext : Nat) : (d.evtAt t src code ctx det ext).ledger = d.ledger :=
  Chip.evtAt_keeps (fun x => x.ledger) Chip.tapWord_ledger (fun _ _ => rfl) d t src code ctx det ext
@[simp] theorem Chip.ev_ledger (d : Chip) (src code det : Nat) : (d.ev src code det).ledger = d.ledger := Chip.evtAt_ledger d _ _ _ _ _ _
@[simp] theorem Chip.evt_ledger (d : Chip) (src code ctx det ext : Nat) : (d.evt src code ctx det ext).ledger = d.ledger :=
  Chip.evtAt_ledger d _ _ _ _ _ _
@[simp] theorem Chip.evtAt_tim (d : Chip) (t src code ctx det ext : Nat) : (d.evtAt t src code ctx det ext).tim = d.tim :=
  Chip.evtAt_keeps (fun x => x.tim) Chip.tapWord_tim (fun _ _ => rfl) d t src code ctx det ext
@[simp] theorem Chip.ev_tim (d : Chip) (src code det : Nat) : (d.ev src code det).tim = d.tim := Chip.evtAt_tim d _ _ _ _ _ _
@[simp] theorem Chip.evt_tim (d : Chip) (src code ctx det ext : Nat) : (d.evt src code ctx det ext).tim = d.tim :=
  Chip.evtAt_tim d _ _ _ _ _ _
@[simp] theorem Chip.evtAt_tps (d : Chip) (t src code ctx det ext : Nat) : (d.evtAt t src code ctx det ext).tps = d.tps :=
  Chip.evtAt_keeps (fun x => x.tps) Chip.tapWord_tps (fun _ _ => rfl) d t src code ctx det ext
@[simp] theorem Chip.ev_tps (d : Chip) (src code det : Nat) : (d.ev src code det).tps = d.tps := Chip.evtAt_tps d _ _ _ _ _ _
@[simp] theorem Chip.evt_tps (d : Chip) (src code ctx det ext : Nat) : (d.evt src code ctx det ext).tps = d.tps :=
  Chip.evtAt_tps d _ _ _ _ _ _
@[simp] theorem Chip.evtAt_host (d : Chip) (t src code ctx det ext : Nat) : (d.evtAt t src code ctx det ext).host = d.host :=
  Chip.evtAt_keeps (fun x => x.host) Chip.tapWord_host (fun _ _ => rfl) d t src code ctx det ext
@[simp] theorem Chip.ev_host (d : Chip) (src code det : Nat) : (d.ev src code det).host = d.host := Chip.evtAt_host d _ _ _ _ _ _
@[simp] theorem Chip.evt_host (d : Chip) (src code ctx det ext : Nat) : (d.evt src code ctx det ext).host = d.host :=
  Chip.evtAt_host d _ _ _ _ _ _
@[simp] theorem Chip.evtAt_sec (d : Chip) (t src code ctx det ext : Nat) : (d.evtAt t src code ctx det ext).sec = d.sec :=
  Chip.evtAt_keeps (fun x => x.sec) Chip.tapWord_sec (fun _ _ => rfl) d t src code ctx det ext
@[simp] theorem Chip.ev_sec (d : Chip) (src code det : Nat) : (d.ev src code det).sec = d.sec := Chip.evtAt_sec d _ _ _ _ _ _
@[simp] theorem Chip.evt_sec (d : Chip) (src code ctx det ext : Nat) : (d.evt src code ctx det ext).sec = d.sec :=
  Chip.evtAt_sec d _ _ _ _ _ _
@[simp] theorem Chip.evtAt_pav (d : Chip) (t src code ctx det ext : Nat) : (d.evtAt t src code ctx det ext).pav = d.pav :=
  Chip.evtAt_keeps (fun x => x.pav) Chip.tapWord_pav (fun _ _ => rfl) d t src code ctx det ext
@[simp] theorem Chip.ev_pav (d : Chip) (src code det : Nat) : (d.ev src code det).pav = d.pav := Chip.evtAt_pav d _ _ _ _ _ _
@[simp] theorem Chip.evt_pav (d : Chip) (src code ctx det ext : Nat) : (d.evt src code ctx det ext).pav = d.pav :=
  Chip.evtAt_pav d _ _ _ _ _ _
@[simp] theorem Chip.evtAt_gth (d : Chip) (t src code ctx det ext : Nat) : (d.evtAt t src code ctx det ext).gth = d.gth :=
  Chip.evtAt_keeps (fun x => x.gth) Chip.tapWord_gth (fun _ _ => rfl) d t src code ctx det ext
@[simp] theorem Chip.ev_gth (d : Chip) (src code det : Nat) : (d.ev src code det).gth = d.gth := Chip.evtAt_gth d _ _ _ _ _ _
@[simp] theorem Chip.evt_gth (d : Chip) (src code ctx det ext : Nat) : (d.evt src code ctx det ext).gth = d.gth :=
  Chip.evtAt_gth d _ _ _ _ _ _
@[simp] theorem Chip.evtAt_tdm (d : Chip) (t src code ctx det ext : Nat) : (d.evtAt t src code ctx det ext).tdm = d.tdm :=
  Chip.evtAt_keeps (fun x => x.tdm) Chip.tapWord_tdm (fun _ _ => rfl) d t src code ctx det ext
@[simp] theorem Chip.ev_tdm (d : Chip) (src code det : Nat) : (d.ev src code det).tdm = d.tdm := Chip.evtAt_tdm d _ _ _ _ _ _
@[simp] theorem Chip.evt_tdm (d : Chip) (src code ctx det ext : Nat) : (d.evt src code ctx det ext).tdm = d.tdm :=
  Chip.evtAt_tdm d _ _ _ _ _ _
@[simp] theorem Chip.evtAt_svc (d : Chip) (t src code ctx det ext : Nat) : (d.evtAt t src code ctx det ext).svc = d.svc :=
  Chip.evtAt_keeps (fun x => x.svc) Chip.tapWord_svc (fun _ _ => rfl) d t src code ctx det ext
@[simp] theorem Chip.ev_svc (d : Chip) (src code det : Nat) : (d.ev src code det).svc = d.svc := Chip.evtAt_svc d _ _ _ _ _ _
@[simp] theorem Chip.evt_svc (d : Chip) (src code ctx det ext : Nat) : (d.evt src code ctx det ext).svc = d.svc :=
  Chip.evtAt_svc d _ _ _ _ _ _
@[simp] theorem Chip.evtAt_pwr (d : Chip) (t src code ctx det ext : Nat) : (d.evtAt t src code ctx det ext).pwr = d.pwr :=
  Chip.evtAt_keeps (fun x => x.pwr) Chip.tapWord_pwr (fun _ _ => rfl) d t src code ctx det ext
@[simp] theorem Chip.ev_pwr (d : Chip) (src code det : Nat) : (d.ev src code det).pwr = d.pwr := Chip.evtAt_pwr d _ _ _ _ _ _
@[simp] theorem Chip.evt_pwr (d : Chip) (src code ctx det ext : Nat) : (d.evt src code ctx det ext).pwr = d.pwr :=
  Chip.evtAt_pwr d _ _ _ _ _ _

end Sys2Proof.Machine
end

