-- ==== Sys2Proof/Laws/Commands.lean ====
section
/-! SUPPORT. What every command does before its own effect, what a register write does after its checks, and what a
request does whose turn it is: the lemmas that statements about one command cite in place of unfolding the path to
it. -/

set_option Elab.async false

namespace Sys2Proof.Machine

/-! ## Memory -/

/-- A system reset keeps memory in canonical form. -/
theorem Mem.wf_flashOnly (m : Mem) (h : m.wf = true) : m.flashOnly.wf = true :=
  SMap.wfFrom_filter _ _ m.bytes none h

/-- An ECC error found in a block changes no byte. -/
theorem Mem.wf_plant (m : Mem) (blks ces ues : List Nat) (h : m.wf = true) : (m.plant blks ces ues).wf = true := h

/-! ## Commands -/

/-- The device as a command finds it: what the last command sent is gone. -/
abbrev Dev.cleared (x : Dev) : Dev := x.on (fun d => { d with out := [] })

theorem command_live (pin : Bool) (f : Dev → Dev) (s : State) (h : s.dev.live) :
    command true pin f s = .next { s with dev := f s.dev.cleared } := by
  have h2 : s.dev.cleared.chip.inReset = false := h
  simp only [command, if_true]
  rw [show (s.dev.on (fun d => { d with out := [] })).chip.inReset = false from h2]
  simp

theorem command_pin (f : Dev → Dev) (s : State) : command true true f s = .next { s with dev := f s.dev.cleared } := by
  simp [command]

theorem command_held (f : Dev → Dev) (s : State) (h : s.dev.chip.inReset = true) :
    command true false f s = .next { s with dev := s.dev.cleared } := by
  have h2 : s.dev.cleared.chip.inReset = true := h
  simp only [command, if_true]
  rw [show (s.dev.on (fun d => { d with out := [] })).chip.inReset = true from h2]
  simp

theorem command_refused (pin : Bool) (f : Dev → Dev) (s : State) : command false pin f s = .fault .noSuchResource := by
  simp [command]

/-- What a command that answers a next state has done. -/
theorem command_cases {ok pin : Bool} {f : Dev → Dev} {s t : State} (h : command ok pin f s = .next t) :
    ok = true ∧ t.pending = s.pending ∧ (t.dev = s.dev.cleared ∨ t.dev = f s.dev.cleared) := by
  unfold command at h
  split at h
  · rename_i hok
    injection h with h
    subst h
    refine ⟨hok, rfl, ?_⟩
    dsimp only
    split
    · exact Or.inl rfl
    · exact Or.inr rfl
  · exact absurd h (by simp)

/-- A command completes with what its effect leaves. -/
theorem does_of_command {i : Instr} {ok pin : Bool} {f : Dev → Dev} {s : State} {P : Dev → Prop}
    (he : exec i s = command ok pin f s) (ho : ok = true) (hl : s.dev.live) (hp : P (f s.dev.cleared)) : Does i s P := by
  subst ho
  exact ⟨_, he.trans (command_live pin f s hl), rfl, hp⟩

/-- A command that a condition leaves without effect. -/
theorem does_same {i : Instr} {ok pin : Bool} {f : Dev → Dev} {s : State}
    (he : exec i s = command ok pin f s) (ho : ok = true) (hl : s.dev.live) (hf : f s.dev.cleared = s.dev.cleared) :
    Does i s (fun y => y = s.dev.on (fun d => { d with out := [] })) :=
  does_of_command he ho hl hf

@[simp] theorem Dev.cleared_rd (x : Dev) (r : RegId) : x.cleared.chip.rd r = x.chip.rd r := rfl
@[simp] theorem Dev.cleared_mem (x : Dev) : x.cleared.mem = x.mem := rfl

/-- Memory is left by what acts on the chip alone. -/
theorem Dev.sameMem_on (x : Dev) (f : Chip → Chip) : x.sameMem (x.cleared.on f) := fun _ => rfl

/-! ## Register writes (R300, R301) -/

/-- A write that passes its checks has its effect. -/
theorem Dev.regWrite_allows (x : Dev) (sess op : Nat) (r : RegId) (w : Word) (h : x.allows sess r w) :
    x.regWrite sess op r.addr w =
      ((x.writeReg r w).1,
        ⟨let d := if r.blk = .eng ∧ (x.writeReg r w).1 = .ok ∧ r.row.isSome then (x.writeReg r w).2.chip.mirror r.idx
            else (x.writeReg r w).2.chip
          if ownerOnly r ∧ (x.writeReg r w).1 = .ok ∧ sess ≠ 0 then d.ownerAction sess op else d,
        (x.writeReg r w).2.mem⟩) := by
  obtain ⟨h1, h2, h3⟩ := h
  simp [Dev.regWrite, h1, h2, h3]

theorem Dev.allows_cleared {x : Dev} {sess : Nat} {r : RegId} {w : Word} (h : x.allows sess r w) :
    x.cleared.allows sess r w := h

/-- A write of a command is answered with its status. -/
theorem Dev.hostWrite_answered (x : Dev) (sess : Nat) (r : RegId) (w : Word) :
    (x.hostWrite sess r w).answered (x.regWrite sess 0x0011 r.addr w).1 := by
  simp [Dev.answered, Dev.hostWrite]

theorem Dev.hostWrite_mem (x : Dev) (sess : Nat) (r : RegId) (w : Word) :
    (x.hostWrite sess r w).mem = (x.regWrite sess 0x0011 r.addr w).2.mem := rfl

theorem Dev.rd_hostWrite (x : Dev) (sess : Nat) (r q : RegId) (w : Word) :
    (x.hostWrite sess r w).chip.rd q = (x.regWrite sess 0x0011 r.addr w).2.chip.rd q := rfl

/-- The record of a refusal. -/
theorem Chip.refuse_record (d : Chip) (sess a : Nat) (st : Status) :
    (d.refuse sess a st).rb R.GLB_EVENT 4 = true ∧ (d.refuse sess a st).rd R.GLB_REFUSE_ADDR = w32 a
      ∧ (d.refuse sess a st).rd R.GLB_REFUSE_INFO = w32 (st.code + sess % 65536 * 2 ^ 16)
      ∧ ((d.refuse sess a st).rd R.GLB_REFUSE_CNT).toNat = min ((d.rd R.GLB_REFUSE_CNT).toNat + 1) 0xFFFFFFFF := by
  have k1 : R.GLB_EVENT.key ≠ R.GLB_REFUSE_INFO.key := by decide
  have k2 : R.GLB_EVENT.key ≠ R.GLB_REFUSE_ADDR.key := by decide
  have k3 : R.GLB_EVENT.key ≠ R.GLB_REFUSE_CNT.key := by decide
  have k4 : R.GLB_REFUSE_ADDR.key ≠ R.GLB_REFUSE_INFO.key := by decide
  have k5 : R.GLB_REFUSE_CNT.key ≠ R.GLB_REFUSE_INFO.key := by decide
  have k6 : R.GLB_REFUSE_CNT.key ≠ R.GLB_REFUSE_ADDR.key := by decide
  have k7 : R.GLB_REFUSE_CNT.key ≠ R.GLB_EVENT.key := by decide
  unfold Chip.refuse
  refine ⟨?_, ?_, ?_, ?_⟩
  · rw [Chip.rb_wr_other _ _ _ k1, Chip.rb_wr_other _ _ _ k2]
    have := Chip.rb_flag_same d R.GLB_EVENT 4 (by omega)
    simpa [Chip.rb, Chip.rd_count_other _ _ k3] using this
  · rw [Chip.rd_wr_other _ _ k4, Chip.rd_wr_same]
  · rw [Chip.rd_wr_same]
  · rw [Chip.rd_wr_other _ _ k5, Chip.rd_wr_other _ _ k6, Chip.rd_count_same, Chip.rd_flag_other _ _ k7]

/-- A refused write leaves the record and its answer, and nothing else but the sticky flag `r`, `i` of the rule
that refused it. -/
theorem Dev.hostWrite_cd (x : Dev) (sess : Nat) (r : RegId) (w : Word) (hc : x.chip.accessCheck sess r.addr true = .ok r)
    (hl : x.chip.lockedWrite r w = false) (hd : (x.chip.cdRefused r w).1 = true) :
    x.hostWrite sess r w = (Dev.mk ((match (x.chip.cdRefused r w).2 with | some (q, b) => x.chip.flag q b | none => x.chip).refuse
      sess r.addr .notAppliedEnabled) x.mem).on (fun d => d.answer .notAppliedEnabled) := by
  simp only [Dev.hostWrite, Dev.regWrite, hc, hl, hd, if_true]
  rfl

/-! ## Requests (R263-R279) -/

/-- Steps that leave the fused unit ID leave the check of a packet's form. -/
theorem Chip.packetOk_congr {d e : Chip} (hs : d.sec = e.sec) (h : Hdr) (r : Req) : d.packetOk h r = e.packetOk h r := by
  unfold Chip.packetOk Chip.unitId
  rw [hs]

theorem Chip.session_congr {d e : Chip} (hs : d.host = e.host) (n : Nat) : d.session n = e.session n := by
  unfold Chip.session
  rw [hs]

/-- The number of the session that a lookup finds. -/
theorem Chip.session_num {d : Chip} {n : Nat} {z : Session} (h : d.session n = some z) : z.num = n := by
  have := List.find?_some h
  simpa using this

/-- The end of a request whose effect is `y`: an owner's action is logged, the reply goes out, and CAPTURE_READOUT
begins its stream. -/
def Dev.completed (y : (Status × Params) × Dev) (h : Hdr) (r : Req) : Dev :=
  let y1 := if ownerReq r ∧ y.1.1 = .ok then y.2.on (fun d => d.ownerAction h.session (reqCode r)) else y.2
  let y2 := y1.on (fun d => d.finish h r y.1.1 y.1.2 true)
  match r with
  | .captureReadout .. => if y.1.1 = .ok then y2.sendStream y2.chip.host.lastStr else y2
  | _ => y2

/-- A request that runs here is logged in the journal, runs, and completes. -/
theorem Dev.serve_runs (x : Dev) (h : Hdr) (r : Req) (hs : h.stop = .runs)
    (hq : (x.on (fun d => d.jlog h r)).chip.reqStatus h r = none) (hf : (x.on (fun d => d.jlog h r)).chip.forwards h r = false)
    (h1 : r ≠ .fwActivate) (h2 : r ≠ .failoverRequest) :
    x.serve h r = Dev.completed ((x.on (fun d => d.jlog h r)).runOp h r) h r := by
  unfold Dev.serve
  rw [if_neg (by rw [hs]; decide)]
  dsimp only
  rw [hq]
  dsimp only
  rw [if_neg (by rw [hf]; decide), if_neg (by simp [h1, h2])]
  simp only [hs]
  rfl

/-- A request whose turn it is runs on the device that `Dev.taken` describes. -/
theorem Dev.request_inTurn (x : Dev) (h : Hdr) (r : Req) (hi : x.inTurn h r) (h1 : r ≠ .fwActivate)
    (h2 : r ≠ .failoverRequest) : x.cleared.request h r = Dev.completed ((x.taken h r).runOp h r) h r := by
  obtain ⟨⟨hr, hb, hd, hg⟩, hport, hp, hn, ht, hs, -, ⟨z, hz, hz1, hz2, hz3, hz4⟩, hq, hf⟩ := hi
  have hnum := Chip.session_num hz
  have hport2 : ¬ x.cleared.chip.hostPorts ≤ packetPort (.request h r) := Nat.not_le.mpr hport
  unfold Dev.request Dev.receive
  rw [if_neg (fun hx => hx.elim (fun a => a.1 hr) hport2)]
  unfold Dev.route
  simp only [Dev.on_chip, Chip.count_gth, hg, Chip.count_pav, hd]
  unfold Dev.arrive
  have hp2 : ((x.cleared.on (fun d => d.count R.HST_RX_CNT)).chip).packetOk h r = true :=
    (Chip.packetOk_congr (by simp) h r).trans hp
  have hz' : ((x.cleared.on (fun d => d.count R.HST_RX_CNT)).chip).session h.session = some z :=
    (Chip.session_congr (by simp) _).trans hz
  dsimp only at hp2 hz' ⊢
  simp only [hp2, hz', hn, ht, Bool.false_eq_true, if_false, not_true]
  unfold Dev.receiveIn
  simp only [hz1, hz2, hz3, hz4, hnum, Option.isNone_none, and_true, if_true, List.length_nil, Dev.drain, Bool.false_eq_true,
    if_false]
  exact Dev.serve_runs _ h r hs hq hf h1 h2

/-- A request outside any session runs in the same way. -/
theorem Dev.request_openTurn (x : Dev) (h : Hdr) (r : Req) (hi : x.openTurn h r) (h1 : r ≠ .fwActivate)
    (h2 : r ≠ .failoverRequest) : x.cleared.request h r = Dev.completed ((x.taken h r).runOp h r) h r := by
  obtain ⟨⟨hr, hb, hd, hg⟩, hport, hp, hn, hz, ho, hs, hseq, -, hq, hf⟩ := hi
  have hport2 : ¬ x.cleared.chip.hostPorts ≤ packetPort (.request h r) := Nat.not_le.mpr hport
  have ht : x.taken h r = (x.cleared.on (fun d => d.count R.HST_RX_CNT)).on (fun d => d.jlog h r) := by
    have hz' : (({ x.chip with out := [] } : Chip).count R.HST_RX_CNT).session 0 = none :=
      (Chip.session_congr (by simp) _).trans hz
    simp only [Dev.taken, Dev.cleared, Dev.on, Chip.touch, hn, hz']
  unfold Dev.request Dev.receive
  rw [if_neg (fun hx => hx.elim (fun a => a.1 hr) hport2)]
  unfold Dev.route
  simp only [Dev.on_chip, Chip.count_gth, hg, Chip.count_pav, hd]
  unfold Dev.arrive
  have hp2 : ((x.cleared.on (fun d => d.count R.HST_RX_CNT)).chip).packetOk h r = true :=
    (Chip.packetOk_congr (by simp) h r).trans hp
  have hx : ¬ (reqCode r = 0x0002 ∧ h.seq ≠ 0) := fun a => a.2 (hseq a.1)
  dsimp only at hp2 ⊢
  simp only [hp2, hn, ho, hx, if_true, Bool.false_eq_true, if_false, not_true]
  rw [ht] at hq hf ⊢
  exact Dev.serve_runs _ h r hs hq hf h1 h2

end Sys2Proof.Machine
end

