-- ==== Sys2Proof/Tests/Slice0.lean ====
section
/-! SUPPORT. The model's own tests: a term for each check of well-formedness that the check refuses, small steps whose
results are written out from the spec, and for every statement a state and operands that meet its hypotheses. -/

set_option Elab.async false

namespace Sys2Proof.Tests

open Sys2Proof.Machine

/-! ## A device to test on -/

/-- A device that is up: every block ready, an owner session 1 and an operator session 2 open. -/
def chip0 : Chip :=
  { Chip.init with
    core := 100000000000
    dt := 400000000000
    engRdy := List.range 136
    lanes := [(0, { Lane.init with ready := true }), (127, { Lane.init with ready := true })]
    hbm := [(0, { Stack.init with ready := true }), (3, { Stack.init with ready := true })]
    host := { HostP.init with ready := true, link := [0], sessions := [⟨1, true, 1, 0, 0, [], [], false, none⟩,
      ⟨2, false, 1, 0, 0, [], [], false, none⟩], lastNum := 2 }
    pav := { Pav.init with booted := true }
    gth := { Gth.init with ready := true }
    svc := { Svc.init with ready := true, spares := [128, 129, 130, 131, 132, 133, 134, 135] }
    tim := { Tim.init with ready := true }
    tdm := { Tdm.init with ready := true }
    pwr := { Pwr.init with yard := true } }

/-- That device with these registers written and changed by `f`, its memory empty. -/
def st (l : List (RegId × Nat)) (f : Chip → Chip := id) : Dev := ⟨f (l.foldl (fun d p => d.wr p.1 (w32 p.2)) chip0), ⟨[], [], []⟩⟩

/-- The header of the next request of session 1. -/
def h1 : Hdr := ⟨1, 1, 1, false, 0, 5000, true, true, true, false, .runs, .kept⟩

/-- The header of a request outside any session. -/
def h0 : Hdr := ⟨1, 0, 0, false, 0, 5000, true, true, true, false, .runs, .kept⟩

/-- The address check's register, if it passes. -/
def okReg : Except Status RegId → Option RegId
  | .ok g => some g
  | .error _ => none

/-- The address check's status, if it fails. -/
def errOf : Except Status RegId → Option Status
  | .ok _ => none
  | .error st => some st

theorem ok_iff (x : Except Status RegId) (g : RegId) : x = .ok g ↔ okReg x = some g := by cases x <;> simp [okReg]
theorem err_iff (x : Except Status RegId) (st : Status) : x = .error st ↔ errOf x = some st := by cases x <;> simp [errOf]

theorem inTurn_iff (x : Dev) (h : Hdr) (r : Req) : x.inTurn h r ↔ x.serving ∧ h.port < x.chip.hostPorts ∧ x.chip.packetOk h r = true ∧ h.session ≠ 0
    ∧ h.tagOk = true ∧ h.stop = .runs ∧ h.seq < 0xFFFFFFFF
    ∧ (x.chip.session h.session).any (fun y => !y.reset && y.next == h.seq && y.wait.isNone && y.held.isEmpty) = true
    ∧ (x.taken h r).chip.reqStatus h r = none ∧ (x.taken h r).chip.forwards h r = false := by
  unfold Dev.inTurn
  cases x.chip.session h.session <;> simp [and_assoc]

/-! ## Ill-formed commands are refused -/

/-- One command for each check of well-formedness, with the first operand that it refuses. -/
theorem test_ill_formed : ([.engineReset 1 136 0, .laneEnable 1 140 0, .laneCalibrationDone 16, .mmbGo 1 34 0,
    .contextEnable 1 16384 0, .pendingBaleRetry 4096, .globalTriggerLine 8, .timeCompareFire 68, .clusterPowerDown 1 17,
    .yardTimeout 24 0, .yardGrant 40, .scrubPassEnd 4, .scrubBlock 0 32 0 0, .ppsLoss 4, .hostLinkChange 4 true, .tandemLaneUp 8,
    .rxFrame 272 ⟨0, [], [], []⟩, .defectSetExpiry false 272 0, .defectSetExpiry true 16384 0, .termHoldExpiry 0 4,
    .blockReady (.engine 136), .blockReady (.lanes 16), .blockReady (.stack 4)] : List Instr).all (fun i => !i.wf) = true := by
  decide

/-- The last operand that each check takes. -/
theorem test_well_formed : ([.engineReset 1 135 0, .laneEnable 1 139 0, .laneCalibrationDone 15, .mmbGo 1 33 0,
    .contextEnable 1 16383 0, .pendingBaleRetry 4095, .globalTriggerLine 7, .timeCompareFire 67, .clusterPowerDown 1 16,
    .yardTimeout 23 0, .yardGrant 39, .yardGrant 0x3F, .scrubPassEnd 3, .scrubBlock 3 31 0 0, .ppsLoss 3, .hostLinkChange 3 true,
    .tandemLaneUp 7, .rxFrame 271 ⟨0, [], [], []⟩, .defectSetExpiry false 271 0, .defectSetExpiry true 16383 0, .termHoldExpiry 135 3,
    .blockReady (.engine 135), .blockReady (.lanes 15), .blockReady (.stack 3)] : List Instr).all Instr.wf = true := by
  decide

/-! ## Witnesses: the hypotheses of each statement can be met -/

theorem wit_CommandCompletesIffWellFormed : (Instr.lofSetExpiry 135).wf = true ∧ (Instr.lofSetExpiry 136).wf = false := by decide

theorem wit_ResetHoldsTheDevice : ∃ t, (st [] (fun d => { d with pwr := { d.pwr with nReset := false } })).chip.inReset = true
    ∧ exec .heartbeat ⟨[], st [] (fun d => { d with pwr := { d.pwr with nReset := false } })⟩ = .next t := ⟨_, by decide +kernel, rfl⟩

theorem wit_StepKeepsMemoryCanonical : ∃ t, (⟨[.heartbeat], (st []).chip, ⟨[(0, 255), (2 ^ 40 - 1, 1)], [], []⟩⟩ : State).memWf
    ∧ step ⟨[.heartbeat], (st []).chip, ⟨[(0, 255), (2 ^ 40 - 1, 1)], [], []⟩⟩ = .next t := ⟨_, by unfold State.memWf; decide +kernel, rfl⟩

theorem wit_StepKeepsEventNumbering : ∃ t, (st [] (fun d => d.ev 0 0x0104 0)).chip.log.wf
    ∧ step ⟨[.heartbeat], st [] (fun d => d.ev 0 0x0104 0)⟩ = .next t := by
  refine ⟨_, ⟨by decide +kernel, by decide +kernel, ?_⟩, rfl⟩
  intro i v h
  match i with
  | 0 => cases h; decide +kernel
  | i + 1 => cases h

theorem wit_ResetPinsResetTheDevice : (st []).chip.pwr.good = true ∧ (false && true && true) = false
    ∧ (st [] (fun d => { d with pwr := { d.pwr with good := false } })).chip.pwr.good = false
    ∧ (st []).chip.pwr.thermal = false ∧ (st []).live ∧ ¬ (st [] (fun d => { d with pwr := { d.pwr with nReset := false } })).live
    ∧ 1000 ≤ 1000 ∧ 999 < 1000 := by
  unfold Dev.live; decide +kernel

theorem wit_ThermalAndRailReadings : 65535 < 2 ^ 16 ∧ (st []).live
    ∧ (let x := st [] (fun d => { d with pwr := { d.pwr with hot := 9 } }); x.live ∧ 9 ≤ x.chip.pwr.hot)
    ∧ (460 : Int) ≤ 460 ∧ (st [] (fun d => { d with pwr := { d.pwr with thermal := true } })).chip.pwr.thermal = true
    ∧ (459 : Int) < 460 ∧ (st []).chip.pwr.hot < 9 ∧ (st []).chip.pwr.warn = false ∧ (st []).chip.pwr.crit = false
    ∧ (st [] (fun d => { d with pwr := { d.pwr with crit := true } })).chip.pwr.crit = true := by
  unfold Dev.live; decide +kernel

theorem wit_BringUpOrder :
    ((st []).live ∧ (st []).chip.gth.ready = true ∧ (st []).chip.pwr.yard = true ∧ (st []).chip.pav.booted = true ∧ (st []).chip.svc.ready = true)
    ∧ (let x := st [] (fun d => { d with pwr := { d.pwr with yard := false }, gth := { d.gth with ready := true } });
      x.live ∧ x.chip.gth.ready = true ∧ x.chip.pwr.yard = false)
    ∧ (let x := st [] (fun d => { d with gth := Gth.init }); x.live ∧ x.chip.gth.ready = false)
    ∧ (let x := st [] (fun d => { d with svc := Svc.init, tim := Tim.init, engRdy := [] });
      x.live ∧ x.chip.pwr.yard = true ∧ x.chip.svc.ready = false ∧ x.chip.tim.ready = false)
    ∧ (let x := st [] (fun d => { d with engRdy := [] });
      135 < 136 ∧ x.live ∧ x.chip.svc.ready = true ∧ x.chip.engHeld 135 = false ∧ 135 ∉ x.chip.engRdy ∧ (SMap.get (0, 0) x.chip.pwr.engT 135).2 = 0)
    ∧ (let x := st [] (fun d => { d with cals := [(15, [8])] }); 15 < 16 ∧ x.live ∧ SMap.get [] x.chip.cals 15 = [8])
    ∧ SMap.get [] (st []).chip.cals 15 = []
    ∧ (let x := st [] (fun d => d.setLane 132 { Lane.init with ready := true }); x.live ∧ (x.chip.lane 132).ready = true)
    ∧ ((st []).chip.lane 132).ready = false
    ∧ (∀ k < 2, let x := st [] (fun d => { d with pav := { Pav.init with active := k } });
        x.live ∧ x.chip.gth.ready = true ∧ x.chip.pav.booted = false ∧ x.chip.gth.st = .running
        ∧ (⟨true, true, true, false, []⟩ : BootIn).cut = false
        ∧ (if x.chip.pav.active = 0 then true && x.chip.imageOk x.chip.sec.flash.slotA
            else true && x.chip.imageOk x.chip.sec.flash.slotB) = true
        ∧ (if x.chip.pav.active = 0 then decide (k ≠ 0) && x.chip.imageOk x.chip.sec.flash.slotA
            else decide (k ≠ 1) && x.chip.imageOk x.chip.sec.flash.slotB) = false
        ∧ (decide (k ≠ 0) && x.chip.imageOk x.chip.sec.flash.slotA = true ∨ decide (k ≠ 1) && x.chip.imageOk x.chip.sec.flash.slotB = true))
    ∧ (let b : BootIn := ⟨false, false, true, false, []⟩; let x := st [] (fun d => { d with pav := Pav.init });
      (b.slotA && x.chip.imageOk x.chip.sec.flash.slotA) = false ∧ (b.slotB && x.chip.imageOk x.chip.sec.flash.slotB) = false) := by
  unfold Dev.live; decide +kernel

theorem wit_LaneEnableAndCalibration :
    (127 < 128 ∧ (st []).live ∧ (st []).allows 1 (R.LN_CTRL 127) (setFld 0 0 0 1) ∧ (st []).chip.laneEn 127 = false
      ∧ ((st [(R.LN_CFG 127, 1)]).chip.lane 127).ready = true ∧ (st [(R.LN_CFG 127, 1)]).chip.laneCfgOk 127 = true
      ∧ (st [(R.LN_CFG 127, 1)]).chip.laneEn 127 = false ∧ (st [(R.LN_CFG 127, 1)]).allows 1 (R.LN_CTRL 127) (setFld 0 0 0 1))
    ∧ ((st [(R.LN_CFG 127, 0xF)]).allows 1 (R.LN_CTRL 127) (setFld 0 0 0 1) ∧ ((st [(R.LN_CFG 127, 0xF)]).chip.lane 127).ready = true
      ∧ (st [(R.LN_CFG 127, 0xF)]).chip.laneEn 127 = false ∧ (st [(R.LN_CFG 127, 0xF)]).chip.laneCfgOk 127 = false)
    ∧ ((st []).allows 1 (R.LN_CTRL 127) (setFld 4 0 0 1) ∧ bit 4 2 = true ∧ ((st []).chip.lane 127).ready = true)
    ∧ ((st []).allows 1 (R.LN_CTRL 126) (setFld 0 0 0 1) ∧ ((st []).chip.lane 126).ready = false ∧ (st []).chip.laneEn 126 = false)
    ∧ ((st [(R.LN_CTRL 127, 1)]).allows 1 (R.LN_CTRL 127) (setFld 1 0 0 0) ∧ (st [(R.LN_CTRL 127, 1)]).chip.laneEn 127 = true)
    ∧ (128 ≤ 128 ∧ 139 < 140 ∧ (st []).allows 1 (R.LN_CTRL 128) (setFld 0 0 0 1) ∧ (st []).allows 1 (R.LN_CTRL 139) (setFld 0 0 0 1))
    ∧ ((st []).allows 1 (R.LN_CTRL 127) (setFld 0 2 2 1) ∧ bit 0 0 = false)
    ∧ (15 < 16 ∧ SMap.get [] (st [] (fun d => { d with cals := [(15, [7, 0])] })).chip.cals 15 = [7, 0] ∧ 7 < 8 ∧ 7 ∉ [0]
      ∧ (st [] (fun d => { d with cals := [(15, [7, 0])] })).live)
    ∧ (SMap.get [] (st [] (fun d => { d with cals := [(15, [8])] })).chip.cals 15 = [8] ∧ (st [] (fun d => { d with cals := [(15, [8])] })).live)
    ∧ SMap.get [] (st []).chip.cals 15 = [] := by
  simp only [Dev.live, Dev.allows, ok_iff]; decide +kernel

/-- An enabled lane 139 (a tandem lane) in this state. -/
def lane139 (l : Lane) : Dev := st [(R.LN_CTRL 127, 1), (R.LN_CTRL 139, 1)] (fun d => (d.setLane 127 l).setLane 139 l)

theorem wit_LossOfSignalTimers :
    (127 < 140 ∧ (lane139 { Lane.init with ready := true, present := true }).live
      ∧ (lane139 { Lane.init with ready := true, present := true }).chip.laneEn 127 = true
      ∧ (lane139 { Lane.init with ready := true, present := true }).chip.laneLoop 127 ≠ 1
      ∧ ((lane139 { Lane.init with ready := true, present := true }).chip.lane 127).present = true ∧ (false && true && freqOk 0) = false
      ∧ ((lane139 { Lane.init with ready := true, present := true }).chip.lane 139).present = true)
    ∧ (let x := lane139 { Lane.init with ready := true, since := 100000000000 - 2300 };
      (x.chip.lane 127).calBusy = false ∧ (x.chip.lane 127).los = false ∧ (x.chip.lane 127).present = false
      ∧ ((x.on (fun d => d.wr (R.LN_LOS_SET 127) 23)).chip.lane 127).since
          + (x.on (fun d => d.wr (R.LN_LOS_SET 127) 23)).chip.rf (R.LN_LOS_SET 127) 19 0 * 100 ≤ (x.on (fun d => d.wr (R.LN_LOS_SET 127) 23)).chip.core)
    ∧ (let x := lane139 { Lane.init with ready := true, since := 100000000000 - 2299 };
      (x.chip.lane 127).calBusy = false ∧ (x.chip.lane 127).los = false ∧ (x.chip.lane 127).present = false
      ∧ (x.on (fun d => d.wr (R.LN_LOS_SET 127) 23)).chip.core < ((x.on (fun d => d.wr (R.LN_LOS_SET 127) 23)).chip.lane 127).since
          + (x.on (fun d => d.wr (R.LN_LOS_SET 127) 23)).chip.rf (R.LN_LOS_SET 127) 19 0 * 100)
    ∧ ((lane139 { Lane.init with calBusy := true }).chip.lane 127).calBusy = true
    ∧ (let x := (lane139 { Lane.init with ready := true, los := true, present := true, since := 100000000000 - 10000 }).on
          (fun d => d.wr (R.LN_LOS_CLR 127) 100)
      x.chip.laneEn 127 = true ∧ (x.chip.lane 127).calBusy = false ∧ (x.chip.lane 127).los = true ∧ (x.chip.lane 127).present = true
      ∧ (x.chip.lane 127).since + x.chip.rf (R.LN_LOS_CLR 127) 19 0 * 100 ≤ x.chip.core)
    ∧ (let x := (lane139 { Lane.init with ready := true, los := true, present := true, since := 100000000000 - 9999 }).on
          (fun d => d.wr (R.LN_LOS_CLR 127) 100)
      x.chip.laneEn 127 = true ∧ (x.chip.lane 127).calBusy = false ∧ (x.chip.lane 127).los = true ∧ (x.chip.lane 127).present = true
      ∧ x.chip.core < (x.chip.lane 127).since + x.chip.rf (R.LN_LOS_CLR 127) 19 0 * 100)
    ∧ (st [(R.LN_CFG 127, 0x10)]).chip.laneLoop 127 = 1
    ∧ (let x := st [(R.LN_CTRL 127, 1), (R.LN_TX 127, 1)] (fun d => d.setLane 127 { Lane.init with ready := true, meas := 5 });
      x.live ∧ x.chip.laneEn 127 = true ∧ (x.chip.lane 127).calBusy = false ∧ (x.chip.lane 127).los = false ∧ (x.chip.lane 127).present = false
      ∧ (x.chip.lane 127).since + x.chip.rf (R.LN_LOS_SET 127) 19 0 * 100 ≤ x.chip.core ∧ x.chip.clkLane 127 = some 127)
    ∧ (139 < 140 ∧ (st []).live ∧ (st []).allows 1 (R.LN_LOS_SET 139) 22 ∧ (st []).allows 1 (R.LN_LOS_CLR 139) 1000001) := by
  simp only [Dev.live, Dev.allows, ok_iff]; decide +kernel

theorem wit_ClockRecoveryAndHoldover :
    (let x := lane139 { Lane.init with trans := true, freq := 10000 };
      x.live ∧ 139 < 140 ∧ x.chip.laneEn 127 = true ∧ (x.chip.lane 127).lock = false ∧ x.chip.rxTrans 127 = true
      ∧ freqOk (x.chip.rxFreq 127) = true)
    ∧ (let x := lane139 { Lane.init with lock := true, freq := 10001 };
      x.chip.laneEn 127 = true ∧ (x.chip.lane 127).lock = true ∧ x.live ∧ x.chip.rxTrans 127 = false ∧ freqOk (x.chip.rxFreq 127) = false)
    ∧ ((st []).chip.laneEn 127 = false ∧ ((st []).chip.lane 127).lock = false)
    ∧ (let x := st [(R.LN_TX 127, 1)] (fun d => d.setLane 127 { Lane.init with txHold := some 10001, slewFrom := some 0, freq := 9000 });
      x.live ∧ (x.chip.lane 127).txHold = some 10001 ∧ (x.chip.lane 127).slewFrom = some 0 ∧ x.chip.clkLane 127 = some 127
      ∧ (slewAt 10001 (x.chip.rxFreq 127) 0 x.chip.core - x.chip.rxFreq 127).natAbs ≤ 1)
    ∧ (let x := st [(R.LN_TX 127, 1)] (fun d => d.setLane 127 { Lane.init with txHold := some 10001, slewFrom := some 100000000000, freq := 9999 });
      x.live ∧ (x.chip.lane 127).txHold = some 10001 ∧ (x.chip.lane 127).slewFrom = some 100000000000 ∧ x.chip.clkLane 127 = some 127
      ∧ 1 < (slewAt 10001 (x.chip.rxFreq 127) 100000000000 x.chip.core - x.chip.rxFreq 127).natAbs)
    ∧ (((st []).chip.lane 127).txHold = none ∧ ((st []).chip.lane 127).slewFrom = none
      ∧ (st [(R.LN_CFG 127, 0x20)]).chip.clkLane 127 = some 127 ∧ (st []).chip.clkLane 127 = none) := by
  simp only [Dev.live]; decide +kernel

theorem wit_ModuleSignalsAndBus :
    (33 < 34 ∧ (st []).live ∧ (st []).chip.rb (R.LN_QUAD_MOD (cageIdx 33)) 0 ≠ true ∧ (st []).chip.rb (R.LN_QUAD_MOD (cageIdx 33)) 1 = false)
    ∧ ((st []).allows 1 (R.LN_MMB_CMD (cageIdx 33)) (setFld 0xFF 31 31 1) ∧ ((st []).chip.mmb 33).busy = false
      ∧ (st [(R.LN_QUAD_MOD (cageIdx 33), 1)]).chip.rb (R.LN_QUAD_MOD (cageIdx 33)) 0 = true
      ∧ ((st [(R.LN_QUAD_MOD (cageIdx 33), 1)]).chip.mmb 33).busy = false
      ∧ (st [(R.LN_QUAD_MOD (cageIdx 33), 1)]).allows 1 (R.LN_MMB_CMD (cageIdx 33)) (setFld 0xFF 31 31 1)
      ∧ (st []).chip.rb (R.LN_QUAD_MOD (cageIdx 33)) 0 = false)
    ∧ (∀ wr ∈ [true, false], let x := (st [] (fun d => d.setMmb 33 ⟨true, wr, 0, 128, 100000000000 - 1000000⟩)).on (fun d => d.wr (R.LN_MMB_CFG (cageIdx 33)) 0);
      x.live ∧ x.allows 1 (R.LN_MMB_CMD (cageIdx 33)) (setFld 0 31 31 1) ∧ (x.chip.mmb 33).busy = true ∧ (x.chip.mmb 33).length ≤ 128
      ∧ (x.chip.mmb 33).write = wr
      ∧ (x.chip.mmb 33).start + max 1 (x.chip.rf (R.LN_MMB_CFG (cageIdx 33)) 15 8) * 1000000 ≤ x.chip.core)
    ∧ (let x := (st [] (fun d => d.setMmb 33 ⟨true, true, 0, 128, 100000000000 - 999999⟩)).on (fun d => d.wr (R.LN_MMB_CFG (cageIdx 33)) 0);
      x.live ∧ (x.chip.mmb 33).busy = true ∧ x.chip.core < (x.chip.mmb 33).start + max 1 (x.chip.rf (R.LN_MMB_CFG (cageIdx 33)) 15 8) * 1000000) := by
  simp only [Dev.live, Dev.allows, ok_iff]; decide +kernel

/-- A hunter with one stream of this state. -/
def hunt (s : HSt) (f : Hunter → Hunter := id) : Hunter := f { Hunter.init with streams := [{ HStream.init with st := s }] }

theorem wit_LossOfFrameTimers :
    (let x := st [(R.HNT_LOF 135, 0x0101)] (fun d => d.setHunter 135 (hunt .oof (fun h => { h with since := 100000000000 - 250000 })));
      135 < 136 ∧ x.live ∧ (x.chip.hunter 135).streams ≠ [] ∧ (x.chip.hunter 135).allIn = false ∧ (x.chip.hunter 135).lof = false
      ∧ (x.chip.hunter 135).since + x.chip.rf (R.HNT_LOF 135) 6 0 * 250000 ≤ x.chip.core)
    ∧ ((st [] (fun d => d.setHunter 135 (hunt .inFrame))).chip.hunter 135).allIn = true
    ∧ ((st []).chip.hunter 135).streams = []
    ∧ (let x := st [(R.HNT_LOF 135, 0x0101)] (fun d => d.setHunter 135 (hunt .oof (fun h => { h with since := 100000000000 - 249999 })));
      x.live ∧ x.chip.core < (x.chip.hunter 135).since + x.chip.rf (R.HNT_LOF 135) 6 0 * 250000)
    ∧ (let x := st [(R.HNT_LOF 135, 0x0101)]
          (fun d => d.setHunter 135 (hunt .inFrame (fun h => { h with lof := true, since := 100000000000 - 250000 })));
      x.live ∧ (x.chip.hunter 135).allIn = true ∧ (x.chip.hunter 135).lof = true
      ∧ (x.chip.hunter 135).since + x.chip.rf (R.HNT_LOF 135) 14 8 * 250000 ≤ x.chip.core)
    ∧ ((st []).live ∧ (st []).allows 1 (R.HNT_LOF 135) 0xFFFFFFFF ∧ (st []).chip.subBusy 135 = false)
    ∧ (let x := st [(R.LN_CTRL 127, 1), (R.ENG_CTRL 127, 1), (R.SWB_RX_BIND 127, 0x100 + 127)]
          (fun d => (d.setLane 127 { Lane.init with lock := true }).setHunter 127 (hunt .oof));
      127 < 128 ∧ x.live ∧ x.chip.laneEn 127 = true ∧ (x.chip.lane 127).lock = true ∧ x.chip.laneLoop 127 = 0 ∧ x.chip.listeners 127 = [127]
      ∧ x.chip.flows 127 = true ∧ (x.chip.hunter 127).streams ≠ [])
    ∧ (let x := st [(R.LN_CTRL 127, 1), (R.LN_CFG 127, 0x20), (R.LN_TX 127, 2 ^ 24), (R.ENG_CTRL 0, 1)] (fun d => d.setLane 127 { Lane.init with lock := true });
      x.live ∧ x.chip.laneEn 127 = true ∧ (x.chip.lane 127).lock = true ∧ x.chip.laneLoop 127 = 2 ∧ x.chip.listeners 127 = []
      ∧ x.chip.txIdle 127 = false ∧ x.chip.rb (R.LN_CFG 127) 6 = x.chip.rb (R.LN_CFG 127) 7)
    ∧ (∀ n ∈ [3, 4], let x := st [(R.LN_CTRL 127, 1), (R.LN_CFG 127, 0x10)] (fun d => d.setLane 127 { Lane.init with lock := true, loop := List.replicate n 0 });
      x.live ∧ x.chip.laneEn 127 = true ∧ (x.chip.lane 127).lock = true ∧ x.chip.laneLoop 127 = 1 ∧ (x.chip.lane 127).loop.length = n
      ∧ x.chip.listeners 127 = [])
    ∧ (st []).chip.laneEn 127 = false := by
  simp only [Dev.live, Dev.allows, ok_iff]; decide +kernel

theorem wit_HunterControls :
    (135 < 136 ∧ (st []).live ∧ (st []).chip.subBusy 135 = false ∧ (st []).allows 1 (R.HNT_CTRL 135) 1
      ∧ ((st []).chip.hunter 135).streams = [] ∧ (st []).chip.ganged 135 = false)
    ∧ (63 < 64 ∧ (st []).allows 1 (R.HNT_CTRL 135) (w32 (2 + 63 * 2 ^ 8)) ∧ ∀ c ∈ ((st []).chip.hunter 135).cands, c.1 ≠ 63)
    ∧ (∀ s ∈ [HSt.ambiguous, .inFrame], let x := st [] (fun d => d.setHunter 135 (hunt s (fun h => { h with cands := [(63, Cand.init)] })));
      x.live ∧ x.allows 1 (R.HNT_CTRL 135) (w32 (2 + 63 * 2 ^ 8)) ∧ (x.chip.hunter 135).cands.find? (fun z => z.1 = 63) = some (63, Cand.init)
      ∧ Cand.init.stream < (x.chip.hunter 135).streams.length ∧ ((x.chip.hunter 135).stream Cand.init.stream).st = s)
    ∧ (st []).allows 1 (R.HNT_CTRL 135) 4 := by
  simp only [Dev.live, Dev.allows, ok_iff]; decide +kernel

/-- Engine 127 enabled on lane 127 with an STM-1, its hunter in this state. -/
def eng127 (h : Hunter) : Dev :=
  st [(R.LN_CTRL 127, 1), (R.LN_CFG 127, 1), (R.ENG_CTRL 127, 1), (R.SWB_RX_BIND 127, 0x100 + 127)] (fun d => d.setHunter 127 h)

theorem wit_OverheadFrames :
    ((eng127 (hunt .inFrame)).live ∧ 127 < 136 ∧ (eng127 (hunt .inFrame)).chip.engEn 127 = true
      ∧ (eng127 (hunt .inFrame)).chip.head 127 = 127 ∧ isFramed ((eng127 (hunt .inFrame)).chip.engFmt 127) = true
      ∧ (eng127 (hunt .inFrame)).chip.inFrame 127 = true)
    ∧ (∀ a ∈ [none, some (Align.mk 0 0 none)], let x := eng127 (hunt .oof (fun h => { h with align := a }));
      x.live ∧ x.chip.engEn 127 = true ∧ x.chip.head 127 = 127 ∧ isFramed (x.chip.engFmt 127) = true ∧ x.chip.inFrame 127 = false
      ∧ (if x.chip.ganged 127 then (x.chip.hunter 127).groupTent else (x.chip.hunter 127).align.isSome) = a.isSome)
    ∧ ((st []).chip.engEn 135 = false ∧ isFramed ((st [(R.ENG_CTRL 135, 1)]).chip.engFmt 135) = false)
    ∧ (136 ≤ 136 ∧ 271 < 272 ∧ (st []).chip.joined = false)
    ∧ (let x := (eng127 (hunt .inFrame)).on (fun d => d.setOhp 127 { Ohp.init with commit := [99999999998, 99999999999] });
      x.live ∧ x.chip.engEn 127 = true ∧ x.chip.head 127 = 127 ∧ 99999999998 ∈ (x.chip.ohp 127).commit ∧ 99999999998 + 1 < x.chip.core
      ∧ 99999999999 ∈ (x.chip.ohp 127).commit ∧ ¬ 99999999999 + 1 < x.chip.core)
    ∧ ((st []).live ∧ 135 < 136 ∧ (st []).allows 1 (R.OHP_CTRL 135) 1 ∧ (st []).chip.subBusy 135 = false) := by
  simp only [Dev.live, Dev.allows, ok_iff]; decide +kernel

theorem wit_TrailTraceBuffers :
    (135 < 136 ∧ (st []).live ∧ (st []).chip.subBusy 135 = false)
    ∧ ((st []).allows 1 (R.OHP_TTI_IDX 135) (w32 (7 + 2 * 2 ^ 16)) ∧ bit (w32 (7 + 2 * 2 ^ 16)) 15 = false
      ∧ fld (w32 (7 + 2 * 2 ^ 16)) 11 0 ≤ 7 ∧ fld (w32 (7 + 2 * 2 ^ 16)) 17 16 < 3)
    ∧ ((st []).allows 1 (R.OHP_TTI_IDX 135) (w32 (4095 + 2 ^ 15)) ∧ bit (w32 (4095 + 2 ^ 15)) 15 = true ∧ fld (w32 (4095 + 2 ^ 15)) 17 16 < 3)
    ∧ ((st []).allows 1 (R.OHP_TTI_IDX 135) 8 ∧ bit 8 15 = false ∧ 7 < fld 8 11 0)
    ∧ ((st []).allows 1 (R.OHP_TTI_IDX 135) (w32 (3 * 2 ^ 16)) ∧ fld (w32 (3 * 2 ^ 16)) 17 16 = 3)
    ∧ (∀ b < 4, let x := st [(R.OHP_TTI_IDX 135, 7 + b * 2 ^ 16)];
      x.live ∧ x.allows 1 (R.OHP_TTI_CMD 135) 1 ∧ (b < 3 → x.chip.ttiIdx 135 = some (135 * 8 + 7)) ∧ x.chip.rf (R.OHP_TTI_IDX 135) 17 16 = b)
    ∧ (st [(R.OHP_TTI_IDX 135, 8)]).chip.ttiIdx 135 = none
    ∧ (let x := st [(R.OHP_TTI_IDX 135, 7)];
      x.live ∧ x.allows 1 (R.OHP_TTI_SLOT 135) 16 ∧ x.chip.ttiIdx 135 = some (135 * 8 + 7)) := by
  simp only [Dev.live, Dev.allows, ok_iff]; decide +kernel

/-- TRB_CFG of a top-level VC-4 of engine 127 (TYPE 1). -/
def vc4 : Nat := 1 * 2 + 127 * 2 ^ 5 + 2 ^ 13

theorem wit_ContextEnableAndDisable :
    (let x := eng127 (hunt .inFrame);
      16383 < 16384 ∧ x.live ∧ x.allows 1 (R.TRB_CFG 16383) (setFld (w32 vc4) 0 0 1) ∧ x.chip.ctxEn 16383 = false
      ∧ (x.chip.store (R.TRB_CFG 16383) (setFld (w32 vc4) 0 0 1) 1).ctxOk 16383 = true)
    ∧ (let x := eng127 (hunt .inFrame);
      x.allows 1 (R.TRB_CFG 16383) (setFld 0 0 0 1) ∧ (x.chip.store (R.TRB_CFG 16383) (setFld 0 0 0 1) 1).ctxOk 16383 = false)
    ∧ (let x := st [(R.TRB_CFG 16383, vc4 + 1)];
      x.chip.ctxEn 16383 = true ∧ x.allows 1 (R.TRB_CFG 16383) (setFld (w32 vc4) 0 0 1))
    ∧ ((st []).chip.ctxEn 16383 = false ∧ (st []).allows 1 (R.TRB_CFG 16383) (setFld (w32 vc4) 0 0 0))
    ∧ (let x := st [(R.TRB_CFG 16383, vc4 + 1)];
      x.live ∧ x.allows 1 (R.TRB_CFG 16383) (setFld (w32 vc4) 0 0 0) ∧ x.chip.ctxEn 16383 = true
      ∧ (x.chip.store (R.TRB_CFG 16383) (setFld (w32 vc4) 0 0 0) 1).hasKids 16383 = false)
    ∧ (let x := st [(R.TRB_CFG 0, 1 + 16383 * 2 ^ 14), (R.TRB_CFG 16383, vc4 + 1)];
      x.live ∧ x.allows 1 (R.TRB_CFG 16383) (setFld (w32 vc4) 0 0 0) ∧ x.chip.ctxEn 16383 = true
      ∧ (x.chip.store (R.TRB_CFG 16383) (setFld (w32 vc4) 0 0 0) 1).hasKids 16383 = true) := by
  simp only [Dev.live, Dev.allows, ok_iff]; decide +kernel

theorem wit_PointerPrograms :
    (let x := st [(R.TRB_CFG 16383, vc4 + 1), (R.TRB_TX 16383, 8)];
      16383 < 16384 ∧ x.live ∧ 127 < 136 ∧ x.allows 1 (R.MAP_CTRL 127) (w32 (16383 + 2 ^ 14)) ∧ x.chip.subBusy 127 = false
      ∧ x.chip.ctxEn 16383 = true ∧ x.chip.ctxOwner 16383 = 127 ∧ x.chip.rf (R.TRB_TX 16383) 3 2 = 2)
    ∧ (st []).chip.ctxEn 16383 = false ∧ (st [(R.TRB_CFG 16383, vc4 + 1)]).chip.ctxOwner 16383 ≠ 126
    ∧ (st [(R.TRB_CFG 16383, vc4 + 1)]).chip.rf (R.TRB_TX 16383) 3 2 ≠ 2
    ∧ (let x := st [(R.TRB_CFG 16383, vc4 + 1)] (fun d => d.setCtx 16383 { Ctx.init with seq := some ⟨0, 0, 1, false⟩ });
      x.live ∧ x.allows 1 (R.MAP_CTRL 127) (w32 (16383 + 2 ^ 15)) ∧ x.chip.subBusy 127 = false ∧ x.chip.ctxOwner 16383 = 127
      ∧ (x.chip.ctx 16383).seq = some ⟨0, 0, 1, false⟩)
    ∧ (let x := (eng127 (hunt .inFrame)).on (fun d => d.wr (R.TRB_CFG 16383) (w32 (vc4 + 1)));
      x.live ∧ x.chip.ctxEn 16383 = true ∧ x.chip.engEn (x.chip.ctxOwner 16383) = true) := by
  simp only [Dev.live, Dev.allows, ok_iff]; decide +kernel

theorem wit_DefectIntegration :
    (let x := (eng127 (hunt .inFrame)).on (fun d => d.setDefT (.line 127 23) { DefT.init with crit := some true });
      x.live ∧ 127 < 136 ∧ 23 < 24 ∧ x.chip.defEval (.line 127 23) = true ∧ (x.chip.defT (.line 127 23)).crit = some true
      ∧ x.chip.defUp (.line 127 23) = false ∧ (x.chip.defT (.line 127 23)).since + x.chip.defTime (.line 127 23) true ≤ x.chip.core)
    ∧ (let x := (eng127 (hunt .inFrame)).on (fun d => (d.wr (R.DEF_INTEG_LINE 127) 1).setDefT (.line 127 23) { DefT.init with crit := some true, since := 100000000000 });
      x.live ∧ x.chip.defEval (.line 127 23) = true ∧ x.chip.defUp (.line 127 23) = false
      ∧ x.chip.core < (x.chip.defT (.line 127 23)).since + x.chip.defTime (.line 127 23) true)
    ∧ (let x := (eng127 (hunt .inFrame)).on (fun d => (d.wr (R.DEF_STATUS 127) (w32 (2 ^ 23))).setDefT (.line 127 23) { DefT.init with crit := some false });
      x.live ∧ x.chip.defEval (.line 127 23) = true ∧ (x.chip.defT (.line 127 23)).crit = some false ∧ x.chip.defUp (.line 127 23) = true
      ∧ (x.chip.defT (.line 127 23)).since + x.chip.defTime (.line 127 23) false ≤ x.chip.core)
    ∧ (let x := (eng127 (hunt .inFrame)).on (fun d => (d.wr (R.TRB_CFG 16383) (w32 (vc4 + 1))).setDefT (.path 16383 2) { DefT.init with crit := some true });
      x.live ∧ 16383 < 16384 ∧ 2 ∉ [0, 1, 10, 11] ∧ x.chip.defEval (.path 16383 2) = true ∧ (x.chip.defT (.path 16383 2)).crit = some true
      ∧ x.chip.defUp (.path 16383 2) = false ∧ (x.chip.defT (.path 16383 2)).since + x.chip.defTime (.path 16383 2) true ≤ x.chip.core)
    ∧ (let x := (eng127 (hunt .inFrame)).on (fun d => ({ d.wr (R.TRB_CFG 16383) (w32 (vc4 + 1)) with paths := [(16383, 4)] } : Chip).setDefT (.path 16383 2) { DefT.init with crit := some false });
      x.live ∧ x.chip.defEval (.path 16383 2) = true ∧ (x.chip.defT (.path 16383 2)).crit = some false
      ∧ x.chip.defUp (.path 16383 2) = true ∧ (x.chip.defT (.path 16383 2)).since + x.chip.defTime (.path 16383 2) false ≤ x.chip.core)
    ∧ ((st []).chip.defEval (.line 135 0) = false ∧ ((st []).chip.defT (.line 135 0)).crit = none)
    ∧ ((st []).chip.tdmSt ≠ 2 ∧ (st []).chip.tdmSt ≠ 3)
    ∧ (136 ≤ 136 ∧ 271 < 272 ∧ (st [(R.TDM_STATUS, 2)]).live ∧ (st [(R.TDM_STATUS, 2)]).chip.tdmSt = 2 ∧ (st [(R.TDM_STATUS, 3)]).chip.tdmSt = 3)
    ∧ (135 < 136 ∧ (st []).live ∧ (st []).chip.subBusy 135 = false ∧ (st []).allows 1 (R.DEF_INTEG_LINE 135) 10001
      ∧ (st []).allows 1 (R.DEF_INTEG_PATH 135) (w32 (10001 * 2 ^ 16))) := by
  simp only [Dev.live, Dev.allows, ok_iff]; decide +kernel

theorem wit_SignalWindowsAndSeconds :
    (let x := (eng127 (hunt .inFrame)).on (fun d => d.setMon 127 { DefMon.init with sd := ⟨1, 1, 0, 1, 1, 0⟩ });
      127 < 136 ∧ x.live ∧ x.chip.engEn 127 = true ∧ (x.chip.mon 127).sd.window ≠ 0 ∧ (x.chip.mon 127).sd.window ≤ (x.chip.mon 127).sd.frames
      ∧ (x.chip.mon 127).sd.set ≠ 0 ∧ (x.chip.mon 127).sd.set ≤ (x.chip.mon 127).sd.errs ∧ (x.chip.mon 127).layer < 2)
    ∧ (let x := (eng127 (hunt .inFrame)).on (fun d => d.setMon 127 { DefMon.init with sd := ⟨1, 0, 15, 1, 1, 1⟩ });
      x.live ∧ x.chip.engEn 127 = true ∧ (x.chip.mon 127).sd.window ≠ 0 ∧ (x.chip.mon 127).sd.window ≤ (x.chip.mon 127).sd.frames
      ∧ (x.chip.mon 127).sd.errs < (x.chip.mon 127).sd.set ∧ (x.chip.mon 127).sd.errs < (x.chip.mon 127).sd.clr ∧ (x.chip.mon 127).layer < 2
      ∧ max 1 (x.chip.winCfg 127 true).2.2.2 ≤ (x.chip.mon 127).sd.below + 1)
    ∧ (let x := (eng127 (hunt .inFrame)).on (fun d => (d.wr (R.DEF_SF_WIN 127) (w32 (2 ^ 20))).setMon 127 { DefMon.init with sf := ⟨1, 1, 0, 1, 1, 0⟩, layer := 1 });
      x.live ∧ x.chip.engEn 127 = true ∧ ((x.chip.mon 127).win false).window ≠ 0 ∧ ((x.chip.mon 127).win false).window ≤ ((x.chip.mon 127).win false).frames
      ∧ x.chip.rf (R.DEF_SF_WIN 127) 20 20 = (x.chip.mon 127).layer ∧ ((x.chip.mon 127).win false).set ≤ ((x.chip.mon 127).win false).errs)
    ∧ (let x := (eng127 (hunt .inFrame)).on (fun d => (d.wr (R.DEF_SF_WIN 127) (w32 (2 ^ 20))).setMon 127 { DefMon.init with sf := ⟨1, 1, 0, 1, 1, 0⟩, layer := 0 });
      x.live ∧ x.chip.engEn 127 = true ∧ ((x.chip.mon 127).win false).window ≤ ((x.chip.mon 127).win false).frames
      ∧ x.chip.rf (R.DEF_SF_WIN 127) 20 20 ≠ (x.chip.mon 127).layer ∧ (x.chip.mon 127).layer < 2)
    ∧ (let x := st [] (fun d => d.setMon 135 { DefMon.init with sf := ⟨0, 0, 0, 1, 1, 1⟩ });
      135 < 136 ∧ x.live ∧ (x.chip.mon 135).sf.frames < (x.chip.mon 135).sf.window)
    ∧ ((st []).live ∧ (st []).chip.subBusy 135 = false ∧ 5 < 6 ∧ (st []).allows 1 (winReg 135 5) 0xFFFFFFFF ∧ (st []).allows 1 (winReg 135 3) (w32 0xF0000)
      ∧ fld (w32 0xF0000) 15 0 = 0 ∧ ((st []).chip.mon 135).layer < 2)
    ∧ (st [] (fun d => { d with dt := 0 })).chip.dt / secTicks = ((st [] (fun d => { d with dt := 0 })).chip.mon 135).sec
    ∧ ((st []).chip.mon 135).waits = []
    ∧ (st []).chip.dt / secTicks ≠ ((st []).chip.mon 135).sec
    ∧ (let x := st [] (fun d => d.setMon 135 { DefMon.init with waits := [89, 90] });
      x.live ∧ (x.chip.mon 135).waits = 89 :: [90] ∧ (89 + 11) * secTicks ≤ x.chip.dt ∧ 89 < 2 ^ 24)
    ∧ (let p : PmLayer := { PmLayer.init with pend := [⟨89, true, true, 5⟩] };
      let x := st [] (fun d => d.setMon 135 { DefMon.init with waits := [89], pm := [p, p, p, { p with unavail := true }] });
      (x.chip.mon 135).pm[0]? = some p ∧ p.pend = ⟨89, true, true, 5⟩ :: [] ∧ p.unavailAt = false
      ∧ ((x.chip.mon 135).pm[3]?).map PmLayer.unavailAt = some true)
    ∧ (let x := st [] (fun d => d.setMon 135 { DefMon.init with waits := [90] });
      x.live ∧ (x.chip.mon 135).waits = 90 :: [] ∧ x.chip.dt < (90 + 11) * secTicks) := by
  simp only [Dev.live, Dev.allows, ok_iff]; decide +kernel

/-- Engines 126 and 127 on STM-1 lanes, engine 126 the working member of the group at engine 127. -/
def aps (l : List (RegId × Nat)) (f : Chip → Chip := id) : Dev :=
  st ([(R.LN_CTRL 127, 1), (R.LN_CFG 127, 1), (R.ENG_CTRL 127, 1), (R.SWB_RX_BIND 127, 0x100 + 127), (R.LN_CFG 126, 1),
    (R.SWB_RX_BIND 126, 0x100 + 126), (R.APS_MEMBER 126, 127 + 2 ^ 8 + 2 ^ 12)] ++ l) f

theorem wit_ProtectionGroupSetup :
    (127 < 136 ∧ (aps []).live ∧ (aps []).chip.subBusy 127 = false ∧ (aps []).allows 1 (R.APS_CFG 127) (setFld 0x450 0 0 1)
      ∧ (aps []).chip.rb (R.APS_CFG 127) 0 = false ∧ ((aps []).chip.store (R.APS_CFG 127) (setFld 0x450 0 0 1) 1).dskReady 127 = true
      ∧ ((aps []).chip.store (R.APS_CFG 127) (setFld 0x450 0 0 1) 1).apsChecks 127 = true)
    ∧ ((aps []).allows 1 (R.APS_CFG 127) (setFld 0x490 0 0 1) ∧ ((aps []).chip.store (R.APS_CFG 127) (setFld 0x490 0 0 1) 1).dskReady 127 = true
      ∧ ((aps []).chip.store (R.APS_CFG 127) (setFld 0x490 0 0 1) 1).apsChecks 127 = false)
    ∧ (let x := aps [(R.DSK_CFG 127, 24576 + 2 ^ 24)];
      x.allows 1 (R.APS_CFG 127) (setFld 0x470 0 0 1) ∧ (x.chip.store (R.APS_CFG 127) (setFld 0x470 0 0 1) 1).dskReady 127 = false)
    ∧ (let x := aps [(R.APS_CFG 127, 0x451)];
      x.live ∧ x.chip.subBusy 127 = false ∧ x.allows 1 (R.APS_CFG 127) (setFld 0x451 0 0 0) ∧ x.chip.rb (R.APS_CFG 127) 0 = true
      ∧ x.allows 1 (R.APS_CFG 127) (setFld 0x451 0 0 1)
      ∧ x.chip.accessCheck 1 (R.APS_MEMBER 126).addr true = .ok (R.APS_MEMBER 126) ∧ x.chip.subBusy 126 = false
      ∧ x.chip.memberBusy (x.chip.rd (R.APS_MEMBER 126)) = true
      ∧ x.chip.accessCheck 1 (R.APS_MEMBER 135).addr true = .ok (R.APS_MEMBER 135) ∧ x.chip.memberBusy (w32 (127 + 2 ^ 12)) = true)
    ∧ (st []).allows 1 (R.APS_CFG 135) (setFld 0 0 0 0)
    ∧ (135 < 136 ∧ (st []).allows 1 (R.APS_MEMBER 135) 0x3FFF ∧ (st []).live ∧ (st []).chip.subBusy 135 = false) := by
  simp only [Dev.live, Dev.allows, ok_iff]; decide +kernel

/-- That group enabled, in this state. -/
def grp (g : Group) : Dev := aps [(R.APS_CFG 127, 0x451)] (fun d => d.setGroup 127 g)

theorem wit_ProtectionCommands :
    (let x := grp { Group.init with st := .nr };
      127 < 136 ∧ 1 < 16 ∧ x.live ∧ x.chip.subBusy 127 = false ∧ (∀ c, c < 5 → x.allows 1 (R.APS_CMD 127) (apsCmdWord c 1))
      ∧ (x.chip.group 127).st ≠ .disabled ∧ 1 ≤ 1 ∧ 1 ≤ x.chip.apsN 127
      ∧ (∀ r ∈ x.chip.apsLocal 127 ++ (x.chip.apsRxReq 127).toList, r.req ≠ .lo ∧ r.req ≠ .sfP)
      ∧ PReq.ms.rank < (topOf (x.chip.apsLocal 127 ++ (x.chip.apsRxReq 127).toList)).req.rank
      ∧ PReq.exer.rank < (topOf (x.chip.apsLocal 127 ++ (x.chip.apsRxReq 127).toList)).req.rank)
    ∧ (∀ c ∈ [ReqCh.mk .lo 0, .mk .ms 1], let x := grp { Group.init with st := .switched, cmd := some c };
      x.live ∧ x.chip.subBusy 127 = false ∧ (∀ c, c < 5 → x.allows 1 (R.APS_CMD 127) (apsCmdWord c 1))
      ∧ (topOf (x.chip.apsLocal 127 ++ (x.chip.apsRxReq 127).toList)).req.rank ≤ PReq.ms.rank
      ∧ (topOf (x.chip.apsLocal 127 ++ (x.chip.apsRxReq 127).toList)).req.rank ≤ PReq.exer.rank
      ∧ (c.req = .lo → ∃ r ∈ x.chip.apsLocal 127 ++ (x.chip.apsRxReq 127).toList, r.req = .lo ∨ r.req = .sfP))
    ∧ (¬ (1 ≤ 2 ∧ 2 ≤ (grp { Group.init with st := .nr }).chip.apsN 127) ∧ ¬ (1 ≤ 0 ∧ 0 ≤ (grp { Group.init with st := .nr }).chip.apsN 127))
    ∧ (15 < 16 ∧ (st []).live ∧ (st []).chip.subBusy 135 = false ∧ (∀ c, c < 5 → (st []).allows 1 (R.APS_CMD 135) (apsCmdWord c 15))
      ∧ ((st []).chip.group 135).st = .disabled) := by
  simp only [Dev.live, Dev.allows, ok_iff]; decide +kernel

theorem wit_ProtectionTimers :
    (let x := grp { Group.init with st := .nr, holds := [⟨1, false, 100000000000⟩] };
      x.live ∧ x.chip.apsFrozen 127 = false ∧ ⟨1, false, 100000000000⟩ ∈ (x.chip.group 127).holds ∧ 100000000000 ≤ x.chip.core)
    ∧ (let x := grp { Group.init with st := .nr, holds := [⟨1, false, 100000000001⟩] };
      x.live ∧ ∀ t ∈ (x.chip.group 127).holds, t.chan = 1 → x.chip.core < t.due)
    ∧ (let x := grp { Group.init with st := .wtr, wtrDue := some 100000000000 };
      x.live ∧ (x.chip.group 127).st = .wtr ∧ (x.chip.group 127).wtrDue = some 100000000000 ∧ x.chip.apsFrozen 127 = false ∧ 100000000000 ≤ x.chip.core)
    ∧ (let x := grp { Group.init with st := .wtr, wtrDue := some 100000000001 };
      x.live ∧ (x.chip.group 127).st = .wtr ∧ (x.chip.group 127).wtrDue = some 100000000001 ∧ x.chip.core < 100000000001)
    ∧ (let x := grp { Group.init with st := .nr, fopFrom := some 99950000000 };
      x.live ∧ (x.chip.group 127).fopFrom = some 99950000000 ∧ 99950000000 + 50000000 ≤ x.chip.core ∧ (x.chip.group 127).fop = false
      ∧ x.chip.apsFrozen 127 = false)
    ∧ (let x := grp { Group.init with st := .nr, fopFrom := some 99950000001 };
      x.live ∧ (x.chip.group 127).fopFrom = some 99950000001 ∧ x.chip.core < 99950000001 + 50000000)
    ∧ (let x := grp { Group.init with st := .nr };
      x.live ∧ (x.chip.group 127).st ≠ .wtr ∧ (x.chip.group 127).wtrDue = none ∧ (x.chip.group 127).fopFrom = none ∧ (x.chip.group 127).next = none)
    ∧ (grp { Group.init with fop := true }).chip.apsFrozen 127 = false ∧ ((grp { Group.init with fop := true }).chip.group 127).fop = true
    ∧ (aps [(R.APS_CFG 127, 0xC51), (R.TDM_STATUS, 4)]).chip.apsFrozen 127 = true
    ∧ (let x := grp { Group.init with st := .nr, next := some 1 };
      x.live ∧ (x.chip.group 127).next = some 1) := by
  simp only [Dev.live]; decide +kernel

theorem wit_HitlessDeskew :
    (let x := aps [(R.APS_CFG 127, 0x471)] (fun d => d.setGroup 127 { Group.init with st := .nr });
      x.live ∧ (x.chip.group 127).st ≠ .disabled ∧ x.chip.apsHitless 127 = true ∧ x.chip.rf (R.DSK_STATUS 127) 1 0 ≠ 2 ∧ (x.chip.dsk 127).sigP = [] ∧ (x.chip.dsk 127).sigW = [])
    ∧ ((st []).chip.apsHitless 135 = false ∧ ((st []).chip.group 135).st = .disabled ∧ (st []).chip.rf (R.DSK_STATUS 135) 1 0 ≠ 1
      ∧ ((st []).chip.dsk 135).rebase = none)
    ∧ (let x := aps [(R.APS_CFG 127, 0x471), (R.DSK_STATUS 127, 1)] (fun d => d.setDsk 127 { Dsk.init with
          sigW := (List.range 8).map (fun k => ⟨k, k⟩), sigP := (List.range 8).map (fun k => ⟨k, k + 8⟩), from_ := 400000000000 - 64000000 });
      x.live ∧ x.chip.rf (R.DSK_STATUS 127) 1 0 = 1 ∧ (x.chip.dsk 127).from_ + t16ms ≤ x.chip.dt ∧ 8 ≤ (x.chip.dsk 127).sigW.length
      ∧ 8 ≤ (x.chip.dsk 127).sigP.length ∧ sigMatches (x.chip.dsk 127).sigW (x.chip.dsk 127).sigP = []
      ∧ sigMatches (x.chip.dsk 127).sigP (x.chip.dsk 127).sigW = [])
    ∧ (let x := st [] (fun d => d.setDsk 135 { Dsk.init with rebase := some 100000000000 });
      x.live ∧ (x.chip.dsk 135).rebase = some 100000000000 ∧ 100000000000 ≤ x.chip.core)
    ∧ (let x := st [] (fun d => d.setDsk 135 { Dsk.init with rebase := some 100000000001 });
      x.live ∧ (x.chip.dsk 135).rebase = some 100000000001 ∧ x.chip.core < 100000000001) := by
  simp only [Dev.live]; decide +kernel

/-- A Stall word of two octets. -/
def word (sub : Nat) : SWord := ⟨sub, [0x12, 0x34], [(0, 0), (0, 1)], false, false, false, false, false, .data, 0, parEven [0x12, 0x34], parOdd [0x12, 0x34]⟩

/-- Region 4095 of engine 135, sub-channel 0, enabled at the top of the Hayloft with one 64 KiB unit, in this state. -/
def rgn (x : Rgn) (l : List (RegId × Nat) := []) (f : Chip → Chip := id) : Dev :=
  st ([(R.rgn_CAP_RGN_CFG 4095, 1 + 2 * 2 ^ 3), (R.rgn_CAP_RGN_SRC 4095, 135), (R.rgn_CAP_RGN_BASE 4095, 1474559), (R.rgn_CAP_RGN_SIZE 4095, 1)] ++ l)
    (fun d => f (d.setRgn 4095 x))

/-- An open bale with `n` octets. -/
def bale (n : Nat) : OpenBale := ⟨List.replicate n 0, List.replicate n ⟨0, 0, false⟩, 0, 0, 100000000000 - 1000⟩

theorem wit_StallAndLoss :
    (let x := st [] (fun d => d.setCap 135 { Cap.init with eb := [word 0], stall := List.replicate 511 (word 0) });
      135 < 136 ∧ 2 < 3 ∧ x.live ∧ (x.chip.cap 135).eb = word 0 :: [] ∧ (x.chip.cap 135).stall.length < 512)
    ∧ ((st []).chip.cap 135).eb = []
    ∧ 512 ≤ ((st [] (fun d => d.setCap 135 { Cap.init with stall := List.replicate 512 (word 0) })).chip.cap 135).stall.length
    ∧ (let x := st [] (fun d => d.setCap 135 { Cap.init with stall := [word 0, word 0] });
      x.live ∧ (x.chip.cap 135).stall = word 0 :: [word 0] ∧ x.chip.nextPop (135 / 8) = some 135 ∧ (word 0).token = .data
      ∧ x.chip.shared 135 (word 0).sub = false ∧ (∀ z ∈ x.chip.rgns, z.2.pending = false)
      ∧ x.chip.armedRgn (x.chip.subOwner 135 (word 0).sub) (word 0).sub = none)
    ∧ (let x := rgn { Rgn.init with st := .pre, open_ := some (bale 477) } [] (fun d => d.setCap 135 { Cap.init with stall := [word 0] });
      x.live ∧ (x.chip.cap 135).stall = word 0 :: [] ∧ x.chip.nextPop (135 / 8) = some 135 ∧ (∀ z ∈ x.chip.rgns, z.2.pending = false)
      ∧ x.chip.armedRgn (x.chip.subOwner 135 (word 0).sub) (word 0).sub = some 4095 ∧ (x.chip.rgn 4095).full (x.chip.rcfg 4095) = false
      ∧ (x.chip.rgn 4095).open_ = some (bale 477) ∧ (word 0).octets ≠ [] ∧ (word 0).tags.length = (word 0).octets.length
      ∧ (bale 477).octets.length + (word 0).octets.length < 480
      ∧ (decide ((bale 477).flags &&& fTent ≠ 0)) = (word 0).tent ∧ (decide ((bale 477).flags &&& fSplit ≠ 0)) = (word 0).split
      ∧ (x.chip.rgn 4095).trigs = [] ∧ (∀ g ∈ (word 0).tags, (x.chip.rgn 4095).armT ≤ g.1) ∧ (word 0).brk = false ∧ (word 0).resync = false)
    ∧ (((st []).chip.cap 135).stall = [] ∧ ∀ z ∈ (st []).chip.rgns, z.2.pending = false)
    ∧ (let x := st [] (fun d => (d.setCap 135 { Cap.init with stall := [word 0] }).setCap 134 { Cap.init with stall := [word 0] });
      x.live ∧ x.chip.nextPop (135 / 8) ≠ some 135)
    ∧ (let x := st [] (fun d => d.setCap 135 { Cap.init with losing := true, eb := [{ word 0 with octets := List.replicate 61440 0 }], losses := [⟨3, 1, 0, 0, false⟩] });
      x.live ∧ (x.chip.cap 135).losing = true ∧ (x.chip.cap 135).fill + 4096 ≤ ebBytes ∧ ∀ k ∈ (x.chip.cap 135).losses, x.chip.shared 135 k.sub = false)
    ∧ ((st []).chip.cap 135).losing = false
    ∧ ebBytes < ((st [] (fun d => d.setCap 135 { Cap.init with eb := [{ word 0 with octets := List.replicate 61441 0 }] })).chip.cap 135).fill + 4096 := by
  simp only [Dev.live]; decide +kernel

theorem wit_StallAndLoss_unarmed : ∀ h s, (st [] (fun d => d.setCap 135 { Cap.init with stall := [word 0] })).chip.armedRgn h s = none :=
  fun _ _ => rfl

/-- A bale write of this sequence number. -/
def bwr (seq : Nat) (sent folded marker : Bool) : BaleWr := ⟨⟨seq, 0, 0, 135, 0, 0, 0, [1]⟩, sent, marker, false, folded, 0, 0, 0⟩

theorem wit_BaleWrites :
    (let x := rgn { Rgn.init with st := .pre, open_ := some (bale 479) } [(R.CAP_CFG 135, 1)];
      4095 < 4096 ∧ x.live ∧ (x.chip.rgn 4095).open_ = some (bale 479) ∧ (x.chip.rgn 4095).pending = false
      ∧ (bale 479).opened + x.chip.rf (R.CAP_CFG (x.chip.rcfg 4095).eng) 19 0 * 1000 ≤ x.chip.core
      ∧ (x.chip.rgn 4095).full (x.chip.rcfg 4095) = false ∧ x.chip.slotFenced (x.chip.rcfg 4095) (x.chip.rgn 4095).next = false)
    ∧ (let x := rgn { Rgn.init with st := .pre, open_ := some (bale 479) } [(R.CAP_CFG 135, 2)];
      x.live ∧ (x.chip.rgn 4095).open_ = some (bale 479) ∧ (x.chip.rgn 4095).pending = false
      ∧ x.chip.core < (bale 479).opened + x.chip.rf (R.CAP_CFG (x.chip.rcfg 4095).eng) 19 0 * 1000)
    ∧ (let x := rgn { Rgn.init with st := .pre, open_ := some (bale 479) } [(R.CAP_CFG 135, 1)]
          (fun d => { d with yard := { d.yard with fences := (List.range 32).map (fun p => (p, some ⟨0, none⟩)) } });
      x.live ∧ (x.chip.rgn 4095).pending = false ∧ (x.chip.rgn 4095).full (x.chip.rcfg 4095) = false
      ∧ x.chip.slotFenced (x.chip.rcfg 4095) (x.chip.rgn 4095).next = true)
    ∧ ((rgn { Rgn.init with st := .pre }).chip.rgn 4095).open_ = none
    ∧ (let x := rgn { Rgn.init with st := .pre, next := 1, q := [bwr 0 true true false] };
      x.live ∧ (x.chip.rgn 4095).pending = false ∧ (x.chip.rgn 4095).q.find? (fun v => v.bale.seq = 0 && v.sent) = some (bwr 0 true true false)
      ∧ (bwr 0 true true false).folded = true)
    ∧ (let x := rgn { Rgn.init with st := .pre, next := 128, q := [bwr 127 true false false] };
      x.live ∧ (x.chip.rgn 4095).q.find? (fun v => v.bale.seq = 127 && v.sent) = some (bwr 127 true false false)
      ∧ (bwr 127 true false false).folded = false ∧ (x.chip.rgn 4095).pending = false
      ∧ (x.chip.rgn 4095).q = [bwr 127 true false false] ∧ (bwr 127 true false false).sent = true ∧ (bwr 127 true false false).marker = false)
    ∧ ((rgn { Rgn.init with st := .pre, next := 1, q := [bwr 0 true false true] }).chip.rgn 4095).q = [bwr 0 true false true]
    ∧ (bwr 0 true false true).marker = true
    ∧ ((st []).chip.rgn 4095).q.find? (fun v => v.bale.seq = 0 && v.sent) = none
    ∧ (let x := rgn { Rgn.init with st := .pre, next := 1, q := [bwr 0 false true false] };
      x.live ∧ (x.chip.rgn 4095).q = [bwr 0 false true false] ∧ (bwr 0 false true false).sent = false ∧ (bwr 0 false true false).folded = true
      ∧ x.chip.slotFenced (x.chip.rcfg 4095) (bwr 0 false true false).bale.seq = false)
    ∧ (let x := rgn { Rgn.init with st := .pre, next := 1, q := [bwr 0 false true false] } []
          (fun d => { d with yard := { d.yard with fences := (List.range 32).map (fun p => (p, some ⟨0, none⟩)) } });
      x.live ∧ (x.chip.rgn 4095).q.find? (fun v => !v.sent) = some (bwr 0 false true false)
      ∧ x.chip.slotFenced (x.chip.rcfg 4095) (bwr 0 false true false).bale.seq = true) := by
  simp only [Dev.live]; decide +kernel

/-- Combiner 135 (combiner 7 of cluster 16) with one term, the host trigger bit 7. -/
def hostComb : List (RegId × Nat) := [(R.comb_CAP_TRG_CFG 135, 1 + 1 * 2 ^ 2 + 0x1000), (R.comb_CAP_TRG_SRC 135, 0xD7), (R.CAP_TRG_IDX 135, 7)]

theorem wit_TriggerCombiners :
    (let x := st [(R.CAP_TRG_IDX 135, 7)];
      x.live ∧ 135 < 136 ∧ x.chip.subBusy 135 = false ∧ x.allows 1 (R.CAP_TRG_CFG 135) (setFld 0x3C 0 0 1) ∧ x.chip.trgComb 135 = 135
      ∧ x.chip.rb (R.comb_CAP_TRG_CFG (x.chip.trgComb 135)) 0 = false ∧ fld 0x3C 5 2 ≠ 0)
    ∧ (let x := st [(R.CAP_TRG_IDX 135, 7), (R.comb_CAP_TRG_SRC 135, 0xD7D6D5D4)];
      x.live ∧ x.allows 1 (R.CAP_TRG_CFG 135) (setFld 0x3C 0 0 1) ∧ x.chip.rb (R.comb_CAP_TRG_CFG (x.chip.trgComb 135)) 0 = false
      ∧ ∀ i, i < 4 → srcIsLevel (x.chip.termSrc (x.chip.trgComb 135) i) = false)
    ∧ ((st [(R.CAP_TRG_IDX 135, 7)]).allows 1 (R.CAP_TRG_CFG 135) (setFld 0 0 0 1) ∧ fld 0 5 2 = 0)
    ∧ (let x := st ((R.CAP_TRG_IDX 135, 7) :: hostComb);
      x.live ∧ x.allows 1 (R.CAP_TRG_CFG 135) (setFld (x.chip.rd (R.comb_CAP_TRG_CFG 135)) 0 0 1) ∧ x.chip.rb (R.comb_CAP_TRG_CFG (x.chip.trgComb 135)) 0 = true)
    ∧ (let x := st hostComb;
      x.live ∧ 7 < 8 ∧ x.chip.subBusy 135 = false ∧ x.allows 1 (R.CAP_TRG_CMD 135) (w32 (2 ^ 7))
      ∧ (∀ n, n < 8 → (x.chip.rb (R.comb_CAP_TRG_CFG (135 / 8 * 8 + n)) 0 = true ↔ n = 7))
      ∧ fld (x.chip.rd (R.comb_CAP_TRG_CFG (135 / 8 * 8 + 7))) 5 2 = 1 ∧ x.chip.termSrc (135 / 8 * 8 + 7) 0 = 0xD0 + 7
      ∧ x.chip.rf (R.comb_CAP_TRG_CFG (135 / 8 * 8 + 7)) 15 12 = 1 ∧ (x.chip.comb (135 / 8 * 8 + 7)).fired = false
      ∧ (x.chip.comb (135 / 8 * 8 + 7)).until_.getD 0 0 < x.chip.core
      ∧ (x.chip.comb (135 / 8 * 8 + 7)).last ≠ some (x.chip.core - 1))
    ∧ (st []).allows 1 (R.CAP_TRG_CMD 135) (w32 256)
    ∧ (let x := st [] (fun d => { d with lines := [⟨7, 0, false, 100000000001⟩] });
      x.live ∧ 7 < 8 ∧ x.chip.lines.find? (fun v => v.line = 7) = some ⟨7, 0, false, 100000000001⟩ ∧ x.chip.core < 100000000001)
    ∧ (let x := rgn { Rgn.init with st := .armed } [(R.rgn_CAP_RGN_CFG 4095, 1 + 2 * 2 ^ 3 + 7 * 2 ^ 9 + 2 ^ 12)]
          (fun d => { d with lines := [⟨7, 0, false, 100000000000⟩] });
      x.live ∧ x.chip.lines.find? (fun v => v.line = 7) = some ⟨7, 0, false, 100000000000⟩ ∧ 100000000000 ≤ x.chip.core
      ∧ (x.chip.rcfg 4095).global = true ∧ (x.chip.rcfg 4095).trigSel = 7 ∧ (x.chip.rcfg 4095).trigMode = 0
      ∧ (x.chip.rgn 4095).st = .armed ∧ (x.chip.rgn 4095).armT ≤ 0)
    ∧ (let x := st hostComb (fun d => d.setComb 135 { Comb.init with until_ := [0, 0, 0, 99999999999], result := true });
      x.live ∧ 135 < 136 ∧ 3 < 4 ∧ (x.chip.comb 135).until_.getD 3 0 < x.chip.core ∧ x.chip.rb (R.comb_CAP_TRG_CFG 135) 0 = true
      ∧ x.chip.combResult 135 x.chip.core = false)
    ∧ (let x := st hostComb (fun d => d.setComb 135 { Comb.init with until_ := [0, 0, 0, 100000000000], result := true });
      x.live ∧ x.chip.core ≤ (x.chip.comb 135).until_.getD 3 0)
    ∧ ((st []).chip.lines.find? (fun v => v.line = 7) = none ∧ (st []).chip.rb (R.comb_CAP_TRG_CFG 135) 0 = false) := by
  simp only [Dev.live, Dev.allows, ok_iff]; (repeat' apply And.intro) <;> decide +kernel

/-- A key that a table does not list reads as the default. -/
theorem get_unlisted {α : Type} (m : SMap α) (k : Nat) (d : α) (h : ∀ p ∈ m, p.1 ≠ k) : SMap.get d m k = d := by
  induction m with
  | nil => rfl
  | cons p m ih => exact (if_neg (h p List.mem_cons_self)).trans (ih (fun q hq => h q (List.mem_cons_of_mem _ hq)))

/-- A device whose registers list no combiner enables none. -/
theorem help_quiet (x : Dev) (far : ∀ p ∈ x.chip.regs, p.1 / 2 ^ 48 ≠ 14) : ∀ cb, x.chip.rb (R.comb_CAP_TRG_CFG cb) 0 = false := by
  intro cb
  have row : (R.comb_CAP_TRG_CFG cb).row = (R.comb_CAP_TRG_CFG 0).row := rfl
  have at0 : (R.comb_CAP_TRG_CFG 0).row = some ⟨0x0F0, 0xFFFFFFF, 0xFFFFFFE, 0x0, 0x0, 0x0, 0x0, 0x0, 0x1000⟩ := by decide +kernel
  unfold Chip.rb Chip.rd
  rw [get_unlisted]
  · unfold RegId.resetWord
    rw [row, at0]
    dsimp only
    rw [if_neg (fun h => by cases h.1)]
    rfl
  · intro p hp h
    refine far p hp ?_
    rw [h]
    simp only [R.comb_CAP_TRG_CFG, RegId.key, Blk.code]
    omega

/-- The states of the line clause and of the bale writes enable no combiner. -/
theorem wit_TriggerCombiners_lines : (∀ cb, (rgn { Rgn.init with st := .armed } [(R.rgn_CAP_RGN_CFG 4095, 1 + 2 * 2 ^ 3 + 7 * 2 ^ 9 + 2 ^ 12)]
      (fun d => { d with lines := [⟨7, 0, false, 100000000000⟩] })).chip.rb (R.comb_CAP_TRG_CFG cb) 0 = false)
    ∧ (∀ cb, (rgn { Rgn.init with st := .pre, next := 128, q := [bwr 127 true false false] }).chip.rb (R.comb_CAP_TRG_CFG cb) 0 = false)
    ∧ ∀ cb, (rgn { Rgn.init with st := .pre, next := 1, q := [bwr 0 false true false] }).chip.rb (R.comb_CAP_TRG_CFG cb) 0 = false :=
  ⟨help_quiet _ (by decide +kernel), help_quiet _ (by decide +kernel), help_quiet _ (by decide +kernel)⟩

theorem wit_TimeCompares :
    (∀ k < 4, let x := st [(R.CAP_TRG_IDX 135, k * 16), (R.tcmp_CAP_TRG_TIME_LO (64 + k), 400000000000 % 2 ^ 32)];
      x.live ∧ 135 < 136 ∧ x.chip.subBusy 135 = false ∧ x.allows 1 (R.CAP_TRG_TIME_HI 135) (w32 (400000000000 / 2 ^ 32 + 2 ^ 31))
      ∧ x.chip.trgCmp 135 = 64 + k ∧ bit (w32 (400000000000 / 2 ^ 32 + 2 ^ 31)) 31 = true
      ∧ 0 ≤ shortDiff x.chip.dt (fld (w32 (400000000000 / 2 ^ 32 + 2 ^ 31)) 15 0 * 2 ^ 32 + (x.chip.rd (R.tcmp_CAP_TRG_TIME_LO (x.chip.trgCmp 135))).toNat))
    ∧ (let x := st [(R.tcmp_CAP_TRG_TIME_LO 64, 400000000000 % 2 ^ 32 - 1)];
      shortDiff x.chip.dt (fld (w32 (400000000000 / 2 ^ 32 + 2 ^ 31)) 15 0 * 2 ^ 32 + (x.chip.rd (R.tcmp_CAP_TRG_TIME_LO (x.chip.trgCmp 135))).toNat) < 0)
    ∧ ((st []).allows 1 (R.CAP_TRG_TIME_HI 135) (w32 (400000000000 / 2 ^ 32 + 2 ^ 31)) ∧ (st []).allows 1 (R.CAP_TRG_TIME_HI 135) 0 ∧ bit 0 31 = false)
    ∧ (let x := st [(R.tcmp_CAP_TRG_TIME_LO 67, 400000000000 % 2 ^ 32), (R.tcmp_CAP_TRG_TIME_HI 67, 400000000000 / 2 ^ 32)] (fun d => { d with cmps := [(67, true)] });
      67 < 68 ∧ x.live ∧ SMap.get false x.chip.cmps 67 = true ∧ shortDiff x.chip.dt (x.chip.cmpTime 67) ≤ 0)
    ∧ SMap.get false (st []).chip.cmps 67 = false
    ∧ (let x := st [(R.tcmp_CAP_TRG_TIME_LO 67, 400000000000 % 2 ^ 32 + 1), (R.tcmp_CAP_TRG_TIME_HI 67, 400000000000 / 2 ^ 32)];
      0 < shortDiff x.chip.dt (x.chip.cmpTime 67)) := by
  simp only [Dev.live, Dev.allows, ok_iff]; decide +kernel

/-- Region 4095 as the region of engine 127's window. -/
def win (l : List (RegId × Nat)) (f : Chip → Chip := id) : Dev :=
  (eng127 (hunt .inFrame)).on (fun d => f (([(R.CAP_RGN_IDX 127, 4095), (R.rgn_CAP_RGN_SRC 4095, 127), (R.rgn_CAP_RGN_BASE 4095, 1474559),
    (R.rgn_CAP_RGN_SIZE 4095, 1)] ++ l).foldl (fun (c : Chip) (p : RegId × Nat) => c.wr p.1 (w32 p.2)) d))

theorem wit_CaptureRegions :
    (let x := win [];
      let w := w32 (2 * 2 ^ 3);
      let d := x.chip.store (R.rgn_CAP_RGN_CFG 4095) (setFld w 0 0 1) 1;
      127 < 136 ∧ x.live ∧ x.chip.subBusy 127 = false ∧ x.chip.rf (R.CAP_RGN_IDX 127) 11 0 = 4095
      ∧ x.allows 1 (R.CAP_RGN_CFG 127) (setFld w 0 0 1) ∧ x.chip.rb (R.rgn_CAP_RGN_CFG 4095) 0 = false ∧ fld w 2 1 = 0
      ∧ d.stacksReady (d.rcfg 4095).base ((d.rcfg 4095).slots / 128) = true ∧ d.rgnCheck 4095 = none)
    ∧ (let x := win [];
      let w := w32 0;
      let d := x.chip.store (R.rgn_CAP_RGN_CFG 4095) (setFld w 0 0 1) 1;
      x.allows 1 (R.CAP_RGN_CFG 127) (setFld w 0 0 1) ∧ fld w 2 1 = 0 ∧ d.stacksReady (d.rcfg 4095).base ((d.rcfg 4095).slots / 128) = true
      ∧ d.rgnCheck 4095 = some .badParam)
    ∧ (let x := win [(R.rgn_CAP_RGN_BASE 4095, 368640)];
      let w := w32 (2 * 2 ^ 3);
      let d := x.chip.store (R.rgn_CAP_RGN_CFG 4095) (setFld w 0 0 1) 1;
      x.allows 1 (R.CAP_RGN_CFG 127) (setFld w 0 0 1) ∧ d.stacksReady (d.rcfg 4095).base ((d.rcfg 4095).slots / 128) = false)
    ∧ (let x := win [(R.rgn_CAP_RGN_CFG 4095, 17)];
      x.live ∧ x.allows 1 (R.CAP_RGN_CFG 127) (setFld 17 1 1 1) ∧ x.chip.rb (R.rgn_CAP_RGN_CFG 4095) 0 = true ∧ bit 17 0 = true ∧ bit 17 2 = false
      ∧ (x.chip.rgn 4095).live = false ∧ x.allows 1 (R.CAP_RGN_CFG 127) (setFld 17 0 0 0))
    ∧ (let x := win [(R.rgn_CAP_RGN_CFG 4095, 17)] (fun d => d.setRgn 4095 { Rgn.init with st := .pre });
      x.live ∧ x.allows 1 (R.CAP_RGN_CFG 127) (setFld 17 1 1 1) ∧ x.chip.rb (R.rgn_CAP_RGN_CFG 4095) 0 = true ∧ (x.chip.rgn 4095).live = true
      ∧ x.allows 1 (R.CAP_RGN_CFG 127) (setFld 17 2 2 1) ∧ bit 17 0 = true ∧ bit 17 1 = false
      ∧ x.allows 1 (R.CAP_RGN_CFG 127) (setFld 17 0 0 0))
    ∧ ((win []).allows 1 (R.CAP_RGN_CFG 127) (setFld 16 1 1 1) ∧ bit 16 0 = false ∧ (win []).allows 1 (R.CAP_RGN_CFG 127) (setFld 16 0 0 0)
      ∧ bit 16 1 = false ∧ (win []).allows 1 (R.CAP_RGN_CFG 127) (setFld 17 1 1 1))
    ∧ (let x := win [(R.rgn_CAP_RGN_CFG 4095, 17)];
      x.allows 1 (R.CAP_RGN_CFG 127) (setFld 17 0 0 1) ∧ fld 17 2 1 = 0 ∧ x.allows 1 (R.CAP_RGN_CFG 127) (setFld 17 2 2 1)) := by
  simp only [Dev.live, Dev.allows, ok_iff]; (repeat' apply And.intro) <;> decide +kernel

/-- Pattern region 1023 at the top of the Hayloft, one 64 KiB unit, named by the window of engine 127, which is enabled. -/
def pat (cfg : Nat) (f : Chip → Chip := id) (m : List Host.Cell := []) : Dev :=
  ⟨f (([(R.PAT_RGN_IDX 127, 1023), (R.prgn_PAT_RGN_BASE 1023, 1474559), (R.prgn_PAT_RGN_SIZE 1023, 1), (R.prgn_PAT_RGN_CFG 1023, cfg)]).foldl
    (fun (c : Chip) (p : RegId × Nat) => c.wr p.1 (w32 p.2)) (eng127 (hunt .inFrame)).chip), ⟨m, [], []⟩⟩

/-- A queue entry of region 1023 for the line sub-channel. -/
def qent (time : Option Nat) (fstart ready : Bool) : QEntry := ⟨1023, 0, time, fstart, ready, false, false⟩

/-- A running script of region 1023. -/
def script : Run' := ⟨0, 1023, 0, 32, 0, 0, 0, false, false, 0⟩

/-- Pattern region 1023, not enabled, named by the window of engine 135, as a plain table of registers. -/
def patRgn : Dev := ⟨{ chip0 with regs := [((R.PAT_RGN_IDX 135).key, 1023), ((R.prgn_PAT_RGN_BASE 1023).key, 1474559),
  ((R.prgn_PAT_RGN_SIZE 1023).key, 1)] }, ⟨[], [], []⟩⟩

/-- It is the only pattern region that could be enabled, and its checks pass. -/
theorem patRgn_ok : patRgn.chip.prgnOk 1023 = true := by
  have far : ∀ p ∈ patRgn.chip.regs, p.1 % 2 ^ 12 ≠ 0x3CC := by decide +kernel
  have at0 : (R.prgn_PAT_RGN_CFG 0).row = some ⟨0x3CC, 0x1, 0x0, 0x0, 0x0, 0x0, 0x0, 0x6, 0x0⟩ := by decide +kernel
  have off : ∀ k, patRgn.chip.prgnEn k = false := by
    intro k
    have row : (R.prgn_PAT_RGN_CFG k).row = (R.prgn_PAT_RGN_CFG 0).row := rfl
    unfold Chip.prgnEn Chip.rb Chip.rd
    rw [get_unlisted]
    · unfold RegId.resetWord
      rw [row, at0]
      dsimp only
      rw [if_neg (fun h => by cases h.1)]
      rfl
    · intro p hp h
      refine far p hp ?_
      rw [h]
      simp only [R.prgn_PAT_RGN_CFG, RegId.key, Blk.code]
      omega
  have units : patRgn.chip.prgnUnits 1023 = (1474559, 1) := by decide +kernel
  simp [Chip.prgnOk, units, off]

theorem wit_PatternRegions : patRgn.chip.prgnOk 1023 = true ∧
    (let x := patRgn;
      135 < 136 ∧ x.live ∧ x.chip.subBusy 135 = false ∧ x.chip.rf (R.PAT_RGN_IDX 135) 9 0 = 1023 ∧ x.allows 1 (R.PAT_RGN_CFG 135) (setFld 0 0 0 1)
      ∧ x.chip.prgnEn 1023 = false ∧ x.chip.stacksReady (x.chip.prgnUnits 1023).1 (x.chip.prgnUnits 1023).2 = true)
    ∧ (let x := pat 0 (fun d => d.wr (R.prgn_PAT_RGN_SIZE 1023) 2);
      x.live ∧ x.allows 1 (R.PAT_RGN_CFG 127) (setFld 0 0 0 1) ∧ x.chip.prgnEn 1023 = false
      ∧ x.chip.stacksReady (x.chip.prgnUnits 1023).1 (x.chip.prgnUnits 1023).2 = true ∧ x.chip.prgnOk 1023 = false)
    ∧ (let x := pat 0 (fun d => d.wr (R.prgn_PAT_RGN_BASE 1023) 368640);
      x.live ∧ x.allows 1 (R.PAT_RGN_CFG 127) (setFld 0 0 0 1) ∧ x.chip.prgnEn 1023 = false
      ∧ x.chip.stacksReady (x.chip.prgnUnits 1023).1 (x.chip.prgnUnits 1023).2 = false ∧ x.allows 1 (R.PAT_RGN_CFG 127) (setFld 0 0 0 0))
    ∧ (pat 1).allows 1 (R.PAT_RGN_CFG 127) (setFld 1 0 0 1)
    ∧ (let x := pat 1;
      x.live ∧ x.allows 1 (R.PAT_RGN_CFG 127) (setFld 1 0 0 0) ∧ x.chip.prgnEn 1023 = true ∧ x.chip.prgnUsed 1023 = false)
    ∧ (let x := pat 3 (fun d => d.setPat 127 { Pat.init with runs := [script] });
      x.live ∧ x.allows 1 (R.PAT_RGN_CFG 127) (setFld 1 0 0 0) ∧ x.chip.prgnEn 1023 = true ∧ x.chip.prgnUsed 1023 = true) := by
  refine ⟨patRgn_ok, ?_⟩
  simp only [Dev.live, Dev.allows, ok_iff]; decide +kernel

theorem wit_PatternQueues :
    (let x := pat 3 (fun d => (d.wr (R.PAT_Q_DESC 127) (w32 (1023 + 2 ^ 10))).wr (R.PAT_Q_TIME_LO 127) (w32 (400000000000 % 2 ^ 32))) [(1474559 * 65536 + 6, 1)];
      let w := w32 (400000000000 / 2 ^ 32);
      let s := x.on (fun d => d.store (R.PAT_Q_TIME_HI 127) (setFld w 31 31 1));
      x.live ∧ x.chip.subBusy 127 = false ∧ x.allows 1 (R.PAT_Q_TIME_HI 127) (setFld w 31 31 1) ∧ bit (x.chip.rd (R.PAT_Q_DESC 127)) 10 = true
      ∧ s.pushCheck 127 1023 0 (some (fld w 15 0 * 2 ^ 32 + (x.chip.rd (R.PAT_Q_TIME_LO 127)).toNat)) false = none)
    ∧ (let x := pat 3 (fun d => (d.wr (R.PAT_Q_DESC 127) (w32 (1023 + 2 ^ 10))).wr (R.PAT_Q_TIME_LO 127) (w32 (400000000000 % 2 ^ 32 - 1))) [(1474559 * 65536 + 6, 1)];
      let w := w32 (400000000000 / 2 ^ 32);
      let s := x.on (fun d => d.store (R.PAT_Q_TIME_HI 127) (setFld w 31 31 1));
      x.allows 1 (R.PAT_Q_TIME_HI 127) (setFld w 31 31 1)
      ∧ s.pushCheck 127 1023 0 (some (fld w 15 0 * 2 ^ 32 + (x.chip.rd (R.PAT_Q_TIME_LO 127)).toNat)) false = some (.tooLate, some 10))
    ∧ (let x := pat 3 (fun d => d.setPat 127 { Pat.init with runs := [{ script with sub := 65535 }] });
      x.live ∧ x.chip.subBusy 127 = false ∧ 65535 < 65536 ∧ x.allows 1 (R.PAT_CTRL 127) (w32 (65535 + 2 ^ 16))
      ∧ x.allows 1 (R.PAT_CTRL 127) (w32 (65535 + 2 ^ 17)) ∧ x.chip.runOf 127 65535 = some { script with sub := 65535 }) := by
  simp only [Dev.live, Dev.allows, ok_iff]; decide +kernel

/-- Region 1023 with a queue, octets of a frame still to be sent, and memory. -/
def patq (qs : List QEntry) (m : List Host.Cell) : Dev :=
  pat 3 (fun d => (d.setPat 127 { Pat.init with queue := qs }).setOhp 127 { Ohp.init with txNow := [1, 2] }) m

/-- A raw script of one segment of 64 octets at the start of region 1023. -/
def rawMem : List Host.Cell := [(1474559 * 65536 + 3, 1), (1474559 * 65536 + 5, 1), (1474559 * 65536 + 35, 64)]

theorem wit_PatternLaunches :
    (let x := patq [qent none false false] [];
      127 < 136 ∧ x.live ∧ (x.chip.pat 127).headOf 0 = some (qent none false false) ∧ (qent none false false).ready = false
      ∧ x.chip.engEn 127 = true ∧ x.chip.rb (R.PAT_CFG 127) 0 = false ∧ (x.chip.pat 127).due 0 0 = none ∧ x.chip.runOf 127 0 = none
      ∧ 0 ∉ (x.chip.pat 127).aborts)
    ∧ ((st []).chip.pat 135).headOf 65535 = none
    ∧ (let x := patq [qent none false true] [(1474559 * 65536 + 6, 1)];
      x.live ∧ x.chip.engEn 127 = true ∧ x.chip.rb (R.PAT_CFG 127) 0 = false ∧ (x.chip.pat 127).headOf 0 = some (qent none false true)
      ∧ (qent none false true).ready = true ∧ (qent none false true).time = none ∧ (x.chip.pat 127).due 0 0 = none ∧ x.chip.runOf 127 0 = none
      ∧ 0 ∉ (x.chip.pat 127).aborts ∧ x.chip.inProgress 127 0 ≤ 2 ∧ ¬ x.chip.inProgress 127 0 ≤ 1
      ∧ (x.mem.shdr (x.chip.prgnAt (qent none false true).rgn)).raw = false)
    ∧ (let x := patq [qent none false true] rawMem;
      ¬ x.chip.inProgress 127 0 ≤ 1 ∧ (x.mem.shdr (x.chip.prgnAt (qent none false true).rgn)).raw = true)
    ∧ (let x := patq [qent (some 400000000000) true true] [];
      x.live ∧ (x.chip.pat 127).headOf 0 = some (qent (some 400000000000) true true) ∧ (qent (some 400000000000) true true).time = some 400000000000
      ∧ 0 ≤ shortDiff 400000000000 400000000000 ∧ (qent (some 400000000000) true true).fstart = true ∧ (qent (some 400000000000) true true).ready = true
      ∧ x.chip.inProgress 127 0 ≤ 2 ∧ ¬ x.chip.inProgress 127 0 ≤ 1 ∧ 0 ∉ (x.chip.pat 127).aborts
      ∧ x.chip.launchSlack 127 0 true < shortDiff 400000000000 400010000000)
    ∧ (∀ r ∈ [true, false], let x := (patq [qent (some 400000000000) false r] []).on (fun d => d.setRun 127 0 (some script));
      x.live ∧ x.chip.engEn 127 = true ∧ x.chip.rb (R.PAT_CFG 127) 0 = false ∧ (x.chip.pat 127).headOf 0 = some (qent (some 400000000000) false r)
      ∧ (qent (some 400000000000) false r).fstart = false ∧ (qent (some 400000000000) false r).ready = r ∧ ¬ x.chip.inProgress 127 0 ≤ 1
      ∧ (x.chip.runOf 127 0).isSome = true ∧ 0 ∉ (x.chip.pat 127).aborts)
    ∧ ((st []).chip.engEn 135 = false ∧ (st [(R.PAT_CFG 135, 1)]).chip.rb (R.PAT_CFG 135) 0 = true)
    ∧ (let x := eng127 (hunt .inFrame);
      x.live ∧ x.chip.engEn 127 = true ∧ 0x8000 ≠ 0 ∧ ¬ x.chip.inProgress 127 0x8000 ≤ 1 ∧ 0x8000 ∉ (x.chip.pat 127).aborts
      ∧ (x.chip.pat 127).headOf 0 = none ∧ x.chip.runOf 127 0 = none ∧ 0 ∉ (x.chip.pat 127).aborts)
    ∧ (let x := (patq [] [(1474559 * 65536 + 5, 1), (1474559 * 65536 + 43, 1)]).on (fun d => d.setRun 127 0 (some { script with wait := true }));
      x.live ∧ x.chip.engEn 127 = true ∧ x.chip.rb (R.PAT_CFG 127) 0 = false ∧ ¬ x.chip.inProgress 127 0 ≤ 1 ∧ 0 ∉ (x.chip.pat 127).aborts
      ∧ (x.chip.pat 127).due 0 400000000000 = none ∧ x.chip.runOf 127 0 = some { script with wait := true }
      ∧ (x.runSeg { script with wait := true }).fstart = false ∧ 0 ≤ shortDiff (x.runSeg { script with wait := true }).launch 0) := by
  simp only [Dev.live]; (repeat' apply And.intro) <;> decide +kernel

/-- Reads of a running and of a queued script, of a header and of body octets. -/
theorem wit_PatternLaunches_reads :
    (let x := pat 3 (fun d => d.setPat 127 { Pat.init with runs := [script] }) rawMem;
      x.live ∧ x.chip.runOf 127 0 = some script ∧ x.chip.prgnAt script.rgn ≤ 1474559 * 65536 + 65535
      ∧ 1474559 * 65536 + 65535 < x.chip.prgnAt script.rgn + x.chip.prgnSpan script.rgn
      ∧ (∀ b ∈ blocksOf 31 2, b ∉ x.mem.ce ∧ b ∉ x.mem.ue ∧ b ∉ ([] : List Nat))
      ∧ 1474559 * 2048 + 1 ∈ blocksOf (1474559 * 65536) 64
      ∧ (∀ g ∈ x.mem.segList (x.mem.shdr (x.chip.prgnAt script.rgn)) (x.mem.shdr (x.chip.prgnAt script.rgn)).segs 0 (x.chip.prgnAt script.rgn + 32),
          ¬ g.2.isBody ((1474559 * 2048 + 1) * 32) = true)
      ∧ 1474559 * 2048 + 3 ∈ blocksOf (1474559 * 65536 + 64) 64
      ∧ (∃ g ∈ x.mem.segList (x.mem.shdr (x.chip.prgnAt script.rgn)) (x.mem.shdr (x.chip.prgnAt script.rgn)).segs 0 (x.chip.prgnAt script.rgn + 32),
          g.2.isBody ((1474559 * 2048 + 3) * 32) = true))
    ∧ (let x := patq [qent none false false] rawMem;
      x.live ∧ x.chip.runOf 127 0 = none ∧ x.chip.entryAt 127 0 (1474559 * 65536) = some (qent none false false)
      ∧ x.chip.entryAt 127 0 (1474559 * 65536 + 65535) = some (qent none false false)) := by
  simp only [Dev.live]; decide +kernel

theorem wit_Injection :
    (let x := pat 3 (fun d => d.setPat 127 { Pat.init with inj := some ⟨3, 0, 0, 0, 1, 1, none, false, 0, 0, false⟩ });
      127 < 136 ∧ x.live ∧ x.chip.subBusy 127 = false ∧ x.allows 1 (R.PAT_INJ_CFG 127) (setFld 3 6 6 1) ∧ (x.chip.pat 127).inj ≠ none
      ∧ x.allows 1 (R.PAT_CTRL 127) (w32 (2 ^ 18)) ∧ (x.chip.pat 127).inj = some ⟨3, 0, 0, 0, 1, 1, none, false, 0, 0, false⟩)
    ∧ (let x := pat 3;
      x.live ∧ x.allows 1 (R.PAT_INJ_CFG 127) (setFld 0x23 6 6 1) ∧ (x.chip.pat 127).inj = none ∧ bit 0x23 5 = true ∧ bit 3 5 = false
      ∧ shortDiff x.chip.dt (x.chip.rf (R.PAT_Q_TIME_HI 127) 15 0 * 2 ^ 32 + (x.chip.rd (R.PAT_Q_TIME_LO 127)).toNat) < 0)
    ∧ (let x := pat 3;
      x.allows 1 (R.PAT_INJ_CFG 127) (setFld 0 6 6 1) ∧ bit 0 5 = false
      ∧ (x.on (fun d => d.store (R.PAT_INJ_CFG 127) (setFld 0 6 6 1))).injTargetOk 127 (fld 0 2 0) 0 (x.chip.rd (R.PAT_INJ_TGT 127)).toNat = false)
    ∧ (let x := pat 3 (fun d => (((d.wr (R.PAT_INJ_TGT 127) 0x3FFF).wr (R.PAT_Q_TIME_HI 127) (w32 (400000000000 / 2 ^ 32))).wr
          (R.PAT_Q_TIME_LO 127) (w32 (400000000000 % 2 ^ 32))));
      x.allows 1 (R.PAT_INJ_CFG 127) (setFld 0x23 6 6 1) ∧ (x.chip.pat 127).inj = none
      ∧ 0 ≤ shortDiff x.chip.dt (x.chip.rf (R.PAT_Q_TIME_HI 127) 15 0 * 2 ^ 32 + (x.chip.rd (R.PAT_Q_TIME_LO 127)).toNat)
      ∧ (x.on (fun d => d.store (R.PAT_INJ_CFG 127) (setFld 0x23 6 6 1))).injTargetOk 127 (fld 0x23 2 0) 0 (x.chip.rd (R.PAT_INJ_TGT 127)).toNat = true)
    ∧ ((st []).allows 1 (R.PAT_CTRL 135) (w32 (2 ^ 18)) ∧ ((st []).chip.pat 135).inj = none) := by
  simp only [Dev.live, Dev.allows, ok_iff]; decide +kernel

/-- A device with these transactions. -/
def yd (l : List Txn) (f : Yard → Yard := id) (m : Mem := ⟨[], [], []⟩) : Dev :=
  ⟨{ (st []).chip with yard := f { Yard.init with txns := l } }, m⟩

/-- A transaction of master 23 with tag 255. -/
def txn (kind : TKind) (addr len target : Nat) (grant : Option Nat) : Txn :=
  ⟨23, 255, kind, .gen, addr, len, List.replicate len 7, target, 0, grant, none⟩

theorem wit_YardTransfers :
    (let x := yd [];
      23 < 24 ∧ 255 < 256 ∧ x.live ∧ x.chip.tagFree 23 255 = true
      ∧ sizeOk (x.chip.xferTarget 0x167FFFFFE0) true 0x167FFFFFE0 32 = true ∧ x.chip.refuses 23 (x.chip.xferTarget 0x167FFFFFE0) = false
      ∧ sizeOk (x.chip.xferTarget 0x167FFFFFE0) false 0x167FFFFFE0 6 = true
      ∧ sizeOk (x.chip.xferTarget 0x167FFFFFE0) false 0x167FFFFFE0 36 = false ∧ x.chip.oldest 23 (x.chip.xferTarget 0x167FFFFFE0) = none)
    ∧ (let t := txn .read 0x167FFFFFE0 4 31 none; let x := yd [t];
      x.live ∧ x.chip.tagFree 23 254 = true ∧ sizeOk (x.chip.xferTarget 0x167FFFFFE0) false 0x167FFFFFE0 36 = false
      ∧ x.chip.oldest 23 (x.chip.xferTarget 0x167FFFFFE0) = some t ∧ t.done = none ∧ x.chip.tagFree 23 255 = false)
    ∧ (let x := yd [] (fun y => { y with fences := [(34, some ⟨0, none⟩)] });
      x.live ∧ x.chip.tagFree 23 255 = true ∧ sizeOk (x.chip.xferTarget 0x4000000000) false 0x4000000000 256 = true
      ∧ x.chip.refuses 23 (x.chip.xferTarget 0x4000000000) = true)
    ∧ (39 < 40 ∧ (yd []).chip.chooseGrant 39 = none ∧ (yd []).chip.chooseGrant 0x3F = none)
    ∧ (∀ k ∈ [TKind.read, .lockRead], (yd [txn k 0x167FFFFFC0 4 31 none]).chip.chooseGrant 31 = some (txn k 0x167FFFFFC0 4 31 none))
    ∧ (let t := txn .read 0x3000000000 4 0x3F none; (yd [t]).chip.chooseGrant 0x3F = some t ∧ (yd [t]).chip.oldest 23 0x3F = some t)
    ∧ (let t := txn .write 0x167FFFFFE0 32 31 (some 0);
      let x := yd [t];
      x.live ∧ x.chip.txn 23 255 = some t ∧ t.grant ≠ none ∧ t.done = none ∧ x.chip.oldest 23 t.target = some t ∧ t.target ≤ 31 ∧ t.kind = .write
      ∧ x.chip.mayWrite 23 t.addr = true)
    ∧ (let t := txn .read 0x167FFFFFFC 4 31 (some 0);
      let x := yd [t];
      x.chip.txn 23 255 = some t ∧ t.grant ≠ none ∧ t.done = none ∧ x.chip.oldest 23 t.target = some t ∧ t.target ≤ 31 ∧ t.kind = .read
      ∧ (∀ b ∈ blocksOf t.addr t.len, b ∉ x.mem.ue ∧ b ∉ ([] : List Nat)) ∧ 0x167FFFFFE0 / 32 ∈ blocksOf t.addr t.len ∧ t.grant ≠ none)
    ∧ (let t := txn .read 0x4200000008 4 32 (some 0);
      let x := yd [t];
      x.chip.txn 23 255 = some t ∧ t.grant ≠ none ∧ t.done = none ∧ x.chip.oldest 23 t.target = some t ∧ t.target = 32 ∧ t.kind = .read
      ∧ (({ x.chip with out := [] } : Chip).regRead 0 (t.addr - 0x4200000000)).1.1 = .ok)
    ∧ (let z := { txn .read 0x167FFFFF00 4 31 (some 0) with tag := 254 }; let t := txn .read 0x167FFFFFFC 4 31 (some 0); let x := yd [z, t];
      x.live ∧ x.chip.txn 23 255 = some t ∧ t.grant ≠ none ∧ t.done = none ∧ x.chip.oldest 23 t.target = some z ∧ z.tag ≠ 255 ∧ z.done = none
      ∧ t.kind = .read ∧ t.target ≤ 31)
    ∧ (yd []).chip.txn 23 255 = none := by
  simp only [Dev.live]; (repeat' apply And.intro) <;> decide +kernel

/-- Master 23 holds a lock on target 31, since this core cycle. -/
def locked (since : Nat) : Dev := yd [] (fun y => { y with locks := [(31, some ⟨23, 0x167FFFFFFC, 4, since⟩)] })

theorem wit_YardLocks :
    (let x := yd [];
      23 < 24 ∧ 255 < 256 ∧ x.live ∧ x.chip.tagFree 23 255 = true
      ∧ (lockSizeOk 0x4000000040 64 && sizeOk (x.chip.xferTarget 0x4000000040) false 0x4000000040 64) = true
      ∧ x.chip.refuses 23 (x.chip.xferTarget 0x4000000040) = false ∧ x.chip.xferTarget 0x4000000040 = 34 ∧ x.chip.xferTarget 0 ≤ 31
      ∧ (lockSizeOk 0x4000000044 64 && sizeOk (x.chip.xferTarget 0x4000000044) false 0x4000000044 64) = false
      ∧ x.chip.oldest 23 (x.chip.xferTarget 0x4000000044) = none
      ∧ (lockSizeOk 0x4100000000 4 && sizeOk (x.chip.xferTarget 0x4100000000) false 0x4100000000 4) = true
      ∧ x.chip.refuses 23 (x.chip.xferTarget 0x4100000000) = false ∧ x.chip.xferTarget 0x4100000000 = 33
      ∧ x.chip.oldest 23 (x.chip.xferTarget 0x4100000000) = none)
    ∧ (let x := yd [] (fun y => { y with fences := [(34, some ⟨0, none⟩)] });
      x.live ∧ x.chip.tagFree 23 255 = true ∧ x.chip.refuses 23 (x.chip.xferTarget 0x4000000040) = true)
    ∧ (yd [txn .read 0 4 0 none]).chip.tagFree 23 255 = false
    ∧ ((locked 0).live ∧ (locked 0).chip.tagFree 23 255 = true ∧ (locked 0).chip.oldest 23 ((locked 0).chip.xferTarget (0x167FFFFFFC % 2 ^ 40)) = none
      ∧ (locked 0).chip.unlockJudge 23 0x167FFFFFFC [1, 2, 3, 4].length = none ∧ (locked 0).chip.xferTarget (0x167FFFFFFC % 2 ^ 40) ≤ 31
      ∧ (locked 0).chip.mayWrite 23 (0x167FFFFFFC % 2 ^ 40) = true ∧ (locked 0).chip.lockedBy 23 = some 31)
    ∧ (locked 0).chip.unlockJudge 23 0x167FFFFFF8 4 = some .lockTimeout
    ∧ (31 < 40 ∧ (locked (100000000000 - 4096)).chip.lockOf 31 = some ⟨23, 0x167FFFFFFC, 4, 100000000000 - 4096⟩
      ∧ 100000000000 - 4096 + 4096 ≤ (locked (100000000000 - 4096)).chip.core)
    ∧ ((locked (100000000000 - 4095)).chip.lockOf 31 = some ⟨23, 0x167FFFFFFC, 4, 100000000000 - 4095⟩
      ∧ (locked (100000000000 - 4095)).chip.core < 100000000000 - 4095 + 4096)
    ∧ (locked 0).chip.lockOf 30 = none := by
  simp only [Dev.live]; (repeat' apply And.intro) <;> decide +kernel

theorem wit_YardTimeoutsAndFences :
    (let t := { txn .read 0 4 0 (some (100000000000 - 255 * 1024)) with master := 16 };
      let x := (yd [t]).on (fun d => d.wr R.YRD_CFG 255);
      16 < 24 ∧ 255 < 256 ∧ x.live ∧ x.chip.txn 16 255 = some t ∧ x.chip.overdue t = true ∧ 16 ≠ pavPort x.chip.pav.active
      ∧ 16 ≠ pavPort (1 - x.chip.pav.active))
    ∧ (let t := { txn .read 0 4 0 (some (100000000000 - 255 * 1024 + 1)) with master := 16 };
      let x := (yd [t]).on (fun d => d.wr R.YRD_CFG 255);
      x.chip.txn 16 255 = some t ∧ x.chip.overdue t = false)
    ∧ (yd []).chip.txn 16 255 = none
    ∧ (let x := yd [txn .read 0 4 31 (some 0)] (fun y => { y with fences := [(31, some ⟨99999990000, none⟩)] });
      x.live ∧ SMap.get none x.chip.yard.fences 31 = some ⟨99999990000, none⟩ ∧ (⟨99999990000, none⟩ : Fence).reset = none
      ∧ 99999990000 + 10000 ≤ x.chip.core ∧ (txn .read 0 4 31 (some 0)).grant ≠ none)
    ∧ (let x := yd [] (fun y => { y with fences := [(31, some ⟨99999990001, none⟩)] });
      SMap.get none x.chip.yard.fences 31 = some ⟨99999990001, none⟩ ∧ x.chip.core < 99999990001 + 10000)
    ∧ (let x := yd [] (fun y => { y with fences := [(31, some ⟨0, some 99998000000⟩)] });
      31 < 40 ∧ x.live ∧ SMap.get none x.chip.yard.fences 31 = some ⟨0, some 99998000000⟩ ∧ 99998000000 + 2000000 ≤ x.chip.core)
    ∧ (let x := yd [] (fun y => { y with fences := [(31, some ⟨0, some 99998000001⟩)] });
      SMap.get none x.chip.yard.fences 31 = some ⟨0, some 99998000001⟩ ∧ x.chip.core < 99998000001 + 2000000)
    ∧ (let x := yd [] (fun y => { y with fences := [(64, some ⟨0, some 100000000000⟩)] });
      x.live ∧ SMap.get none x.chip.yard.fences 64 = some ⟨0, some 100000000000⟩ ∧ 64 - 64 ∉ x.chip.pwr.off)
    ∧ (let x := (yd [] (fun y => { y with fences := [(64, some ⟨0, some 0⟩)] })).on (fun d => { d with pwr := { d.pwr with off := [0] } });
      x.live ∧ SMap.get none x.chip.yard.fences 64 = some ⟨0, some 0⟩ ∧ 64 - 64 ∈ x.chip.pwr.off)
    ∧ SMap.get none (yd []).chip.yard.fences 31 = none := by
  simp only [Dev.live]; decide +kernel

/-- Stack 3 with a migration at this granule. -/
def mig (pos : Nat) : Dev := st [] (fun d => d.setStack 3 { Stack.init with ready := true, mig := some ⟨29, 29, 31, pos, true, 0⟩ })

theorem wit_ScrubAndMigration :
    (∀ l, ((st []).chip.stack 3).map.findIdx? (· = 31) = some l →
      lpcAddr 3 l (0 * 32) / 32 ∉ (st []).mem.ce ∧ lpcAddr 3 l (0 * 32) / 32 ∉ (st []).mem.ue)
    ∧ 3 < 4 ∧ (st []).live ∧ 31 < 32 ∧ ((st []).chip.rd ⟨.pc, pcIdx 3 31, 0x120⟩).toNat + 1 < (st []).chip.rf R.HAY_CFG 15 0
    ∧ ((st []).chip.stack 3).aborted = []
    ∧ ((mig 1572863).live ∧ ((mig 1572863).chip.stack 3).mig = some ⟨29, 29, 31, 1572863, true, 0⟩ ∧ 1572863 < pcGranules)
    ∧ ((mig 1572864).live ∧ ((mig 1572864).chip.stack 3).mig = some ⟨29, 29, 31, 1572864, true, 0⟩ ∧ pcGranules ≤ 1572864
      ∧ ((mig 1572864).chip.stack 3).waiting = [] ∧ (mig 1572864).chip.pcFenced 3 29 = false ∧ (mig 1572864).chip.pcFenced 3 31 = false)
    ∧ (let x := (mig 1572864).on (fun d => { d with yard := { d.yard with fences := [(31, some ⟨0, none⟩)] } });
      x.live ∧ (x.chip.stack 3).mig = some ⟨29, 29, 31, 1572864, true, 0⟩ ∧ x.chip.pcFenced 3 29 = true)
    ∧ ((st []).chip.stack 3).mig = none := by
  refine ⟨fun l _ => ⟨List.not_mem_nil, List.not_mem_nil⟩, ?_⟩
  simp only [Dev.live]; decide +kernel

/-- The step registers hold this step. -/
def stepped (a : Int) (f : Tim → Tim := id) : Dev :=
  st [(R.TIM_STEP_LO, unsgn 64 a % 2 ^ 32), (R.TIM_STEP_HI, unsgn 64 a / 2 ^ 32)] (fun d => d.setTim (f d.tim))

theorem wit_DeviceTimeSteps :
    (∀ a ∈ [(0 : Int), 1, 2 ^ 47 - 1, -1, -4000000000, 2 ^ 47, -4000000001],
      (stepped a).live ∧ (stepped a).chip.tim.ready = true ∧ (stepped a).allows 1 R.TIM_CTRL 1 ∧ (stepped a).chip.tim.back = none
      ∧ sgn 64 ((stepped a).chip.pair R.TIM_STEP_LO R.TIM_STEP_HI) = a)
    ∧ (let x := stepped 1 (fun t => { t with back := some ⟨2, 0, -1⟩ });
      x.live ∧ x.chip.tim.ready = true ∧ x.allows 1 R.TIM_CTRL 1 ∧ x.allows 1 R.TIM_CTRL 2 ∧ x.chip.tim.back ≠ none)
    ∧ ((st []).allows 1 R.TIM_CTRL 2 ∧ (st []).chip.tim.back = none ∧ (st []).chip.tim.stepPend = false)
    ∧ (let x := st [(R.TIM_OFFSET_LO, 1), (R.TIM_OFFSET_HI, 0xFFFF8000)] (fun d => d.setTim { d.tim with stepPend := true });
      x.live ∧ x.chip.tim.ready = true ∧ x.allows 1 R.TIM_CTRL 2 ∧ x.chip.tim.back = none ∧ x.chip.tim.stepPend = true ∧ x.chip.timOffset < 0
      ∧ -(2 ^ 47) < x.chip.timOffset)
    ∧ (let x := st [] (fun d => d.setTim { d.tim with setDone := true });
      x.live ∧ x.chip.tim.ready = true ∧ x.allows 1 R.TIM_CTRL 4 ∧ x.chip.tim.setDone = true)
    ∧ (let x := st [(R.TIM_SET_LO, 400000000001 % 2 ^ 32), (R.TIM_SET_HI, 400000000001 / 2 ^ 32)];
      x.live ∧ x.chip.tim.ready = true ∧ x.allows 1 R.TIM_CTRL 4 ∧ x.chip.tim.setDone = false ∧ x.chip.timSource ≠ 2
      ∧ x.chip.dt < x.chip.pair R.TIM_SET_LO R.TIM_SET_HI)
    ∧ (let x := st [(R.TIM_SET_LO, 400000000000 % 2 ^ 32), (R.TIM_SET_HI, 400000000000 / 2 ^ 32), (R.TIM_CFG, 4)];
      x.live ∧ x.allows 1 R.TIM_CTRL 4 ∧ x.chip.tim.setDone = false ∧ x.chip.timSource = 2 ∧ x.chip.tim.st = .freerun
      ∧ x.chip.pair R.TIM_SET_LO R.TIM_SET_HI ≤ x.chip.dt)
    ∧ (∀ k ∈ [1999999999, 2000000000],
      let x := st [(R.TIM_SET_LO, (400000000000 + k) % 2 ^ 32), (R.TIM_SET_HI, (400000000000 + k) / 2 ^ 32), (R.TIM_CFG, 4)]
          (fun d => d.setTim { d.tim with st := .tracking });
      x.live ∧ x.chip.tim.ready = true ∧ x.allows 1 R.TIM_CTRL 4 ∧ x.chip.tim.setDone = false ∧ x.chip.timSource = 2 ∧ x.chip.tim.st ≠ .freerun
      ∧ (2 * ((x.chip.pair R.TIM_SET_LO R.TIM_SET_HI : Int) - x.chip.dt) + 4000000000) / 8000000000 = if k = 2000000000 then 1 else 0)
    ∧ (let x := st [] (fun d => d.setTim { d.tim with ready := false });
      x.live ∧ x.chip.tim.ready = false ∧ x.allows 1 R.TIM_CTRL 1 ∧ x.allows 1 R.TIM_CTRL 2 ∧ x.allows 1 R.TIM_CTRL 4)
    ∧ (let x := stepped 1 (fun t => { t with st := .holdover, causes := [1] });
      x.live ∧ x.chip.tim.st = .holdover ∧ x.chip.tim.causes = [1])
    ∧ (stepped 0 (fun t => { t with back := some ⟨0, 0, -1⟩ })).chip.tim.back = some ⟨0, 0, -1⟩
    ∧ (stepped 0 (fun t => { t with back := some ⟨1, 0, -1⟩ })).chip.tim.back = some ⟨1, 0, -1⟩ := by
  simp only [Dev.live, Dev.allows, ok_iff]; (repeat' apply And.intro) <;> decide +kernel

/-- The time unit in this state with these holdover causes. -/
def servo (s : TSt) (causes : List Nat) (l : List (RegId × Nat) := []) : Dev := st l (fun d => d.setTim { d.tim with st := s, causes := causes })

theorem wit_ServoHoldAndEnable :
    (∀ s ∈ [TSt.tracking, .holdover, .freerun, .master], (servo s []).live ∧ (servo s []).allows 1 R.TIM_CTRL 8 ∧ (servo s []).chip.tim.st = s)
    ∧ ((servo .holdover [5]).live ∧ (servo .holdover [5]).allows 1 R.TIM_CTRL 16 ∧ (servo .holdover [5]).chip.tim.st = .holdover
      ∧ (servo .holdover [5]).chip.tim.causes = [5])
    ∧ ((servo .holdover [5, 1]).allows 1 R.TIM_CTRL 16 ∧ 5 ∈ (servo .holdover [5, 1]).chip.tim.causes ∧ 1 ≠ 5
      ∧ 1 ∈ (servo .holdover [5, 1]).chip.tim.causes)
    ∧ ((servo .freerun []).allows 1 R.TIM_CTRL 16 ∧ 5 ∉ (servo .freerun []).chip.tim.causes)
    ∧ ((st []).live ∧ (st []).allows 1 R.TIM_CFG (setFld 0x8200 0 0 1) ∧ (st []).chip.timEn = false ∧ (st []).chip.tim.ready = true
      ∧ (((st []).chip.store R.TIM_CFG (setFld 0x8200 0 0 1)).unflag R.TIM_CFG 0).timCfgOk = true ∧ fld 0x8200 9 8 = 2)
    ∧ ((st []).allows 1 R.TIM_CFG (setFld 0x8300 0 0 1)
      ∧ (((st []).chip.store R.TIM_CFG (setFld 0x8300 0 0 1)).unflag R.TIM_CFG 0).timCfgOk = false)
    ∧ (let x := servo .tracking [] [(R.TIM_CFG, 0x8001)];
      x.live ∧ x.allows 1 R.TIM_CFG (setFld 0x8001 0 0 0) ∧ x.chip.timEn = true ∧ x.chip.tim.st = .tracking)
    ∧ ((servo .freerun [] [(R.TIM_CFG, 0x8001)]).chip.tim.st = .freerun ∧ (servo .freerun [] [(R.TIM_CFG, 0x8001)]).allows 1 R.TIM_CFG (setFld 0x8001 0 0 1))
    ∧ ((servo .holdover [4]).allows 1 R.TIM_CFG (setFld 0x8000 0 0 1) ∧ fld 0x8000 9 8 ≠ 2 ∧ (servo .holdover [4]).chip.tim.causes = [4]
      ∧ (servo .holdover [4]).chip.timEn = false
      ∧ (((servo .holdover [4]).chip.store R.TIM_CFG (setFld 0x8000 0 0 1)).unflag R.TIM_CFG 0).timCfgOk = true)
    ∧ (let x := st [] (fun d => d.setTim { d.tim with ready := false });
      x.live ∧ x.allows 1 R.TIM_CFG (setFld 0x8000 0 0 1) ∧ x.chip.timEn = false ∧ x.chip.tim.ready = false
      ∧ x.allows 1 R.TIM_CFG (setFld 0x8000 0 0 0)) := by
  simp only [Dev.live, Dev.allows, ok_iff]; (repeat' apply And.intro) <;> decide +kernel

/-- A PTP message of domain 0 over Ethernet from clock 7. -/
def ptp (k : PtpKind) (two : Bool) : PtpMsg := ⟨k, 0, 0, 7, 1, two, 0, 0, 0, 7, [128, 6, 0x21, 0, 128, 7, 254]⟩

/-- The time unit enabled on PTP, with this selected master, in this state. -/
def ptpUp (s : TSt) (sel : Option Nat) (cfg : Nat := 0x8003) (f : Tim → Tim := id) : Dev :=
  st [(R.TIM_CFG, cfg)] (fun d => d.setTim (f { d.tim with st := s, sel := sel }))

/-- The message is for this device: PTP runs, in the message's domain and over its transport. -/
def hears (x : Dev) (m : PtpMsg) : Bool :=
  !x.chip.inReset && x.chip.timEn && x.chip.tim.ready && decide (m.domain = x.chip.rf R.TIM_PTP_DS 7 0)
    && decide (m.transport = x.chip.rf R.TIM_CFG 14 13)

theorem wit_PtpMessages :
    ((st []).live ∧ (st []).chip.timEn = false ∧ (⟨.sync, 0, 127, 7, 1, true, 0, 0, 0, 7, []⟩ : PtpMsg).domain ≠ (ptpUp .tracking none).chip.rf R.TIM_PTP_DS 7 0
      ∧ (⟨.sync, 1, 0, 7, 1, true, 0, 0, 0, 7, []⟩ : PtpMsg).transport ≠ (ptpUp .tracking none).chip.rf R.TIM_CFG 14 13)
    ∧ (let x := ptpUp .tracking (some 7);
      hears x (ptp .announce false) = true ∧ (ptp .announce false).src ≠ x.chip.portId ∧ (ptp .announce false).rank.getD 6 0 < 255
      ∧ (∀ g ∈ x.chip.tim.masters, g.src ≠ (ptp .announce false).src)
      ∧ 255 ≤ ({ ptp .announce false with rank := [0, 0, 0, 0, 0, 0, 255] } : PtpMsg).rank.getD 6 0
      ∧ hears x (ptp .sync true) = true ∧ x.chip.tim.sel = some (ptp .sync true).src ∧ (ptp .sync true).twoStep = true
      ∧ (ptp .sync false).twoStep = false ∧ hears x (ptp .other false) = true ∧ hears x (ptp .pdelayReq false) = true ∧ x.chip.rb R.TIM_CFG 12 = false
      ∧ hears x (ptp .delayReq false) = true ∧ x.chip.tim.st ≠ .master)
    ∧ ((ptpUp .tracking none).chip.tim.sel ≠ some (ptp .sync true).src ∧ hears (ptpUp .tracking none) (ptp .sync true) = true)
    ∧ (let x := ptpUp .tracking (some 7) 0x8003 (fun t => { t with sync := some (7, 1, 10, 0), dreq := some (1, 20), pair := some (5, 6) });
      hears x (ptp .followUp true) = true ∧ x.chip.tim.sel = some (ptp .followUp true).src ∧ x.chip.tim.sync = some (7, 1, 10, 0)
      ∧ hears x { ptp .delayResp false with req := x.chip.portId } = true ∧ x.chip.tim.dreq = some (1, 20) ∧ x.chip.tim.pair = some (5, 6)
      ∧ (ptp .delayResp false).req ≠ x.chip.portId)
    ∧ (ptpUp .tracking (some 7)).chip.tim.sync = none
    ∧ (hears (ptpUp .master none 0x8201) (ptp .delayReq false) = true ∧ (ptpUp .master none 0x8201).chip.tim.st = .master
      ∧ (ptpUp .master none 0x8201).chip.rb R.TIM_CFG 12 = false)
    ∧ (∀ two ∈ [true, false],
      let x := ptpUp .tracking (some 7) (if two then 0x9003 else 0x1003) (fun t => { t with dreq := some (1, 20), presp := some (1, 0, 1, 2) });
      hears x (ptp .pdelayReq false) = true ∧ x.chip.rb R.TIM_CFG 12 = true ∧ x.chip.rb R.TIM_CFG 15 = two ∧ x.chip.tim.dreq = some (1, 20)
      ∧ hears x { ptp .pdelayResp two with req := x.chip.portId } = true ∧ x.chip.tim.presp = some (1, 0, 1, 2))
    ∧ (ptpUp .tracking (some 7) 0x9003).chip.tim.dreq = none := by
  simp only [Dev.live]; (repeat' apply And.intro) <;> decide +kernel

/-- Messages that are due to be sent, and the end of the Announce wait in each role. -/
theorem wit_PtpMessages_timers :
    (∀ k ∈ [PtpTx.sync, .announce], ∀ c ∈ [0x8201, 0x0201],
      let x := ptpUp .master none c;
      x.live ∧ x.chip.timEn = true ∧ x.chip.tim.ready = true ∧ x.chip.tim.st = .master ∧ x.chip.tim.txT.getD (ptpSlot k) 0 + x.chip.ptpIvl k ≤ x.chip.core)
    ∧ (let x := ptpUp .tracking (some 7);
      x.chip.tim.sel ≠ none ∧ x.chip.tim.txT.getD (ptpSlot .delay) 0 + x.chip.ptpIvl .delay ≤ x.chip.core)
    ∧ (∀ k ∈ [PtpTx.sync, .announce],
      let x := ptpUp .master none 0x8201 (fun t => { t with txT := [100000000000, 100000000000, 0] });
      x.chip.core < x.chip.tim.txT.getD (ptpSlot k) 0 + x.chip.ptpIvl k)
    ∧ (let x := ptpUp .tracking (some 7);
      x.chip.rf R.TIM_CFG 9 8 ≠ 2 ∧ x.chip.tim.sel = some 7 ∧ x.chip.bestMaster = none ∧ x.chip.tim.annT + x.chip.annTimeout ≤ x.chip.core
      ∧ x.chip.tim.st = .tracking ∧ x.chip.timSource = 1)
    ∧ (let x := ptpUp .tracking (some 7) 0x8003 (fun t => { t with annT := 100000000000 });
      x.chip.bestMaster = none ∧ x.chip.core < x.chip.tim.annT + x.chip.annTimeout)
    ∧ (∀ p ∈ [0, 255],
      let f : Foreign := ⟨9, [p, 6, 0x21, 0, 128, 9, 0, 9], 9, 2, 100000000000⟩;
      let x := ptpUp .tracking (some 7) 0x8003 (fun t => { t with masters := [f] });
      x.chip.bestMaster = some f ∧ x.chip.rf R.TIM_CFG 9 8 = 0 ∧ rankLt x.chip.ownRank f.rank = decide (p = 255)
      ∧ (p = 0 → 128 ≤ x.chip.rf R.TIM_PTP_DS 31 24) ∧ x.chip.tim.annT + x.chip.annTimeout ≤ x.chip.core)
    ∧ ((ptpUp .tracking none).chip.bestMaster = none ∧ (ptpUp .tracking none).chip.rf R.TIM_CFG 9 8 = 0)
    ∧ ((ptpUp .tracking none 0x8103).chip.rf R.TIM_CFG 9 8 = 1 ∧ (ptpUp .tracking none 0x8103).chip.tim.sel = none) := by
  simp only [Dev.live]; (repeat' apply And.intro) <;> decide +kernel

/-- Timing port 3 enabled in this mode. -/
def tport (m : Nat) (l : List (RegId × Nat) := []) (t : Tp := Tp.init) : Dev := st ((R.TP_CFG 3, 1 + m * 2) :: l) (fun d => d.setTp 3 t)

theorem wit_TimingInputs :
    (3 < 4 ∧ (tport 4).live ∧ (tport 4).chip.tpMode 3 4 = true ∧ 13 < 14 ∧ 16 ≤ 16 ∧ ((tport 4).chip.tp 3).await = false ∧ ¬ (16 ≤ 13 ∨ (14 ≤ 13 ∧ ((tport 4).chip.fresh 1).1 ≠ 0#1))
      ∧ ((tport 4).chip.tp 3).rep = none)
    ∧ (let x := tport 4 [] { Tp.init with await := true, idle := 400000000003 - 16, rep := some (400000000003 - 32) };
      x.live ∧ x.chip.tpMode 3 4 = true ∧ (x.chip.tp 3).idle + 16 ≤ x.chip.core * 4 + 3 % 4
      ∧ (x.chip.tp 3).rep = some (400000000003 - 32) ∧ 400000000003 - 32 + 32 ≤ x.chip.core * 4 + 3 % 4)
    ∧ (let x := tport 4 [] { Tp.init with rep := some (400000000003 - 31) };
      x.live ∧ x.chip.tpMode 3 4 = true ∧ (x.chip.tp 3).await = false ∧ (x.chip.tp 3).rep = some (400000000003 - 31)
      ∧ x.chip.core * 4 + 3 % 4 < 400000000003 - 31 + 32)
    ∧ (let x := tport 1 [] { Tp.init with watch := some (400000000000 - 4400000000) };
      x.live ∧ (x.chip.tp 3).watch = some (400000000000 - 4400000000) ∧ 400000000000 - 4400000000 + 4400000000 ≤ x.chip.core * 4)
    ∧ (let x := tport 1 [] { Tp.init with watch := some (400000000001 - 4400000000) };
      (x.chip.tp 3).watch = some (400000000001 - 4400000000) ∧ x.chip.core * 4 < 400000000001 - 4400000000 + 4400000000)
    ∧ (let x := tport 3 [(R.TIM_CFG, 0x80E0)];
      x.live ∧ x.chip.tpMode 3 3 = true ∧ (-100000 : Int).natAbs ≤ 100000 ∧ x.chip.hold10 = true ∧ x.chip.rf R.TIM_CFG 7 6 = 3
      ∧ 100000 < (100001 : Int).natAbs)
    ∧ (let x := tport 4 [] { Tp.init with await := true, idle := 400000000003 - 15 };
      x.live ∧ x.chip.tpMode 3 4 = true ∧ ¬ ((x.chip.tp 3).await = false ∨ (x.chip.tp 3).idle + 16 ≤ x.chip.core * 4 + 3 % 4))
    ∧ (let x := tport 1 [(R.TIM_CFG, 0x1D)] { Tp.init with watch := some 0 };
      x.live ∧ (x.chip.tp 3).watch = some 0 ∧ 0 + 4400000000 ≤ x.chip.core * 4 ∧ x.chip.ppsSource 3 = true ∧ x.chip.tpMode 3 1 = true)
    ∧ (servo .tracking []).chip.tim.st = .tracking
    ∧ (let x := (tport 3 [(R.TIM_CFG, 0x80E0)] { Tp.init with refOk := true }).on (fun d => d.setTim { d.tim with refLock := true, ref := 5 });
      x.live ∧ x.chip.tpMode 3 3 = true ∧ (x.chip.tp 3).refOk = true ∧ x.chip.hold10 = true ∧ x.chip.rf R.TIM_CFG 7 6 = 3 ∧ x.chip.tim.refLock = true)
    ∧ ((st []).chip.tpMode 3 1 = false ∧ (st []).chip.tpMode 3 4 = false ∧ ((st []).chip.tp 3).watch = none ∧ (st []).chip.tpMode 3 3 = false
      ∧ ((st []).chip.tp 3).refOk = false) := by
  simp only [Dev.live]; (repeat' apply And.intro) <;> decide +kernel

theorem wit_TimingOutputs :
    (let x := tport 2 [] { Tp.init with sec := 400000000000 };
      3 < 4 ∧ x.live ∧ x.chip.tpMode 3 2 = true ∧ ((x.chip.tp 3).sec : Int) + (x.chip.tp 3).off ≤ x.chip.dt ∧ x.chip.rb (R.TP_CFG 3) 5 = false)
    ∧ (let x := st [(R.TP_CFG 3, 1 + 2 * 2 + 2 ^ 5)];
      x.live ∧ x.chip.tpMode 3 2 = true ∧ x.chip.rb (R.TP_CFG 3) 5 = true ∧ x.chip.tim.st = .freerun)
    ∧ ((tport 2).chip.tp 3).armed = none
    ∧ ((tport 5).allows 1 (R.TP_CFG 3) 11 ∧ (st []).allows 1 (R.TP_CFG 3) 10)
    ∧ (let x := tport 2 [] { Tp.init with sec := 400000000000, off := 1 };
      x.live ∧ x.chip.tpMode 3 2 = true ∧ (x.chip.dt : Int) < ((x.chip.tp 3).sec : Int) + (x.chip.tp 3).off)
    ∧ (let x := tport 5 [(R.TP_OUT_OFFSET 3, 0xFFFFFFFF)] { Tp.init with armed := some 400000000001 };
      x.live ∧ (x.chip.tp 3).armed = some 400000000001
      ∧ ((400000000001 : Nat) : Int) + sgn 32 (x.chip.rd (R.TP_OUT_OFFSET 3)).toNat ≤ x.chip.dt)
    ∧ (let x := tport 5 [] { Tp.init with armed := some 400000000001 };
      x.live ∧ (x.chip.tp 3).armed = some 400000000001
      ∧ (x.chip.dt : Int) < ((400000000001 : Nat) : Int) + sgn 32 (x.chip.rd (R.TP_OUT_OFFSET 3)).toNat)
    ∧ (let x := tport 5 [(R.TP_TIME_LO 3, 400000000000 % 2 ^ 32)];
      let w := w32 (400000000000 / 2 ^ 32);
      x.live ∧ x.allows 1 (R.TP_TIME_HI 3) (setFld w 31 31 1) ∧ x.chip.tpMode 3 5 = true
      ∧ 0 ≤ shortDiff x.chip.dt (fld w 15 0 * 2 ^ 32 + (x.chip.rd (R.TP_TIME_LO 3)).toNat))
    ∧ (let x := tport 5 [(R.TP_TIME_LO 3, 400000000000 % 2 ^ 32 - 1)];
      let w := w32 (400000000000 / 2 ^ 32);
      x.allows 1 (R.TP_TIME_HI 3) (setFld w 31 31 1) ∧ shortDiff x.chip.dt (fld w 15 0 * 2 ^ 32 + (x.chip.rd (R.TP_TIME_LO 3)).toNat) < 0)
    ∧ ((tport 4).allows 1 (R.TP_TIME_HI 3) (setFld 0 31 31 1) ∧ (tport 4).chip.tpMode 3 5 = false)
    ∧ ((st []).live ∧ (st []).allows 1 (R.TP_CFG 3) 11 ∧ (st []).chip.rb (R.TP_CFG 3) 0 = false ∧ bit 11 0 = true ∧ fld 11 3 1 < 6)
    ∧ ((st []).allows 1 (R.TP_CFG 3) 13 ∧ bit 13 0 = true ∧ 6 ≤ fld 13 3 1)
    ∧ ((tport 5).live ∧ (tport 5).allows 1 (R.TP_CFG 3) 10 ∧ (tport 5).chip.rb (R.TP_CFG 3) 0 = true ∧ bit 10 0 = false ∧ (tport 5).chip.tpUsed 3 = false)
    ∧ (let x := tport 3 [(R.TIM_CFG, 0x80E1)];
      x.live ∧ x.allows 1 (R.TP_CFG 3) 6 ∧ x.chip.rb (R.TP_CFG 3) 0 = true ∧ bit 6 0 = false ∧ x.chip.tpUsed 3 = true) := by
  simp only [Dev.live, Dev.allows, ok_iff]; (repeat' apply And.intro) <;> decide +kernel

/-- A readout stream of session 1 with one burst kept. -/
def strm (resends moved : Nat) : Stream := ⟨255, 1, 1, 0, 0, 4, 1, 0, 5000, 3, [(2, 0, [9])], 1, 2, moved, resends, none, false⟩

/-- The host port with this stream. -/
def ro (z : Stream) : Dev := st [] (fun d => d.setHost { d.host with streams := [z] })

theorem wit_HostPortEvents :
    ((st []).live ∧ (st []).chip.host.ready = true ∧ 0 < (st []).chip.hostPorts ∧ 0 ∈ (st []).chip.host.link
      ∧ 0 ∉ (st [] (fun d => d.setHost { d.host with link := [] })).chip.host.link
      ∧ HostFrame.answered .neighbour = some 1 ∧ (st []).chip.answers .neighbour = true ∧ HostFrame.answered .other = none
      ∧ HostFrame.other ≠ .pause ∧ (st []).chip.answers .arp = false)
    ∧ (let x := st [(R.HST_TMO, 60)] (fun d => d.setHost { d.host with sessions := [⟨65535, true, 1, 0, 40000000000, [], [], false, none⟩] });
      x.live ∧ x.chip.session 65535 = some ⟨65535, true, 1, 0, 40000000000, [], [], false, none⟩
      ∧ 40000000000 + x.chip.rf R.HST_TMO 11 0 * 1000000000 ≤ x.chip.core)
    ∧ (let x := st [(R.HST_TMO, 60)] (fun d => d.setHost { d.host with sessions := [⟨65535, true, 1, 0, 40000000001, [], [], false, none⟩] });
      x.chip.session 65535 = some ⟨65535, true, 1, 0, 40000000001, [], [], false, none⟩ ∧ x.chip.core < 40000000001 + x.chip.rf R.HST_TMO 11 0 * 1000000000)
    ∧ ((st []).serving ∧ (⟨0, 1, 1, 255, 1, 2, 3, [], false⟩ : Ack).tagOk = false)
    ∧ ((st []).chip.hostPorts ≤ 4 ∧ (st [] (fun d => d.setHost { d.host with ready := false })).chip.host.ready = false
      ∧ (st [] (fun d => d.setHost { d.host with ready := false })).chip.gth.st ≠ .hold ∧ (st []).chip.session 3 = none
      ∧ (∀ z ∈ (st []).chip.host.streams, z.num ≠ 255) ∧ 0 < (st []).chip.hostPorts)
    ∧ ((st []).chip.host.streams.find? (fun z => z.num = 255 && decide (z.session = 3) && decide (z.seq = 1)) = none
      ∧ (st []).chip.session 1 ≠ none)
    ∧ (ro (strm 0 0) |>.on (fun d => { d with pav := { d.pav with dead := true } })).chip.pavRuns = false
    ∧ (let x := ro (strm 0 0);
      let found := fun (a : Ack) => x.chip.host.streams.find? (fun z => z.num = a.stream && decide (z.session = a.session) && decide (z.seq = a.seq));
      x.live ∧ x.serving ∧ found ⟨0, 1, 1, 255, 1, 2, 3, [], true⟩ = some (strm 0 0) ∧ (⟨0, 1, 1, 255, 1, 2, 3, [], true⟩ : Ack).ackNo ≤ (strm 0 0).ackNo
      ∧ found ⟨0, 1, 1, 255, 2, 4, 4, [], true⟩ = some (strm 0 0) ∧ (strm 0 0).ackNo < 2 ∧ max (strm 0 0).cum (min 4 (strm 0 0).next) < (strm 0 0).goal
      ∧ (2, 0, [9]) ∈ (strm 0 0).kept ∧ 2 ∈ [2] ∧ 2 ≤ 2)
    ∧ (let z := { strm 0 0 with next := 4, end_ := some 3 };
      (ro z).chip.host.streams.find? (fun z => z.num = 255 && decide (z.session = 1) && decide (z.seq = 1)) = some z ∧ z.ackNo < 2
      ∧ z.goal ≤ max z.cum (min 4 z.next))
    ∧ (let x := ro (strm 100 (100000000000 - 10000000));
      x.live ∧ x.chip.pavRuns = true ∧ x.chip.host.streams.find? (fun z => z.num = 255) = some (strm 100 (100000000000 - 10000000))
      ∧ (strm 100 (100000000000 - 10000000)).moved + x.chip.rf R.HST_TMO 23 16 * 1000000 ≤ x.chip.core ∧ 100 ≤ (strm 100 (100000000000 - 10000000)).resends)
    ∧ (let x := ro (strm 99 (100000000000 - 9999999));
      x.chip.host.streams.find? (fun z => z.num = 255) = some (strm 99 (100000000000 - 9999999))
      ∧ x.chip.core < (strm 99 (100000000000 - 9999999)).moved + x.chip.rf R.HST_TMO 23 16 * 1000000)
    ∧ (let x := ro (strm 99 (100000000000 - 10000000));
      x.chip.host.streams.find? (fun z => z.num = 255) = some (strm 99 (100000000000 - 10000000))
      ∧ (strm 99 (100000000000 - 10000000)).moved + x.chip.rf R.HST_TMO 23 16 * 1000000 ≤ x.chip.core ∧ (strm 99 (100000000000 - 10000000)).resends < 100
      ∧ (strm 99 (100000000000 - 10000000)).kept = (2, 0, [9]) :: []) := by
  simp only [Dev.live, Dev.serving]; (repeat' apply And.intro) <;> decide +kernel

/-- Session 1 with these changes. -/
def sess (f : Session → Session) (g : Chip → Chip := id) : Dev :=
  st [] (fun d => g (d.setHost { d.host with sessions := [f ⟨1, true, 1025, 0, 0, [], [], false, none⟩] }))

theorem wit_PacketsDroppedHeldAndResent :
    ((st []).live ∧ (st []).serving ∧ (st []).chip.packetOk { h1 with unit := 2 } .tandemSplit = false)
    ∧ ((st []).chip.packetOk h0 .tandemSplit = true ∧ h0.session = 0 ∧ openReq .tandemSplit = false)
    ∧ ((st []).chip.packetOk { h1 with session := 65535 } .tandemSplit = true ∧ { h1 with session := 65535 }.session ≠ 0
      ∧ (st []).chip.session 65535 = none ∧ { h1 with tagOk := false }.tagOk = false)
    ∧ ((st []).chip.packetOk { h0 with seq := 1 } (.sessionOpen 1 0 77 true) = true ∧ reqCode (.sessionOpen 1 0 77 true) = 0x0002
      ∧ openReq (.sessionOpen 1 0 77 true) = true ∧ h1.port < (st []).chip.hostPorts)
    ∧ (let x := sess (fun z => { z with reset := true });
      x.live ∧ x.serving ∧ x.chip.packetOk h1 .tandemSplit = true ∧ x.chip.session h1.session = some ⟨1, true, 1025, 0, 0, [], [], true, none⟩
      ∧ Req.tandemSplit ≠ .sessionClose)
    ∧ (let x := sess id;
      let z : Session := ⟨1, true, 1025, 0, 0, [], [], false, none⟩;
      x.chip.session h1.session = some z ∧ 1024 < z.next ∧ z.next ≤ 1024 + 1024 ∧ z.cache.find? (fun a => a.seq = 1024) = none ∧ z.wait = none)
    ∧ (let x := sess id;
      let z := ⟨1, true, 1025, 0, 0, [], [], false, none⟩;
      x.live ∧ x.serving ∧ (∀ n ∈ [0, 1089, 1026, 1088], x.chip.packetOk { h1 with seq := n } .tandemSplit = true) ∧ h1.session ≠ 0 ∧ h1.tagOk = true
      ∧ x.chip.session h1.session = some z ∧ z.reset = false ∧ 0 + 1024 < z.next ∧ z.next + 63 < 1089 ∧ z.next < 1026 ∧ 1088 ≤ z.next + 63
      ∧ (∀ k ∈ z.held, k.1.seq ≠ 1088))
    ∧ (let x := sess (fun z => { z with held := [({ h1 with seq := 1026 }, .tandemSplit)] });
      let z : Session := ⟨1, true, 1025, 0, 0, [({ h1 with seq := 1026 }, .tandemSplit)], [], false, none⟩;
      x.chip.session h1.session = some z ∧ z.next < 1026 ∧ ({ h1 with seq := 1026 }, Req.tandemSplit) ∈ z.held ∧ { h1 with seq := 1026 }.seq = 1026)
    ∧ (let a : Reply := ⟨1, 1, 0x53, .ok, 0, false, false, []⟩;
      let x := sess (fun z => { z with cache := [a] });
      let z : Session := ⟨1, true, 1025, 0, 0, [], [a], false, none⟩;
      x.chip.session h1.session = some z ∧ h1.seq < z.next ∧ z.next ≤ h1.seq + 1024 ∧ z.cache.find? (fun a => a.seq = h1.seq) = some a ∧ h1.poison = false)
    ∧ (let x := sess id (fun d => d.setGth { d.gth with st := .failover, held := List.replicate 255 (.request h1 .tandemSplit) });
      x.live ∧ x.chip.host.ready = true ∧ x.chip.gth.st = .failover ∧ Req.tandemSplit ≠ .gatehouseStatus ∧ x.chip.gth.held.length < 256
      ∧ x.chip.packetOk h0 .gatehouseStatus = true ∧ h0.session = 0 ∧ packetPort (.request h1 .tandemSplit) < x.chip.hostPorts)
    ∧ 256 ≤ (sess id (fun d => d.setGth { d.gth with st := .failover, held := List.replicate 256 (.request h1 .tandemSplit) })).chip.gth.held.length
    ∧ (let x := sess id (fun d => d.setGth { d.gth with st := .hold });
      x.live ∧ x.chip.host.ready = true ∧ x.chip.packetOk h1 .gatehouseStatus = true ∧ x.chip.gth.st = .hold ∧ x.chip.packetOk h1 .tandemSplit = true
      ∧ x.chip.packetOk { h1 with fmtOk := false } .tandemSplit = false)
    ∧ (st []).chip.hostPorts ≤ packetPort (.request { h1 with port := 4 } .tandemSplit) := by
  simp only [Dev.live, Dev.serving]; (repeat' apply And.intro) <;> decide +kernel

theorem wit_RequestsAreExecutedAndAnswered :
    ((st []).live ∧ (Instr.tandemSplit h1).request = some (h1, .tandemSplit) ∧ Req.tandemSplit ≠ .fwActivate ∧ Req.tandemSplit ≠ .failoverRequest
      ∧ (st []).inTurn h1 .tandemSplit)
    ∧ (Instr.hello h0).request = some (h0, .hello) ∧ (st []).openTurn h0 .hello := by
  simp only [Dev.live, inTurn_iff, Dev.openTurn, Dev.serving]; decide +kernel

/-- The host port holds a nonce 77 issued now, and these sessions. -/
def door (l : List Session) : Dev := st [] (fun d => d.setHost { d.host with nonces := [(77, 90000000000)], sessions := l })

/-- `n` operator sessions. -/
def crowd (n : Nat) : List Session := (List.range n).map (fun k => ⟨k + 1, false, 1, 0, 0, [], [], false, none⟩)

theorem wit_SessionRequests :
    ((st []).live ∧ (st []).inTurn h1 .hello ∧ (st []).openTurn h0 .hello)
    ∧ (let x := door (crowd 15);
      x.live ∧ 1 ≤ 1 ∧ x.openTurn { h0 with seq := 0 } (.sessionOpen 1 0 77 true) ∧ (77, 90000000000) ∈ x.chip.host.nonces
      ∧ x.chip.core ≤ 90000000000 + 10000000000 ∧ x.chip.keyOk 1 0 = true ∧ x.chip.host.sessions.length < 16
      ∧ (∀ s ∈ x.chip.host.sessions, s.owner = false) ∧ x.openTurn h0 (.sessionOpen 1 0 77 false))
    ∧ (let x := door (crowd 16);
      x.live ∧ x.openTurn h0 (.sessionOpen 1 0 77 true) ∧ 16 ≤ x.chip.host.sessions.length)
    ∧ (door (crowd 15)).openTurn h0 (.sessionOpen 2 0 77 true)
    ∧ (let x := st [] (fun d => d.setHost { d.host with nonces := [(77, 90000000000)] });
      x.openTurn h0 (.sessionOpen 1 0 77 true) ∧ x.chip.host.sessions.any (fun s => s.owner) = true)
    ∧ ((st []).inTurn h1 .sessionClose ∧ (st []).inTurn h1 .gatehouseStatus ∧ (st []).openTurn h0 .gatehouseStatus)
    ∧ ((st []).inTurn h1 (.eventRead none 1) ∧ (st []).inTurn h1 (.eventRead (some 0) 32)
      ∧ (st []).chip.session h1.session = some ⟨1, true, 1, 0, 0, [], [], false, none⟩ ∧ (st []).inTurn h1 (.eventRead none 0)
      ∧ (st []).inTurn h1 (.eventRead none 33))
    ∧ ((st []).inTurn h1 (.ledgerRead 47 1) ∧ 47 + 1 ≤ 48 ∧ (st []).inTurn h1 (.ledgerRead 16 32) ∧ 16 + 32 ≤ 48
      ∧ (st []).inTurn h1 (.ledgerRead 0 0) ∧ (st []).inTurn h1 (.ledgerRead 0 33) ∧ (st []).inTurn h1 (.ledgerRead 17 32) ∧ 48 < 17 + 32) := by
  simp only [Dev.live, inTurn_iff, Dev.openTurn, Dev.serving]; (repeat' apply And.intro) <;> decide +kernel

theorem wit_RegisterRequests :
    ((st []).live ∧ (st []).inTurn h1 (.regRead 0) ∧ (st []).chip.accessCheck 1 0 false = .ok ⟨.glb, 0, 0⟩
      ∧ (st []).inTurn h1 (.regRead 0xC000) ∧ (st []).chip.accessCheck 1 0xC000 false = .error .decodeError)
    ∧ ((st []).inTurn h1 (.regWrite R.YRD_CFG.addr 4 0x20FF) ∧ (st []).chip.accessCheck 1 R.YRD_CFG.addr true = .ok R.YRD_CFG
      ∧ (st []).chip.lockedWrite R.YRD_CFG (w32 0x20FF) = false ∧ ((st []).chip.cdRefused R.YRD_CFG (w32 0x20FF)).1 = false ∧ R.YRD_CFG.blk = .yrd
      ∧ (st []).inTurn h1 (.regWrite (R.TRB_TX 16383).addr 4 5) ∧ (st []).chip.accessCheck 1 (R.TRB_TX 16383).addr true = .ok (R.TRB_TX 16383)
      ∧ (st []).chip.lockedWrite (R.TRB_TX 16383) 5 = false ∧ ((st []).chip.cdRefused (R.TRB_TX 16383) 5).1 = false ∧ (R.TRB_TX 16383).row.isSome = true ∧ (R.TRB_TX 16383).off ≠ 0
      ∧ R.YRD_CFG.row.isSome = true ∧ (st []).inTurn h1 (.regWrite 0xC000 4 0) ∧ (st []).chip.accessCheck 1 0xC000 true = .error .decodeError)
    ∧ (let x := st [(R.GLB_LOCK, 7)];
      x.live ∧ x.inTurn h1 (.regWrite R.GLB_LOCK.addr 4 3) ∧ x.chip.accessCheck 1 R.GLB_LOCK.addr true = .ok R.GLB_LOCK ∧ x.chip.lockedWrite R.GLB_LOCK (w32 3) = true)
    ∧ (let x := st [(R.LN_CTRL 127, 1)];
      x.inTurn h1 (.regWrite (R.LN_CFG 127).addr 4 2) ∧ x.chip.accessCheck 1 (R.LN_CFG 127).addr true = .ok (R.LN_CFG 127)
      ∧ x.chip.lockedWrite (R.LN_CFG 127) (w32 2) = false ∧ (x.chip.cdRefused (R.LN_CFG 127) (w32 2)).1 = true)
    ∧ (∀ n ∈ [1, 2, 8], (st []).inTurn h1 (.regWrite 0 n 0) ∧ (st []).inTurn h1 (.regModify 0 n 0 0))
    ∧ ((st []).inTurn h1 (.regReadBlock 0 0) ∧ (st []).inTurn h1 (.regReadBlock 0 257) ∧ (st []).inTurn h1 (.regReadBlock 0xBC00 256)
      ∧ (st []).inTurn h1 (.regReadBlock 0xBC04 256) ∧ (st []).chip.accessCheck 1 (0xBC04 + 4 * 255) false = .error .decodeError)
    ∧ ((st []).inTurn h1 (.regWriteBlock 0 5 [1]) ∧ 5 % 4 ≠ 0 ∧ (st []).inTurn h1 (.regWriteBlock 0 0 []) ∧ (st []).inTurn h1 (.regWriteBlock 0xC000 4 [1])
      ∧ (st []).inTurn h1 (.regWriteBlock R.YRD_CFG.addr 4 [0x20FF]) ∧ R.YRD_CFG.row.map (·.w1c) = some 0
      ∧ (st []).inTurn h1 (.regWriteBlock 0 1028 (List.replicate 257 0)) ∧ 256 < (List.replicate 257 0).length)
    ∧ ((st []).inTurn h1 (.regModify R.YRD_CFG.addr 4 0xFF 0x80) ∧ R.YRD_CFG.row.map (·.rc) = some 0
      ∧ (let new := (((st []).taken h1 (.regModify R.YRD_CFG.addr 4 0xFF 0x80)).chip.readWord R.YRD_CFG &&& ~~~ w32 0xFF) ||| (w32 0x80 &&& w32 0xFF);
        (st []).chip.lockedWrite R.YRD_CFG new = false ∧ ((st []).chip.cdRefused R.YRD_CFG new).1 = false)
      ∧ h1.lock = .kept ∧ (st []).inTurn h1 (.regModify 0xC000 4 0 0)
      ∧ (∀ l ∈ [ModLock.late, .poisoned], (st []).inTurn { h1 with lock := l } (.regModify (R.TRB_TX 16383).addr 4 0 0))
      ∧ (R.TRB_TX 16383).row.map (·.rc) = some 0)
    ∧ ((st []).inTurn h1 (.counterSnapshot 0 4096) ∧ 0 % 4096 + 4096 ≤ 4096 ∧ decodeAddr 0 = some ⟨.glb, 0, 0⟩ ∧ (st []).chip.fenced 32 = false
      ∧ (st []).chip.heldReg ⟨.glb, 0, 0⟩ = false ∧ (st []).inTurn h1 (.counterSnapshot 1 4) ∧ (st []).inTurn h1 (.counterSnapshot 0 0)
      ∧ (st []).inTurn h1 (.counterSnapshot 4 4096) ∧ 4096 < 4 % 4096 + 4096 ∧ (st []).inTurn h1 (.counterSnapshot 0xC000 4) ∧ decodeAddr 0xC000 = none) := by
  simp only [Dev.live, inTurn_iff, Dev.serving, ok_iff, err_iff]; (repeat' apply And.intro) <;> decide +kernel

/-- Every word of the blocks that the block clauses read can be read. -/
theorem wit_RegisterRequests_block :
    (∀ i < 256, ∃ g, (st []).chip.accessCheck 1 (0xBC00 + 4 * i) false = .ok g)
    ∧ ∀ i < 255, ∃ g, (st []).chip.accessCheck 1 (0xBC04 + 4 * i) false = .ok g := by
  have all : ∀ i < 256, (okReg ((st []).chip.accessCheck 1 (0xBC00 + 4 * i) false)).isSome = true := by decide +kernel
  have one : ∀ a, (okReg ((st []).chip.accessCheck 1 a false)).isSome = true → ∃ g, (st []).chip.accessCheck 1 a false = .ok g := by
    intro a h
    obtain ⟨g, hg⟩ := Option.isSome_iff_exists.mp h
    exact ⟨g, (ok_iff _ g).mpr hg⟩
  refine ⟨fun i hi => one _ (all i hi), fun i hi => one _ ?_⟩
  have := all (i + 1) (by omega)
  rwa [show 0xBC00 + 4 * (i + 1) = 0xBC04 + 4 * i by omega] at this

/-- LN_TX of a lane that transmits from engine 135. -/
def tx135 : Nat := 135 * 2 ^ 16

theorem wit_ConfigurationRequests_ports :
    (let r := Req.portConfig 127 1 0 tx135 none (some 0) 1;
      let d := ((st []).taken h1 r).chip;
      (st []).live ∧ (st []).inTurn h1 r ∧ 127 < 128 ∧ (d.lane 127).ready = true ∧ (d.putImages [] (portImages 127 1 0 tx135 none (some 0))).laneCfgOk 127 = true
      ∧ fld (w32 tx135) 23 16 ≤ 135 ∧ d.quadBusy 127 (some 0) = false)
    ∧ (st []).inTurn h1 (.portConfig 128 1 0 0 none none 1)
    ∧ (let r := Req.portConfig 126 1 0 0 none none 1;
      (st []).inTurn h1 r ∧ (((st []).taken h1 r).chip.lane 126).ready = false)
    ∧ (let x := st [(R.LN_CTRL 124, 1)];
      let r := Req.portConfig 127 1 0 0 none (some 1) 0;
      x.live ∧ x.inTurn h1 r ∧ fld (w32 0) 23 16 ≤ 135 ∧ (x.taken h1 r).chip.quadBusy 127 (some 1) = true)
    ∧ (let r := Req.portConfig 127 1 0 (136 * 2 ^ 16) none none 1;
      (st []).inTurn h1 r ∧ (((st []).taken h1 r).chip.lane 127).ready = true ∧ ((st []).taken h1 r).chip.quadBusy 127 none = false ∧ 135 < fld (w32 (136 * 2 ^ 16)) 23 16)
    ∧ (let r := Req.channelConfig 127 (List.replicate 8 none) 1;
      let x := st [(R.LN_CFG 127, 1), (R.SWB_RX_BIND 127, 0x100 + 127)];
      let d := (x.taken h1 r).chip;
      x.live ∧ x.inTurn h1 r ∧ 127 < 136 ∧ d.engHeld 127 = false ∧ d.subBusy 127 = false ∧ d.engEn 127 = false ∧ d.engReady 127 = true
      ∧ (d.putImages [] (chanImages 127 (List.replicate 8 none))).engCheck 127 = none ∧ (List.replicate 8 (none : Option Nat)).getD 7 none = none)
    ∧ (let l := List.replicate 8 (none : Option Nat);
      let r := Req.channelConfig 127 l 1;
      let x := st [(R.HNT_CFG 127, 0)];
      x.live ∧ x.inTurn h1 r ∧ (x.taken h1 r).chip.engReady 127 = true
      ∧ ((x.taken h1 r).chip.putImages [] (chanImages 127 l)).engCheck 127 = some (.badParam, some (R.HNT_EVENT 127, 9)))
    ∧ (let r := Req.channelConfig 135 (List.replicate 8 none) 1;
      (st []).inTurn h1 r ∧ 135 < 136 ∧ ((st []).taken h1 r).chip.engHeld 135 = false ∧ ((st []).taken h1 r).chip.engReady 135 = false) := by
  simp only [Dev.live, inTurn_iff, Dev.serving]; (repeat' apply And.intro) <;> decide +kernel

theorem wit_ConfigurationRequests_rest :
    (let im := (vc4 + 1) :: List.replicate 9 0;
      let x := eng127 (hunt .inFrame);
      let r := Req.tribMap [⟨16383, im⟩];
      let d := (x.taken h1 r).chip;
      x.live ∧ x.inTurn h1 r ∧ 16383 < 16384 ∧ im.length = 10 ∧ fld (w32 (im.getD 0 0)) 12 5 ≤ 135 ∧ d.ctxEn 16383 = false
      ∧ d.tribOk [(16383, TribMap.images 16383 im)] = true)
    ∧ ((st []).live ∧ (st []).inTurn h1 (.tribMap []) ∧ (st []).inTurn h1 (.tribMap (List.replicate 30 ⟨0, []⟩))
      ∧ (st []).inTurn h1 (.tribMap [⟨16384, List.replicate 10 0⟩]) ∧ (st []).inTurn h1 (.tribMap [⟨0, List.replicate 9 0⟩]))
    ∧ (let im := 1 :: List.replicate 9 0;
      let r := Req.tribMap [⟨0, im⟩];
      (st []).inTurn h1 r ∧ ((st []).taken h1 r).chip.tribOk ([(⟨0, im⟩ : TribEntry)].map (fun z => (z.ctx, TribMap.images z.ctx z.images))) = false)
    ∧ ((st []).inTurn h1 (.deskewConfig 135 131071 255) ∧ 131071 < 2 ^ 17 ∧ 255 < 256
      ∧ (st []).allows h1.session (R.DSK_CFG 135) (w32 (131071 + 255 * 2 ^ 24)) ∧ (st []).chip.subBusy 135 = false
      ∧ (st []).inTurn h1 (.deskewConfig 136 0 0) ∧ (st []).inTurn h1 (.deskewConfig 0 131072 0) ∧ (st []).inTurn h1 (.deskewConfig 0 0 256))
    ∧ (let x := eng127 (hunt .inFrame);
      let r := Req.regionConfig 0 4095 17 (some 127) 1474559 1 none none;
      let d := (x.taken h1 r).chip;
      let after := d.putImages [R.rgn_CAP_RGN_CFG 4095] (rgnImages 4095 17 (some 127) 1474559 1 none none);
      x.live ∧ x.inTurn h1 r ∧ 4095 < 4096 ∧ (d.rgn 4095).live = false ∧ (after.rcfg 4095).eng < 136 ∧ 17 % 2 = 1
      ∧ after.stacksReady (after.rcfg 4095).base ((after.rcfg 4095).slots / 128) = true ∧ after.rgnCheck 4095 = none)
    ∧ (let x := rgn { Rgn.init with st := .pre };
      let r := Req.regionConfig 0 4095 17 none 0 1 none none;
      x.live ∧ x.inTurn h1 r ∧ ((x.taken h1 r).chip.rgn 4095).live = true)
    ∧ (let x := eng127 (hunt .inFrame);
      let r := Req.regionConfig 0 4095 17 (some 127) 1474559 2 none none;
      let after := (x.taken h1 r).chip.putImages [R.rgn_CAP_RGN_CFG 4095] (rgnImages 4095 17 (some 127) 1474559 2 none none);
      x.inTurn h1 r ∧ (after.rcfg 4095).eng < 136 ∧ after.stacksReady (after.rcfg 4095).base ((after.rcfg 4095).slots / 128) = true
      ∧ after.rgnCheck 4095 = some .badParam)
    ∧ (let r := Req.regionConfig 1 1023 0 none 1474559 1 none none;
      (st []).inTurn h1 r ∧ 1023 < 1024 ∧ ((st []).taken h1 r).chip.prgnUsed 1023 = false ∧ 0 % 2 ≠ 1)
    ∧ (let x := pat 3 (fun d => d.setPat 127 { Pat.init with runs := [script] });
      let r := Req.regionConfig 1 1023 1 none 0 1 none none;
      x.live ∧ x.inTurn h1 r ∧ (x.taken h1 r).chip.prgnUsed 1023 = true)
    ∧ (let r := Req.regionConfig 1 1023 1 none 1474559 2 none none;
      let after := ((st []).taken h1 r).chip.putImages [R.prgn_PAT_RGN_CFG 1023] (prgnImages 1023 1 1474559 2);
      (st []).inTurn h1 r ∧ ((st []).taken h1 r).chip.prgnUsed 1023 = false ∧ 1 % 2 = 1
      ∧ after.stacksReady (after.prgnUnits 1023).1 (after.prgnUnits 1023).2 = true ∧ after.prgnOk 1023 = false) := by
  simp only [Dev.live, inTurn_iff, Dev.serving, Dev.allows, ok_iff]; (repeat' apply And.intro) <;> decide +kernel

theorem wit_ConfigurationRequests_refused :
    (let l := List.replicate 8 (none : Option Nat);
      let x := st [] (fun d => { d with pwr := { d.pwr with off := [15] } });
      x.live ∧ x.inTurn h1 (.channelConfig 127 l 1) ∧ (x.taken h1 (.channelConfig 127 l 1)).chip.engHeld 127 = true)
    ∧ (let l := List.replicate 8 (none : Option Nat);
      let x := st [] (fun d => d.setSvc { d.svc with subs := [⟨127, 128, 0, 0, none⟩] });
      let d := (x.taken h1 (.channelConfig 127 l 1)).chip;
      x.live ∧ x.inTurn h1 (.channelConfig 127 l 1) ∧ d.engHeld 127 = false ∧ d.engReady 127 = true ∧ d.subBusy 127 = true)
    ∧ (let l := List.replicate 7 (none : Option Nat) ++ [some (136 * 2)];
      let d := ((st []).taken h1 (.channelConfig 127 l 1)).chip;
      (st []).inTurn h1 (.channelConfig 127 l 1) ∧ d.engHeld 127 = false ∧ d.engReady 127 = true ∧ d.subBusy 127 = false
      ∧ l.getD 7 none = some 272 ∧ 135 < fld (w32 272) 8 1)
    ∧ (let l := List.replicate 8 (none : Option Nat);
      let x := eng127 (hunt .inFrame);
      let d := (x.taken h1 (.channelConfig 127 l 1)).chip;
      x.live ∧ x.inTurn h1 (.channelConfig 127 l 1) ∧ x.inTurn h1 (.channelConfig 127 l 0) ∧ d.engHeld 127 = false ∧ d.subBusy 127 = false
      ∧ d.engEn 127 = true ∧ d.engReady 127 = true ∧ (d.putImages [] (chanImages 127 l)).engCheck 127 = none ∧ d.cdDiffers (chanImages 127 l) = false)
    ∧ ((st []).inTurn h1 (.channelConfig 136 (List.replicate 8 none) 1) ∧ 136 ≤ 136)
    ∧ (let r := Req.portConfig 127 15 0 0 none none 0;
      let d := ((st []).taken h1 r).chip;
      (st []).inTurn h1 r ∧ d.quadBusy 127 none = false ∧ (d.putImages [] (portImages 127 15 0 0 none none)).laneCfgOk 127 = false)
    ∧ (let x := eng127 (hunt .inFrame);
      let r := Req.regionConfig 0 4095 17 (some 127) 368640 1 none none;
      let after := (x.taken h1 r).chip.putImages [R.rgn_CAP_RGN_CFG 4095] (rgnImages 4095 17 (some 127) 368640 1 none none);
      x.live ∧ x.inTurn h1 r ∧ (after.rcfg 4095).eng < 136 ∧ after.stacksReady (after.rcfg 4095).base ((after.rcfg 4095).slots / 128) = false
      ∧ ((x.taken h1 r).chip.rgn 4095).live = false)
    ∧ (let r := Req.regionConfig 1 1023 1 none 368640 1 none none;
      let after := ((st []).taken h1 r).chip.putImages [R.prgn_PAT_RGN_CFG 1023] (prgnImages 1023 1 368640 1);
      (st []).inTurn h1 r ∧ ((st []).taken h1 r).chip.prgnUsed 1023 = false
      ∧ after.stacksReady (after.prgnUnits 1023).1 (after.prgnUnits 1023).2 = false)
    ∧ ((st []).inTurn h1 (.regionConfig 2 0 0 none 0 1 none none) ∧ (st []).inTurn h1 (.regionConfig 0 4096 0 none 0 1 none none)
      ∧ (st []).inTurn h1 (.regionConfig 1 1024 0 none 0 1 none none) ∧ (st []).inTurn h1 (.regionConfig 1 0 0 (some 0) 0 1 none none)
      ∧ (st []).inTurn h1 (.regionConfig 1 0 0 none 0 1 (some 0) none) ∧ (st []).inTurn h1 (.regionConfig 1 0 0 none 0 1 none (some 0))) := by
  simp only [Dev.live, inTurn_iff, Dev.serving]; (repeat' apply And.intro) <;> decide +kernel

/-- Pattern region 1023 enabled, loaded with memory `m`, and used by nothing; engine 127 enabled. -/
def patFree : Dev := pat 3

theorem wit_EngineAndCaptureRequests_engine :
    ((eng127 (hunt .inFrame)).live ∧ (eng127 (hunt .inFrame)).inTurn h1 (.apsCommand 127 1 1) ∧ 127 < 136 ∧ (eng127 (hunt .inFrame)).chip.splitHold = false
      ∧ (eng127 (hunt .inFrame)).chip.engGate 127 = none ∧ ((eng127 (hunt .inFrame)).chip.group 127).st = .disabled)
    ∧ (let x := grp { Group.init with st := .nr };
      x.live ∧ x.inTurn h1 (.apsCommand 127 1 1) ∧ x.inTurn h1 (.apsCommand 127 0 0) ∧ x.chip.splitHold = false ∧ x.chip.engGate 127 = none
      ∧ (x.chip.group 127).st ≠ .disabled ∧ 1 ≤ 1)
    ∧ ((st []).inTurn h1 (.huntControl 136 0 none) ∧ (st []).chip.engGate 136 = some .badParam ∧ (st []).inTurn h1 (.huntControl 135 2 none)
      ∧ (st []).chip.engGate 135 = some .notReady ∧ (st []).inTurn h1 (.huntControl 127 3 none) ∧ (st []).inTurn h1 (.huntControl 127 1 none)
      ∧ (st []).inTurn h1 (.huntControl 127 0 none) ∧ (st []).chip.engGate 127 = none ∧ (st []).inTurn h1 (.huntControl 127 1 (some 63))
      ∧ (∀ c ∈ ((st []).chip.hunter 127).cands, c.1 ≠ 63) ∧ (st []).inTurn h1 (.huntControl 127 2 none)) := by
  simp only [Dev.live, inTurn_iff, Dev.serving]; (repeat' apply And.intro) <;> decide +kernel

theorem wit_EngineAndCaptureRequests_engine_forms :
    ((st []).live ∧ (st []).inTurn h1 (.apsCommand 136 1 1) ∧ 136 ≤ 136 ∧ (st []).inTurn h1 (.apsCommand 135 1 1) ∧ (st []).chip.engGate 135 = some .notReady)
    ∧ (let x := aps [(R.APS_CFG 127, 0xC51), (R.TDM_STATUS, 4)] (fun d => d.setGroup 127 { Group.init with st := .nr });
      x.live ∧ x.inTurn h1 (.apsCommand 127 1 1) ∧ x.chip.splitHold = true ∧ x.chip.crossGroups.contains 127 = true)
    ∧ (let x := grp { Group.init with st := .nr };
      x.live ∧ (∀ c ∈ [2, 3, 4], x.inTurn h1 (.apsCommand 127 c 1) ∧ x.inTurn h1 (.apsCommand 127 c 0)) ∧ x.inTurn h1 (.apsCommand 127 5 1)
      ∧ x.chip.engGate 127 = none ∧ (1 ≤ 1 ∧ 1 ≤ x.chip.apsN 127)
      ∧ (∀ z ∈ x.chip.apsLocal 127 ++ (x.chip.apsRxReq 127).toList, ¬ (z.req = .lo ∨ z.req = .sfP))
      ∧ PReq.ms.rank < (topOf (x.chip.apsLocal 127 ++ (x.chip.apsRxReq 127).toList)).req.rank
      ∧ PReq.exer.rank < (topOf (x.chip.apsLocal 127 ++ (x.chip.apsRxReq 127).toList)).req.rank)
    ∧ (let x := grp { Group.init with st := .switched, cmd := some ⟨.lo, 0⟩ };
      x.live ∧ (∀ c ∈ [2, 3, 4], x.inTurn h1 (.apsCommand 127 c 1)) ∧ x.chip.engGate 127 = none
      ∧ (∃ z ∈ x.chip.apsLocal 127 ++ (x.chip.apsRxReq 127).toList, z.req = .lo ∨ z.req = .sfP)
      ∧ (topOf (x.chip.apsLocal 127 ++ (x.chip.apsRxReq 127).toList)).req.rank ≤ PReq.ms.rank
      ∧ (topOf (x.chip.apsLocal 127 ++ (x.chip.apsRxReq 127).toList)).req.rank ≤ PReq.exer.rank)
    ∧ (∀ s ∈ [HSt.ambiguous, .inFrame],
      let x := st [] (fun d => d.setHunter 127 (hunt s (fun h => { h with cands := [(63, Cand.init)] })));
      x.live ∧ x.inTurn h1 (.huntControl 127 1 (some 63)) ∧ x.chip.engGate 127 = none
      ∧ (x.chip.hunter 127).cands.find? (fun z => z.1 = 63) = some (63, Cand.init)
      ∧ Cand.init.stream < (x.chip.hunter 127).streams.length ∧ ((x.chip.hunter 127).stream Cand.init.stream).st = s) := by
  simp only [Dev.live, inTurn_iff, Dev.serving]; (repeat' apply And.intro) <;> decide +kernel

theorem wit_EngineAndCaptureRequests_capture :
    ((st []).live ∧ (st []).inTurn h1 (.captureArm 4096) ∧ (st []).inTurn h1 (.captureArm 4095) ∧ (st []).chip.rb (R.rgn_CAP_RGN_CFG 4095) 0 = false)
    ∧ (let x := rgn { Rgn.init with st := .pre };
      x.live ∧ x.inTurn h1 (.captureArm 4095) ∧ x.chip.rb (R.rgn_CAP_RGN_CFG 4095) 0 = true ∧ x.chip.rgnCut 4095 = false ∧ (x.chip.rgn 4095).live = true
      ∧ x.inTurn h1 (.captureStop 4095))
    ∧ ((rgn Rgn.init).inTurn h1 (.captureArm 4095) ∧ (rgn Rgn.init).chip.rb (R.rgn_CAP_RGN_CFG 4095) 0 = true ∧ (rgn Rgn.init).chip.rgnCut 4095 = false
      ∧ ((rgn Rgn.init).chip.rgn 4095).live = false ∧ (rgn Rgn.init).inTurn h1 (.captureStop 4095))
    ∧ (st []).inTurn h1 (.captureStop 4096)
    ∧ (let x := rgn { Rgn.init with st := .stopped, done := 128, next := 128 };
      x.live ∧ x.inTurn h1 (.captureReadout 4095 0 128 512 5000) ∧ x.inTurn h1 (.captureReadout 4095 127 1 1024 5000)
      ∧ (x.chip.host.streams.filter (fun z => z.session = h1.session)).length < 4 ∧ x.chip.host.streams.length < 32 ∧ 512 ≤ 512 ∧ 1024 ≤ 8192
      ∧ 1024 % 512 = 0 ∧ 1024 ≤ 1024 ∧ (x.chip.rgn 4095).st ≠ .idle ∧ x.inTurn h1 (.captureReadout 4095 0 1 511 5000)
      ∧ x.inTurn h1 (.captureReadout 4095 0 1 8704 5000) ∧ x.inTurn h1 (.captureReadout 4095 0 1 1536 5000) ∧ x.chip.jumbo = false
      ∧ x.inTurn h1 (.captureReadout 4095 0 1 768 5000) ∧ ((st []).chip.rgn 4095).st = .idle)
    ∧ (let x := st [] (fun d => d.setHost { d.host with streams := List.replicate 4 (strm 0 0) });
      x.live ∧ x.inTurn h1 (.captureReadout 4095 0 1 512 5000) ∧ 4 ≤ (x.chip.host.streams.filter (fun z => z.session = h1.session)).length)
    ∧ (let x := st [] (fun d => d.setHost { d.host with streams := List.replicate 32 { strm 0 0 with session := 2 } });
      x.inTurn h1 (.captureReadout 4095 0 1 512 5000) ∧ 32 ≤ x.chip.host.streams.length) := by
  simp only [Dev.live, inTurn_iff, Dev.serving]; (repeat' apply And.intro) <;> decide +kernel

theorem wit_EngineAndCaptureRequests_capture_cut :
    (let x := (rgn Rgn.init).on (fun d => (d.wr (R.rgn_CAP_RGN_SRC 4095) 136).wr R.TDM_STATUS 4);
      x.live ∧ x.inTurn h1 (.captureArm 4095) ∧ x.inTurn h1 (.captureStop 4095) ∧ x.chip.rb (R.rgn_CAP_RGN_CFG 4095) 0 = true ∧ x.chip.rgnCut 4095 = true)
    ∧ (st []).inTurn h1 (.captureReadout 4096 0 1 512 5000) := by
  simp only [Dev.live, inTurn_iff, Dev.serving]; (repeat' apply And.intro) <;> decide +kernel

/-- An injection record of KIND 3 for payload octet 0x3FFF. -/
def injRec : List Byte := [3, 0, 0, 0, 0, 0, 0, 0, 0, 0, 0x3F, 0xFF, 0, 0, 0, 1]

/-- Firmware trust with these reports, this last report and these leaves. -/
def trust (f : Sec → Sec) : Dev := st [] (fun d => d.setSec (f d.sec))

theorem wit_EngineAndCaptureRequests_pattern :
    ((st []).live ∧ (st []).inTurn h1 (.patternLoad 1024 0 [1, 2, 3, 4] none) ∧ (st []).inTurn h1 (.patternLoad 1023 0 [1, 2, 3, 4] none)
      ∧ (st []).chip.prgnEn 1023 = false ∧ (st []).inTurn h1 (.patternLoad 0 0 [1, 2, 3] none)
      ∧ (st []).inTurn h1 (.patternLoad 0 0 (List.replicate 1025 0) none))
    ∧ (let x := pat 1 (fun d => d.setPat 127 { Pat.init with runs := [script] });
      x.live ∧ x.inTurn h1 (.patternLoad 1023 0 [1, 2, 3, 4] none) ∧ x.chip.prgnEn 1023 = true ∧ x.chip.prgnUsed 1023 = true)
    ∧ (let x := pat 1;
      x.live ∧ x.inTurn h1 (.patternLoad 1023 65532 [1, 2, 3, 4] (some 1)) ∧ x.chip.prgnEn 1023 = true ∧ x.chip.prgnUsed 1023 = false
      ∧ 65532 + [1, 2, 3, 4].length ≤ x.chip.prgnSpan 1023 ∧ x.chip.rangeFenced (x.chip.prgnAt 1023 + 65532) [1, 2, 3, 4].length = false)
    ∧ ((st []).inTurn h1 (.patternQueue 136 0 0 0 none) ∧ (st []).chip.engGate 136 = some .badParam ∧ (st []).inTurn h1 (.injectError 136 injRec 1 1 none))
    ∧ (let x := pat 3 id [(1474559 * 65536 + 6, 1)];
      let r := Req.patternQueue 127 1023 0 0 (some 400000000000);
      x.live ∧ x.inTurn h1 r ∧ x.chip.engGate 127 = none ∧ (x.taken h1 r).pushCheck 127 1023 0 ((some 400000000000).map (· % 2 ^ 48)) false = none)
    ∧ (let x := pat 3 id [(1474559 * 65536 + 6, 1)];
      let r := Req.patternQueue 127 1023 0 0 (some 399999999999);
      x.inTurn h1 r ∧ (x.taken h1 r).pushCheck 127 1023 0 ((some 399999999999).map (· % 2 ^ 48)) false = some (.tooLate, some 10))
    ∧ (let x := pat 3 (fun d => d.setPat 127 { Pat.init with inj := some ⟨3, 0, 0, 0, 1, 1, none, false, 0, 0, false⟩ });
      x.live ∧ x.inTurn h1 (.injectError 127 injRec 1 1 none) ∧ x.chip.engGate 127 = none ∧ (x.chip.pat 127).inj ≠ none)
    ∧ (let x := pat 3;
      let r := Req.injectError 127 injRec 65535 255 (some 400000000000);
      x.live ∧ x.inTurn h1 r ∧ x.chip.engGate 127 = none ∧ (x.chip.pat 127).inj = none ∧ injForm injRec = true
      ∧ 0 ≤ shortDiff x.chip.dt (400000000000 % 2 ^ 48) ∧ ofBytes (injRec.take 1) % 8 = 3
      ∧ (x.taken h1 r).injTargetOk 127 3 0 (ofBytes ((injRec.drop 8).take 4)) = true)
    ∧ ((pat 3).inTurn h1 (.injectError 127 [0] 1 1 none) ∧ injForm [0] = false) := by
  simp only [Dev.live, inTurn_iff, Dev.serving]; (repeat' apply And.intro) <;> decide +kernel

theorem wit_EngineAndCaptureRequests_pattern_refused :
    (let x := pat 1;
      x.live ∧ x.inTurn h1 (.patternLoad 1023 65533 [1, 2, 3, 4] none) ∧ x.chip.prgnUsed 1023 = false ∧ x.chip.prgnSpan 1023 < 65533 + [1, 2, 3, 4].length)
    ∧ (let x := pat 1 (fun d => { d with yard := { d.yard with fences := (List.range 32).map (fun p => (p, some ⟨0, none⟩)) } });
      x.live ∧ x.inTurn h1 (.patternLoad 1023 65532 [1, 2, 3, 4] none) ∧ x.chip.prgnEn 1023 = true ∧ x.chip.prgnUsed 1023 = false
      ∧ x.chip.rangeFenced (x.chip.prgnAt 1023 + 65532) [1, 2, 3, 4].length = true)
    ∧ (let x := pat 3;
      x.live ∧ x.inTurn h1 (.injectError 127 injRec 1 1 (some 399999999999)) ∧ x.chip.engGate 127 = none ∧ (x.chip.pat 127).inj = none
      ∧ shortDiff x.chip.dt (399999999999 % 2 ^ 48) < 0)
    ∧ (let l : List Byte := [3, 0, 0, 0, 0, 0, 0, 0, 0xFF, 1, 0, 0, 0, 0, 0, 1]; let r := Req.injectError 127 l 1 1 none; let x := pat 3;
      x.inTurn h1 r ∧ injForm l = true ∧ (x.taken h1 r).injTargetOk 127 (ofBytes (l.take 1) % 8) 0 (ofBytes ((l.drop 8).take 4)) = false) := by
  simp only [Dev.live, inTurn_iff, Dev.serving]; (repeat' apply And.intro) <;> decide +kernel

/-- A verdict with nothing in it. -/
def verdict : Verdict := ⟨true, true, true, ⟨0, false, false, false, 0, 0, 0, 0, [], [], none⟩, []⟩

theorem wit_DeviceRequests_time :
    (let x := st [] (fun d => d.setTim { d.tim with setDone := true });
      x.live ∧ x.inTurn h1 (.timeSet 1) ∧ x.chip.tim.ready = true ∧ x.chip.tim.setDone = true)
    ∧ ((st []).inTurn h1 (.timeSet 400000000001) ∧ (st []).chip.tim.setDone = false ∧ (st []).chip.timSource ≠ 2 ∧ (st []).chip.dt < 400000000001
      ∧ (st []).inTurn h1 (.timeSet 400000000000) ∧ 400000000000 ≤ (st []).chip.dt)
    ∧ ((st []).inTurn h1 (.timeStep none none) ∧ (st []).inTurn h1 (.timeStep (some 1) (some 1)))
    ∧ (∀ a ∈ [(1 : Int), 2 ^ 47 - 1, -1, -4000000000, 2 ^ 47, -4000000001], (st []).inTurn h1 (.timeStep (some a) none) ∧ (st []).chip.tim.back = none)
    ∧ ((stepped 0 (fun t => { t with back := some ⟨2, 0, -1⟩ })).inTurn h1 (.timeStep (some 1) none)
      ∧ (stepped 0 (fun t => { t with back := some ⟨2, 0, -1⟩ })).chip.tim.back ≠ none)
    ∧ ((st []).inTurn h1 (.timeStep none (some 1)) ∧ (st []).chip.tim.stepPend = false)
    ∧ (let x := st [(R.TIM_OFFSET_LO, 1), (R.TIM_OFFSET_HI, 0xFFFF8000)] (fun d => d.setTim { d.tim with stepPend := true });
      x.inTurn h1 (.timeStep none (some 1)) ∧ x.chip.tim.back = none ∧ x.chip.tim.stepPend = true ∧ x.chip.timOffset < 0 ∧ -(2 ^ 47) < x.chip.timOffset)
    ∧ ((st []).inTurn h1 (.fwStage 3 0 [1, 2, 3, 4] none verdict) ∧ (st []).chip.stageStop 3 0 4 = some .badParam
      ∧ (st []).inTurn h1 (.fwStage 1 0 [1, 2, 3] none verdict) ∧ (st []).inTurn h1 (.fwStage 1 0 (List.replicate 1025 0) none verdict)
      ∧ (st []).inTurn h1 (.fwStage 2 4 [1, 2, 3, 4] none verdict) ∧ (st []).chip.stageStop 2 4 4 = none ∧ (none : Option Nat).getD 0 = 0)
    ∧ ((st []).inTurn h1 .fwActivate ∧ ((st []).taken h1 .fwActivate).chip.deliberateStop true = some .notPermitted
      ∧ (st []).inTurn h1 .failoverRequest ∧ ((st []).taken h1 .failoverRequest).chip.deliberateStop false = none) := by
  simp only [Dev.live, inTurn_iff, Dev.serving]; (repeat' apply And.intro) <;> decide +kernel

theorem wit_DeviceRequests_time_refused :
    (let x := st [] (fun d => d.setTim { d.tim with ready := false });
      x.live ∧ x.inTurn h1 (.timeSet 1) ∧ x.inTurn h1 (.timeStep (some 1) none) ∧ x.chip.tim.ready = false)
    ∧ (let x := st [(R.TIM_CFG, 4)] (fun d => d.setTim { d.tim with st := .tracking });
      x.live ∧ x.inTurn h1 (.timeSet 401999999999) ∧ x.inTurn h1 (.timeSet 402000000000) ∧ x.chip.tim.ready = true ∧ x.chip.tim.setDone = false
      ∧ x.chip.timSource = 2 ∧ x.chip.tim.st ≠ .freerun ∧ (2 * ((401999999999 : Int) - x.chip.dt) + 4000000000) / 8000000000 = 0
      ∧ (2 * ((402000000000 : Int) - x.chip.dt) + 4000000000) / 8000000000 = 1)
    ∧ ((st [(R.TIM_CFG, 4)]).inTurn h1 (.timeSet 1) ∧ (st [(R.TIM_CFG, 4)]).chip.tim.st = .freerun)
    ∧ ((none : Option Int).isSome = (none : Option Nat).isSome ∧ (some (1 : Int)).isSome = (some (1 : Nat)).isSome
      ∧ (some (1 : Int)).isSome ≠ (none : Option Nat).isSome)
    ∧ ((st []).inTurn h1 (.timeStep (some 0) none) ∧ (st []).chip.tim.ready = true) := by
  simp only [Dev.live, inTurn_iff, Dev.serving]; (repeat' apply And.intro) <;> decide +kernel

theorem wit_DeviceRequests_stage :
    (∀ f ∈ [none, some 1],
      (st []).inTurn h1 (.fwStage 1 0 (List.replicate 1024 0) f verdict) ∧ (st []).inTurn h1 (.fwStage 2 264136 [1, 2, 3, 4] f verdict))
    ∧ (st []).chip.stageStop 1 0 1024 = none ∧ (st []).chip.stageStop 2 264136 4 = none ∧ (st []).chip.stageStop 2 264140 4 = some .badParam
    ∧ (st []).inTurn h1 (.fwStage 2 264140 [1, 2, 3, 4] none verdict)
    ∧ (∀ b ∈ verdict.failed, 4096 ≤ b) ∧ (st []).chip.stageFits 1024 = true ∧ (some 1).getD 0 ≠ 0
    ∧ (st []).inTurn h1 (.fwStage 1 0 [1, 2, 3, 4] none { verdict with failed := [4095] }) ∧ ({ verdict with failed := [4095] } : Verdict).failed = [4095]
    ∧ (st []).chip.sec.flash.bad.contains 4095 = false ∧ 0 < (st []).chip.sec.flash.spares
    ∧ (trust (fun s => { s with flash := { s.flash with spares := 0 } })).chip.sec.flash.spares = 0 := by
  simp only [inTurn_iff, Dev.serving]; (repeat' apply And.intro) <;> decide +kernel

/-- Once a block is bad, some value of the free value leaves no room. -/
theorem wit_DeviceRequests_stage_full : ∀ b, (Config.freeValue 1 (2 ^ 66 + 1 * 2 ^ 32 + 1024) = b → b = 1#1 →
    (trust (fun s => { s with flash := { s.flash with bad := [4095] } })).chip.stageFits 1024 = false) := by
  intro b h hb
  subst hb
  show ([4095].isEmpty || (decide ((Config.freeValue 1 (2 ^ 66 + [4095].length * 2 ^ 32 + 1024)).toNat = 0))) = false
  rw [show [4095].length = 1 from rfl, h]
  rfl

/-- The ledger's slots are all reserved. -/
def fullLedger : Dev :=
  st [] (fun d => { (d.setStack 3 { Stack.init with ready := true }) with
    ledger := { d.ledger with resv := (List.range 48).map (fun k => ⟨k, 1, 4, 1, 0, 128, 1, 0, true⟩) } })

/-- A reservation, not completed, of this kind. -/
def resv (kind old new : Nat) : Dev :=
  st [] (fun d => { (d.setStack 3 { Stack.init with ready := true }) with ledger := { d.ledger with resv := [⟨0, kind, 4, 1, old, new, 1, 0, false⟩] } })

theorem wit_DeviceRequests_trust :
    (let x := trust (fun s => { s with reports := [(1, [1, 2])] });
      x.live ∧ x.inTurn h1 (.attestPart 1 3) ∧ x.chip.sec.reports.find? (fun z => z.1 = 1) = some (1, [1, 2]) ∧ 1 ≤ 3 ∧ 3 ≤ 3
      ∧ x.inTurn h1 (.attestPart 1 0) ∧ x.inTurn h1 (.attestPart 1 4) ∧ x.inTurn h1 (.attestPart 2 1) ∧ ∀ z ∈ x.chip.sec.reports, z.1 ≠ 2)
    ∧ ((st []).inTurn h1 (.attestNew (List.replicate 31 0)) ∧ (List.replicate 31 (0 : Byte)).length ≠ 32 ∧ (st []).inTurn h1 (.attestNew (List.replicate 32 0)))
    ∧ (let x := trust (fun s => { s with lastRep := some 99000000001 });
      x.inTurn h1 (.attestNew (List.replicate 32 0)) ∧ x.chip.sec.lastRep = some 99000000001 ∧ x.chip.core < 99000000001 + reportTime)
    ∧ (let x := trust (fun s => { s with lastRep := some 99000000000, leaf := List.replicate 4 (2 ^ 20) });
      x.inTurn h1 (.attestNew (List.replicate 32 0)) ∧ ¬ x.chip.core < 99000000000 + reportTime ∧ 4 ≤ x.chip.lmsTree)
    ∧ ((st []).chip.lmsTree < 4 ∧ (st []).chip.sec.leaf.length = 4)
    ∧ ((st []).inTurn h1 (.spareSubstitute 0 0 none) ∧ (st []).inTurn h1 (.spareSubstitute 4 0 none) ∧ (st []).inTurn h1 (.spareSubstitute 1 136 none)
      ∧ (st []).inTurn h1 (.spareSubstitute 1 135 none) ∧ (st []).chip.svc.spares.contains 135 = true)
    ∧ (let r := Req.spareSubstitute 1 127 none;
      let d := ((st []).taken h1 r).chip;
      (st []).inTurn h1 r ∧ 127 < 136 ∧ (st []).chip.svc.spares.contains 127 = false ∧ (st []).chip.svc.retired.contains 127 = false
      ∧ (st []).chip.subBusy 127 = false ∧ (st []).chip.ganged 127 = false ∧ d.svc.spares.find? d.spareOk = some 128
      ∧ (d.subStart 127 128 4 1 h1.session).isSome = true)
    ∧ (let x := st [] (fun d => d.setSvc { d.svc with subs := [⟨127, 128, 0, 0, none⟩] });
      x.inTurn h1 (.spareSubstitute 1 127 none) ∧ x.chip.subBusy 127 = true)
    ∧ (let x := st [] (fun d => d.setSvc { d.svc with spares := [] });
      let r := Req.spareSubstitute 1 127 none;
      x.inTurn h1 r ∧ (x.taken h1 r).chip.svc.spares.find? (x.taken h1 r).chip.spareOk = none)
    ∧ ((st []).inTurn h1 (.tandemJoin 2 1) ∧ (st []).inTurn h1 (.tandemJoin 0 0) ∧ (st []).inTurn h1 (.tandemJoin 0 9) ∧ (st []).chip.tdm.ready = true
      ∧ (st []).inTurn h1 (.tandemJoin 1 1) ∧ (st []).chip.lanesUp < 1 ∧ (st []).chip.tdmSt = 0)
    ∧ (let x := st [] (fun d => d.setTdm { d.tdm with up := [0, 1, 2, 3, 4, 5, 6, 7] });
      x.live ∧ x.inTurn h1 (.tandemJoin 1 8) ∧ x.chip.tdmSt = 0 ∧ 8 ≤ x.chip.lanesUp)
    ∧ (∀ k ∈ [1, 2, 3], (st [(R.TDM_STATUS, k)]).inTurn h1 (.tandemJoin 0 1) ∧ (st [(R.TDM_STATUS, k)]).chip.tdmSt = k)
    ∧ ((st []).inTurn h1 .tandemSplit ∧ (st [(R.TDM_STATUS, 2)]).inTurn h1 .tandemSplit ∧ (st [(R.TDM_STATUS, 2)]).chip.tdmSt ≠ 0) := by
  simp only [Dev.live, inTurn_iff, Dev.serving]; (repeat' apply And.intro) <;> decide +kernel

theorem wit_DeviceRequests_spares :
    ((st []).live ∧ (st []).chip.freeSlot = some 0 ∧ fullLedger.live ∧ fullLedger.chip.freeSlot = none)
    ∧ (∀ r ∈ [Req.spareSubstitute 1 127 none, .spareSubstitute 1 127 (some 135), .spareSubstitute 2 127 none, .spareSubstitute 2 127 (some 127),
        .spareSubstitute 3 22 none, .spareSubstitute 3 22 (some 23), .spareSubstitute 3 0x11F none, .spareSubstitute 3 0x120 none],
      (st []).inTurn h1 r ∧ fullLedger.inTurn h1 r)
    ∧ ((st []).chip.svc.spares.find? (st []).chip.spareOk = some 128 ∧ (st []).chip.spareOk 135 = true
      ∧ (st []).chip.svc.spares.contains 127 = false ∧ (st []).chip.svc.retired.contains 127 = false)
    ∧ (st [] (fun d => { d with engRdy := [] })).inTurn h1 (.spareSubstitute 1 127 (some 135)) ∧ (st [] (fun d => { d with engRdy := [] })).chip.spareOk 135 = false
    ∧ (let x := st [(R.SWB_RX_BIND 127, 0x200)]; x.inTurn h1 (.spareSubstitute 1 127 none) ∧ x.chip.ganged 127 = true ∧ x.chip.subBusy 127 = false)
    ∧ (let x := st [] (fun d => d.setSvc { d.svc with retired := [127] }); x.inTurn h1 (.spareSubstitute 1 127 none) ∧ x.chip.svc.retired.contains 127 = true)
    ∧ ((st []).inTurn h1 (.spareSubstitute 1 127 (some 127)) ∧ (st []).inTurn h1 (.spareSubstitute 2 128 none) ∧ (st []).inTurn h1 (.spareSubstitute 2 95 none)
      ∧ ((st []).chip.stack (95 / 32)).ready = false) := by
  simp only [Dev.live, inTurn_iff, Dev.serving]; (repeat' apply And.intro) <;> decide +kernel

theorem wit_DeviceRequests_channels :
    (((st []).chip.stack (125 / 32)).ready = true ∧ ((st []).chip.stack (125 / 32)).map.contains (125 % 32) = true
      ∧ (st []).inTurn h1 (.spareSubstitute 2 125 none) ∧ (st []).chip.freePcs (125 / 32) = [30, 31] ∧ ((st []).chip.stack 3).mig = none
      ∧ ((st []).chip.stack 3).waiting = [] ∧ (st []).chip.ledger.resv = [])
    ∧ ((st []).inTurn h1 (.spareSubstitute 2 125 (some 127)) ∧ ((st []).chip.stack (125 / 32)).spares.contains (127 % 32) = true)
    ∧ ((st []).inTurn h1 (.spareSubstitute 2 125 (some 31)) ∧ 31 / 32 ≠ 125 / 32)
    ∧ ((st []).inTurn h1 (.spareSubstitute 2 127 none) ∧ ((st []).chip.stack (127 / 32)).map.contains (127 % 32) = false)
    ∧ (let x := mig 0; x.inTurn h1 (.spareSubstitute 2 125 none) ∧ (x.chip.stack 3).mig = some ⟨29, 29, 31, 0, true, 0⟩ ∧ 125 % 32 = 29
      ∧ (x.chip.stack 3).map.contains 29 = true)
    ∧ (let x := (mig 0).on (fun d => d.setStack 3 { d.stack 3 with mig := none, retired := [30, 31] });
      x.inTurn h1 (.spareSubstitute 2 125 none) ∧ (x.chip.stack 3).ready = true ∧ x.chip.freePcs 3 = [] ∧ (x.chip.freePcs 3).head? = none)
    ∧ (let x := resv 2 125 127;
      x.inTurn h1 (.spareSubstitute 2 125 none) ∧ (x.chip.ledger.resv.any (fun v => v.kind = 2 && v.old = 125 && !v.ready)) = true)
    ∧ (sparePort 22 = some 23 ∧ sparePort 0x11F = some 0x127 ∧ sparePort 0x120 = none ∧ (st []).chip.portTaken 22 = false
      ∧ (st []).chip.spareUsed 23 = false ∧ (0x120 < 0x124))
    ∧ ((st []).inTurn h1 (.spareSubstitute 3 23 none) ∧ ¬ (23 < 23 ∨ (0x100 ≤ 23 ∧ 23 < 0x124)) ∧ (st []).inTurn h1 (.spareSubstitute 3 22 (some 22))
      ∧ some 22 ≠ sparePort 22)
    ∧ (let x := resv 3 22 23;
      x.inTurn h1 (.spareSubstitute 3 22 none) ∧ (x.chip.ledger.resv.any (fun v => v.kind = 3 && v.old = 22 && !v.ready)) = true
      ∧ x.inTurn h1 (.spareSubstitute 3 21 none) ∧ x.chip.spareUsed 23 = true ∧ x.chip.portTaken 22 = false)
    ∧ (let x := st [] (fun d => { d with yard := { d.yard with mSub := some 22 } });
      x.inTurn h1 (.spareSubstitute 3 22 none) ∧ x.chip.portTaken 22 = true) := by
  simp only [inTurn_iff, Dev.serving]; (repeat' apply And.intro) <;> decide +kernel

theorem wit_DeviceRequests_tandem :
    (let x := st [] (fun d => d.setTdm { d.tdm with ready := false });
      x.live ∧ x.inTurn h1 (.tandemJoin 0 1) ∧ x.chip.tdm.ready = false)
    ∧ (∀ r ∈ [0, 1],
      let x := st [(R.TDM_STATUS, 4)] (fun d => d.setTdm { d.tdm with up := [0, 1, 2, 3, 4, 5, 6, 7] });
      x.live ∧ x.inTurn h1 (.tandemJoin r 8) ∧ x.chip.tdmSt = 4 ∧ 8 ≤ x.chip.lanesUp ∧ decide (r = 1 ∧ x.chip.follower = false) = decide (r = 1)) := by
  simp only [Dev.live, inTurn_iff, Dev.serving]; (repeat' apply And.intro) <;> decide +kernel

theorem wit_RegisterAccesses :
    ((st []).live ∧ (st []).chip.accessCheck 1 1 true = .error .badAlign ∧ (st []).chip.accessCheck 1 0x400000 true = .error .decodeError
      ∧ (st []).chip.accessCheck 1 0x400000 false = .error .decodeError)
    ∧ (st [] (fun d => { d with yard := { d.yard with fences := [(32, some ⟨0, none⟩)] } })).chip.accessCheck 1 0 true = .error .targetReset
    ∧ ((st [(R.GLB_LOCK, 7)]).chip.accessCheck 1 R.GLB_LOCK.addr true = .ok R.GLB_LOCK ∧ (st [(R.GLB_LOCK, 7)]).chip.lockedWrite R.GLB_LOCK 3 = true
      ∧ (st [(R.GLB_LOCK, 7)]).chip.rd R.GLB_LOCK &&& ~~~ (3 : Word) &&& 7 ≠ 0 ∧ (st [(R.GLB_LOCK, 3)]).chip.rd R.GLB_LOCK &&& ~~~ (7 : Word) &&& 7 = 0)
    ∧ (let x := st [(R.LN_CTRL 127, 1)];
      x.live ∧ x.chip.accessCheck 1 (R.LN_CFG 127).addr true = .ok (R.LN_CFG 127) ∧ x.chip.lockedWrite (R.LN_CFG 127) 2 = false
      ∧ (x.chip.cdRefused (R.LN_CFG 127) 2).1 = true)
    ∧ ((st []).chip.accessCheck 1 R.YRD_CFG.addr true = .ok R.YRD_CFG ∧ (st []).chip.lockedWrite R.YRD_CFG 0xFFFFFFFF = false
      ∧ ((st []).chip.cdRefused R.YRD_CFG 0xFFFFFFFF).1 = false ∧ R.YRD_CFG.blk = .yrd ∧ R.YRD_CFG.row.isSome = true)
    ∧ ((st []).chip.accessCheck 1 (R.TRB_TX 16383).addr true = .ok (R.TRB_TX 16383) ∧ (R.TRB_TX 16383).off ≠ 0)
    ∧ ((st []).chip.accessCheck 1 (⟨.eng, 135, 0x274⟩ : RegId).addr true = .ok ⟨.eng, 135, 0x274⟩ ∧ (⟨.eng, 135, 0x274⟩ : RegId).row = none
      ∧ (st []).chip.subBusy 135 = false)
    ∧ (st []).chip.fenced 32 = false := by
  simp only [Dev.live, ok_iff, err_iff]; decide +kernel

theorem wit_OwnerOnlyRegisters :
    (st []).live ∧ (∃ s ∈ (st []).chip.host.sessions, s.num = 2 ∧ s.owner = false) ∧ (st []).chip.fenced 32 = false
    ∧ (∀ s ∈ (st []).chip.host.sessions, s.num = 1 → s.owner = true) ∧ 1 ≠ 0 ∧ (∃ s ∈ (st []).chip.host.sessions, s.num = 1 ∧ s.owner = true)
    ∧ R.GTH_CFG ∈ [R.GLB_LOCK, R.GLB_PWR_CTRL, R.SVC_CFG, R.LED_UID_CMD, R.PAV_CKPT_CFG, R.GTH_CFG] := by
  simp only [Dev.live]; decide +kernel

theorem wit_ContextsWithChildrenStayEnabled :
    (let x := st [(R.TRB_CFG 0, 1 + 16383 * 2 ^ 14), (R.TRB_CFG 16383, vc4 + 1)];
      16383 < 16384 ∧ 0 < 16384 ∧ x.live ∧ x.allows 1 (R.TRB_CFG 16383) (setFld (w32 vc4) 0 0 0) ∧ x.chip.ctxEn 16383 = true ∧ 0 ≠ 16383
      ∧ x.chip.ctxEn 0 = true ∧ x.chip.ctxTop 0 = false ∧ x.chip.ctxParent 0 = 16383) := by
  simp only [Dev.live, Dev.allows, ok_iff]; decide +kernel

theorem wit_EngineLifecycle :
    (let x := st [(R.LN_CFG 127, 1), (R.SWB_RX_BIND 127, 0x100 + 127)];
      x.live ∧ 127 < 136 ∧ x.allows 1 (R.ENG_CTRL 127) (setFld 0 1 0 1) ∧ x.chip.engEn 127 = false ∧ x.chip.subBusy 127 = false
      ∧ x.chip.engCheck 127 = none)
    ∧ ((st []).allows 1 (R.ENG_CTRL 135) (setFld 0 1 0 1) ∧ (st []).chip.engEn 135 = false ∧ (st []).chip.subBusy 135 = false
      ∧ (st []).chip.engCheck 135 = some (.notReady, none))
    ∧ (let x := st [(R.OHP_CFG 127, 0)];
      x.live ∧ x.allows 1 (R.ENG_CTRL 127) (setFld 0 1 0 1) ∧ x.chip.engEn 127 = false ∧ x.chip.subBusy 127 = false ∧ x.chip.engReady 127 = true
      ∧ x.chip.gangOk 127 = true ∧ x.chip.huntCfgOk 127 = true ∧ x.chip.rf (R.OHP_CFG 127) 23 20 = 0)
    ∧ ((eng127 (hunt .inFrame)).allows 1 (R.ENG_CTRL 127) (setFld 1 1 0 0) ∧ (eng127 (hunt .inFrame)).chip.subBusy 127 = false
      ∧ (eng127 (hunt .inFrame)).chip.engEn 127 = true ∧ (eng127 (hunt .inFrame)).chip.ganged 127 = false)
    ∧ ((st []).allows 1 (R.ENG_CTRL 135) (setFld 1 1 0 0) ∧ (st []).chip.engEn 135 = false)
    ∧ ((st []).allows 1 (R.ENG_CTRL 128) (setFld 0 1 1 1) ∧ (st []).chip.svc.spares.contains 128 = true)
    ∧ ((st []).allows 1 (R.ENG_CTRL 127) (setFld 0 1 1 1) ∧ (st []).chip.svc.spares.contains 127 = false ∧ (st []).chip.svc.retired.contains 127 = false
      ∧ (st []).chip.subBusy 127 = false)
    ∧ (let x := st [] (fun d => d.setSvc { d.svc with subs := [⟨127, 128, 0, 0, none⟩] });
      x.live ∧ x.allows 1 (R.ENG_CTRL 127) (setFld 0 1 1 1) ∧ x.chip.svc.spares.contains 127 = false ∧ x.chip.svc.retired.contains 127 = false
      ∧ x.chip.subBusy 127 = true)
    ∧ (let x := st [] (fun d => d.setPwr { d.pwr with engT := [(127, (0, 100000000000))] });
      x.live ∧ SMap.get (0, 0) x.chip.pwr.engT 127 = (0, 100000000000) ∧ x.chip.svc.retired.contains 127 = false ∧ 100000000000 ≠ 0
      ∧ 100000000000 ≤ x.chip.core)
    ∧ ((SMap.get (0, 0) (st []).chip.pwr.engT 127).2 = 0
      ∧ (let x := st [] (fun d => d.setPwr { d.pwr with engT := [(127, (0, 100000000001))] });
        SMap.get (0, 0) x.chip.pwr.engT 127 = (0, 100000000001) ∧ x.chip.core < 100000000001))
    ∧ (16 < 17 ∧ (st []).allows 1 R.GLB_PWR_CTRL (setFld ((st []).chip.rd R.GLB_PWR_CTRL) 16 16 1) ∧ 16 ∉ (st []).chip.pwr.off
      ∧ (∀ k, (k < 17 ∧ (k = 16 ∨ (st []).chip.rb R.GLB_PWR_CTRL k = true) ∧ k ∉ (st []).chip.pwr.off) → (st []).chip.clusterUsed k = false)
      ∧ (st []).chip.svc.retired.contains (8 * 16 + 0) = false)
    ∧ (let x := eng127 (hunt .inFrame);
      x.live ∧ x.allows 1 R.GLB_PWR_CTRL (setFld (x.chip.rd R.GLB_PWR_CTRL) 15 15 1)
      ∧ ∃ k, (k < 17 ∧ (k = 15 ∨ x.chip.rb R.GLB_PWR_CTRL k = true) ∧ k ∉ x.chip.pwr.off) ∧ x.chip.clusterUsed k = true)
    ∧ (let x := st [(R.GLB_PWR_CTRL, 2 ^ 16)] (fun d => d.setPwr { d.pwr with off := [16] });
      x.live ∧ x.allows 1 R.GLB_PWR_CTRL (setFld (x.chip.rd R.GLB_PWR_CTRL) 16 16 0) ∧ 16 ∈ x.chip.pwr.off
      ∧ (∀ k, (k < 17 ∧ k ≠ 16 ∧ x.chip.rb R.GLB_PWR_CTRL k = true ∧ k ∉ x.chip.pwr.off) → x.chip.clusterUsed k = false)
      ∧ (∀ k, ¬ (k < 17 ∧ k ≠ 16 ∧ x.chip.rb R.GLB_PWR_CTRL k = true ∧ k ∉ x.chip.pwr.off))
      ∧ x.chip.svc.retired.contains (8 * 16 + 7) = false) := by
  simp only [Dev.live, Dev.allows, ok_iff]
  refine ⟨?_, ?_, ?_, ?_, ?_, ?_, ?_, ?_, ?_, ?_, ⟨by decide, by decide +kernel, by decide +kernel, fun k hk => ?_, by decide +kernel⟩,
    ⟨by decide +kernel, by decide +kernel, 15, by decide +kernel⟩,
    ⟨by decide +kernel, by decide +kernel, by decide +kernel, fun k hk => ?_, fun k hk => ?_, by decide +kernel⟩⟩
  case refine_11 => exact (by decide +kernel : ∀ k < 17, (k = 16 ∨ (st []).chip.rb R.GLB_PWR_CTRL k = true) → (st []).chip.clusterUsed k = false) k hk.1 hk.2.1
  case refine_12 => exact absurd hk.2.2.1 (by simpa using (by decide +kernel : ∀ k < 17, k ≠ 16 → (st [(R.GLB_PWR_CTRL, 2 ^ 16)] (fun d => d.setPwr { d.pwr with off := [16] })).chip.rb R.GLB_PWR_CTRL k = false) k hk.1 hk.2.1)
  case refine_13 => exact absurd hk.2.2.1 (by simpa using (by decide +kernel : ∀ k < 17, k ≠ 16 → (st [(R.GLB_PWR_CTRL, 2 ^ 16)] (fun d => d.setPwr { d.pwr with off := [16] })).chip.rb R.GLB_PWR_CTRL k = false) k hk.1 hk.2.1)
  all_goals (repeat' apply And.intro) <;> decide +kernel

/-- O55, the forms the words above leave: enabled already, under a substitution, retired, a cluster beside it in use. -/
theorem wit_EngineLifecycle_forms :
    (let x := eng127 (hunt .inFrame);
      x.live ∧ x.allows 1 (R.ENG_CTRL 127) (setFld 1 1 0 1) ∧ x.chip.engEn 127 = true ∧ x.chip.subBusy 127 = false)
    ∧ (let x := st [] (fun d => d.setSvc { d.svc with subs := [⟨127, 128, 0, 0, none⟩] });
      x.live ∧ x.chip.subBusy 127 = true ∧ x.allows 1 (R.ENG_CTRL 127) (setFld 0 1 0 1) ∧ x.allows 1 (R.ENG_CTRL 127) (setFld 0 1 0 0))
    ∧ (let x := st [] (fun d => (d.setSvc { d.svc with retired := [127] }).setPwr { d.pwr with engT := [(127, (0, 1))] });
      x.live ∧ x.chip.svc.retired.contains 127 = true)
    ∧ (let x := st [(R.GLB_PWR_CTRL, 2 ^ 15), (R.ENG_CTRL 127, 1)];
      x.live ∧ x.allows 1 R.GLB_PWR_CTRL (setFld (x.chip.rd R.GLB_PWR_CTRL) 16 16 0) ∧ 15 < 17 ∧ 15 ≠ 16
      ∧ x.chip.rb R.GLB_PWR_CTRL 15 = true ∧ 15 ∉ x.chip.pwr.off ∧ x.chip.clusterUsed 15 = true) := by
  simp only [Dev.live, Dev.allows, ok_iff]; (repeat' apply And.intro) <;> decide +kernel

/-- The Gatehouse with these changes. -/
def gate (f : Gth → Gth) (p : Pav → Pav := id) (l : List (RegId × Nat) := []) : Dev := st l (fun d => (d.setGth (f d.gth)).setPav (p d.pav))

theorem wit_FailoverSupervision :
    ((st []).live ∧ (st []).chip.pavRuns = true ∧ (gate id (fun p => { p with dead := true })).chip.pavRuns = false)
    ∧ (let x := gate (fun g => { g with beat := 100000000000 - 300000 }) id [(R.GTH_CFG, 3)];
      x.live ∧ x.chip.gth.st = .running ∧ x.chip.pav.booted = true ∧ x.chip.gth.beat + x.chip.rf R.GTH_CFG 3 0 * 100000 ≤ x.chip.core
      ∧ x.chip.pav.stby = .ready)
    ∧ (let x := gate (fun g => { g with beat := 100000000000 - 299999 }) (fun p => { p with stby := .none }) [(R.GTH_CFG, 3)];
      x.live ∧ x.chip.gth.st = .running ∧ x.chip.pav.booted = true ∧ x.chip.core < x.chip.gth.beat + x.chip.rf R.GTH_CFG 3 0 * 100000
      ∧ x.chip.pav.stby ≠ .ready)
    ∧ (let x := gate (fun g => { g with st := .failover, declT := 99998000000 });
      x.live ∧ x.chip.gth.st = .failover ∧ x.chip.gth.asked = none ∧ x.chip.gth.declT + 2000000 ≤ x.chip.core ∧ x.chip.standbyOk = true
      ∧ x.chip.core ≤ x.chip.gth.declT + 2000000 ∧ x.chip.gth.held = [] ∧ ∀ k < 2, x.chip.slotValid ⟨true, true, none⟩ k = false)
    ∧ (let x := gate (fun g => { g with st := .failover, declT := 99998000001 });
      x.live ∧ x.chip.core < x.chip.gth.declT + 2000000)
    ∧ (let x := gate (fun g => { g with st := .failover, asked := some (h1, true) });
      x.live ∧ x.chip.gth.st = .failover ∧ x.chip.gth.asked = some (h1, true) ∧ x.chip.gth.held = [])
    ∧ (let x := gate (fun g => { g with st := .failover, declT := 99997999999 });
      x.live ∧ x.chip.gth.declT + 2000000 < x.chip.core)
    ∧ (let x := gate id (fun p => { p with since := 256 }) [(R.PAV_CKPT_CFG, 256)];
      x.live ∧ x.chip.pavRuns = true ∧ x.chip.pav.ckpts.length = 2 ∧ x.chip.rf R.PAV_CKPT_CFG 8 0 ≤ x.chip.pav.since)
    ∧ ((st []).chip.pav.since = 0 ∧ 0 < (st []).chip.rf R.PAV_CKPT_CFG 8 0)
    ∧ (let x := gate (fun g => { g with test := some (1, 99999960000, false) });
      x.live ∧ x.chip.gth.test = some (1, 99999960000, false) ∧ 99999960000 + 40000 ≤ x.chip.core)
    ∧ (let x := gate (fun g => { g with test := some (1, 99999960001, false) });
      x.chip.gth.test = some (1, 99999960001, false) ∧ x.chip.core < 99999960001 + 40000)
    ∧ (gate (fun g => { g with test := some (1, 0, true) })).chip.gth.test = some (1, 0, true)
    ∧ (st []).chip.gth.test = none := by
  simp only [Dev.live]; (repeat' apply And.intro) <;> decide +kernel

/-- O56, the forms the words above leave: not running, not booted, a standby image that fails, a checkpoint due by its
interval, the two outcomes of a self-test, a fatal error while a takeover is asked for by a request and while it is not. -/
theorem wit_FailoverSupervision_forms :
    (let x := gate (fun g => { g with st := .hold });
      x.live ∧ x.chip.gth.st ≠ .running ∧ x.chip.gth.st ≠ .failover)
    ∧ (let x := gate id (fun p => { p with booted := false });
      x.live ∧ x.chip.pav.booted = false ∧ x.chip.gth.st ≠ .failover ∧ x.chip.pavRuns = false)
    ∧ (let x := gate (fun g => { g with st := .failover, asked := some (h1, false) });
      x.live ∧ x.chip.gth.st = .failover ∧ x.chip.gth.asked = some (h1, false) ∧ x.chip.gth.held = []
      ∧ x.chip.gth.declT + 2000000 ≤ x.chip.core)
    ∧ (let x := gate (fun g => { g with st := .failover });
      x.live ∧ x.chip.gth.st = .failover ∧ x.chip.gth.asked = none)
    ∧ (let x := st [] (fun d => (d.setGth { d.gth with st := .failover }).setSec { d.sec with fuse := { d.sec.fuse with rollback := 0xFFFF } });
      x.live ∧ x.chip.gth.st = .failover ∧ x.chip.standbyOk = false)
    ∧ (let x := gate id (fun p => { p with since := 1, sealT := 99996000000 }) [(R.PAV_CKPT_CFG, 256 + 4 * 2 ^ 16)];
      x.live ∧ x.chip.pavRuns = true ∧ x.chip.pav.ckpts.length = 2
      ∧ 0 < x.chip.pav.since ∧ x.chip.pav.sealT + x.chip.rf R.PAV_CKPT_CFG 23 16 * 1000000 ≤ x.chip.core)
    ∧ (let x := gate id (fun p => { p with since := 1, sealT := 99996000001 }) [(R.PAV_CKPT_CFG, 256 + 4 * 2 ^ 16)];
      x.live ∧ ¬ (x.chip.rf R.PAV_CKPT_CFG 8 0 ≤ x.chip.pav.since
        ∨ (0 < x.chip.pav.since ∧ x.chip.pav.sealT + x.chip.rf R.PAV_CKPT_CFG 23 16 * 1000000 ≤ x.chip.core)))
    ∧ (let x := gate (fun g => { g with test := some (1, 0, true) });
      x.live ∧ x.chip.imageOk (if x.chip.standbyImage.version = x.chip.activeImage.version then x.chip.standbyImage else x.chip.activeImage) = true)
    ∧ (let x := st [] (fun d => (d.setGth { d.gth with test := some (1, 0, true) }).setSec
          { d.sec with fuse := { d.sec.fuse with rollback := 0xFFFF } });
      x.live ∧ x.chip.gth.test = some (1, 0, true)
      ∧ x.chip.imageOk (if x.chip.standbyImage.version = x.chip.activeImage.version then x.chip.standbyImage else x.chip.activeImage) = false) := by
  simp only [Dev.live]; (repeat' apply And.intro) <;> decide +kernel

/-- The bridge in this state of TDM_STATUS with these lanes up, tandem lane 7 locked. -/
def brdg (stat : Nat) (f : Tdm → Tdm) (g : Chip → Chip := id) : Dev :=
  st [(R.TDM_STATUS, stat), (R.TDM_CFG, 4 + 100 * 2 ^ 8)] (fun d => g ((d.setTdm (f d.tdm)).setLane 139 { Lane.init with lock := true }))

theorem wit_TandemBridge :
    (let x := brdg 3 (fun t => { t with up := [0, 1, 2, 3, 4, 5, 6] });
      7 < 8 ∧ x.live ∧ x.chip.tdm.ready = true ∧ (x.chip.lane (132 + 7)).lock = true ∧ (x.chip.lane (132 + 7)).los = false ∧ 7 ∉ x.chip.tdm.up
      ∧ x.chip.tdmSt = 3 ∧ x.chip.tdm.up.length = 7 ∧ 15 < 16)
    ∧ ((brdg 1 id).chip.tdmSt < 2 ∧ ((st []).chip.lane (132 + 7)).lock = false)
    ∧ (let x := brdg 2 (fun t => { t with up := [0, 1, 2, 3, 4, 5, 6, 7] });
      x.live ∧ 7 ∈ x.chip.tdm.up ∧ 16 ≤ 16 ∧ x.chip.tdmSt = 2 ∧ x.chip.tdm.up.length ≤ 8)
    ∧ ((st []).chip.tdmSt ≠ 1 ∧ (brdg 1 id).live ∧ (brdg 1 id).chip.tdmSt = 1 ∧ false = (brdg 1 id).chip.follower
      ∧ 0x10001 ≠ (brdg 1 id).chip.activeImage.version ∧ true ≠ (brdg 1 id).chip.follower ∧ 0x10000 = (brdg 1 id).chip.activeImage.version)
    ∧ (let x := brdg 1 (fun t => { t with pendT := 90000000000 });
      x.live ∧ x.chip.tdmSt = 1 ∧ x.chip.tdm.pendT + 10000000000 ≤ x.chip.core)
    ∧ (brdg 1 (fun t => { t with pendT := 90000000001 })).chip.core < (brdg 1 (fun t => { t with pendT := 90000000001 })).chip.tdm.pendT + 10000000000
    ∧ (let x := brdg 2 (fun t => { t with shortT := some 99999900000 });
      x.live ∧ x.chip.tdm.shortT = some 99999900000 ∧ x.chip.tdmSt = 2 ∧ 99999900000 + x.chip.rf R.TDM_CFG 15 8 * 1000 ≤ x.chip.core
      ∧ ∀ z ∈ x.chip.host.sessions, z.wait = none)
    ∧ (brdg 3 id).chip.tdmSt = 3
    ∧ (let z : Session := ⟨1, true, 1, 0, 0, [], [], false, some (h1, true)⟩;
      let x := brdg 2 (fun t => { t with shortT := some 99999900000 }) (fun d => d.setHost { d.host with sessions := [z] });
      x.live ∧ x.chip.tdm.shortT = some 99999900000 ∧ x.chip.pavRuns = true ∧ x.chip.host.sessions = [z] ∧ z.wait = some (h1, true) ∧ z.held = []
      ∧ h1.session = z.num ∧ x.chip.session 1 = some z ∧ h1.seq < 0xFFFFFFFF ∧ x.chip.waitReq h1 ≠ .sessionClose)
    ∧ (let x := brdg 2 (fun t => { t with shortT := some 99999900001 });
      x.chip.tdm.shortT = some 99999900001 ∧ x.chip.core < 99999900001 + x.chip.rf R.TDM_CFG 15 8 * 1000)
    ∧ ((st []).chip.session 1 = some ⟨1, true, 1, 0, 0, [], [], false, none⟩)
    ∧ ((st []).live ∧ (st []).allows 1 R.TDM_CFG 0 ∧ (st []).chip.tdmSt = 0 ∧ (brdg 2 id).allows 1 R.TDM_CFG 9 ∧ (brdg 2 id).chip.tdmSt ≠ 0)
    ∧ (let x := st [(R.TDM_XMEM_IDX, 63)];
      x.live ∧ x.chip.accessCheck 1 R.TDM_XMEMBER.addr true = .ok R.TDM_XMEMBER ∧ x.chip.rf R.TDM_XMEM_IDX 5 0 = 63 ∧ x.chip.xmemberOk 63 0x3FFFFF = true)
    ∧ (let x := st [(R.TDM_XMEM_IDX, 63)] (fun d => d.setGroup 127 { Group.init with st := .nr });
      x.live ∧ x.chip.accessCheck 1 R.TDM_XMEMBER.addr true = .ok R.TDM_XMEMBER ∧ x.chip.xmemberOk 63 (w32 (127 + 2 ^ 21)) = false) := by
  simp only [Dev.live, Dev.allows, ok_iff]; (repeat' apply And.intro) <;> decide +kernel

/-- O57, the forms the words above leave: a lane down for 10 ms exactly, for less, the split hold that regains its lanes,
a lane that stays up, a forwarded request that a stopped processor holds. -/
theorem wit_TandemBridge_forms :
    (let x := brdg 4 (fun t => { t with up := [0, 1, 2], downT := [(7, some 99999000000)] });
      x.live ∧ x.chip.tdm.ready = true ∧ (x.chip.lane (132 + 7)).lock = true ∧ (x.chip.lane (132 + 7)).los = false ∧ 7 ∉ x.chip.tdm.up
      ∧ (∀ t, SMap.get none x.chip.tdm.downT 7 = some t → t + 1000000 ≤ x.chip.core)
      ∧ x.chip.tdmSt = 4 ∧ x.chip.tdm.up.length < x.chip.minLanes ∧ x.chip.minLanes ≤ x.chip.tdm.up.length + 1)
    ∧ (let x := brdg 4 (fun t => { t with up := [0, 1, 2], downT := [(7, some 99999000001)] });
      x.live ∧ ¬ ∀ t, SMap.get none x.chip.tdm.downT 7 = some t → t + 1000000 ≤ x.chip.core)
    ∧ (let x := brdg 0 (fun t => { t with up := [] });
      x.live ∧ (x.chip.tdmSt ≠ 3 ∨ x.chip.tdm.up.length ≠ 7) ∧ x.chip.tdmSt ≠ 2
      ∧ ¬ (7 ∈ x.chip.tdm.up ∧ ((x.chip.lane (132 + 7)).los = true ∨ 16 ≤ 15)))
    ∧ (let x := brdg 2 id;
      x.live ∧ x.chip.tdm.shortT = none ∧ x.chip.session 1 = some ⟨1, true, 1, 0, 0, [], [], false, none⟩)
    ∧ (gate id (fun p => { p with dead := true })).chip.pavRuns = false
    ∧ (st []).chip.session 3 = none := by
  simp only [Dev.live]
  refine ⟨⟨?_, ?_, ?_, ?_, ?_, fun t h => ?_, ?_, ?_, ?_⟩, ⟨?_, fun h => ?_⟩, ?_, ?_, ?_, ?_⟩
  case refine_6 =>
    have e : SMap.get none (brdg 4 (fun t => { t with up := [0, 1, 2], downT := [(7, some 99999000000)] })).chip.tdm.downT 7 = some 99999000000 := by
      decide +kernel
    cases e.symm.trans h; decide +kernel
  case refine_11 => exact absurd (h 99999000001 (by decide +kernel)) (by decide +kernel)
  all_goals (repeat' apply And.intro) <;> decide +kernel

/-- The service master with these changes, engine 127 enabled. -/
def svc (f : Svc → Svc) (l : List (RegId × Nat) := []) : Dev :=
  st ([(R.ENG_CTRL 127, 1), (R.SVC_CFG, 1 + 100 * 2 ^ 8)] ++ l) (fun d => d.setSvc (f d.svc))

theorem wit_RepairAndUnderstudy_repair :
    ((st []).live ∧ 0xFFF < 4096 ∧ (st []).allows 1 R.LED_UID_CMD (w32 (0xFFF % 2 ^ 12 + 2 ^ 31)))
    ∧ ((brdg 1 id).live ∧ (brdg 1 id).allows 1 R.LED_UID_CMD (w32 (0xFFE % 2 ^ 12 + 2 ^ 31)) ∧ 0xFFE ≠ 0xFFF ∧ (brdg 1 id).chip.tdmSt ≠ 0)
    ∧ (trust (fun s => { s with fuse := { s.fuse with uidLeft := 0 } })).chip.sec.fuse.uidLeft = 0
    ∧ ((st []).chip.tdmSt = 0 ∧ (st []).chip.sec.fuse.uidLeft ≠ 0 ∧ 1 = (st []).chip.sec.fuse.unitId ∧ 0xFFE ≠ (st []).chip.sec.fuse.unitId
      ∧ (st []).allows 1 R.LED_UID_CMD (w32 (0xFFE % 2 ^ 12 + 2 ^ 31)) ∧ (st []).allows 1 R.LED_UID_CMD (w32 (1 % 2 ^ 12 + 2 ^ 31)))
    ∧ (let r : Resv := ⟨47, 1, 4, 1, 0, 128, 1, 0, true⟩;
      let x := st [] (fun d => { d with ledger := ⟨[], [r], some 99999000000⟩ });
      x.live ∧ x.chip.ledger.burn = some 99999000000 ∧ x.chip.ledger.resv.find? (fun r => r.ready) = some r ∧ 99999000000 + 1000000 ≤ x.chip.core)
    ∧ (let r : Resv := ⟨47, 1, 4, 1, 0, 128, 1, 0, true⟩;
      let x := st [] (fun d => { d with ledger := ⟨[], [r], some 99999000001⟩ });
      x.chip.ledger.burn = some 99999000001 ∧ x.chip.core < 99999000001 + 1000000)
    ∧ (let s : EngSub := ⟨127, 128, 0, 99900000000, none⟩;
      let x := svc (fun v => { v with subs := [s] });
      127 < 136 ∧ x.live ∧ x.chip.svc.subs.find? (fun s => s.old = 127 && s.cut.isNone) = some s
      ∧ s.start + x.chip.rf R.SVC_CFG 15 8 * 1000000 ≤ x.chip.core)
    ∧ (let s : EngSub := ⟨127, 128, 0, 99900000001, none⟩;
      let x := svc (fun v => { v with subs := [s] });
      x.chip.svc.subs.find? (fun s => s.old = 127 && s.cut.isNone) = some s ∧ x.chip.core < s.start + x.chip.rf R.SVC_CFG 15 8 * 1000000) := by
  simp only [Dev.live, Dev.allows, ok_iff]; (repeat' apply And.intro) <;> decide +kernel

theorem wit_RepairAndUnderstudy_checks :
    (let x := svc id;
      135 < 136 ∧ x.live ∧ x.chip.svc.ready = true ∧ x.chip.rb R.SVC_CFG 0 = true ∧ x.chip.pwr.crit = false ∧ x.chip.spareFree 135 = true
      ∧ x.chip.svc.order.find? x.chip.eligible = some 127)
    ∧ ((st [] (fun d => d.setSvc Svc.init)).chip.svc.ready = false ∧ (st [(R.SVC_CFG, 0)]).chip.rb R.SVC_CFG 0 = false
      ∧ (st [] (fun d => d.setPwr { d.pwr with crit := true })).chip.pwr.crit = true ∧ (st []).chip.spareFree 127 = false)
    ∧ (let c : Check := ⟨135, 127, 90000000000, none, 0⟩;
      let x := svc (fun v => { v with checks := [c] });
      x.live ∧ x.chip.checkOf 135 = some c ∧ c.second = none ∧ c.start + 10000000000 ≤ x.chip.core ∧ x.chip.core < c.start + 20000000000
      ∧ x.chip.svc.spares.find? x.chip.spareFree = some 128 ∧ ∀ z ∈ x.chip.svc.checks, z.spare = 135)
    ∧ (let c : Check := ⟨135, 127, 90000000001, none, 0⟩;
      let x := svc (fun v => { v with checks := [c], spares := [135] });
      x.chip.checkOf 135 = some c ∧ x.chip.core < c.start + 10000000000 ∧ (∀ s ∈ x.chip.svc.spares, x.chip.spareFree s = false)
      ∧ ∀ z ∈ x.chip.svc.checks, z.spare = 135)
    ∧ (let c : Check := ⟨135, 127, 80000000000, none, 0⟩;
      let x := svc (fun v => { v with checks := [c] });
      x.chip.checkOf 135 = some c ∧ c.start + 20000000000 ≤ x.chip.core)
    ∧ (let c : Check := ⟨135, 127, 0, some 134, 0⟩;
      let x := svc (fun v => { v with checks := [c] }) [(R.SVC_CFG, 3)];
      x.live ∧ x.chip.checkOf 135 = some c ∧ c.second = some 134 ∧ x.chip.freeSlot ≠ none ∧ x.chip.rb R.SVC_CFG 1 = true ∧ x.chip.ganged c.engine = false)
    ∧ (svc id).chip.rb R.SVC_CFG 1 = false
    ∧ (st []).chip.checkOf 135 = none := by
  simp only [Dev.live]; (repeat' apply And.intro) <;> decide +kernel

/-- O58, the forms the words above leave: a spare taken from another check, none to take, a full ledger, an engine that is
ganged, a burn that is not asked for, a cutover of an engine under no substitution. -/
theorem wit_RepairAndUnderstudy_forms :
    (let c : Check := ⟨135, 127, 90000000000, none, 0⟩;
      let x := svc (fun v => { v with checks := [c, ⟨134, 0, 90000000000, none, 0⟩], spares := [135, 134] });
      x.live ∧ x.chip.checkOf 135 = some c ∧ c.second = none ∧ x.chip.svc.spares.find? x.chip.spareFree = none
      ∧ x.chip.svc.spares.find? (fun z => x.chip.spareOk z
            && x.chip.svc.checks.any (fun y => y.spare = z && y.second.isNone && decide (z ≠ 135))) = some 134)
    ∧ (let x := svc (fun v => { v with checks := [⟨135, 127, 90000000000, none, 0⟩], spares := [135] });
      x.live ∧ x.chip.svc.spares.find? x.chip.spareFree = none
      ∧ x.chip.svc.spares.find? (fun z => x.chip.spareOk z
            && x.chip.svc.checks.any (fun y => y.spare = z && y.second.isNone && decide (z ≠ 135))) = none)
    ∧ (let c : Check := ⟨135, 127, 0, some 134, 0⟩;
      let x := svc (fun v => { v with checks := [c] }) [(R.SVC_CFG, 3)];
      let y := x.on (fun d => { d with ledger := fullLedger.chip.ledger });
      y.live ∧ y.chip.checkOf 135 = some c ∧ c.second = some 134 ∧ y.chip.freeSlot = none ∧ y.chip.rb R.SVC_CFG 1 = true
      ∧ y.chip.ganged c.engine = false)
    ∧ (let x := svc (fun v => { v with checks := [⟨135, 124, 0, some 134, 0⟩] }) [(R.SVC_CFG, 3), (R.SWB_RX_BIND 124, 0x200)];
      x.live ∧ x.chip.rb R.SVC_CFG 1 = true ∧ x.chip.ganged 124 = true)
    ∧ ((st []).live ∧ (st []).chip.ledger.burn = none ∧ (∀ r ∈ (st []).chip.ledger.resv, r.ready = false)
      ∧ 127 < 136 ∧ (st []).chip.svc.subs.find? (fun s => s.old = 127 && s.cut.isNone) = none)
    ∧ ((svc (fun v => { v with order := [] })).chip.svc.order.find? (svc (fun v => { v with order := [] })).chip.eligible = none) := by
  simp only [Dev.live]; (repeat' apply And.intro) <;> decide +kernel

theorem wit_CommandsThatStoreNothing : ∃ t, (Instr.lofSetExpiry 135).storesNothing = true ∧ exec (.lofSetExpiry 135) ⟨[], st []⟩ = .next t := ⟨_, rfl, rfl⟩

theorem wit_CommandsApartFromControl : ∃ t, (Instr.lofSetExpiry 135).reachesControl = false ∧ exec (.lofSetExpiry 135) ⟨[], st []⟩ = .next t := ⟨_, rfl, rfl⟩

/-! ## Small steps, with the values that the spec's worked examples and tables give -/

/-- The device after one command. -/
def after (i : Instr) (x : Dev) : Option Dev :=
  match exec i ⟨[], x⟩ with
  | .next t => some t.dev
  | _ => none

/-- Engine 5 of the worked example of 12_register_space: enabled, HNT_CFG 0x1352, CAP_CFG 0x001003E8. -/
def e5 (l : List (RegId × Nat) := []) : Dev := st ([(R.ENG_CTRL 5, 1), (R.HNT_CFG 5, 0x1352), (R.CAP_CFG 5, 0x1003E8), (R.SWB_RX_BIND 5, 0x100)] ++ l)

/-- Step 1: a write through an alias reaches HNT_CFG, whose CD field differs; it is refused and flagged. -/
theorem test_alias_cd : (after (.registerWrite 1 0x105440 0x1353) (e5)).map (fun y =>
    (y.chip.out, y.chip.rd (R.HNT_CFG 5), y.chip.rd (R.HNT_EVENT 5), y.chip.rd R.GLB_REFUSE_ADDR, y.chip.rd R.GLB_REFUSE_INFO))
    = some ([.answer .notAppliedEnabled none], 0x1352, 0x100, 0x105440, 0x00010009) := by decide +kernel

/-- Step 3: an address that is not aligned is refused before decoding. -/
theorem test_bad_align : (after (.registerWrite 1 0x105042 0) e5).map (fun y => y.chip.out) = some [.answer .badAlign none] := by decide +kernel

/-- Step 4: an address beyond the window of E135 is the default target's. -/
theorem test_decode_error : (after (.rcRegisterRead 1 0x188000) e5).map (fun y => y.chip.out) = some [.answer .decodeError none] := by decide +kernel

/-- Step 6: REG_MODIFY of FLUSH alone is applied, with the old value in the reply; the reply's bytes are R265's layout. -/
theorem test_reg_modify : (after (.regModify h1 0x105090 4 0xFFFFF 0x1F4) e5).map (fun y => (y.chip.rd (R.CAP_CFG 5), y.chip.out))
    = some (0x1001F4, [.reply ⟨1, 1, 0x0014, .ok, 0, false, false, [(1, [0x00, 0x10, 0x03, 0xE8])]⟩ 0 5000
      ([0x46, 0x4E, 0x01, 0x01, 0x00, 0x10, 0x00, 0x01, 0x00, 0x00, 0x00, 0x01, 0x00, 0x14, 0x00, 0x08, 0x00, 0x00]
        ++ List.replicate 14 0 ++ [0x00, 0x01, 0x00, 0x04, 0x00, 0x10, 0x03, 0xE8])]) := by decide +kernel


/-- R218: the write-unlock of a REG_MODIFY whose lock was released by force is answered LOCK_TIMEOUT, and the register keeps
its value. -/
theorem test_reg_modify_late : (after (.regModify { h1 with lock := .late } 0x105090 4 0xFFFFF 0x1F4) e5).map
    (fun y => (y.chip.rd (R.CAP_CFG 5), y.chip.rb R.YRD_EVENT 1, y.chip.rd R.YRD_LOCK_TMO_CNT)) = some (0x1003E8, true, 1) := by decide +kernel

/-- Step 7: a read of a read-clear counter answers the count and clears it. -/
theorem test_rc_read : (after (.rcRegisterRead 1 0x78) (e5 [(R.GLB_REFUSE_CNT, 4)])).map (fun y => (y.chip.out, y.chip.rd R.GLB_REFUSE_CNT))
    = some ([.answer .ok (some 4)], 0) := by decide +kernel

/-- Steps 8 and 9: disabled, the engine takes the new HNT_CFG. -/
theorem test_disabled_write : (after (.registerWrite 1 0x105040 0x1353) (st [(R.HNT_CFG 5, 0x1352)])).map (fun y => (y.chip.out, y.chip.rd (R.HNT_CFG 5)))
    = some ([.answer .ok none], 0x1353) := by decide +kernel

/-- Step 11: CFG_WHILE_ENABLED is cleared by writing 1. -/
theorem test_w1c : (after (.registerWrite 1 0x105050 0x100) (e5 [(R.HNT_EVENT 5, 0x101)])).map (fun y => (y.chip.out, y.chip.rd (R.HNT_EVENT 5)))
    = some ([.answer .ok none], 1) := by decide +kernel

/-- 02_line_lanes, 0 us: the signal goes, a flap is counted and LOS is not declared yet; the loss of lock is counted too. -/
theorem test_signal_lost : (after (.signalChange 127 false 0) (lane139 { Lane.init with ready := true, trans := true, lock := true, present := true })).map
    (fun y => (y.chip.rd (R.LN_FLAP_CNT 127), (y.chip.lane 127).los)) = some (1, false)
    ∧ (after (.lockLoss 127) (lane139 { Lane.init with ready := true, lock := true })).map (fun y => y.chip.rd (R.LN_LOCK_LOSS_CNT 127)) = some 1 := by
  decide +kernel

/-- 02_line_lanes, 10 us: after 10,000 core cycles without a signal LOS is declared with the default timer. -/
theorem test_los_declared : (after (.losSetExpiry 127) (lane139 { Lane.init with ready := true, since := 100000000000 - 10000 })).map
    (fun y => ((y.chip.lane 127).los, y.chip.rd (R.LN_EVENT 127), y.chip.rd (R.LN_LOS_CNT 127))) = some (true, 1, 1) := by decide +kernel

/-- 11_fenene_protocol: LN_STATUS of a lane that is READY with lock and signal, whose engine drives it, reads 0x15. -/
theorem test_ln_status : ((st [(R.LN_CTRL 12, 1), (R.LN_TX 12, 2 ^ 24 + 12 * 2 ^ 16), (R.ENG_CTRL 12, 1)]
    (fun d => d.setLane 12 { Lane.init with ready := true, trans := true, lock := true, present := true })).chip.readWord (⟨.lane, 12, 0x020⟩ : RegId)) = 0x15 := by
  decide +kernel

/-- 15_security_and_ledger, 0 ms: with slots 0 to 45 burned, a migration of H1.PC7 (coded 39) reserves slot 46. -/
theorem test_spare_substitute : (after (.spareSubstitute h1 2 39 none) (st [] (fun d =>
    { d with ledger := ⟨(List.range 46).map (fun k => (k, ⟨[1], false⟩)), [], none⟩, hbm := [(1, { Stack.init with ready := true })] }))).map
    (fun y => (y.chip.ledger.resv.map (·.slot), (y.chip.stack 1).mig.isSome)) = some ([46], true) := by decide +kernel

/-- 09_yard_and_hayloft: a grant is overdue after 64 units of 1,024 core cycles, 65.536 us, with the default TMO. -/
theorem test_yard_timeout : (yd [txn .read 0 4 19 (some (100000000000 - 65536))]).chip.overdue (txn .read 0 4 19 (some (100000000000 - 65536))) = true
    ∧ (yd [txn .read 0 4 19 (some (100000000000 - 65535))]).chip.overdue (txn .read 0 4 19 (some (100000000000 - 65535))) = false := by decide +kernel

/-- The CRC-32 of the nine digits, its standard check value. -/
theorem test_crc32 : crc32 [0x31, 0x32, 0x33, 0x34, 0x35, 0x36, 0x37, 0x38, 0x39] = 0xCBF43926 := by decide +kernel

/-- An empty queue is a tick: the core clock moves on one cycle. -/
theorem test_tick : (match step ⟨[], st []⟩ with | .next t => some t.dev.chip.core | _ => none) = some 100000000001 := by decide +kernel

/-- The command at the front of the queue runs, and the next one waits. -/
theorem test_queue : (match step ⟨[.heartbeat, .fatalError], st []⟩ with | .next t => some (t.pending, t.dev.chip.gth.beat) | _ => none)
    = some ([.fatalError], 100000000000) := by decide +kernel

/-- A command on an engine that does not exist faults. -/
theorem test_fault : exec (.lofSetExpiry 136) ⟨[], st []⟩ = .fault .noSuchResource := rfl

end Sys2Proof.Tests
end

