-- ==== Sys2Proof/Proofs/EventLog.lean ====
section
set_option Elab.async false
/-!
The event log stays well formed (`EvLog.wf`, R27): at most 65,536 entries, newest first, numbered one by one.

Only `Chip.evtAt` writes the log (the reset empties it). The lemma `f_logWf` of a function `f` of the model says that
`f` keeps a well-formed log. There is one for each function a command can reach, in the order of the model's files, so
that each proof unfolds its own function once and cites the lemmas of the functions it calls: the chain ends at
`Chip.evtAt_logWf`, the one lemma about the log itself, and at the setters' `_log` equations of `Sys2Proof/Laws/`.
-/
namespace Sys2Proof.Machine

variable {d : Chip} {s : Dev}

/-! ## Folds and pairs -/

theorem Chip.foldl_logWf {β : Type} {g : Chip → β → Chip} (hg : ∀ x b, x.log.wf → (g x b).log.wf) (l : List β)
    (h : d.log.wf) : (l.foldl g d).log.wf :=
  List.foldlRecOn l g h fun x hx b _ => hg x b hx

theorem Dev.foldl_logWf {β : Type} {g : Dev → β → Dev} (hg : ∀ x b, x.chip.log.wf → (g x b).chip.log.wf) (l : List β)
    (h : s.chip.log.wf) : (l.foldl g s).chip.log.wf :=
  List.foldlRecOn l g h fun x hx b _ => hg x b hx

theorem logWf_of_eq {α : Type} {x : α × Chip} {a : α} (hx : x = (a, d)) (h : x.2.log.wf) : d.log.wf := by
  rw [hx] at h
  exact h

theorem ite_snd_logWf {α : Type} {c : Prop} [Decidable c] {a b : α × Chip} (ha : a.2.log.wf) (hb : b.2.log.wf) :
    (if c then a else b).2.log.wf := by
  split
  · exact ha
  · exact hb

/-! ## Fresh bits -/

theorem Chip.fresh_logWf (h : d.log.wf) (w : Nat) : (d.fresh w).2.log.wf := by
  simpa [Chip.fresh] using h

/-! ## Taps, bale breaks and events -/

theorem Chip.ebPut_logWf (h : d.log.wf) (g : Nat) (join : Bool) (w : SWord) : (d.ebPut g join w).log.wf := by
  grind [Chip.ebPut, Chip.setCap_log]

theorem Chip.tapOne_logWf (h : d.log.wf) (e sub : Nat) (o : Byte) (stamp pos : Nat) (tent poison : Bool) :
    (d.tapOne e sub o stamp pos tent poison).log.wf := by
  simpa [Chip.tapOne] using h

theorem Chip.breakBale_logWf (h : d.log.wf) (e sub : Nat) (resync : Bool) : (d.breakBale e sub resync).log.wf := by
  simpa [Chip.breakBale] using h

theorem Chip.breakLine_logWf (h : d.log.wf) (e : Nat) (resync mark : Bool) : (d.breakLine e resync mark).log.wf := by
  grind [Chip.breakLine, Chip.foldl_logWf, Chip.breakBale_logWf]

theorem Chip.evtAt_logWf (h : d.log.wf) (time src code ctx det ext : Nat) :
    (d.evtAt time src code ctx det ext).log.wf := by
  obtain ⟨hcap, hnext, hseq⟩ := h
  rw [Chip.evtAt_log]
  refine ⟨by simp, by simp; omega, fun i v hi => ?_⟩
  rw [List.getElem?_take] at hi
  split at hi
  · cases i with
    | zero =>
      cases hi
      rfl
    | succ j =>
      rw [hseq j v (by simpa using hi)]
      dsimp only
      congr 1
      omega
  · cases hi

theorem Chip.evt_logWf (h : d.log.wf) (src code ctx det ext : Nat) : (d.evt src code ctx det ext).log.wf := by
  grind [Chip.evt, Chip.evtAt_logWf]

theorem Chip.ev_logWf (h : d.log.wf) (src code det : Nat) : (d.ev src code det).log.wf := by
  grind [Chip.ev, Chip.evt_logWf]

/-! ## Bales -/

theorem Chip.enqueue_logWf (h : d.log.wf) (c : RCfg) (b : Bale) (marker : Bool) (last : Nat) :
    (d.enqueue c b marker last).log.wf := by
  grind [Chip.enqueue, Chip.setRgn_log]

theorem Chip.closeBale_logWf (h : d.log.wf) (r : Nat) : (d.closeBale r).log.wf := by
  grind [Chip.closeBale, Chip.enqueue_logWf, Chip.setRgn_log]

theorem Chip.openWith_logWf (h : d.log.wf) (r : Nat) (tent split : Bool) (l : List Byte) (tags : List OTag) :
    (d.openWith r tent split l tags).log.wf := by
  simpa [Chip.openWith] using h

theorem Chip.markTrigger_logWf (h : d.log.wf) (r k : Nat) (tent : Bool) : (d.markTrigger r k tent).log.wf := by
  grind [Chip.markTrigger, Chip.setRgn_log]

/-! ## Triggers and combiners -/

theorem Chip.fireRgn_logWf (h : d.log.wf) (r t : Nat) (tent : Bool) : (d.fireRgn r t tent).log.wf := by
  grind [Chip.fireRgn, Chip.closeBale_logWf, Chip.flag_log, Chip.markTrigger_logWf, Chip.openWith_logWf,
    Chip.setRgn_log]

theorem Chip.fireRegions_logWf (h : d.log.wf) (global : Bool) (sel cluster t : Nat) (tent : Bool) :
    (d.fireRegions global sel cluster t tent).log.wf := by
  grind [Chip.fireRegions, Chip.foldl_logWf, Chip.fireRgn_logWf]

theorem Chip.combFire_logWf (h : d.log.wf) (cb t : Nat) (tent : Bool) : (d.combFire cb t tent).log.wf := by
  unfold Chip.combFire
  extract_lets cfg x d1 d2 d3
  have h2 : d2.log.wf := Chip.evt_logWf (by simpa [d1] using h) _ _ _ _ _
  refine Chip.fireRegions_logWf ?_ _ _ _ _ _
  unfold d3
  split <;> exact h2

theorem Chip.combEval_logWf (h : d.log.wf) (cb t : Nat) (tent : Bool) : (d.combEval cb t tent).2.log.wf := by
  grind [Chip.combEval, Chip.setComb_log, Chip.combFire_logWf]

theorem Chip.termEvent_logWf (h : d.log.wf) (cb i t : Nat) (tent : Bool) : (d.termEvent cb i t tent).log.wf := by
  simpa [Chip.termEvent] using h

theorem Chip.raiseN_logWf (h : d.log.wf) (cluster n i t : Nat) (tent : Bool) :
    (d.raiseN cluster n i t tent).log.wf := by
  induction n generalizing d i t tent with
  | zero => exact h
  | succ n ih =>
    unfold Chip.raiseN
    exact Chip.foldl_logWf (fun x k hx => by grind [Chip.combEval_logWf, Chip.termEvent_logWf]) _ h

theorem Chip.raise_logWf (h : d.log.wf) (cluster i t : Nat) (tent : Bool) : (d.raise cluster i t tent).log.wf := by
  grind [Chip.raise, Chip.raiseN_logWf]

theorem Chip.raiseEng_logWf (h : d.log.wf) (e s t : Nat) (tent : Bool) : (d.raiseEng e s t tent).log.wf := by
  grind [Chip.raiseEng, Chip.raise_logWf]

theorem Chip.levels_logWf (h : d.log.wf) (cluster t : Nat) (tent : Bool) : (d.levels cluster t tent).log.wf := by
  grind [Chip.levels, Chip.foldl_logWf, Chip.combEval_logWf, Chip.raise_logWf]

theorem Chip.engLevels_logWf (h : d.log.wf) (e t : Nat) : (d.engLevels e t).log.wf := by
  grind [Chip.engLevels, Chip.levels_logWf]

/-! ## Bale writer -/

theorem Chip.gapWritten_logWf (h : d.log.wf) (c : RCfg) (seq lost : Nat) : (d.gapWritten c seq lost).log.wf := by
  grind [Chip.gapWritten, Chip.evt_logWf, Chip.flag_log, Chip.count_log, Chip.raiseEng_logWf]

theorem Chip.poisonWritten_logWf (h : d.log.wf) (c : RCfg) (seq : Nat) : (d.poisonWritten c seq).log.wf := by
  grind [Chip.poisonWritten, Chip.evt_logWf, Chip.flag_log, Chip.raiseEng_logWf]

theorem Chip.retractLogged_logWf (h : d.log.wf) (c : RCfg) (first last reason : Nat) :
    (d.retractLogged c first last reason).log.wf := by
  grind [Chip.retractLogged, Chip.evt_logWf, Chip.flag_log, Chip.count_log]

theorem Chip.retractWritten_logWf (h : d.log.wf) (c : RCfg) (first last reason : Nat) :
    (d.retractWritten c first last reason).log.wf := by
  grind [Chip.retractWritten, Chip.raiseEng_logWf, Chip.retractLogged_logWf]

theorem Chip.confirmLogged_logWf (h : d.log.wf) (c : RCfg) (first last : Nat) :
    (d.confirmLogged c first last).log.wf := by
  grind [Chip.confirmLogged, Chip.evt_logWf]

theorem Chip.resolveEnded_logWf (h : d.log.wf) (e sub : Nat) (reason : Option Nat) :
    (d.resolveEnded e sub reason).log.wf := by
  grind [Chip.resolveEnded, Chip.foldl_logWf, Chip.setRgn_log, Chip.confirmLogged_logWf,
    Chip.retractLogged_logWf]

theorem Chip.addLost_logWf (h : d.log.wf) (e n : Nat) : (d.addLost e n).log.wf := by
  simpa [Chip.addLost] using h

theorem Chip.putOct_logWf (h : d.log.wf) (r : Nat) (o : Byte) (g : OTag) : (d.putOct r o g).log.wf := by
  grind [Chip.putOct, Chip.setRgn_log]

theorem Chip.packOct_logWf (h : d.log.wf) (r : Nat) (w : SWord) (o : Byte) (g : Nat × Nat) :
    (d.packOct r w o g).log.wf := by
  grind [Chip.packOct, Chip.closeBale_logWf, Chip.markTrigger_logWf, Chip.putOct_logWf, Chip.openWith_logWf,
    Chip.setRgn_log]

theorem Chip.gapTrigger_logWf (h : d.log.wf) (r last : Nat) : (d.gapTrigger r last).2.log.wf := by
  grind [Chip.gapTrigger, Chip.setRgn_log]

theorem Chip.writeGap_logWf (h : d.log.wf) (r lost first last cause : Nat) (tent split : Bool) :
    (d.writeGap r lost first last cause tent split).log.wf := by
  grind [Chip.writeGap, Chip.gapTrigger_logWf, Chip.enqueue_logWf, Chip.closeBale_logWf, Chip.gapWritten_logWf,
    Chip.setRgn_log]

theorem Chip.writeRetract_logWf (h : d.log.wf) (r reason stamp : Nat) (split : Bool) :
    (d.writeRetract r reason stamp split).log.wf := by
  grind [Chip.writeRetract, Chip.enqueue_logWf, Chip.closeBale_logWf, Chip.retractWritten_logWf, Chip.setRgn_log,
    Chip.retractLogged_logWf]

theorem Chip.confirmTent_logWf (h : d.log.wf) (r : Nat) : (d.confirmTent r).log.wf := by
  grind [Chip.confirmTent, Chip.closeBale_logWf, Chip.setRgn_log, Chip.confirmLogged_logWf]

theorem Chip.writeSubst_logWf (h : d.log.wf) (r old new slot stamp : Nat) (split : Bool) :
    (d.writeSubst r old new slot stamp split).log.wf := by
  grind [Chip.writeSubst, Chip.enqueue_logWf, Chip.closeBale_logWf]

theorem Chip.takeNow_logWf (h : d.log.wf) (e : Nat) (w : SWord) : (d.takeNow e w).log.wf := by
  grind [Chip.takeNow, Chip.foldl_logWf, Chip.packOct_logWf, Chip.resolveEnded_logWf,
    Chip.confirmTent_logWf, Chip.closeBale_logWf, Chip.writeSubst_logWf, Chip.writeGap_logWf, Chip.writeRetract_logWf,
    Chip.setRgn_log]

theorem Chip.takeWaits_logWf (h : d.log.wf) (e r n : Nat) : (d.takeWaits e r n).log.wf := by
  induction n generalizing d with
  | zero => exact h
  | succ n ih =>
    unfold Chip.takeWaits
    extract_lets x
    split
    · exact h
    · exact ih (Chip.takeNow_logWf (by simpa using h) e _)

theorem Chip.takeWord_logWf (h : d.log.wf) (e : Nat) (w : SWord) : (d.takeWord e w).log.wf := by
  grind [Chip.takeWord, Chip.takeWaits_logWf, Chip.takeNow_logWf, Chip.setRgn_log]

theorem Chip.tagError_logWf (h : d.log.wf) (e : Nat) : (d.tagError e).log.wf := by
  grind [Chip.tagError, Chip.foldl_logWf, Chip.ev_logWf, Chip.flag_log, Chip.writeGap_logWf]

theorem Chip.advanceRgn_logWf (h : d.log.wf) (r : Nat) : (d.advanceRgn r).log.wf := by
  grind [Chip.advanceRgn, Chip.ev_logWf, Chip.flag_log, Chip.setRgn_log]

theorem Dev.accept_logWf (h : s.chip.log.wf) (r : Nat) (w : BaleWr) : (s.accept r w).chip.log.wf := by
  grind [Dev.accept, Chip.addLost_logWf, Chip.poisonWritten_logWf, Chip.advanceRgn_logWf, Chip.gapWritten_logWf,
    Chip.setRgn_log]

theorem Dev.tryPending_logWf (h : s.chip.log.wf) (r n : Nat) : (s.tryPending r n).chip.log.wf := by
  induction n generalizing s with
  | zero => exact h
  | succ n ih =>
    unfold Dev.tryPending
    extract_lets x
    split
    · exact h
    · split
      · exact h
      · exact ih (Dev.accept_logWf h r _)

theorem Chip.remoteBale_logWf (h : d.log.wf) (m : Mem) (r a n : Nat) : (d.remoteBale m r a n).log.wf := by
  grind [Chip.remoteBale, Chip.advanceRgn_logWf, Chip.setRgn_log]

theorem Chip.refuseBale_logWf (h : d.log.wf) (r seq : Nat) : (d.refuseBale r seq).log.wf := by
  simpa [Chip.refuseBale] using h

theorem Dev.settle_logWf (h : s.chip.log.wf) (r : Nat) : (s.settle r).chip.log.wf := by
  grind [Dev.settle, Dev.tryPending_logWf]

/-! ## Protection switching -/

theorem Chip.applySel_logWf (hl : d.log.wf) (h tgt : Nat) : (d.applySel h tgt).log.wf := by
  grind [Chip.applySel, Chip.sbit_log, Chip.ev_logWf, Chip.flag_log, Chip.setGroup_log, Chip.breakBale_logWf,
    Chip.setPair_log, Chip.count_log, Chip.raiseEng_logWf]

theorem Chip.setSel_logWf (hl : d.log.wf) (h tgt : Nat) : (d.setSel h tgt).log.wf := by
  grind [Chip.setSel, Chip.setGroup_log, Chip.applySel_logWf]

theorem Chip.apsPass_logWf (hl : d.log.wf) (h : Nat) : (d.apsPass h).2.2.log.wf := by
  grind [Chip.apsPass, Chip.setGroup_log]

theorem Chip.apsPasses_logWf (hl : d.log.wf) (h n : Nat) : (d.apsPasses h n).2.log.wf := by
  induction n generalizing d with
  | zero => exact hl
  | succ n ih =>
    have hp := Chip.apsPass_logWf hl h
    unfold Chip.apsPasses
    split <;> rename_i hm <;> rw [hm] at hp
    · split
      · exact hp
      · exact ih hp
    · exact hp

theorem Chip.apsEval_logWf (hl : d.log.wf) (h : Nat) : (d.apsEval h).log.wf := by
  grind [Chip.apsEval, Chip.setGroup_log, Chip.apsPasses_logWf, Chip.setSel_logWf]

theorem Chip.apsInputs_logWf (hl : d.log.wf) (h : Nat) : (d.apsInputs h).log.wf := by
  grind [Chip.apsInputs, Chip.apsEval_logWf, Chip.setGroup_log]

theorem Chip.apsEngine_logWf (h : d.log.wf) (e : Nat) : (d.apsEngine e).log.wf := by
  grind [Chip.apsEngine, Chip.foldl_logWf, Chip.apsInputs_logWf]

theorem Chip.apsMode_logWf (hl : d.log.wf) (h : Nat) : (d.apsMode h).log.wf := by
  grind [Chip.apsMode, Chip.ev_logWf, Chip.flag_log, Chip.setGroup_log]

theorem Chip.apsRx_logWf (hl : d.log.wf) (h v : Nat) : (d.apsRx h v).log.wf := by
  grind [Chip.apsRx, Chip.apsEval_logWf, Chip.apsMode_logWf, Chip.setGroup_log]

theorem Chip.apsEnter_logWf (hl : d.log.wf) (h : Nat) : (d.apsEnter h).log.wf := by
  grind [Chip.apsEnter, Chip.apsEval_logWf, Chip.apsMode_logWf, Chip.setDsk_log, Chip.setGroup_log,
    Chip.apsInputs_logWf, Chip.wr_log]

theorem Chip.apsLeave_logWf (hl : d.log.wf) (h : Nat) : (d.apsLeave h).log.wf := by
  grind [Chip.apsLeave, Chip.setDsk_log, Chip.setGroup_log, Chip.setSel_logWf, Chip.wr_log]

theorem Chip.apsCommand_logWf (hl : d.log.wf) (h cmd chan : Nat) : (d.apsCommand h cmd chan).2.log.wf := by
  unfold Chip.apsCommand
  extract_lets g loc rx top lim blocked ok
  split
  · exact Chip.apsEval_logWf (by simpa using hl) h
  · simpa using hl

theorem Chip.holdExpire_logWf (hl : d.log.wf) (h chan : Nat) : (d.holdExpire h chan).log.wf := by
  grind [Chip.holdExpire, Chip.apsEval_logWf, Chip.setGroup_log]

theorem Chip.wtrExpire_logWf (hl : d.log.wf) (h : Nat) : (d.wtrExpire h).log.wf := by
  grind [Chip.wtrExpire, Chip.apsEval_logWf, Chip.ev_logWf, Chip.flag_log, Chip.setGroup_log]

theorem Chip.fopExpire_logWf (hl : d.log.wf) (h : Nat) : (d.fopExpire h).log.wf := by
  grind [Chip.fopExpire, Chip.ev_logWf, Chip.flag_log, Chip.setGroup_log]

theorem Chip.setDelay_logWf (hl : d.log.wf) (h : Nat) (v : Int) : (d.setDelay h v).log.wf := by
  simpa [Chip.setDelay] using hl

theorem Chip.setDskSt_logWf (hl : d.log.wf) (h st : Nat) : (d.setDskSt h st).log.wf := by
  simpa [Chip.setDskSt] using hl

theorem Chip.dskUnlock_logWf (hl : d.log.wf) (h : Nat) : (d.dskUnlock h).log.wf := by
  grind [Chip.dskUnlock, Chip.unflag_log, Chip.setDsk_log, Chip.ev_logWf, Chip.flag_log, Chip.breakBale_logWf,
    Chip.setDskSt_logWf]

theorem Chip.dskRange_logWf (hl : d.log.wf) (h : Nat) : (d.dskRange h).log.wf := by
  simpa [Chip.dskRange] using hl

theorem Chip.dskLock_logWf (hl : d.log.wf) (h : Nat) (delta : Int) : (d.dskLock h delta).log.wf := by
  grind [Chip.dskLock, Chip.unflag_log, Chip.setDsk_log, Chip.setDelay_logWf, Chip.ev_logWf, Chip.evt_logWf,
    Chip.flag_log, Chip.breakBale_logWf, Chip.setDskSt_logWf]

theorem Chip.dskFrame_logWf (hl : d.log.wf) (h path time crc : Nat) : (d.dskFrame h path time crc).log.wf := by
  grind [Chip.dskFrame, Chip.setDsk_log, Chip.setDelay_logWf, Chip.flag_log, Chip.dskUnlock_logWf,
    Chip.setDskSt_logWf, Chip.dskRange_logWf, Chip.dskLock_logWf]

theorem Chip.dskNoMatch_logWf (hl : d.log.wf) (h : Nat) : (d.dskNoMatch h).log.wf := by
  grind [Chip.dskNoMatch, Chip.setDskSt_logWf]

theorem Chip.rebaseDone_logWf (hl : d.log.wf) (h : Nat) : (d.rebaseDone h).log.wf := by
  grind [Chip.rebaseDone, Chip.unflag_log, Chip.setDsk_log]

/-! ## Defects and performance monitoring -/

theorem Chip.defSummary_logWf (h : d.log.wf) (e : Nat) : (d.defSummary e).log.wf := by
  grind [Chip.defSummary, Chip.engLevels_logWf, Chip.sbit_log, Chip.apsEngine_logWf]

theorem Chip.pmNote_logWf (h : d.log.wf) (e : Nat) : (d.pmNote e).log.wf := by
  simpa [Chip.pmNote] using h

theorem Chip.pmBlock_logWf (h : d.log.wf) (e l : Nat) (errored : Bool) : (d.pmBlock e l errored).log.wf := by
  simpa [Chip.pmBlock] using h

theorem Chip.defFlip_logWf (h : d.log.wf) (k : DKey) (on : Bool) : (d.defFlip k on).log.wf := by
  grind [Chip.defFlip, Chip.sbit_log, Chip.defSummary_logWf, Chip.evt_logWf, Chip.flag_log, Chip.pmNote_logWf,
    Chip.setDefT_log, Chip.raiseEng_logWf]

theorem Chip.defCrit_logWf (h : d.log.wf) (k : DKey) (c : Option Bool) : (d.defCrit k c).log.wf := by
  grind [Chip.defCrit, Chip.setDefT_log, Chip.defFlip_logWf]

theorem Chip.defRun_logWf (h : d.log.wf) (k : DKey) (need : Nat) (cond : Bool) : (d.defRun k need cond).log.wf := by
  grind [Chip.defRun, Chip.defCrit_logWf, Chip.setDefT_log]

theorem Chip.defExpire_logWf (h : d.log.wf) (k : DKey) (on : Bool) : (d.defExpire k on).log.wf := by
  grind [Chip.defExpire, Chip.defFlip_logWf]

theorem Chip.ctxSync_logWf (h : d.log.wf) (t : Nat) : (d.ctxSync t).log.wf := by
  grind [Chip.ctxSync, Chip.defCrit_logWf]

theorem Chip.parentStep_logWf (h : d.log.wf) (t : Nat) : (d.parentStep t).log.wf := by
  grind [Chip.parentStep, Chip.setCtx_log, Chip.ctxSync_logWf]

theorem Chip.parents_logWf (h : d.log.wf) (e : Nat) : (d.parents e).log.wf := by
  grind [Chip.parents, Chip.foldl_logWf, Chip.parentStep_logWf]

theorem Chip.workLeft_logWf (h : d.log.wf) (t : Nat) : (d.workLeft t).log.wf := by
  grind [Chip.workLeft, Chip.tapWord_log]

theorem Chip.workStep_logWf (h : d.log.wf) (t : Nat) : (d.workStep t).log.wf := by
  grind [Chip.workStep, Chip.workLeft_logWf, Chip.setCtx_log]

theorem Chip.workParents_logWf (h : d.log.wf) (e : Nat) : (d.workParents e).log.wf := by
  grind [Chip.workParents, Chip.foldl_logWf, Chip.workStep_logWf]

theorem Chip.defSettle_logWf (h : d.log.wf) (k : DKey) : (d.defSettle k).log.wf := by
  grind [Chip.defSettle, Chip.parents_logWf]

theorem Chip.syncLine_logWf (h : d.log.wf) (e : Nat) : (d.syncLine e).log.wf := by
  grind [Chip.syncLine, Chip.defFlip_logWf, Chip.parents_logWf]

theorem Chip.defThaw_logWf (h : d.log.wf) (e : Nat) : (d.defThaw e).log.wf := by
  grind [Chip.defThaw, Chip.foldl_logWf, Chip.setDefT_log, Chip.setMon_log]

theorem Chip.defClearAll_logWf (h : d.log.wf) (e : Nat) : (d.defClearAll e).log.wf := by
  grind [Chip.defClearAll, Chip.foldl_logWf, Chip.setDefT_log, Chip.defFlip_logWf, Chip.setMon_log]

theorem Chip.layerChange_logWf (h : d.log.wf) (e : Nat) : (d.layerChange e).log.wf := by
  grind [Chip.layerChange, Chip.defFlip_logWf, Chip.setMon_log]

theorem Chip.winEnd_logWf (h : d.log.wf) (e : Nat) (sd : Bool) : (d.winEnd e sd).log.wf := by
  grind [Chip.winEnd, Chip.layerChange_logWf, Chip.defFlip_logWf, Chip.setMon_log]

theorem Chip.winFrame_logWf (h : d.log.wf) (e : Nat) (sd : Bool) (errs : Nat) : (d.winFrame e sd errs).log.wf := by
  grind [Chip.winFrame, Chip.setMon_log, Chip.winEnd_logWf]

theorem Chip.winFrames_logWf (h : d.log.wf) (e l errs : Nat) : (d.winFrames e l errs).log.wf := by
  grind [Chip.winFrames, Chip.winFrame_logWf]

theorem Chip.winWrite_logWf (h : d.log.wf) (e : Nat) (sd : Bool) : (d.winWrite e sd).log.wf := by
  grind [Chip.winWrite, Chip.layerChange_logWf, Chip.defFlip_logWf, Chip.setMon_log]

theorem Chip.secondEnd_logWf (h : d.log.wf) (e : Nat) : (d.secondEnd e).log.wf := by
  grind [Chip.secondEnd, Chip.pmNote_logWf, Chip.setMon_log]

theorem Chip.countLayer_logWf (h : d.log.wf) (e l sec : Nat) : (d.countLayer e l sec).log.wf := by
  grind [Chip.countLayer, Chip.sbit_log, Chip.setMon_log, Chip.count_log]

theorem Chip.secondCounted_logWf (h : d.log.wf) (e : Nat) : (d.secondCounted e).log.wf := by
  unfold Chip.secondCounted
  extract_lets m
  split
  · exact h
  · split
    · exact h
    · rw [Chip.sf_log]
      exact Chip.foldl_logWf (fun x l hx => Chip.countLayer_logWf hx e l _) _ (by simpa using h)

theorem Chip.pnSearch_logWf (h : d.log.wf) (e w : Nat) : (d.pnSearch e w).log.wf := by
  grind [Chip.pnSearch, Chip.defCrit_logWf, Chip.setMon_log]

/-! ## Alignment hunting -/

theorem Chip.setStream_logWf (h : d.log.wf) (e i : Nat) (s : HStream) : (d.setStream e i s).log.wf := by
  simpa [Chip.setStream] using h

theorem Chip.cutBips_logWf (h : d.log.wf) (e : Nat) : (d.cutBips e).log.wf := by
  grind [Chip.cutBips, Chip.foldl_logWf, Chip.setCtx_log, Chip.setOhp_log]

theorem Chip.tentOff_logWf (hl : d.log.wf) (h : Nat) : (d.tentOff h).log.wf := by
  grind [Chip.tentOff, Chip.engLevels_logWf]

theorem Chip.retract_logWf (h : d.log.wf) (e reason : Nat) : (d.retract e reason).log.wf := by
  grind [Chip.retract, Chip.foldl_logWf, Chip.tentOff_logWf, Chip.tapWord_log]

theorem Chip.workStart_logWf (h : d.log.wf) (e : Nat) : (d.workStart e).log.wf := by
  grind [Chip.workStart, Chip.foldl_logWf, Chip.setCtx_log]

theorem Chip.workDone_logWf (h : d.log.wf) (e : Nat) : (d.workDone e).log.wf := by
  grind [Chip.workDone, Chip.foldl_logWf, Chip.setCtx_log, Chip.setOhp_log, Chip.setTrace_log,
    Chip.ctxSync_logWf]

theorem Chip.confirmIn_logWf (hl : d.log.wf) (h : Nat) (subs : List Nat) : (d.confirmIn h subs).log.wf := by
  grind [Chip.confirmIn, Chip.foldl_logWf, Chip.tapWord_log]

theorem Chip.confirmSubs_logWf (hl : d.log.wf) (h : Nat) : (d.confirmSubs h).log.wf := by
  grind [Chip.confirmSubs, Chip.confirmIn_logWf]

theorem Chip.confirmEnded_logWf (hl : d.log.wf) (h : Nat) : (d.confirmEnded h).log.wf := by
  grind [Chip.confirmEnded, Chip.confirmIn_logWf]

theorem Chip.confirmEarly_logWf (h : d.log.wf) (e : Nat) : (d.confirmEarly e).log.wf := by
  grind [Chip.confirmEarly, Chip.confirmSubs_logWf]

theorem Chip.lineIn_logWf (hl : d.log.wf) (h : Nat) (tent : Bool) : (d.lineIn h tent).log.wf := by
  grind [Chip.lineIn, Chip.foldl_logWf, Chip.workDone_logWf, Chip.breakLine_logWf,
    Chip.confirmSubs_logWf, Chip.syncLine_logWf, Chip.breakBale_logWf, Chip.tentOff_logWf, Chip.confirmEnded_logWf,
    Chip.defThaw_logWf, Chip.raiseEng_logWf]

theorem Chip.lineOut_logWf (hl : d.log.wf) (h : Nat) : (d.lineOut h).log.wf := by
  grind [Chip.lineOut, Chip.workStart_logWf, Chip.syncLine_logWf]

theorem Chip.gang_logWf (h : d.log.wf) (e : Nat) : (d.gang e).log.wf := by
  unfold Chip.gang
  split
  · exact h
  extract_lets hd ss n all idok lags top skewBad x gin tent d1 d2 d3 d4 d5 d6
  have h2 : d2.log.wf := by
    unfold d2
    split
    · rw [Chip.sf_log]
      exact Chip.foldl_logWf (fun y m hy => by simpa using hy) _ (by simpa [d1] using h)
    · simpa [d1] using h
  have h5 : d5.log.wf := by grind [Chip.flag_log, Chip.sbit_log]
  have h6 : d6.log.wf := Chip.defCrit_logWf h5 _ _
  grind [Chip.lineIn_logWf, Chip.lineOut_logWf, Chip.retract_logWf, Chip.cutBips_logWf, Chip.breakLine_logWf]

theorem Chip.hMoved_logWf (h : d.log.wf) (e : Nat) (was lead : Bool) : (d.hMoved e was lead).log.wf := by
  grind [Chip.hMoved, Chip.gang_logWf, Chip.lineIn_logWf, Chip.lineOut_logWf, Chip.setHunter_log]

theorem Chip.leadGone_logWf (h : d.log.wf) (e i reason : Nat) : (d.leadGone e i reason).log.wf := by
  grind [Chip.leadGone, Chip.cutBips_logWf, Chip.retract_logWf, Chip.setHunter_log]

theorem Chip.candGone_logWf (h : d.log.wf) (e i k reason : Nat) : (d.candGone e i k reason).log.wf := by
  grind [Chip.candGone, Chip.leadGone_logWf, Chip.setHunter_log]

theorem Chip.declare_logWf (h : d.log.wf) (e i k : Nat) : (d.declare e i k).log.wf := by
  grind [Chip.declare, Chip.cutBips_logWf, Chip.leadGone_logWf, Chip.ev_logWf, Chip.sf_log, Chip.hMoved_logWf,
    Chip.flag_log, Chip.setHunter_log, Chip.setPair_log, Chip.wr_log]

theorem Chip.toOof_logWf (h : d.log.wf) (e i : Nat) : (d.toOof e i).log.wf := by
  grind [Chip.toOof, Chip.ev_logWf, Chip.sf_log, Chip.hMoved_logWf, Chip.flag_log, Chip.setHunter_log, Chip.count_log,
    Chip.confirmEarly_logWf]

theorem Chip.checkCands_logWf (h : d.log.wf) (e i : Nat) (stampOf : Nat → Nat) (c : Scan) (m : List (Nat × Nat)) :
    (d.checkCands e i stampOf c m).1.log.wf := by
  unfold Chip.checkCands
  refine List.foldlRecOn _ _ (motive := fun a : Chip × List Nat => a.1.log.wf) h fun a ha x _ => ?_
  dsimp only
  split
  · simpa using ha
  · exact Chip.candGone_logWf (by simpa using ha) e i x.1 1

theorem Chip.checkDecl_logWf (h : d.log.wf) (e i : Nat) (stampOf : Nat → Nat) (c : Scan) (m : List (Nat × Nat)) :
    (d.checkDecl e i stampOf c m).log.wf := by
  grind [Chip.checkDecl, Chip.toOof_logWf, Chip.setHunter_log, Chip.count_log]

theorem Chip.decide2_logWf (h : d.log.wf) (e i : Nat) (conf : List Nat) : (d.decide2 e i conf).1.log.wf := by
  grind [Chip.decide2, Chip.setStream_logWf, Chip.ev_logWf, Chip.flag_log, Chip.declare_logWf]

theorem Chip.overflow_logWf (h : d.log.wf) (e : Nat) : (d.overflow e).log.wf := by
  grind [Chip.overflow, Chip.ev_logWf, Chip.flag_log, Chip.setHunter_log, Chip.count_log]

theorem Chip.sight_logWf (h : d.log.wf) (e i stamp seen : Nat) (c : Scan) (conf : List Nat) (y : Nat × Nat) :
    (d.sight e i stamp seen c conf y).log.wf := by
  grind [Chip.sight, Chip.overflow_logWf, Chip.setHunter_log, Chip.candGone_logWf]

theorem Chip.chooseLead_logWf (h : d.log.wf) (e i stamp : Nat) (c : Scan) : (d.chooseLead e i stamp c).log.wf := by
  grind [Chip.chooseLead, Chip.cutBips_logWf, Chip.breakLine_logWf, Chip.setHunter_log]

theorem Chip.streamCheck_logWf (e stamp start w n : Nat) {a : Chip × List WordHit × List Nat} (h : a.1.log.wf)
    (i : Nat) :
    (Chip.streamCheck e stamp start w n a i).1.log.wf := by
  unfold Chip.streamCheck
  exact Chip.checkCands_logWf (Chip.checkDecl_logWf (Chip.setStream_logWf h e i _) e i _ _ _) e i _ _ _

theorem Chip.streamDecide_logWf (e : Nat) (conf : List Nat) {a : Chip × List Nat} (h : a.1.log.wf) (i : Nat) :
    (Chip.streamDecide e conf a i).1.log.wf :=
  Chip.decide2_logWf h e i conf

theorem Chip.streamSight_logWf (h : d.log.wf) (e stamp start n : Nat) (conf decl : List Nat) (m : WordHit) :
    (d.streamSight e stamp start n conf decl m).log.wf := by
  grind [Chip.streamSight, Chip.foldl_logWf, Chip.sight_logWf]

theorem Chip.huntWord_logWf (h : d.log.wf) (e stamp start w n : Nat) : (d.huntWord e stamp start w n).log.wf := by
  unfold Chip.huntWord
  extract_lets is a b d3
  have ha : a.1.log.wf := List.foldlRecOn _ _ (motive := fun a : Chip × List WordHit × List Nat => a.1.log.wf) h
    fun a ha i _ => Chip.streamCheck_logWf e stamp start w n ha i
  have hb : b.1.log.wf := List.foldlRecOn _ _ (motive := fun a : Chip × List Nat => a.1.log.wf) ha
    fun a ha i _ => Chip.streamDecide_logWf e _ ha i
  have h3 : d3.log.wf := Chip.foldl_logWf (fun x m hx => Chip.streamSight_logWf hx e stamp start n _ _ m) _ hb
  exact Chip.foldl_logWf (fun x i hx => Chip.chooseLead_logWf hx e i stamp _) _ h3

theorem Chip.patMatch_logWf (h : d.log.wf) (e f i o stamp : Nat) (tent : Bool) :
    (d.patMatch e f i o stamp tent).log.wf := by
  grind [Chip.patMatch, Chip.foldl_logWf, Chip.setHunter_log, Chip.raiseEng_logWf]

theorem Chip.tapOctet_logWf (h : d.log.wf) (e sub f i raw desc stamp : Nat) (tent poison : Bool) :
    (d.tapOctet e sub f i raw desc stamp tent poison).log.wf := by
  grind [Chip.tapOctet, Chip.tapOne_logWf]

theorem Chip.tapSelected_logWf (h : d.log.wf) (e f i raw desc stamp : Nat) (poison : Bool) :
    (d.tapSelected e f i raw desc stamp poison).log.wf := by
  grind [Chip.tapSelected, Chip.foldl_logWf, Chip.tapOctet_logWf]

theorem Chip.outOctet_logWf (h : d.log.wf) (e q : Nat) (a : Align) (p w : HWord) : (d.outOctet e q a p w).log.wf := by
  grind [Chip.outOctet, Chip.confirmSubs_logWf, Chip.tapSelected_logWf, Chip.patMatch_logWf, Chip.setHunter_log,
    Chip.tapOctet_logWf]

theorem Chip.outWord_logWf (h : d.log.wf) (e : Nat) (w : HWord) : (d.outWord e w).log.wf := by
  grind [Chip.outWord, Chip.foldl_logWf, Chip.outOctet_logWf, Chip.setHunter_log]

theorem Chip.drainHold_logWf (h : d.log.wf) (e n : Nat) : (d.drainHold e n).log.wf := by
  induction n generalizing d with
  | zero => exact h
  | succ n ih =>
    unfold Chip.drainHold
    extract_lets x per
    split
    · exact h
    · split
      · exact ih (Chip.outWord_logWf (by simpa using h) e _)
      · exact h

theorem Chip.tapRaw_logWf (h : d.log.wf) (e w stamp : Nat) (poison : Bool) : (d.tapRaw e w stamp poison).log.wf := by
  grind [Chip.tapRaw, Chip.tapWord_log]

theorem Chip.restart_logWf (h : d.log.wf) (e i reason : Nat) : (d.restart e i reason).log.wf := by
  grind [Chip.restart, Chip.setStream_logWf, Chip.leadGone_logWf, Chip.toOof_logWf, Chip.setHunter_log]

theorem Chip.restartAll_logWf (h : d.log.wf) (e reason : Nat) : (d.restartAll e reason).log.wf := by
  grind [Chip.restartAll, Chip.foldl_logWf, Chip.gang_logWf, Chip.restart_logWf]

theorem Chip.markEngine_logWf (h : d.log.wf) (e : Nat) : (d.markEngine e).log.wf := by
  grind [Chip.markEngine, Chip.breakLine_logWf, Chip.restartAll_logWf]

theorem Chip.rehunt_logWf (h : d.log.wf) (e : Nat) : (d.rehunt e).log.wf := by
  grind [Chip.rehunt, Chip.restartAll_logWf]

theorem Chip.force_logWf (h : d.log.wf) (e k : Nat) : (d.force e k).2.log.wf := by
  grind [Chip.force, Chip.gang_logWf, Chip.leadGone_logWf, Chip.flag_log, Chip.setHunter_log, Chip.chooseLead_logWf]

theorem Chip.snap_logWf (h : d.log.wf) (e : Nat) : (d.snap e).log.wf := by
  grind [Chip.snap, Chip.foldl_logWf, Chip.wr_log]

theorem Chip.lofSet_logWf (h : d.log.wf) (e : Nat) : (d.lofSet e).log.wf := by
  grind [Chip.lofSet, Chip.syncLine_logWf, Chip.ev_logWf, Chip.flag_log, Chip.setHunter_log]

theorem Chip.lofClr_logWf (h : d.log.wf) (e : Nat) : (d.lofClr e).log.wf := by
  grind [Chip.lofClr, Chip.syncLine_logWf, Chip.ev_logWf, Chip.flag_log, Chip.setHunter_log]

theorem Chip.huntStart_logWf (h : d.log.wf) (e : Nat) : (d.huntStart e).log.wf := by
  grind [Chip.huntStart, Chip.syncLine_logWf, Chip.setHunter_log, Chip.wr_log]

theorem Chip.huntStop_logWf (h : d.log.wf) (e : Nat) : (d.huntStop e).log.wf := by
  grind [Chip.huntStop, Chip.foldl_logWf, Chip.gang_logWf, Chip.leadGone_logWf, Chip.ev_logWf,
    Chip.flag_log, Chip.setHunter_log, Chip.confirmEarly_logWf]

theorem Chip.huntFormat_logWf (h : d.log.wf) (e : Nat) : (d.huntFormat e).log.wf := by
  grind [Chip.huntFormat, Chip.huntStop_logWf, Chip.huntStart_logWf, Chip.setHunter_log]

theorem Chip.engWord_logWf (h : d.log.wf) (e w stamp : Nat) (poison : Bool) : (d.engWord e w stamp poison).log.wf := by
  grind [Chip.engWord, Chip.gang_logWf, Chip.drainHold_logWf, Chip.tapRaw_logWf, Chip.pnSearch_logWf,
    Chip.setHunter_log, Chip.huntWord_logWf]

/-! ## Lanes and modules -/

theorem Chip.laneSend_logWf (h : d.log.wf) (n : Nat) (l : List Byte) : (d.laneSend n l).log.wf := by
  grind [Chip.laneSend, Chip.emit_log, Chip.setLane_log]

theorem Chip.engSend_logWf (h : d.log.wf) (e : Nat) (l : List Byte) : (d.engSend e l).log.wf := by
  grind [Chip.engSend, Chip.foldl_logWf, Chip.laneSend_logWf]

theorem Chip.rawSignal_logWf (h : d.log.wf) (n : Nat) : (d.rawSignal n).log.wf := by
  grind [Chip.rawSignal, Chip.setLane_log, Chip.count_log]

theorem Chip.syncLane_logWf (h : d.log.wf) (n : Nat) : (d.syncLane n).log.wf := by
  grind [Chip.syncLane, Chip.foldl_logWf, Chip.syncLine_logWf]

theorem Chip.losSet_logWf (h : d.log.wf) (n : Nat) : (d.losSet n).log.wf := by
  grind [Chip.losSet, Chip.foldl_logWf, Chip.syncLane_logWf, Chip.ev_logWf, Chip.flag_log,
    Chip.setLane_log, Chip.count_log]

theorem Chip.losClr_logWf (h : d.log.wf) (n : Nat) : (d.losClr n).log.wf := by
  grind [Chip.losClr, Chip.foldl_logWf, Chip.syncLane_logWf, Chip.ev_logWf, Chip.flag_log,
    Chip.setLane_log]

theorem Chip.slewDone_logWf (h : d.log.wf) (m : Nat) : (d.slewDone m).log.wf := by
  grind [Chip.slewDone, Chip.setLane_log]

theorem Chip.signalChange_logWf (h : d.log.wf) (n : Nat) (trans : Bool) (freq : Int) :
    (d.signalChange n trans freq).log.wf := by
  grind [Chip.signalChange, Chip.setLane_log, Chip.rawSignal_logWf]

theorem Chip.cdrLock_logWf (h : d.log.wf) (n : Nat) : (d.cdrLock n).log.wf := by
  grind [Chip.cdrLock, Chip.foldl_logWf, Chip.markEngine_logWf, Chip.setLane_log,
    Chip.rawSignal_logWf]

theorem Chip.lockLoss_logWf (h : d.log.wf) (n : Nat) : (d.lockLoss n).log.wf := by
  grind [Chip.lockLoss, Chip.foldl_logWf, Chip.ev_logWf, Chip.flag_log, Chip.markEngine_logWf,
    Chip.setLane_log, Chip.rawSignal_logWf, Chip.count_log, Chip.raiseEng_logWf]

theorem Chip.lineWord_logWf (h : d.log.wf) (n w stamp : Nat) (poison : Bool) :
    (d.lineWord n w stamp poison).log.wf := by
  grind [Chip.lineWord, Chip.foldl_logWf, Chip.engWord_logWf, Chip.laneSend_logWf, Chip.setLane_log]

theorem Chip.formatMoved_logWf (h : d.log.wf) (n : Nat) : (d.formatMoved n).log.wf := by
  grind [Chip.formatMoved, Chip.foldl_logWf, Chip.huntFormat_logWf]

theorem Chip.laneStart_logWf (h : d.log.wf) (n : Nat) : (d.laneStart n).log.wf := by
  simpa [Chip.laneStart] using h

theorem Chip.laneStop_logWf (h : d.log.wf) (n : Nat) : (d.laneStop n).log.wf := by
  grind [Chip.laneStop, Chip.foldl_logWf, Chip.syncLane_logWf, Chip.markEngine_logWf,
    Chip.setLane_log]

theorem Chip.recal_logWf (h : d.log.wf) (n : Nat) : (d.recal n).log.wf := by
  simpa [Chip.recal] using h

theorem Chip.laneCtrl_logWf (h : d.log.wf) (n : Nat) (w : Word) : (d.laneCtrl n w).2.log.wf := by
  grind [Chip.laneCtrl, Chip.laneStart_logWf, Chip.laneStop_logWf, Chip.sbit_log, Chip.recal_logWf, Chip.flag_log]

theorem Chip.calDone_logWf (h : d.log.wf) (g : Nat) : (d.calDone g).log.wf := by
  grind [Chip.calDone, Chip.foldl_logWf, Chip.setLane_log]

theorem Chip.calStart_logWf (h : d.log.wf) : d.calStart.log.wf := by
  grind [Chip.calStart, Chip.foldl_logWf, Chip.setLane_log]

theorem Chip.moduleChange_logWf (h : d.log.wf) (k : Nat) (prs int : Bool) : (d.moduleChange k prs int).log.wf := by
  grind [Chip.moduleChange, Chip.sbit_log, Chip.ev_logWf]

theorem Chip.setMmbBytes_logWf (h : d.log.wf) (i : Nat) (l : List Byte) : (d.setMmbBytes i l).log.wf := by
  grind [Chip.setMmbBytes, Chip.foldl_logWf, Chip.wr_log]

theorem Chip.mmbGo_logWf (h : d.log.wf) (k : Nat) (w : Word) : (d.mmbGo k w).2.log.wf := by
  grind [Chip.mmbGo, Chip.sbit_log, Chip.emit_log, Chip.sf_log, Chip.flag_log, Chip.setMmb_log]

theorem Chip.mmbEnd_logWf (h : d.log.wf) (k : Nat) (how : MmbEnd) (n : Nat) (data : List Byte) :
    (d.mmbEnd k how n data).log.wf := by
  unfold Chip.mmbEnd
  extract_lets i b moved d1 d2 d3
  clear_value moved
  split
  · exact h
  have h2 : d2.log.wf := by simpa [d2, d1] using h
  have h3 : d3.log.wf := by grind [Chip.setMmbBytes_logWf]
  cases how <;> simpa using h3

theorem Chip.mmbStretch_logWf (h : d.log.wf) (k n : Nat) (data : List Byte) : (d.mmbStretch k n data).log.wf := by
  grind [Chip.mmbStretch, Chip.mmbEnd_logWf]

/-! ## Overhead and trail identifiers -/

theorem Chip.ttiAccept_logWf (h : d.log.wf) (e slot : Nat) (ctx : Option Nat) (m : List Byte) :
    (d.ttiAccept e slot ctx m).log.wf := by
  unfold Chip.ttiAccept
  extract_lets k rg t new mm d1 d2
  have h1 : d1.log.wf := by simpa [d1] using h
  refine Chip.defCrit_logWf ?_ _ _
  unfold d2
  split
  · exact h1
  · cases ctx with
    | some c => exact Chip.evt_logWf (by simpa using h1) _ _ _ _ _
    | none => exact Chip.ev_logWf (by simpa using h1) _ _ _

theorem Chip.ttiByte_logWf (h : d.log.wf) (e slot : Nat) (ctx : Option Nat) (b mf : Nat) :
    (d.ttiByte e slot ctx b mf).log.wf := by
  grind [Chip.ttiByte, Chip.flag_log, Chip.setTrace_log, Chip.ttiAccept_logWf]

theorem Chip.ttiSlotWrite_logWf (h : d.log.wf) (e slot : Nat) (shared : Bool) :
    (d.ttiSlotWrite e slot shared).log.wf := by
  simpa [Chip.ttiSlotWrite] using h

theorem Chip.ttiSlotDef_logWf (h : d.log.wf) (e slot : Nat) (ctx : Option Nat) : (d.ttiSlotDef e slot ctx).log.wf := by
  grind [Chip.ttiSlotDef, Chip.defCrit_logWf]

theorem Chip.bipDone_logWf (h : d.log.wf) (e l errs t : Nat) : (d.bipDone e l errs t).log.wf := by
  grind [Chip.bipDone, Chip.pmBlock_logWf, Chip.raiseEng_logWf, Chip.winFrames_logWf]

theorem Chip.apsSeen_logWf (h : d.log.wf) (e v t : Nat) : (d.apsSeen e v t).log.wf := by
  grind [Chip.apsSeen, Chip.ev_logWf, Chip.flag_log, Chip.apsRx_logWf, Chip.setOhp_log, Chip.raiseEng_logWf,
    Chip.wr_log]

theorem Chip.labelAccept_logWf (h : d.log.wf) (e v : Nat) : (d.labelAccept e v).log.wf := by
  grind [Chip.labelAccept, Chip.ev_logWf, Chip.flag_log, Chip.setOhp_log, Chip.wr_log]

theorem Chip.matchers_logWf (h : d.log.wf) (e : Nat) (f : List Byte) (start : Nat) (tent : Bool) :
    (d.matchers e f start tent).log.wf := by
  grind [Chip.matchers, Chip.foldl_logWf, Chip.levels_logWf]

theorem Chip.runSdh_logWf (h : d.log.wf) (e n : Nat) (f : List Byte) : (d.runSdh e n f).log.wf := by
  simpa [Chip.runSdh] using h

theorem Chip.rxSdh_logWf (h : d.log.wf) (e n start : Nat) (f : List Byte) : (d.rxSdh e n start f).log.wf := by
  grind [Chip.rxSdh, Chip.foldl_logWf, Chip.pmBlock_logWf, Chip.apsSeen_logWf,
    Chip.labelAccept_logWf, Chip.setOhp_log, Chip.bipDone_logWf, Chip.count_log, Chip.defRun_logWf,
    Chip.ttiByte_logWf]

theorem Chip.runOtn_logWf (h : d.log.wf) (e : Nat) (f : List Byte) : (d.runOtn e f).log.wf := by
  simpa [Chip.runOtn] using h

theorem Chip.rxTcm_logWf (h : d.log.wf) (e i : Nat) (bip : Option Nat) (f : List Byte) (mf : Nat) :
    (d.rxTcm e i bip f mf).log.wf := by
  grind [Chip.rxTcm, Chip.setOhp_log, Chip.count_log, Chip.defRun_logWf, Chip.ttiByte_logWf]

theorem Chip.rxOtn_logWf (h : d.log.wf) (e start : Nat) (f : List Byte) : (d.rxOtn e start f).log.wf := by
  unfold Chip.rxOtn
  extract_lets at_ o m v mf bip stampOf smErr sm pmErr pm psi
  split
  rename_i bad good oom _
  extract_lets d1 m1 d2 d3 d4 d5 d6 d7 d8 y d9 d10 lom o1 d11 z s d12 d13 exp s1
  have h1 : d1.log.wf := Chip.defCrit_logWf (by simpa using h) _ _
  have h2 : d2.log.wf := by
    unfold d2
    clear_value d1
    grind [Chip.setMon_log, Chip.setOhp_log, Chip.sbit_log, Chip.defCrit_logWf]
  clear_value d2
  have h3 : d3.log.wf := by grind [Chip.count_log, Chip.bipDone_logWf]
  have h5 : d5.log.wf := by grind [Chip.count_log, Chip.defRun_logWf, Chip.ttiByte_logWf]
  clear_value d5
  have h6 : d6.log.wf := by grind [Chip.count_log, Chip.bipDone_logWf]
  have h8 : d8.log.wf := by grind [Chip.count_log, Chip.pmBlock_logWf, Chip.defRun_logWf, Chip.ttiByte_logWf]
  clear_value d8
  have h10 : d10.log.wf :=
    Chip.foldl_logWf (fun x i hx => Chip.rxTcm_logWf hx e (i + 1) bip f mf) _ (by simpa [d9] using h8)
  clear_value d10
  have h11 : d11.log.wf := by grind [Chip.setOhp_log, Chip.apsSeen_logWf]
  clear_value d11
  grind [Chip.setOhp_log, Chip.labelAccept_logWf, Chip.defCrit_logWf]

/-! ## Mappers and pointers -/

theorem Chip.msiEval_logWf (h : d.log.wf) (e : Nat) : (d.msiEval e).log.wf := by
  grind [Chip.msiEval, Chip.foldl_logWf, Chip.sbit_log, Chip.setCtx_log, Chip.defCrit_logWf,
    Chip.ctxSync_logWf]

theorem Chip.countHalf_logWf (h : d.log.wf) (r : RegId) (hi : Bool) (n : Nat) : (d.countHalf r hi n).log.wf := by
  grind [Chip.countHalf, Chip.sf_log]

theorem Chip.ctxEvent_logWf (h : d.log.wf) (t bit_ code det : Nat) : (d.ctxEvent t bit_ code det).log.wf := by
  grind [Chip.ctxEvent, Chip.evt_logWf, Chip.flag_log]

theorem Chip.ptrEvents_logWf (h : d.log.wf) (t : Nat) (ev : PtrEv) (ptr stamp : Nat) :
    (d.ptrEvents t ev ptr stamp).log.wf := by
  grind [Chip.ptrEvents, Chip.ctxEvent_logWf, Chip.raiseEng_logWf, Chip.countHalf_logWf]

theorem Chip.ctxPhase_logWf (h : d.log.wf) (t at_ : Nat) : (d.ctxPhase t at_).log.wf := by
  grind [Chip.ctxPhase, Chip.setCtx_log, Chip.breakBale_logWf]

theorem Chip.ctxPtr_logWf (h : d.log.wf) (t : Nat) (ws : List Nat) (stamp : Nat) (conf : Bool) :
    (d.ctxPtr t ws stamp conf).log.wf := by
  unfold Chip.ctxPtr
  split
  · exact h
  · grind [Chip.ptrEvents_logWf, Chip.setCtx_log, Chip.workLeft_logWf, Chip.ctxPhase_logWf, Chip.ctxSync_logWf]

theorem Chip.ampJc_logWf (h : d.log.wf) (t : Nat) (jc : Nat) (conf : Bool) : (d.ampJc t jc conf).log.wf := by
  unfold Chip.ampJc
  extract_lets x d1
  have h1 : d1.log.wf := by simpa [d1] using h
  split
  · exact h1
  · split
    · exact Chip.countHalf_logWf h1 _ _ _
    · exact Chip.countHalf_logWf h1 _ _ _
    · exact Chip.countHalf_logWf h1 _ _ _
    · exact h1

theorem Chip.gmpJc_logWf (h : d.log.wf) (t : Nat) (jc : List Nat) (ok conf : Bool) : (d.gmpJc t jc ok conf).log.wf := by
  grind [Chip.gmpJc, Chip.setCtx_log, Chip.sf_log, Chip.ctxEvent_logWf, Chip.countHalf_logWf]

theorem Chip.ctxJc_logWf (h : d.log.wf) (t : Nat) (jc : List Nat) (conf : Bool) : (d.ctxJc t jc conf).log.wf := by
  grind [Chip.ctxJc, Chip.setCtx_log, Chip.ampJc_logWf, Chip.ctxPhase_logWf, Chip.ctxSync_logWf, Chip.gmpJc_logWf]

theorem Chip.pathBlock_logWf (h : d.log.wf) (t errs : Nat) : (d.pathBlock t errs).log.wf := by
  grind [Chip.pathBlock, Chip.pmBlock_logWf]

theorem Chip.pathBip_logWf (h : d.log.wf) (t errs : Nat) : (d.pathBip t errs).log.wf := by
  grind [Chip.pathBip, Chip.setCtx_log, Chip.pathBlock_logWf, Chip.count_log]

theorem Chip.ctxLabel_logWf (h : d.log.wf) (t v : Nat) : (d.ctxLabel t v).log.wf := by
  grind [Chip.ctxLabel, Chip.setCtx_log, Chip.defCrit_logWf, Chip.ctxEvent_logWf]

theorem Chip.labelSeen_logWf (h : d.log.wf) (t need v : Nat) : (d.labelSeen t need v).log.wf := by
  grind [Chip.labelSeen, Chip.ctxLabel_logWf, Chip.setCtx_log]

theorem Chip.ctxTrace_logWf (h : d.log.wf) (t b mf : Nat) : (d.ctxTrace t b mf).log.wf := by
  grind [Chip.ctxTrace, Chip.ttiByte_logWf]

theorem Chip.ctxH4_logWf (h : d.log.wf) (t v : Nat) : (d.ctxH4 t v).log.wf := by
  grind [Chip.ctxH4, Chip.setCtx_log, Chip.defCrit_logWf]

theorem Chip.rxHo_logWf (h : d.log.wf) (t : Nat) (u : List Byte) : (d.rxHo t u).log.wf := by
  grind [Chip.rxHo, Chip.ctxH4_logWf, Chip.pathBip_logWf, Chip.setCtx_log, Chip.labelSeen_logWf, Chip.count_log,
    Chip.ctxTrace_logWf, Chip.defRun_logWf]

theorem Chip.rxLo_logWf (h : d.log.wf) (t : Nat) (u : List Byte) : (d.rxLo t u).log.wf := by
  grind [Chip.rxLo, Chip.pathBip_logWf, Chip.setCtx_log, Chip.labelSeen_logWf, Chip.count_log, Chip.ctxTrace_logWf,
    Chip.defRun_logWf]

theorem Chip.rxOdu_logWf (h : d.log.wf) (t : Nat) (u : List Byte) : (d.rxOdu t u).log.wf := by
  grind [Chip.rxOdu, Chip.pathBip_logWf, Chip.setCtx_log, Chip.labelSeen_logWf, Chip.count_log, Chip.ctxTrace_logWf,
    Chip.defRun_logWf]

theorem Chip.contDone_logWf (h : d.log.wf) (t : Nat) (u : List Byte) (conf : Bool) : (d.contDone t u conf).log.wf := by
  grind [Chip.contDone, Chip.rxOdu_logWf, Chip.rxLo_logWf, Chip.setCtx_log, Chip.rxHo_logWf]

theorem Chip.contOctet_logWf (h : d.log.wf) (t : Nat) (conf poison : Bool) (k : Option Nat) (o : Byte) (stamp : Nat) :
    (d.contOctet t conf poison k o stamp).log.wf := by
  grind [Chip.contOctet, Chip.setCtx_log, Chip.tapOne_logWf, Chip.contDone_logWf]

theorem Chip.placeOctet_logWf (h : d.log.wf) (t : Nat) (conf poison : Bool) (o : Byte) (stamp : Nat) :
    (d.placeOctet t conf poison o stamp).log.wf := by
  grind [Chip.placeOctet, Chip.contOctet_logWf, Chip.setCtx_log]

theorem Chip.placeRun_logWf (h : d.log.wf) (t : Nat) (conf poison : Bool) (r : Nat × List Byte) :
    (d.placeRun t conf poison r).log.wf := by
  grind [Chip.placeRun, Chip.foldl_logWf, Chip.placeOctet_logWf]

theorem Chip.placeJust_logWf (h : d.log.wf) (t : Nat) (conf poison : Bool) (r : Nat × List Byte) :
    (d.placeJust t conf poison r).log.wf := by
  grind [Chip.placeJust, Chip.setCtx_log, Chip.placeRun_logWf]

theorem Chip.rxUnit_logWf (h : d.log.wf) (e : Nat) (conf : Bool) (u : RxUnit) : (d.rxUnit e conf u).log.wf := by
  grind [Chip.rxUnit, Chip.foldl_logWf, Chip.placeJust_logWf, Chip.ctxJc_logWf, Chip.setCtx_log,
    Chip.ctxPtr_logWf, Chip.placeRun_logWf]

theorem Chip.groupOctets_logWf (h : d.log.wf) (e start : Nat) (conf : Bool) (bad : List Nat) (l : List Byte) :
    (d.groupOctets e start conf bad l).log.wf := by
  unfold Chip.groupOctets
  refine List.foldlRecOn _ _ (motive := fun a : Chip × Nat => a.1.log.wf) h fun a ha p _ => ?_
  grind [Chip.patMatch_logWf, Chip.tapOctet_logWf, Chip.tapSelected_logWf]

theorem Chip.rxFrame_logWf (h : d.log.wf) (e : Nat) (fr : RxFrame) : (d.rxFrame e fr).log.wf := by
  grind [Chip.rxFrame, Chip.foldl_logWf, Chip.groupOctets_logWf, Chip.rxUnit_logWf,
    Chip.runOtn_logWf, Chip.rxSdh_logWf, Chip.setOhp_log, Chip.msiEval_logWf, Chip.rxOtn_logWf, Chip.parents_logWf,
    Chip.runSdh_logWf, Chip.workParents_logWf, Chip.matchers_logWf]

theorem Chip.ctxStart_logWf (h : d.log.wf) (t : Nat) : (d.ctxStart t).log.wf := by
  simpa [Chip.ctxStart] using h

theorem Chip.patDrop_logWf (h : d.log.wf) (e sub : Nat) : (d.patDrop e sub).log.wf := by
  simpa [Chip.patDrop] using h

theorem Chip.ctxEnd_logWf (h : d.log.wf) (t : Nat) : (d.ctxEnd t).log.wf := by
  grind [Chip.ctxEnd, Chip.foldl_logWf, Chip.unflag_log, Chip.patDrop_logWf, Chip.setCtx_log,
    Chip.setDefT_log, Chip.defFlip_logWf, Chip.tapWord_log]

theorem Chip.ctxEnable_logWf (h : d.log.wf) (t : Nat) : (d.ctxEnable t).2.log.wf := by
  grind [Chip.ctxEnable, Chip.flag_log, Chip.msiEval_logWf, Chip.parents_logWf, Chip.ctxStart_logWf]

theorem Chip.ctxDisable_logWf (h : d.log.wf) (t : Nat) : (d.ctxDisable t).2.log.wf := by
  grind [Chip.ctxDisable, Chip.ctxEnd_logWf, Chip.flag_log, Chip.msiEval_logWf, Chip.parents_logWf]

theorem Chip.mapStart_logWf (h : d.log.wf) (e : Nat) : (d.mapStart e).log.wf := by
  grind [Chip.mapStart, Chip.foldl_logWf, Chip.ctxEnd_logWf, Chip.evt_logWf, Chip.flag_log,
    Chip.ctxStart_logWf]

theorem Chip.mapStop_logWf (h : d.log.wf) (e : Nat) : (d.mapStop e).log.wf := by
  grind [Chip.mapStop, Chip.foldl_logWf, Chip.setCtx_log]

theorem Chip.seqGo_logWf (h : d.log.wf) (e t : Nat) : (d.seqGo e t).log.wf := by
  grind [Chip.seqGo, Chip.setCtx_log, Chip.flag_log]

theorem Chip.seqStop_logWf (h : d.log.wf) (e t : Nat) : (d.seqStop e t).log.wf := by
  grind [Chip.seqStop, Chip.setCtx_log]

/-! ## Ledger -/

theorem Chip.ledgerFull_logWf (h : d.log.wf) (det : Nat) : (d.ledgerFull det).log.wf := by
  grind [Chip.ledgerFull, Chip.ev_logWf, Chip.flag_log]

theorem Chip.reserve_logWf (h : d.log.wf) {kind reason init old new session : Nat} {p : Nat × Chip}
    (hp : d.reserve kind reason init old new session = some p) : p.2.log.wf := by
  obtain ⟨n, -, rfl⟩ := Option.map_eq_some_iff.mp hp
  exact h

theorem Chip.unreserve_logWf (h : d.log.wf) (slot : Nat) : (d.unreserve slot).log.wf := by
  simpa [Chip.unreserve] using h

theorem Chip.burnSlot_logWf (h : d.log.wf) (slot : Nat) : (d.burnSlot slot).log.wf := by
  simpa [Chip.burnSlot] using h

theorem Chip.burnDone_logWf (h : d.log.wf) : (d.burnDone).log.wf := by
  unfold Chip.burnDone
  split
  · split
    · exact h
    · extract_lets rest next d1 d2 d3
      have h3 : d3.log.wf := by
        unfold d3
        split <;> simpa [d2, d1] using h
      split
      · exact Chip.evt_logWf h3 _ _ _ _ _
      · exact h3
  · exact h

/-! ## Yard and Hayloft -/

theorem Chip.hayEvent_logWf (h : d.log.wf) (s bit_ code pc : Nat) : (d.hayEvent s bit_ code pc).log.wf := by
  grind [Chip.hayEvent, Chip.ev_logWf, Chip.flag_log]

theorem Chip.migStart_logWf (h : d.log.wf) (s lpc reason : Nat) (slot dest : Option Nat) :
    (d.migStart s lpc reason slot dest).log.wf := by
  unfold Chip.migStart
  extract_lets x pc
  split
  · simpa using h
  · split
    · exact Chip.hayEvent_logWf h s _ _ _
    · split
      · exact Chip.ev_logWf (by simpa using h) _ _ _
      · rename_i n d1 hr
        refine Chip.hayEvent_logWf ?_ s _ _ _
        rw [Chip.setStack_log]
        split at hr
        · cases hr
          exact h
        · exact Chip.reserve_logWf h hr

theorem Chip.migNext_logWf (h : d.log.wf) (s pc reason : Nat) : (d.migNext s pc reason).log.wf := by
  grind [Chip.migNext, Chip.migStart_logWf]

theorem Chip.wear_logWf (h : d.log.wf) (s pc reason : Nat) : (d.wear s pc reason).log.wf := by
  grind [Chip.wear, Chip.hayEvent_logWf, Chip.setStack_log, Chip.migStart_logWf]

theorem Chip.ceSeen_logWf (h : d.log.wf) (s pc : Nat) : (d.ceSeen s pc).log.wf := by
  grind [Chip.ceSeen, Chip.wear_logWf, Chip.flag_log, Chip.count_log, Chip.wr_log]

theorem Chip.ueSeen_logWf (h : d.log.wf) (s pc addr : Nat) (scrub : Bool) : (d.ueSeen s pc addr scrub).log.wf := by
  grind [Chip.ueSeen, Chip.wear_logWf, Chip.evt_logWf, Chip.flag_log, Chip.count_log, Chip.wr_log]

theorem Dev.eccRead_logWf (h : s.chip.log.wf) (a n : Nat) (ces ues : List Nat) :
    (s.eccRead a n ces ues).2.chip.log.wf := by
  grind [Dev.eccRead, Chip.foldl_logWf, Dev.foldl_logWf, Chip.ueSeen_logWf, Chip.ceSeen_logWf]

theorem Chip.yardAns_logWf (h : d.log.wf) (m tag : Nat) (st : Status) (data : List Byte) (marks : List Nat) :
    (d.yardAns m tag st data marks).log.wf := by
  simpa [Chip.yardAns] using h

theorem Chip.yardErr_logWf (h : d.log.wf) (a m p kind : Nat) : (d.yardErr a m p kind).log.wf := by
  simpa [Chip.yardErr] using h

theorem Chip.dropTxn_logWf (h : d.log.wf) (m tag : Nat) : (d.dropTxn m tag).log.wf := by
  simpa [Chip.dropTxn] using h

theorem Chip.deliverYard_logWf (h : d.log.wf) (m p n : Nat) : (d.deliverYard m p n).log.wf := by
  induction n generalizing d with
  | zero => exact h
  | succ n ih =>
    unfold Chip.deliverYard
    split
    · split
      · exact ih (Chip.yardAns_logWf (Chip.dropTxn_logWf h m _) m _ _ _ _)
      · exact h
    · exact h

theorem Chip.deliver_logWf (h : d.log.wf) (m p : Nat) : (d.deliver m p).log.wf := by
  grind [Chip.deliver, Chip.deliverYard_logWf]

theorem Chip.putTxn_logWf (h : d.log.wf) (t : Txn) : (d.putTxn t).log.wf := by
  simpa [Chip.putTxn] using h

theorem Chip.complete_logWf (h : d.log.wf) (t : Txn) (st : Status) (data : List Byte) (marks : List Nat) :
    (d.complete t st data marks).log.wf := by
  grind [Chip.complete, Chip.putTxn_logWf, Chip.deliver_logWf]

theorem Chip.resetTxn_logWf (h : d.log.wf) (t : Txn) : (d.resetTxn t).log.wf := by
  grind [Chip.resetTxn, Chip.yardAns_logWf, Chip.deliver_logWf, Chip.dropTxn_logWf]

theorem Chip.addTxn_logWf (h : d.log.wf) (t : Txn) : (d.addTxn t).log.wf := by
  simpa [Chip.addTxn] using h

theorem Chip.yardRequest_logWf (h : d.log.wf) (m tag : Nat) (kind : TKind) (cls : TClass) (a len : Nat)
    (data : List Byte) :
    (d.yardRequest m tag kind cls a len data).log.wf := by
  grind [Chip.yardRequest, Chip.yardAns_logWf, Chip.addTxn_logWf, Chip.complete_logWf]

theorem Chip.yardGrantTxn_logWf (h : d.log.wf) (t : Txn) : (d.yardGrantTxn t).log.wf := by
  grind [Chip.yardGrantTxn, Chip.yardErr_logWf, Chip.putTxn_logWf, Chip.flag_log, Chip.setYard_log, Chip.count_log,
    Chip.complete_logWf]

theorem Chip.yardGrant_logWf (h : d.log.wf) (p : Nat) : (d.yardGrant p).log.wf := by
  grind [Chip.yardGrant, Chip.yardGrantTxn_logWf]

theorem Chip.freeLock_logWf (h : d.log.wf) (p m : Nat) : (d.freeLock p m).log.wf := by
  simpa [Chip.freeLock] using h

theorem Chip.breakLock_logWf (h : d.log.wf) (p : Nat) (st : Status) : (d.breakLock p st).log.wf := by
  grind [Chip.breakLock, Chip.setYard_log, Chip.freeLock_logWf]

theorem Chip.poisonLock_logWf (h : d.log.wf) (t : Txn) : (d.poisonLock t).log.wf := by
  grind [Chip.poisonLock, Chip.breakLock_logWf]

theorem Dev.yardReply_logWf (h : s.chip.log.wf) (t : Txn) (ces ues : List Nat) (remote : List Byte) :
    (s.yardReply t ces ues remote).chip.log.wf := by
  grind [Dev.yardReply, Chip.foldl_logWf, Dev.foldl_logWf, Dev.on_chip, Chip.remoteBale_logWf, Dev.eccRead_logWf,
    Chip.poisonLock_logWf, Chip.complete_logWf]

theorem Chip.unlockRefuse_logWf (h : d.log.wf) (m a : Nat) (st : Status) : (d.unlockRefuse m a st).log.wf := by
  grind [Chip.unlockRefuse, Chip.yardErr_logWf, Chip.setYard_log]

theorem Chip.unlock_logWf (h : d.log.wf) (m : Nat) : (d.unlock m).log.wf := by
  grind [Chip.unlock, Chip.freeLock_logWf]

theorem Chip.lockExpire_logWf (h : d.log.wf) (p : Nat) : (d.lockExpire p).log.wf := by
  grind [Chip.lockExpire, Chip.yardErr_logWf, Chip.flag_log, Chip.breakLock_logWf, Chip.count_log]

theorem Dev.halfWrite_logWf (h : s.chip.log.wf) (n a : Nat) (l : List Byte) : (s.halfWrite n a l).chip.log.wf := by
  induction n generalizing s a l with
  | zero => exact h
  | succ n ih =>
    unfold Dev.halfWrite
    split
    · exact h
    · split
      rename_i b d hd
      exact ih (logWf_of_eq hd (Chip.fresh_logWf h 1)) _ _

theorem Dev.abandon_logWf (h : s.chip.log.wf) (t : Txn) : (s.abandon t).chip.log.wf := by
  grind [Dev.abandon, Dev.on_chip, Chip.resetTxn_logWf, Dev.halfWrite_logWf]

theorem Chip.migAbort_logWf (h : d.log.wf) (s : Nat) (byFence : Bool) : (d.migAbort s byFence).log.wf := by
  grind [Chip.migAbort, Chip.unreserve_logWf, Chip.hayEvent_logWf, Chip.setStack_log]

theorem Chip.fence_logWf (h : d.log.wf) (p m : Nat) : (d.fence p m).log.wf := by
  grind [Chip.fence, Chip.foldl_logWf, Chip.migAbort_logWf, Chip.ev_logWf, Chip.flag_log,
    Chip.resetTxn_logWf, Chip.breakLock_logWf, Chip.setYard_log]

theorem Dev.yardTimeout_logWf (h : s.chip.log.wf) (t : Txn) : (s.yardTimeout t).chip.log.wf := by
  grind [Dev.yardTimeout, Dev.on_chip, Chip.yardErr_logWf, Chip.ev_logWf, Chip.fence_logWf, Chip.flag_log,
    Dev.abandon_logWf, Chip.count_log]

theorem Dev.graceEnd_logWf (h : s.chip.log.wf) (p : Nat) : (s.graceEnd p).chip.log.wf := by
  grind [Dev.graceEnd, Chip.foldl_logWf, Dev.foldl_logWf, Dev.on_chip, Dev.abandon_logWf, Chip.setYard_log]

theorem Chip.portSub_logWf (h : d.log.wf) (p : Nat) : (d.portSub p).log.wf := by
  grind [Chip.portSub, Chip.ev_logWf, Chip.burnSlot_logWf, Chip.flag_log, Chip.setYard_log]

theorem Dev.fenceEnd_logWf (h : s.chip.log.wf) (p : Nat) : (s.fenceEnd p).chip.log.wf := by
  grind [Dev.fenceEnd, Chip.foldl_logWf, Dev.foldl_logWf, Dev.on_chip, Dev.settle_logWf, Chip.migNext_logWf,
    Chip.ev_logWf, Chip.flag_log, Chip.setYard_log, Chip.portSub_logWf]

theorem Dev.masterReset_logWf (h : s.chip.log.wf) (m : Nat) : (s.masterReset m).chip.log.wf := by
  grind [Dev.masterReset, Chip.foldl_logWf, Dev.foldl_logWf, Dev.on_chip, Chip.breakLock_logWf, Chip.setYard_log]

theorem Dev.scrubBlock_logWf (h : s.chip.log.wf) (st pc blk err : Nat) : (s.scrubBlock st pc blk err).chip.log.wf := by
  grind [Dev.scrubBlock, Chip.migAbort_logWf, Chip.ueSeen_logWf, Chip.ceSeen_logWf, Chip.wr_log]

theorem Chip.scrubPassEnd_logWf (h : d.log.wf) (s : Nat) : (d.scrubPassEnd s).log.wf := by
  grind [Chip.scrubPassEnd, Chip.foldl_logWf, Chip.migNext_logWf, Chip.sf_log, Chip.flag_log,
    Chip.wr_log]

theorem Chip.migCopy_logWf (h : d.log.wf) (s : Nat) : (d.migCopy s).log.wf := by
  grind [Chip.migCopy, Chip.setStack_log]

theorem Chip.migComplete_logWf (h : d.log.wf) (s : Nat) : (d.migComplete s).log.wf := by
  grind [Chip.migComplete, Chip.migAbort_logWf, Chip.migNext_logWf, Chip.hayEvent_logWf, Chip.setStack_log,
    Chip.burnSlot_logWf]

/-! ## Pattern player -/

theorem Chip.prgnEnable_logWf (h : d.log.wf) (e r : Nat) : (d.prgnEnable e r).2.log.wf := by
  grind [Chip.prgnEnable, Chip.unflag_log, Chip.flag_log]

theorem Chip.prgnDisable_logWf (h : d.log.wf) (e r : Nat) : (d.prgnDisable e r).2.log.wf := by
  grind [Chip.prgnDisable, Chip.unflag_log, Chip.flag_log]

theorem Dev.patLoad_logWf (h : s.chip.log.wf) (r off : Nat) (data : List Byte) (complete : Bool) :
    (s.patLoad r off data complete).2.chip.log.wf := by
  unfold Dev.patLoad
  extract_lets d d1 m
  repeat' split
  all_goals simpa [d1] using h

theorem Chip.patEvent_logWf (h : d.log.wf) (e bit_ code sub det ext : Nat) :
    (d.patEvent e bit_ code sub det ext).log.wf := by
  grind [Chip.patEvent, Chip.evt_logWf, Chip.flag_log]

theorem Dev.patPush_logWf (h : s.chip.log.wf) (e rgn sub : Nat) (time : Option Nat) (fstart : Bool) :
    (s.patPush e rgn sub time fstart).2.log.wf := by
  grind [Dev.patPush, Chip.setPat_log, Chip.flag_log]

theorem Chip.patFlush_logWf (h : d.log.wf) (e sub : Nat) : (d.patFlush e sub).log.wf := by
  simpa [Chip.patFlush] using h

theorem Chip.patAbort_logWf (h : d.log.wf) (e sub : Nat) : (d.patAbort e sub).log.wf := by
  grind [Chip.patAbort, Chip.setPat_log, Chip.patFlush_logWf]

theorem Chip.patStop_logWf (h : d.log.wf) (e : Nat) : (d.patStop e).log.wf := by
  simpa [Chip.patStop] using h

theorem Chip.entryReady_logWf (h : d.log.wf) (e sub : Nat) : (d.entryReady e sub).log.wf := by
  grind [Chip.entryReady, Chip.setPat_log]

theorem Chip.setRun_logWf (h : d.log.wf) (e sub : Nat) (r : Option Run') : (d.setRun e sub r).log.wf := by
  simpa [Chip.setRun] using h

theorem Dev.enterSeg_logWf (h : s.chip.log.wf) (e now : Nat) (r0 : Run') (g : Seg) :
    (s.enterSeg e now r0 g).chip.log.wf := by
  unfold Dev.enterSeg
  extract_lets r diff
  have set (o : Option Run') : (s.chip.setRun e r.sub o).log.wf := Chip.setRun_logWf h e r.sub o
  split
  · split
    · exact set _
    · split
      · exact set _
      · exact Chip.patEvent_logWf (set _) e 1 _ _ _ _
  · exact set _

theorem Dev.runAdvance_logWf (h : s.chip.log.wf) (e now : Nat) (r : Run') : (s.runAdvance e now r).chip.log.wf := by
  grind [Dev.runAdvance, Dev.on_chip, Dev.enterSeg_logWf, Chip.setRun_logWf, Chip.patEvent_logWf]

theorem Dev.frameEnd_logWf (h : s.chip.log.wf) (e sub now : Nat) : (s.frameEnd e sub now).chip.log.wf := by
  grind [Dev.frameEnd, Dev.on_chip, Dev.runAdvance_logWf, Chip.setRun_logWf]

theorem Chip.countLaunch_logWf (h : d.log.wf) (e : Nat) (late : Bool) : (d.countLaunch e late).log.wf := by
  grind [Chip.countLaunch, Chip.sf_log]

theorem Chip.launch_logWf (h : d.log.wf) (e : Nat) (q : QEntry) (t : Nat) (late : Bool) :
    (d.launch e q t late).log.wf := by
  grind [Chip.launch, Chip.setPat_log, Chip.setRun_logWf, Chip.patEvent_logWf, Chip.setPair_log, Chip.raiseEng_logWf,
    Chip.countLaunch_logWf]

theorem Chip.skipTo_logWf (h : d.log.wf) (e sub n : Nat) : (d.skipTo e sub n).log.wf := by
  grind [Chip.skipTo, Chip.foldl_logWf, Chip.setPat_log, Chip.patEvent_logWf]

theorem Chip.cutRun_logWf (h : d.log.wf) (e sub : Nat) : (d.cutRun e sub).log.wf := by
  grind [Chip.cutRun, Chip.setRun_logWf, Chip.patEvent_logWf]

theorem Dev.segDue_logWf {y : Dev} (h : s.chip.log.wf) {e sub t : Nat} {start : Bool}
    (hy : s.segDue e sub t start = some y) :
    y.chip.log.wf := by
  unfold Dev.segDue at hy
  split at hy
  · cases hy
  · dsimp only at hy
    split at hy
    · split at hy
      · cases hy
        exact Chip.setRun_logWf h e sub _
      · cases hy
    · split at hy
      · cases hy
        exact Chip.patEvent_logWf (Chip.setRun_logWf h e sub _) e 2 _ _ _ _
      · cases hy

theorem Chip.cutFrame_logWf (h : d.log.wf) (e sent : Nat) : (d.cutFrame e sent).log.wf := by
  grind [Chip.cutFrame, Chip.setOhp_log]

theorem Dev.rawStop_logWf (h : s.chip.log.wf) (e sub sent : Nat) : (s.rawStop e sub sent).chip.log.wf := by
  grind [Dev.rawStop, Dev.on_chip, Chip.setRun_logWf, Chip.cutFrame_logWf]

theorem Dev.scriptLaunch_logWf (h : s.chip.log.wf) (e sub t sent : Nat) :
    (s.scriptLaunch e sub t sent).chip.log.wf := by
  unfold Dev.scriptLaunch
  split
  · exact h
  extract_lets s' start s0 p
  have h0 : s0.chip.log.wf := by
    grind [Dev.rawStop_logWf, Dev.frameEnd_logWf]
  have cut (y : Dev) (hy : y.chip.log.wf) : (if start then y else y.on (fun d => d.cutFrame e sent)).chip.log.wf := by
    split
    · exact hy
    · exact Chip.cutFrame_logWf hy e sent
  split
  · exact h0
  split
  · split
    · exact h0
    split
    · exact h0
    extract_lets s1 late s2
    have h1 : s1.chip.log.wf := Chip.skipTo_logWf h0 e sub _
    split
    · exact Chip.launch_logWf (Chip.cutRun_logWf (cut s1 h1) e sub) e _ t late
    · simpa using h1
  · split
    · exact cut _ (Dev.segDue_logWf h0 ‹_›)
    · split
      · split
        · exact Chip.launch_logWf (cut s0 h0) e _ t false
        · exact h0
      · exact h0

theorem Dev.injArm_logWf (h : s.chip.log.wf) (e : Nat) : (s.injArm e).2.log.wf := by
  grind [Dev.injArm, Chip.setPat_log, Chip.flag_log]

theorem Chip.injStop_logWf (h : d.log.wf) (e : Nat) : (d.injStop e).log.wf := by
  grind [Chip.injStop, Chip.setPat_log]

theorem Dev.patPoison_logWf (h : s.chip.log.wf) (e sub rgn : Nat) (bad : List Nat) :
    (s.patPoison e sub rgn bad).2.chip.log.wf := by
  grind [Dev.patPoison, Dev.on_chip, Chip.patEvent_logWf]

theorem Dev.patQueued_logWf (h : s.chip.log.wf) (e sub a : Nat) (bad : List Nat) :
    (s.patQueued e sub a bad).chip.log.wf := by
  grind [Dev.patQueued, Dev.on_chip, Chip.setPat_log, Dev.patPoison_logWf]

theorem Dev.patRead_logWf (h : s.chip.log.wf) (e sub a n : Nat) (ces ues : List Nat) :
    (s.patRead e sub a n ces ues).chip.log.wf := by
  have h1 := Dev.eccRead_logWf h a n ces ues
  unfold Dev.patRead
  dsimp only
  split
  · exact h1
  · split
    · split
      · have h2 (r : Nat) (b : List Nat) := Dev.patPoison_logWf h1 e sub r b
        split
        · exact h2 _ _
        · rw [Dev.on_chip]
          split
          · exact h2 _ _
          · simpa using h2 _ _
      · exact Dev.patQueued_logWf h1 e sub a _
    · exact Dev.patQueued_logWf h1 e sub a _

/-! ## Regions, Stalls and deskew -/

theorem Chip.stallPush_logWf (h : d.log.wf) (e ecc : Nat) : (d.stallPush e ecc).log.wf := by
  grind [Chip.stallPush, Chip.setCap_log, Chip.count_log]

theorem Chip.popNoted_logWf (h : d.log.wf) (e : Nat) : (d.popNoted e).log.wf := by
  simpa [Chip.popNoted] using h

theorem Chip.stallPop_logWf (h : d.log.wf) (e : Nat) (flips : List Byte) (side : Nat) :
    (d.stallPop e flips side).log.wf := by
  grind [Chip.stallPop, Chip.popNoted_logWf, Chip.tagError_logWf, Chip.setCap_log, Chip.count_log,
    Chip.takeWord_logWf]

theorem Chip.lossEnd_logWf (h : d.log.wf) (e : Nat) : (d.lossEnd e).log.wf := by
  grind [Chip.lossEnd, Chip.foldl_logWf, Chip.setCap_log, Chip.ebPut_logWf]

theorem Chip.baleFlush_logWf (h : d.log.wf) (r : Nat) : (d.baleFlush r).log.wf := by
  grind [Chip.baleFlush, Chip.closeBale_logWf]

theorem Dev.baleReply_logWf (h : s.chip.log.wf) (r seq : Nat) (ok : Bool) : (s.baleReply r seq ok).chip.log.wf := by
  grind [Dev.baleReply, Dev.on_chip, Dev.settle_logWf, Chip.refuseBale_logWf, Dev.accept_logWf]

theorem Chip.drainSub_logWf (h : d.log.wf) (e sub : Nat) : (d.drainSub e sub).log.wf := by
  grind [Chip.drainSub, Chip.foldl_logWf, Chip.setCap_log, Chip.takeWord_logWf]

theorem Dev.finishWrites_logWf (h : s.chip.log.wf) (r : Nat) : (s.finishWrites r).chip.log.wf := by
  unfold Dev.finishWrites
  extract_lets s1 s2
  have h1 : s1.chip.log.wf := Dev.foldl_logWf (fun x w hx => by
    grind [Chip.refuseBale_logWf, Dev.accept_logWf, Dev.on_chip]) _ h
  have h2 : s2.chip.log.wf := Dev.settle_logWf h1 r
  dsimp only [Dev.on_chip]
  rw [Chip.setRgn_log]
  split
  · exact h2
  · exact Chip.addLost_logWf h2 _ _

theorem Dev.rgnStop_logWf (h : s.chip.log.wf) (r : Nat) (hold : Bool) : (s.rgnStop r hold).chip.log.wf := by
  grind [Dev.rgnStop, Chip.foldl_logWf, Dev.foldl_logWf, Chip.closeBale_logWf, Chip.tapWord_log,
    Dev.finishWrites_logWf, Chip.drainSub_logWf]

theorem Dev.rgnStopEng_logWf (h : s.chip.log.wf) (e : Nat) : (s.rgnStopEng e).chip.log.wf := by
  grind [Dev.rgnStopEng, Chip.foldl_logWf, Dev.foldl_logWf, Dev.rgnStop_logWf]

theorem Chip.rgnEnable_logWf (h : d.log.wf) (e r : Nat) : (d.rgnEnable e r).2.log.wf := by
  grind [Chip.rgnEnable, Chip.unflag_log, Chip.flag_log]

theorem Dev.rgnDisable_logWf (h : s.chip.log.wf) (r : Nat) : (s.rgnDisable r).chip.log.wf := by
  grind [Dev.rgnDisable, Dev.on_chip, Chip.unflag_log, Dev.rgnStop_logWf, Chip.setRgn_log]

theorem Chip.rgnArm_logWf (h : d.log.wf) (e r : Nat) : (d.rgnArm e r).2.log.wf := by
  grind [Chip.rgnArm, Chip.setCap_log, Chip.flag_log, Chip.setRgn_log]

theorem Chip.combEnable_logWf (h : d.log.wf) (e cb : Nat) : (d.combEnable e cb).2.log.wf := by
  grind [Chip.combEnable, Chip.unflag_log, Chip.combEval_logWf, Chip.flag_log, Chip.setComb_log, Chip.raise_logWf]

theorem Chip.hostTrigger_logWf (h : d.log.wf) (cluster bits : Nat) : (d.hostTrigger cluster bits).log.wf := by
  grind [Chip.hostTrigger, Chip.foldl_logWf, Chip.raise_logWf]

theorem Chip.clearFired_logWf (h : d.log.wf) (cb : Nat) : (d.clearFired cb).log.wf := by
  simpa [Chip.clearFired] using h

theorem Chip.termExpire_logWf (h : d.log.wf) (cb i : Nat) : (d.termExpire cb i).log.wf := by
  grind [Chip.termExpire, Chip.combEval_logWf]

theorem Chip.globalLine_logWf (h : d.log.wf) (n : Nat) : (d.globalLine n).log.wf := by
  grind [Chip.globalLine, Chip.foldl_logWf, Chip.fireRegions_logWf, Chip.raise_logWf]

theorem Chip.cmpWrite_logWf (h : d.log.wf) (e k : Nat) (w : Word) : (d.cmpWrite e k w).2.log.wf := by
  grind [Chip.cmpWrite, Chip.sf_log, Chip.flag_log]

theorem Chip.cmpFire_logWf (h : d.log.wf) (k : Nat) : (d.cmpFire k).log.wf := by
  grind [Chip.cmpFire, Chip.raise_logWf]

/-! ## Transmit frames -/

theorem Chip.storePush_logWf (h : d.log.wf) (e : Nat) (l : List Byte) : (d.storePush e l).log.wf := by
  grind [Chip.storePush, Chip.setPat_log, Chip.patEvent_logWf]

theorem Chip.thruPush_logWf (h : d.log.wf) (src : Nat) (l : List Byte) : (d.thruPush src l).log.wf := by
  grind [Chip.thruPush, Chip.foldl_logWf, Chip.storePush_logWf]

theorem Chip.hitlessPush_logWf (hl : d.log.wf) (h : Nat) (l : List Byte) : (d.hitlessPush h l).log.wf := by
  grind [Chip.hitlessPush, Chip.foldl_logWf, Chip.storePush_logWf]

theorem Chip.thruPop_logWf (h : d.log.wf) (e : Nat) : (d.thruPop e).2.log.wf := by
  grind [Chip.thruPop, Chip.setPat_log, Chip.patEvent_logWf]

theorem Chip.commit_logWf (h : d.log.wf) (e : Nat) : (d.commit e).log.wf := by
  simpa [Chip.commit] using h

theorem Chip.commitApply_logWf (h : d.log.wf) (e : Nat) : (d.commitApply e).log.wf := by
  grind [Chip.commitApply, Chip.flag_log, Chip.setOhp_log]

theorem Chip.editCtx_logWf (h : d.log.wf) (inj : Bool) (x : Edit) : (d.editCtx inj x).log.wf := by
  grind [Chip.editCtx, Chip.setCtx_log]

theorem Dev.frameEdits_logWf (h : s.chip.log.wf) (e : Nat) (r : Run') : (s.frameEdits e r).2.chip.log.wf := by
  grind [Dev.frameEdits, Chip.foldl_logWf, Dev.foldl_logWf, Dev.on_chip, Chip.patEvent_logWf, Chip.editCtx_logWf]

theorem Chip.injEnd_logWf (h : d.log.wf) (e : Nat) : (d.injEnd e).log.wf := by
  grind [Chip.injEnd, Chip.setPat_log, Chip.patEvent_logWf]

theorem Chip.injFrame_logWf (h : d.log.wf) (e stamp : Nat) (ais : Edit → Bool) : (d.injFrame e stamp ais).2.log.wf := by
  grind [Chip.injFrame, Chip.setPat_log, Chip.editCtx_logWf, Chip.flag_log, Chip.injEnd_logWf]

theorem Chip.ttiSend_logWf (h : d.log.wf) (k mf : Nat) : (d.ttiSend k mf).2.log.wf := by
  simpa [Chip.ttiSend] using h

theorem Chip.groupSend_logWf (h : d.log.wf) (e f : Nat) (l : List Byte) : (d.groupSend e f l).log.wf := by
  grind [Chip.groupSend, Chip.foldl_logWf, Chip.engSend_logWf]

theorem Chip.frameSent_logWf (h : d.log.wf) (e f : Nat) (l : List Byte) : (d.frameSent e f l).log.wf := by
  grind [Chip.frameSent, Chip.groupSend_logWf, Chip.emit_log, Chip.setOhp_log]

theorem Dev.rawFrame_logWf (h : s.chip.log.wf) (e : Nat) (fr : TxFrame) (r : Option Run') :
    (s.rawFrame e fr r).chip.log.wf := by
  unfold Dev.rawFrame
  extract_lets o
  split
  rename_i es s1 hs
  have h1 : s1.chip.log.wf := by
    have hf (x : Run') := Dev.frameEdits_logWf h e x
    grind
  split
  rename_i inj d1 hi
  extract_lets n
  split
  extract_lets l d2 d3 d4
  have h2 : d2.log.wf := by
    have := Chip.injFrame_logWf h1 e fr.stamp (fun _ => false)
    rw [hi] at this
    simpa [d2] using this
  clear hs hi
  clear_value d2 n
  have h4 : d4.log.wf := by grind [Chip.setRun_logWf, Chip.patEvent_logWf]
  simpa using Chip.engSend_logWf h4 e l

theorem Dev.framedFrame_logWf (h : s.chip.log.wf) (e : Nat) (fr : TxFrame) (r : Option Run') (src : Option
    (List Byte)) :
    (s.framedFrame e fr r src).chip.log.wf := by
  unfold Dev.framedFrame
  extract_lets f sdh thru ais 
  split
  rename_i es s1 hs
  have h1 : s1.chip.log.wf := by
    have hf (x : Run') := Dev.frameEdits_logWf h e x
    clear_value ais
    grind
  split
  rename_i inj d1 hi
  have h2 : d1.log.wf := by
    have := Chip.injFrame_logWf h1 e fr.stamp (s1.chip.injMasked f ais)
    rwa [hi] at this
  extract_lets all o slots
  split
  extract_lets body
  split
  rename_i tt d2 ht
  have h3 : d2.log.wf := by
    have := congrArg Prod.snd ht
    rw [← show _ = d2 from this]
    exact List.foldlRecOn (motive := fun a : List (Nat × Nat) × Chip => a.2.log.wf) slots _ h2
      (fun a ha k _ => Chip.ttiSend_logWf ha (slotKey e k false) o.txMf)
  extract_lets tti
  split
  rename_i free d3 hd
  have h4 : d3.log.wf := by
    have := Chip.fresh_logWf h3 72
    rwa [hd] at this
  clear hs hi ht hd 
  grind [Chip.setOhp_log, Chip.setRun_logWf, Chip.frameSent_logWf, Chip.patEvent_logWf]

theorem Dev.txFrame_logWf (h : s.chip.log.wf) (e : Nat) (fr : TxFrame) : (s.txFrame e fr).chip.log.wf := by
  grind [Dev.txFrame, Dev.framedFrame_logWf, Dev.on_chip, Chip.setPat_log, Dev.frameEnd_logWf, Chip.thruPop_logWf,
    Chip.frameSent_logWf, Dev.rawFrame_logWf, Chip.commitApply_logWf]

theorem Chip.ttiIdxWrite_logWf (h : d.log.wf) (e : Nat) (w : Word) : (d.ttiIdxWrite e w).2.log.wf := by
  grind [Chip.ttiIdxWrite, Chip.foldl_logWf, Chip.flag_log, Chip.wr_log]

theorem Chip.ttiStore_logWf (h : d.log.wf) (e : Nat) : (d.ttiStore e).2.log.wf := by
  grind [Chip.ttiStore, Chip.flag_log, Chip.setTrace_log]

theorem Chip.seqPeriod_logWf (h : d.log.wf) (t : Nat) : (d.seqPeriod t).2.log.wf := by
  grind [Chip.seqPeriod, Chip.setCtx_log, Chip.ctxEvent_logWf]

theorem Chip.recentre_logWf (h : d.log.wf) (t : Nat) (f unit : Int) : (d.recentre t f unit).log.wf := by
  grind [Chip.recentre, Chip.emit_log, Chip.setCtx_log, Chip.ctxEvent_logWf]

theorem Chip.basePeriod_logWf (h : d.log.wf) (t : Nat) (units : Int) : (d.basePeriod t units).2.log.wf := by
  grind [Chip.basePeriod, Chip.setCtx_log, Chip.recentre_logWf]

theorem Chip.forcedFill_logWf (h : d.log.wf) (t : Nat) (units : Int) (a : Nat) : (d.forcedFill t units a).log.wf := by
  grind [Chip.forcedFill, Chip.setCtx_log, Chip.recentre_logWf]

theorem Chip.ptrPeriod_logWf (h : d.log.wf) (t : Nat) (units : Int) (ais : Bool) :
    (d.ptrPeriod t units ais).2.log.wf := by
  grind [Chip.ptrPeriod, Chip.seqPeriod_logWf, Chip.setCtx_log, Chip.forcedFill_logWf, Chip.ctxEvent_logWf,
    Chip.basePeriod_logWf]

theorem Chip.gmpPeriod_logWf (h : d.log.wf) (t : Nat) (units : Int) : (d.gmpPeriod t units).2.log.wf := by
  grind [Chip.gmpPeriod, Chip.setCtx_log, Chip.recentre_logWf, Chip.ctxEvent_logWf]

theorem Chip.jcPeriod_logWf (h : d.log.wf) (t : Nat) (units : Int) : (d.jcPeriod t units).2.log.wf := by
  grind [Chip.jcPeriod, Chip.fresh_logWf, Chip.gmpPeriod_logWf, Chip.basePeriod_logWf]

theorem Chip.takeUnit_logWf (h : d.log.wf) (t u : Nat) : (d.takeUnit t u).2.log.wf := by
  grind [Chip.takeUnit, Chip.setCtx_log]

theorem Dev.container_logWf (h : s.chip.log.wf) (t : Nat) (u : TxUnit) (ais : Bool) (o : PtrOut) :
    (s.container t u ais o).chip.log.wf := by
  grind [Dev.container, Chip.foldl_logWf, Dev.foldl_logWf, Chip.emit_log, Chip.setRun_logWf, Chip.setCtx_log,
    Chip.patEvent_logWf, Dev.frameEdits_logWf, Chip.ttiSend_logWf, Chip.fresh_logWf, Chip.takeUnit_logWf]

theorem Dev.ptrStart_logWf (h : s.chip.log.wf) (t : Nat) (u : TxUnit) : (s.ptrStart t u).chip.log.wf := by
  grind [Dev.ptrStart, Dev.on_chip, Dev.frameEnd_logWf, Chip.ptrPeriod_logWf, Chip.setCtx_log, Dev.container_logWf,
    Chip.jcPeriod_logWf]

/-! ## Engines -/

theorem Chip.failCheck_logWf (h : d.log.wf) (f : Status × Option (RegId × Nat)) : (d.failCheck f).2.log.wf := by
  grind [Chip.failCheck, Chip.flag_log]

theorem Chip.engStart_logWf (h : d.log.wf) (e : Nat) : (d.engStart e).log.wf := by
  grind [Chip.engStart, Chip.unflag_log, Chip.mapStart_logWf, Chip.apsEngine_logWf, Chip.syncLine_logWf,
    Chip.huntStart_logWf, Chip.flag_log, Chip.setMon_log, Chip.setOhp_log, Chip.setPair_log]

theorem Chip.engEnable_logWf (h : d.log.wf) (e : Nat) : (d.engEnable e).2.log.wf := by
  grind [Chip.engEnable, Chip.failCheck_logWf, Chip.engStart_logWf]

theorem Chip.huntStopped_logWf (h : d.log.wf) (e : Nat) : (d.huntStopped e).log.wf := by
  grind [Chip.huntStopped, Chip.foldl_logWf, Chip.setCap_log, Chip.huntStop_logWf]

theorem Dev.engDisable_logWf (h : s.chip.log.wf) (e : Nat) : (s.engDisable e).chip.log.wf := by
  grind [Dev.engDisable, Dev.on_chip, Chip.unflag_log, Chip.apsEngine_logWf, Chip.patStop_logWf,
    Chip.huntStopped_logWf, Chip.mapStop_logWf, Dev.rgnStopEng_logWf, Chip.defClearAll_logWf]

theorem Chip.engRegsReset_logWf (h : d.log.wf) (e : Nat) : (d.engRegsReset e).log.wf := by
  simpa [Chip.engRegsReset] using h

theorem Chip.engClear_logWf (h : d.log.wf) (e : Nat) : (d.engClear e).log.wf := by
  grind [Chip.engClear, Chip.foldl_logWf, Chip.setPat_log, Chip.setCap_log, Chip.setHunter_log,
    Chip.setMon_log, Chip.setOhp_log, Chip.setTrace_log]

theorem Dev.engReset_logWf (h : s.chip.log.wf) (e : Nat) : (s.engReset e).chip.log.wf := by
  grind [Dev.engReset, Chip.apsLeave_logWf, Dev.on_chip, Chip.engClear_logWf, Dev.engDisable_logWf,
    Chip.engRegsReset_logWf, Dev.rgnStopEng_logWf]

theorem Chip.engTimer_logWf (h : d.log.wf) (e wait : Nat) : (d.engTimer e wait).log.wf := by
  simpa [Chip.engTimer] using h

theorem Chip.engResetDone_logWf (h : d.log.wf) (e : Nat) : (d.engResetDone e).log.wf := by
  grind [Chip.engResetDone]

/-! ## Service, checks and cut-over -/

theorem Chip.copyConfig_logWf (h : d.log.wf) (e s : Nat) : (d.copyConfig e s).log.wf := by
  grind [Chip.copyConfig, Chip.foldl_logWf, Chip.wr_log]

theorem Chip.mirror_logWf (h : d.log.wf) (e : Nat) : (d.mirror e).log.wf := by
  grind [Chip.mirror, Chip.foldl_logWf, Chip.copyConfig_logWf]

theorem Chip.checkStart_logWf (h : d.log.wf) (s : Nat) : (d.checkStart s).log.wf := by
  grind [Chip.checkStart, Chip.setSvc_log, Chip.copyConfig_logWf]

theorem Chip.checkEnd_logWf (h : d.log.wf) (c : Check) (v : Verd) : (d.checkEnd c v).log.wf := by
  unfold Chip.checkEnd
  cases v <;> simpa using h

theorem Chip.skipChecks_logWf (h : d.log.wf) (p : Check → Bool) : (d.skipChecks p).log.wf := by
  grind [Chip.skipChecks, Chip.foldl_logWf, Chip.checkEnd_logWf]

theorem Chip.checkPass_logWf (h : d.log.wf) (s : Nat) : (d.checkPass s).log.wf := by
  grind [Chip.checkPass, Chip.checkEnd_logWf]

theorem Chip.checkSkip_logWf (h : d.log.wf) (s : Nat) : (d.checkSkip s).log.wf := by
  grind [Chip.checkSkip, Chip.checkEnd_logWf]

theorem Chip.mismatch_logWf (h : d.log.wf) (s : Nat) : (d.mismatch s).log.wf := by
  grind [Chip.mismatch, Chip.setSvc_log, Chip.skipChecks_logWf, Chip.flag_log, Chip.copyConfig_logWf,
    Chip.checkEnd_logWf, Chip.count_log]

theorem Chip.subStart_logWf (h : d.log.wf) {old new reason init session : Nat} {p : Nat × Chip}
    (hp : d.subStart old new reason init session = some p) : p.2.log.wf := by
  obtain ⟨r, hr, rfl⟩ := Option.map_eq_some_iff.mp hp
  have h1 :=
    Chip.skipChecks_logWf (Chip.reserve_logWf h hr) (fun c => c.spare = new || c.second = some new || c.engine = old)
  rw [Chip.setSvc_log, Chip.flag_log]
  exact Chip.copyConfig_logWf h1 old new

theorem Chip.spareRetire_logWf (h : d.log.wf) (s : Nat) : (d.spareRetire s).log.wf := by
  unfold Chip.spareRetire
  split
  · exact Chip.ledgerFull_logWf (Chip.fresh_logWf h 32) _
  · rename_i n d1 hr
    refine Chip.burnSlot_logWf ?_ _
    rw [Chip.setSvc_log]
    exact Chip.engClear_logWf (Chip.engRegsReset_logWf (Chip.reserve_logWf h hr) s) s

theorem Chip.voteEnd_logWf (h : d.log.wf) (s : Nat) (v : Vote) : (d.voteEnd s v).log.wf := by
  unfold Chip.voteEnd
  split
  · exact h
  · rename_i c _
    have h1 (v : Verd) : (d.checkEnd c v).log.wf := Chip.checkEnd_logWf h c v
    split
    · exact h
    · extract_lets d1
      have hd : d1.log.wf := h1 _
      clear_value d1
      split
      · exact hd
      · split
        · rw [Chip.flag_log]
          exact hd
        · split
          · exact Chip.subStart_logWf hd ‹_›
          · exact Chip.ledgerFull_logWf (Chip.fresh_logWf hd 32) _
    · exact Chip.spareRetire_logWf (h1 _) s
    · exact Chip.spareRetire_logWf (h1 _) _
    · exact h1 _

theorem Chip.subAbort_logWf (h : d.log.wf) (x : EngSub) : (d.subAbort x).log.wf := by
  grind [Chip.subAbort, Chip.unreserve_logWf, Chip.setSvc_log, Chip.flag_log]

theorem Chip.subCheck_logWf (h : d.log.wf) : d.subCheck.log.wf := by
  grind [Chip.subCheck, Chip.foldl_logWf, Chip.subAbort_logWf]

theorem Chip.rename_logWf (h : d.log.wf) (r : RegId) (hi lo old new : Nat) : (d.rename r hi lo old new).log.wf := by
  grind [Chip.rename, Chip.sf_log]

theorem Chip.renameAll_logWf (h : d.log.wf) (old new : Nat) : (d.renameAll old new).log.wf := by
  grind [Chip.renameAll, Chip.foldl_logWf, Chip.rename_logWf]

theorem Chip.moveRegs_logWf (h : d.log.wf) (old new : Nat) : (d.moveRegs old new).log.wf := by
  grind [Chip.moveRegs, Chip.foldl_logWf, Chip.wr_log]

theorem Chip.moveWork_logWf (h : d.log.wf) (old new : Nat) : (d.moveWork old new).log.wf := by
  simpa [Chip.moveWork] using h

theorem Chip.subBales_logWf (h : d.log.wf) (r old new slot : Nat) (lost : Option Nat) :
    (d.subBales r old new slot lost).log.wf := by
  unfold Chip.subBales
  extract_lets sub d1 d2
  have h2 : d2.log.wf := Chip.writeSubst_logWf
    (Chip.writeRetract_logWf (Chip.closeBale_logWf (Chip.drainSub_logWf h old _) r) r 6 _ _) r old new slot _ _
  split
  · exact Chip.writeGap_logWf h2 _ _ _ _ _ _ _
  · exact h2

theorem Chip.leaveService_logWf (h : d.log.wf) (rdy : List Nat) (v : Svc) (slot : Nat) :
    ((({ d with engRdy := rdy } : Chip).setSvc v).burnSlot slot).log.wf := by
  refine Chip.burnSlot_logWf ?_ slot
  rw [Chip.setSvc_log]
  exact h

theorem Chip.cutOver_logWf (h : d.log.wf) (old : Nat) (lost : Option Nat) : (d.cutOver old lost).log.wf := by
  unfold Chip.cutOver
  split
  · exact h
  · rename_i x _
    extract_lets new regions ended d1 d2 svc0 svc d3
    have he : ended.log.wf := Chip.foldl_logWf (fun y s hy => Chip.resolveEnded_logWf hy old s _) _ h
    have h1 : d1.log.wf := Chip.foldl_logWf (fun y r hy => Chip.subBales_logWf hy r old new x.slot lost) _ he
    have h2 : d2.log.wf := Chip.moveWork_logWf (Chip.moveRegs_logWf (Chip.renameAll_logWf h1 old new) old new) old new
    have h3 : d3.log.wf := Chip.leaveService_logWf h2 _ _ _
    clear_value d3
    split
    · exact h3
    · exact Chip.huntStart_logWf (by simpa using h3) new

theorem Chip.subTimeout_logWf (h : d.log.wf) (old lost : Nat) : (d.subTimeout old lost).log.wf := by
  grind [Chip.subTimeout, Chip.cutOver_logWf]

theorem Chip.ledgerBurned_logWf (h : d.log.wf) : d.ledgerBurned.log.wf := by
  grind [Chip.ledgerBurned, Chip.foldl_logWf, Chip.setSvc_log, Chip.burnDone_logWf]

theorem Chip.subEngine_logWf (h : d.log.wf) (old : Nat) (new : Option Nat) (session : Nat) :
    (d.subEngine old new session).2.log.wf := by
  unfold Chip.subEngine
  extract_lets newBad
  split
  · exact h
  split
  · exact h
  split
  · exact h
  split
  · exact h
  split
  · exact Chip.subStart_logWf h ‹_›
  · exact Chip.ledgerFull_logWf (Chip.fresh_logWf h 32) _

theorem Chip.subPc_logWf (h : d.log.wf) (old : Nat) (new : Option Nat) (session : Nat) :
    (d.subPc old new session).2.log.wf := by
  unfold Chip.subPc
  extract_lets s pc x dest src free
  refine ite_snd_logWf h (ite_snd_logWf h (ite_snd_logWf h (ite_snd_logWf h ?_)))
  split
  · exact h
  · split
    · exact Chip.ledgerFull_logWf h pc
    · rename_i slot d1 hr
      have h1 : d1.log.wf := Chip.reserve_logWf h hr
      split
      · exact Chip.migStart_logWf h1 s _ 4 _ _
      · exact h1

theorem Chip.subPort_logWf (h : d.log.wf) (old : Nat) (new : Option Nat) (session : Nat) :
    (d.subPort old new session).2.log.wf := by
  unfold Chip.subPort
  extract_lets known
  refine ite_snd_logWf h (ite_snd_logWf h ?_)
  split
  · exact h
  · refine ite_snd_logWf h ?_
    split
    · exact Chip.ledgerFull_logWf (Chip.fresh_logWf h 32) _
    · rename_i slot d1 hr
      have h1 : d1.log.wf := Chip.reserve_logWf h hr
      dsimp only
      split
      · exact Chip.fence_logWf h1 _ _
      · exact Chip.fence_logWf h1 _ _

theorem Chip.spareSub_logWf (h : d.log.wf) (kind old : Nat) (new : Option Nat) (session : Nat) :
    (d.spareSub kind old new session).2.log.wf := by
  unfold Chip.spareSub
  split
  · exact Chip.subEngine_logWf h old new session
  · exact Chip.subPc_logWf h old new session
  · exact Chip.subPort_logWf h old new session
  · exact h

theorem Chip.recordPav_logWf (h : d.log.wf) (p reason : Nat) : (d.recordPav p reason).log.wf := by
  unfold Chip.recordPav
  split
  · exact Chip.burnSlot_logWf (Chip.reserve_logWf h ‹_›) _
  · exact Chip.ledgerFull_logWf h p

theorem Chip.applySlot_logWf (h : d.log.wf) (n : Nat) : (d.applySlot n).log.wf := by
  grind [Chip.applySlot, Chip.setSvc_log, Chip.setStack_log, Chip.ev_logWf, Chip.flag_log, Chip.setYard_log]

theorem Chip.svcReady_logWf (h : d.log.wf) : d.svcReady.log.wf := by
  grind [Chip.svcReady, Chip.foldl_logWf, Chip.recordPav_logWf, Chip.setSvc_log,
    Chip.applySlot_logWf]

/-! ## Time unit -/

theorem Chip.timeRun_logWf (h : d.log.wf) : d.timeRun.log.wf := by
  simpa [Chip.timeRun] using h

theorem Chip.timeCycle_logWf (h : d.log.wf) : d.timeCycle.log.wf := by
  grind [Chip.timeCycle, Chip.timeRun_logWf]

theorem Chip.tick_logWf (h : d.log.wf) : d.tick.log.wf := by
  grind [Chip.tick, Chip.timeCycle_logWf]

theorem Chip.setLocked_logWf (h : d.log.wf) (on : Bool) : (d.setLocked on).log.wf := by
  grind [Chip.setLocked, Chip.setTim_log, Chip.ev_logWf, Chip.flag_log]

theorem Chip.timMove_logWf (h : d.log.wf) (st : TSt) : (d.timMove st).log.wf := by
  grind [Chip.timMove, Chip.setTim_log, Chip.ev_logWf, Chip.flag_log, Chip.setLocked_logWf]

theorem Chip.addCause_logWf (h : d.log.wf) (c : Nat) : (d.addCause c).log.wf := by
  grind [Chip.addCause, Chip.timMove_logWf, Chip.setTim_log]

theorem Chip.endCause_logWf (h : d.log.wf) (c : Nat) : (d.endCause c).log.wf := by
  grind [Chip.endCause, Chip.timMove_logWf, Chip.setTim_log]

theorem Chip.tpSkip_logWf (h : d.log.wf) (p before : Nat) : (d.tpSkip p before).log.wf := by
  grind [Chip.tpSkip, Chip.ev_logWf, Chip.flag_log, Chip.setTp_log]

theorem Chip.ppsSkip_logWf (h : d.log.wf) (p before : Nat) : (d.ppsSkip p before).log.wf := by
  grind [Chip.ppsSkip, Chip.setTp_log]

theorem Chip.jump_logWf (h : d.log.wf) (n : Nat) : (d.jump n).log.wf := by
  grind [Chip.jump, Chip.foldl_logWf, Chip.tpSkip_logWf, Chip.ppsSkip_logWf]

theorem Chip.stepDone_logWf (h : d.log.wf) (before : Nat) (amount : Int) : (d.stepDone before amount).log.wf := by
  grind [Chip.stepDone, Chip.flag_log, Chip.evtAt_logWf]

theorem Chip.stepEnd_logWf (h : d.log.wf) (before : Nat) (amount : Int) : (d.stepEnd before amount).log.wf := by
  grind [Chip.stepEnd, Chip.setTim_log, Chip.stepDone_logWf, Chip.endCause_logWf]

theorem Chip.timeStep_logWf (h : d.log.wf) (amount : Int) : (d.timeStep amount).2.log.wf := by
  grind [Chip.timeStep, Chip.setTim_log, Chip.jump_logWf, Chip.stepEnd_logWf]

theorem Chip.timeStepMeas_logWf (h : d.log.wf) : d.timeStepMeas.2.log.wf := by
  grind [Chip.timeStepMeas, Chip.timeStep_logWf]

theorem Chip.catchupDone_logWf (h : d.log.wf) : d.catchupDone.log.wf := by
  grind [Chip.catchupDone, Chip.setTim_log, Chip.stepEnd_logWf]

theorem Chip.timeLoad_logWf (h : d.log.wf) (n : Nat) : (d.timeLoad n).2.log.wf := by
  grind [Chip.timeLoad, Chip.setTim_log, Chip.stepDone_logWf, Chip.jump_logWf]

theorem Chip.timeSet_logWf (h : d.log.wf) (v : Nat) : (d.timeSet v).2.log.wf := by
  grind [Chip.timeSet, Chip.timeLoad_logWf]

theorem Chip.timHold_logWf (h : d.log.wf) : d.timHold.log.wf := by
  grind [Chip.timHold, Chip.addCause_logWf]

theorem Chip.timRelease_logWf (h : d.log.wf) : d.timRelease.log.wf := by
  grind [Chip.timRelease, Chip.endCause_logWf]

theorem Chip.timCtrl_logWf (h : d.log.wf) (w : Word) : (d.timCtrl w).2.log.wf := by
  grind [Chip.timCtrl, Chip.timeSet_logWf, Chip.timeStep_logWf, Chip.timRelease_logWf, Chip.timHold_logWf,
    Chip.timeStepMeas_logWf]

theorem Chip.showOffset_logWf (h : d.log.wf) (x : Int) : (d.showOffset x).log.wf := by
  grind [Chip.showOffset, Chip.setPair_log]

theorem Chip.estimate_logWf (h : d.log.wf) : d.estimate.log.wf := by
  grind [Chip.estimate, Chip.setTim_log, Chip.fresh_logWf]

theorem Chip.slewTo_logWf (h : d.log.wf) (x : Int) : (d.slewTo x).log.wf := by
  grind [Chip.slewTo, Chip.setTim_log, Chip.estimate_logWf, Chip.setLocked_logWf]

theorem Chip.refuseStep_logWf (h : d.log.wf) (l : List Int) : (d.refuseStep l).log.wf := by
  grind [Chip.refuseStep, Chip.setTim_log, Chip.evt_logWf, Chip.flag_log, Chip.addCause_logWf, Chip.setPair_log,
    Chip.count_log]

theorem Chip.judge_logWf (h : d.log.wf) (x : Int) : (d.judge x).log.wf := by
  grind [Chip.judge, Chip.timMove_logWf, Chip.slewTo_logWf, Chip.setTim_log, Chip.showOffset_logWf,
    Chip.refuseStep_logWf, Chip.endCause_logWf]

theorem Chip.firstPtp_logWf (h : d.log.wf) (x : Int) : (d.firstPtp x).log.wf := by
  grind [Chip.firstPtp, Chip.timMove_logWf, Chip.slewTo_logWf, Chip.setTim_log, Chip.stepDone_logWf, Chip.jump_logWf,
    Chip.showOffset_logWf]

theorem Chip.ptpOffset_logWf (h : d.log.wf) (x : Int) : (d.ptpOffset x).log.wf := by
  grind [Chip.ptpOffset, Chip.judge_logWf, Chip.firstPtp_logWf]

theorem Chip.ppsSample_logWf (h : d.log.wf) (s : Nat) : (d.ppsSample s).log.wf := by
  grind [Chip.ppsSample, Chip.judge_logWf, Chip.timMove_logWf, Chip.stepDone_logWf, Chip.jump_logWf,
    Chip.showOffset_logWf]

theorem Chip.judgeSync_logWf (h : d.log.wf) : d.judgeSync.log.wf := by
  grind [Chip.judgeSync, Chip.setTim_log, Chip.ptpOffset_logWf]

theorem Chip.adopt_logWf (h : d.log.wf) (r : List Int) : (d.adopt r).log.wf := by
  grind [Chip.adopt, Chip.setTim_log, Chip.endCause_logWf, Chip.wr_log]

theorem Chip.delaySample_logWf (h : d.log.wf) (x : Int) : (d.delaySample x).log.wf := by
  grind [Chip.delaySample, Chip.adopt_logWf, Chip.setTim_log, Chip.evt_logWf, Chip.flag_log, Chip.addCause_logWf,
    Chip.count_log]

theorem Chip.gmChange_logWf (h : d.log.wf) (new : Nat) : (d.gmChange new).log.wf := by
  grind [Chip.gmChange, Chip.evt_logWf, Chip.flag_log, Chip.setPair_log, Chip.count_log]

theorem Chip.bmca_logWf (h : d.log.wf) : d.bmca.log.wf := by
  grind [Chip.bmca, Chip.timMove_logWf, Chip.setTim_log, Chip.gmChange_logWf]

theorem Chip.announceRx_logWf (h : d.log.wf) (m : PtpMsg) : (d.announceRx m).log.wf := by
  grind [Chip.announceRx, Chip.bmca_logWf, Chip.setTim_log]

theorem Chip.syncTime_logWf (h : d.log.wf) (t1 t2 : Int) : (d.syncTime t1 t2).log.wf := by
  grind [Chip.syncTime, Chip.setTim_log, Chip.judgeSync_logWf]

theorem Chip.ptpRx_logWf (h : d.log.wf) (m : PtpMsg) : (d.ptpRx m).log.wf := by
  grind [Chip.ptpRx, Chip.emit_log, Chip.setTim_log, Chip.delaySample_logWf, Chip.syncTime_logWf,
    Chip.judgeSync_logWf, Chip.announceRx_logWf]

theorem Chip.annExpire_logWf (h : d.log.wf) : d.annExpire.log.wf := by
  grind [Chip.annExpire, Chip.bmca_logWf, Chip.timMove_logWf, Chip.setTim_log, Chip.addCause_logWf]

theorem Chip.ptpTx_logWf (h : d.log.wf) (k : PtpTx) : (d.ptpTx k).log.wf := by
  unfold Chip.ptpTx
  extract_lets t i port peer seq may d1 two at_
  split
  · exact h
  · cases k with
    | sync => dsimp only; split <;> simpa [d1] using h
    | announce => simpa [d1] using h
    | delay => simpa [d1] using h

theorem Chip.timEnable_logWf (h : d.log.wf) : d.timEnable.2.log.wf := by
  grind [Chip.timEnable, Chip.timMove_logWf, Chip.setTim_log, Chip.flag_log, Chip.endCause_logWf]

theorem Chip.timDisable_logWf (h : d.log.wf) : d.timDisable.log.wf := by
  grind [Chip.timDisable, Chip.unflag_log, Chip.setTim_log, Chip.addCause_logWf]

theorem Chip.refLeave_logWf (h : d.log.wf) : d.refLeave.log.wf := by
  grind [Chip.refLeave, Chip.setTim_log]

theorem Chip.timCfgWrite_logWf (h : d.log.wf) (old new : Word) : (d.timCfgWrite old new).2.log.wf := by
  grind [Chip.timCfgWrite, Chip.unflag_log, Chip.timEnable_logWf, Chip.refLeave_logWf, Chip.timDisable_logWf]

theorem Chip.timReady_logWf (h : d.log.wf) : d.timReady.log.wf := by
  simpa [Chip.timReady] using h

theorem Chip.refLockTo_logWf (h : d.log.wf) (p : Nat) (f : Int) : (d.refLockTo p f).log.wf := by
  grind [Chip.refLockTo, Chip.setTim_log, Chip.setTp_log]

theorem Chip.refLost_logWf (h : d.log.wf) (p : Nat) : (d.refLost p).log.wf := by
  grind [Chip.refLost, Chip.ev_logWf, Chip.flag_log, Chip.refLeave_logWf, Chip.setTp_log]

theorem Chip.tpReport_logWf (h : d.log.wf) (p q s : Nat) : (d.tpReport p q s).log.wf := by
  grind [Chip.tpReport, Chip.foldl_logWf, Chip.ppsSample_logWf, Chip.flag_log, Chip.setPair_log,
    Chip.count_log, Chip.raise_logWf, Chip.setTp_log]

theorem Chip.tpEdge_logWf (h : d.log.wf) (p frac width : Nat) : (d.tpEdge p frac width).log.wf := by
  grind [Chip.tpEdge, Chip.tpReport_logWf, Chip.flag_log, Chip.fresh_logWf, Chip.count_log, Chip.setTp_log]

theorem Chip.ppsLoss_logWf (h : d.log.wf) (p : Nat) : (d.ppsLoss p).log.wf := by
  grind [Chip.ppsLoss, Chip.ev_logWf, Chip.flag_log, Chip.addCause_logWf, Chip.setTp_log]

theorem Chip.ppsOut_logWf (h : d.log.wf) (p : Nat) : (d.ppsOut p).log.wf := by
  grind [Chip.ppsOut, Chip.emit_log, Chip.setTp_log]

theorem Chip.tpOffset_logWf (h : d.log.wf) (p : Nat) : (d.tpOffset p).log.wf := by
  grind [Chip.tpOffset, Chip.setTp_log, Chip.wr_log]

theorem Chip.tpArm_logWf (h : d.log.wf) (p : Nat) (w : Word) : (d.tpArm p w).2.log.wf := by
  unfold Chip.tpArm
  extract_lets v x off d1
  have ho : off.log.wf := by simpa [off] using h
  split
  · split
    · exact h
    · split
      · exact Chip.ev_logWf (by simpa using ho) _ _ _
      · simpa [d1] using ho
  · simpa using ho

theorem Chip.tpFire_logWf (h : d.log.wf) (p : Nat) : (d.tpFire p).log.wf := by
  grind [Chip.tpFire, Chip.emit_log, Chip.setTp_log]

theorem Chip.tpCfgWrite_logWf (h : d.log.wf) (p : Nat) (old new : Word) : (d.tpCfgWrite p old new).2.log.wf := by
  grind [Chip.tpCfgWrite, Chip.unflag_log, Chip.flag_log, Chip.setTp_log]

/-! ## Power and reset -/

theorem Chip.freeBytes_logWf (h : d.log.wf) (n : Nat) : (d.freeBytes n).2.log.wf := by
  induction n generalizing d with
  | zero => exact h
  | succ n ih => exact ih (Chip.fresh_logWf h 8)

theorem Chip.pinsOf_logWf (d : Chip) {x : Chip} (h : x.log.wf) : (d.pinsOf x).log.wf := by
  unfold Chip.pinsOf
  exact Chip.foldl_logWf (fun y i hy => by simpa using hy) _ (Chip.foldl_logWf (fun y l hy => by simpa using hy) _ h)

theorem Chip.sysReset_logWf (d : Chip) (cause : Nat) : (d.sysReset cause).log.wf := by
  unfold Chip.sysReset
  rw [Chip.wr_log]
  exact Chip.pinsOf_logWf _ ⟨Nat.zero_le _, Nat.le_refl _, fun i v hi => by cases hi⟩

theorem Dev.sysReset_logWf (s : Dev) (cause : Nat) : (s.sysReset cause).chip.log.wf := by
  grind [Dev.sysReset, Chip.sysReset_logWf]

theorem Dev.powerGood_logWf (h : s.chip.log.wf) (vinL vinH regOk : Bool) :
    (s.powerGood vinL vinH regOk).chip.log.wf := by
  grind [Dev.powerGood, Dev.on_chip, Dev.sysReset_logWf, Chip.setPwr_log]

theorem Dev.brownOut_logWf (h : s.chip.log.wf) (high : Bool) : (s.brownOut high).chip.log.wf := by
  grind [Dev.brownOut, Dev.on_chip, Dev.sysReset_logWf, Chip.setPwr_log]

theorem Dev.nResetChange_logWf (h : s.chip.log.wf) (high : Bool) (low : Nat) :
    (s.nResetChange high low).chip.log.wf := by
  grind [Dev.nResetChange, Dev.on_chip, Dev.sysReset_logWf, Chip.setPwr_log]

theorem Chip.railRead_logWf (h : d.log.wf) (mvL aL mvH aH power : Nat) : (d.railRead mvL aL mvH aH power).log.wf := by
  grind [Chip.railRead, Chip.flag_log, Chip.setPwr_log, Chip.wr_log]

theorem Dev.tempRead_logWf (h : s.chip.log.wf) (tj : Int) : (s.tempRead tj).chip.log.wf := by
  grind [Dev.tempRead, Dev.on_chip, Chip.skipChecks_logWf, Chip.flag_log, Dev.sysReset_logWf, Chip.setPwr_log,
    Chip.wr_log]

theorem Chip.blockReady_logWf (h : d.log.wf) (b : BootBlk) : (d.blockReady b).log.wf := by
  have lanes (l : List Nat) (g : Nat → Nat) (y : Chip → Nat → Lane) :
    (l.foldl (fun (x : Chip) k => x.setLane (g k) (y x k)) d).log.wf :=
      Chip.foldl_logWf (fun x k hx => by simpa using hx) l h
  cases b with
  | gatehouse => exact h
  | yard =>
    simp only [Chip.blockReady]; 
    split
    · exact Chip.calStart_logWf (by simpa using h)
    · exact h
  | service => grind [Chip.blockReady, Chip.svcReady_logWf]
  | engine e => grind [Chip.blockReady]
  | time => grind [Chip.blockReady, Chip.timReady_logWf]
  | lanes g => grind [Chip.blockReady, Chip.calDone_logWf]
  | hostLanes => 
    simp only [Chip.blockReady]; 
    split
    · exact lanes _ (fun k => 128 + k) (fun x k => { x.lane (128 + k) with ready := true })
    · exact h
  | tandemLanes => 
    simp only [Chip.blockReady]; 
    split
    · exact lanes _ (fun k => 132 + k) (fun x k => { x.lane (132 + k) with ready := true })
    · exact h
  | tandem => grind [Chip.blockReady]
  | stack => grind [Chip.blockReady, Chip.setStack_log]
  | host => grind [Chip.blockReady]

theorem Chip.burnRevoke_logWf (h : d.log.wf) : d.burnRevoke.log.wf := by
  grind [Chip.burnRevoke, Chip.ev_logWf, Chip.flag_log]

theorem Chip.bootLeaves_logWf (h : d.log.wf) (bad : List (Nat × Nat)) : (d.bootLeaves bad).log.wf := by
  grind [Chip.bootLeaves, Chip.foldl_logWf]

theorem Chip.bootBundle_logWf (h : d.log.wf) (ok : Bool) : (d.bootBundle ok).log.wf := by
  grind [Chip.bootBundle, Chip.evt_logWf, Chip.flag_log]

theorem Chip.bootRevoke_logWf (h : d.log.wf) (was : Option Bundle) : (d.bootRevoke was).log.wf := by
  grind [Chip.bootRevoke]

theorem Dev.pavBoot_logWf (h : s.chip.log.wf) (b : BootIn) : (s.pavBoot b).chip.log.wf := by
  grind [Dev.pavBoot, Chip.bootLeaves_logWf, Dev.on_chip, Chip.bootBundle_logWf, Chip.ev_logWf, Chip.flag_log,
    Dev.sysReset_logWf, Chip.setPwr_log, Chip.burnRevoke_logWf, Chip.bootRevoke_logWf]

theorem Chip.clusterClear_logWf (h : d.log.wf) (c : Nat) : (d.clusterClear c).log.wf := by
  simpa [Chip.clusterClear] using h

theorem Dev.clusterDown_logWf (h : s.chip.log.wf) (c : Nat) : (s.clusterDown c).chip.log.wf := by
  grind [Dev.clusterDown, Chip.foldl_logWf, Dev.foldl_logWf, Dev.on_chip, Chip.skipChecks_logWf,
    Dev.masterReset_logWf, Chip.fence_logWf, Chip.clusterClear_logWf, Chip.subCheck_logWf, Chip.setPwr_log,
    Dev.engReset_logWf]

theorem Chip.clusterUp_logWf (h : d.log.wf) (c : Nat) : (d.clusterUp c).log.wf := by
  grind [Chip.clusterUp, Chip.foldl_logWf, Chip.engTimer_logWf, Chip.setPwr_log]

theorem Dev.powerCtrl_logWf (h : s.chip.log.wf) (w : Word) : (s.powerCtrl w).2.chip.log.wf := by
  grind [Dev.powerCtrl, Chip.foldl_logWf, Dev.foldl_logWf, Dev.on_chip, Chip.clusterUp_logWf, Chip.wr_log,
    Dev.clusterDown_logWf]

theorem Dev.engResetCmd_logWf (h : s.chip.log.wf) (e : Nat) : (s.engResetCmd e).2.chip.log.wf := by
  grind [Dev.engResetCmd, Dev.on_chip, Chip.skipChecks_logWf, Chip.engTimer_logWf, Dev.engReset_logWf]

/-! ## Security services -/

theorem Chip.setStage_logWf (h : d.log.wf) (kind : Nat) (x : Stage) : (d.setStage kind x).log.wf := by
  grind [Chip.setStage, Chip.setSec_log]

theorem Chip.setStandbyImage_logWf (h : d.log.wf) (x : FwImage) : (d.setStandbyImage x).log.wf := by
  simpa [Chip.setStandbyImage] using h

theorem Chip.stageErase_logWf (h : d.log.wf) (kind : Nat) : (d.stageErase kind).log.wf := by
  grind [Chip.stageErase, Chip.setStage_logWf, Chip.setSec_log, Chip.setStandbyImage_logWf]

theorem Chip.stageVerified_logWf (h : d.log.wf) (dflt : Byte) (kind : Nat) (v : Verdict) :
    (d.stageVerified dflt kind v).log.wf := by
  grind [Chip.stageVerified, Chip.setStage_logWf, Chip.setSec_log, Chip.setStandbyImage_logWf]

theorem Chip.flashFail_logWf (h : d.log.wf) (b : Nat) : (d.flashFail b).log.wf := by
  unfold Chip.flashFail
  extract_lets f
  split
  · exact h
  · split
    · exact Chip.ev_logWf (by simpa using h) _ _ _
    · have h1 (x : Sec) : ((d.setSec x).fresh 16).2.log.wf := Chip.fresh_logWf (by simpa using h) 16
      dsimp only
      split
      · exact Chip.burnSlot_logWf (Chip.reserve_logWf (h1 _) ‹_›) _
      · exact Chip.ledgerFull_logWf (h1 _) b

theorem Chip.fwStage_logWf (h : d.log.wf) (kind off : Nat) (data : List Byte) (final : Bool) (v : Verdict) :
    (d.fwStage kind off data final v).2.log.wf := by
  grind [Chip.fwStage, Chip.foldl_logWf, Chip.flashFail_logWf, Chip.stageVerified_logWf,
    Chip.setStage_logWf, Chip.fresh_logWf, Chip.stageErase_logWf]

theorem Chip.uidBurn_logWf (h : d.log.wf) (w : Word) : (d.uidBurn w).2.log.wf := by
  grind [Chip.uidBurn, Chip.ev_logWf, Chip.flag_log, Chip.setSec_log]

theorem Chip.rollbackAdvance_logWf (h : d.log.wf) (svn : Nat) : (d.rollbackAdvance svn).log.wf := by
  grind [Chip.rollbackAdvance, Chip.ev_logWf, Chip.flag_log, Chip.setSec_log]

theorem Chip.useLeaf_logWf (h : d.log.wf) (t : Nat) : (d.useLeaf t).log.wf := by
  grind [Chip.useLeaf, Chip.ev_logWf, Chip.flag_log, Chip.setSec_log]

theorem Chip.reportBytes_logWf (h : d.log.wf) (nonce : List Byte) (t : Nat) : (d.reportBytes nonce t).2.log.wf := by
  unfold Chip.reportBytes
  generalize 48 = a, 56 = b, 96 + 96 + 1772 = c
  grind [Chip.freeBytes_logWf]

theorem Chip.attestNew_logWf (h : d.log.wf) (nonce : List Byte) : (d.attestNew nonce).2.log.wf := by
  grind [Chip.attestNew, Chip.reportBytes_logWf, Chip.useLeaf_logWf, Chip.setSec_log, Chip.count_log]

/-! ## Tandem -/

theorem Chip.tdmEvent_logWf (h : d.log.wf) (cause : Nat) : (d.tdmEvent cause).log.wf := by
  grind [Chip.tdmEvent, Chip.ev_logWf]

theorem Chip.setTdmSt_logWf (h : d.log.wf) (st : Nat) : (d.setTdmSt st).log.wf := by
  simpa [Chip.setTdmSt] using h

theorem Chip.cutBales_logWf (h : d.log.wf) : d.cutBales.log.wf := by
  grind [Chip.cutBales, Chip.foldl_logWf, Chip.closeBale_logWf]

theorem Chip.thawGroups_logWf (h : d.log.wf) : d.thawGroups.log.wf := by
  grind [Chip.thawGroups, Chip.foldl_logWf, Chip.apsEval_logWf, Chip.setDsk_log, Chip.setGroup_log,
    Chip.apsInputs_logWf, Chip.wr_log]

theorem Chip.holdEnd_logWf (h : d.log.wf) (st : Nat) : (d.holdEnd st).log.wf := by
  grind [Chip.holdEnd, Chip.thawGroups_logWf, Chip.setTdmSt_logWf, Chip.setTdm_log, Chip.cutBales_logWf]

theorem Chip.lanesMoved_logWf (h : d.log.wf) (was : Nat) : (d.lanesMoved was).log.wf := by
  grind [Chip.lanesMoved, Chip.tdmEvent_logWf, Chip.flag_log, Chip.setTdmSt_logWf, Chip.setTdm_log]

theorem Chip.tdmLaneUp_logWf (h : d.log.wf) (n : Nat) : (d.tdmLaneUp n).log.wf := by
  grind [Chip.tdmLaneUp, Chip.setTdm_log, Chip.lanesMoved_logWf]

theorem Chip.tdmLaneDown_logWf (h : d.log.wf) (n fails : Nat) : (d.tdmLaneDown n fails).log.wf := by
  grind [Chip.tdmLaneDown, Chip.setTdm_log, Chip.count_log, Chip.lanesMoved_logWf]

theorem Chip.tdmJoin_logWf (h : d.log.wf) (role minLanes : Nat) : (d.tdmJoin role minLanes).2.log.wf := by
  grind [Chip.tdmJoin, Chip.sbit_log, Chip.sf_log, Chip.setTdmSt_logWf, Chip.setTdm_log]

theorem Chip.tdmHandshake_logWf (h : d.log.wf) (unit fw : Nat) (follower : Bool) (minLanes : Nat) :
    (d.tdmHandshake unit fw follower minLanes).log.wf := by
  grind [Chip.tdmHandshake, Chip.tdmEvent_logWf, Chip.flag_log, Chip.setTdmSt_logWf, Chip.holdEnd_logWf,
    Chip.setTdm_log, Chip.wr_log]

theorem Dev.crossStop_logWf (h : s.chip.log.wf) : s.crossStop.chip.log.wf := by
  grind [Dev.crossStop, Chip.foldl_logWf, Dev.foldl_logWf, Dev.rgnStop_logWf]

theorem Dev.tdmAlone_logWf (h : s.chip.log.wf) : s.tdmAlone.chip.log.wf := by
  grind [Dev.tdmAlone, Chip.foldl_logWf, Dev.foldl_logWf, Dev.on_chip, Chip.apsInputs_logWf, Dev.crossStop_logWf,
    Chip.setTdmSt_logWf, Chip.holdEnd_logWf, Chip.setTdm_log]

theorem Dev.tdmSplit_logWf (h : s.chip.log.wf) : s.tdmSplit.chip.log.wf := by
  grind [Dev.tdmSplit, Dev.on_chip, Chip.tdmEvent_logWf, Chip.flag_log, Dev.tdmAlone_logWf]

theorem Dev.joinTimeout_logWf (h : s.chip.log.wf) : s.joinTimeout.chip.log.wf := by
  grind [Dev.joinTimeout, Dev.on_chip, Chip.tdmEvent_logWf, Chip.flag_log, Dev.tdmAlone_logWf]

theorem Chip.splitEnter_logWf (h : d.log.wf) : d.splitEnter.log.wf := by
  grind [Chip.splitEnter, Chip.foldl_logWf, Chip.tdmEvent_logWf, Chip.fence_logWf, Chip.flag_log,
    Chip.setTdmSt_logWf, Chip.setPair_log, Chip.setTdm_log, Chip.writeGap_logWf, Chip.count_log, Chip.cutBales_logWf]

theorem Chip.remoteDefect_logWf (h : d.log.wf) (e k : Nat) (on : Bool) : (d.remoteDefect e k on).log.wf := by
  grind [Chip.remoteDefect, Chip.apsEngine_logWf, Chip.setTdm_log]

theorem Chip.tdmCfgWrite_logWf (h : d.log.wf) (w : Word) : (d.tdmCfgWrite w).2.log.wf := by
  grind [Chip.tdmCfgWrite, Chip.wr_log]

/-! ## Reading a register -/

theorem Chip.readEffect_logWf (h : d.log.wf) (r : RegId) : (d.readEffect r).log.wf := by
  grind [Chip.readEffect, Chip.setCap_log, Chip.wr_log]

/-! ## Reading and writing at an address -/

theorem Chip.refuse_logWf (h : d.log.wf) (sess a : Nat) (st : Status) : (d.refuse sess a st).log.wf := by
  simpa [Chip.refuse] using h

theorem Chip.defaultTarget_logWf (h : d.log.wf) (a : Nat) : (d.defaultTarget a).log.wf := by
  grind [Chip.defaultTarget, Chip.yardErr_logWf, Chip.flag_log, Chip.count_log]

theorem Chip.accessFail_logWf (h : d.log.wf) (sess a : Nat) (st : Status) : (d.accessFail sess a st).log.wf := by
  unfold Chip.accessFail
  split
  · exact h
  · exact Chip.refuse_logWf (Chip.defaultTarget_logWf h a) sess a _
  · exact Chip.refuse_logWf h sess a _

theorem Chip.store_logWf (h : d.log.wf) (t : RegId) (w keep : Word) : (d.store t w keep).log.wf := by
  grind [Chip.store, Chip.wr_log]

theorem Dev.engCtrl_logWf (h : s.chip.log.wf) (e : Nat) (w : Word) : (s.engCtrl e w).2.chip.log.wf := by
  grind [Dev.engCtrl, Dev.engDisable_logWf, Chip.engEnable_logWf, Dev.engResetCmd_logWf]

theorem Chip.huntCtrl_logWf (h : d.log.wf) (e : Nat) (w : Word) : (d.huntCtrl e w).2.log.wf := by
  grind [Chip.huntCtrl, Chip.snap_logWf, Chip.force_logWf, Chip.flag_log, Chip.rehunt_logWf]

theorem Dev.rgnCfgWrite_logWf (h : s.chip.log.wf) (e r : Nat) (w : Word) : (s.rgnCfgWrite e r w).2.chip.log.wf := by
  grind [Dev.rgnCfgWrite, Chip.store_logWf, Dev.on_chip, Chip.rgnEnable_logWf, Dev.rgnStop_logWf, Chip.rgnArm_logWf,
    Chip.flag_log, Dev.rgnDisable_logWf]

theorem Chip.combCfgWrite_logWf (h : d.log.wf) (e cb : Nat) (w : Word) : (d.combCfgWrite e cb w).2.log.wf := by
  grind [Chip.combCfgWrite, Chip.store_logWf, Chip.unflag_log, Chip.combEnable_logWf]

theorem Chip.trgCmd_logWf (h : d.log.wf) (e : Nat) (w : Word) : (d.trgCmd e w).log.wf := by
  grind [Chip.trgCmd, Chip.clearFired_logWf, Chip.hostTrigger_logWf]

theorem Chip.ttiSlotCfg_logWf (h : d.log.wf) (e : Nat) (w : Word) : (d.ttiSlotCfg e w).log.wf := by
  grind [Chip.ttiSlotCfg, Chip.foldl_logWf, Chip.store_logWf, Chip.ttiSlotWrite_logWf,
    Chip.ttiSlotDef_logWf]

theorem Chip.byteCfg_logWf (h : d.log.wf) (e : Nat) (w : Word) : (d.byteCfg e w).2.log.wf := by
  grind [Chip.byteCfg, Chip.store_logWf, Chip.flag_log]

theorem Chip.mapCtrl_logWf (h : d.log.wf) (e : Nat) (w : Word) : (d.mapCtrl e w).log.wf := by
  grind [Chip.mapCtrl, Chip.seqGo_logWf, Chip.seqStop_logWf]

theorem Chip.patCtrl_logWf (h : d.log.wf) (e : Nat) (w : Word) : (d.patCtrl e w).log.wf := by
  grind [Chip.patCtrl, Chip.patFlush_logWf, Chip.injStop_logWf, Chip.patAbort_logWf]

theorem Dev.pushWrite_logWf (h : s.chip.log.wf) (e : Nat) (w : Word) : (s.pushWrite e w).2.chip.log.wf := by
  grind [Dev.pushWrite, Chip.store_logWf, Dev.on_chip, Dev.patPush_logWf]

theorem Dev.injWrite_logWf (h : s.chip.log.wf) (e : Nat) (w : Word) : (s.injWrite e w).2.chip.log.wf := by
  grind [Dev.injWrite, Chip.store_logWf, Dev.on_chip, Dev.injArm_logWf]

theorem Chip.prgnCfgWrite_logWf (h : d.log.wf) (e r : Nat) (w : Word) : (d.prgnCfgWrite e r w).2.log.wf := by
  grind [Chip.prgnCfgWrite, Chip.prgnDisable_logWf, Chip.prgnEnable_logWf]

theorem Chip.apsEnable_logWf (hl : d.log.wf) (h : Nat) : (d.apsEnable h).2.log.wf := by
  grind [Chip.apsEnable, Chip.flag_log, Chip.apsEnter_logWf]

theorem Chip.apsCfgWrite_logWf (hl : d.log.wf) (h : Nat) (w : Word) : (d.apsCfgWrite h w).2.log.wf := by
  grind [Chip.apsCfgWrite, Chip.store_logWf, Chip.apsLeave_logWf, Chip.unflag_log, Chip.apsEnable_logWf]

theorem Chip.trbCfgWrite_logWf (h : d.log.wf) (t : Nat) (w : Word) : (d.trbCfgWrite t w).2.log.wf := by
  grind [Chip.trbCfgWrite, Chip.store_logWf, Chip.ctxDisable_logWf, Chip.ctxEnable_logWf]

theorem Dev.writeEng_logWf (h : s.chip.log.wf) (e : Nat) (r t : RegId) (w : Word) :
    (s.writeEng e r t w).2.chip.log.wf := by
  grind [Dev.writeEng, Chip.store_logWf, Chip.commit_logWf, Dev.injWrite_logWf, Chip.byteCfg_logWf,
    Chip.prgnCfgWrite_logWf, Chip.ttiSlotCfg_logWf, Chip.ttiIdxWrite_logWf, Chip.defSummary_logWf, Chip.trgCmd_logWf,
    Dev.pushWrite_logWf, Chip.huntCtrl_logWf, Dev.rgnCfgWrite_logWf, Chip.combCfgWrite_logWf, Chip.patCtrl_logWf,
    Dev.engCtrl_logWf, Chip.apsCommand_logWf, Chip.winWrite_logWf, Chip.mapCtrl_logWf, Chip.cmpWrite_logWf,
    Chip.apsCfgWrite_logWf, Chip.ttiStore_logWf, Chip.wr_log]

theorem Chip.writeLane_logWf (h : d.log.wf) (n : Nat) (r t : RegId) (w : Word) : (d.writeLane n r t w).2.log.wf := by
  grind [Chip.writeLane, Chip.store_logWf, Chip.laneCtrl_logWf, Chip.mmbGo_logWf, Chip.formatMoved_logWf]

theorem Chip.writeTim_logWf (h : d.log.wf) (r : RegId) (w : Word) : (d.writeTim r w).2.log.wf := by
  grind [Chip.writeTim, Chip.store_logWf, Chip.timCtrl_logWf, Chip.timCfgWrite_logWf]

theorem Chip.writeTp_logWf (h : d.log.wf) (p : Nat) (r : RegId) (w : Word) : (d.writeTp p r w).2.log.wf := by
  grind [Chip.writeTp, Chip.store_logWf, Chip.tpArm_logWf, Chip.tpCfgWrite_logWf, Chip.tpOffset_logWf]

theorem Dev.writeReg_logWf (h : s.chip.log.wf) (r : RegId) (w : Word) : (s.writeReg r w).2.chip.log.wf := by
  grind [Dev.writeReg, Chip.store_logWf, Dev.writeEng_logWf, Chip.tdmCfgWrite_logWf, Chip.writeTim_logWf,
    Dev.powerCtrl_logWf, Chip.writeLane_logWf, Chip.writeTp_logWf, Chip.trbCfgWrite_logWf, Chip.uidBurn_logWf]

theorem Chip.ownerAction_logWf (h : d.log.wf) (sess op : Nat) : (d.ownerAction sess op).log.wf := by
  grind [Chip.ownerAction, Chip.evt_logWf]

theorem Chip.regRead_logWf (h : d.log.wf) (sess a : Nat) : (d.regRead sess a).2.log.wf := by
  grind [Chip.regRead, Chip.readEffect_logWf, Chip.accessFail_logWf]

theorem Dev.regWrite_logWf (h : s.chip.log.wf) (sess op a : Nat) (w : Word) :
    (s.regWrite sess op a w).2.chip.log.wf := by
  grind [Dev.regWrite, Chip.refuse_logWf, Chip.flag_log, Chip.ownerAction_logWf, Dev.writeReg_logWf,
    Chip.accessFail_logWf, Chip.mirror_logWf]

theorem Dev.regModify_logWf (h : s.chip.log.wf) (sess a : Nat) (mask value : Word) :
    (s.regModify sess a mask value).2.chip.log.wf := by
  grind [Dev.regModify, Dev.on_chip, Chip.readEffect_logWf, Chip.accessFail_logWf, Dev.regWrite_logWf]

theorem Chip.modifyLate_logWf (h : d.log.wf) (sess a : Nat) : (d.modifyLate sess a).2.log.wf := by
  grind [Chip.modifyLate, Chip.yardErr_logWf, Chip.flag_log, Chip.readEffect_logWf, Chip.count_log,
    Chip.accessFail_logWf]

theorem Chip.modifyPoisoned_logWf (h : d.log.wf) (sess a : Nat) : (d.modifyPoisoned sess a).2.log.wf := by
  grind [Chip.modifyPoisoned, Chip.accessFail_logWf]

theorem Chip.badWidth_logWf (h : d.log.wf) (sess a : Nat) : (d.badWidth sess a).log.wf := by
  grind [Chip.badWidth, Chip.refuse_logWf]

theorem Chip.readBlock_logWf (h : d.log.wf) (sess n a : Nat) : (d.readBlock sess n a).2.log.wf := by
  induction n generalizing d a with
  | zero => exact h
  | succ n ih =>
    have hr := Chip.regRead_logWf h sess a
    unfold Chip.readBlock
    split <;> rename_i hm <;> rw [hm] at hr
    · exact ih hr _
    · exact hr

theorem Dev.writeBlock_logWf (h : s.chip.log.wf) (sess : Nat) (l : List Nat) (a : Nat) :
    (s.writeBlock sess l a).2.chip.log.wf := by
  induction l generalizing s a with
  | nil => exact h
  | cons v l ih =>
    have hr := Dev.regWrite_logWf h sess 0x0013 a (w32 v)
    unfold Dev.writeBlock
    split <;> rename_i hm <;> rw [hm] at hr
    · exact ih hr _
    · exact hr

theorem Chip.snapshot_logWf (h : d.log.wf) (sess a len : Nat) : (d.snapshot sess a len).2.log.wf := by
  grind [Chip.snapshot, Chip.foldl_logWf, Chip.refuse_logWf, Chip.readEffect_logWf,
    Chip.accessFail_logWf]

theorem Dev.configReply_logWf (h : s.chip.log.wf) (t : Txn) : (s.configReply t).chip.log.wf := by
  unfold Dev.configReply
  extract_lets a x y
  clear_value a (hx : x = _) (hy : y = _)
  have h1 : x.2.chip.log.wf := by rw [hx]; exact Dev.regWrite_logWf h 0 0 a _
  have h2 : y.2.log.wf := by rw [hy]; exact Chip.regRead_logWf h 0 a
  clear hx hy
  split
  · exact Chip.complete_logWf h1 t _ _ _
  · split
    rename_i v d hd
    refine Chip.complete_logWf ?_ t _ _ _
    split at hd
    · cases hd
      exact h2
    · exact logWf_of_eq hd (Chip.fresh_logWf h2 32)

theorem Dev.yardComplete_logWf (h : s.chip.log.wf) (m tag : Nat) (ces ues : List Nat) (remote : List Byte) :
    (s.yardComplete m tag ces ues remote).chip.log.wf := by
  grind [Dev.yardComplete, Dev.configReply_logWf, Dev.yardReply_logWf]

theorem Dev.writeUnlock_logWf (h : s.chip.log.wf) (m tag a : Nat) (data : List Byte) :
    (s.writeUnlock m tag a data).chip.log.wf := by
  grind [Dev.writeUnlock, Dev.on_chip, Chip.unlockRefuse_logWf, Chip.unlock_logWf, Chip.addTxn_logWf,
    Dev.regWrite_logWf, Chip.complete_logWf]

theorem Dev.hostWrite_logWf (h : s.chip.log.wf) (sess : Nat) (r : RegId) (w : Word) :
    (s.hostWrite sess r w).chip.log.wf := by
  grind [Dev.hostWrite, Dev.on_chip, Chip.answer_log, Dev.regWrite_logWf]

/-! ## Configuration requests -/

theorem Chip.putImages_logWf (h : d.log.wf) (en : List RegId) (l : Images) : (d.putImages en l).log.wf := by
  grind [Chip.putImages, Chip.foldl_logWf, Chip.store_logWf]

theorem Chip.portWrite_logWf (h : d.log.wf) (n : Nat) (l : Images) (enable : Bool) :
    (d.portWrite n l enable).log.wf := by
  grind [Chip.portWrite, Chip.laneCtrl_logWf, Chip.formatMoved_logWf, Chip.putImages_logWf]

theorem Chip.portConfig_logWf (h : d.log.wf) (n cfg rate tx : Nat) (ppm quad : Option Nat) (enable : Bool) :
    (d.portConfig n cfg rate tx ppm quad enable).2.log.wf := by
  grind [Chip.portConfig, Chip.portWrite_logWf, Chip.flag_log, Chip.putImages_logWf]

theorem Dev.chanWrite_logWf (h : s.chip.log.wf) (e : Nat) (l : Images) (enable : Bool) :
    (s.chanWrite e l enable).chip.log.wf := by
  grind [Dev.chanWrite, Dev.on_chip, Dev.engDisable_logWf, Chip.engEnable_logWf, Chip.putImages_logWf,
    Chip.mirror_logWf]

theorem Dev.channelConfig_logWf (h : s.chip.log.wf) (e : Nat) (l : List (Option Nat)) (enable : Bool) :
    (s.channelConfig e l enable).2.chip.log.wf := by
  grind [Dev.channelConfig, Dev.chanWrite_logWf, Chip.putImages_logWf]

theorem Chip.tribAfter_logWf (h : d.log.wf) (l : List (Nat × Images)) : (d.tribAfter l).log.wf := by
  grind [Chip.tribAfter, Chip.foldl_logWf, Chip.putImages_logWf]

theorem Chip.tribMap_logWf (h : d.log.wf) (l : List TribEntry) : (d.tribMap l).2.log.wf := by
  grind [Chip.tribMap, Chip.foldl_logWf, Chip.ctxDisable_logWf, Chip.tribAfter_logWf,
    Chip.ctxEnable_logWf, Chip.putImages_logWf]

theorem Dev.capRegionConfig_logWf (h : s.chip.log.wf) (r : Nat) (l : Images) (enable : Bool) :
    (s.capRegionConfig r l enable).2.chip.log.wf := by
  grind [Dev.capRegionConfig, Dev.on_chip, Chip.flag_log, Dev.rgnDisable_logWf, Chip.putImages_logWf]

theorem Chip.patRegionConfig_logWf (h : d.log.wf) (r : Nat) (l : Images) (enable : Bool) :
    (d.patRegionConfig r l enable).2.log.wf := by
  grind [Chip.patRegionConfig, Chip.unflag_log, Chip.flag_log, Chip.putImages_logWf]

theorem Dev.regionConfig_logWf (h : s.chip.log.wf) (kind r cfg : Nat) (src : Option Nat) (base size : Nat)
    (pre post : Option Nat) :
    (s.regionConfig kind r cfg src base size pre post).2.chip.log.wf := by
  grind [Dev.regionConfig, Dev.capRegionConfig_logWf, Chip.patRegionConfig_logWf]

theorem Dev.deskewConfig_logWf (h : s.chip.log.wf) (sess e base size : Nat) :
    (s.deskewConfig sess e base size).2.chip.log.wf := by
  grind [Dev.deskewConfig, Dev.regWrite_logWf]

theorem Chip.huntControl_logWf (h : d.log.wf) (e action : Nat) (index : Option Nat) :
    (d.huntControl e action index).2.log.wf := by
  grind [Chip.huntControl, Chip.snap_logWf, Chip.force_logWf, Chip.rehunt_logWf]

theorem Chip.apsOpcode_logWf (h : d.log.wf) (e cmd chan : Nat) : (d.apsOpcode e cmd chan).2.log.wf := by
  grind [Chip.apsOpcode, Chip.apsCommand_logWf]

theorem Dev.patternQueue_logWf (h : s.chip.log.wf) (e rgn sub fstart : Nat) (time : Option Nat) :
    (s.patternQueue e rgn sub fstart time).2.log.wf := by
  grind [Dev.patternQueue, Dev.patPush_logWf]

theorem Chip.injLoad_logWf (h : d.log.wf) (e : Nat) (rec_ : List Byte) (count every : Nat) (time : Option Nat) :
    (d.injLoad e rec_ count every time).log.wf := by
  cases time <;> simpa [Chip.injLoad] using h

theorem Dev.injectError_logWf (h : s.chip.log.wf) (e : Nat) (rec_ : List Byte) (count every : Nat) (time : Option Nat) :
    (s.injectError e rec_ count every time).2.log.wf := by
  grind [Dev.injectError, Dev.on_chip, Chip.flag_log, Chip.injLoad_logWf, Dev.injArm_logWf]

/-! ## Capture readout -/

theorem Dev.deliverBale_logWf (h : s.chip.log.wf) (r seq : Nat) : (s.deliverBale r seq).2.chip.log.wf := by
  have h1 (a : Nat) := Dev.eccRead_logWf h a 512 [] []
  unfold Dev.deliverBale
  dsimp only
  split
  · exact h1 _
  · split <;> exact h1 _

theorem Dev.deliver_logWf (h : s.chip.log.wf) (r seq n : Nat) : (s.deliver r seq n).2.chip.log.wf := by
  induction n generalizing s seq with
  | zero => exact h
  | succ n ih => exact ih (Dev.deliverBale_logWf h r seq) _

theorem Chip.sendBurst_logWf (h : d.log.wf) (x : Stream) (k flags : Nat) (l : List Byte) :
    (d.sendBurst x k flags l).log.wf := by
  simpa [Chip.sendBurst] using h

theorem Chip.putStream_logWf (h : d.log.wf) (num : Nat) (x : Option Stream) : (d.putStream num x).log.wf := by
  simpa [Chip.putStream] using h

theorem Chip.truncate_logWf (h : d.log.wf) (x : Stream) : (d.truncate x).log.wf := by
  grind [Chip.truncate, Chip.putStream_logWf, Chip.sendBurst_logWf]

theorem Dev.formBurst_logWf (h : s.chip.log.wf) (num : Nat) : (s.formBurst num).chip.log.wf := by
  grind [Dev.formBurst, Dev.on_chip, Dev.deliver_logWf, Chip.truncate_logWf, Chip.putStream_logWf,
    Chip.sendBurst_logWf]

theorem Dev.pump_logWf (h : s.chip.log.wf) (num n : Nat) : (s.pump num n).chip.log.wf := by
  induction n generalizing s with
  | zero => exact h
  | succ n ih => exact ih (Dev.formBurst_logWf h num)

theorem Dev.sendStream_logWf (h : s.chip.log.wf) (num : Nat) : (s.sendStream num).chip.log.wf := by
  grind [Dev.sendStream, Dev.pump_logWf]

theorem Chip.resend_logWf (h : d.log.wf) (x : Stream) (l : List Nat) : (d.resend x l).log.wf := by
  grind [Chip.resend, Chip.foldl_logWf, Chip.sendBurst_logWf, Chip.count_log]

theorem Chip.readout_logWf (h : d.log.wf) (sess seq r first count burst port udp : Nat) :
    (d.readout sess seq r first count burst port udp).2.2.log.wf := by
  grind [Chip.readout, Chip.setHost_log]

theorem Dev.readoutAck_logWf (h : s.chip.log.wf) (a : Ack) : (s.readoutAck a).chip.log.wf := by
  grind [Dev.readoutAck, Dev.on_chip, Chip.resend_logWf, Chip.putStream_logWf, Dev.sendStream_logWf, Chip.flag_log,
    Chip.count_log]

theorem Dev.resendTimeout_logWf (h : s.chip.log.wf) (num : Nat) : (s.resendTimeout num).chip.log.wf := by
  grind [Dev.resendTimeout, Dev.on_chip, Chip.resend_logWf, Chip.putStream_logWf, Dev.sendStream_logWf, Chip.ev_logWf]

/-! ## Fenene requests -/

theorem Chip.putSession_logWf (h : d.log.wf) (x : Session) : (d.putSession x).log.wf := by
  simpa [Chip.putSession] using h

theorem Chip.closeSession_logWf (h : d.log.wf) (n cause : Nat) : (d.closeSession n cause).log.wf := by
  grind [Chip.closeSession, Chip.ev_logWf, Chip.setHost_log]

theorem Chip.sessionIdle_logWf (h : d.log.wf) (n : Nat) : (d.sessionIdle n).log.wf := by
  grind [Chip.sessionIdle, Chip.closeSession_logWf]

theorem Chip.hello_logWf (h : d.log.wf) : d.hello.2.log.wf := by
  grind [Chip.hello, Chip.fresh_logWf, Chip.setHost_log]

theorem Chip.sessionOpen_logWf (h : d.log.wf) (role key nonce : Nat) (sigOk : Bool) :
    (d.sessionOpen role key nonce sigOk).2.log.wf := by
  grind [Chip.sessionOpen, Chip.ev_logWf, Chip.freeBytes_logWf, Chip.setHost_log]

theorem Chip.eventRead_logWf (h : d.log.wf) (sess : Nat) (from_ : Option Nat) (max_ : Nat) :
    (d.eventRead sess from_ max_).2.log.wf := by
  grind [Chip.eventRead, Chip.putSession_logWf]

theorem Dev.widthFail_logWf (h : s.chip.log.wf) (sess a : Nat) (st : Status) :
    (s.widthFail sess a st).2.chip.log.wf := by
  grind [Dev.widthFail, Dev.on_chip, Chip.badWidth_logWf]

theorem Dev.opRegRead_logWf (h : s.chip.log.wf) (sess a : Nat) : (s.opRegRead sess a).2.chip.log.wf := by
  grind [Dev.opRegRead, Chip.regRead_logWf]

theorem Dev.opRegWrite_logWf (h : s.chip.log.wf) (sess a width v : Nat) :
    (s.opRegWrite sess a width v).2.chip.log.wf := by
  grind [Dev.opRegWrite, Dev.widthFail_logWf, Dev.regWrite_logWf]

theorem Dev.opReadBlock_logWf (h : s.chip.log.wf) (sess a n : Nat) : (s.opReadBlock sess a n).2.chip.log.wf := by
  grind [Dev.opReadBlock, Chip.readBlock_logWf]

theorem Dev.opWriteBlock_logWf (h : s.chip.log.wf) (sess a bytes : Nat) (l : List Nat) :
    (s.opWriteBlock sess a bytes l).2.chip.log.wf := by
  grind [Dev.opWriteBlock, Dev.on_chip, Chip.badWidth_logWf, Dev.writeBlock_logWf]

theorem Dev.opModify_logWf (h : s.chip.log.wf) (lock : ModLock) (sess a width mask v : Nat) :
    (s.opModify lock sess a width mask v).2.chip.log.wf := by
  unfold Dev.opModify
  split
  · exact Dev.widthFail_logWf h sess a _
  · cases lock with
    | kept => exact Dev.regModify_logWf h sess a _ _
    | late => exact Chip.modifyLate_logWf h sess a
    | poisoned => exact Chip.modifyPoisoned_logWf h sess a

theorem Dev.opSnapshot_logWf (h : s.chip.log.wf) (sess a len : Nat) : (s.opSnapshot sess a len).2.chip.log.wf := by
  grind [Dev.opSnapshot, Chip.snapshot_logWf]

theorem Dev.opPort_logWf (h : s.chip.log.wf) (n cfg rate tx : Nat) (ppm quad : Option Nat) (enable : Nat) :
    (s.opPort n cfg rate tx ppm quad enable).2.chip.log.wf := by
  grind [Dev.opPort, Chip.portConfig_logWf]

theorem Dev.opChannel_logWf (h : s.chip.log.wf) (e : Nat) (l : List (Option Nat)) (enable : Nat) :
    (s.opChannel e l enable).2.chip.log.wf := by
  grind [Dev.opChannel, Dev.channelConfig_logWf]

theorem Dev.opTrib_logWf (h : s.chip.log.wf) (l : List TribEntry) : (s.opTrib l).2.chip.log.wf := by
  grind [Dev.opTrib, Chip.tribMap_logWf]

theorem Dev.opAps_logWf (h : s.chip.log.wf) (e cmd chan : Nat) : (s.opAps e cmd chan).2.chip.log.wf := by
  grind [Dev.opAps, Chip.apsOpcode_logWf]

theorem Dev.opDeskew_logWf (h : s.chip.log.wf) (sess e base size : Nat) :
    (s.opDeskew sess e base size).2.chip.log.wf := by
  grind [Dev.opDeskew, Dev.deskewConfig_logWf]

theorem Dev.opHunt_logWf (h : s.chip.log.wf) (e action : Nat) (index : Option Nat) :
    (s.opHunt e action index).2.chip.log.wf := by
  grind [Dev.opHunt, Chip.huntControl_logWf]

theorem Dev.opArm_logWf (h : s.chip.log.wf) (r : Nat) : (s.opArm r).2.chip.log.wf := by
  grind [Dev.opArm, Chip.rgnArm_logWf]

theorem Dev.opStop_logWf (h : s.chip.log.wf) (r : Nat) : (s.opStop r).2.chip.log.wf := by
  grind [Dev.opStop, Dev.rgnStop_logWf]

theorem Dev.opReadout_logWf (hl : s.chip.log.wf) (h : Hdr) (r first count burst udp : Nat) :
    (s.opReadout h r first count burst udp).2.chip.log.wf := by
  grind [Dev.opReadout, Chip.readout_logWf]

theorem Dev.opRegion_logWf (h : s.chip.log.wf) (kind r cfg : Nat) (src : Option Nat) (base size : Nat)
    (pre post : Option Nat) :
    (s.opRegion kind r cfg src base size pre post).2.chip.log.wf := by
  grind [Dev.opRegion, Dev.regionConfig_logWf]

theorem Dev.opLoad_logWf (h : s.chip.log.wf) (r off : Nat) (data : List Byte) (complete : Option Nat) :
    (s.opLoad r off data complete).2.chip.log.wf := by
  grind [Dev.opLoad, Dev.patLoad_logWf]

theorem Dev.opQueue_logWf (h : s.chip.log.wf) (e rgn sub fstart : Nat) (time : Option Nat) :
    (s.opQueue e rgn sub fstart time).2.chip.log.wf := by
  grind [Dev.opQueue, Dev.patternQueue_logWf]

theorem Dev.opInject_logWf (h : s.chip.log.wf) (e : Nat) (rec_ : List Byte) (count every : Nat) (time : Option Nat) :
    (s.opInject e rec_ count every time).2.chip.log.wf := by
  grind [Dev.opInject, Dev.injectError_logWf]

theorem Dev.opTimeSet_logWf (h : s.chip.log.wf) (v : Nat) : (s.opTimeSet v).2.chip.log.wf := by
  grind [Dev.opTimeSet, Chip.timeSet_logWf]

theorem Dev.opTimeStep_logWf (h : s.chip.log.wf) (step : Option Int) (measured : Option Nat) :
    (s.opTimeStep step measured).2.chip.log.wf := by
  unfold Dev.opTimeStep
  split
  · exact Chip.timeStep_logWf h _
  · exact Chip.timeStepMeas_logWf h
  · exact h

theorem Dev.opStage_logWf (h : s.chip.log.wf) (kind off : Nat) (data : List Byte) (final : Option Nat) (v : Verdict) :
    (s.opStage kind off data final v).2.chip.log.wf := by
  grind [Dev.opStage, Chip.fwStage_logWf]

theorem Dev.opAttest_logWf (h : s.chip.log.wf) (nonce : List Byte) : (s.opAttest nonce).2.chip.log.wf := by
  grind [Dev.opAttest, Chip.attestNew_logWf]

theorem Dev.opAttestPart_logWf (h : s.chip.log.wf) (id part : Nat) : (s.opAttestPart id part).2.chip.log.wf := by
  grind [Dev.opAttestPart]

theorem Dev.opLedger_logWf (h : s.chip.log.wf) (first count : Nat) : (s.opLedger first count).2.chip.log.wf := by
  grind [Dev.opLedger]

theorem Dev.opSpare_logWf (h : s.chip.log.wf) (sess kind old : Nat) (new : Option Nat) :
    (s.opSpare sess kind old new).2.chip.log.wf := by
  grind [Dev.opSpare, Chip.spareSub_logWf]

theorem Dev.opJoin_logWf (h : s.chip.log.wf) (role minLanes : Nat) : (s.opJoin role minLanes).2.chip.log.wf := by
  grind [Dev.opJoin, Chip.tdmJoin_logWf]

theorem Dev.opSplit_logWf (h : s.chip.log.wf) : s.opSplit.2.chip.log.wf := by
  grind [Dev.opSplit, Dev.tdmSplit_logWf]

theorem Dev.runOp_logWf (hl : s.chip.log.wf) (h : Hdr) (r : Req) : (s.runOp h r).2.chip.log.wf := by
  cases r with
  | hello => exact Chip.hello_logWf hl
  | sessionOpen => exact Chip.sessionOpen_logWf hl _ _ _ _
  | sessionClose => exact hl
  | regRead => exact Dev.opRegRead_logWf hl _ _
  | regWrite => exact Dev.opRegWrite_logWf hl _ _ _ _
  | regReadBlock => exact Dev.opReadBlock_logWf hl _ _ _
  | regWriteBlock => exact Dev.opWriteBlock_logWf hl _ _ _ _
  | regModify => exact Dev.opModify_logWf hl _ _ _ _ _ _
  | portConfig => exact Dev.opPort_logWf hl _ _ _ _ _ _ _
  | channelConfig => exact Dev.opChannel_logWf hl _ _ _
  | tribMap => exact Dev.opTrib_logWf hl _
  | apsCommand => exact Dev.opAps_logWf hl _ _ _
  | deskewConfig => exact Dev.opDeskew_logWf hl _ _ _ _
  | huntControl => exact Dev.opHunt_logWf hl _ _ _
  | captureArm => exact Dev.opArm_logWf hl _
  | captureStop => exact Dev.opStop_logWf hl _
  | captureReadout => exact Dev.opReadout_logWf hl _ _ _ _ _ _
  | regionConfig => exact Dev.opRegion_logWf hl _ _ _ _ _ _ _ _
  | patternLoad => exact Dev.opLoad_logWf hl _ _ _ _
  | patternQueue => exact Dev.opQueue_logWf hl _ _ _ _ _
  | injectError => exact Dev.opInject_logWf hl _ _ _ _ _
  | timeSet => exact Dev.opTimeSet_logWf hl _
  | timeStep => exact Dev.opTimeStep_logWf hl _ _
  | eventRead => exact Chip.eventRead_logWf hl _ _ _
  | counterSnapshot => exact Dev.opSnapshot_logWf hl _ _ _
  | fwStage => exact Dev.opStage_logWf hl _ _ _ _ _
  | attestNew => exact Dev.opAttest_logWf hl _
  | attestPart => exact Dev.opAttestPart_logWf hl _ _
  | ledgerRead => exact Dev.opLedger_logWf hl _ _
  | spareSubstitute => exact Dev.opSpare_logWf hl _ _ _ _
  | tandemJoin => exact Dev.opJoin_logWf hl _ _
  | tandemSplit => exact Dev.opSplit_logWf hl
  | gatehouseStatus => exact hl
  | fwActivate => exact hl
  | failoverRequest => exact hl
  | unknown => exact hl

/-! ## Pavilion and Gatehouse -/

theorem Chip.loadCmd_logWf (h : d.log.wf) (c : CmdState) : (d.loadCmd c).log.wf := by
  simpa [Chip.loadCmd] using h

theorem Chip.jlog_logWf (hl : d.log.wf) (h : Hdr) (r : Req) : (d.jlog h r).log.wf := by
  simpa [Chip.jlog] using hl

theorem Chip.japply_logWf (hl : d.log.wf) (h : Hdr) : (d.japply h).log.wf := by
  grind [Chip.japply, Chip.setPav_log]

theorem Chip.writeCkpt_logWf (h : d.log.wf) (k : Nat) : (d.writeCkpt k).log.wf := by
  simpa [Chip.writeCkpt] using h

theorem Chip.ckptFail_logWf (h : d.log.wf) : d.ckptFail.log.wf := by
  simpa [Chip.ckptFail] using h

theorem Chip.checkpoint_logWf (h : d.log.wf) (fail : Bool) : (d.checkpoint fail).log.wf := by
  grind [Chip.checkpoint, Chip.setPav_log, Chip.ckptFail_logWf, Chip.writeCkpt_logWf]

theorem Chip.attn_logWf (h : d.log.wf) (sess : Nat) : (d.attn sess).2.log.wf := by
  grind [Chip.attn, Chip.fresh_logWf]

theorem Chip.sendReply_logWf (hl : d.log.wf) (h : Hdr) (x : Reply) : (d.sendReply h x).log.wf := by
  simpa [Chip.sendReply] using hl

theorem Chip.gthReply_logWf (hl : d.log.wf) (h : Hdr) (r : Req) (st : Status) (p : Params) :
    (d.gthReply h r st p).log.wf := by
  grind [Chip.gthReply, Chip.sendReply_logWf]

theorem Chip.finish_logWf (hl : d.log.wf) (h : Hdr) (r : Req) (st : Status) (p : Params) (send : Bool) :
    (d.finish h r st p send).log.wf := by
  grind [Chip.finish, Chip.sendReply_logWf, Chip.japply_logWf, Chip.closeSession_logWf, Chip.attn_logWf,
    Chip.putSession_logWf, Chip.setGth_log]

theorem Chip.unfence_logWf (h : d.log.wf) (p : Nat) : (d.unfence p).log.wf := by
  simpa [Chip.unfence] using h

theorem Chip.dropFmt_logWf (h : d.log.wf) : d.dropFmt.log.wf := by
  simpa [Chip.dropFmt] using h

theorem Chip.holdPacket_logWf (h : d.log.wf) (p : Packet) : (d.holdPacket p).log.wf := by
  cases p <;> grind [Chip.holdPacket, Chip.dropFmt_logWf, Chip.gthReply_logWf]

theorem Chip.commandLost_logWf (h : d.log.wf) (failed : Bool) : (d.commandLost failed).log.wf := by
  grind [Chip.commandLost, Chip.foldl_logWf, Chip.setPav_log, Chip.holdPacket_logWf, Chip.flag_log,
    Chip.setGth_log, Chip.setHost_log]

theorem Dev.pavReset_logWf (h : s.chip.log.wf) (m : Nat) : (s.pavReset m).chip.log.wf := by
  have hw (l : List Txn) (a : Txn → Nat) (w : Txn → Word) :
      (l.foldl (fun (x : Dev) t => (x.regWrite 0 0 (a t) (w t)).2) s).chip.log.wf :=
    Dev.foldl_logWf (fun _ _ hx => Dev.regWrite_logWf hx 0 0 _ _) l h
  exact Dev.masterReset_logWf (hw _ _ _) m

theorem Dev.failover_logWf (h : s.chip.log.wf) (cause : Nat) : (s.failover cause).chip.log.wf := by
  grind [Dev.failover, Chip.ev_logWf, Chip.fence_logWf, Dev.pavReset_logWf, Chip.flag_log, Chip.setGth_log]

theorem Dev.declare_logWf (h : s.chip.log.wf) (cause : Nat) : (s.declare cause).chip.log.wf := by
  grind [Dev.declare, Dev.on_chip, Chip.setPav_log, Dev.failover_logWf, Chip.commandLost_logWf]

theorem Dev.serve_logWf (hl : s.chip.log.wf) (h : Hdr) (r : Req) : (s.serve h r).chip.log.wf := by
  grind [Dev.serve, Dev.on_chip, Chip.setPav_log, Dev.runOp_logWf, Chip.finish_logWf, Dev.sendStream_logWf,
    Chip.putSession_logWf, Dev.failover_logWf, Chip.ownerAction_logWf, Chip.writeCkpt_logWf, Chip.jlog_logWf,
    Chip.setGth_log]

theorem Dev.drain_logWf (h : s.chip.log.wf) (num n : Nat) : (s.drain num n).chip.log.wf := by
  induction n generalizing s with
  | zero => exact h
  | succ n ih =>
    unfold Dev.drain
    split
    · refine ih (Dev.serve_logWf ?_ _ _)
      rw [Dev.on_chip]
      split
      · exact Chip.putSession_logWf h _
      · exact h
    · exact h

theorem Chip.dropAuth_logWf (h : d.log.wf) : d.dropAuth.log.wf := by
  simpa [Chip.dropAuth] using h

theorem Chip.dropSeq_logWf (h : d.log.wf) : d.dropSeq.log.wf := by
  simpa [Chip.dropSeq] using h

theorem Chip.touch_logWf (h : d.log.wf) (n : Nat) : (d.touch n).log.wf := by
  grind [Chip.touch, Chip.putSession_logWf]

theorem Chip.resetReply_logWf (hl : d.log.wf) (s : Session) (h : Hdr) (r : Req) : (d.resetReply s h r).log.wf := by
  grind [Chip.resetReply, Chip.sendReply_logWf, Chip.closeSession_logWf, Chip.attn_logWf]

theorem Dev.receiveIn_logWf (hl : s.chip.log.wf) (x : Session) (h : Hdr) (r : Req) :
    (s.receiveIn x h r).chip.log.wf := by
  grind [Dev.receiveIn, Dev.on_chip, Dev.serve_logWf, Chip.sendReply_logWf, Chip.putSession_logWf,
    Chip.resetReply_logWf, Chip.dropSeq_logWf, Dev.drain_logWf, Chip.touch_logWf]

theorem Dev.arrive_logWf (hl : s.chip.log.wf) (h : Hdr) (r : Req) : (s.arrive h r).chip.log.wf := by
  grind [Dev.arrive, Dev.on_chip, Dev.serve_logWf, Chip.dropSeq_logWf, Chip.dropAuth_logWf, Dev.receiveIn_logWf,
    Chip.dropFmt_logWf]

theorem Chip.gapPacket_logWf (h : d.log.wf) (p : Packet) : (d.gapPacket p).log.wf := by
  cases p <;> grind [Chip.gapPacket, Chip.setGth_log, Chip.count_log, Chip.gthReply_logWf]

theorem Dev.route_logWf (h : s.chip.log.wf) (p : Packet) : (s.route p).chip.log.wf := by
  unfold Dev.route
  split
  · exact Chip.holdPacket_logWf h p
  · exact Chip.gapPacket_logWf h p
  · split
    · exact h
    · cases p with
      | request hd r => exact Dev.arrive_logWf h hd r
      | ack a => exact Dev.readoutAck_logWf h a

theorem Dev.receive_logWf (h : s.chip.log.wf) (p : Packet) : (s.receive p).chip.log.wf := by
  grind [Dev.receive, Dev.on_chip, Dev.route_logWf, Chip.count_log]

theorem Dev.request_logWf (hl : s.chip.log.wf) (h : Hdr) (r : Req) : (s.request h r).chip.log.wf := by
  grind [Dev.request, Dev.receive_logWf]

theorem Dev.replay_logWf (h : s.chip.log.wf) (asked : Option Hdr) (e : Jent) : (s.replay asked e).chip.log.wf := by
  grind [Dev.replay, Dev.on_chip, Dev.runOp_logWf, Chip.finish_logWf, Chip.loadCmd_logWf, Chip.putSession_logWf,
    Chip.ownerAction_logWf, Chip.count_log]

theorem Chip.stateLoss_logWf (h : d.log.wf) : d.stateLoss.log.wf := by
  grind [Chip.stateLoss, Chip.setPav_log, Chip.ev_logWf, Chip.flag_log, Chip.setHost_log]

theorem Chip.slotFail_logWf (h : d.log.wf) (t : TakeIn) : (d.slotFail t).log.wf := by
  grind [Chip.slotFail, Chip.foldl_logWf, Chip.ckptFail_logWf]

theorem Dev.rebuild_logWf (h : s.chip.log.wf) (t : TakeIn) : (s.rebuild t).chip.log.wf := by
  grind [Dev.rebuild, Chip.foldl_logWf, Dev.foldl_logWf, Dev.on_chip, Chip.stateLoss_logWf, Chip.loadCmd_logWf,
    Dev.replay_logWf, Chip.slotFail_logWf]

theorem Chip.gapEnd_logWf (h : d.log.wf) : d.gapEnd.log.wf := by
  simpa [Chip.gapEnd] using h

theorem Dev.release_logWf (h : s.chip.log.wf) : s.release.chip.log.wf := by
  grind [Dev.release, Chip.foldl_logWf, Dev.foldl_logWf, Dev.on_chip, Chip.resend_logWf, Dev.route_logWf,
    Chip.emit_log, Dev.sendStream_logWf, Chip.setGth_log, Chip.count_log]

theorem Chip.askedDone_logWf (h : d.log.wf) (asked : Option (Hdr × Bool)) : (d.askedDone asked).log.wf := by
  unfold Chip.askedDone
  split
  · exact h
  · split
    · exact Chip.finish_logWf (Chip.rollbackAdvance_logWf (Chip.ownerAction_logWf h _ _) _) _ _ _ _ _
    · exact Chip.finish_logWf (Chip.ownerAction_logWf h _ _) _ _ _ _ _

theorem Dev.takeover_logWf (h : s.chip.log.wf) (t : TakeIn) : (s.takeover t).chip.log.wf := by
  grind [Dev.takeover, Dev.on_chip, Chip.setPav_log, Dev.rebuild_logWf, Chip.flag_log, Chip.gapEnd_logWf,
    Dev.release_logWf, Chip.unfence_logWf, Chip.askedDone_logWf, Chip.setGth_log]

theorem Dev.takeoverFail_logWf (h : s.chip.log.wf) (fault : Bool) : (s.takeoverFail fault).chip.log.wf := by
  grind [Dev.takeoverFail, Dev.on_chip, Chip.setPav_log, Chip.recordPav_logWf, Chip.finish_logWf, Chip.flag_log,
    Chip.gapEnd_logWf, Dev.release_logWf, Chip.commandLost_logWf, Chip.unfence_logWf, Chip.setGth_log]

theorem Chip.heartbeat_logWf (h : d.log.wf) : d.heartbeat.log.wf := by
  grind [Chip.heartbeat, Chip.setGth_log]

theorem Dev.heartbeatMiss_logWf (h : s.chip.log.wf) : s.heartbeatMiss.chip.log.wf := by
  grind [Dev.heartbeatMiss, Dev.declare_logWf]

theorem Dev.fatalError_logWf (h : s.chip.log.wf) : s.fatalError.chip.log.wf := by
  grind [Dev.fatalError, Dev.takeoverFail_logWf, Dev.declare_logWf]

theorem Dev.timeoutReport_logWf (h : s.chip.log.wf) (t : Txn) : (s.timeoutReport t).chip.log.wf := by
  grind [Dev.timeoutReport, Dev.takeoverFail_logWf, Dev.declare_logWf]

theorem Dev.yardLate_logWf (h : s.chip.log.wf) (m tag : Nat) : (s.yardLate m tag).chip.log.wf := by
  grind [Dev.yardLate, Dev.yardTimeout_logWf, Dev.timeoutReport_logWf]

theorem Chip.replacedReset_logWf (h : d.log.wf) : d.replacedReset.log.wf := by
  grind [Chip.replacedReset, Chip.setPav_log, Chip.setGth_log]

theorem Chip.syncSlot_logWf (h : d.log.wf) : d.syncSlot.log.wf := by
  grind [Chip.syncSlot, Chip.setStandbyImage_logWf]

theorem Chip.selfTestDone_logWf (h : d.log.wf) (pass : Bool) : (d.selfTestDone pass).log.wf := by
  grind [Chip.selfTestDone, Chip.setPav_log, Chip.syncSlot_logWf, Chip.recordPav_logWf, Chip.setGth_log]

theorem Dev.forwarded_logWf (h : s.chip.log.wf) (n : Nat) (x : PeerReply) : (s.forwarded n x).chip.log.wf := by
  grind [Dev.forwarded, Dev.on_chip, Chip.finish_logWf, Chip.ownerAction_logWf, Dev.drain_logWf]

theorem Dev.splitReplies_logWf (h : s.chip.log.wf) : s.splitReplies.chip.log.wf := by
  grind [Dev.splitReplies, Chip.foldl_logWf, Dev.foldl_logWf, Dev.on_chip, Chip.finish_logWf, Dev.drain_logWf]

theorem Dev.splitHoldEnter_logWf (h : s.chip.log.wf) : s.splitHoldEnter.chip.log.wf := by
  grind [Dev.splitHoldEnter, Dev.on_chip, Chip.splitEnter_logWf, Dev.splitReplies_logWf]

/-! ## Commands of several units -/

theorem Dev.laneSignal_logWf (h : s.chip.log.wf) (n : Nat) (trans : Bool) (freq : Int) :
    (s.laneSignal n trans freq).chip.log.wf := by
  grind [Dev.laneSignal, Dev.on_chip, Chip.signalChange_logWf, Chip.setLane_log]

theorem Dev.moduleSignal_logWf (h : s.chip.log.wf) (k : Nat) (prs int : Bool) :
    (s.moduleSignal k prs int).chip.log.wf := by
  grind [Dev.moduleSignal, Dev.on_chip, Chip.sbit_log, Chip.moduleChange_logWf]

theorem Dev.writeAt_logWf (h : s.chip.log.wf) (sess addr : Nat) (w : Word) : (s.writeAt sess addr w).chip.log.wf := by
  grind [Dev.writeAt, Dev.on_chip, Chip.answer_log, Dev.regWrite_logWf]

theorem Dev.readAt_logWf (h : s.chip.log.wf) (sess addr : Nat) : (s.readAt sess addr).chip.log.wf := by
  grind [Dev.readAt, Chip.answer_log, Chip.regRead_logWf]

theorem Chip.defectTimer_logWf (h : d.log.wf) (path : Bool) (n b : Nat) (on : Bool) :
    (d.defectTimer path n b on).log.wf := by
  grind [Chip.defectTimer, Chip.remoteDefect_logWf, Chip.defExpire_logWf, Chip.defSettle_logWf]

theorem Chip.tapStream_logWf (hl : d.log.wf) (h start : Nat) (l : List Byte) : (d.tapStream h start l).log.wf := by
  grind [Chip.tapStream, Chip.foldl_logWf, Chip.tapOctet_logWf]

theorem Chip.rxLine_logWf (h : d.log.wf) (e : Nat) (fr : RxFrame) : (d.rxLine e fr).log.wf := by
  grind [Chip.rxLine, Chip.foldl_logWf, Chip.tapStream_logWf, Chip.thruPush_logWf,
    Chip.rxFrame_logWf]

theorem Chip.selBoundary_logWf (hl : d.log.wf) (h : Nat) : (d.selBoundary h).log.wf := by
  grind [Chip.selBoundary, Chip.applySel_logWf]

theorem Dev.delayWrite_logWf (hl : s.chip.log.wf) (h path time : Nat) (l : List Byte) :
    (s.delayWrite h path time l).chip.log.wf := by
  simpa [Dev.delayWrite] using hl

theorem Dev.deskewOut_logWf (hl : s.chip.log.wf) (h : Nat) : (s.deskewOut h).chip.log.wf := by
  grind [Dev.deskewOut, Chip.foldl_logWf, Dev.foldl_logWf, Dev.on_chip, Chip.hitlessPush_logWf, Chip.setDsk_log,
    Chip.tapStream_logWf]

theorem Dev.deskewFrame_logWf (hl : s.chip.log.wf) (h path time : Nat) (octets : List Byte) :
    (s.deskewFrame h path time octets).chip.log.wf := by
  grind [Dev.deskewFrame, Dev.on_chip, Dev.delayWrite_logWf, Dev.deskewOut_logWf, Chip.dskFrame_logWf]

theorem Dev.settleLive_logWf (h : s.chip.log.wf) : s.settleLive.chip.log.wf := by
  grind [Dev.settleLive, Chip.foldl_logWf, Dev.foldl_logWf, Dev.settle_logWf]

theorem Chip.linkChange_logWf (h : d.log.wf) (p : Nat) (up : Bool) : (d.linkChange p up).log.wf := by
  grind [Chip.linkChange, Chip.flag_log]

theorem Chip.addressFrame_logWf (h : d.log.wf) (p : Nat) (k : HostFrame) : (d.addressFrame p k).log.wf := by
  grind [Chip.addressFrame, Chip.emit_log, Chip.count_log]

/-! ## Commands and steps -/

theorem Dev.on_logWf {f : Chip → Chip} (hf : ∀ d, d.log.wf → (f d).log.wf) (x : Dev) (hx : x.chip.log.wf) :
    (x.on f).chip.log.wf :=
  hf _ hx

theorem command_logWf {ok pin : Bool} {f : Dev → Dev} {s t : State} (he : command ok pin f s = .next t)
    (h : s.dev.chip.log.wf) (hf : ∀ x : Dev, x.chip.log.wf → (f x).chip.log.wf) : t.dev.chip.log.wf := by
  obtain ⟨-, -, hd | hd⟩ := command_cases he
  · rw [hd]
    exact h
  · rw [hd]
    exact hf _ h

/-- Stated apart: through `command_logWf` the kernel would compare two forms of the effect by evaluating them. -/
theorem execMmbStretchTimeout_logWf (k n : Nat) (data : List Byte) {s t : State} (h : s.dev.chip.log.wf)
    (he : execMmbStretchTimeout k n data s = .next t) : t.dev.chip.log.wf := by
  obtain ⟨-, -, hd | hd⟩ := command_cases he
  · rw [hd]
    exact h
  · have hc : t.dev.chip = s.dev.cleared.chip.mmbStretch k n data := congrArg Dev.chip hd
    rw [hc]
    exact Chip.mmbStretch_logWf (d := s.dev.cleared.chip) h k n data

theorem exec_logWf (i : Instr) {s t : State} (h : s.dev.chip.log.wf) (he : exec i s = .next t) :
    t.dev.chip.log.wf := by
  unfold exec at he
  cases i with
  | powerGoodChange => exact command_logWf he h fun _ hx => Dev.powerGood_logWf hx _ _ _
  | nresetChange => exact command_logWf he h fun _ hx => Dev.nResetChange_logWf hx _ _
  | brownOut => exact command_logWf he h fun _ hx => Dev.brownOut_logWf hx _
  | railMeasurement => exact command_logWf he h (Dev.on_logWf fun _ hd => Chip.railRead_logWf hd _ _ _ _ _)
  | tempReading => exact command_logWf he h fun _ hx => Dev.tempRead_logWf hx _
  | blockReady => exact command_logWf he h (Dev.on_logWf fun _ hd => Chip.blockReady_logWf hd _)
  | pavilionBoot => exact command_logWf he h fun _ hx => Dev.pavBoot_logWf hx _
  | laneEnable | laneDisable | recal | losTimerConfig | mmbGo | lofTimerConfig | rehunt | force | snap | ohpCommit
  | ttiIdxWrite | ttiStore | ttiFmtWrite | contextEnable | contextDisable | seqGo | seqStop | integTimeConfig
  | sfSdWindowConfig | apsGroupEnable | apsGroupDisable | apsMemberWrite | lockout | forceSwitch | manual
  | exercise | clear | combinerEnable | hostTrigger | clearFired | timeCompareArm | regionEnable | regionDisable
  | arm | stop | patternRegionEnable | patternRegionDisable | push | flush | abort | injStop | injectArm | step
  | stepMeas | set | hold | release | timeUnitEnable | timeUnitDisable | triggerOutArm | tpEnable | glbLockWrite
  | engineEnable | engineDisable | engineReset | clusterPowerDown | clusterPowerUp | tdmCfgWrite | tdmXmemberWrite
  | uidBurn =>
    exact command_logWf he h fun _ hx => Dev.hostWrite_logWf hx _ _ _
  | laneCalibrationDone => exact command_logWf he h (Dev.on_logWf fun _ hd => Chip.calDone_logWf hd _)
  | signalChange => exact command_logWf he h fun _ hx => Dev.laneSignal_logWf hx _ _ _
  | losSetExpiry => exact command_logWf he h (Dev.on_logWf fun _ hd => Chip.losSet_logWf hd _)
  | losClrExpiry => exact command_logWf he h (Dev.on_logWf fun _ hd => Chip.losClr_logWf hd _)
  | cdrLock => exact command_logWf he h (Dev.on_logWf fun _ hd => Chip.cdrLock_logWf hd _)
  | lockLoss => exact command_logWf he h (Dev.on_logWf fun _ hd => Chip.lockLoss_logWf hd _)
  | txclkSlewDone => exact command_logWf he h (Dev.on_logWf fun _ hd => Chip.slewDone_logWf hd _)
  | moduleSignalChange => exact command_logWf he h fun _ hx => Dev.moduleSignal_logWf hx _ _ _
  | mmbDone =>
    exact command_logWf he h (Dev.on_logWf fun _ hd => by
      split
      · exact Chip.mmbStretch_logWf hd _ _ _
      · exact Chip.mmbEnd_logWf hd _ _ _ _)
  | mmbStretchTimeout => exact execMmbStretchTimeout_logWf _ _ _ h he
  | lineWord => exact command_logWf he h (Dev.on_logWf fun _ hd => Chip.lineWord_logWf hd _ _ _ _)
  | lofSetExpiry => exact command_logWf he h (Dev.on_logWf fun _ hd => Chip.lofSet_logWf hd _)
  | lofClrExpiry => exact command_logWf he h (Dev.on_logWf fun _ hd => Chip.lofClr_logWf hd _)
  | rxFrame => exact command_logWf he h (Dev.on_logWf fun _ hd => Chip.rxLine_logWf hd _ _)
  | txFrameStart => exact command_logWf he h fun _ hx => Dev.txFrame_logWf hx _ _
  | pointerPeriodStart => exact command_logWf he h fun _ hx => Dev.ptrStart_logWf hx _ _
  | defectSetExpiry | defectClrExpiry =>
    exact command_logWf he h (Dev.on_logWf fun _ hd => Chip.defectTimer_logWf hd _ _ _ _)
  | bipWindowEnd => exact command_logWf he h (Dev.on_logWf fun _ hd => Chip.winEnd_logWf hd _ _)
  | pmSecondEnd => exact command_logWf he h (Dev.on_logWf fun _ hd => Chip.secondEnd_logWf hd _)
  | pmSecondCounted => exact command_logWf he h (Dev.on_logWf fun _ hd => Chip.secondCounted_logWf hd _)
  | holdoffExpiry => exact command_logWf he h (Dev.on_logWf fun _ hd => Chip.holdExpire_logWf hd _ _)
  | wtrExpiry => exact command_logWf he h (Dev.on_logWf fun _ hd => Chip.wtrExpire_logWf hd _)
  | fopDeclare => exact command_logWf he h (Dev.on_logWf fun _ hd => Chip.fopExpire_logWf hd _)
  | selectorChange => exact command_logWf he h (Dev.on_logWf fun _ hd => Chip.selBoundary_logWf hd _)
  | deskewFrame => exact command_logWf he h fun _ hx => Dev.deskewFrame_logWf hx _ _ _ _
  | deskewNoMatch => exact command_logWf he h (Dev.on_logWf fun _ hd => Chip.dskNoMatch_logWf hd _)
  | rebaseDone => exact command_logWf he h (Dev.on_logWf fun _ hd => Chip.rebaseDone_logWf hd _)
  | stallPush => exact command_logWf he h (Dev.on_logWf fun _ hd => Chip.stallPush_logWf hd _ _)
  | stallPop =>
    exact command_logWf he h fun _ hx =>
      Dev.settleLive_logWf (Dev.on_logWf (fun _ hd => Chip.stallPop_logWf hd _ _ _) _ hx)
  | lossEpisodeEnd => exact command_logWf he h (Dev.on_logWf fun _ hd => Chip.lossEnd_logWf hd _)
  | baleFlushTimeout =>
    exact command_logWf he h fun _ hx =>
      Dev.settle_logWf (Dev.on_logWf (fun _ hd => Chip.baleFlush_logWf hd _) _ hx) _
  | baleWriteReply => exact command_logWf he h fun _ hx => Dev.baleReply_logWf hx _ _ _
  | pendingBaleRetry => exact command_logWf he h fun _ hx => Dev.settle_logWf hx _
  | termHoldExpiry => exact command_logWf he h (Dev.on_logWf fun _ hd => Chip.termExpire_logWf hd _ _)
  | globalTriggerLine => exact command_logWf he h (Dev.on_logWf fun _ hd => Chip.globalLine_logWf hd _)
  | timeCompareFire => exact command_logWf he h (Dev.on_logWf fun _ hd => Chip.cmpFire_logWf hd _)
  | readoutAck | fenenePacketDrop | failoverPacketHold =>
    exact command_logWf he h fun _ hx => Dev.receive_logWf hx _
  | readoutResendTimeout => exact command_logWf he h fun _ hx => Dev.resendTimeout_logWf hx _
  | entryReady => exact command_logWf he h (Dev.on_logWf fun _ hd => Chip.entryReady_logWf hd _ _)
  | scriptLaunch => exact command_logWf he h fun _ hx => Dev.scriptLaunch_logWf hx _ _ _ _
  | patternReadReply => exact command_logWf he h fun _ hx => Dev.patRead_logWf hx _ _ _ _ _ _
  | yardRequest | lockedRead =>
    exact command_logWf he h (Dev.on_logWf fun _ hd => Chip.yardRequest_logWf hd _ _ _ _ _ _ _)
  | yardGrant => exact command_logWf he h (Dev.on_logWf fun _ hd => Chip.yardGrant_logWf hd _)
  | yardReply => exact command_logWf he h fun _ hx => Dev.yardComplete_logWf hx _ _ _ _ _
  | writeUnlock => exact command_logWf he h fun _ hx => Dev.writeUnlock_logWf hx _ _ _ _
  | lockTimeout => exact command_logWf he h (Dev.on_logWf fun _ hd => Chip.lockExpire_logWf hd _)
  | yardTimeout => exact command_logWf he h fun _ hx => Dev.yardLate_logWf hx _ _
  | fenceGraceEnd => exact command_logWf he h fun _ hx => Dev.graceEnd_logWf hx _
  | fenceEnd => exact command_logWf he h fun _ hx => Dev.fenceEnd_logWf hx _
  | scrubBlock => exact command_logWf he h fun _ hx => Dev.scrubBlock_logWf hx _ _ _ _
  | scrubPassEnd => exact command_logWf he h (Dev.on_logWf fun _ hd => Chip.scrubPassEnd_logWf hd _)
  | migrationCopy => exact command_logWf he h (Dev.on_logWf fun _ hd => Chip.migCopy_logWf hd _)
  | migrationComplete => exact command_logWf he h (Dev.on_logWf fun _ hd => Chip.migComplete_logWf hd _)
  | ptpMessageRx => exact command_logWf he h (Dev.on_logWf fun _ hd => Chip.ptpRx_logWf hd _)
  | announceReceiptTimeout => exact command_logWf he h (Dev.on_logWf fun _ hd => Chip.annExpire_logWf hd)
  | ptpMessageTx => exact command_logWf he h (Dev.on_logWf fun _ hd => Chip.ptpTx_logWf hd _)
  | ppsLoss => exact command_logWf he h (Dev.on_logWf fun _ hd => Chip.ppsLoss_logWf hd _)
  | ref10mLock => exact command_logWf he h (Dev.on_logWf fun _ hd => Chip.refLockTo_logWf hd _ _)
  | refLoss => exact command_logWf he h (Dev.on_logWf fun _ hd => Chip.refLost_logWf hd _)
  | catchupDone => exact command_logWf he h (Dev.on_logWf fun _ hd => Chip.catchupDone_logWf hd)
  | tpEdge => exact command_logWf he h (Dev.on_logWf fun _ hd => Chip.tpEdge_logWf hd _ _ _)
  | ppsOutPulse => exact command_logWf he h (Dev.on_logWf fun _ hd => Chip.ppsOut_logWf hd _)
  | triggerOutFire => exact command_logWf he h (Dev.on_logWf fun _ hd => Chip.tpFire_logWf hd _)
  | hostLinkChange => exact command_logWf he h (Dev.on_logWf fun _ hd => Chip.linkChange_logWf hd _ _)
  | hostAddressAnswer => exact command_logWf he h (Dev.on_logWf fun _ hd => Chip.addressFrame_logWf hd _ _)
  | requestHold | requestDuplicate | hello | sessionOpen | sessionClose | regRead | regWrite | regReadBlock
  | regWriteBlock | regModify | portConfig | channelConfig | tribMap | apsCommand | deskewConfig | huntControl
  | captureArm | captureStop | captureReadout | regionConfig | patternLoad | patternQueue | injectError | timeSet
  | timeStep | eventRead | counterSnapshot | fwStage | fwActivate | attest | ledgerRead | spareSubstitute
  | tandemJoin | tandemSplit | gatehouseStatus | failoverRequest | gatehouseAnswer =>
    exact command_logWf he h fun _ hx => Dev.request_logWf hx _ _
  | sessionIdleTimeout => exact command_logWf he h (Dev.on_logWf fun _ hd => Chip.sessionIdle_logWf hd _)
  | registerWrite => exact command_logWf he h fun _ hx => Dev.writeAt_logWf hx _ _ _
  | rcRegisterRead => exact command_logWf he h fun _ hx => Dev.readAt_logWf hx _ _
  | engineResetDone => exact command_logWf he h (Dev.on_logWf fun _ hd => Chip.engResetDone_logWf hd _)
  | heartbeat => exact command_logWf he h (Dev.on_logWf fun _ hd => Chip.heartbeat_logWf hd)
  | heartbeatMiss => exact command_logWf (f := Dev.heartbeatMiss) he h fun _ hx => Dev.heartbeatMiss_logWf hx
  | fatalError => exact command_logWf he h fun _ hx => Dev.fatalError_logWf hx
  | takeoverResume => exact command_logWf he h fun _ hx => Dev.takeover_logWf hx _
  | takeoverFail => exact command_logWf he h fun _ hx => Dev.takeoverFail_logWf hx _
  | checkpointWrite => exact command_logWf he h (Dev.on_logWf fun _ hd => Chip.checkpoint_logWf hd _)
  | replacedResetEnd => exact command_logWf he h (Dev.on_logWf fun _ hd => Chip.replacedReset_logWf hd)
  | selfTestDone => exact command_logWf he h (Dev.on_logWf fun _ hd => Chip.selfTestDone_logWf hd _)
  | tandemLaneUp => exact command_logWf he h (Dev.on_logWf fun _ hd => Chip.tdmLaneUp_logWf hd _)
  | tandemLaneDown => exact command_logWf he h (Dev.on_logWf fun _ hd => Chip.tdmLaneDown_logWf hd _ _)
  | tandemHandshake => exact command_logWf he h (Dev.on_logWf fun _ hd => Chip.tdmHandshake_logWf hd _ _ _ _)
  | joinTimeout => exact command_logWf he h fun _ hx => Dev.joinTimeout_logWf hx
  | splitHoldEnter => exact command_logWf he h fun _ hx => Dev.splitHoldEnter_logWf hx
  | forwardedReply => exact command_logWf he h fun _ hx => Dev.forwarded_logWf hx _ _
  | ledgerBurnDone => exact command_logWf he h (Dev.on_logWf fun _ hd => Chip.ledgerBurned_logWf hd)
  | understudyStart => exact command_logWf he h (Dev.on_logWf fun _ hd => Chip.checkStart_logWf hd _)
  | understudyPass => exact command_logWf he h (Dev.on_logWf fun _ hd => Chip.checkPass_logWf hd _)
  | understudySkip => exact command_logWf he h (Dev.on_logWf fun _ hd => Chip.checkSkip_logWf hd _)
  | understudyMismatch => exact command_logWf he h (Dev.on_logWf fun _ hd => Chip.mismatch_logWf hd _)
  | voteEnd => exact command_logWf he h (Dev.on_logWf fun _ hd => Chip.voteEnd_logWf hd _ _)
  | cutover =>
    exact command_logWf he h fun _ hx =>
      Dev.settleLive_logWf (Dev.on_logWf (fun _ hd => Chip.cutOver_logWf hd _ _) _ hx)
  | subTimeout =>
    exact command_logWf he h fun _ hx =>
      Dev.settleLive_logWf (Dev.on_logWf (fun _ hd => Chip.subTimeout_logWf hd _ _) _ hx)

theorem step_logWf {s t : State} (h : s.dev.chip.log.wf) (hs : step s = .next t) : t.dev.chip.log.wf := by
  unfold step at hs
  split at hs
  · injection hs with hs
    subst hs
    exact Chip.tick_logWf h
  · next c rest _ => exact exec_logWf c (s := { s with pending := rest }) h hs

/-- Settles O6: a step executes one command or lets a cycle pass, and each of these keeps a well-formed log. -/
theorem stepKeepsEventNumbering : Obligations.StepKeepsEventNumbering :=
  fun _ _ h hs => step_logWf h hs

end Sys2Proof.Machine
end

