-- ==== Sys2Proof/Proofs/Stall.lean ====
section
set_option Elab.async false
/-! The Stall and the end of a loss episode (R155-R160): what a push, a pop and the end of an episode leave, in the
order in which a word travels. -/
namespace Sys2Proof.Machine

/-! ## Frames -/

/-- What a command leaves is what it found but for the four parts of `besides`, where the device with those four parts
put back is the device it found. -/
theorem Dev.only_caps_of_besides {x y : Dev} (h : y.chip.besides x.chip = x.chip) (hm : x.sameMem y) :
    x.only y (fun c => { c with caps := y.chip.caps }) := by
  refine ⟨?_, hm⟩
  calc y.chip = (y.chip.besides x.chip).besides y.chip := rfl
    _ = x.chip.besides y.chip := by rw [h]

@[simp] theorem Chip.cap_setCap_same (d : Chip) (e : Nat) (c : Cap) : (d.setCap e c).cap e = c :=
  SMap.get_put_same _ _ _ _

theorem Chip.cap_setCap_other (d : Chip) {e m : Nat} (c : Cap) (h : m ≠ e) : (d.setCap e c).cap m = d.cap m :=
  SMap.get_put_other _ _ _ _ h

@[simp] theorem Chip.rgn_setRgn_same (d : Chip) (r : Nat) (x : Rgn) : (d.setRgn r x).rgn r = x :=
  SMap.get_put_same _ _ _ _

theorem Chip.rgn_setRgn_other (d : Chip) {r m : Nat} (x : Rgn) (h : m ≠ r) : (d.setRgn r x).rgn m = d.rgn m :=
  SMap.get_put_other _ _ _ _ h

/-! ## A counter that counts only where a condition holds -/

theorem Chip.rd_ite_count {d : Chip} {c : Prop} [Decidable c] (r : RegId) (n : Nat) (hn : ¬ c → n = 0) :
    ((if c then d.count r n else d).rd r).toNat = min ((d.rd r).toNat + n) 0xFFFFFFFF := by
  have hlt := (d.rd r).isLt
  split
  · exact Chip.rd_count_same d r n
  · next h =>
    rw [hn h]
    omega

theorem Chip.ite_count_caps (d : Chip) (c : Prop) [Decidable c] (r : RegId) (n : Nat) :
    (if c then d.count r n else d).caps = d.caps := by
  split
  · rfl
  · rfl

theorem Chip.rd_ite_count_other (d : Chip) (c : Prop) [Decidable c] {r g : RegId} (n : Nat) (h : g.key ≠ r.key) :
    (if c then d.count r n else d).rd g = d.rd g := by
  split
  · exact Chip.rd_count_other d n h
  · rfl

theorem Chip.ite_count_besides (d c0 : Chip) (c : Prop) [Decidable c] (r : RegId) (n : Nat) :
    (if c then d.count r n else d).besides c0 = d.besides c0 := by
  split
  · rfl
  · rfl

/-! ## A push (R156) -/

/-- The buffers after a push of the oldest word `w` of the elastic buffer, of which `l` stays, in core cycle `t`. -/
def Cap.push (c : Cap) (w : SWord) (l : List SWord) (ecc t : Nat) : Cap :=
  let st := c.stall
    ++ [{ w with par0 := parEven w.octets, par1 := parOdd w.octets, poison := w.poison || decide (ecc = 2) }]
  { c with eb := l, stall := st, stlPeak := max c.stlPeak st.length, pushed := some t }

theorem Chip.stallPush_eq {d : Chip} {e : Nat} {w : SWord} {l : List SWord} (ecc : Nat) (hw : (d.cap e).eb = w :: l)
    (hs : (d.cap e).stall.length < 512) :
    d.stallPush e ecc =
      let d1 := d.setCap e ((d.cap e).push w l ecc d.core)
      if ecc = 1 then d1.count (R.ENG_EB_CE_CNT e) (b2n (decide (ecc = 1))) else d1 := by
  have hn : ¬ stallDepth ≤ (d.cap e).stall.length := Nat.not_le.mpr hs
  simp only [Chip.stallPush, hw, if_neg hn]
  split
  · next h => simp [Cap.push, h, b2n]
  · rfl

theorem Chip.stallPush_idle {d : Chip} {e : Nat} (ecc : Nat)
    (h : (d.cap e).eb = [] ∨ 512 ≤ (d.cap e).stall.length) : d.stallPush e ecc = d := by
  unfold Chip.stallPush
  dsimp only
  split
  · rfl
  · next hw => exact if_pos (h.resolve_left (by simp [hw]))

/-! ## Pending bales (R181) -/

theorem SMap.get_eq_or_mem {α : Type} (d : α) (m : SMap α) (k : Nat) :
    SMap.get d m k = d ∨ ∃ z ∈ m, SMap.get d m k = z.2 := by
  induction m with
  | nil => exact Or.inl rfl
  | cons z m ih =>
    unfold SMap.get
    split
    · exact Or.inr ⟨z, by simp, rfl⟩
    · exact ih.imp_right fun ⟨z', hz, he⟩ => ⟨z', List.mem_cons_of_mem _ hz, he⟩

theorem Chip.rgn_not_pending {d : Chip} (h : ∀ z ∈ d.rgns, z.2.pending = false) (r : Nat) :
    (d.rgn r).pending = false := by
  unfold Chip.rgn
  obtain he | ⟨z, hz, he⟩ := SMap.get_eq_or_mem Rgn.init d.rgns r
  · rw [he]
    rfl
  · rw [he]
    exact h z hz

theorem Dev.settle_of_not_pending {s : Dev} {r : Nat} (h : (s.chip.rgn r).pending = false) : s.settle r = s := by
  have hq : (s.chip.rgn r).q.find? (fun w => !w.sent) = none := by
    simpa [Rgn.pending, List.find?_eq_none] using h
  unfold Dev.settle
  cases (s.chip.rgn r).q.length with
  | zero => rfl
  | succ n =>
    unfold Dev.tryPending
    simp only [hq]

theorem Dev.settleLive_of_not_pending {s : Dev} (h : ∀ r, (s.chip.rgn r).pending = false) : s.settleLive = s :=
  List.foldl_fixed' (fun r => by
    split
    · exact Dev.settle_of_not_pending (h _)
    · rfl) _

/-! ## Where a word goes (R157, R162) -/

/-- From `d` to `c` the regions stay, and the registers that say which region a word of engine `e` goes to and where
that region ends. -/
structure Chip.SameRoute (d c : Chip) (e : Nat) : Prop where
  rgns : c.rgns = d.rgns
  src  : ∀ r, c.rd (R.rgn_CAP_RGN_SRC r) = d.rd (R.rgn_CAP_RGN_SRC r)
  post : ∀ r, c.rd (R.rgn_CAP_RGN_POST r) = d.rd (R.rgn_CAP_RGN_POST r)
  bind : c.rd (R.SWB_RX_BIND e) = d.rd (R.SWB_RX_BIND e)

namespace Chip.SameRoute

variable {d c : Chip} {e : Nat} (h : d.SameRoute c e)

include h

theorem rgn (r : Nat) : c.rgn r = d.rgn r := by
  unfold Chip.rgn
  rw [h.rgns]

theorem armedRgn (n sub : Nat) : c.armedRgn n sub = d.armedRgn n sub := by
  simp only [Chip.armedRgn, Chip.rf, h.rgns, h.src]
  rfl

theorem shared (sub : Nat) : c.shared e sub = d.shared e sub := by
  simp only [Chip.shared, Chip.ganged, Chip.rb, h.bind]

theorem subOwner (sub : Nat) : c.subOwner e sub = d.subOwner e sub := by
  simp only [Chip.subOwner, Chip.head, Chip.ganged, Chip.rb, h.bind]
  rfl

theorem full (r : Nat) (x : Rgn) : x.full (c.rcfg r) = x.full (d.rcfg r) := by
  simp only [Rgn.full, Chip.rcfg, Chip.rf, h.post]
  rfl

end Chip.SameRoute

/-- A change of one other register of an engine's window leaves the route. -/
theorem Chip.sameRoute_of_rd {d c : Chip} {e k : Nat} (hk : 0x3E0 % 2 ^ 12 ≠ k % 2 ^ 12) (hr : c.rgns = d.rgns)
    (h : ∀ q : RegId, q.key ≠ (RegId.mk .eng e k).key → c.rd q = d.rd q) : d.SameRoute c e :=
  ⟨hr, fun _ => h _ (RegId.key_ne_of_blk (show Blk.rgn ≠ Blk.eng by decide)),
    fun _ => h _ (RegId.key_ne_of_blk (show Blk.rgn ≠ Blk.eng by decide)), h _ (RegId.key_ne_of_off hk)⟩

/-! ## A word is taken (R157, R160, R165) -/

theorem Chip.takeWord_eq_takeNow {d : Chip} {e : Nat} {w : SWord} (h : d.shared e w.sub = false) :
    d.takeWord e w = d.takeNow e w := by
  simp [Chip.takeWord, h]

theorem Chip.takeNow_of_unarmed {d : Chip} {e : Nat} {w : SWord} (ht : w.token = .data)
    (h : d.armedRgn (d.subOwner e w.sub) w.sub = none) : d.takeNow e w = d := by
  simp [Chip.takeNow, h, ht]

theorem Chip.takeNow_of_armed {d : Chip} {e r : Nat} {w : SWord} (ht : w.token = .data)
    (h : d.armedRgn (d.subOwner e w.sub) w.sub = some r) (hb : w.brk = false) (hr : w.resync = false) :
    d.takeNow e w = (List.zip w.octets w.tags).foldl (fun (y : Chip) p => y.packOct r w p.1 p.2) d := by
  simp [Chip.takeNow, h, ht, hb, hr]

/-- The open bale `b` of region `r` takes a word's octets as they come: the region is not full, no firing waits for an
octet, and the bale has the word's TENTATIVE and SPLIT. -/
structure Chip.Packs (d : Chip) (r : Nat) (w : SWord) (b : OpenBale) : Prop where
  notFull : (d.rgn r).full (d.rcfg r) = false
  isOpen  : (d.rgn r).open_ = some b
  trigs   : (d.rgn r).trigs = []
  tent    : decide (b.flags &&& fTent ≠ 0) = w.tent
  split   : decide (b.flags &&& fSplit ≠ 0) = w.split

/-- The open bale with one octet more. -/
def OpenBale.add (b : OpenBale) (o : Byte) (g : OTag) : OpenBale :=
  { b with octets := b.octets ++ [o], tags := b.tags ++ [g] }

theorem Chip.packOct_of_packs {d : Chip} {r : Nat} {w : SWord} {b : OpenBale} (h : d.Packs r w b) (o : Byte)
    (g : Nat × Nat) (hg : (d.rgn r).armT ≤ g.1) (hl : b.octets.length + 1 < 480) :
    d.packOct r w o g = d.setRgn r { d.rgn r with open_ := some (b.add o ⟨g.1, g.2, w.poison⟩) } := by
  obtain ⟨hfull, hopen, htrigs, htent, hsplit⟩ := h
  have hne : b.octets.length + 1 ≠ 480 := by omega
  have ht : ((b.flags &&& fTent ≠ 0) ≠ (w.tent = true)) = False := by simp [← htent]
  have hs : ((b.flags &&& fSplit ≠ 0) ≠ (w.split = true)) = False := by simp [← hsplit]
  simp [Chip.packOct, hfull, hopen, htrigs, Nat.not_lt.mpr hg, ht, hs, Chip.putOct, Rgn.used, OpenBale.add, hne]

theorem Chip.Packs.step {d : Chip} {r : Nat} {w : SWord} {b : OpenBale} (h : d.Packs r w b) (o : Byte) (g : OTag) :
    (d.setRgn r { d.rgn r with open_ := some (b.add o g) }).Packs r w (b.add o g) := by
  obtain ⟨hfull, hopen, htrigs, htent, hsplit⟩ := h
  exact ⟨by rw [Chip.rgn_setRgn_same]; exact hfull, by simp, by simpa using htrigs, htent, hsplit⟩

/-- What packing octets into the open bale of region `r` leaves alone, from `d` to `c`. -/
structure Chip.PackFrame (d c : Chip) (r : Nat) : Prop where
  caps  : c.caps = d.caps
  regs  : c.regs = d.regs
  queue : (c.rgn r).q = (d.rgn r).q
  other : ∀ m, m ≠ r → c.rgn m = d.rgn m

theorem Chip.foldl_packOct {r : Nat} {w : SWord} (ps : List (Byte × Nat × Nat)) :
    ∀ {d : Chip} {b : OpenBale}, d.Packs r w b → (∀ p ∈ ps, (d.rgn r).armT ≤ p.2.1) →
      b.octets.length + ps.length < 480 →
      let y := ps.foldl (fun (y : Chip) p => y.packOct r w p.1 p.2) d
      (y.rgn r).open_ = some { b with octets := b.octets ++ ps.map (·.1),
                                      tags := b.tags ++ ps.map (fun p => ⟨p.2.1, p.2.2, w.poison⟩) }
        ∧ d.PackFrame y r := by
  induction ps with
  | nil => exact fun h _ _ => ⟨by simpa using h.isOpen, rfl, rfl, rfl, fun _ _ => rfl⟩
  | cons p ps ih =>
    intro d b h ha hl
    rw [List.length_cons] at hl
    rw [List.foldl_cons, Chip.packOct_of_packs h _ _ (ha p (by simp)) (by omega)]
    obtain ⟨hopen, hcaps, hregs, hq, hother⟩ := ih (h.step p.1 ⟨p.2.1, p.2.2, w.poison⟩)
      (fun p' hp => by simpa using ha p' (by simp [hp])) (by simp [OpenBale.add]; omega)
    refine ⟨by simpa [OpenBale.add] using hopen, hcaps, hregs, by simpa using hq, fun m hm => ?_⟩
    rw [hother m hm, Chip.rgn_setRgn_other _ _ hm]

/-- A word whose sub-channel has an armed region with an open bale that packs it leaves its octets there, tagged. -/
theorem Chip.takeNow_of_packs {d : Chip} {e r : Nat} {w : SWord} {b : OpenBale} (ht : w.token = .data)
    (h : d.armedRgn (d.subOwner e w.sub) w.sub = some r) (hb : w.brk = false) (hr : w.resync = false)
    (hp : d.Packs r w b) (ha : ∀ g ∈ w.tags, (d.rgn r).armT ≤ g.1) (ho : w.tags.length = w.octets.length)
    (hl : b.octets.length + w.octets.length < 480) :
    ((d.takeNow e w).rgn r).open_ = some { b with octets := b.octets ++ w.octets,
                                                   tags := b.tags ++ w.tags.map (fun g => ⟨g.1, g.2, w.poison⟩) }
      ∧ d.PackFrame (d.takeNow e w) r := by
  have hf := Chip.foldl_packOct (List.zip w.octets w.tags) hp (fun p hz => ha p.2 (List.of_mem_zip hz).2)
    (by simpa [ho] using hl)
  rw [Chip.takeNow_of_armed ht h hb hr]
  have h1 : (List.zip w.octets w.tags).map (·.1) = w.octets := List.map_fst_zip ho.ge
  have h2 : (List.zip w.octets w.tags).map (fun p => (⟨p.2.1, p.2.2, w.poison⟩ : OTag))
      = w.tags.map (fun g => ⟨g.1, g.2, w.poison⟩) := by
    rw [← List.map_snd_zip ho.le, List.map_map, List.map_snd_zip ho.le]
    rfl
  rw [h1, h2] at hf
  exact hf

/-! ## A pop (R157, R160) -/

/-- The octets of a word as a pop reads them. -/
def SWord.read (w : SWord) (flips : List Byte) : List Byte :=
  w.octets.zipWith (· ^^^ ·) (padTo w.octets.length 0 flips)

/-- A word as a pop reads it fails its parity check. -/
def SWord.misread (w : SWord) (flips : List Byte) : Bool :=
  parEven (w.read flips) != w.par0 || parOdd (w.read flips) != w.par1

/-- A word as a pop hands it on. -/
def SWord.asRead (w : SWord) (flips : List Byte) : SWord :=
  { w with octets := w.read flips, poison := w.poison || w.misread flips }

/-- The empty word that one with an uncorrectable sideband leaves. -/
def SWord.voided (w : SWord) : SWord :=
  { w with octets := [], tags := [], token := .data, brk := false, resync := false }

theorem SWord.length_read (w : SWord) (flips : List Byte) : (w.read flips).length = w.octets.length := by
  simp [SWord.read, padTo]
  omega

/-- The oldest word of a Stall is popped, `rest` stays, and `n` errors of its read are counted where `c` says so. -/
def Chip.afterPop (d : Chip) (e : Nat) (rest : List SWord) (c : Prop) [Decidable c] (n : Nat) : Chip :=
  let d1 := (d.setCap e { d.cap e with stall := rest }).popNoted e
  if c then d1.count (R.STL_PARITY_CNT e) n else d1

section AfterPop

variable (d : Chip) (e : Nat) (rest : List SWord) (c : Prop) [Decidable c] (n : Nat)

theorem Chip.afterPop_rgns : (d.afterPop e rest c n).rgns = d.rgns := by
  unfold Chip.afterPop
  split
  · rfl
  · rfl

theorem Chip.cap_afterPop : (d.afterPop e rest c n).cap e = { d.cap e with stall := rest } := by
  unfold Chip.cap
  rw [Chip.afterPop, Chip.ite_count_caps]
  exact Chip.cap_setCap_same d e _

theorem Chip.rd_afterPop_other {q : RegId} (h : q.key ≠ (R.STL_PARITY_CNT e).key) :
    (d.afterPop e rest c n).rd q = d.rd q :=
  Chip.rd_ite_count_other ((d.setCap e { d.cap e with stall := rest }).popNoted e) c n h

theorem Chip.rd_afterPop_same (hn : ¬ c → n = 0) :
    ((d.afterPop e rest c n).rd (R.STL_PARITY_CNT e)).toNat
      = min ((d.rd (R.STL_PARITY_CNT e)).toNat + n) 0xFFFFFFFF :=
  Chip.rd_ite_count (d := (d.setCap e { d.cap e with stall := rest }).popNoted e) _ _ hn

theorem Chip.afterPop_sameRoute : d.SameRoute (d.afterPop e rest c n) e :=
  Chip.sameRoute_of_rd (k := 0x088) (by decide) (Chip.afterPop_rgns d e rest c n)
    fun _ => Chip.rd_afterPop_other d e rest c n

end AfterPop

theorem Chip.stallPop_eq {d : Chip} {e : Nat} {w : SWord} {l : List SWord} (flips : List Byte) (side : Nat)
    (hw : (d.cap e).stall = w :: l) (hn : d.nextPop (e / 8) = some e) (ht : w.token = .data) :
    d.stallPop e flips side =
      let bad := w.misread flips
      let y := d.afterPop e l (bad = true ∨ side = 1) (b2n bad + b2n (decide (side = 1)))
      if side = 2 then (y.tagError e).takeWord e w.voided else y.takeWord e (w.asRead flips) := by
  simp [Chip.stallPop, hw, hn, ht, Chip.afterPop, SWord.asRead, SWord.voided, SWord.misread, SWord.read]

theorem Chip.stallPop_idle {d : Chip} {e : Nat} (flips : List Byte) (side : Nat)
    (h : (d.cap e).stall = [] ∨ d.nextPop (e / 8) ≠ some e) : d.stallPop e flips side = d := by
  unfold Chip.stallPop
  dsimp only
  split
  · rfl
  · next hw => exact if_pos (h.resolve_left (by simp [hw]))

/-! ## An uncorrectable sideband where no region is armed (R157) -/

/-- The chip with another log. -/
def Chip.withLog (d : Chip) (l : EvLog) : Chip := { d with log := l }

theorem Chip.SameRoute.withLog {d c : Chip} {e : Nat} (h : d.SameRoute c e) (l : EvLog) : d.SameRoute (c.withLog l) e :=
  ⟨h.rgns, h.src, h.post, h.bind⟩

theorem tapEvent_of_unarmed {d : Chip} {k : Nat} (h : d.armedRgn k 2 = none) (t : Nat) (v : Event) :
    tapEvent t v d k = d := by
  simp only [tapEvent, h]

theorem Chip.evtAt_of_unarmed {d : Chip} (h : ∀ n sub, d.armedRgn n sub = none) (t src code ctx det ext : Nat) :
    ∃ l, d.evtAt t src code ctx det ext = d.withLog l := by
  refine ⟨_, (Chip.evtAt_eq d t src code ctx det ext).trans (List.foldl_fixed' (fun k => ?_) _)⟩
  have hk : (d.withLog ⟨d.log.next + 1,
      ((⟨d.log.next % 2 ^ 32, src, t, code, ctx, det, ext⟩ : Event) :: d.log.entries).take 65536⟩).armedRgn k 2 = none :=
    h k 2
  exact tapEvent_of_unarmed hk t _

theorem Chip.flag_sameRoute (d : Chip) (e i : Nat) : d.SameRoute (d.flag (R.CAP_EVENT e) i) e :=
  Chip.sameRoute_of_rd (k := 0x098) (by decide) (Chip.flag_rgns d _ i) fun _ => Chip.rd_flag_other d i

theorem Chip.tagError_of_unarmed {d : Chip} (e : Nat) (h : ∀ n sub, d.armedRgn n sub = none) :
    ∃ l, d.tagError e = (d.flag (R.CAP_EVENT e) 2).withLog l := by
  have hf : ∀ n sub, (d.flag (R.CAP_EVENT e) 2).armedRgn n sub = none := fun n sub =>
    ((Chip.flag_sameRoute d e 2).armedRgn n sub).trans (h n sub)
  obtain ⟨l, hl⟩ := Chip.evtAt_of_unarmed hf (d.flag (R.CAP_EVENT e) 2).dt e 0x0602 0xFFFF 0 0
  have he : ∀ n sub, ((d.flag (R.CAP_EVENT e) 2).ev e 0x0602 0).armedRgn n sub = none := fun n sub => by
    unfold Chip.ev Chip.evt
    rw [hl]
    exact hf n sub
  refine ⟨l, Eq.trans ?_ hl⟩
  unfold Chip.tagError
  dsimp only
  rw [List.foldl_fixed' (fun s => by simp [he])]
  simp only [he]
  rfl

/-! ## What a pop leaves (R157, R160) -/

/-- What every pop of a data word leaves: the word is gone from the Stall, and the errors of its read are counted. -/
structure Chip.Popped (d c : Chip) (e : Nat) (l : List SWord) (n : Nat) : Prop where
  stall : (c.cap e).stall = l
  count : (c.rd (R.STL_PARITY_CNT e)).toNat = min ((d.rd (R.STL_PARITY_CNT e)).toNat + n) 0xFFFFFFFF

section Pop

variable {d : Chip} {e : Nat} {w : SWord} {l : List SWord} (hw : (d.cap e).stall = w :: l)
  (hn : d.nextPop (e / 8) = some e) (ht : w.token = .data) (hs : d.shared e w.sub = false)

theorem Chip.afterPop_popped (d : Chip) (e : Nat) (l : List SWord) (bad : Bool) (side : Nat) :
    d.Popped (d.afterPop e l (bad = true ∨ side = 1) (b2n bad + b2n (decide (side = 1)))) e l
      (b2n bad + b2n (decide (side = 1))) := by
  refine ⟨by rw [Chip.cap_afterPop], Chip.rd_afterPop_same d e l _ _ fun h => ?_⟩
  obtain ⟨hb, h1⟩ := not_or.mp h
  simp [hb, h1, b2n]

include hw hn ht hs

/-- A word whose sub-channel has no armed region is popped and its octets are discarded. -/
theorem Chip.stallPop_of_unarmed (flips : List Byte) {side : Nat} (h2 : side < 2)
    (hr : d.armedRgn (d.subOwner e w.sub) w.sub = none) :
    d.Popped (d.stallPop e flips side) e l (b2n (w.misread flips) + b2n (decide (side = 1)))
      ∧ (d.stallPop e flips side).rgns = d.rgns := by
  have hroute := Chip.afterPop_sameRoute d e l (w.misread flips = true ∨ side = 1)
    (b2n (w.misread flips) + b2n (decide (side = 1)))
  rw [Chip.stallPop_eq flips side hw hn ht]
  dsimp only
  rw [if_neg (show side ≠ 2 by omega), Chip.takeWord_eq_takeNow (w := w.asRead flips) ((hroute.shared _).trans hs),
    Chip.takeNow_of_unarmed (w := w.asRead flips) ht ((hroute.armedRgn _ _).trans (by rw [hroute.subOwner]; exact hr))]
  exact ⟨Chip.afterPop_popped d e l _ side, hroute.rgns⟩

/-- A word with an uncorrectable sideband is popped and discarded where no region is armed, and sets its flag. -/
theorem Chip.stallPop_uncorrectable (flips : List Byte) (hr : ∀ n sub, d.armedRgn n sub = none) :
    d.Popped (d.stallPop e flips 2) e l (b2n (w.misread flips) + b2n (decide (2 = 1)))
      ∧ (d.stallPop e flips 2).rgns = d.rgns ∧ (d.stallPop e flips 2).rb (R.CAP_EVENT e) 2 = true := by
  have hpop := Chip.afterPop_popped d e l (w.misread flips) 2
  have hroute := Chip.afterPop_sameRoute d e l (w.misread flips = true ∨ 2 = 1)
    (b2n (w.misread flips) + b2n (decide (2 = 1)))
  rw [Chip.stallPop_eq flips 2 hw hn ht]
  dsimp only
  generalize d.afterPop e l (w.misread flips = true ∨ 2 = 1) (b2n (w.misread flips) + b2n (decide (2 = 1))) = y at *
  obtain ⟨g, hg⟩ := Chip.tagError_of_unarmed e fun n sub => (hroute.armedRgn n sub).trans (hr n sub)
  have hflag := (Chip.flag_sameRoute y e 2).withLog g
  rw [if_pos rfl, hg,
    Chip.takeWord_eq_takeNow (w := w.voided) ((hflag.shared _).trans ((hroute.shared _).trans hs)),
    Chip.takeNow_of_unarmed (w := w.voided) rfl
      ((hflag.armedRgn _ _).trans ((hroute.armedRgn _ _).trans (hr _ _)))]
  have hk : (R.STL_PARITY_CNT e).key ≠ (R.CAP_EVENT e).key :=
    RegId.key_ne_of_off (show 0x088 % 2 ^ 12 ≠ 0x098 % 2 ^ 12 by decide)
  refine ⟨⟨hpop.stall, ?_⟩, hroute.rgns, Chip.rb_flag_same y _ 2 (by decide)⟩
  exact (congrArg BitVec.toNat (Chip.rd_flag_other y 2 hk)).trans hpop.count

/-- A word whose sub-channel has an armed region goes into its open bale with the octets as read. -/
theorem Chip.stallPop_of_packs (flips : List Byte) {side r : Nat} {b : OpenBale} (h2 : side < 2)
    (hr : d.armedRgn (d.subOwner e w.sub) w.sub = some r) (hb : w.brk = false) (hrs : w.resync = false)
    (hp : d.Packs r w b) (ha : ∀ g ∈ w.tags, (d.rgn r).armT ≤ g.1) (ho : w.tags.length = w.octets.length)
    (hl : b.octets.length + w.octets.length < 480) :
    let y := d.stallPop e flips side
    d.Popped y e l (b2n (w.misread flips) + b2n (decide (side = 1)))
      ∧ (y.rgn r).open_ = some { b with
          octets := b.octets ++ w.read flips
          tags := b.tags ++ w.tags.map (fun g => ⟨g.1, g.2, w.poison || w.misread flips⟩) }
      ∧ (y.rgn r).q = (d.rgn r).q ∧ ∀ m, m ≠ r → y.rgn m = d.rgn m := by
  have hpop := Chip.afterPop_popped d e l (w.misread flips) side
  have hroute := Chip.afterPop_sameRoute d e l (w.misread flips = true ∨ side = 1)
    (b2n (w.misread flips) + b2n (decide (side = 1)))
  rw [Chip.stallPop_eq flips side hw hn ht]
  dsimp only
  generalize d.afterPop e l (w.misread flips = true ∨ side = 1)
    (b2n (w.misread flips) + b2n (decide (side = 1))) = y at *
  rw [if_neg (show side ≠ 2 by omega), Chip.takeWord_eq_takeNow (w := w.asRead flips) ((hroute.shared _).trans hs)]
  obtain ⟨hfull, hopen, htrigs, htent, hsplit⟩ := hp
  have hpy : y.Packs r (w.asRead flips) b :=
    ⟨by rw [hroute.rgn, hroute.full]; exact hfull, by rw [hroute.rgn]; exact hopen,
      by rw [hroute.rgn]; exact htrigs, htent, hsplit⟩
  obtain ⟨hbale, hcaps, hregs, hq, hother⟩ := Chip.takeNow_of_packs (w := w.asRead flips) ht
    ((hroute.armedRgn _ _).trans (by rw [hroute.subOwner]; exact hr)) hb hrs hpy (by rw [hroute.rgn]; exact ha)
    (ho.trans (w.length_read flips).symm) (by simpa [SWord.asRead, SWord.length_read] using hl)
  refine ⟨⟨?_, ?_⟩, hbale, by rw [hq, hroute.rgn], fun m hm => by rw [hother m hm, hroute.rgn]⟩
  · rw [← hpop.stall]
    unfold Chip.cap
    rw [hcaps]
  · rw [← hpop.count, Chip.rd_congr hregs]

end Pop

/-! ## The end of a loss episode (R159) -/

theorem Chip.ebPut_of_unshared {d : Chip} {e : Nat} {w : SWord} (h : d.shared e w.sub = false) :
    d.ebPut e false w = d.setCap e ((d.cap e).withEb ((d.cap e).eb ++ [w])) := by
  simp [Chip.ebPut, h]

/-- What the gap tokens of an episode leave alone in the buffers, from `d` to `c`. -/
structure Chip.TokenFrame (d c : Chip) (e : Nat) : Prop where
  losing : (c.cap e).losing = (d.cap e).losing
  losses : (c.cap e).losses = (d.cap e).losses
  other  : ∀ m, m ≠ e → c.cap m = d.cap m

theorem Chip.foldl_ebPut_token (e : Nat) (ks : List Loss) :
    ∀ {d : Chip}, (∀ k ∈ ks, d.shared e k.sub = false) →
      let y := ks.foldl (fun (x : Chip) k => x.ebPut e false (k.token 1)) d
      (y.cap e).eb = (d.cap e).eb ++ ks.map (fun k => k.token 1) ∧ d.TokenFrame y e := by
  induction ks with
  | nil => exact fun _ => ⟨by simp, rfl, rfl, fun _ _ => rfl⟩
  | cons k ks ih =>
    intro d h
    rw [List.foldl_cons, Chip.ebPut_of_unshared (w := k.token 1) (h k (by simp))]
    obtain ⟨heb, hlosing, hlosses, hother⟩ :=
      ih (d := d.setCap e ((d.cap e).withEb ((d.cap e).eb ++ [k.token 1]))) fun k' hk => h k' (by simp [hk])
    refine ⟨by simpa [Cap.withEb] using heb, by simpa [Cap.withEb] using hlosing, by simpa [Cap.withEb] using hlosses,
      fun m hm => ?_⟩
    rw [hother m hm, Chip.cap_setCap_other _ _ hm]

theorem Chip.lossEnd_eq {d : Chip} {e : Nat} (hl : (d.cap e).losing = true) (hf : (d.cap e).fill + 4096 ≤ ebBytes) :
    d.lossEnd e = (d.cap e).losses.foldl (fun (x : Chip) k => x.ebPut e false (k.token 1))
      (d.setCap e { d.cap e with losing := false, losses := [] }) :=
  if_pos ⟨hl, hf⟩

theorem Chip.lossEnd_idle {d : Chip} {e : Nat} (h : (d.cap e).losing = false ∨ ebBytes < (d.cap e).fill + 4096) :
    d.lossEnd e = d :=
  if_neg fun ⟨hl, hf⟩ => h.elim (fun h => by simp [h] at hl) (Nat.not_lt.mpr hf)

/-- The end of a loss episode leaves what no change of a capture buffer changes. -/
theorem Chip.lossEnd_keeps {γ : Type} (f : Chip → γ) (hc : ∀ (d : Chip) (k : Nat) (c : Cap), f (d.setCap k c) = f d)
    (d : Chip) (e : Nat) : f (d.lossEnd e) = f d := by
  unfold Chip.lossEnd
  dsimp only
  split
  · rw [foldl_keeps f _ (fun x k => Chip.ebPut_keeps f hc x e false _), hc]
  · rfl

/-! ## The commands -/

theorem exec_stallPop (e : Nat) (flips : List Byte) (side : Nat) (s : State) :
    exec (.stallPop e flips side) s
      = command (engineOk e && decide (side < 3)) false
          (fun x => (x.on (fun d => d.stallPop e flips side)).settleLive) s := rfl

theorem exec_stallPush (e ecc : Nat) (s : State) :
    exec (.stallPush ⟨e, ecc⟩) s
      = command (engineOk e && decide (ecc < 3)) false (fun x => x.on (fun d => d.stallPush e ecc)) s := rfl

theorem exec_lossEpisodeEnd (e : Nat) (s : State) :
    exec (.lossEpisodeEnd e) s = command (engineOk e) false (fun x => x.on (fun d => d.lossEnd e)) s := rfl

section Commands

variable (q : List Instr) {x : Dev} {e : Nat} (he : e < 136) (hx : x.live)

include he hx

theorem does_stallPush {ecc : Nat} (hecc : ecc < 3) {w : SWord} {l : List SWord} (hw : (x.chip.cap e).eb = w :: l)
    (hs : (x.chip.cap e).stall.length < 512) :
    Does (.stallPush ⟨e, ecc⟩) ⟨q, x⟩ (fun y => y.chip.cap e = (x.chip.cap e).push w l ecc x.chip.core
        ∧ (y.chip.rd (R.ENG_EB_CE_CNT e)).toNat
            = min ((x.chip.rd (R.ENG_EB_CE_CNT e)).toNat + b2n (decide (ecc = 1))) 0xFFFFFFFF
        ∧ (∀ m, m ≠ e → y.chip.cap m = x.chip.cap m) ∧ x.only y (fun c => { c with caps := y.chip.caps })
        ∧ x.regsBut y [R.ENG_EB_CE_CNT e]) := by
  refine does_of_command (exec_stallPush e ecc _) (by simp [engineOk, he, hecc]) hx ?_
  have hp := Chip.stallPush_eq (d := x.cleared.chip) ecc hw hs
  dsimp only at hp
  have hb : (x.cleared.chip.stallPush e ecc).besides x.chip = x.chip := by
    rw [hp, Chip.ite_count_besides]
    rfl
  have hcaps : (x.cleared.chip.stallPush e ecc).caps
      = (x.chip.setCap e ((x.chip.cap e).push w l ecc x.chip.core)).caps := by
    rw [hp, Chip.ite_count_caps]
    rfl
  refine ⟨?_, ?_, fun m hm => ?_, Dev.only_caps_of_besides hb fun _ => rfl, fun r hr _ => ?_⟩
  · exact (congrArg (fun c => SMap.get Cap.init c e) hcaps).trans (Chip.cap_setCap_same x.chip e _)
  · rw [Dev.on_chip, hp]
    exact Chip.rd_ite_count _ _ fun h => by simp [h, b2n]
  · exact (congrArg (fun c => SMap.get Cap.init c m) hcaps).trans (Chip.cap_setCap_other x.chip _ hm)
  · rw [Dev.on_chip, hp]
    exact Chip.rd_ite_count_other _ _ _ (hr _ (by simp))

theorem does_stallPush_idle {ecc : Nat} (hecc : ecc < 3)
    (h : (x.chip.cap e).eb = [] ∨ 512 ≤ (x.chip.cap e).stall.length) : Does (.stallPush ⟨e, ecc⟩) ⟨q, x⟩ x.idle :=
  does_same (exec_stallPush e ecc _) (by simp [engineOk, he, hecc]) hx
    (congrArg (Dev.mk · x.mem) (Chip.stallPush_idle (d := x.cleared.chip) ecc h))

/-- A pop after which no bale is pending is all that the command does. -/
theorem does_stallPop {flips : List Byte} {side : Nat} (hside : side < 3) {P : Dev → Prop}
    (hq : ∀ r, ((x.cleared.chip.stallPop e flips side).rgn r).pending = false)
    (hp : P (x.cleared.on (fun d => d.stallPop e flips side))) : Does (.stallPop e flips side) ⟨q, x⟩ P := by
  refine does_of_command (exec_stallPop e flips side _) (by simp [engineOk, he, hside]) hx ?_
  dsimp only
  rwa [Dev.settleLive_of_not_pending hq]

theorem does_lossEnd (hl : (x.chip.cap e).losing = true) (hf : (x.chip.cap e).fill + 4096 ≤ ebBytes)
    (hs : ∀ k ∈ (x.chip.cap e).losses, x.chip.shared e k.sub = false) :
    Does (.lossEpisodeEnd e) ⟨q, x⟩ (fun y => (y.chip.cap e).losing = false ∧ (y.chip.cap e).losses = []
      ∧ (y.chip.cap e).eb = (x.chip.cap e).eb ++ (x.chip.cap e).losses.map (fun k => k.token 1)
      ∧ (∀ m, m ≠ e → y.chip.cap m = x.chip.cap m) ∧ x.only y (fun c => { c with caps := y.chip.caps })
      ∧ x.regsBut y []) := by
  refine does_of_command (exec_lossEpisodeEnd e _) (by simp [engineOk, he]) hx ?_
  have hb : (x.cleared.chip.lossEnd e).besides x.chip = x.chip :=
    Chip.lossEnd_keeps (fun d => d.besides x.chip) (fun _ _ _ => rfl) x.cleared.chip e
  obtain ⟨heb, hlosing, hlosses, hother⟩ := Chip.foldl_ebPut_token e (x.chip.cap e).losses
    (d := x.cleared.chip.setCap e { x.chip.cap e with losing := false, losses := [] }) hs
  rw [Chip.cap_setCap_same] at heb hlosing hlosses
  have hend := Chip.lossEnd_eq (d := x.cleared.chip) hl hf
  refine ⟨?_, ?_, ?_, fun m hm => ?_, Dev.only_caps_of_besides hb fun _ => rfl, fun r _ _ => ?_⟩
  · rw [Dev.on_chip, hend]
    exact hlosing
  · rw [Dev.on_chip, hend]
    exact hlosses
  · rw [Dev.on_chip, hend]
    exact heb
  · rw [Dev.on_chip, hend]
    exact (hother m hm).trans (Chip.cap_setCap_other x.cleared.chip _ hm)
  · exact Chip.lossEnd_keeps (fun d => d.rd r) (fun d k c => Chip.rd_congr (Chip.setCap_regs d k c) r) x.cleared.chip e

theorem does_lossEnd_idle (h : (x.chip.cap e).losing = false ∨ ebBytes < (x.chip.cap e).fill + 4096) :
    Does (.lossEpisodeEnd e) ⟨q, x⟩ x.idle :=
  does_same (exec_lossEpisodeEnd e _) (by simp [engineOk, he]) hx
    (congrArg (Dev.mk · x.mem) (Chip.lossEnd_idle (d := x.cleared.chip) h))

section Pops

/-- What every pop of a data word leaves of the device: the word is gone from the Stall, the errors of its read are
counted, and memory stays. -/
def Dev.Popped (x y : Dev) (e : Nat) (w : SWord) (l : List SWord) (flips : List Byte) (side : Nat) : Prop :=
  (y.chip.cap e).stall = l ∧ x.sameMem y
    ∧ (y.chip.rd (R.STL_PARITY_CNT e)).toNat
        = min ((x.chip.rd (R.STL_PARITY_CNT e)).toNat + b2n (w.misread flips) + b2n (decide (side = 1))) 0xFFFFFFFF

omit he hx in
theorem Dev.popped_of_chip {c : Chip} {w : SWord} {l : List SWord} {flips : List Byte} {side : Nat}
    (h : x.cleared.chip.Popped c e l (b2n (w.misread flips) + b2n (decide (side = 1)))) :
    x.Popped ⟨c, x.mem⟩ e w l flips side :=
  ⟨h.stall, fun _ => rfl, by rw [Nat.add_assoc]; exact h.count⟩

variable (hq : ∀ z ∈ x.chip.rgns, z.2.pending = false)

include hq

theorem does_stallPop_idle {flips : List Byte} {side : Nat} (hside : side < 3)
    (h : (x.chip.cap e).stall = [] ∨ x.chip.nextPop (e / 8) ≠ some e) :
    Does (.stallPop e flips side) ⟨q, x⟩ x.idle := by
  have hp := Chip.stallPop_idle (d := x.cleared.chip) flips side h
  refine does_stallPop q he hx hside (fun r => ?_) (congrArg (Dev.mk · x.mem) hp)
  rw [hp]
  exact Chip.rgn_not_pending hq r

variable {w : SWord} {l : List SWord} {flips : List Byte} {side : Nat} (hw : (x.chip.cap e).stall = w :: l)
  (hn : x.chip.nextPop (e / 8) = some e) (ht : w.token = .data) (hs : x.chip.shared e w.sub = false)

include hw hn ht hs

theorem does_stallPop_of_unarmed (h2 : side < 2) (hr : x.chip.armedRgn (x.chip.subOwner e w.sub) w.sub = none) :
    Does (.stallPop e flips side) ⟨q, x⟩ (fun y =>
      x.Popped y e w l flips side ∧ y.chip.rgns = x.chip.rgns) := by
  obtain ⟨hpop, hrgns⟩ := Chip.stallPop_of_unarmed (d := x.cleared.chip) hw hn ht hs flips h2 hr
  exact does_stallPop q he hx (by omega) (Chip.rgn_not_pending (by rw [hrgns]; exact hq))
    ⟨Dev.popped_of_chip hpop, hrgns⟩

theorem does_stallPop_uncorrectable (hr : ∀ n sub, x.chip.armedRgn n sub = none) :
    Does (.stallPop e flips 2) ⟨q, x⟩ (fun y =>
      x.Popped y e w l flips 2 ∧ y.chip.rgns = x.chip.rgns ∧ y.chip.rb (R.CAP_EVENT e) 2 = true) := by
  obtain ⟨hpop, hrgns, hflag⟩ := Chip.stallPop_uncorrectable (d := x.cleared.chip) hw hn ht hs flips hr
  exact does_stallPop q he hx (by omega) (Chip.rgn_not_pending (by rw [hrgns]; exact hq))
    ⟨Dev.popped_of_chip hpop, hrgns, hflag⟩

theorem does_stallPop_of_packs {r : Nat} {b : OpenBale} (h2 : side < 2)
    (hr : x.chip.armedRgn (x.chip.subOwner e w.sub) w.sub = some r) (hb : w.brk = false) (hrs : w.resync = false)
    (hp : x.chip.Packs r w b) (ha : ∀ g ∈ w.tags, (x.chip.rgn r).armT ≤ g.1) (ho : w.tags.length = w.octets.length)
    (hl : b.octets.length + w.octets.length < 480) :
    Does (.stallPop e flips side) ⟨q, x⟩ (fun y =>
      x.Popped y e w l flips side
        ∧ (y.chip.rgn r).open_ = some { b with
            octets := b.octets ++ w.read flips
            tags := b.tags ++ w.tags.map (fun g => ⟨g.1, g.2, w.poison || w.misread flips⟩) }) := by
  have hpc : x.cleared.chip.Packs r w b := ⟨hp.notFull, hp.isOpen, hp.trigs, hp.tent, hp.split⟩
  obtain ⟨hpop, hopen, hqueue, hother⟩ :=
    Chip.stallPop_of_packs (d := x.cleared.chip) hw hn ht hs flips h2 hr hb hrs hpc ha ho hl
  refine does_stallPop q he hx (by omega) (fun m => ?_) ⟨Dev.popped_of_chip hpop, hopen⟩
  have hm := Chip.rgn_not_pending hq m
  by_cases h : m = r
  · subst h
    rw [Rgn.pending, hqueue]
    exact hm
  · rw [hother m h]
    exact hm

end Pops

end Commands

/-- Settles O26: each command of a live device does what its chip function leaves, and no bale is pending that the
writer would try after a pop. -/
theorem stallAndLoss : Obligations.StallAndLoss := by
  intro q x e he hx
  refine ⟨fun ecc hecc => ⟨fun w l hw hs => does_stallPush q he hx hecc hw hs, does_stallPush_idle q he hx hecc⟩,
    fun hq => ⟨fun w l flips side hw hn _ ht hs => ⟨fun hr h2 => ?_, fun hr h2 => ?_, ?_⟩,
      fun flips side hside h => does_stallPop_idle q he hx hq hside h⟩,
    does_lossEnd q he hx, does_lossEnd_idle q he hx⟩
  · exact does_stallPop_of_unarmed q he hx hq hw hn ht hs h2 hr
  · subst h2
    exact does_stallPop_uncorrectable q he hx hq hw hn ht hs hr
  · intro r b hr h2 hfull hopen _ ho hl htent hsplit htrigs ha hb hrs
    exact does_stallPop_of_packs q he hx hq hw hn ht hs h2 hr hb hrs ⟨hfull, hopen, htrigs, htent, hsplit⟩ ha ho hl

end Sys2Proof.Machine
end

section
set_option Elab.async false
/-! Line lanes and loss of frame (R32-R50, R63, R417): what the commands of chapter 2 and the hunter's words and LOF
timers leave.  First the fields of a word and the lanes, then what the engines behind a lane leave alone, then one
part for each obligation. -/
namespace Sys2Proof.Machine

/-! # Words, lanes and frames -/

/-! ## Fields of a word beside the one that is set -/

theorem two_pow_field {hi lo : Nat} (hl : lo ≤ hi) : 2 ^ (hi + 1 - lo) * 2 ^ lo = 2 ^ (hi + 1) := by
  rw [← pow_add]
  congr 1
  omega

/-- The bits up to `hi` that a word has once its field [hi:lo] is set. -/
theorem setFld_low_lt (w : Word) {hi lo : Nat} (v : Nat) (hl : lo ≤ hi) :
    v % 2 ^ (hi + 1 - lo) * 2 ^ lo + w.toNat % 2 ^ lo < 2 ^ (hi + 1) := by
  have hv : v % 2 ^ (hi + 1 - lo) + 1 ≤ 2 ^ (hi + 1 - lo) := Nat.mod_lt _ (Nat.two_pow_pos _)
  have hlow : w.toNat % 2 ^ lo < 2 ^ lo := Nat.mod_lt _ (Nat.two_pow_pos _)
  calc v % 2 ^ (hi + 1 - lo) * 2 ^ lo + w.toNat % 2 ^ lo < (v % 2 ^ (hi + 1 - lo) + 1) * 2 ^ lo := by
        rw [Nat.add_mul]; omega
    _ ≤ 2 ^ (hi + 1) := two_pow_field hl ▸ Nat.mul_le_mul_right _ hv

theorem toNat_eq_fields (w : Word) {hi lo : Nat} (hl : lo ≤ hi) :
    w.toNat = w.toNat / 2 ^ (hi + 1) * 2 ^ (hi + 1) + (fld w hi lo * 2 ^ lo + w.toNat % 2 ^ lo) := by
  have hdiv : w.toNat / 2 ^ lo / 2 ^ (hi + 1 - lo) = w.toNat / 2 ^ (hi + 1) := by
    rw [Nat.div_div_eq_div_mul, Nat.mul_comm, two_pow_field hl]
  calc w.toNat = 2 ^ lo * (w.toNat / 2 ^ lo) + w.toNat % 2 ^ lo := (Nat.div_add_mod _ _).symm
    _ = 2 ^ lo * (2 ^ (hi + 1 - lo) * (w.toNat / 2 ^ (hi + 1)) + fld w hi lo) + w.toNat % 2 ^ lo := by
      rw [fld, ← hdiv, Nat.div_add_mod, Nat.div_add_mod, Nat.div_add_mod]
    _ = _ := by rw [← two_pow_field hl]; ring

theorem toNat_setFld (w : Word) {hi lo : Nat} (v : Nat) (h : hi < 32) (hl : lo ≤ hi) :
    (setFld w hi lo v).toNat
      = w.toNat / 2 ^ (hi + 1) * 2 ^ (hi + 1) + (v % 2 ^ (hi + 1 - lo) * 2 ^ lo + w.toNat % 2 ^ lo) := by
  have h32 : 2 ^ (31 - hi) * 2 ^ (hi + 1) = 2 ^ 32 := by rw [← pow_add]; congr 1; omega
  have htop : w.toNat / 2 ^ (hi + 1) < 2 ^ (31 - hi) := by
    rw [Nat.div_lt_iff_lt_mul (Nat.two_pow_pos _), h32]
    exact w.isLt
  have hnew := setFld_low_lt w v hl
  have hlt : w.toNat / 2 ^ (hi + 1) * 2 ^ (hi + 1) + (v % 2 ^ (hi + 1 - lo) * 2 ^ lo + w.toNat % 2 ^ lo) < 2 ^ 32 :=
    calc _ < (w.toNat / 2 ^ (hi + 1) + 1) * 2 ^ (hi + 1) := by rw [Nat.add_mul]; omega
      _ ≤ 2 ^ 32 := h32 ▸ Nat.mul_le_mul_right _ htop
  have hval : w.toNat - fld w hi lo * 2 ^ lo + v % 2 ^ (hi + 1 - lo) * 2 ^ lo
      = w.toNat / 2 ^ (hi + 1) * 2 ^ (hi + 1) + (v % 2 ^ (hi + 1 - lo) * 2 ^ lo + w.toNat % 2 ^ lo) := by
    have := toNat_eq_fields w hl
    omega
  rw [setFld, BitVec.toNat_ofNat, hval, Nat.mod_eq_of_lt hlt]

theorem bit_setFld_other (w : Word) {hi lo i : Nat} (v : Nat) (h : hi < 32) (hl : lo ≤ hi) (ho : i < lo ∨ hi < i) :
    bit (setFld w hi lo v) i = bit w i := by
  unfold bit
  obtain hlt | hgt := ho
  · have hlow (x : Nat) : x.testBit i = (x % 2 ^ lo).testBit i := by simp [Nat.testBit_mod_two_pow, hlt]
    rw [hlow, hlow w.toNat, toNat_setFld w v h hl, ← two_pow_field hl, ← Nat.mul_assoc, ← Nat.add_assoc, ← Nat.add_mul,
      Nat.mul_add_mod_self_right, Nat.mod_mod]
  · obtain ⟨j, rfl⟩ := Nat.exists_eq_add_of_le (Nat.succ_le_of_lt hgt)
    have hhigh (x : Nat) : x.testBit (hi + 1 + j) = (x / 2 ^ (hi + 1)).testBit j := by
      rw [Nat.testBit_div_two_pow, Nat.add_comm]
    rw [hhigh, hhigh w.toNat, toNat_setFld w v h hl, Nat.mul_comm, Nat.mul_add_div (Nat.two_pow_pos _),
      Nat.div_eq_of_lt (setFld_low_lt w v hl), Nat.add_zero]

theorem testBit_fld (w : Word) (hi lo j : Nat) :
    (fld w hi lo).testBit j = (decide (j < hi + 1 - lo) && bit w (lo + j)) := by
  rw [fld, Nat.testBit_mod_two_pow, Nat.testBit_div_two_pow, bit, Nat.add_comm j lo]

theorem fld_setFld_other (w : Word) {hi lo a b : Nat} (v : Nat) (h : hi < 32) (hl : lo ≤ hi) (ho : a < lo ∨ hi < b) :
    fld (setFld w hi lo v) a b = fld w a b := by
  refine Nat.eq_of_testBit_eq fun j => ?_
  rw [testBit_fld, testBit_fld]
  by_cases hj : j < a + 1 - b
  · rw [bit_setFld_other w v h hl (by omega)]
  · simp [hj]

theorem bit_setFld_same (w : Word) {i : Nat} (v : Nat) (h : i < 32) : bit (setFld w i i v) i = decide (v % 2 = 1) := by
  rw [bit_eq_fld, fld_setFld w i i v h (Nat.le_refl i), show i + 1 - i = 1 by omega, Nat.pow_one]

/-! ## What the engines leave alone

Words, marks and line changes run on from a lane through hunting, capture, triggers, protection and the defect
monitor.  None of it touches what a lane or its window holds.  A function `f` of the chip that the basic updates of
those units leave alone is left alone by all that is built from them; `Blind` stands for the units behind the hunter,
and `BlindToHunt` for the hunter as well, which keeps its own position. -/

/-- Neither a register of a lane window nor HNT_EVENT. -/
def RegId.quiet (r : RegId) : Bool := r.blk != .lane && (r.blk != .eng || r.off % 2 ^ 12 != 0x050)

/-- No update of the units behind the hunter changes what `f` shows. -/
structure Chip.Blind {γ : Type} (f : Chip → γ) : Prop where
  wr : ∀ (d : Chip) (r : RegId) (w : Word), r.quiet = true → f (d.wr r w) = f d
  log : ∀ (d : Chip) (l : EvLog), f { d with log := l } = f d
  lines : ∀ (d : Chip) (l : List LineFire), f { d with lines := l } = f d
  paths : ∀ (d : Chip) (l : SMap Nat), f { d with paths := l } = f d
  setCap : ∀ (d : Chip) (k : Nat) (c : Cap), f (d.setCap k c) = f d
  setRgn : ∀ (d : Chip) (k : Nat) (c : Rgn), f (d.setRgn k c) = f d
  setComb : ∀ (d : Chip) (k : Nat) (c : Comb), f (d.setComb k c) = f d
  setGroup : ∀ (d : Chip) (k : Nat) (c : Group), f (d.setGroup k c) = f d
  setCtx : ∀ (d : Chip) (k : Nat) (c : Ctx), f (d.setCtx k c) = f d
  setDefT : ∀ (d : Chip) (k : DKey) (c : DefT), f (d.setDefT k c) = f d
  setMon : ∀ (d : Chip) (k : Nat) (c : DefMon), f (d.setMon k c) = f d

/-- A run of steps that `f` does not see.  The argument `_K` lets `grind` find the lemma wherever `f` is `Blind`. -/
theorem Chip.Blind.foldl {γ β : Type} {f : Chip → γ} (_K : Chip.Blind f) {g : Chip → β → Chip}
    (h : ∀ d b, f (g d b) = f d) (l : List β) (d : Chip) : f (l.foldl g d) = f d :=
  foldl_keeps f g h l d

namespace Chip.Blind

variable {γ : Type} {f : Chip → γ} (K : Chip.Blind f)

include K

theorem sf (d : Chip) (r : RegId) (hi lo v : Nat) (h : r.quiet = true) : f (d.sf r hi lo v) = f d := K.wr d r _ h
theorem flag (d : Chip) (r : RegId) (i : Nat) (h : r.quiet = true) : f (d.flag r i) = f d := K.wr d r _ h
theorem sbit (d : Chip) (r : RegId) (i : Nat) (b : Bool) (h : r.quiet = true) : f (d.sbit r i b) = f d := K.wr d r _ h
theorem count (d : Chip) (r : RegId) (n : Nat) (h : r.quiet = true) : f (d.count r n) = f d := K.wr d r _ h

theorem setPair (d : Chip) (lo hi : RegId) (v : Nat) (hl : lo.quiet = true) (hh : hi.quiet = true) :
    f (d.setPair lo hi v) = f d :=
  (K.wr _ hi _ hh).trans (K.wr d lo _ hl)

theorem tapWord (d : Chip) (e : Nat) (w : SWord) : f (d.tapWord e w) = f d :=
  Chip.tapWord_keeps f K.setCap (fun d _ _ _ => (K.sf _ _ _ _ _ rfl).trans (K.sf d _ _ _ _ rfl)) d e w

theorem evtAt (d : Chip) (t src code ctx det ext : Nat) : f (d.evtAt t src code ctx det ext) = f d :=
  Chip.evtAt_keeps f K.tapWord K.log d t src code ctx det ext

theorem evt (d : Chip) (src code ctx det ext : Nat) : f (d.evt src code ctx det ext) = f d := K.evtAt d _ _ _ _ _ _

theorem ev (d : Chip) (src code det : Nat) : f (d.ev src code det) = f d := K.evtAt d _ _ _ _ _ _

theorem enqueue (d : Chip) (c : RCfg) (b : Bale) (marker : Bool) (last : Nat) :
    f (d.enqueue c b marker last) = f d := by
  grind [Chip.enqueue, setRgn]

theorem closeBale (d : Chip) (r : Nat) : f (d.closeBale r) = f d := by
  grind [Chip.closeBale, enqueue, setRgn]

theorem openWith (d : Chip) (r : Nat) (tent split : Bool) (l : List Byte) (tags : List OTag) :
    f (d.openWith r tent split l tags) = f d :=
  K.setRgn d r _

theorem markTrigger (d : Chip) (r k : Nat) (tent : Bool) : f (d.markTrigger r k tent) = f d := by
  grind [Chip.markTrigger, setRgn]

theorem fireRgn (d : Chip) (r t : Nat) (tent : Bool) : f (d.fireRgn r t tent) = f d := by
  grind [Chip.fireRgn, setRgn, markTrigger, closeBale, openWith, flag, RegId.quiet, R.CAP_EVENT]

theorem fireRegions (d : Chip) (global : Bool) (sel cluster t : Nat) (tent : Bool) :
    f (d.fireRegions global sel cluster t tent) = f d := by
  grind [Chip.fireRegions, foldl, fireRgn]

theorem combFire (d : Chip) (cb t : Nat) (tent : Bool) : f (d.combFire cb t tent) = f d := by
  grind [Chip.combFire, fireRegions, evt, setComb, lines]

theorem combEval (d : Chip) (cb t : Nat) (tent : Bool) : f (d.combEval cb t tent).2 = f d := by
  grind [Chip.combEval, setComb, combFire]

theorem termEvent (d : Chip) (cb i t : Nat) (tent : Bool) : f (d.termEvent cb i t tent) = f d :=
  K.setComb d cb _

theorem raiseN (cluster n : Nat) (d : Chip) (i t : Nat) (tent : Bool) : f (d.raiseN cluster n i t tent) = f d := by
  induction n generalizing d i t tent with
  | zero => rfl
  | succ n ih =>
    unfold Chip.raiseN
    exact foldl_keeps f _ (fun x k => by grind [combEval, termEvent]) _ d

theorem raise (d : Chip) (cluster i t : Nat) (tent : Bool) : f (d.raise cluster i t tent) = f d :=
  K.raiseN cluster 8 d i t tent

theorem raiseEng (d : Chip) (e s t : Nat) (tent : Bool) : f (d.raiseEng e s t tent) = f d :=
  K.raise d _ _ t tent

theorem levels (d : Chip) (cluster t : Nat) (tent : Bool) : f (d.levels cluster t tent) = f d := by
  grind [Chip.levels, foldl, combEval, raise]

theorem engLevels (d : Chip) (e t : Nat) : f (d.engLevels e t) = f d :=
  K.levels d _ t false

/-! ### Protection -/

theorem breakBale (d : Chip) (e sub : Nat) (resync : Bool) : f (d.breakBale e sub resync) = f d :=
  K.setCap d e _

theorem applySel (d : Chip) (h tgt : Nat) : f (d.applySel h tgt) = f d := by
  grind [Chip.applySel, setGroup, count, setPair, flag, sbit, ev, breakBale, raiseEng, RegId.quiet, R.APS_SW_CNT,
    R.APS_SW_TIME_LO, R.APS_SW_TIME_HI, R.APS_EVENT, R.DSK_EVENT, R.DSK_STATUS]

theorem setSel (d : Chip) (h tgt : Nat) : f (d.setSel h tgt) = f d := by
  grind [Chip.setSel, setGroup, applySel]

theorem apsPass (d : Chip) (h : Nat) : f (d.apsPass h).2.2 = f d := by
  grind [Chip.apsPass, setGroup]

theorem apsPasses (h n : Nat) (d : Chip) : f (d.apsPasses h n).2 = f d := by
  induction n generalizing d with
  | zero => rfl
  | succ n ih => grind [Chip.apsPasses, apsPass]

theorem apsEval (d : Chip) (h : Nat) : f (d.apsEval h) = f d := by
  grind [Chip.apsEval, setGroup, apsPasses, setSel]

theorem apsInputs (d : Chip) (h : Nat) : f (d.apsInputs h) = f d := by
  grind [Chip.apsInputs, setGroup, apsEval]

theorem apsEngine (d : Chip) (e : Nat) : f (d.apsEngine e) = f d := by
  grind [Chip.apsEngine, foldl, apsInputs]

/-! ### Defects -/

theorem defSummary (d : Chip) (e : Nat) : f (d.defSummary e) = f d := by
  grind [Chip.defSummary, engLevels, apsEngine, sbit, RegId.quiet, R.DEF_STATUS]

theorem pmNote (d : Chip) (e : Nat) : f (d.pmNote e) = f d :=
  K.setMon d e _

theorem defFlip (d : Chip) (k : DKey) (on : Bool) : f (d.defFlip k on) = f d := by
  grind [Chip.defFlip, setDefT, sbit, flag, evt, pmNote, defSummary, raiseEng, paths, RegId.quiet, R.DEF_STATUS,
    R.DEF_TCM, R.DEF_EVENT]

theorem defCrit (d : Chip) (k : DKey) (c : Option Bool) : f (d.defCrit k c) = f d := by
  grind [Chip.defCrit, setDefT, defFlip]

theorem ctxSync (d : Chip) (t : Nat) : f (d.ctxSync t) = f d := by
  grind [Chip.ctxSync, defCrit]

theorem parentStep (d : Chip) (t : Nat) : f (d.parentStep t) = f d := by
  grind [Chip.parentStep, setCtx, ctxSync]

theorem parents (d : Chip) (e : Nat) : f (d.parents e) = f d := by
  grind [Chip.parents, foldl, parentStep]

theorem syncLine (d : Chip) (e : Nat) : f (d.syncLine e) = f d := by
  grind [Chip.syncLine, defFlip, parents]

theorem pnSearch (d : Chip) (e w : Nat) : f (d.pnSearch e w) = f d := by
  grind [Chip.pnSearch, setMon, defCrit]

theorem tapRaw (d : Chip) (e w stamp : Nat) (poison : Bool) : f (d.tapRaw e w stamp poison) = f d := by
  grind [Chip.tapRaw, tapWord]

/-! ### Marks in the stream -/

theorem confirmIn (d : Chip) (h : Nat) (subs : List Nat) : f (d.confirmIn h subs) = f d := by
  grind [Chip.confirmIn, foldl, tapWord]

theorem confirmSubs (d : Chip) (h : Nat) : f (d.confirmSubs h) = f d :=
  K.confirmIn d h _

theorem breakLine (d : Chip) (e : Nat) (resync mark : Bool) : f (d.breakLine e resync mark) = f d := by
  grind [Chip.breakLine, foldl, breakBale]

end Chip.Blind

theorem Hunter.setStream_bits (h : Hunter) (i : Nat) (s : HStream) : (h.setStream i s).bits = h.bits := rfl
theorem Hunter.dropCand_bits (h : Hunter) (k : Nat) : (h.dropCand k).bits = h.bits := rfl
theorem Hunter.cutOut_bits (h : Hunter) : h.cutOut.bits = h.bits := rfl

/-- No update of the units behind a lane changes what `f` shows, the hunters' positions aside. -/
structure Chip.BlindToHunt {γ : Type} (f : Chip → γ) : Prop extends Chip.Blind f where
  wrEng : ∀ (d : Chip) (r : RegId) (w : Word), r.blk = .eng → f (d.wr r w) = f d
  mats : ∀ (d : Chip) (l : SMap Bool), f { d with mats := l } = f d
  setOhp : ∀ (d : Chip) (k : Nat) (c : Ohp), f (d.setOhp k c) = f d
  setTrace : ∀ (d : Chip) (k : Nat) (c : Trace), f (d.setTrace k c) = f d
  setHunter : ∀ (d : Chip) (k : Nat) (c : Hunter), c.bits = (d.hunter k).bits → f (d.setHunter k c) = f d

theorem Chip.blind_hunters : Chip.Blind Chip.hunters :=
  ⟨fun _ _ _ _ => rfl, fun _ _ => rfl, fun _ _ => rfl, fun _ _ => rfl, fun _ _ _ => rfl, fun _ _ _ => rfl,
    fun _ _ _ => rfl, fun _ _ _ => rfl, fun _ _ _ => rfl, fun _ _ _ => rfl, fun _ _ _ => rfl⟩

theorem Chip.hunter_congr {d c : Chip} (h : c.hunters = d.hunters) (e : Nat) : c.hunter e = d.hunter e := by
  unfold Chip.hunter
  rw [h]

namespace Chip.BlindToHunt

variable {γ : Type} {f : Chip → γ} (K : Chip.BlindToHunt f)

include K

theorem flag (d : Chip) (r : RegId) (i : Nat) (h : r.blk = .eng) : f (d.flag r i) = f d := K.wrEng d r _ h
theorem sf (d : Chip) (r : RegId) (hi lo v : Nat) (h : r.blk = .eng) : f (d.sf r hi lo v) = f d := K.wrEng d r _ h
theorem count (d : Chip) (r : RegId) (n : Nat) (h : r.blk = .eng) : f (d.count r n) = f d := K.wrEng d r _ h

theorem setStream (d : Chip) (e i : Nat) (s : HStream) : f (d.setStream e i s) = f d := K.setHunter d e _ rfl

/-! ### Leads and declarations -/

theorem cutBips (d : Chip) (e : Nat) : f (d.cutBips e) = f d := by
  have B := K.toBlind
  grind [Chip.cutBips, setOhp, Blind.foldl, Blind.setCtx]

theorem tentOff (d : Chip) (h : Nat) : f (d.tentOff h) = f d := by
  have B := K.toBlind
  grind [Chip.tentOff, mats, Blind.engLevels]

theorem retract (d : Chip) (e reason : Nat) : f (d.retract e reason) = f d := by
  have B := K.toBlind
  grind [Chip.retract, Blind.foldl, Blind.tapWord, tentOff]

theorem workStart (d : Chip) (e : Nat) : f (d.workStart e) = f d := by
  have B := K.toBlind
  grind [Chip.workStart, Blind.foldl, Blind.setCtx]

theorem workDone (d : Chip) (e : Nat) : f (d.workDone e) = f d := by
  have B := K.toBlind
  grind [Chip.workDone, setOhp, setTrace, Blind.foldl, Blind.setCtx, Blind.ctxSync]

theorem defThaw (d : Chip) (e : Nat) : f (d.defThaw e) = f d := by
  have B := K.toBlind
  grind [Chip.defThaw, Blind.foldl, Blind.setMon, Blind.setDefT]

theorem confirmEnded (d : Chip) (h : Nat) : f (d.confirmEnded h) = f d :=
  K.confirmIn d h _

theorem confirmEarly (d : Chip) (e : Nat) : f (d.confirmEarly e) = f d := by
  have B := K.toBlind
  grind [Chip.confirmEarly, Blind.confirmSubs]

theorem lineIn (d : Chip) (h : Nat) (tent : Bool) : f (d.lineIn h tent) = f d := by
  have B := K.toBlind
  grind [Chip.lineIn, Blind.foldl, defThaw, workDone, tentOff, Blind.breakLine, Blind.confirmSubs, confirmEnded,
    Blind.breakBale, Blind.syncLine, Blind.raiseEng]

theorem lineOut (d : Chip) (h : Nat) : f (d.lineOut h) = f d := by
  have B := K.toBlind
  grind [Chip.lineOut, workStart, Blind.syncLine]

theorem gang (d : Chip) (e : Nat) : f (d.gang e) = f d := by
  have B := K.toBlind
  unfold Chip.gang
  split
  · rfl
  · extract_lets h ss n all idok lags top skewBad x gin tent d1 d2 d3 d4 d5 d6
    have h1 : f d1 = f d := K.setHunter d h _ rfl
    have h2 : f d2 = f d1 := by
      unfold d2
      split
      · exact (K.sf _ _ _ _ _ rfl).trans (B.foldl (fun y m => K.wrEng y _ _ rfl) _ d1)
      · rfl
    have h3 : f d3 = f d2 := B.sbit d2 _ _ _ rfl
    have h4 : f d4 = f d3 := by grind [flag, R.HNT_OTL_GROUP]
    have h5 : f d5 = f d4 := by grind [flag, R.HNT_OTL_GROUP]
    have h6 : f d6 = f d := (B.defCrit d5 _ _).trans (h5.trans (h4.trans (h3.trans (h2.trans h1))))
    clear_value d6
    grind [lineIn, lineOut, retract, cutBips, Blind.breakLine]

theorem hMoved (d : Chip) (e : Nat) (was lead : Bool) : f (d.hMoved e was lead) = f d := by
  have B := K.toBlind
  grind [Chip.hMoved, setHunter, gang, lineIn, lineOut]

theorem leadGone (d : Chip) (e i reason : Nat) : f (d.leadGone e i reason) = f d := by
  have B := K.toBlind
  grind [Chip.leadGone, setHunter, Hunter.setStream_bits, retract, cutBips]

theorem candGone (d : Chip) (e i k reason : Nat) : f (d.candGone e i k reason) = f d := by
  have B := K.toBlind
  grind [Chip.candGone, setHunter, Hunter.setStream_bits, Hunter.dropCand_bits, leadGone]

theorem declare (d : Chip) (e i k : Nat) : f (d.declare e i k) = f d := by
  have B := K.toBlind
  grind [Chip.declare, setHunter, Hunter.setStream_bits, Hunter.cutOut_bits, leadGone, wrEng, sf, flag, Blind.setPair,
    Blind.ev, cutBips, hMoved, RegId.quiet, R.HNT_ALIGN, R.HNT_OTL_LANES, R.HNT_DECL_TIME_LO, R.HNT_DECL_TIME_HI,
    R.HNT_EVENT]

theorem toOof (d : Chip) (e i : Nat) : f (d.toOof e i) = f d := by
  have B := K.toBlind
  grind [Chip.toOof, confirmEarly, setHunter, Hunter.setStream_bits, sf, count, flag, Blind.ev, hMoved,
    R.HNT_OTL_LANES, R.HNT_OOF_CNT, R.HNT_EVENT]

/-! ### Words -/

theorem checkCands (d : Chip) (e i : Nat) (stampOf : Nat → Nat) (c : Scan) (m : List (Nat × Nat)) :
    f (d.checkCands e i stampOf c m).1 = f d := by
  unfold Chip.checkCands
  exact foldl_keeps (fun a : Chip × List Nat => f a.1) _
    (fun a x => by have B := K.toBlind; grind [setHunter, count, candGone, R.HNT_DROP_CNT]) _ (d, [])

theorem checkDecl (d : Chip) (e i : Nat) (stampOf : Nat → Nat) (c : Scan) (m : List (Nat × Nat)) :
    f (d.checkDecl e i stampOf c m) = f d := by
  have B := K.toBlind
  grind [Chip.checkDecl, setHunter, Hunter.setStream_bits, count, toOof, R.HNT_ERRFR_CNT]

theorem decide2 (d : Chip) (e i : Nat) (conf : List Nat) : f (d.decide2 e i conf).1 = f d := by
  have B := K.toBlind
  grind [Chip.decide2, declare, setStream, flag, Blind.ev, R.HNT_EVENT]

theorem overflow (d : Chip) (e : Nat) : f (d.overflow e) = f d := by
  have B := K.toBlind
  have hh : ((d.count (R.HNT_EVICT_CNT e)).flag (R.HNT_EVENT e) 5).hunter e = d.hunter e := rfl
  grind [Chip.overflow, count, flag, setHunter, Blind.ev, R.HNT_EVICT_CNT, R.HNT_EVENT]

theorem sight (d : Chip) (e i stamp seen : Nat) (c : Scan) (conf : List Nat) (y : Nat × Nat) :
    f (d.sight e i stamp seen c conf y) = f d := by
  have B := K.toBlind
  grind [Chip.sight, setHunter, overflow, candGone]

theorem chooseLead (d : Chip) (e i stamp : Nat) (c : Scan) : f (d.chooseLead e i stamp c) = f d := by
  have B := K.toBlind
  grind [Chip.chooseLead, setHunter, Hunter.setStream_bits, Hunter.cutOut_bits, cutBips, Blind.breakLine]

theorem streamCheck (e stamp start w n : Nat) (a : Chip × List WordHit × List Nat) (i : Nat) :
    f (Chip.streamCheck e stamp start w n a i).1 = f a.1 := by
  have B := K.toBlind
  grind [Chip.streamCheck, setStream, checkDecl, checkCands]

theorem streamDecide (e : Nat) (conf : List Nat) (a : Chip × List Nat) (i : Nat) :
    f (Chip.streamDecide e conf a i).1 = f a.1 := by
  have B := K.toBlind
  grind [Chip.streamDecide, decide2]

theorem streamSight (e stamp start n : Nat) (conf decl : List Nat) (d : Chip) (m : WordHit) :
    f (Chip.streamSight e stamp start n conf decl d m) = f d := by
  have B := K.toBlind
  grind [Chip.streamSight, Blind.foldl, sight]

theorem huntWord (d : Chip) (e stamp start w n : Nat) : f (d.huntWord e stamp start w n) = f d := by
  unfold Chip.huntWord
  dsimp only
  rw [foldl_keeps f _ (fun x i => K.chooseLead x e i _ _), foldl_keeps f _ (K.streamSight e _ _ _ _ _),
    foldl_keeps (fun a : Chip × List Nat => f a.1) _ (K.streamDecide e _),
    foldl_keeps (fun a : Chip × List WordHit × List Nat => f a.1) _ (K.streamCheck e _ _ _ _)]

theorem patMatch (d : Chip) (e g i o stamp : Nat) (tent : Bool) : f (d.patMatch e g i o stamp tent) = f d := by
  have B := K.toBlind
  grind [Chip.patMatch, Blind.foldl, setHunter, Blind.raiseEng]

theorem tapOctet (d : Chip) (e sub g i raw desc stamp : Nat) (tent poison : Bool) :
    f (d.tapOctet e sub g i raw desc stamp tent poison) = f d := by
  have B := K.toBlind
  grind [Chip.tapOctet, Chip.tapOne, Blind.tapWord]

theorem tapSelected (d : Chip) (e g i raw desc stamp : Nat) (poison : Bool) :
    f (d.tapSelected e g i raw desc stamp poison) = f d := by
  have B := K.toBlind
  grind [Chip.tapSelected, Blind.foldl, tapOctet]

theorem outOctet (d : Chip) (e q : Nat) (a : Align) (p w : HWord) : f (d.outOctet e q a p w) = f d := by
  have B := K.toBlind
  unfold Chip.outOctet
  extract_lets g i two raw stamp h sc desc tent d0 d1 poison d2
  have h0 : f d0 = f d ∧ d0.hunter e = d.hunter e := by
    unfold d0
    split
    · exact ⟨B.confirmSubs d e, Chip.hunter_congr (Chip.blind_hunters.confirmSubs d e) e⟩
    · exact ⟨rfl, rfl⟩
  have h1 : f d1 = f d := (K.setHunter d0 e _ (by rw [h0.2])).trans h0.1
  have h2 : f d2 = f d := (K.tapOctet _ e 0 g i raw desc stamp tent poison).trans
    ((K.patMatch d1 e g i desc stamp tent).trans h1)
  clear_value d1 d2
  grind [tapSelected]

theorem outWord (d : Chip) (e : Nat) (w : HWord) : f (d.outWord e w) = f d := by
  have B := K.toBlind
  grind [Chip.outWord, Blind.foldl, outOctet, setHunter]

theorem drainHold (e n : Nat) (d : Chip) : f (d.drainHold e n) = f d := by
  induction n generalizing d with
  | zero => rfl
  | succ n ih =>
    have B := K.toBlind
    grind [Chip.drainHold, setHunter, outWord]

/-! ### Marks -/

theorem restart (d : Chip) (e i reason : Nat) : f (d.restart e i reason) = f d := by
  have B := K.toBlind
  grind [Chip.restart, leadGone, setHunter, toOof, setStream]

theorem restartAll (d : Chip) (e reason : Nat) : f (d.restartAll e reason) = f d := by
  have B := K.toBlind
  grind [Chip.restartAll, Blind.foldl, restart, gang]

theorem markEngine (d : Chip) (e : Nat) : f (d.markEngine e) = f d := by
  have B := K.toBlind
  grind [Chip.markEngine, restartAll, Blind.breakLine]

end Chip.BlindToHunt

/-! ## Registers: the bits beside the ones that change -/

section Registers

variable (d : Chip) {r q : RegId}

theorem Chip.rb_sbit_same {i : Nat} (b : Bool) (h : i < 32) : (d.sbit r i b).rb r i = b := by
  unfold Chip.rb Chip.sbit Chip.sf
  rw [Chip.rd_wr_same, bit_setFld_same _ _ h]
  cases b
  · rfl
  · rfl

theorem Chip.rb_sf_beside {hi lo i : Nat} (v : Nat) (h : hi < 32) (hl : lo ≤ hi) (ho : i < lo ∨ hi < i) :
    (d.sf r hi lo v).rb r i = d.rb r i := by
  unfold Chip.rb Chip.sf
  rw [Chip.rd_wr_same, bit_setFld_other _ v h hl ho]

theorem Chip.rb_flag_beside {i j : Nat} (h : j < 32) (ho : i ≠ j) : (d.flag r j).rb r i = d.rb r i :=
  Chip.rb_sf_beside d 1 h (Nat.le_refl j) (Nat.lt_or_gt_of_ne ho)

theorem Chip.rb_sbit_beside {i j : Nat} (b : Bool) (h : j < 32) (ho : i ≠ j) : (d.sbit r j b).rb r i = d.rb r i :=
  Chip.rb_sf_beside d _ h (Nat.le_refl j) (Nat.lt_or_gt_of_ne ho)

theorem Chip.rf_sf_beside {hi lo a b : Nat} (v : Nat) (h : hi < 32) (hl : lo ≤ hi) (ho : a < lo ∨ hi < b) :
    (d.sf r hi lo v).rf r a b = d.rf r a b := by
  unfold Chip.rf Chip.sf
  rw [Chip.rd_wr_same, fld_setFld_other _ v h hl ho]

theorem Chip.rb_sf_other {i hi lo : Nat} (v : Nat) (h : q.key ≠ r.key) : (d.sf r hi lo v).rb q i = d.rb q i :=
  Chip.rb_wr_other d _ i h

theorem Chip.rb_ev (src code det : Nat) (h : r.blk ≠ .eng) (i : Nat) : (d.ev src code det).rb r i = d.rb r i := by
  unfold Chip.rb
  rw [Chip.rd_ev_of_blk d src code det r h]

end Registers

/-! ## Lanes -/

@[simp] theorem Chip.lane_setLane_same (d : Chip) (n : Nat) (l : Lane) : (d.setLane n l).lane n = l :=
  SMap.get_put_same _ _ _ _

theorem Chip.lane_setLane_other (d : Chip) {n m : Nat} (l : Lane) (h : m ≠ n) : (d.setLane n l).lane m = d.lane m :=
  SMap.get_put_other _ _ _ _ h

theorem Chip.lane_congr {d c : Chip} (h : c.lanes = d.lanes) (n : Nat) : c.lane n = d.lane n := by
  unfold Chip.lane
  rw [h]

/-! ## Frames -/

/-- What a command leaves is what it found but for the four parts of `besides` and for what `f` takes over, where the
device with those four parts put back is the device it found with `f` on it. -/
theorem Dev.only_of_besides {x y : Dev} {f : Chip → Chip} (hf : ∀ c z, (f c).besides z = f (c.besides z))
    (h : y.chip.besides x.chip = f x.chip) (hm : x.sameMem y) : x.only y f := by
  refine ⟨?_, hm⟩
  calc y.chip = (y.chip.besides x.chip).besides y.chip := rfl
    _ = f (x.chip.besides y.chip) := by rw [h, hf]

theorem Chip.wr_besides (d : Chip) (r : RegId) (w : Word) (c : Chip) : (d.wr r w).besides c = d.besides c := rfl

theorem Chip.tapWord_besides (d : Chip) (e : Nat) (w : SWord) (c : Chip) :
    (d.tapWord e w).besides c = d.besides c :=
  Chip.tapWord_keeps (fun d => d.besides c) (fun _ _ _ => rfl) (fun _ _ _ _ => rfl) d e w

/-- An event changes the log and what the event streams hold, and nothing else. -/
theorem Chip.ev_besides (d : Chip) (src code det : Nat) (c : Chip) : (d.ev src code det).besides c = d.besides c :=
  Chip.evtAt_keeps (fun d => d.besides c) (fun d e w => Chip.tapWord_besides d e w c) (fun _ _ => rfl) d _ _ _ _ _ _

/-- Registers at different offsets of their windows are different. -/
theorem RegId.key_ne_of_offs {b b' : Blk} {i j o o' : Nat} (h : o % 2 ^ 12 ≠ o' % 2 ^ 12) :
    (RegId.mk b i o).key ≠ (RegId.mk b' j o').key :=
  RegId.key_ne_of_off h

/-! ## Commands that act on the chip alone -/

/-- A command that acts on the chip leaves the chip that its function gives, and memory as it was. -/
theorem does_on {i : Instr} {ok pin : Bool} {g : Chip → Chip} {s : State} {P : Dev → Prop} {c : Chip}
    (he : exec i s = command ok pin (fun x => x.on g) s) (ho : ok = true) (hl : s.dev.live)
    (hg : g s.dev.cleared.chip = c) (hp : P ⟨c, s.dev.mem⟩) : Does i s P := by
  subst hg
  exact does_of_command he ho hl hp

/-- A command that leaves the chip as it is does so in reset as well. -/
theorem does_idle {i : Instr} {ok : Bool} {g : Chip → Chip} {s : State}
    (he : exec i s = command ok false (fun x => x.on g) s) (ho : ok = true)
    (hg : g s.dev.cleared.chip = s.dev.cleared.chip) : Does i s s.dev.idle := by
  subst ho
  cases hr : s.dev.chip.inReset
  · exact ⟨_, he.trans (command_live false _ s hr), rfl, congrArg (Dev.mk · s.dev.mem) hg⟩
  · exact ⟨_, he.trans (command_held _ s hr), rfl, rfl⟩

theorem Dev.sameMem_mk (x : Dev) (c : Chip) : x.sameMem ⟨c, x.mem⟩ := fun _ => rfl

/-! ## What runs on behind a lane leaves the lanes -/

theorem Chip.blind_lanes : Chip.BlindToHunt Chip.lanes :=
  ⟨⟨fun _ _ _ _ => rfl, fun _ _ => rfl, fun _ _ => rfl, fun _ _ => rfl, fun _ _ _ => rfl, fun _ _ _ => rfl,
    fun _ _ _ => rfl, fun _ _ _ => rfl, fun _ _ _ => rfl, fun _ _ _ => rfl, fun _ _ _ => rfl⟩,
    fun _ _ _ _ => rfl, fun _ _ => rfl, fun _ _ _ => rfl, fun _ _ _ => rfl, fun _ _ _ _ => rfl⟩

theorem RegId.quiet_blk {r : RegId} (h : r.quiet = true) : r.blk ≠ .lane := by
  intro hb
  simp [RegId.quiet, hb] at h

theorem Chip.blind_rd {r : RegId} (hr : r.blk = .lane) : Chip.BlindToHunt (fun d => d.rd r) :=
  ⟨⟨fun d q w h => Chip.rd_wr_other d w (RegId.key_ne_of_blk (by rw [hr]; exact (RegId.quiet_blk h).symm)),
    fun _ _ => rfl, fun _ _ => rfl, fun _ _ => rfl, fun _ _ _ => rfl, fun _ _ _ => rfl,
    fun _ _ _ => rfl, fun _ _ _ => rfl, fun _ _ _ => rfl, fun _ _ _ => rfl, fun _ _ _ => rfl⟩,
    fun d q w h => Chip.rd_wr_other d w (RegId.key_ne_of_blk (by rw [hr, h]; decide)),
    fun _ _ => rfl, fun _ _ _ => rfl, fun _ _ _ => rfl, fun _ _ _ _ => rfl⟩

/-! ## The raw condition (R40, R42) -/

/-- The raw condition of a lane, as its detector finds it. -/
def Chip.rawNow (d : Chip) (n : Nat) : Bool := d.laneEn n && d.rxTrans n && (d.lane n).lock && freqOk (d.rxFreq n)

/-- A lane whose raw condition has been taken as `now`, the frequency at its receiver being `freq`. -/
def Lane.taken (l : Lane) (now : Bool) (freq : Int) (core : Nat) : Lane :=
  { l with meas := if now then freq else l.meas, present := now, since := if now = l.present then l.since else core }

theorem Chip.rawSignal_eq (d : Chip) (n : Nat) :
    d.rawSignal n =
      let now := d.rawNow n
      let d1 := d.setLane n ((d.lane n).taken now (d.rxFreq n) d.core)
      if (d.lane n).present && !now then d1.count (R.LN_FLAP_CNT n) else d1 := by
  have hdef : (d.laneEn n && d.rxTrans n && (d.lane n).lock && freqOk (d.rxFreq n)) = d.rawNow n := rfl
  simp only [Chip.rawSignal, hdef, Lane.taken]
  generalize d.lane n = l
  by_cases h : d.rawNow n = l.present
  · cases l
    dsimp only at h
    subst h
    cases d.rawNow n
    · simp
    · simp
  · cases hn : d.rawNow n
    · simp_all
    · simp_all

section RawSignal

variable (d : Chip) (n : Nat)

theorem Chip.rawSignal_lanes :
    (d.rawSignal n).lanes = (d.setLane n ((d.lane n).taken (d.rawNow n) (d.rxFreq n) d.core)).lanes := by
  rw [Chip.rawSignal_eq]
  dsimp only
  split
  · rfl
  · rfl

theorem Chip.lane_rawSignal_same :
    (d.rawSignal n).lane n = (d.lane n).taken (d.rawNow n) (d.rxFreq n) d.core :=
  (Chip.lane_congr (Chip.rawSignal_lanes d n) n).trans (Chip.lane_setLane_same _ _ _)

theorem Chip.lane_rawSignal_other {m : Nat} (h : m ≠ n) : (d.rawSignal n).lane m = d.lane m :=
  (Chip.lane_congr (Chip.rawSignal_lanes d n) m).trans (Chip.lane_setLane_other _ _ h)

theorem Chip.rawSignal_besides (c : Chip) :
    (d.rawSignal n).besides c = { d.besides c with lanes := (d.rawSignal n).lanes } := by
  rw [Chip.rawSignal_lanes, Chip.rawSignal_eq]
  exact Chip.ite_count_besides _ c _ (R.LN_FLAP_CNT n) 1

theorem Chip.rd_rawSignal_other {r : RegId} (h : r.key ≠ (R.LN_FLAP_CNT n).key) : (d.rawSignal n).rd r = d.rd r := by
  rw [Chip.rawSignal_eq]
  exact Chip.rd_ite_count_other _ _ 1 h

/-- The flap count grows where the signal was there and is lost. -/
theorem Chip.rd_rawSignal_flap :
    ((d.rawSignal n).rd (R.LN_FLAP_CNT n)).toNat
      = min ((d.rd (R.LN_FLAP_CNT n)).toNat + b2n ((d.lane n).present && !d.rawNow n)) 0xFFFFFFFF := by
  rw [Chip.rawSignal_eq]
  dsimp only
  split
  · next h =>
    rw [h]
    exact Chip.rd_count_same _ _ 1
  · next h =>
    have hlt := (d.rd (R.LN_FLAP_CNT n)).isLt
    rw [Bool.eq_false_iff.mpr h]
    exact (Nat.min_eq_left (Nat.le_of_lt_succ hlt)).symm

end RawSignal

/-! # Writes of lane registers -/

/-! ## A host's write of a lane register (R300) -/

/-- A write of a register of a lane window that passes its checks does what the lane's own write does, and is answered
with its status. -/
theorem Dev.hostWrite_lane {x : Dev} {sess n o : Nat} {w : Word} (h : x.allows sess ⟨.lane, n, o⟩ w) :
    x.hostWrite sess ⟨.lane, n, o⟩ w =
      let z := x.chip.writeLane n ⟨.lane, n, o⟩ (x.chip.reach ⟨.lane, n, o⟩) w
      ⟨z.2.answer z.1, x.mem⟩ := by
  simp only [Dev.hostWrite, Dev.regWrite_allows x sess 0x0011 _ w h, Dev.on]
  rfl

/-- A write that a lane's own write answers with `st`, leaving `c`. -/
theorem Dev.hostWrite_lane_of {x : Dev} {sess n o : Nat} {w : Word} {st : Status} {c : Chip}
    (h : x.allows sess ⟨.lane, n, o⟩ w)
    (hw : x.chip.writeLane n ⟨.lane, n, o⟩ (x.chip.reach ⟨.lane, n, o⟩) w = (st, c)) :
    x.hostWrite sess ⟨.lane, n, o⟩ w = ⟨c.answer st, x.mem⟩ := by
  rw [Dev.hostWrite_lane h, hw]

theorem Chip.answered_answer (c : Chip) (st : Status) (m : Mem) : (Dev.mk (c.answer st) m).answered st := by
  simp [Dev.answered]

theorem Chip.rd_answer (c : Chip) (st : Status) (r : RegId) : (c.answer st).rd r = c.rd r := rfl

theorem Chip.rb_answer (c : Chip) (st : Status) (r : RegId) (i : Nat) : (c.answer st).rb r i = c.rb r i := rfl

theorem Chip.rd_emit_answer (c : Chip) (o : Out) (st : Status) (r : RegId) : ((c.emit o).answer st).rd r = c.rd r := rfl

theorem Chip.rb_emit_answer (c : Chip) (o : Out) (st : Status) (r : RegId) (i : Nat) :
    ((c.emit o).answer st).rb r i = c.rb r i := rfl

theorem Chip.emit_answer_mmbs (c : Chip) (o : Out) (st : Status) : ((c.emit o).answer st).mmbs = c.mmbs := rfl

theorem Chip.flag_answer_besides (c : Chip) (r : RegId) (i : Nat) (st : Status) (z : Chip) :
    ((c.flag r i).answer st).besides z = c.besides z := rfl

/-- A command whose write of a lane register is answered with `st` and leaves the chip `c`. -/
theorem does_hostWrite_lane (q : List Instr) {x : Dev} (hx : x.live) {i : Instr} {ok : Bool} {sess n o : Nat} {w : Word}
    {st : Status} {c : Chip} {P : Dev → Prop}
    (hi : exec i ⟨q, x⟩ = command ok false (fun x => x.hostWrite sess ⟨.lane, n, o⟩ w) ⟨q, x⟩) (ho : ok = true)
    (ha : x.allows sess ⟨.lane, n, o⟩ w)
    (hw : x.cleared.chip.writeLane n ⟨.lane, n, o⟩ (x.cleared.chip.reach ⟨.lane, n, o⟩) w = (st, c))
    (hp : P ⟨c.answer st, x.mem⟩) : Does i ⟨q, x⟩ (fun y => y.answered st ∧ P y) := by
  refine does_of_command hi ho hx ?_
  rw [Dev.hostWrite_lane_of (Dev.allows_cleared ha) hw]
  exact ⟨Chip.answered_answer _ _ _, hp⟩

/-! ## Stored words -/

theorem bit_or (v w : Word) (i : Nat) : bit (v ||| w) i = (bit v i || bit w i) := by
  simp [bit]

theorem bit_and (v w : Word) (i : Nat) : bit (v &&& w) i = (bit v i && bit w i) := by
  simp [bit]

theorem bit_not (w : Word) {i : Nat} (h : i < 32) : bit (~~~w) i = !bit w i := by
  have := BitVec.getLsbD_not (x := w) (i := i)
  simpa [BitVec.getLsbD, bit, h] using this

/-- A field that the host may write holds what was written. -/
theorem Chip.rf_store {d : Chip} {t : RegId} {row : Row} (w : Word) {hi lo : Nat} (hr : t.row = some row)
    (hm : ∀ i < 32, lo ≤ i → i ≤ hi → bit (w32 (row.rw ||| row.ot)) i = true) (h : hi < 32) :
    (d.store t w).rf t hi lo = fld w hi lo := by
  simp only [Chip.rf, Chip.store, hr, Chip.rd_wr_same]
  refine Nat.eq_of_testBit_eq fun j => ?_
  rw [testBit_fld, testBit_fld]
  by_cases hj : j < hi + 1 - lo
  · have hi' : lo + j < 32 := by omega
    have hb := hm (lo + j) hi' (by omega) (by omega)
    have hk : bit 0 (lo + j) = false := by simp [bit]
    simp only [bit_or, bit_and, bit_not _ hi', hb, hk]
    simp
  · simp [hj]

theorem Chip.rd_store_other (d : Chip) {t r : RegId} (w : Word) (h : r.key ≠ t.key) : (d.store t w).rd r = d.rd r := by
  unfold Chip.store
  split
  · rfl
  · exact Chip.rd_wr_other d _ h

theorem Chip.store_besides (d : Chip) (t : RegId) (w : Word) (c : Chip) : (d.store t w).besides c = d.besides c := by
  unfold Chip.store
  split
  · rfl
  · rfl

theorem clamp_eq (lo hi v : Nat) (h : lo ≤ hi) : clamp lo hi v = max lo (min hi v) := by
  unfold clamp
  split
  · omega
  · split
    · omega
    · omega

theorem fld_fixField (lo_ hi_ : Nat) (w : Word) {hi lo : Nat} (h : hi < 32) (hl : lo ≤ hi) (hh : lo_ ≤ hi_)
    (hb : hi_ < 2 ^ (hi + 1 - lo)) : fld (fixField lo_ hi_ w hi lo) hi lo = max lo_ (min hi_ (fld w hi lo)) := by
  rw [fixField, fld_setFld _ _ _ _ h hl, clamp_eq _ _ _ hh, Nat.mod_eq_of_lt (by omega)]

/-! # Clock recovery and the transmit clock -/

/-! ## What a receiver reads from a lane's state (R34-R36, R45) -/

theorem Chip.clkLane_congr_of_rd {d c : Chip} (hc : ∀ k, c.rd (R.LN_CFG k) = d.rd (R.LN_CFG k))
    (ht : ∀ k, c.rd (R.LN_TX k) = d.rd (R.LN_TX k)) (hq : ∀ k, c.rd (R.LN_QUAD_MODE k) = d.rd (R.LN_QUAD_MODE k))
    (m : Nat) : c.clkLane m = d.clkLane m := by
  simp only [Chip.clkLane, Chip.laneLoop, Chip.otlQuad, Chip.rf, Chip.rb, hc, ht, hq]
  rfl

theorem Chip.clkLane_congr {d c : Chip} (hr : c.regs = d.regs) (m : Nat) : c.clkLane m = d.clkLane m :=
  Chip.clkLane_congr_of_rd (fun _ => Chip.rd_congr hr _) (fun _ => Chip.rd_congr hr _) (fun _ => Chip.rd_congr hr _) m

/-- From `d` to `c` nothing changes that a transmit frequency depends on. -/
structure Chip.SameClocks (d c : Chip) : Prop where
  regs : c.regs = d.regs
  tim : c.tim = d.tim
  core : c.core = d.core
  freq : ∀ m, (c.lane m).freq = (d.lane m).freq
  hold : ∀ m, (c.lane m).txHold = (d.lane m).txHold
  slew : ∀ m, (c.lane m).slewFrom = (d.lane m).slewFrom

namespace Chip.SameClocks

variable {d c : Chip} (h : d.SameClocks c)

include h

theorem txFreqN (k m : Nat) : c.txFreqN k m = d.txFreqN k m := by
  induction k generalizing m with
  | zero => rfl
  | succ k ih =>
    simp only [Chip.txFreqN, Chip.clkLane_congr h.regs, Chip.laneLoop, Chip.lnPpm, Chip.otlQuad, Chip.rf, Chip.rb,
      Chip.rd_congr h.regs, h.freq, h.hold, h.slew, h.core, h.tim, ih]
    rfl

theorem rxFreq (n : Nat) : c.rxFreq n = d.rxFreq n := by
  simp only [Chip.rxFreq, Chip.txFreq, Chip.laneLoop, Chip.rf, Chip.rd_congr h.regs, h.freq, h.txFreqN]
  rfl

end Chip.SameClocks

theorem Dev.sameClocks_cleared (x : Dev) : x.chip.SameClocks x.cleared.chip :=
  ⟨rfl, rfl, rfl, fun _ => rfl, fun _ => rfl, fun _ => rfl⟩

section SetLane

variable (d : Chip) {n : Nat} {l : Lane}

theorem Chip.sameClocks_setLane (hf : l.freq = (d.lane n).freq) (hh : l.txHold = (d.lane n).txHold)
    (hs : l.slewFrom = (d.lane n).slewFrom) : d.SameClocks (d.setLane n l) := by
  refine ⟨rfl, rfl, rfl, fun m => ?_, fun m => ?_, fun m => ?_⟩ <;>
    · obtain rfl | h := eq_or_ne m n
      · simpa
      · rw [Chip.lane_setLane_other d l h]

theorem Chip.txIdle_setLane (hc : l.calBusy = (d.lane n).calBusy) : (d.setLane n l).txIdle n = d.txIdle n := by
  unfold Chip.txIdle
  rw [Chip.lane_setLane_same, hc]
  rfl

theorem Chip.rxTrans_setLane (hc : l.calBusy = (d.lane n).calBusy) (ht : l.trans = (d.lane n).trans) :
    (d.setLane n l).rxTrans n = d.rxTrans n := by
  unfold Chip.rxTrans
  rw [Chip.txIdle_setLane d hc, Chip.lane_setLane_same, ht]
  rfl

end SetLane

/-! ## Clock recovery (R35, R43) -/

theorem Chip.cdrLock_eq {d : Chip} {n : Nat} (he : d.laneEn n = true) (hl : (d.lane n).lock = false)
    (ht : d.rxTrans n = true) (hf : freqOk (d.rxFreq n) = true) :
    d.cdrLock n = let d1 := (d.setLane n { d.lane n with lock := true }).rawSignal n
      (d1.listeners n).foldl (fun x e => x.markEngine e) d1 := by
  simp [Chip.cdrLock, he, hl, ht, hf]

theorem Chip.cdrLock_idle {d : Chip} {n : Nat} (h : d.laneEn n = false ∨ (d.lane n).lock = true ∨ d.rxTrans n = false
    ∨ freqOk (d.rxFreq n) = false) : d.cdrLock n = d :=
  if_pos (by simpa using h)

/-- A lane that locks has its raw condition at once. -/
theorem Chip.rawNow_of_lock {d : Chip} {n : Nat} (he : d.laneEn n = true) (ht : d.rxTrans n = true)
    (hf : freqOk (d.rxFreq n) = true) : (d.setLane n { d.lane n with lock := true }).rawNow n = true := by
  have hr := (Chip.sameClocks_setLane d (l := { d.lane n with lock := true }) rfl rfl rfl).rxFreq n
  have hx := Chip.rxTrans_setLane d (l := { d.lane n with lock := true }) rfl rfl
  have hen : (d.setLane n { d.lane n with lock := true }).laneEn n = true := he
  simp [Chip.rawNow, hr, hx, hen, ht, hf]

theorem Chip.lane_cdrLock {d : Chip} {n : Nat} (he : d.laneEn n = true) (hl : (d.lane n).lock = false)
    (ht : d.rxTrans n = true) (hf : freqOk (d.rxFreq n) = true) :
    ((d.cdrLock n).lane n).lock = true ∧ ((d.cdrLock n).lane n).present = true := by
  rw [Chip.cdrLock_eq he hl ht hf]
  dsimp only
  rw [Chip.lane_congr (Chip.blind_lanes.toBlind.foldl (fun x e => Chip.blind_lanes.markEngine x e) _ _),
    Chip.lane_rawSignal_same, Chip.rawNow_of_lock he ht hf, Chip.lane_setLane_same]
  exact ⟨rfl, rfl⟩

/-- What follows the loss of lock in the engines bound to the lane. -/
def Chip.lockGone (d : Chip) (n : Nat) : Chip :=
  (d.listeners n).foldl (fun (x : Chip) e => (x.markEngine e).raiseEng e 23 x.dt) d

theorem Chip.BlindToHunt.lockGone {γ : Type} {f : Chip → γ} (K : Chip.BlindToHunt f) (d : Chip) (n : Nat) :
    f (d.lockGone n) = f d :=
  K.toBlind.foldl (fun x e => (K.toBlind.raiseEng _ e 23 x.dt false).trans (K.markEngine x e)) _ d

section LockLoss

variable {d : Chip} {n : Nat} (he : d.laneEn n = true) (hl : (d.lane n).lock = true)

include he hl

theorem Chip.lockLoss_eq :
    d.lockLoss n = (((((d.setLane n { d.lane n with lock := false }).rawSignal n).count (R.LN_LOCK_LOSS_CNT n)).flag
      (R.LN_EVENT n) 2).ev (srcLane n) 0x0102 0).lockGone n := by
  simp [Chip.lockLoss, Chip.lockGone, he, hl]

theorem Chip.lane_lockLoss : ((d.lockLoss n).lane n).lock = false ∧ ((d.lockLoss n).lane n).present = false := by
  rw [Chip.lockLoss_eq he hl, Chip.lane_congr (Chip.blind_lanes.lockGone _ n),
    Chip.lane_congr (Chip.blind_lanes.toBlind.ev _ _ _ _)]
  have hraw : (d.setLane n { d.lane n with lock := false }).rawNow n = false := by simp [Chip.rawNow]
  have hlane := Chip.lane_rawSignal_same (d.setLane n { d.lane n with lock := false }) n
  rw [hraw, Chip.lane_setLane_same] at hlane
  have hsame (c : Chip) : ((c.count (R.LN_LOCK_LOSS_CNT n)).flag (R.LN_EVENT n) 2).lane n = c.lane n := rfl
  rw [hsame, hlane]
  exact ⟨rfl, rfl⟩

theorem Chip.rd_lockLoss {r : RegId} (hr : r.blk = .lane) :
    (d.lockLoss n).rd r = ((((d.setLane n { d.lane n with lock := false }).rawSignal n).count
      (R.LN_LOCK_LOSS_CNT n)).flag (R.LN_EVENT n) 2).rd r := by
  rw [Chip.lockLoss_eq he hl]
  exact ((Chip.blind_rd hr).lockGone _ n).trans (Chip.rd_ev_of_blk _ _ _ _ r (by rw [hr]; decide))

theorem Chip.rb_lockLoss : (d.lockLoss n).rb (R.LN_EVENT n) 2 = true := by
  unfold Chip.rb
  rw [Chip.rd_lockLoss he hl rfl]
  exact Chip.rb_flag_same _ _ 2 (by decide)

theorem Chip.rd_lockLoss_cnt :
    ((d.lockLoss n).rd (R.LN_LOCK_LOSS_CNT n)).toNat = min ((d.rd (R.LN_LOCK_LOSS_CNT n)).toNat + 1) 0xFFFFFFFF := by
  have hev : (R.LN_LOCK_LOSS_CNT n).key ≠ (R.LN_EVENT n).key := RegId.key_ne_of_offs (by decide)
  have hfl : (R.LN_LOCK_LOSS_CNT n).key ≠ (R.LN_FLAP_CNT n).key := RegId.key_ne_of_offs (by decide)
  rw [Chip.rd_lockLoss he hl rfl, Chip.rd_flag_other _ _ hev, Chip.rd_count_same, Chip.rd_rawSignal_other _ _ hfl]
  rfl

end LockLoss

theorem Chip.lockLoss_idle {d : Chip} {n : Nat} (h : d.laneEn n = false ∨ (d.lane n).lock = false) : d.lockLoss n = d :=
  if_pos (by simpa using h)

/-! ## The transmit clock (R35) -/

theorem Chip.slewDone_idle {d : Chip} {n : Nat}
    (h : (d.lane n).txHold = none ∨ (d.lane n).slewFrom = none ∨ d.clkLane n = none) : d.slewDone n = d := by
  unfold Chip.slewDone
  dsimp only
  split
  · next hh hs hc => simp [hh, hs, hc] at h
  · rfl

theorem Chip.slewDone_eq {d : Chip} {n m t : Nat} {h : Int} (hh : (d.lane n).txHold = some h)
    (hs : (d.lane n).slewFrom = some t) (hc : d.clkLane n = some m) :
    d.slewDone n = if (slewAt h (d.rxFreq m) t d.core - d.rxFreq m).natAbs ≤ 1
      then d.setLane n { d.lane n with txHold := none, slewFrom := none } else d := by
  simp only [Chip.slewDone, hh, hs, hc]

/-! ## The commands -/

theorem exec_cdrLock (n : Nat) (s : State) :
    exec (.cdrLock n) s = command (laneOk n) false (fun x => x.on (fun d => d.cdrLock n)) s := rfl

theorem exec_lockLoss (n : Nat) (s : State) :
    exec (.lockLoss n) s = command (laneOk n) false (fun x => x.on (fun d => d.lockLoss n)) s := rfl

theorem exec_txclkSlewDone (n : Nat) (s : State) :
    exec (.txclkSlewDone n) s = command (laneOk n) false (fun x => x.on (fun d => d.slewDone n)) s := rfl

section Commands

variable (q : List Instr) {x : Dev} {n : Nat} (hn : n < 140)

include hn

theorem does_cdrLock_idle (h : x.chip.laneEn n = false ∨ (x.chip.lane n).lock = true ∨ x.chip.rxTrans n = false
    ∨ freqOk (x.chip.rxFreq n) = false) : Does (.cdrLock n) ⟨q, x⟩ x.idle := by
  rw [← x.sameClocks_cleared.rxFreq] at h
  exact does_idle (exec_cdrLock n ⟨q, x⟩) (decide_eq_true hn) (Chip.cdrLock_idle h)

theorem does_lockLoss_idle (h : x.chip.laneEn n = false ∨ (x.chip.lane n).lock = false) :
    Does (.lockLoss n) ⟨q, x⟩ x.idle :=
  does_idle (exec_lockLoss n ⟨q, x⟩) (decide_eq_true hn) (Chip.lockLoss_idle h)

theorem does_txclkSlewDone_idle
    (h : (x.chip.lane n).txHold = none ∨ (x.chip.lane n).slewFrom = none ∨ x.chip.clkLane n = none) :
    Does (.txclkSlewDone n) ⟨q, x⟩ x.idle :=
  does_idle (exec_txclkSlewDone n ⟨q, x⟩) (decide_eq_true hn) (Chip.slewDone_idle h)

section Slew

variable {h : Int} {t m : Nat} (hh : (x.chip.lane n).txHold = some h) (hs : (x.chip.lane n).slewFrom = some t)
  (hc : x.chip.clkLane n = some m)

include hh hs hc

theorem does_txclkSlewDone_early (hw : 1 < (slewAt h (x.chip.rxFreq m) t x.chip.core - x.chip.rxFreq m).natAbs) :
    Does (.txclkSlewDone n) ⟨q, x⟩ x.idle := by
  rw [← x.sameClocks_cleared.rxFreq] at hw
  exact does_idle (exec_txclkSlewDone n ⟨q, x⟩) (decide_eq_true hn)
    ((Chip.slewDone_eq (d := x.cleared.chip) hh hs hc).trans (if_neg (Nat.not_le.mpr hw)))

theorem does_txclkSlewDone (hx : x.live)
    (hw : (slewAt h (x.chip.rxFreq m) t x.chip.core - x.chip.rxFreq m).natAbs ≤ 1) :
    Does (.txclkSlewDone n) ⟨q, x⟩ (fun y => (y.chip.lane n).txHold = none ∧ (y.chip.lane n).slewFrom = none
      ∧ (∀ k, k ≠ n → y.chip.lane k = x.chip.lane k)
      ∧ x.only y (fun c => { c with lanes := y.chip.lanes }) ∧ x.regsBut y []) := by
  rw [← x.sameClocks_cleared.rxFreq] at hw
  refine does_on (exec_txclkSlewDone n ⟨q, x⟩) (decide_eq_true hn) hx
    ((Chip.slewDone_eq (d := x.cleared.chip) hh hs hc).trans (if_pos hw)) ⟨?_, ?_, fun k hk => ?_, ?_, fun _ _ _ => rfl⟩
  · rw [Chip.lane_setLane_same]
  · rw [Chip.lane_setLane_same]
  · exact Chip.lane_setLane_other x.cleared.chip _ hk
  · exact ⟨rfl, x.sameMem_mk _⟩

end Slew

variable (hx : x.live)

include hx

theorem does_cdrLock (he : x.chip.laneEn n = true) (hl : (x.chip.lane n).lock = false)
    (ht : x.chip.rxTrans n = true) (hf : freqOk (x.chip.rxFreq n) = true) :
    Does (.cdrLock n) ⟨q, x⟩
      (fun y => (y.chip.lane n).lock = true ∧ (y.chip.lane n).present = true ∧ x.sameMem y) := by
  rw [← x.sameClocks_cleared.rxFreq] at hf
  obtain ⟨hlock, hpresent⟩ := Chip.lane_cdrLock (d := x.cleared.chip) he hl ht hf
  exact does_on (exec_cdrLock n ⟨q, x⟩) (decide_eq_true hn) hx rfl ⟨hlock, hpresent, x.sameMem_mk _⟩

theorem does_lockLoss (he : x.chip.laneEn n = true) (hl : (x.chip.lane n).lock = true) :
    Does (.lockLoss n) ⟨q, x⟩ (fun y => (y.chip.lane n).lock = false ∧ (y.chip.lane n).present = false ∧ x.sameMem y
      ∧ y.chip.rb (R.LN_EVENT n) 2 = true
      ∧ (y.chip.rd (R.LN_LOCK_LOSS_CNT n)).toNat
        = min ((x.chip.rd (R.LN_LOCK_LOSS_CNT n)).toNat + 1) 0xFFFFFFFF) := by
  obtain ⟨hlock, hpresent⟩ := Chip.lane_lockLoss (d := x.cleared.chip) he hl
  exact does_on (exec_lockLoss n ⟨q, x⟩) (decide_eq_true hn) hx rfl ⟨hlock, hpresent, x.sameMem_mk _,
    Chip.rb_lockLoss (d := x.cleared.chip) he hl, Chip.rd_lockLoss_cnt (d := x.cleared.chip) he hl⟩

end Commands

/-- Settles O12: each command of a live device does what its chip function leaves, and the engines that hear of a
lane's lock leave the lanes and their registers alone. -/
theorem clockRecoveryAndHoldover : Obligations.ClockRecoveryAndHoldover := by
  intro q x n hn hx
  exact ⟨does_cdrLock q hn hx, does_cdrLock_idle q hn, does_lockLoss q hn hx, does_lockLoss_idle q hn,
    fun h t m hh hs hc => ⟨does_txclkSlewDone q hn hh hs hc hx, does_txclkSlewDone_early q hn hh hs hc⟩,
    does_txclkSlewDone_idle q hn⟩

/-! # Loss of signal -/

/-! ## The detector's inputs (R40) -/

section SignalChange

variable {d : Chip} {n : Nat} {trans : Bool} {freq : Int}

theorem Chip.rawNow_pin (he : d.laneEn n = true) (hl : d.laneLoop n ≠ 1) :
    (d.setLane n { d.lane n with trans := trans, freq := freq }).rawNow n = (trans && (d.lane n).lock && freqOk freq)
      ∧ (d.setLane n { d.lane n with trans := trans, freq := freq }).rxFreq n = freq := by
  have hen : (d.setLane n { d.lane n with trans := trans, freq := freq }).laneEn n = true := he
  have hlp : (d.setLane n { d.lane n with trans := trans, freq := freq }).laneLoop n ≠ 1 := hl
  have hfreq : (d.setLane n { d.lane n with trans := trans, freq := freq }).rxFreq n = freq := by
    simp [Chip.rxFreq, hlp]
  refine ⟨?_, hfreq⟩
  simp [Chip.rawNow, Chip.rxTrans, hen, hlp, hfreq]

theorem Chip.lane_signalChange_pin :
    ((d.signalChange n trans freq).lane n).trans = trans ∧ ((d.signalChange n trans freq).lane n).freq = freq := by
  unfold Chip.signalChange
  rw [Chip.lane_rawSignal_same, Chip.lane_setLane_same]
  exact ⟨rfl, rfl⟩

theorem Chip.lane_signalChange (he : d.laneEn n = true) (hl : d.laneLoop n ≠ 1) :
    (d.signalChange n trans freq).lane n
      = ({ d.lane n with trans := trans, freq := freq } : Lane).taken (trans && (d.lane n).lock && freqOk freq) freq
        d.core := by
  obtain ⟨hnow, hfreq⟩ := Chip.rawNow_pin (trans := trans) (freq := freq) he hl
  unfold Chip.signalChange
  rw [Chip.lane_rawSignal_same, hnow, hfreq, Chip.lane_setLane_same]
  rfl

theorem Chip.lane_signalChange_other {m : Nat} (h : m ≠ n) : (d.signalChange n trans freq).lane m = d.lane m :=
  (Chip.lane_rawSignal_other _ _ h).trans (Chip.lane_setLane_other d _ h)

theorem Chip.signalChange_besides (c : Chip) :
    (d.signalChange n trans freq).besides c = { d.besides c with lanes := (d.signalChange n trans freq).lanes } :=
  Chip.rawSignal_besides _ n c

theorem Chip.rd_signalChange_other {r : RegId} (h : r.key ≠ (R.LN_FLAP_CNT n).key) :
    (d.signalChange n trans freq).rd r = d.rd r :=
  Chip.rd_rawSignal_other _ n h

theorem Chip.rd_signalChange_flap (he : d.laneEn n = true) (hl : d.laneLoop n ≠ 1) :
    ((d.signalChange n trans freq).rd (R.LN_FLAP_CNT n)).toNat
      = min ((d.rd (R.LN_FLAP_CNT n)).toNat
          + b2n ((d.lane n).present && !(trans && (d.lane n).lock && freqOk freq))) 0xFFFFFFFF := by
  unfold Chip.signalChange
  rw [Chip.rd_rawSignal_flap, (Chip.rawNow_pin he hl).1, Chip.lane_setLane_same]
  rfl

end SignalChange

theorem Dev.laneSignal_live {x : Dev} (hx : x.live) (n : Nat) (trans : Bool) (freq : Int) :
    x.laneSignal n trans freq = x.on (fun d => d.signalChange n trans freq) := by
  unfold Dev.laneSignal
  rw [show x.chip.inReset = false from hx]
  rfl

/-- In reset or out of it, the pin is taken. -/
theorem Dev.lane_laneSignal (x : Dev) (n : Nat) (trans : Bool) (freq : Int) :
    ((x.laneSignal n trans freq).chip.lane n).trans = trans ∧ ((x.laneSignal n trans freq).chip.lane n).freq = freq
      ∧ x.sameMem (x.laneSignal n trans freq) := by
  unfold Dev.laneSignal
  split
  · rw [Dev.on_chip, Chip.lane_setLane_same]
    exact ⟨rfl, rfl, fun _ => rfl⟩
  · obtain ⟨ht, hf⟩ := Chip.lane_signalChange_pin (d := x.chip) (n := n) (trans := trans) (freq := freq)
    exact ⟨ht, hf, fun _ => rfl⟩

/-! ## Loss of signal is declared (R35, R40) -/

/-- What every step of a run over a list keeps and one of its steps brings about holds after it. -/
theorem foldl_reaches {β : Type} {P : Chip → Prop} {g : Chip → β → Chip} (hk : ∀ d b, P d → P (g d b)) {a : β}
    (ha : ∀ d, P (g d a)) {l : List β} (h : a ∈ l) (d : Chip) : P (l.foldl g d) := by
  obtain ⟨l₁, l₂, rfl⟩ := List.append_of_mem h
  rw [List.foldl_append, List.foldl_cons]
  exact List.foldlRecOn l₂ g (ha _) fun c hc b _ => hk c b hc

/-- The transmit clock of lane `m` holds the frequency `v`. -/
def Chip.holdover (d : Chip) (v : Int) (m : Nat) : Chip :=
  ((d.setLane m { d.lane m with txHold := some v, slewFrom := none }).flag (R.LN_EVENT m) 3).ev (srcLane m) 0x0103 0

section Holdover

variable (d : Chip) (v : Int) (m : Nat)

theorem Chip.lane_holdover (k : Nat) :
    (d.holdover v m).lane k = if k = m then { d.lane m with txHold := some v, slewFrom := none } else d.lane k := by
  unfold Chip.holdover
  rw [Chip.lane_congr (Chip.blind_lanes.toBlind.ev _ _ _ _)]
  exact SMap.get_put _ _ _ _ _

theorem Chip.holdover_los (k : Nat) : ((d.holdover v m).lane k).los = (d.lane k).los := by
  rw [Chip.lane_holdover]
  split
  · next h => rw [h]
  · rfl

/-- A holdover sets bit 3 of LN_EVENT of its own lane. -/
theorem Chip.rd_holdover {r : RegId} (hr : r.blk = .lane) (ho : r.key ≠ (R.LN_EVENT m).key) :
    (d.holdover v m).rd r = d.rd r :=
  (Chip.rd_ev_of_blk _ _ _ _ r (by rw [hr]; decide)).trans (Chip.rd_flag_other _ 3 ho)

theorem Chip.rb_holdover_event (n : Nat) : (d.holdover v m).rb (R.LN_EVENT n) 0 = d.rb (R.LN_EVENT n) 0 := by
  by_cases h : (R.LN_EVENT n).key = (R.LN_EVENT m).key
  · have hr (c : Chip) : c.rd (R.LN_EVENT n) = c.rd (R.LN_EVENT m) := by
      show SMap.get _ c.regs (R.LN_EVENT n).key = SMap.get _ c.regs (R.LN_EVENT m).key
      rw [h]
      rfl
    have hb (c : Chip) : c.rb (R.LN_EVENT n) 0 = c.rb (R.LN_EVENT m) 0 := congrArg (bit · 0) (hr c)
    rw [hb, hb, Chip.holdover, Chip.rb_ev _ _ _ _ (show Blk.lane ≠ Blk.eng by decide),
      Chip.rb_flag_beside _ (by decide) (by decide)]
    rfl
  · exact congrArg (bit · 0) (Chip.rd_holdover d v m rfl h)

end Holdover

/-- The line status of the engines bound to a lane is no part of what a lane or its window holds. -/
theorem Chip.Blind.syncLane {γ : Type} {f : Chip → γ} (K : Chip.Blind f) (d : Chip) (n : Nat) :
    f (d.syncLane n) = f d :=
  K.foldl (fun x e => K.syncLine x e) _ d

/-- LOS is declared on lane `n`, whose dependants still transmit with its clock. -/
def Chip.losRaised (d : Chip) (n : Nat) : Chip :=
  (((d.setLane n { d.lane n with los := true }).count (R.LN_LOS_CNT n)).flag (R.LN_EVENT n) 0).ev (srcLane n) 0x0100 0

theorem Chip.lane_losRaised (d : Chip) (n : Nat) : (d.losRaised n).lane n = { d.lane n with los := true } := by
  unfold Chip.losRaised
  rw [Chip.lane_congr (Chip.blind_lanes.toBlind.ev _ _ _ _)]
  exact Chip.lane_setLane_same d n _

theorem Chip.rd_losRaised (d : Chip) (n : Nat) {i o : Nat} (he : o % 2 ^ 12 ≠ 0x024 % 2 ^ 12)
    (hc : o % 2 ^ 12 ≠ 0x030 % 2 ^ 12) : (d.losRaised n).rd ⟨.lane, i, o⟩ = d.rd ⟨.lane, i, o⟩ := by
  have hev : (RegId.mk .lane i o).key ≠ (R.LN_EVENT n).key := RegId.key_ne_of_offs he
  have hcnt : (RegId.mk .lane i o).key ≠ (R.LN_LOS_CNT n).key := RegId.key_ne_of_offs hc
  rw [Chip.losRaised, Chip.rd_ev_of_blk _ _ _ _ _ (show Blk.lane ≠ Blk.eng by decide), Chip.rd_flag_other _ _ hev,
    Chip.rd_count_other _ _ hcnt]
  rfl

theorem Chip.clkLane_losRaised (d : Chip) (n m : Nat) : (d.losRaised n).clkLane m = d.clkLane m :=
  Chip.clkLane_congr_of_rd (fun _ => Chip.rd_losRaised d n (by decide) (by decide))
    (fun _ => Chip.rd_losRaised d n (by decide) (by decide)) (fun _ => Chip.rd_losRaised d n (by decide) (by decide)) m

theorem Chip.mem_clkUsers_losRaised {d : Chip} {n m : Nat} (hm : m < 128) (he : d.laneEn m = true)
    (hc : d.clkLane m = some n) : m ∈ (d.losRaised n).clkUsers n := by
  have hctrl : (d.losRaised n).rd (R.LN_CTRL m) = d.rd (R.LN_CTRL m) :=
    Chip.rd_losRaised d n (by decide) (by decide)
  have hen : (d.losRaised n).laneEn m = true := by
    simp only [Chip.laneEn, hm, if_true, Chip.rb, hctrl] at he ⊢
    exact he
  simp [Chip.clkUsers, hm, hen, Chip.clkLane_losRaised, hc]

section LosSet

variable {d : Chip} {n : Nat} (he : d.laneEn n = true) (hb : (d.lane n).calBusy = false) (hl : (d.lane n).los = false)
  (hp : (d.lane n).present = false) (ht : (d.lane n).since + d.rf (R.LN_LOS_SET n) 19 0 * 100 ≤ d.core)

include he hb hl hp ht

theorem Chip.losSet_eq : d.losSet n = (((d.losRaised n).clkUsers n).foldl (fun x m => x.holdover (d.lane n).meas m)
    (d.losRaised n)).syncLane n :=
  if_neg (by simpa [he, hb, hl, hp] using ht)

theorem Chip.lane_losSet : ((d.losSet n).lane n).los = true := by
  rw [Chip.losSet_eq he hb hl hp ht, Chip.lane_congr (Chip.blind_lanes.toBlind.syncLane _ n),
    foldl_keeps (fun x : Chip => (x.lane n).los) _ (fun x m => Chip.holdover_los x _ m n), Chip.lane_losRaised]

theorem Chip.rd_losSet {r : RegId} (hr : r.blk = .lane) :
    (d.losSet n).rd r = (((d.losRaised n).clkUsers n).foldl (fun x m => x.holdover (d.lane n).meas m)
      (d.losRaised n)).rd r := by
  rw [Chip.losSet_eq he hb hl hp ht]
  exact (Chip.blind_rd hr).toBlind.syncLane _ n

theorem Chip.rb_losSet : (d.losSet n).rb (R.LN_EVENT n) 0 = true := by
  unfold Chip.rb
  rw [Chip.rd_losSet he hb hl hp ht rfl]
  refine (foldl_keeps (fun x : Chip => x.rb (R.LN_EVENT n) 0) _
    (fun x m => Chip.rb_holdover_event x _ m n) _ _).trans ?_
  rw [Chip.losRaised, Chip.rb_ev _ _ _ _ (show Blk.lane ≠ Blk.eng by decide)]
  exact Chip.rb_flag_same _ _ 0 (by decide)

theorem Chip.rd_losSet_cnt :
    ((d.losSet n).rd (R.LN_LOS_CNT n)).toNat = min ((d.rd (R.LN_LOS_CNT n)).toNat + 1) 0xFFFFFFFF := by
  have hev (m : Nat) : (R.LN_LOS_CNT n).key ≠ (R.LN_EVENT m).key := RegId.key_ne_of_offs (by decide)
  rw [Chip.rd_losSet he hb hl hp ht rfl,
    foldl_keeps (fun x : Chip => x.rd (R.LN_LOS_CNT n)) _ (fun x m => Chip.rd_holdover x _ m rfl (hev m)),
    Chip.losRaised, Chip.rd_ev_of_blk _ _ _ _ _ (show Blk.lane ≠ Blk.eng by decide), Chip.rd_flag_other _ _ (hev n), Chip.rd_count_same]
  rfl

theorem Chip.txHold_losSet {m : Nat} (hm : m < 128) (hen : d.laneEn m = true) (hc : d.clkLane m = some n) :
    ((d.losSet n).lane m).txHold = some (d.lane n).meas := by
  rw [Chip.losSet_eq he hb hl hp ht, Chip.lane_congr (Chip.blind_lanes.toBlind.syncLane _ n)]
  refine foldl_reaches (P := fun x => (x.lane m).txHold = some (d.lane n).meas) (fun x k hx => ?_) (a := m)
    (fun x => ?_) (Chip.mem_clkUsers_losRaised hm hen hc) _
  · rw [Chip.lane_holdover]
    split
    · rfl
    · exact hx
  · rw [Chip.lane_holdover, if_pos rfl]

end LosSet

theorem Chip.losSet_idle {d : Chip} {n : Nat} (h : d.laneEn n = false ∨ (d.lane n).calBusy = true
    ∨ (d.lane n).los = true ∨ (d.lane n).present = true ∨ d.core < (d.lane n).since + d.rf (R.LN_LOS_SET n) 19 0 * 100) : d.losSet n = d :=
  if_pos (by simpa using h)

/-! ## Loss of signal is cleared (R35, R40) -/

/-- The holdover of lane `m`, which transmits with the clock of lane `n`, ends or begins to slew back. -/
def Chip.clockBack (d : Chip) (n m : Nat) : Chip :=
  let y := d.lane m
  match y.txHold with
  | some h =>
    if -1 ≤ h - d.rxFreq n ∧ h - d.rxFreq n ≤ 1 then d.setLane m { y with txHold := none, slewFrom := none }
    else d.setLane m { y with slewFrom := some d.core }
  | none => d

theorem Chip.clockBack_los (d : Chip) (n m k : Nat) : ((d.clockBack n m).lane k).los = (d.lane k).los := by
  have hlane (l : Lane) (h : l.los = (d.lane m).los) : ((d.setLane m l).lane k).los = (d.lane k).los := by
    obtain rfl | hk := eq_or_ne k m
    · rw [Chip.lane_setLane_same, h]
    · rw [Chip.lane_setLane_other d l hk]
  unfold Chip.clockBack
  dsimp only
  split
  · split
    · exact hlane _ rfl
    · exact hlane _ rfl
  · rfl

theorem Chip.clockBack_regs (d : Chip) (n m : Nat) : (d.clockBack n m).regs = d.regs := by
  unfold Chip.clockBack
  dsimp only
  split
  · split
    · rfl
    · rfl
  · rfl

/-- LOS is cleared on lane `n`. -/
def Chip.losCleared (d : Chip) (n : Nat) : Chip :=
  ((d.setLane n { d.lane n with los := false }).flag (R.LN_EVENT n) 1).ev (srcLane n) 0x0101 0

section LosClr

variable {d : Chip} {n : Nat} (he : d.laneEn n = true) (hb : (d.lane n).calBusy = false) (hl : (d.lane n).los = true)
  (hp : (d.lane n).present = true) (ht : (d.lane n).since + d.rf (R.LN_LOS_CLR n) 19 0 * 100 ≤ d.core)

include he hb hl hp ht

theorem Chip.losClr_eq :
    d.losClr n = (((d.losCleared n).clkUsers n).foldl (fun x m => x.clockBack n m) (d.losCleared n)).syncLane n :=
  if_neg (by simpa [he, hb, hl, hp] using ht)

theorem Chip.lane_losClr : ((d.losClr n).lane n).los = false := by
  rw [Chip.losClr_eq he hb hl hp ht, Chip.lane_congr (Chip.blind_lanes.toBlind.syncLane _ n),
    foldl_keeps (fun x : Chip => (x.lane n).los) _ (fun x m => Chip.clockBack_los x n m n), Chip.losCleared,
    Chip.lane_congr (Chip.blind_lanes.toBlind.ev _ _ _ _)]
  exact congrArg Lane.los (Chip.lane_setLane_same d n _)

theorem Chip.rb_losClr : (d.losClr n).rb (R.LN_EVENT n) 1 = true := by
  have hsync := (Chip.blind_rd (r := R.LN_EVENT n) rfl).toBlind.syncLane
    (((d.losCleared n).clkUsers n).foldl (fun x m => x.clockBack n m) (d.losCleared n)) n
  have hregs := foldl_keeps Chip.regs (fun (x : Chip) m => x.clockBack n m) (fun x m => Chip.clockBack_regs x n m)
    ((d.losCleared n).clkUsers n) (d.losCleared n)
  unfold Chip.rb
  rw [Chip.losClr_eq he hb hl hp ht, hsync, Chip.rd_congr hregs, Chip.losCleared,
    Chip.rd_ev_of_blk _ _ _ _ _ (show Blk.lane ≠ Blk.eng by decide)]
  exact Chip.rb_flag_same _ _ 1 (by decide)

end LosClr

theorem Chip.losClr_idle {d : Chip} {n : Nat} (h : d.laneEn n = false ∨ (d.lane n).calBusy = true
    ∨ (d.lane n).los = false ∨ (d.lane n).present = false ∨ d.core < (d.lane n).since + d.rf (R.LN_LOS_CLR n) 19 0 * 100) : d.losClr n = d :=
  if_pos (by simpa using h)

/-! ## The set and clear times (R41) -/

theorem fixedLane_eq_false (n : Nat) {o : Nat} (h : [0x000, 0x004, 0x008, 0x00C, 0x010, 0x100].contains o = false) :
    fixedLane n o = false := by
  rw [fixedLane, h, Bool.and_false]

theorem Chip.writeLane_losSet (d : Chip) (n : Nat) (w : Word) :
    d.writeLane n (R.LN_LOS_SET n) (d.reach (R.LN_LOS_SET n)) w
      = (.ok, d.store (R.LN_LOS_SET n) (fixField 23 1000 w 19 0)) := by
  unfold Chip.writeLane
  rw [show fixedLane n (R.LN_LOS_SET n).off = false from fixedLane_eq_false n (o := 0x014) (by decide)]
  rfl

theorem Chip.writeLane_losClr (d : Chip) (n : Nat) (w : Word) :
    d.writeLane n (R.LN_LOS_CLR n) (d.reach (R.LN_LOS_CLR n)) w
      = (.ok, d.store (R.LN_LOS_CLR n) (fixField 100 1000000 w 19 0)) := by
  unfold Chip.writeLane
  rw [show fixedLane n (R.LN_LOS_CLR n).off = false from fixedLane_eq_false n (o := 0x018) (by decide)]
  rfl

/-- A stored word is the only change of a write that is answered OK. -/
theorem Dev.only_store (x : Dev) (t : RegId) (w : Word) (st : Status) :
    x.only ⟨(x.cleared.chip.store t w).answer st, x.mem⟩
      ∧ x.regsBut ⟨(x.cleared.chip.store t w).answer st, x.mem⟩ [t] :=
  ⟨Dev.only_of_besides (fun _ _ => rfl) (Chip.store_besides x.cleared.chip t w x.chip) (x.sameMem_mk _),
    fun r hr _ => Chip.rd_store_other x.cleared.chip w (hr t (by simp))⟩

/-! ## The commands -/

theorem exec_signalChange (n : Nat) (trans : Bool) (freq : Int) (s : State) :
    exec (.signalChange n trans freq) s = command (laneOk n) true (fun x => x.laneSignal n trans freq) s := rfl

theorem exec_losSetExpiry (n : Nat) (s : State) :
    exec (.losSetExpiry n) s = command (laneOk n) false (fun x => x.on (fun d => d.losSet n)) s := rfl

theorem exec_losClrExpiry (n : Nat) (s : State) :
    exec (.losClrExpiry n) s = command (laneOk n) false (fun x => x.on (fun d => d.losClr n)) s := rfl

theorem exec_losTimerConfig_set (sess n : Nat) (w : Word) (s : State) :
    exec (.losTimerConfig sess n false w) s
      = command (laneOk n) false (fun x => x.hostWrite sess (R.LN_LOS_SET n) w) s := rfl

theorem exec_losTimerConfig_clr (sess n : Nat) (w : Word) (s : State) :
    exec (.losTimerConfig sess n true w) s
      = command (laneOk n) false (fun x => x.hostWrite sess (R.LN_LOS_CLR n) w) s := rfl

section Commands

variable (q : List Instr) {x : Dev} {n : Nat} (hn : n < 140)

include hn

theorem does_signalChange_pin (trans : Bool) (freq : Int) :
    Does (.signalChange n trans freq) ⟨q, x⟩
      (fun y => (y.chip.lane n).trans = trans ∧ (y.chip.lane n).freq = freq ∧ x.sameMem y) := by
  have he := exec_signalChange n trans freq ⟨q, x⟩
  rw [show laneOk n = true from decide_eq_true hn, command_pin] at he
  exact ⟨_, he, rfl, x.cleared.lane_laneSignal n trans freq⟩

theorem does_losSetExpiry_idle (h : x.chip.laneEn n = false ∨ (x.chip.lane n).calBusy = true
    ∨ (x.chip.lane n).los = true ∨ (x.chip.lane n).present = true
    ∨ x.chip.core < (x.chip.lane n).since + x.chip.rf (R.LN_LOS_SET n) 19 0 * 100) :
    Does (.losSetExpiry n) ⟨q, x⟩ x.idle :=
  does_idle (exec_losSetExpiry n ⟨q, x⟩) (decide_eq_true hn) (Chip.losSet_idle h)

theorem does_losClrExpiry_idle (h : x.chip.laneEn n = false ∨ (x.chip.lane n).calBusy = true
    ∨ (x.chip.lane n).los = false ∨ (x.chip.lane n).present = false
    ∨ x.chip.core < (x.chip.lane n).since + x.chip.rf (R.LN_LOS_CLR n) 19 0 * 100) :
    Does (.losClrExpiry n) ⟨q, x⟩ x.idle :=
  does_idle (exec_losClrExpiry n ⟨q, x⟩) (decide_eq_true hn) (Chip.losClr_idle h)

variable (hx : x.live)

include hx

theorem does_signalChange (he : x.chip.laneEn n = true) (hl : x.chip.laneLoop n ≠ 1) (trans : Bool) (freq : Int) :
    let now := trans && (x.chip.lane n).lock && freqOk freq
    Does (.signalChange n trans freq) ⟨q, x⟩ (fun y => (y.chip.lane n).trans = trans ∧ (y.chip.lane n).freq = freq
      ∧ (y.chip.lane n).present = now ∧ (y.chip.lane n).meas = (if now then freq else (x.chip.lane n).meas)
      ∧ (y.chip.lane n).since = (if now = (x.chip.lane n).present then (x.chip.lane n).since else x.chip.core)
      ∧ (y.chip.rd (R.LN_FLAP_CNT n)).toNat
          = min ((x.chip.rd (R.LN_FLAP_CNT n)).toNat + b2n ((x.chip.lane n).present && !now)) 0xFFFFFFFF
      ∧ (∀ m, m ≠ n → y.chip.lane m = x.chip.lane m)
      ∧ x.only y (fun c => { c with lanes := y.chip.lanes }) ∧ x.regsBut y [R.LN_FLAP_CNT n]) := by
  intro now
  refine does_of_command (exec_signalChange n trans freq ⟨q, x⟩) (decide_eq_true hn) hx ?_
  rw [Dev.laneSignal_live (x := x.cleared) hx]
  have hlane := Chip.lane_signalChange (d := x.cleared.chip) (trans := trans) (freq := freq) he hl
  refine ⟨congrArg Lane.trans hlane, congrArg Lane.freq hlane, congrArg Lane.present hlane, congrArg Lane.meas hlane,
    congrArg Lane.since hlane, Chip.rd_signalChange_flap (d := x.cleared.chip) he hl,
    fun m hm => Chip.lane_signalChange_other (d := x.cleared.chip) hm, ?_, fun r hr _ => ?_⟩
  · exact Dev.only_of_besides (fun _ _ => rfl) (Chip.signalChange_besides (d := x.cleared.chip) x.chip)
      (x.sameMem_on _)
  · exact Chip.rd_signalChange_other (d := x.cleared.chip) (hr _ (by simp))

theorem does_losSetExpiry (he : x.chip.laneEn n = true) (hb : (x.chip.lane n).calBusy = false)
    (hl : (x.chip.lane n).los = false) (hp : (x.chip.lane n).present = false)
    (ht : (x.chip.lane n).since + x.chip.rf (R.LN_LOS_SET n) 19 0 * 100 ≤ x.chip.core) :
    Does (.losSetExpiry n) ⟨q, x⟩ (fun y => (y.chip.lane n).los = true ∧ y.chip.rb (R.LN_EVENT n) 0 = true
      ∧ (y.chip.rd (R.LN_LOS_CNT n)).toNat = min ((x.chip.rd (R.LN_LOS_CNT n)).toNat + 1) 0xFFFFFFFF
      ∧ (∀ m < 128, x.chip.laneEn m = true → x.chip.clkLane m = some n →
          (y.chip.lane m).txHold = some (x.chip.lane n).meas)
      ∧ x.sameMem y) :=
  does_on (exec_losSetExpiry n ⟨q, x⟩) (decide_eq_true hn) hx rfl
    ⟨Chip.lane_losSet (d := x.cleared.chip) he hb hl hp ht, Chip.rb_losSet (d := x.cleared.chip) he hb hl hp ht,
      Chip.rd_losSet_cnt (d := x.cleared.chip) he hb hl hp ht,
      fun _ hm hen hc => Chip.txHold_losSet (d := x.cleared.chip) he hb hl hp ht hm hen hc, x.sameMem_mk _⟩

theorem does_losClrExpiry (he : x.chip.laneEn n = true) (hb : (x.chip.lane n).calBusy = false)
    (hl : (x.chip.lane n).los = true) (hp : (x.chip.lane n).present = true)
    (ht : (x.chip.lane n).since + x.chip.rf (R.LN_LOS_CLR n) 19 0 * 100 ≤ x.chip.core) :
    Does (.losClrExpiry n) ⟨q, x⟩
      (fun y => (y.chip.lane n).los = false ∧ y.chip.rb (R.LN_EVENT n) 1 = true ∧ x.sameMem y) :=
  does_on (exec_losClrExpiry n ⟨q, x⟩) (decide_eq_true hn) hx rfl
    ⟨Chip.lane_losClr (d := x.cleared.chip) he hb hl hp ht, Chip.rb_losClr (d := x.cleared.chip) he hb hl hp ht,
      x.sameMem_mk _⟩

theorem does_losTimerConfig_set {sess : Nat} {w : Word} (ha : x.allows sess (R.LN_LOS_SET n) w) :
    Does (.losTimerConfig sess n false w) ⟨q, x⟩ (fun y => y.answered .ok ∧ x.only y ∧ x.regsBut y [R.LN_LOS_SET n]
      ∧ y.chip.rf (R.LN_LOS_SET n) 19 0 = max 23 (min 1000 (fld w 19 0))) := by
  refine does_of_command (exec_losTimerConfig_set sess n w ⟨q, x⟩) (decide_eq_true hn) hx ?_
  rw [R.LN_LOS_SET, Dev.hostWrite_lane_of (Dev.allows_cleared ha) (Chip.writeLane_losSet x.cleared.chip n w)]
  obtain ⟨honly, hregs⟩ := x.only_store (R.LN_LOS_SET n) (fixField 23 1000 w 19 0) .ok
  refine ⟨Chip.answered_answer _ _ _, honly, hregs, ?_⟩
  exact (Chip.rf_store (d := x.cleared.chip) (t := R.LN_LOS_SET n) _ rfl (by decide) (by decide)).trans
    (fld_fixField 23 1000 w (by decide) (by decide) (by decide) (by decide))

theorem does_losTimerConfig_clr {sess : Nat} {w : Word} (ha : x.allows sess (R.LN_LOS_CLR n) w) :
    Does (.losTimerConfig sess n true w) ⟨q, x⟩ (fun y => y.answered .ok ∧ x.only y ∧ x.regsBut y [R.LN_LOS_CLR n]
      ∧ y.chip.rf (R.LN_LOS_CLR n) 19 0 = max 100 (min 1000000 (fld w 19 0))) := by
  refine does_of_command (exec_losTimerConfig_clr sess n w ⟨q, x⟩) (decide_eq_true hn) hx ?_
  rw [R.LN_LOS_CLR, Dev.hostWrite_lane_of (Dev.allows_cleared ha) (Chip.writeLane_losClr x.cleared.chip n w)]
  obtain ⟨honly, hregs⟩ := x.only_store (R.LN_LOS_CLR n) (fixField 100 1000000 w 19 0) .ok
  refine ⟨Chip.answered_answer _ _ _, honly, hregs, ?_⟩
  exact (Chip.rf_store (d := x.cleared.chip) (t := R.LN_LOS_CLR n) _ rfl (by decide) (by decide)).trans
    (fld_fixField 100 1000000 w (by decide) (by decide) (by decide) (by decide))

end Commands

/-- Settles O11: the raw condition is taken by `rawSignal`, and neither the engines bound to a lane nor the clocks that
depend on it change its LOS. -/
theorem lossOfSignalTimers : Obligations.LossOfSignalTimers := by
  intro q x n hn
  refine ⟨fun hx he hl trans freq => does_signalChange q hn hx he hl trans freq,
    fun trans freq _ => does_signalChange_pin q hn trans freq, fun hx => does_losSetExpiry q hn hx,
    fun hx => does_losClrExpiry q hn hx, fun h => ?_, fun h => ?_,
    fun sess w hx ha => does_losTimerConfig_set q hn hx ha, fun sess w hx ha => does_losTimerConfig_clr q hn hx ha⟩
  · exact does_losSetExpiry_idle q hn h
  · exact does_losClrExpiry_idle q hn h

/-! # Enable, disable and calibration -/

/-! ## A write of LN_CTRL, case by case (R32, R39) -/

theorem Chip.writeLane_ctrl (d : Chip) {n : Nat} (w : Word) (h : n < 128) :
    d.writeLane n (R.LN_CTRL n) (d.reach (R.LN_CTRL n)) w = d.laneCtrl n w := by
  have hf : fixedLane n (R.LN_CTRL n).off = false := by
    rw [fixedLane, decide_eq_false (by omega), Bool.false_and]
  unfold Chip.writeLane
  rw [hf]
  rfl

theorem Chip.writeLane_ctrl_fixed (d : Chip) {n : Nat} (w : Word) (h : 128 ≤ n) :
    d.writeLane n (R.LN_CTRL n) (d.reach (R.LN_CTRL n)) w = (.notPermitted, d) := by
  have hf : fixedLane n (R.LN_CTRL n).off = true := by
    rw [fixedLane, decide_eq_true h, Bool.true_and]
    rfl
  unfold Chip.writeLane
  rw [if_pos hf]

/-- LN_CTRL with TX_DISABLE as a write has it. -/
def Chip.txDisable (d : Chip) (n : Nat) (w : Word) : Chip := d.sbit (R.LN_CTRL n) 1 (bit w 1)

section LaneCtrl

variable {d : Chip} {n : Nat} {w : Word}

theorem Chip.laneCtrl_notReady (hw : bit w 0 = true) (he : d.laneEn n = false) (hr : (d.lane n).ready = false) :
    d.laneCtrl n w = (.notReady, d) := by
  simp [Chip.laneCtrl, hw, he, hr]

theorem Chip.laneCtrl_recalibrates (hw : bit w 0 = true) (he : d.laneEn n = false) (hr : (d.lane n).ready = true)
    (h2 : bit w 2 = true) : d.laneCtrl n w = (.notReady, (d.txDisable n w).recal n) := by
  simp [Chip.laneCtrl, Chip.txDisable, hw, he, hr, h2]

theorem Chip.laneCtrl_invalid (hw : bit w 0 = true) (he : d.laneEn n = false) (hr : (d.lane n).ready = true)
    (h2 : bit w 2 = false) (hc : d.laneCfgOk n = false) :
    d.laneCtrl n w = (.badParam, (d.txDisable n w).flag (R.LN_EVENT n) 9) := by
  simp [Chip.laneCtrl, Chip.txDisable, hw, he, hr, h2, hc]

theorem Chip.laneCtrl_start (hw : bit w 0 = true) (he : d.laneEn n = false) (hr : (d.lane n).ready = true)
    (h2 : bit w 2 = false) (hc : d.laneCfgOk n = true) :
    d.laneCtrl n w = (.ok, ((d.txDisable n w).sbit (R.LN_CTRL n) 0 true).laneStart n) := by
  simp [Chip.laneCtrl, Chip.txDisable, hw, he, hr, h2, hc]

theorem Chip.laneCtrl_stop (hw : bit w 0 = false) (he : d.laneEn n = true) :
    d.laneCtrl n w = (.ok, ((d.txDisable n w).sbit (R.LN_CTRL n) 0 false).laneStop n) := by
  simp [Chip.laneCtrl, Chip.txDisable, hw, he]

theorem Chip.laneCtrl_recal (hw : bit w 0 = false) (he : d.laneEn n = false) (h2 : bit w 2 = true) :
    d.laneCtrl n w = (.ok, (d.txDisable n w).recal n) := by
  simp [Chip.laneCtrl, Chip.txDisable, hw, he, h2]

end LaneCtrl

/-! ## What the cases leave -/

theorem Chip.laneEn_eq_rb (d : Chip) {n : Nat} (h : n < 128) : d.laneEn n = d.rb (R.LN_CTRL n) 0 := if_pos h

section Effects

variable (d : Chip) (n : Nat) (w : Word)

theorem Chip.rb_txDisable : (d.txDisable n w).rb (R.LN_CTRL n) 0 = d.rb (R.LN_CTRL n) 0 :=
  Chip.rb_sbit_beside d _ (by decide) (by decide)

theorem Chip.rd_txDisable {r : RegId} (h : r.key ≠ (R.LN_CTRL n).key) : (d.txDisable n w).rd r = d.rd r :=
  Chip.rd_sf_other d _ _ _ h

theorem Chip.recal_lanes :
    (d.recal n).lanes = (d.setLane n { d.lane n with ready := false, calBusy := true }).lanes := rfl

theorem Chip.lane_recal_same : (d.recal n).lane n = { d.lane n with ready := false, calBusy := true } :=
  (Chip.lane_congr (Chip.recal_lanes d n) n).trans (Chip.lane_setLane_same d n _)

theorem Chip.lane_recal_other {m : Nat} (h : m ≠ n) : (d.recal n).lane m = d.lane m :=
  (Chip.lane_congr (Chip.recal_lanes d n) m).trans (Chip.lane_setLane_other d _ h)

/-- The lane stands behind the requests that its group already has. -/
theorem Chip.cals_recal : SMap.get [] (d.recal n).cals (n / 8) = SMap.get [] d.cals (n / 8) ++ [n % 8] :=
  SMap.get_put_same _ _ _ _

theorem Chip.lane_laneStart_same : (d.laneStart n).lane n = (d.lane n).idle d.core := Chip.lane_setLane_same d n _

theorem Chip.lane_laneStart_other {m : Nat} (h : m ≠ n) : (d.laneStart n).lane m = d.lane m :=
  Chip.lane_setLane_other d _ h

/-- What is kept by all that runs on behind a lane is kept by a stop of the lane but for the lane's own state. -/
theorem Chip.BlindToHunt.laneStop {γ : Type} {f : Chip → γ} (K : Chip.BlindToHunt f) :
    f (d.laneStop n) = f (d.setLane n ((d.lane n).idle d.core)) :=
  (K.toBlind.syncLane _ n).trans (K.toBlind.foldl (fun x e => K.markEngine x e) _ _)

theorem Chip.lane_laneStop : (d.laneStop n).lane n = (d.lane n).idle d.core :=
  (Chip.lane_congr (Chip.blind_lanes.laneStop d n) n).trans (Chip.lane_setLane_same d n _)

theorem Chip.rd_laneStop {r : RegId} (h : r.blk = .lane) : (d.laneStop n).rd r = d.rd r :=
  (Chip.blind_rd h).laneStop d n

end Effects

/-! ## A calibration pass ends (R37, R39) -/

/-- The pass of one lane ends: the lane is ready, unless the group has it in its queue `l` again. -/
def Chip.calEnd (d : Chip) (g : Nat) (l : List Nat) (j : Nat) : Chip :=
  d.setLane (8 * g + j)
    { d.lane (8 * g + j) with ready := !l.contains j, calBusy := l.contains j, since := d.core }

section CalDone

variable {d : Chip} {g : Nat}

theorem Chip.calDone_nil (h : SMap.get [] d.cals g = []) : d.calDone g = d := by
  simp [Chip.calDone, h]

theorem Chip.calDone_cons {k : Nat} {l : List Nat} (h : SMap.get [] d.cals g = k :: l) :
    d.calDone g = (if k = 8 then List.range 8 else [k]).foldl (fun x j => x.calEnd g l j)
      { d with cals := SMap.put [] d.cals g l } := by
  simp only [Chip.calDone, h]
  rfl

theorem Chip.calDone_lane {k : Nat} {l : List Nat} (h : SMap.get [] d.cals g = k :: l) (hk : k < 8) (hl : k ∉ l) :
    d.calDone g = ({ d with cals := SMap.put [] d.cals g l } : Chip).setLane (8 * g + k)
      { d.lane (8 * g + k) with ready := true, calBusy := false, since := d.core } := by
  have hc : l.contains k = false := by simpa using hl
  rw [Chip.calDone_cons h, if_neg (by omega)]
  simp only [List.foldl_cons, List.foldl_nil, Chip.calEnd, hc]
  rfl

/-- The start-up pass readies every lane of its group. -/
theorem Chip.ready_calDone_all (h : SMap.get [] d.cals g = [8]) {k : Nat} (hk : k < 8) :
    ((d.calDone g).lane (8 * g + k)).ready = true := by
  have hend (x : Chip) : ((x.calEnd g [] k).lane (8 * g + k)).ready = true := by
    rw [Chip.calEnd, Chip.lane_setLane_same]
    rfl
  rw [Chip.calDone_cons h, if_pos rfl]
  refine foldl_reaches (P := fun x => (x.lane (8 * g + k)).ready = true) (fun x j hx => ?_) hend
    (List.mem_range.mpr hk) _
  obtain rfl | hj := eq_or_ne k j
  · exact hend x
  · rw [Chip.calEnd, Chip.lane_setLane_other _ _ (by omega)]
    exact hx

end CalDone

/-! ## The commands -/

theorem exec_laneEnable (sess n : Nat) (w : Word) (s : State) : exec (.laneEnable sess n w) s
    = command (laneOk n) false (fun x => x.hostWrite sess (R.LN_CTRL n) (setFld w 0 0 1)) s := rfl

theorem exec_laneDisable (sess n : Nat) (w : Word) (s : State) : exec (.laneDisable sess n w) s
    = command (laneOk n) false (fun x => x.hostWrite sess (R.LN_CTRL n) (setFld w 0 0 0)) s := rfl

theorem exec_recal (sess n : Nat) (w : Word) (s : State) : exec (.recal sess n w) s
    = command (laneOk n) false (fun x => x.hostWrite sess (R.LN_CTRL n) (setFld w 2 2 1)) s := rfl

theorem exec_laneCalibrationDone (g : Nat) (s : State) :
    exec (.laneCalibrationDone g) s = command (calGroupOk g) false (fun x => x.on (fun d => d.calDone g)) s := rfl

theorem bit_setFld_one (w : Word) {i : Nat} (h : i < 32) : bit (setFld w i i 1) i = true :=
  bit_setFld_same w 1 h

theorem bit_setFld_zero (w : Word) {i : Nat} (h : i < 32) : bit (setFld w i i 0) i = false :=
  bit_setFld_same w 0 h

section Writes

variable (q : List Instr) {x : Dev} (hx : x.live)

include hx

variable {sess n : Nat} {w : Word} (hn : n < 128)

include hn

section Enable

variable (ha : x.allows sess (R.LN_CTRL n) (setFld w 0 0 1)) (he : x.chip.laneEn n = false)

include ha he

theorem does_laneEnable_start (hr : (x.chip.lane n).ready = true) (h2 : bit w 2 = false)
    (hc : x.chip.laneCfgOk n = true) :
    Does (.laneEnable sess n w) ⟨q, x⟩ (fun y => y.answered .ok ∧ y.chip.laneEn n = true
      ∧ y.chip.lane n = (x.chip.lane n).idle x.chip.core ∧ (∀ m, m ≠ n → y.chip.lane m = x.chip.lane m)
      ∧ x.only y (fun c => { c with lanes := y.chip.lanes }) ∧ x.regsBut y [R.LN_CTRL n]) := by
  have hw := Chip.laneCtrl_start (d := x.cleared.chip) (bit_setFld_one w (by decide)) he hr
    ((bit_setFld_other w 1 (by decide) (by decide) (by decide)).trans h2) hc
  refine does_hostWrite_lane q hx (exec_laneEnable sess n w ⟨q, x⟩) (decide_eq_true (by omega)) ha
    ((Chip.writeLane_ctrl _ _ hn).trans hw) ⟨?_, ?_, fun m hm => ?_, ⟨rfl, x.sameMem_mk _⟩, fun r hr' _ => ?_⟩
  · rw [Chip.laneEn_eq_rb _ hn]
    exact Chip.rb_sbit_same _ true (by decide)
  · exact Chip.lane_laneStart_same _ n
  · exact Chip.lane_laneStart_other _ n hm
  · have hk := hr' (R.LN_CTRL n) (by simp)
    exact (Chip.rd_sf_other _ _ _ _ hk).trans (Chip.rd_txDisable _ n _ hk)

theorem does_laneEnable_invalid (hr : (x.chip.lane n).ready = true) (h2 : bit w 2 = false)
    (hc : x.chip.laneCfgOk n = false) :
    Does (.laneEnable sess n w) ⟨q, x⟩ (fun y => y.answered .badParam ∧ y.chip.laneEn n = false
      ∧ y.chip.rb (R.LN_EVENT n) 9 = true ∧ x.only y ∧ x.regsBut y [R.LN_CTRL n, R.LN_EVENT n]) := by
  have hw := Chip.laneCtrl_invalid (d := x.cleared.chip) (bit_setFld_one w (by decide)) he hr
    ((bit_setFld_other w 1 (by decide) (by decide) (by decide)).trans h2) hc
  have hk : (R.LN_CTRL n).key ≠ (R.LN_EVENT n).key := RegId.key_ne_of_offs (by decide)
  have hev := Chip.rb_flag_same (x.cleared.chip.txDisable n (setFld w 0 0 1)) (R.LN_EVENT n) 9 (by decide)
  have hen : ((x.cleared.chip.txDisable n (setFld w 0 0 1)).flag (R.LN_EVENT n) 9).rb (R.LN_CTRL n) 0 = false := by
    rw [Chip.laneEn_eq_rb _ hn] at he
    exact (Chip.rb_sf_other _ _ hk).trans ((Chip.rb_txDisable _ n _).trans he)
  have hbes := Chip.flag_answer_besides (x.cleared.chip.txDisable n (setFld w 0 0 1)) (R.LN_EVENT n) 9 .badParam x.chip
  refine does_hostWrite_lane q hx (exec_laneEnable sess n w ⟨q, x⟩) (decide_eq_true (by omega)) ha
    ((Chip.writeLane_ctrl _ _ hn).trans hw)
    ⟨(Chip.laneEn_eq_rb _ hn).trans ((Chip.rb_answer _ _ _ _).trans hen), (Chip.rb_answer _ _ _ _).trans hev,
      Dev.only_of_besides (f := id) (fun _ _ => rfl) hbes (x.sameMem_mk _), fun r hr' _ => ?_⟩
  have hfl := Chip.rd_flag_other (x.cleared.chip.txDisable n (setFld w 0 0 1)) 9 (hr' (R.LN_EVENT n) (by simp))
  exact (Chip.rd_answer _ _ r).trans (hfl.trans (Chip.rd_txDisable _ n _ (hr' (R.LN_CTRL n) (by simp))))

theorem does_laneEnable_recalibrates (hr : (x.chip.lane n).ready = true) (h2 : bit w 2 = true) :
    Does (.laneEnable sess n w) ⟨q, x⟩ (fun y => y.answered .notReady ∧ y.chip.laneEn n = false
      ∧ (y.chip.lane n).ready = false
      ∧ SMap.get [] y.chip.cals (n / 8) = SMap.get [] x.chip.cals (n / 8) ++ [n % 8] ∧ x.sameMem y) := by
  have hw := Chip.laneCtrl_recalibrates (d := x.cleared.chip) (bit_setFld_one w (by decide)) he hr
    ((bit_setFld_other w 1 (by decide) (by decide) (by decide)).trans h2)
  rw [Chip.laneEn_eq_rb _ hn] at he
  refine does_hostWrite_lane q hx (exec_laneEnable sess n w ⟨q, x⟩) (decide_eq_true (by omega)) ha
    ((Chip.writeLane_ctrl _ _ hn).trans hw) ⟨?_, ?_, ?_, x.sameMem_mk _⟩
  · rw [Chip.laneEn_eq_rb _ hn]
    exact (Chip.rb_txDisable _ n _).trans he
  · exact congrArg Lane.ready (Chip.lane_recal_same _ n)
  · exact Chip.cals_recal _ n

theorem does_laneEnable_notReady (hr : (x.chip.lane n).ready = false) :
    Does (.laneEnable sess n w) ⟨q, x⟩
      (fun y => y.answered .notReady ∧ y.chip.laneEn n = false ∧ x.only y ∧ x.regsBut y []) :=
  does_hostWrite_lane q hx (exec_laneEnable sess n w ⟨q, x⟩) (decide_eq_true (by omega)) ha
    ((Chip.writeLane_ctrl _ _ hn).trans
      (Chip.laneCtrl_notReady (d := x.cleared.chip) (bit_setFld_one w (by decide)) he hr))
    ⟨he, ⟨rfl, x.sameMem_mk _⟩, fun _ _ _ => rfl⟩

end Enable

theorem does_laneDisable (ha : x.allows sess (R.LN_CTRL n) (setFld w 0 0 0)) (he : x.chip.laneEn n = true) :
    Does (.laneDisable sess n w) ⟨q, x⟩ (fun y => y.answered .ok ∧ y.chip.laneEn n = false
      ∧ (y.chip.lane n).los = false ∧ (y.chip.lane n).lock = false ∧ (y.chip.lane n).present = false ∧ x.sameMem y
      ∧ y.chip.rd (R.LN_LOS_CNT n) = x.chip.rd (R.LN_LOS_CNT n)
      ∧ y.chip.rd (R.LN_LOCK_LOSS_CNT n) = x.chip.rd (R.LN_LOCK_LOSS_CNT n)
      ∧ y.chip.rd (R.LN_FLAP_CNT n) = x.chip.rd (R.LN_FLAP_CNT n)) := by
  have hw := Chip.laneCtrl_stop (d := x.cleared.chip) (bit_setFld_zero w (by decide)) he
  have hlane := Chip.lane_laneStop ((x.cleared.chip.txDisable n (setFld w 0 0 0)).sbit (R.LN_CTRL n) 0 false) n
  have hrd {o : Nat} (ho : o % 2 ^ 12 ≠ 0 % 2 ^ 12) :
      (((x.cleared.chip.txDisable n (setFld w 0 0 0)).sbit (R.LN_CTRL n) 0 false).laneStop n).rd ⟨.lane, n, o⟩
        = x.chip.rd ⟨.lane, n, o⟩ := by
    have hk : (RegId.mk .lane n o).key ≠ (R.LN_CTRL n).key := RegId.key_ne_of_offs ho
    rw [Chip.rd_laneStop _ n rfl]
    exact (Chip.rd_sf_other _ _ _ _ hk).trans (Chip.rd_txDisable _ n _ hk)
  refine does_hostWrite_lane q hx (exec_laneDisable sess n w ⟨q, x⟩) (decide_eq_true (by omega)) ha
    ((Chip.writeLane_ctrl _ _ hn).trans hw)
    ⟨?_, congrArg Lane.los hlane, congrArg Lane.lock hlane, congrArg Lane.present hlane, x.sameMem_mk _,
      hrd (by decide), hrd (by decide), hrd (by decide)⟩
  rw [Chip.laneEn_eq_rb _ hn]
  exact (congrArg (bit · 0) (Chip.rd_laneStop _ n (r := R.LN_CTRL n) rfl)).trans (Chip.rb_sbit_same _ false (by decide))

theorem does_recal (ha : x.allows sess (R.LN_CTRL n) (setFld w 2 2 1)) (he : x.chip.laneEn n = false)
    (h0 : bit w 0 = false) :
    Does (.recal sess n w) ⟨q, x⟩ (fun y => y.answered .ok ∧ (y.chip.lane n).ready = false
      ∧ (y.chip.lane n).calBusy = true
      ∧ SMap.get [] y.chip.cals (n / 8) = SMap.get [] x.chip.cals (n / 8) ++ [n % 8]
      ∧ (∀ m, m ≠ n → y.chip.lane m = x.chip.lane m)
      ∧ x.only y (fun c => { c with lanes := y.chip.lanes, cals := y.chip.cals }) ∧ x.regsBut y [R.LN_CTRL n]) := by
  have hw := Chip.laneCtrl_recal (d := x.cleared.chip)
    ((bit_setFld_other w 1 (hi := 2) (lo := 2) (by decide) (by decide) (by decide)).trans h0) he
    (bit_setFld_one w (by decide))
  have hlane := Chip.lane_recal_same (x.cleared.chip.txDisable n (setFld w 2 2 1)) n
  exact does_hostWrite_lane q hx (exec_recal sess n w ⟨q, x⟩) (decide_eq_true (by omega)) ha
    ((Chip.writeLane_ctrl _ _ hn).trans hw)
    ⟨congrArg Lane.ready hlane, congrArg Lane.calBusy hlane, Chip.cals_recal _ n,
      fun m hm => Chip.lane_recal_other _ n hm, ⟨rfl, x.sameMem_mk _⟩,
      fun r hr _ => Chip.rd_txDisable x.cleared.chip n _ (hr (R.LN_CTRL n) (by simp))⟩

end Writes

section Others

variable (q : List Instr) {x : Dev} (hx : x.live)

include hx

theorem does_laneEnable_fixed {sess n : Nat} {w : Word} (h1 : 128 ≤ n) (h2 : n < 140)
    (ha : x.allows sess (R.LN_CTRL n) (setFld w 0 0 1)) :
    Does (.laneEnable sess n w) ⟨q, x⟩
      (fun y => y.answered .notPermitted ∧ y.chip.laneEn n = x.chip.laneEn n ∧ x.only y ∧ x.regsBut y []) :=
  does_hostWrite_lane q hx (exec_laneEnable sess n w ⟨q, x⟩) (decide_eq_true h2) ha (Chip.writeLane_ctrl_fixed _ _ h1)
    ⟨rfl, ⟨rfl, x.sameMem_mk _⟩, fun _ _ _ => rfl⟩

variable {g : Nat} (hg : g < 16)

include hg

theorem does_laneCalibrationDone {k : Nat} {l : List Nat} (h : SMap.get [] x.chip.cals g = k :: l) (hk : k < 8)
    (hl : k ∉ l) :
    Does (.laneCalibrationDone g) ⟨q, x⟩ (fun y => (y.chip.lane (8 * g + k)).ready = true
      ∧ (y.chip.lane (8 * g + k)).calBusy = false ∧ SMap.get [] y.chip.cals g = l
      ∧ (∀ m, m ≠ 8 * g + k → y.chip.lane m = x.chip.lane m)
      ∧ x.only y (fun c => { c with lanes := y.chip.lanes, cals := y.chip.cals }) ∧ x.regsBut y []) := by
  refine does_on (exec_laneCalibrationDone g ⟨q, x⟩) (decide_eq_true hg) hx
    (Chip.calDone_lane (d := x.cleared.chip) h hk hl)
    ⟨?_, ?_, SMap.get_put_same _ _ _ _, fun m hm => ?_, ⟨rfl, x.sameMem_mk _⟩, fun _ _ _ => rfl⟩
  · rw [Chip.lane_setLane_same]
  · rw [Chip.lane_setLane_same]
  · exact Chip.lane_setLane_other _ _ hm

theorem does_laneCalibrationDone_all (h : SMap.get [] x.chip.cals g = [8]) :
    Does (.laneCalibrationDone g) ⟨q, x⟩ (fun y => ∀ k < 8, (y.chip.lane (8 * g + k)).ready = true) :=
  does_on (exec_laneCalibrationDone g ⟨q, x⟩) (decide_eq_true hg) hx rfl
    fun _ hk => Chip.ready_calDone_all (d := x.cleared.chip) h hk

end Others

theorem does_laneCalibrationDone_idle (q : List Instr) {x : Dev} {g : Nat} (hg : g < 16)
    (h : SMap.get [] x.chip.cals g = []) : Does (.laneCalibrationDone g) ⟨q, x⟩ x.idle :=
  does_idle (exec_laneCalibrationDone g ⟨q, x⟩) (decide_eq_true hg) (Chip.calDone_nil (d := x.cleared.chip) h)

/-- Settles O10: a write of LN_CTRL that its checks allow is `laneCtrl`, one lemma for each of its cases. -/
theorem laneEnableAndCalibration : Obligations.LaneEnableAndCalibration := by
  intro q x hx
  refine ⟨fun sess n w => ⟨fun hn ha he => ⟨?_, ?_, ?_, ?_⟩, fun hn ha he => does_laneDisable q hx hn ha he,
      fun h1 h2 ha => does_laneEnable_fixed q hx h1 h2 ha⟩,
    fun sess n w hn ha he h0 => does_recal q hx hn ha he h0,
    fun g k l hg h hk hl => does_laneCalibrationDone q hx hg h hk hl,
    fun g hg h => does_laneCalibrationDone_all q hx hg h, fun g hg h => does_laneCalibrationDone_idle q hg h⟩
  · exact does_laneEnable_start q hx hn ha he
  · exact does_laneEnable_invalid q hx hn ha he
  · exact does_laneEnable_recalibrates q hx hn ha he
  · exact does_laneEnable_notReady q hx hn ha he

/-! # Modules and their buses -/

/-! ## Module signals (R49) -/

theorem Dev.moduleSignal_live {x : Dev} (hx : x.live) (k : Nat) (prs int : Bool) :
    x.moduleSignal k prs int = x.on (fun d => d.moduleChange k prs int) := by
  unfold Dev.moduleSignal
  rw [show x.chip.inReset = false from hx]
  rfl

/-- The filtered levels of a cage as LN_QUAD_MOD shows them. -/
def Chip.showModule (d : Chip) (i : Nat) (prs int : Bool) : Chip :=
  (d.sbit (R.LN_QUAD_MOD i) 0 prs).sbit (R.LN_QUAD_MOD i) 1 int

section ModuleChange

variable {d : Chip} {k : Nat} {prs int : Bool}

theorem Chip.moduleChange_same (h0 : d.rb (R.LN_QUAD_MOD (cageIdx k)) 0 = prs)
    (h1 : d.rb (R.LN_QUAD_MOD (cageIdx k)) 1 = int) : d.moduleChange k prs int = d :=
  if_pos ⟨h0, h1⟩

theorem Chip.moduleChange_eq
    (h : d.rb (R.LN_QUAD_MOD (cageIdx k)) 0 ≠ prs ∨ d.rb (R.LN_QUAD_MOD (cageIdx k)) 1 ≠ int) :
    d.moduleChange k prs int
      = (d.showModule (cageIdx k) prs int).ev (srcLane (cageIdx k)) 0x0104 (b2n prs + b2n int * 2) :=
  if_neg fun hc => h.elim (· hc.1) (· hc.2)

theorem Chip.rb_showModule (i : Nat) : (d.showModule i prs int).rb (R.LN_QUAD_MOD i) 0 = prs
    ∧ (d.showModule i prs int).rb (R.LN_QUAD_MOD i) 1 = int :=
  ⟨(Chip.rb_sbit_beside _ int (by decide) (by decide)).trans (Chip.rb_sbit_same d prs (by decide)),
    Chip.rb_sbit_same _ int (by decide)⟩

theorem Chip.rd_showModule {i : Nat} {r : RegId} (h : r.key ≠ (R.LN_QUAD_MOD i).key) :
    (d.showModule i prs int).rd r = d.rd r :=
  (Chip.rd_sf_other _ _ _ _ h).trans (Chip.rd_sf_other d _ _ _ h)

end ModuleChange

/-! ## A write of LN_MMB_CMD, case by case (R50) -/

theorem cageOf_cageIdx {k : Nat} (h : k < 34) : cageOf (cageIdx k) = k := by
  unfold cageOf cageIdx
  split
  · rw [if_pos (by omega)]
    omega
  · split
    · rw [if_neg (by omega), if_pos (by omega)]
      omega
    · rw [if_neg (by omega), if_neg (by omega)]
      omega

theorem Chip.writeLane_mmb (d : Chip) {k : Nat} (w : Word) (h : k < 34) :
    d.writeLane (cageIdx k) (R.LN_MMB_CMD (cageIdx k)) (d.reach (R.LN_MMB_CMD (cageIdx k))) w = d.mmbGo k w := by
  unfold Chip.writeLane
  rw [show fixedLane (cageIdx k) (R.LN_MMB_CMD (cageIdx k)).off = false from
    fixedLane_eq_false _ (o := 0x10C) (by decide)]
  exact congrArg (fun c => d.mmbGo c w) (cageOf_cageIdx h)

@[simp] theorem Chip.mmb_setMmb_same (d : Chip) (k : Nat) (b : Mmb) : (d.setMmb k b).mmb k = b :=
  SMap.get_put_same _ _ _ _

theorem Chip.mmb_congr {d c : Chip} (h : c.mmbs = d.mmbs) (k : Nat) : c.mmb k = d.mmb k := by
  unfold Chip.mmb
  rw [h]

/-- A transaction of a module bus begins. -/
def Chip.mmbStart (d : Chip) (k : Nat) (w : Word) : Chip :=
  ((d.setMmb k ⟨true, bit w 16, fld w 15 8, fld w 7 0 % 128 + 1, d.core⟩).sf (R.LN_MMB_STATUS (cageIdx k)) 15 8 0).sbit
    (R.LN_MMB_STATUS (cageIdx k)) 0 true

/-- The fields of a written LN_MMB_CMD beside GO. -/
theorem mmbFields_setFld (w : Word) : bit (setFld w 31 31 1) 16 = bit w 16
    ∧ fld (setFld w 31 31 1) 15 8 = fld w 15 8 ∧ fld (setFld w 31 31 1) 7 0 = fld w 7 0 :=
  ⟨bit_setFld_other w 1 (by decide) (by decide) (by decide),
    fld_setFld_other w 1 (by decide) (by decide) (by decide),
    fld_setFld_other w 1 (by decide) (by decide) (by decide)⟩

section MmbGo

variable {d : Chip} {k : Nat} {w : Word}

theorem Chip.mmbGo_busy (hw : bit w 31 = true) (hb : (d.mmb k).busy = true) :
    d.mmbGo k w = (.busy, d.flag (R.LN_MMB_STATUS (cageIdx k)) 6) := by
  simp [Chip.mmbGo, hw, hb]

theorem Chip.mmbGo_absent (hw : bit w 31 = true) (hb : (d.mmb k).busy = false)
    (hp : d.rb (R.LN_QUAD_MOD (cageIdx k)) 0 = false) :
    d.mmbGo k w
      = (.ok, (d.flag (R.LN_MMB_STATUS (cageIdx k)) 1).flag (R.LN_MMB_STATUS (cageIdx k)) 5) := by
  simp [Chip.mmbGo, hw, hb, hp]

theorem Chip.mmbGo_start (hw : bit w 31 = true) (hb : (d.mmb k).busy = false)
    (hp : d.rb (R.LN_QUAD_MOD (cageIdx k)) 0 = true) :
    ∃ o : Out, d.mmbGo k w = (.ok, (d.mmbStart k w).emit o) := by
  simp [Chip.mmbGo, Chip.mmbStart, hw, hb, hp]

theorem Chip.mmbStart_congr {v : Word} (h1 : bit v 16 = bit w 16) (h2 : fld v 15 8 = fld w 15 8)
    (h3 : fld v 7 0 = fld w 7 0) : d.mmbStart k v = d.mmbStart k w := by
  simp only [Chip.mmbStart, h1, h2, h3]

theorem Chip.mmb_mmbStart :
    (d.mmbStart k w).mmb k = ⟨true, bit w 16, fld w 15 8, fld w 7 0 % 128 + 1, d.core⟩ :=
  (Chip.mmb_congr (d := d.setMmb k ⟨true, bit w 16, fld w 15 8, fld w 7 0 % 128 + 1, d.core⟩) rfl k).trans
    (Chip.mmb_setMmb_same d k _)

theorem Chip.rd_mmbStart {r : RegId} (h : r.key ≠ (R.LN_MMB_STATUS (cageIdx k)).key) : (d.mmbStart k w).rd r = d.rd r :=
  (Chip.rd_sf_other _ _ _ _ h).trans (Chip.rd_sf_other _ _ _ _ h)

end MmbGo

/-! ## The bytes of a transaction -/

/-- The four bytes of a word. -/
theorem beBytes_ofBytes {l : List Byte} (h : l.length = 4) : beBytes 4 (w32 (ofBytes l)).toNat = l := by
  obtain ⟨a, b, c, e, rfl⟩ := List.length_eq_four.mp h
  have ha := a.isLt
  have hb := b.isLt
  have hc := c.isLt
  have he := e.isLt
  simp only [beBytes, ofBytes, w32, List.foldl_cons, List.foldl_nil, BitVec.toNat_ofNat, List.cons.injEq, and_true]
  refine ⟨?_, ?_, ?_, ?_⟩ <;>
    · apply BitVec.eq_of_toNat_eq
      rw [BitVec.toNat_ofNat]
      omega

/-- A list is its groups of four, one after the other. -/
theorem flatMap_groups (l : List Byte) (m : Nat) :
    (List.range m).flatMap (fun k => (l.drop (4 * k)).take 4) = l.take (4 * m) := by
  induction m with
  | zero => simp
  | succ m ih => rw [List.range_succ, List.flatMap_append, ih, Nat.mul_succ, List.take_add]; simp

theorem Chip.length_mmbBytes (d : Chip) (i : Nat) : (d.mmbBytes i 128).length = 128 := by
  simp [Chip.mmbBytes, beBytes, List.length_flatMap]

theorem Chip.mmbBytes_congr {d c : Chip} {i : Nat}
    (h : ∀ k < 32, c.rd (R.LN_MMB_DATA i k) = d.rd (R.LN_MMB_DATA i k)) (n : Nat) :
    c.mmbBytes i n = d.mmbBytes i n := by
  unfold Chip.mmbBytes
  rw [List.flatMap_congr fun k hk => by rw [h k (List.mem_range.mp hk)]]

theorem mmbData_key_ne (i : Nat) {j m : Nat} (hj : j < 32) (hm : m < 32) (h : j ≠ m) :
    (R.LN_MMB_DATA i j).key ≠ (R.LN_MMB_DATA i m).key :=
  RegId.key_ne_of_offs (o := 0x180 + 4 * j) (o' := 0x180 + 4 * m) (by omega)

theorem mmbData_key_ne_of_lt (i j : Nat) {o k : Nat} (ho : o < 0x180) (hk : k < 32) :
    (RegId.mk .lane j o).key ≠ (R.LN_MMB_DATA i k).key :=
  RegId.key_ne_of_offs (o' := 0x180 + 4 * k) (by omega)

/-- The words `v` stand in the first `m` words of LN_MMB_DATA. -/
def Chip.putData (d : Chip) (i : Nat) (v : Nat → Word) (m : Nat) : Chip :=
  (List.range m).foldl (fun (x : Chip) k => x.wr (R.LN_MMB_DATA i k) (v k)) d

section PutData

variable (d : Chip) (i : Nat) (v : Nat → Word)

theorem Chip.putData_succ (m : Nat) : d.putData i v (m + 1) = (d.putData i v m).wr (R.LN_MMB_DATA i m) (v m) := by
  simp [Chip.putData, List.range_succ]

theorem Chip.rd_putData {m j : Nat} (hm : m ≤ 32) (hj : j < m) : (d.putData i v m).rd (R.LN_MMB_DATA i j) = v j := by
  induction m with
  | zero => exact absurd hj (Nat.not_lt_zero j)
  | succ m ih =>
    rw [Chip.putData_succ]
    obtain rfl | hne := eq_or_ne j m
    · exact Chip.rd_wr_same _ _ _
    · rw [Chip.rd_wr_other _ _ (mmbData_key_ne i (by omega) hm hne)]
      exact ih (by omega) (by omega)

theorem Chip.rd_putData_other {r : RegId} {m : Nat} (h : ∀ k < m, r.key ≠ (R.LN_MMB_DATA i k).key) :
    (d.putData i v m).rd r = d.rd r := by
  induction m with
  | zero => rfl
  | succ m ih =>
    rw [Chip.putData_succ, Chip.rd_wr_other _ _ (h m (Nat.lt_succ_self m))]
    exact ih fun k hk => h k (Nat.lt_succ_of_lt hk)

theorem Chip.putData_besides (m : Nat) (c : Chip) : (d.putData i v m).besides c = d.besides c :=
  foldl_keeps (fun x : Chip => x.besides c) (fun x k => x.wr (R.LN_MMB_DATA i k) (v k)) (fun _ _ => rfl) _ d

theorem Chip.putData_mmbs (m : Nat) : (d.putData i v m).mmbs = d.mmbs :=
  foldl_keeps Chip.mmbs (fun x k => x.wr (R.LN_MMB_DATA i k) (v k)) (fun _ _ => rfl) _ d

end PutData

section SetMmbBytes

variable (d : Chip) (i : Nat) (l : List Byte)

theorem Chip.setMmbBytes_eq : d.setMmbBytes i l = d.putData i
    (fun k => w32 (ofBytes (((l ++ (d.mmbBytes i 128).drop l.length).drop (4 * k)).take 4))) 32 := rfl

theorem Chip.rd_setMmbBytes_other {r : RegId} (h : ∀ k < 32, r.key ≠ (R.LN_MMB_DATA i k).key) :
    (d.setMmbBytes i l).rd r = d.rd r := by
  rw [Chip.setMmbBytes_eq, Chip.rd_putData_other d i _ h]

theorem Chip.setMmbBytes_besides (c : Chip) : (d.setMmbBytes i l).besides c = d.besides c := by
  rw [Chip.setMmbBytes_eq, Chip.putData_besides]

theorem Chip.setMmbBytes_mmbs : (d.setMmbBytes i l).mmbs = d.mmbs := by
  rw [Chip.setMmbBytes_eq, Chip.putData_mmbs]

/-- The bytes that were put into LN_MMB_DATA are read from it. -/
theorem Chip.mmbBytes_setMmbBytes (h : l.length ≤ 128) : (d.setMmbBytes i l).mmbBytes i l.length = l := by
  have hlen : (l ++ (d.mmbBytes i 128).drop l.length).length = 128 := by
    rw [List.length_append, List.length_drop, Chip.length_mmbBytes]
    omega
  have hword {k : Nat} (hk : k < 32) : beBytes 4 ((d.setMmbBytes i l).rd (R.LN_MMB_DATA i k)).toNat
      = ((l ++ (d.mmbBytes i 128).drop l.length).drop (4 * k)).take 4 := by
    rw [Chip.setMmbBytes_eq, Chip.rd_putData d i _ (Nat.le_refl 32) hk]
    refine beBytes_ofBytes ?_
    rw [List.length_take, List.length_drop, hlen]
    omega
  rw [Chip.mmbBytes, List.flatMap_congr fun k hk => hword (List.mem_range.mp hk), flatMap_groups,
    List.take_of_length_le (i := 4 * 32) hlen.le]
  exact List.take_left' rfl

end SetMmbBytes

/-! ## A transaction ends (R50) -/

/-- The bus is free, and LN_MMB_STATUS shows the end of a transaction after `moved` bytes. -/
def Chip.mmbStop (d : Chip) (k moved : Nat) : Chip :=
  (((d.setMmb k Mmb.init).sbit (R.LN_MMB_STATUS (cageIdx k)) 0 false).flag (R.LN_MMB_STATUS (cageIdx k)) 1).sf
    (R.LN_MMB_STATUS (cageIdx k)) 15 8 moved

/-- A transaction has ended after `moved` bytes, its status flag still to come; a read leaves `data`. -/
def Chip.mmbClose (d : Chip) (k moved : Nat) (data : List Byte) : Chip :=
  if (d.mmb k).write then d.mmbStop k moved else (d.mmbStop k moved).setMmbBytes (cageIdx k) (padTo moved 0 data)

section MmbClose

variable (d : Chip) (k moved : Nat) (data : List Byte)

theorem Chip.rb_mmbStop : (d.mmbStop k moved).rb (R.LN_MMB_STATUS (cageIdx k)) 0 = false
    ∧ (d.mmbStop k moved).rb (R.LN_MMB_STATUS (cageIdx k)) 1 = true := by
  unfold Chip.mmbStop
  rw [Chip.rb_sf_beside _ _ (by decide) (by decide) (by decide),
    Chip.rb_sf_beside _ _ (by decide) (by decide) (by decide), Chip.rb_flag_beside _ (by decide) (by decide)]
  exact ⟨Chip.rb_sbit_same _ false (by decide), Chip.rb_flag_same _ _ 1 (by decide)⟩

theorem Chip.rf_mmbStop (h : moved ≤ 128) : (d.mmbStop k moved).rf (R.LN_MMB_STATUS (cageIdx k)) 15 8 = moved := by
  rw [Chip.mmbStop, Chip.rf_sf_same _ _ _ _ _ (by decide) (by decide)]
  omega

theorem Chip.rd_mmbStop {r : RegId} (h : r.key ≠ (R.LN_MMB_STATUS (cageIdx k)).key) :
    (d.mmbStop k moved).rd r = d.rd r :=
  (Chip.rd_sf_other _ _ _ _ h).trans ((Chip.rd_flag_other _ _ h).trans (Chip.rd_sf_other _ _ _ _ h))

theorem Chip.mmbClose_mmbs : (d.mmbClose k moved data).mmbs = (d.setMmb k Mmb.init).mmbs := by
  unfold Chip.mmbClose
  split
  · rfl
  · exact Chip.setMmbBytes_mmbs _ _ _

theorem Chip.mmbClose_besides (c : Chip) :
    (d.mmbClose k moved data).besides c = { d.besides c with mmbs := (d.setMmb k Mmb.init).mmbs } := by
  unfold Chip.mmbClose
  split
  · rfl
  · exact Chip.setMmbBytes_besides _ _ _ c

/-- The registers below LN_MMB_DATA are as the end of the transaction left them. -/
theorem Chip.rd_mmbClose (i : Nat) {o : Nat} (h : o < 0x180) :
    (d.mmbClose k moved data).rd ⟨.lane, i, o⟩ = (d.mmbStop k moved).rd ⟨.lane, i, o⟩ := by
  unfold Chip.mmbClose
  split
  · rfl
  · exact Chip.rd_setMmbBytes_other _ _ _ fun j hj => mmbData_key_ne_of_lt _ _ h hj

theorem Chip.rd_mmbClose_write (hw : (d.mmb k).write = true) {r : RegId}
    (h : r.key ≠ (R.LN_MMB_STATUS (cageIdx k)).key) : (d.mmbClose k moved data).rd r = d.rd r := by
  rw [Chip.mmbClose, if_pos hw, Chip.rd_mmbStop d k moved h]

theorem Chip.mmbBytes_mmbClose (hw : (d.mmb k).write = false) (h : moved ≤ 128) :
    (d.mmbClose k moved data).mmbBytes (cageIdx k) moved = padTo moved 0 data := by
  have hlen : (padTo moved 0 data).length = moved := by
    rw [padTo, List.length_take, List.length_append, List.length_replicate]
    omega
  have hbytes := Chip.mmbBytes_setMmbBytes (d.mmbStop k moved) (cageIdx k) (padTo moved 0 data) (by omega)
  rw [hlen] at hbytes
  rw [Chip.mmbClose, if_neg (by simp [hw])]
  exact hbytes

end MmbClose

/-- From `x` to `y` a transaction of a module bus has ended after `moved` bytes. -/
def Dev.mmbEnded (x y : Dev) (k moved : Nat) (data : List Byte) : Prop :=
  (y.chip.mmb k).busy = false ∧ y.chip.rb (R.LN_MMB_STATUS (cageIdx k)) 0 = false
    ∧ y.chip.rb (R.LN_MMB_STATUS (cageIdx k)) 1 = true ∧ y.chip.rf (R.LN_MMB_STATUS (cageIdx k)) 15 8 = moved
    ∧ x.only y (fun c => { c with mmbs := y.chip.mmbs })
    ∧ ((x.chip.mmb k).write = true → x.regsBut y [R.LN_MMB_STATUS (cageIdx k)])
    ∧ ((x.chip.mmb k).write = false → y.chip.mmbBytes (cageIdx k) moved = padTo moved 0 data)

theorem Dev.mmbEnded_close (x : Dev) (k : Nat) {moved : Nat} (data : List Byte) (h : moved ≤ 128) :
    x.mmbEnded ⟨x.cleared.chip.mmbClose k moved data, x.mem⟩ k moved data := by
  have hst := Chip.rd_mmbClose x.cleared.chip k moved data (cageIdx k) (o := 0x110) (by decide)
  obtain ⟨h0, h1⟩ := Chip.rb_mmbStop x.cleared.chip k moved
  have hmmbs := Chip.mmbClose_mmbs x.cleared.chip k moved data
  refine ⟨?_, (congrArg (bit · 0) hst).trans h0, (congrArg (bit · 1) hst).trans h1,
    (congrArg (fld · 15 8) hst).trans (Chip.rf_mmbStop _ k moved h), ?_, fun hw r hr _ => ?_, fun hw => ?_⟩
  · have hfree := (Chip.mmb_congr hmmbs k).trans (Chip.mmb_setMmb_same _ k Mmb.init)
    exact congrArg Mmb.busy hfree
  · refine Dev.only_of_besides (fun _ _ => rfl) ?_ (x.sameMem_mk _)
    rw [Chip.mmbClose_besides, hmmbs]
    rfl
  · exact Chip.rd_mmbClose_write x.cleared.chip k moved data hw (hr _ (by simp))
  · exact Chip.mmbBytes_mmbClose x.cleared.chip k moved data hw h

/-- The status flag of the end comes after it. -/
theorem Dev.mmbEnded_flag {x : Dev} {c : Chip} {k moved : Nat} {data : List Byte} {j : Nat}
    (h : x.mmbEnded ⟨c, x.mem⟩ k moved data) (h2 : 2 ≤ j) (h8 : j < 8) :
    x.mmbEnded ⟨c.flag (R.LN_MMB_STATUS (cageIdx k)) j, x.mem⟩ k moved data
      ∧ (c.flag (R.LN_MMB_STATUS (cageIdx k)) j).rb (R.LN_MMB_STATUS (cageIdx k)) j = true := by
  obtain ⟨hbusy, h0, h1, hmoved, ⟨honly, hmem⟩, hwrite, hread⟩ := h
  have hk (i : Nat) (hi : i < 32) : (R.LN_MMB_DATA (cageIdx k) i).key ≠ (R.LN_MMB_STATUS (cageIdx k)).key :=
    (mmbData_key_ne_of_lt _ _ (by decide) hi).symm
  refine ⟨⟨hbusy, ?_, ?_, ?_, ⟨?_, hmem⟩, fun hw r hr hl => ?_, fun hw => ?_⟩, Chip.rb_flag_same c _ j (by omega)⟩
  · exact (Chip.rb_flag_beside c (by omega) (by omega)).trans h0
  · exact (Chip.rb_flag_beside c (by omega) (by omega)).trans h1
  · exact (Chip.rf_sf_beside c 1 (by omega) (Nat.le_refl j) (Or.inr (by omega))).trans hmoved
  · exact congrArg (fun z : Chip => { z with regs := (c.flag (R.LN_MMB_STATUS (cageIdx k)) j).regs }) honly
  · exact (Chip.rd_flag_other c j (hr _ (by simp))).trans (hwrite hw r hr hl)
  · exact (Chip.mmbBytes_congr (fun i hi => Chip.rd_flag_other c j (hk i hi)) moved).trans (hread hw)

section MmbEnd

variable {d : Chip} {k : Nat} (n : Nat) (data : List Byte)

theorem Chip.mmbEnd_idle (how : MmbEnd) (h : (d.mmb k).busy = false) : d.mmbEnd k how n data = d :=
  if_pos (by simpa using h)

variable (h : (d.mmb k).busy = true)

include h

theorem Chip.mmbEnd_done : d.mmbEnd k .done n data = d.mmbClose k (d.mmb k).length data :=
  if_neg (by simp [h])

theorem Chip.mmbEnd_nack : d.mmbEnd k .nack n data
    = (d.mmbClose k (min n (d.mmb k).length) data).flag (R.LN_MMB_STATUS (cageIdx k)) 2 :=
  if_neg (by simp [h])

theorem Chip.mmbEnd_timeout : d.mmbEnd k .timeout n data
    = (d.mmbClose k (min n (d.mmb k).length) data).flag (R.LN_MMB_STATUS (cageIdx k)) 3 :=
  if_neg (by simp [h])

theorem Chip.mmbEnd_stuck :
    d.mmbEnd k .stuck n data = (d.mmbClose k 0 data).flag (R.LN_MMB_STATUS (cageIdx k)) 4 :=
  if_neg (by simp [h])

theorem Chip.mmbEnd_absent : d.mmbEnd k .absent n data
    = (d.mmbClose k (min n (d.mmb k).length) data).flag (R.LN_MMB_STATUS (cageIdx k)) 5 :=
  if_neg (by simp [h])

end MmbEnd

/-- The module has stretched the clock within the limit. -/
theorem Chip.mmbStretch_early {d : Chip} {k : Nat} (n : Nat) (data : List Byte)
    (h : d.core < (d.mmb k).start + max 1 (d.rf (R.LN_MMB_CFG (cageIdx k)) 15 8) * 1000000) :
    d.mmbStretch k n data = d :=
  if_pos h

theorem Chip.mmbStretch_due {d : Chip} {k : Nat} (n : Nat) (data : List Byte)
    (h : (d.mmb k).start + max 1 (d.rf (R.LN_MMB_CFG (cageIdx k)) 15 8) * 1000000 ≤ d.core) :
    d.mmbStretch k n data = d.mmbEnd k .timeout n data :=
  if_neg (Nat.not_lt.mpr h)

theorem Chip.mmbStretch_idle {d : Chip} {k : Nat} (n : Nat) (data : List Byte) (h : (d.mmb k).busy = false) :
    d.mmbStretch k n data = d := by
  unfold Chip.mmbStretch
  dsimp only
  split
  · rfl
  · exact Chip.mmbEnd_idle n data .timeout h

/-! ## The commands -/

theorem exec_moduleSignalChange (k : Nat) (prs int : Bool) (s : State) : exec (.moduleSignalChange k prs int) s
    = command (cageOk k) true (fun x => x.moduleSignal k prs int) s := rfl

theorem exec_mmbGo (sess k : Nat) (w : Word) (s : State) : exec (.mmbGo sess k w) s
    = command (cageOk k) false (fun x => x.hostWrite sess (R.LN_MMB_CMD (cageIdx k)) (setFld w 31 31 1)) s := rfl

theorem exec_mmbDone {how : MmbEnd} (h : how ≠ .timeout) (k n : Nat) (data : List Byte) (s : State) :
    exec (.mmbDone k how n data) s = command (cageOk k) false (fun x => x.on (fun d => d.mmbEnd k how n data)) s := by
  have he : exec (.mmbDone k how n data) s = command (cageOk k) false
      (fun x => x.on (fun d => if how = .timeout then d.mmbStretch k n data else d.mmbEnd k how n data)) s := rfl
  simpa [h] using he

theorem exec_mmbStretchTimeout (k n : Nat) (data : List Byte) (s : State) : exec (.mmbStretchTimeout k n data) s
    = command (cageOk k) false (fun x => x.on (fun d => d.mmbStretch k n data)) s := rfl

section Commands

variable (q : List Instr) {x : Dev} {k : Nat} (hk : k < 34)

include hk

theorem does_mmbDone_idle {how : MmbEnd} (hh : how ≠ .timeout) (n : Nat) (data : List Byte)
    (h : (x.chip.mmb k).busy = false) : Does (.mmbDone k how n data) ⟨q, x⟩ x.idle :=
  does_idle (exec_mmbDone hh k n data ⟨q, x⟩) (decide_eq_true hk)
    (Chip.mmbEnd_idle (d := x.cleared.chip) n data how h)

theorem does_mmbStretchTimeout_idle (n : Nat) (data : List Byte) (h : (x.chip.mmb k).busy = false) :
    Does (.mmbStretchTimeout k n data) ⟨q, x⟩ x.idle :=
  does_idle (exec_mmbStretchTimeout k n data ⟨q, x⟩) (decide_eq_true hk)
    (Chip.mmbStretch_idle (d := x.cleared.chip) n data h)

theorem does_mmbStretchTimeout_early (n : Nat) (data : List Byte)
    (h : x.chip.core < (x.chip.mmb k).start + max 1 (x.chip.rf (R.LN_MMB_CFG (cageIdx k)) 15 8) * 1000000) :
    Does (.mmbStretchTimeout k n data) ⟨q, x⟩ x.idle :=
  does_idle (exec_mmbStretchTimeout k n data ⟨q, x⟩) (decide_eq_true hk)
    (Chip.mmbStretch_early (d := x.cleared.chip) n data h)

variable (hx : x.live)

include hx

theorem does_moduleSignalChange {prs int : Bool} (h : x.chip.rb (R.LN_QUAD_MOD (cageIdx k)) 0 ≠ prs
      ∨ x.chip.rb (R.LN_QUAD_MOD (cageIdx k)) 1 ≠ int) :
    Does (.moduleSignalChange k prs int) ⟨q, x⟩ (fun y => y.chip.rb (R.LN_QUAD_MOD (cageIdx k)) 0 = prs
      ∧ y.chip.rb (R.LN_QUAD_MOD (cageIdx k)) 1 = int
      ∧ x.chip.logged y.chip (srcLane (cageIdx k)) 0x0104 (b2n prs + b2n int * 2) ∧ x.only y
      ∧ x.regsBut y [R.LN_QUAD_MOD (cageIdx k)]) := by
  refine does_of_command (exec_moduleSignalChange k prs int ⟨q, x⟩) (decide_eq_true hk) hx ?_
  rw [Dev.moduleSignal_live (x := x.cleared) hx, Dev.on, Chip.moduleChange_eq (d := x.cleared.chip) h]
  obtain ⟨h0, h1⟩ := Chip.rb_showModule (d := x.cleared.chip) (prs := prs) (int := int) (cageIdx k)
  have hblk : (R.LN_QUAD_MOD (cageIdx k)).blk ≠ .eng := show Blk.lane ≠ Blk.eng by decide
  refine ⟨(Chip.rb_ev _ _ _ _ hblk 0).trans h0, (Chip.rb_ev _ _ _ _ hblk 1).trans h1,
    Chip.logged_ev (x.cleared.chip.showModule (cageIdx k) prs int) _ _ _, ?_, fun r hr hl => ?_⟩
  · exact Dev.only_of_besides (f := id) (fun _ _ => rfl)
      (Chip.ev_besides (x.cleared.chip.showModule (cageIdx k) prs int) _ _ _ x.chip) (x.sameMem_mk _)
  · exact (Chip.rd_evtAt _ _ _ _ _ _ _ r (fun e => (hl e).1) (fun e => (hl e).2)).trans
      (Chip.rd_showModule (d := x.cleared.chip) (hr _ (by simp)))

theorem does_moduleSignalChange_same {prs int : Bool} (h0 : x.chip.rb (R.LN_QUAD_MOD (cageIdx k)) 0 = prs)
    (h1 : x.chip.rb (R.LN_QUAD_MOD (cageIdx k)) 1 = int) : Does (.moduleSignalChange k prs int) ⟨q, x⟩ x.idle := by
  refine does_same (exec_moduleSignalChange k prs int ⟨q, x⟩) (decide_eq_true hk) hx ?_
  rw [Dev.moduleSignal_live (x := x.cleared) hx]
  exact congrArg (Dev.mk · x.mem) (Chip.moduleChange_same (d := x.cleared.chip) h0 h1)

section Go

variable {sess : Nat} {w : Word} (ha : x.allows sess (R.LN_MMB_CMD (cageIdx k)) (setFld w 31 31 1))

include ha

theorem does_mmbGo_busy (hb : (x.chip.mmb k).busy = true) :
    Does (.mmbGo sess k w) ⟨q, x⟩ (fun y => y.answered .busy ∧ y.chip.rb (R.LN_MMB_STATUS (cageIdx k)) 6 = true
      ∧ x.only y ∧ x.regsBut y [R.LN_MMB_STATUS (cageIdx k)]) := by
  have hw := Chip.mmbGo_busy (d := x.cleared.chip) (bit_setFld_one w (i := 31) (by decide)) hb
  refine does_hostWrite_lane q hx (exec_mmbGo sess k w ⟨q, x⟩) (decide_eq_true hk) ha
    ((Chip.writeLane_mmb _ _ hk).trans hw)
    ⟨(Chip.rb_answer _ _ _ _).trans (Chip.rb_flag_same _ _ 6 (by decide)), ?_, fun r hr _ => ?_⟩
  · exact Dev.only_of_besides (f := id) (fun _ _ => rfl)
      (Chip.flag_answer_besides x.cleared.chip (R.LN_MMB_STATUS (cageIdx k)) 6 .busy x.chip) (x.sameMem_mk _)
  · exact (Chip.rd_answer _ _ r).trans (Chip.rd_flag_other x.cleared.chip 6 (hr _ (by simp)))

theorem does_mmbGo_absent (hb : (x.chip.mmb k).busy = false) (hp : x.chip.rb (R.LN_QUAD_MOD (cageIdx k)) 0 = false) :
    Does (.mmbGo sess k w) ⟨q, x⟩ (fun y => y.answered .ok ∧ y.chip.rb (R.LN_MMB_STATUS (cageIdx k)) 1 = true
      ∧ y.chip.rb (R.LN_MMB_STATUS (cageIdx k)) 5 = true ∧ x.only y ∧ x.regsBut y [R.LN_MMB_STATUS (cageIdx k)]) := by
  have hw := Chip.mmbGo_absent (d := x.cleared.chip) (bit_setFld_one w (i := 31) (by decide)) hb hp
  have h1 := Chip.rb_flag_same x.cleared.chip (R.LN_MMB_STATUS (cageIdx k)) 1 (by decide)
  refine does_hostWrite_lane q hx (exec_mmbGo sess k w ⟨q, x⟩) (decide_eq_true hk) ha
    ((Chip.writeLane_mmb _ _ hk).trans hw)
    ⟨(Chip.rb_answer _ _ _ _).trans ((Chip.rb_flag_beside _ (by decide) (by decide)).trans h1),
      (Chip.rb_answer _ _ _ _).trans (Chip.rb_flag_same _ _ 5 (by decide)), ?_, fun r hr _ => ?_⟩
  · exact Dev.only_of_besides (f := id) (fun _ _ => rfl)
      (Chip.flag_answer_besides (x.cleared.chip.flag (R.LN_MMB_STATUS (cageIdx k)) 1) (R.LN_MMB_STATUS (cageIdx k)) 5
        .ok x.chip) (x.sameMem_mk _)
  · have hst : r.key ≠ (R.LN_MMB_STATUS (cageIdx k)).key := hr _ (by simp)
    exact (Chip.rd_answer _ _ r).trans ((Chip.rd_flag_other _ 5 hst).trans (Chip.rd_flag_other _ 1 hst))

theorem does_mmbGo_start (hb : (x.chip.mmb k).busy = false) (hp : x.chip.rb (R.LN_QUAD_MOD (cageIdx k)) 0 = true) :
    Does (.mmbGo sess k w) ⟨q, x⟩ (fun y => y.answered .ok ∧ y.chip.rb (R.LN_MMB_STATUS (cageIdx k)) 0 = true
      ∧ y.chip.mmb k = ⟨true, bit w 16, fld w 15 8, fld w 7 0 % 128 + 1, x.chip.core⟩
      ∧ x.only y (fun c => { c with mmbs := y.chip.mmbs }) ∧ x.regsBut y [R.LN_MMB_STATUS (cageIdx k)]) := by
  obtain ⟨o, hw⟩ := Chip.mmbGo_start (d := x.cleared.chip) (bit_setFld_one w (i := 31) (by decide)) hb hp
  obtain ⟨h16, hoff, hlen⟩ := mmbFields_setFld w
  rw [Chip.mmbStart_congr h16 hoff hlen] at hw
  have h0 := Chip.rb_sbit_same ((x.cleared.chip.setMmb k
    ⟨true, bit w 16, fld w 15 8, fld w 7 0 % 128 + 1, x.chip.core⟩).sf (R.LN_MMB_STATUS (cageIdx k)) 15 8 0)
    (r := R.LN_MMB_STATUS (cageIdx k)) (i := 0) true (by decide)
  exact does_hostWrite_lane q hx (exec_mmbGo sess k w ⟨q, x⟩) (decide_eq_true hk) ha
    ((Chip.writeLane_mmb _ _ hk).trans hw)
    ⟨(Chip.rb_emit_answer _ o .ok _ 0).trans h0,
      (Chip.mmb_congr (Chip.emit_answer_mmbs _ o .ok) k).trans Chip.mmb_mmbStart,
      ⟨rfl, x.sameMem_mk _⟩,
      fun r hr _ => (Chip.rd_emit_answer _ o .ok r).trans (Chip.rd_mmbStart (d := x.cleared.chip) (hr _ (by simp)))⟩

end Go

section End

variable (n : Nat) (data : List Byte) (hb : (x.chip.mmb k).busy = true)

include hb

theorem does_mmbDone_stuck : Does (.mmbDone k .stuck n data) ⟨q, x⟩
    (fun y => x.mmbEnded y k 0 data ∧ y.chip.rb (R.LN_MMB_STATUS (cageIdx k)) 4 = true) :=
  does_on (exec_mmbDone (by decide) k n data ⟨q, x⟩) (decide_eq_true hk) hx
    (Chip.mmbEnd_stuck (d := x.cleared.chip) n data hb)
    (Dev.mmbEnded_flag (x.mmbEnded_close k data (Nat.zero_le 128)) (by decide) (by decide))

variable (hl : (x.chip.mmb k).length ≤ 128)

include hl

theorem does_mmbDone : Does (.mmbDone k .done n data) ⟨q, x⟩ (fun y => x.mmbEnded y k (x.chip.mmb k).length data) :=
  does_on (exec_mmbDone (by decide) k n data ⟨q, x⟩) (decide_eq_true hk) hx
    (Chip.mmbEnd_done (d := x.cleared.chip) n data hb) (x.mmbEnded_close k data hl)

theorem does_mmbDone_nack : Does (.mmbDone k .nack n data) ⟨q, x⟩
    (fun y => x.mmbEnded y k (min n (x.chip.mmb k).length) data ∧ y.chip.rb (R.LN_MMB_STATUS (cageIdx k)) 2 = true) :=
  does_on (exec_mmbDone (by decide) k n data ⟨q, x⟩) (decide_eq_true hk) hx
    (Chip.mmbEnd_nack (d := x.cleared.chip) n data hb)
    (Dev.mmbEnded_flag (x.mmbEnded_close k data ((Nat.min_le_right _ _).trans hl)) (by decide) (by decide))

theorem does_mmbDone_absent : Does (.mmbDone k .absent n data) ⟨q, x⟩
    (fun y => x.mmbEnded y k (min n (x.chip.mmb k).length) data ∧ y.chip.rb (R.LN_MMB_STATUS (cageIdx k)) 5 = true) :=
  does_on (exec_mmbDone (by decide) k n data ⟨q, x⟩) (decide_eq_true hk) hx
    (Chip.mmbEnd_absent (d := x.cleared.chip) n data hb)
    (Dev.mmbEnded_flag (x.mmbEnded_close k data ((Nat.min_le_right _ _).trans hl)) (by decide) (by decide))

theorem does_mmbStretchTimeout
    (ht : (x.chip.mmb k).start + max 1 (x.chip.rf (R.LN_MMB_CFG (cageIdx k)) 15 8) * 1000000 ≤ x.chip.core) :
    Does (.mmbStretchTimeout k n data) ⟨q, x⟩ (fun y => x.mmbEnded y k (min n (x.chip.mmb k).length) data
      ∧ y.chip.rb (R.LN_MMB_STATUS (cageIdx k)) 3 = true) :=
  does_on (exec_mmbStretchTimeout k n data ⟨q, x⟩) (decide_eq_true hk) hx
    ((Chip.mmbStretch_due (d := x.cleared.chip) n data ht).trans (Chip.mmbEnd_timeout n data hb))
    (Dev.mmbEnded_flag (x.mmbEnded_close k data ((Nat.min_le_right _ _).trans hl)) (by decide) (by decide))

end End

end Commands

/-- Settles O13: the three answers of a GO and the five ends of a transaction, of which each is `mmbClose` with its
status flag. -/
theorem moduleSignalsAndBus : Obligations.ModuleSignalsAndBus := by
  intro q x k hk hx
  exact ⟨fun prs int h => does_moduleSignalChange q hk hx h,
    fun prs int h0 h1 => does_moduleSignalChange_same q hk hx h0 h1,
    fun sess w ha => ⟨does_mmbGo_start q hk hx ha, does_mmbGo_busy q hk hx ha, does_mmbGo_absent q hk hx ha⟩,
    fun n data hb hl => ⟨does_mmbDone q hk hx n data hb hl, does_mmbDone_nack q hk hx n data hb hl,
      does_mmbDone_stuck q hk hx n data hb, does_mmbDone_absent q hk hx n data hb hl,
      does_mmbStretchTimeout q hk hx n data hb hl, does_mmbStretchTimeout_early q hk n data⟩,
    fun n data hb => ⟨does_mmbDone_idle q hk (by decide) n data hb, does_mmbStretchTimeout_idle q hk n data hb⟩⟩

/-! # Loss of frame and words -/

/-! ## Loss of frame (R63) -/

@[simp] theorem Chip.hunter_setHunter_same (d : Chip) (e : Nat) (h : Hunter) : (d.setHunter e h).hunter e = h :=
  SMap.get_put_same _ _ _ _

theorem RegId.key_ne_hntEvent_of_quiet {r : RegId} (h : r.quiet = true) (e : Nat) : (R.HNT_EVENT e).key ≠ r.key := by
  by_cases hb : r.blk = .eng
  · have ho : r.off % 2 ^ 12 ≠ 0x050 := by simpa [RegId.quiet, hb] using h
    exact RegId.key_ne_of_off ho.symm
  · exact RegId.key_ne_of_blk (Ne.symm hb)

theorem Chip.blind_hntEvent (e : Nat) : Chip.Blind (fun d => d.rd (R.HNT_EVENT e)) :=
  ⟨fun d _ w h => Chip.rd_wr_other d w (RegId.key_ne_hntEvent_of_quiet h e), fun _ _ => rfl, fun _ _ => rfl,
    fun _ _ => rfl, fun _ _ _ => rfl, fun _ _ _ => rfl, fun _ _ _ => rfl, fun _ _ _ => rfl, fun _ _ _ => rfl,
    fun _ _ _ => rfl, fun _ _ _ => rfl⟩

/-- The LOF of a hunter becomes `lof`, with its event flag and its event. -/
def Chip.lofTurn (d : Chip) (e : Nat) (lof : Bool) (flag code : Nat) : Chip :=
  (((d.setHunter e { d.hunter e with lof := lof }).flag (R.HNT_EVENT e) flag).ev e code 0).syncLine e

section Lof

variable (d : Chip) (e : Nat)

theorem Chip.lof_lofTurn (lof : Bool) (flag code : Nat) : ((d.lofTurn e lof flag code).hunter e).lof = lof := by
  unfold Chip.lofTurn
  rw [Chip.hunter_congr ((Chip.blind_hunters.syncLine _ e).trans (Chip.blind_hunters.ev _ _ _ _))]
  exact congrArg Hunter.lof (Chip.hunter_setHunter_same d e _)

theorem Chip.rb_lofTurn (lof : Bool) {flag : Nat} (code : Nat) (h : flag < 32) :
    (d.lofTurn e lof flag code).rb (R.HNT_EVENT e) flag = true := by
  have hrd := ((Chip.blind_hntEvent e).syncLine _ e).trans ((Chip.blind_hntEvent e).ev
    ((d.setHunter e { d.hunter e with lof := lof }).flag (R.HNT_EVENT e) flag) e code 0)
  exact (congrArg (bit · flag) hrd).trans (Chip.rb_flag_same _ _ flag h)

variable {d e}

theorem Chip.lofSet_eq (hs : (d.hunter e).streams ≠ []) (ha : (d.hunter e).allIn = false)
    (hl : (d.hunter e).lof = false)
    (ht : (d.hunter e).since + d.rf (R.HNT_LOF e) 6 0 * 250000 ≤ d.core) : d.lofSet e = d.lofTurn e true 2 0x0202 :=
  if_neg (by simpa [hs, ha, hl] using ht)

theorem Chip.lofSet_idle (h : (d.hunter e).allIn = true ∨ (d.hunter e).streams = [] ∨ (d.hunter e).lof = true
    ∨ d.core < (d.hunter e).since + d.rf (R.HNT_LOF e) 6 0 * 250000) : d.lofSet e = d :=
  if_pos (by simpa [or_left_comm] using h)

theorem Chip.lofClr_eq (ha : (d.hunter e).allIn = true) (hl : (d.hunter e).lof = true)
    (ht : (d.hunter e).since + d.rf (R.HNT_LOF e) 14 8 * 250000 ≤ d.core) :
    d.lofClr e = d.lofTurn e false 3 0x0203 := by
  have hs : (d.hunter e).streams ≠ [] := by
    intro hs
    simp [Hunter.allIn, hs] at ha
  exact if_neg (by simpa [hs, ha, hl] using ht)

theorem Chip.lofClr_idle (h : (d.hunter e).allIn = false ∨ (d.hunter e).lof = false
    ∨ d.core < (d.hunter e).since + d.rf (R.HNT_LOF e) 14 8 * 250000) : d.lofClr e = d :=
  if_pos (by simpa using Or.inr h)

end Lof

/-! ## The times of LOF (R63) -/

theorem word_merge (v m : Word) : (v &&& m) ||| (v &&& ~~~m) = v := by
  rw [← BitVec.and_or_distrib_left, BitVec.or_not_self, BitVec.and_allOnes]

/-- What a register holds depends on its place and its reset value. -/
theorem Chip.rd_eq_of_key (d : Chip) {r q : RegId} (h : r.key = q.key) (hr : r.resetWord = q.resetWord) :
    d.rd r = d.rd q := by
  rw [Chip.rd, Chip.rd, h, hr]

theorem engRows_off : ∀ r ∈ RegMap.engRows, r.off < 2 ^ 12 := by decide +kernel

/-- A spare's copy of an engine's configuration leaves the engine's own as it is. -/
theorem Chip.rd_copyConfig (d : Chip) (e s : Nat) : (d.copyConfig e s).rd (R.HNT_LOF e) = d.rd (R.HNT_LOF e) := by
  refine List.foldlRecOn (motive := fun c : Chip => c.rd (R.HNT_LOF e) = d.rd (R.HNT_LOF e)) _ _ rfl
    fun c hc r hr => Eq.trans ?_ hc
  by_cases hk : (R.HNT_LOF e).key = (RegId.mk .eng s r.off).key
  · have hlt := engRows_off r (List.mem_of_mem_filter hr)
    have ho : 0x044 = r.off := by
      by_contra hne
      exact RegId.key_ne_of_offs (by omega) hk
    rw [← ho] at hk ⊢
    rw [Chip.rd_eq_of_key _ hk rfl, Chip.rd_wr_same, ← Chip.rd_eq_of_key c hk rfl]
    exact word_merge _ _
  · exact Chip.rd_wr_other c _ hk

theorem Chip.rd_mirror (d : Chip) (e : Nat) : (d.mirror e).rd (R.HNT_LOF e) = d.rd (R.HNT_LOF e) :=
  foldl_keeps (fun c : Chip => c.rd (R.HNT_LOF e)) _ (fun c s => Chip.rd_copyConfig c e s) _ d

theorem Chip.copyConfig_besides (d : Chip) (e s : Nat) (c : Chip) : (d.copyConfig e s).besides c = d.besides c :=
  List.foldlRecOn (motive := fun x : Chip => x.besides c = d.besides c) _ _ rfl
    fun x hx _ _ => (Chip.wr_besides x _ _ c).trans hx

theorem Chip.mirror_besides (d : Chip) (e : Nat) (c : Chip) : (d.mirror e).besides c = d.besides c :=
  foldl_keeps (fun x : Chip => x.besides c) _ (fun x s => Chip.copyConfig_besides x e s c) _ d

/-- The word that a write of HNT_LOF stores. -/
def lofWord (w : Word) : Word := fixField 1 64 (fixField 1 64 w 6 0) 14 8

theorem fld_lofWord (w : Word) : fld (lofWord w) 6 0 = max 1 (min 64 (fld w 6 0))
    ∧ fld (lofWord w) 14 8 = max 1 (min 64 (fld w 14 8)) := by
  have hlow : fld (lofWord w) 6 0 = fld (fixField 1 64 w 6 0) 6 0 :=
    fld_setFld_other _ _ (by decide) (by decide) (by decide)
  have hhigh : fld (fixField 1 64 w 6 0) 14 8 = fld w 14 8 := fld_setFld_other _ _ (by decide) (by decide) (by decide)
  refine ⟨hlow.trans (fld_fixField 1 64 w (by decide) (by decide) (by decide) (by decide)), ?_⟩
  rw [lofWord, fld_fixField 1 64 _ (by decide) (by decide) (by decide) (by decide), hhigh]

theorem Dev.writeReg_lof {x : Dev} {e : Nat} (w : Word) (hb : x.chip.subBusy e = false) :
    x.writeReg (R.HNT_LOF e) w = (.ok, ⟨x.chip.store (R.HNT_LOF e) (lofWord w), x.mem⟩) := by
  have hc : ¬ (x.chip.subBusy (R.HNT_LOF e).idx = true ∧ ¬ ((R.HNT_LOF e).off = 0 ∧ bit w 1 = true)) := by
    simp [R.HNT_LOF, hb]
  exact if_neg hc

theorem Dev.hostWrite_lof {x : Dev} {sess e : Nat} {w : Word} (ha : x.allows sess (R.HNT_LOF e) w)
    (hb : x.chip.subBusy e = false) : x.hostWrite sess (R.HNT_LOF e) w
      = ⟨((x.chip.store (R.HNT_LOF e) (lofWord w)).mirror e).answer .ok, x.mem⟩ := by
  simp only [Dev.hostWrite, Dev.regWrite_allows x sess 0x0011 _ w ha, Dev.writeReg_lof w hb]
  rfl

/-! ## A word from the lane (R43, R45, R46) -/

/-- The position of a hunter in its stream is what hunting leaves alone. -/
theorem Chip.blind_bits (e : Nat) : Chip.BlindToHunt (fun d => (d.hunter e).bits) :=
  ⟨⟨fun _ _ _ _ => rfl, fun _ _ => rfl, fun _ _ => rfl, fun _ _ => rfl, fun _ _ _ => rfl, fun _ _ _ => rfl,
    fun _ _ _ => rfl, fun _ _ _ => rfl, fun _ _ _ => rfl, fun _ _ _ => rfl, fun _ _ _ => rfl⟩,
    fun _ _ _ _ => rfl, fun _ _ => rfl, fun _ _ _ => rfl, fun _ _ _ => rfl, fun d k c hc => by
      obtain rfl | hk := eq_or_ne e k
      · rw [Chip.hunter_setHunter_same, hc]
      · exact congrArg Hunter.bits (SMap.get_put_other Hunter.init Hunter.init d.hunters c hk)⟩

theorem Chip.bits_engWord {d : Chip} {e : Nat} (w stamp : Nat) (poison : Bool) (hf : d.flows e = true)
    (hs : (d.hunter e).streams ≠ []) : ((d.engWord e w stamp poison).hunter e).bits = (d.hunter e).bits + 32 := by
  have hh : ((d.tapRaw e w stamp poison).pnSearch e w).hunter e = d.hunter e :=
    Chip.hunter_congr ((Chip.blind_hunters.pnSearch _ e w).trans (Chip.blind_hunters.tapRaw d e w stamp poison)) e
  have hgang (x : Chip) : ((if x.ganged e then x.gang e else x).hunter e).bits = (x.hunter e).bits := by
    split
    · exact (Chip.blind_bits e).gang x e
    · rfl
  simp only [Chip.engWord, hf, hh, List.isEmpty_iff, hs]
  simp only [not_true_eq_false, if_false]
  rw [(Chip.blind_bits e).drainHold, hgang, (Chip.blind_bits e).huntWord, Chip.hunter_setHunter_same]

/-- The word that a lane delivers: the external one, or in a near-end loopback the next that the lane has sent, and
inverted by RX_INV. -/
def Chip.rxBits (d : Chip) (n w : Nat) : Nat :=
  let ext := if decide (d.laneLoop n = 1) then ofBytes ((d.lane n).loop.take 4) else w % 2 ^ 32
  if d.rb (R.LN_CFG n) 6 then 2 ^ 32 - 1 - ext else ext

theorem Chip.rxBits_of_ne {d : Chip} {n w : Nat} (h : d.laneLoop n ≠ 1) :
    d.rxBits n w = if d.rb (R.LN_CFG n) 6 then 2 ^ 32 - 1 - w % 2 ^ 32 else w % 2 ^ 32 := by
  simp [Chip.rxBits, h]

/-- The loopbacks of a lane that delivers a word: the near end takes it, the far end sends it back. -/
def Chip.looped (d : Chip) (n w : Nat) : Chip :=
  let d1 := if decide (d.laneLoop n = 1) then d.setLane n { d.lane n with loop := (d.lane n).loop.drop 4 } else d
  if d.laneLoop n = 2 then d1.laneSend n (beBytes 4 (d.rxBits n w)) else d1

theorem Chip.laneSend_listeners (d : Chip) (n m : Nat) (l : List Byte) :
    (d.laneSend n l).listeners m = d.listeners m := by
  unfold Chip.laneSend
  split
  · rfl
  · dsimp only
    split
    · rfl
    · rfl

section LineWord

variable {d : Chip} {n : Nat} (w stamp : Nat) (poison : Bool)

theorem Chip.looped_listeners (m : Nat) : (d.looped n w).listeners m = d.listeners m := by
  have htake : (if decide (d.laneLoop n = 1) then
      d.setLane n { d.lane n with loop := (d.lane n).loop.drop 4 } else d).listeners m = d.listeners m := by
    split
    · rfl
    · rfl
  unfold Chip.looped
  dsimp only
  split
  · exact (Chip.laneSend_listeners _ n m _).trans htake
  · exact htake

theorem Chip.looped_plain (hp : d.laneLoop n = 0) : d.looped n w = d := by
  simp [Chip.looped, hp]

theorem Chip.looped_far (hp : d.laneLoop n = 2) : d.looped n w = d.laneSend n (beBytes 4 (d.rxBits n w)) := by
  simp [Chip.looped, hp]

theorem Chip.looped_near (hp : d.laneLoop n = 1) :
    d.looped n w = d.setLane n { d.lane n with loop := (d.lane n).loop.drop 4 } := by
  simp [Chip.looped, hp]

theorem Chip.lineWord_idle (h : d.laneEn n = false ∨ (d.lane n).lock = false) : d.lineWord n w stamp poison = d :=
  if_pos (by simpa [or_assoc] using h.elim Or.inl (fun h => Or.inr (Or.inl h)))

theorem Chip.lineWord_waits (hp : d.laneLoop n = 1) (hl : (d.lane n).loop.length < 4) :
    d.lineWord n w stamp poison = d :=
  if_pos (by simp [hp, hl])

variable (he : d.laneEn n = true) (hl : (d.lane n).lock = true)

include he hl

theorem Chip.lineWord_eq (hw : d.laneLoop n = 1 → 4 ≤ (d.lane n).loop.length) : d.lineWord n w stamp poison
    = (d.listeners n).foldl (fun (x : Chip) e => x.engWord e (d.rxBits n w) stamp poison) (d.looped n w) := by
  have hflow : d.lineWord n w stamp poison = ((d.looped n w).listeners n).foldl
      (fun (x : Chip) e => x.engWord e (d.rxBits n w) stamp poison) (d.looped n w) :=
    if_neg (by simpa [he, hl] using hw)
  rw [hflow, Chip.looped_listeners]

/-- A word that no loopback takes reaches the engine that listens. -/
theorem Chip.lineWord_plain {e : Nat} (hp : d.laneLoop n = 0) (ht : d.listeners n = [e]) :
    d.lineWord n w stamp poison = d.engWord e (d.rxBits n w) stamp poison := by
  rw [Chip.lineWord_eq w stamp poison he hl (by omega), Chip.looped_plain w hp, ht]
  rfl

/-- A far-end loopback sends the word back. -/
theorem Chip.lineWord_far (hp : d.laneLoop n = 2) (ht : d.listeners n = []) :
    d.lineWord n w stamp poison = d.laneSend n (beBytes 4 (d.rxBits n w)) := by
  rw [Chip.lineWord_eq w stamp poison he hl (by omega), Chip.looped_far w hp, ht]
  rfl

/-- A near-end loopback takes the octets that the lane itself has sent. -/
theorem Chip.lineWord_near (hp : d.laneLoop n = 1) (h4 : 4 ≤ (d.lane n).loop.length) (ht : d.listeners n = []) :
    d.lineWord n w stamp poison = d.setLane n { d.lane n with loop := (d.lane n).loop.drop 4 } := by
  rw [Chip.lineWord_eq w stamp poison he hl (fun _ => h4), Chip.looped_near w hp, ht]
  rfl

end LineWord

/-- The bytes of a word whose every bit is inverted, each byte inverted once more. -/
theorem beBytes_invert {v : Nat} (h : v < 2 ^ 32) :
    (beBytes 4 (2 ^ 32 - 1 - v)).map (fun (b : Byte) => b ^^^ 0xFF) = beBytes 4 v := by
  have hbyte (a b : Nat) (hab : a % 256 = 255 - b % 256) : BitVec.ofNat 8 a ^^^ 0xFF = BitVec.ofNat 8 b := by
    rw [show (0xFF : BitVec 8) = BitVec.allOnes 8 from rfl, BitVec.xor_allOnes]
    apply BitVec.eq_of_toNat_eq
    rw [BitVec.toNat_not, BitVec.toNat_ofNat, BitVec.toNat_ofNat]
    omega
  simp only [beBytes, List.map_cons, List.map_nil, List.cons.injEq, and_true]
  exact ⟨hbyte _ _ (by omega), hbyte _ _ (by omega), hbyte _ _ (by omega), hbyte _ _ (by omega)⟩

/-- Octets leave a lane that is not in near-end loopback. -/
theorem Chip.laneSend_eq {d : Chip} {n : Nat} {l : List Byte} (hi : d.txIdle n = false) (hl : l ≠ [])
    (hp : d.laneLoop n ≠ 1) : d.laneSend n l
      = d.emit (.lane n (d.txFreq n) (if d.rb (R.LN_CFG n) 7 then l.map (fun (b : Byte) => b ^^^ 0xFF) else l)) := by
  simp [Chip.laneSend, hi, hl, hp]

/-- A far-end loopback whose receiver and transmitter invert alike sends the word as it came. -/
theorem Chip.lineWord_far_sends {d : Chip} {n w : Nat} (stamp : Nat) (poison : Bool) (he : d.laneEn n = true)
    (hl : (d.lane n).lock = true) (hp : d.laneLoop n = 2) (ht : d.listeners n = []) (hi : d.txIdle n = false)
    (hv : d.rb (R.LN_CFG n) 6 = d.rb (R.LN_CFG n) 7) (hw : w < 2 ^ 32) :
    d.lineWord n w stamp poison = d.emit (.lane n (d.txFreq n) (beBytes 4 w)) := by
  have hne (v : Nat) : beBytes 4 v ≠ [] := by simp [beBytes]
  rw [Chip.lineWord_far w stamp poison he hl hp ht, Chip.laneSend_eq hi (hne _) (by omega),
    Chip.rxBits_of_ne (by omega), hv, Nat.mod_eq_of_lt hw]
  cases d.rb (R.LN_CFG n) 7
  · rfl
  · simp only [if_true]
    rw [beBytes_invert hw]

/-! ## The commands -/

theorem exec_lofSetExpiry (e : Nat) (s : State) :
    exec (.lofSetExpiry e) s = command (engineOk e) false (fun x => x.on (fun d => d.lofSet e)) s := rfl

theorem exec_lofClrExpiry (e : Nat) (s : State) :
    exec (.lofClrExpiry e) s = command (engineOk e) false (fun x => x.on (fun d => d.lofClr e)) s := rfl

theorem exec_lofTimerConfig (sess e : Nat) (w : Word) (s : State) : exec (.lofTimerConfig sess e w) s
    = command (engineOk e) false (fun x => x.hostWrite sess (R.HNT_LOF e) w) s := rfl

theorem exec_lineWord (n : Nat) (w : Word) (stamp : Nat) (poison : Bool) (s : State) :
    exec (.lineWord n w stamp poison) s
      = command (laneOk n) false (fun x => x.on (fun d => d.lineWord n w.toNat stamp poison)) s := rfl

section LofCommands

variable (q : List Instr) {x : Dev} {e : Nat} (he : e < 136)

include he

theorem does_lofSetExpiry_idle (h : (x.chip.hunter e).allIn = true ∨ (x.chip.hunter e).streams = []
    ∨ (x.chip.hunter e).lof = true ∨ x.chip.core < (x.chip.hunter e).since + x.chip.rf (R.HNT_LOF e) 6 0 * 250000) :
    Does (.lofSetExpiry e) ⟨q, x⟩ x.idle :=
  does_idle (exec_lofSetExpiry e ⟨q, x⟩) (decide_eq_true he) (Chip.lofSet_idle (d := x.cleared.chip) h)

theorem does_lofClrExpiry_idle (h : (x.chip.hunter e).allIn = false ∨ (x.chip.hunter e).lof = false
    ∨ x.chip.core < (x.chip.hunter e).since + x.chip.rf (R.HNT_LOF e) 14 8 * 250000) :
    Does (.lofClrExpiry e) ⟨q, x⟩ x.idle :=
  does_idle (exec_lofClrExpiry e ⟨q, x⟩) (decide_eq_true he) (Chip.lofClr_idle (d := x.cleared.chip) h)

variable (hx : x.live)

include hx

theorem does_lofSetExpiry (hs : (x.chip.hunter e).streams ≠ []) (ha : (x.chip.hunter e).allIn = false)
    (hl : (x.chip.hunter e).lof = false)
    (ht : (x.chip.hunter e).since + x.chip.rf (R.HNT_LOF e) 6 0 * 250000 ≤ x.chip.core) :
    Does (.lofSetExpiry e) ⟨q, x⟩
      (fun y => (y.chip.hunter e).lof = true ∧ y.chip.rb (R.HNT_EVENT e) 2 = true ∧ x.sameMem y) :=
  does_on (exec_lofSetExpiry e ⟨q, x⟩) (decide_eq_true he) hx (Chip.lofSet_eq (d := x.cleared.chip) hs ha hl ht)
    ⟨Chip.lof_lofTurn _ e true 2 0x0202, Chip.rb_lofTurn _ e true 0x0202 (by decide), x.sameMem_mk _⟩

theorem does_lofClrExpiry (ha : (x.chip.hunter e).allIn = true) (hl : (x.chip.hunter e).lof = true)
    (ht : (x.chip.hunter e).since + x.chip.rf (R.HNT_LOF e) 14 8 * 250000 ≤ x.chip.core) :
    Does (.lofClrExpiry e) ⟨q, x⟩
      (fun y => (y.chip.hunter e).lof = false ∧ y.chip.rb (R.HNT_EVENT e) 3 = true ∧ x.sameMem y) :=
  does_on (exec_lofClrExpiry e ⟨q, x⟩) (decide_eq_true he) hx (Chip.lofClr_eq (d := x.cleared.chip) ha hl ht)
    ⟨Chip.lof_lofTurn _ e false 3 0x0203, Chip.rb_lofTurn _ e false 0x0203 (by decide), x.sameMem_mk _⟩

theorem does_lofTimerConfig {sess : Nat} {w : Word} (ha : x.allows sess (R.HNT_LOF e) w)
    (hb : x.chip.subBusy e = false) :
    Does (.lofTimerConfig sess e w) ⟨q, x⟩ (fun y => y.answered .ok ∧ x.only y
      ∧ y.chip.rf (R.HNT_LOF e) 6 0 = max 1 (min 64 (fld w 6 0))
      ∧ y.chip.rf (R.HNT_LOF e) 14 8 = max 1 (min 64 (fld w 14 8))) := by
  refine does_of_command (exec_lofTimerConfig sess e w ⟨q, x⟩) (decide_eq_true he) hx ?_
  rw [Dev.hostWrite_lof (x := x.cleared) (Dev.allows_cleared ha) hb]
  have hrd := Chip.rd_mirror (x.cleared.chip.store (R.HNT_LOF e) (lofWord w)) e
  obtain ⟨hset, hclr⟩ := fld_lofWord w
  refine ⟨Chip.answered_answer _ _ _, ?_, ?_, ?_⟩
  · exact Dev.only_of_besides (f := id) (fun _ _ => rfl)
      ((Chip.mirror_besides _ e x.chip).trans (Chip.store_besides _ _ _ x.chip)) (x.sameMem_mk _)
  · exact (congrArg (fld · 6 0) hrd).trans
      ((Chip.rf_store (t := R.HNT_LOF e) _ rfl (by decide) (by decide)).trans hset)
  · exact (congrArg (fld · 14 8) hrd).trans
      ((Chip.rf_store (t := R.HNT_LOF e) _ rfl (by decide) (by decide)).trans hclr)

end LofCommands

section WordCommands

variable (q : List Instr) {x : Dev} {n : Nat} (hn : n < 128) (w : Word) (stamp : Nat) (poison : Bool)

include hn

theorem does_lineWord_idle (h : x.chip.laneEn n = false ∨ (x.chip.lane n).lock = false) :
    Does (.lineWord n w stamp poison) ⟨q, x⟩ x.idle :=
  does_idle (exec_lineWord n w stamp poison ⟨q, x⟩) (decide_eq_true (by omega))
    (Chip.lineWord_idle (d := x.cleared.chip) w.toNat stamp poison h)

theorem does_lineWord_waits (hp : x.chip.laneLoop n = 1) (hl : (x.chip.lane n).loop.length < 4) :
    Does (.lineWord n w stamp poison) ⟨q, x⟩ x.idle :=
  does_idle (exec_lineWord n w stamp poison ⟨q, x⟩) (decide_eq_true (by omega))
    (Chip.lineWord_waits (d := x.cleared.chip) w.toNat stamp poison hp hl)

variable (hx : x.live) (he : x.chip.laneEn n = true) (hl : (x.chip.lane n).lock = true)

include hx he hl

theorem does_lineWord_plain {e : Nat} (hp : x.chip.laneLoop n = 0) (ht : x.chip.listeners n = [e])
    (hf : x.chip.flows e = true) (hs : (x.chip.hunter e).streams ≠ []) :
    Does (.lineWord n w stamp poison) ⟨q, x⟩
      (fun y => (y.chip.hunter e).bits = (x.chip.hunter e).bits + 32 ∧ x.sameMem y) :=
  does_on (exec_lineWord n w stamp poison ⟨q, x⟩) (decide_eq_true (by omega)) hx
    (Chip.lineWord_plain (d := x.cleared.chip) w.toNat stamp poison he hl hp ht)
    ⟨Chip.bits_engWord (d := x.cleared.chip) _ stamp poison hf hs, x.sameMem_mk _⟩

theorem does_lineWord_far (hp : x.chip.laneLoop n = 2) (ht : x.chip.listeners n = []) (hi : x.chip.txIdle n = false)
    (hv : x.chip.rb (R.LN_CFG n) 6 = x.chip.rb (R.LN_CFG n) 7) :
    Does (.lineWord n w stamp poison) ⟨q, x⟩ (fun y => y.chip.out = [.lane n (x.chip.txFreq n) (beBytes 4 w.toNat)]
      ∧ x.only y ∧ x.regsBut y []) := by
  have hfreq : x.cleared.chip.txFreq n = x.chip.txFreq n := x.sameClocks_cleared.txFreqN 128 n
  have hsend := Chip.lineWord_far_sends (d := x.cleared.chip) stamp poison he hl hp ht hi hv w.isLt
  rw [hfreq] at hsend
  exact does_on (exec_lineWord n w stamp poison ⟨q, x⟩) (decide_eq_true (by omega)) hx hsend
    ⟨rfl, ⟨rfl, x.sameMem_mk _⟩, fun _ _ _ => rfl⟩

theorem does_lineWord_near (hp : x.chip.laneLoop n = 1) (h4 : 4 ≤ (x.chip.lane n).loop.length)
    (ht : x.chip.listeners n = []) :
    Does (.lineWord n w stamp poison) ⟨q, x⟩
      (fun y => y.chip.lane n = { x.chip.lane n with loop := (x.chip.lane n).loop.drop 4 }
        ∧ x.only y (fun c => { c with lanes := y.chip.lanes }) ∧ x.regsBut y []) :=
  does_on (exec_lineWord n w stamp poison ⟨q, x⟩) (decide_eq_true (by omega)) hx
    (Chip.lineWord_near (d := x.cleared.chip) w.toNat stamp poison he hl hp h4 ht)
    ⟨Chip.lane_setLane_same _ _ _, ⟨rfl, x.sameMem_mk _⟩, fun _ _ _ => rfl⟩

end WordCommands

/-- Settles O14: hunting on a word leaves the hunter's position as the word put it, the loopbacks come before the
engines that listen, and a mirrored write leaves the engine's own register. -/
theorem lossOfFrameTimers : Obligations.LossOfFrameTimers := by
  intro q x hx
  refine ⟨fun e he => ⟨does_lofSetExpiry q he hx, does_lofSetExpiry_idle q he, does_lofClrExpiry q he hx,
      does_lofClrExpiry_idle q he, fun sess w ha hb => does_lofTimerConfig q he hx ha hb⟩,
    fun n w stamp poison hn => ⟨fun he hl => ⟨fun e => ?_, ?_, fun hp hw => ?_, ?_⟩,
      does_lineWord_idle q hn w stamp poison⟩⟩
  · exact does_lineWord_plain q hn w stamp poison hx he hl
  · exact does_lineWord_far q hn w stamp poison hx he hl
  · exact does_lineWord_waits q hn w stamp poison hp hw
  · exact does_lineWord_near q hn w stamp poison hx he hl

end Sys2Proof.Machine
end

section
set_option Elab.async false
/-! Frame hunting (R60, R79): what REHUNT, FORCE and SNAP leave.  First the units behind the hunter, which leave every
hunter; then the streams and the candidates of a hunter, which the group's verdict leaves too; then one part for each
of the three. -/
namespace Sys2Proof.Machine

/-! # The hunters behind a declaration -/

section Behind

variable (d : Chip) (e : Nat)

@[simp] theorem Chip.cutBips_hunters : (d.cutBips e).hunters = d.hunters :=
  foldl_keeps Chip.hunters _ (fun x t => Chip.setCtx_hunters x t _) _ _

@[simp] theorem Chip.tentOff_hunters : (d.tentOff e).hunters = d.hunters := by
  unfold Chip.tentOff
  dsimp only
  split
  · rfl
  · exact Chip.blind_hunters.engLevels _ e _

@[simp] theorem Chip.retract_hunters (reason : Nat) : (d.retract e reason).hunters = d.hunters :=
  (foldl_keeps Chip.hunters _ (fun x _ => Chip.tapWord_hunters x _ _) _ _).trans (Chip.tentOff_hunters d _)

@[simp] theorem Chip.lineOut_hunters : (d.lineOut e).hunters = d.hunters :=
  (Chip.blind_hunters.syncLine _ e).trans (foldl_keeps Chip.hunters _ (fun x t => Chip.setCtx_hunters x t _) _ d)

@[simp] theorem Chip.confirmEarly_hunters : (d.confirmEarly e).hunters = d.hunters := by
  unfold Chip.confirmEarly
  split
  · exact Chip.blind_hunters.confirmSubs d e
  · rfl

@[simp] theorem Chip.defThaw_hunters : (d.defThaw e).hunters = d.hunters := by
  have hupd (x : Chip) (k : DKey) (t : DefT) (p : Prop) [Decidable p] :
      (if p then x else x.setDefT k t).hunters = x.hunters := by
    split
    · rfl
    · rfl
  unfold Chip.defThaw
  dsimp only
  rw [foldl_keeps Chip.hunters _ (fun x t => foldl_keeps Chip.hunters _ (fun y b => hupd y _ _ _) _ x),
    foldl_keeps Chip.hunters _ (fun x k => hupd x _ _ _)]
  rfl

@[simp] theorem Chip.workDone_hunters : (d.workDone e).hunters = d.hunters := by
  have hslot (x : Chip) (k : Nat) (t : Trace) (p : Prop) [Decidable p] :
      (if p then x else x.setTrace k t).hunters = x.hunters := by
    split
    · rfl
    · rfl
  unfold Chip.workDone
  dsimp only
  rw [foldl_keeps Chip.hunters _ (fun x t => (Chip.blind_hunters.ctxSync _ t).trans (Chip.setCtx_hunters x t _)),
    foldl_keeps Chip.hunters _ (fun x k => hslot x k _ _)]
  rfl

@[simp] theorem Chip.lineIn_hunters (tent : Bool) : (d.lineIn e tent).hunters = d.hunters := by
  unfold Chip.lineIn
  extract_lets d1 d2 d3
  have h1 : d1.hunters = d.hunters := by simp [d1]
  have h2 : d2.hunters = d1.hunters := by
    unfold d2
    split
    · exact Chip.blind_hunters.breakLine d1 e true false
    · split
      · exact Chip.blind_hunters.confirmSubs d1 e
      · exact Chip.blind_hunters.confirmIn d1 e _
  have h3 : d3.hunters = d2.hunters :=
    foldl_keeps Chip.hunters _ (fun x g => Chip.blind_hunters.breakBale x g 1 true) _ d2
  calc _ = d3.hunters := (Chip.blind_hunters.raiseEng _ e 3 _ false).trans (Chip.blind_hunters.syncLine d3 e)
    _ = d.hunters := h3.trans (h2.trans h1)

end Behind

/-! # The streams and the candidates of a hunter -/

theorem setAt_eq_set {α : Type} (l : List α) (i : Nat) (v : α) : setAt l i v = l.set i v := by
  induction l generalizing i with
  | nil => rfl
  | cons a l ih =>
    cases i with
    | zero => rfl
    | succ i => exact congrArg (a :: ·) (ih i)

theorem Hunter.setStream_streams (h : Hunter) (i : Nat) (s : HStream) : (h.setStream i s).streams = h.streams.set i s :=
  setAt_eq_set h.streams i s

/-- What a hunter searches with: its streams and its table of candidates. -/
def Hunter.search (h : Hunter) : List HStream × SMap Cand := (h.streams, h.cands)

section Search

variable (d : Chip) (e i : Nat)

theorem Hunter.search_setStream (h : Hunter) (s : HStream) : (h.setStream i s).search = (h.streams.set i s, h.cands) :=
  congrArg (·, h.cands) (h.setStream_streams i s)

theorem Chip.search_congr {d c : Chip} (h : c.hunters = d.hunters) (e : Nat) :
    (c.hunter e).search = (d.hunter e).search :=
  congrArg Hunter.search (Chip.hunter_congr h e)

/-- A hunter that takes over its own streams and candidates leaves every hunter's. -/
theorem Chip.search_setHunter {d : Chip} {k : Nat} {h : Hunter} (hk : h.search = (d.hunter k).search) (e : Nat) :
    ((d.setHunter k h).hunter e).search = (d.hunter e).search := by
  obtain rfl | hne := eq_or_ne e k
  · rw [Chip.hunter_setHunter_same, hk]
  · exact congrArg Hunter.search (SMap.get_put_other Hunter.init Hunter.init d.hunters h hne)

/-- The verdict on a group changes what its head says of the group, and no search. -/
theorem Chip.search_gang (k : Nat) : ((d.gang k).hunter e).search = (d.hunter e).search := by
  unfold Chip.gang
  split
  · rfl
  · extract_lets h ss n all idok lags top skewBad x gin tent d1 d2 d3 d4 d5 d6
    have h1 : (d1.hunter e).search = (d.hunter e).search := by
      unfold d1
      exact Chip.search_setHunter (by rfl) e
    have h2 : d2.hunters = d1.hunters := by
      unfold d2
      split
      · exact (Chip.sf_hunters _ _ _ _ _).trans (foldl_keeps Chip.hunters _ (fun y m => Chip.wr_hunters y _ _) _ d1)
      · rfl
    have h4 : d4.hunters = d2.hunters := by
      unfold d4
      split
      · rfl
      · rfl
    have h5 : d5.hunters = d4.hunters := by
      unfold d5
      split
      · rfl
      · rfl
    have h6 : d6.hunters = d1.hunters := (Chip.blind_hunters.defCrit d5 _ _).trans (h5.trans (h4.trans h2))
    refine Eq.trans (Chip.search_congr (Eq.trans ?_ h6) e) h1
    split
    · exact Chip.lineIn_hunters _ _ _
    · split
      · exact Chip.lineOut_hunters _ _
      · split
        · exact (Chip.cutBips_hunters _ _).trans (Chip.retract_hunters _ _ _)
        · split
          · exact (Chip.blind_hunters.breakLine _ _ _ _).trans (Chip.cutBips_hunters _ _)
          · rfl

theorem Chip.search_ite_gang (k : Nat) :
    ((if d.ganged k then d.gang k else d).hunter e).search = (d.hunter e).search := by
  split
  · exact Chip.search_gang d e k
  · rfl

theorem Chip.search_hMoved (k : Nat) (was lead : Bool) :
    ((d.hMoved k was lead).hunter e).search = (d.hunter e).search := by
  unfold Chip.hMoved
  extract_lets now h d1
  have h1 : (d1.hunter e).search = (d.hunter e).search := by
    unfold d1
    split
    · exact Chip.search_setHunter (by rfl) e
    · rfl
  refine Eq.trans ?_ h1
  split
  · exact Chip.search_gang d1 e k
  · split
    · exact Chip.search_congr (Chip.lineIn_hunters d1 k _) e
    · split
      · exact Chip.search_congr (Chip.lineOut_hunters d1 k) e
      · rfl

/-- Where a lead leaves the table, its stream has none, and what it gave out is taken back. -/
theorem Chip.search_leadGone (reason : Nat) : ((d.leadGone e i reason).hunter e).search
    = ((d.hunter e).streams.set i { (d.hunter e).stream i with lead := none }, (d.hunter e).cands) := by
  unfold Chip.leadGone
  extract_lets h s hs d1 g
  have h1 : (d1.hunter e).search = (h.streams.set i { s with lead := none }, h.cands) := by
    unfold d1
    rw [Chip.hunter_setHunter_same]
    exact Hunter.search_setStream i h _
  refine Eq.trans ?_ h1
  split
  · exact Chip.search_congr ((Chip.cutBips_hunters _ _).trans (Chip.retract_hunters _ _ _)) e
  · split
    · exact (Chip.search_congr ((Chip.cutBips_hunters _ _).trans (Chip.retract_hunters _ _ _)) e).trans
        (Chip.search_setHunter (by rfl) e)
    · rfl

/-- A stream that searches, with no lead and no forced entry. -/
def HStream.anew (s : HStream) : Prop := s.st = .oof ∧ s.lead = none ∧ s.forced = none

theorem Chip.search_toOof : ∃ s : HStream, s.anew
    ∧ ((d.toOof e i).hunter e).search = ((d.hunter e).streams.set i s, (d.hunter e).cands) := by
  rw [← Chip.hunter_congr (Chip.confirmEarly_hunters d e) e]
  unfold Chip.toOof
  extract_lets d0 h s hs d1 d2
  have h2 : d2.hunters = d1.hunters := by
    unfold d2
    split
    · rfl
    · rfl
  have h3 : (((d2.count (R.HNT_OOF_CNT e)).flag (R.HNT_EVENT e) 1).ev e 0x0201 0).hunters = d1.hunters :=
    (Chip.ev_hunters _ _ _ _).trans h2
  rw [Chip.search_hMoved, Chip.search_congr h3]
  unfold d1
  rw [Chip.hunter_setHunter_same]
  exact ⟨_, ⟨rfl, rfl, rfl⟩, Hunter.search_setStream i h _⟩

/-- A lead that may be gone changes nothing of the streams but its own. -/
theorem Chip.search_ite_leadGone (reason : Nat) (p : Prop) [Decidable p] :
    (∀ s, ((if p then d.leadGone e i reason else d).hunter e).streams.set i s = (d.hunter e).streams.set i s)
      ∧ ((if p then d.leadGone e i reason else d).hunter e).cands = (d.hunter e).cands := by
  split
  · have h := Chip.search_leadGone d e i reason
    exact ⟨fun s => (congrArg (·.1.set i s) h).trans (List.set_set _), congrArg Prod.snd h⟩
  · exact ⟨fun _ => rfl, rfl⟩

end Search

/-! # REHUNT (R60) -/

section Rehunt

variable (d : Chip) (e i : Nat)

/-- A stream that is restarted searches anew, and none of its candidates is left. -/
theorem Chip.search_restart {reason : Nat} (hr : reason ≠ 3) : ∃ s : HStream, s.anew
    ∧ ((d.restart e i reason).hunter e).search
      = ((d.hunter e).streams.set i s, (d.hunter e).cands.filter (fun y => y.2.stream ≠ i)) := by
  obtain ⟨hset, hcands⟩ := Chip.search_ite_leadGone d e i reason (((d.hunter e).stream i).lead.isSome = true)
  unfold Chip.restart
  extract_lets s d1 h d2 cur d3
  have h2 : d2.hunter e = { h with cands := h.cands.filter (fun y => y.2.stream ≠ i), logged := false } :=
    Chip.hunter_setHunter_same d1 e _
  have h3 : ∃ t : HStream, t.anew ∧ (d3.hunter e).search = ((d2.hunter e).streams.set i t, (d2.hunter e).cands) := by
    unfold d3
    split
    · exact Chip.search_toOof d2 e i
    · rw [Chip.setStream, Chip.hunter_setHunter_same]
      exact ⟨_, ⟨rfl, rfl, rfl⟩, Hunter.search_setStream i _ _⟩
  obtain ⟨t, ht, h3⟩ := h3
  refine ⟨t, ht, ?_⟩
  rw [if_neg hr, h3, h2]
  exact congrArg₂ Prod.mk (hset t) (congrArg (List.filter _) hcands)

/-- After the restart of the first `n` streams each of these searches anew and has no candidate. -/
theorem Chip.search_restarts {reason : Nat} (hr : reason ≠ 3) (n : Nat) :
    let h := ((List.range n).foldl (fun x i => x.restart e i reason) d).hunter e
    h.streams.length = (d.hunter e).streams.length ∧ (∀ i < n, ∀ s, h.streams[i]? = some s → s.anew)
      ∧ ∀ c ∈ h.cands, n ≤ c.2.stream := by
  induction n with
  | zero => exact ⟨rfl, fun i hi => absurd hi (Nat.not_lt_zero i), fun _ _ => Nat.zero_le _⟩
  | succ n ih =>
    rw [List.range_succ, List.foldl_append]
    obtain ⟨hlen, hnew, hcands⟩ := ih
    obtain ⟨t, ht, hs⟩ := Chip.search_restart ((List.range n).foldl (fun x i => x.restart e i reason) d) e n hr
    obtain ⟨hstreams, htable⟩ := Prod.mk.inj hs
    dsimp only [List.foldl_cons, List.foldl_nil]
    rw [hstreams, htable]
    refine ⟨List.length_set.trans hlen, fun i hi s his => ?_, fun c hc => ?_⟩
    · obtain rfl | hne := eq_or_ne n i
      · obtain ⟨hlt, hget⟩ := List.getElem?_eq_some_iff.mp his
        rw [List.getElem_set_self] at hget
        exact hget ▸ ht
      · rw [List.getElem?_set_ne hne] at his
        exact hnew i (by omega) s his
    · obtain ⟨hmem, hne⟩ := List.mem_filter.mp hc
      have := hcands c hmem
      have : c.2.stream ≠ n := of_decide_eq_true hne
      omega

/-- After REHUNT every stream searches anew and none of their candidates is left. -/
theorem Chip.search_rehunt : (∀ s ∈ ((d.rehunt e).hunter e).streams, s.anew)
    ∧ ∀ c ∈ ((d.rehunt e).hunter e).cands, (d.hunter e).streams.length ≤ c.2.stream := by
  obtain ⟨hlen, hnew, hcands⟩ := Chip.search_restarts d e (reason := 4) (by decide) (d.hunter e).streams.length
  obtain ⟨hs, hc⟩ := Prod.mk.inj (Chip.search_ite_gang
    ((List.range (d.hunter e).streams.length).foldl (fun x i => x.restart e i 4) d) e e)
  unfold Chip.rehunt Chip.restartAll
  dsimp only
  rw [hs, hc]
  refine ⟨fun s hmem => ?_, hcands⟩
  obtain ⟨i, hi⟩ := List.getElem?_of_mem hmem
  exact hnew i (hlen ▸ (List.getElem?_eq_some_iff.mp hi).1) s hi

/-- REHUNT of a hunter in IDLE that stands in no group. -/
theorem Chip.rehunt_idle (hs : (d.hunter e).streams = []) (hg : d.ganged e = false) : d.rehunt e = d := by
  simp [Chip.rehunt, Chip.restartAll, hs, hg]

end Rehunt

/-! # FORCE (R60) -/

section Force

variable {d : Chip} {e k : Nat}

theorem Hunter.stream_setStream (h : Hunter) {i : Nat} (s : HStream) (hi : i < h.streams.length) :
    (h.setStream i s).stream i = s := by
  rw [Hunter.stream, Hunter.setStream_streams]
  simp [hi]

theorem Hunter.stream_congr {h g : Hunter} (hs : h.search = g.search) (i : Nat) : h.stream i = g.stream i :=
  congrArg (·.1.getD i HStream.init) hs

theorem Hunter.cands_congr {h g : Hunter} (hs : h.search = g.search) : h.cands = g.cands := congrArg Prod.snd hs

/-- A choice of the lead changes at most the lead of its stream. -/
theorem Chip.search_chooseLead (d : Chip) (e i stamp : Nat) (c : Scan) :
    ((d.chooseLead e i stamp c).hunter e).search = (d.hunter e).search
      ∨ ∃ l, ((d.chooseLead e i stamp c).hunter e).search
        = ((d.hunter e).setStream i { (d.hunter e).stream i with lead := l }).search := by
  unfold Chip.chooseLead
  extract_lets h s
  split
  · exact Or.inl rfl
  · split
    · exact Or.inl rfl
    · next x _ =>
      refine Or.inr ⟨some x.1, ?_⟩
      extract_lets fs start h1
      split
      · rw [Chip.hunter_setHunter_same]
        rfl
      · rw [Chip.search_congr ((Chip.blind_hunters.breakLine _ e true false).trans (Chip.cutBips_hunters _ e)),
          Chip.hunter_setHunter_same]
        rfl

/-- The entry that FORCE has named stays named when a lead is chosen. -/
theorem Chip.forced_chooseLead {i : Nat} (hi : i < (d.hunter e).streams.length) (stamp : Nat) (c : Scan) :
    (((d.chooseLead e i stamp c).hunter e).stream i).forced = ((d.hunter e).stream i).forced := by
  obtain h | ⟨l, h⟩ := Chip.search_chooseLead d e i stamp c
  · rw [Hunter.stream_congr h]
  · rw [Hunter.stream_congr h, Hunter.stream_setStream _ _ hi]

theorem Chip.cands_chooseLead (d : Chip) (e i stamp : Nat) (c : Scan) :
    ((d.chooseLead e i stamp c).hunter e).cands = (d.hunter e).cands := by
  obtain h | ⟨l, h⟩ := Chip.search_chooseLead d e i stamp c
  · exact Hunter.cands_congr h
  · exact (Hunter.cands_congr h).trans rfl

/-- FORCE is rejected on an empty entry. -/
theorem Chip.force_empty (h : ∀ c ∈ (d.hunter e).cands, c.1 ≠ k) :
    d.force e k = (false, d.flag (R.HNT_EVENT e) 7) := by
  have hf : (d.hunter e).cands.find? (fun x => x.1 = k) = none := by simpa [List.find?_eq_none] using h
  simp only [Chip.force, hf]

section Live

variable {c : Nat × Cand} (hc : (d.hunter e).cands.find? (fun x => x.1 = k) = some c)

include hc

/-- FORCE is rejected on a candidate of a stream that is IN_FRAME. -/
theorem Chip.force_inFrame (hs : ((d.hunter e).stream c.2.stream).st = .inFrame) :
    d.force e k = (false, d.flag (R.HNT_EVENT e) 7) := by
  simp only [Chip.force, hc, hs, if_true]

/-- FORCE on a candidate of a stream that searches names it and drops the others of its stream. -/
theorem Chip.force_names (hs : ((d.hunter e).stream c.2.stream).st ≠ .inFrame)
    (hi : c.2.stream < (d.hunter e).streams.length) :
    ∃ y, d.force e k = (true, y) ∧ ((y.hunter e).stream c.2.stream).forced = some k
      ∧ ∀ z ∈ (y.hunter e).cands, z.2.stream = c.2.stream → z.1 = k := by
  obtain ⟨hset, -⟩ := Chip.search_ite_leadGone d e c.2.stream 5 (((d.hunter e).stream c.2.stream).lead.isSome = true
    ∧ ((d.hunter e).stream c.2.stream).lead ≠ some k)
  unfold Chip.force
  extract_lets h
  split
  · next hn => exact absurd (hn.symm.trans hc) (by simp)
  · next x hx =>
    obtain rfl : x = c := Option.some.inj (hx.symm.trans hc)
    extract_lets i s d1 h1 cur named d2 d3
    rw [if_neg hs]
    have hlen : h1.streams.length = (d.hunter e).streams.length := by
      simpa only [List.length_set] using congrArg List.length (hset cur)
    have h2 : d2.hunter e = { named with cands := h1.cands.filter (fun y => y.2.stream ≠ i ∨ y.1 = k) } :=
      Chip.hunter_setHunter_same d1 e _
    have hnamed : ((d2.hunter e).stream i).forced = some k := by
      rw [h2]
      exact congrArg HStream.forced (Hunter.stream_setStream h1 _ (hlen ▸ hi))
    have hnum : named.streams.length = (d.hunter e).streams.length := by
      simp only [named, Hunter.setStream_streams, List.length_set, hlen]
    have hi2 : i < (d2.hunter e).streams.length := by
      rw [h2]
      exact hnum ▸ hi
    have hgang := Chip.search_ite_gang d3 e e
    refine ⟨_, rfl, ?_, fun z hz hzi => ?_⟩
    · rw [Hunter.stream_congr hgang]
      exact (Chip.forced_chooseLead hi2 _ _).trans hnamed
    · rw [Hunter.cands_congr hgang, Chip.cands_chooseLead d2, h2] at hz
      exact (of_decide_eq_true (List.mem_filter.mp hz).2).resolve_left (fun hne => hne hzi)

end Live

end Force

/-! # SNAP (R79) -/

section Snap

variable (d : Chip) (e : Nat)

theorem candKey_ne {j k : Nat} (hj : j < 64) (hk : k < 64) (h : j ≠ k) : (R.HNT_CAND e j).key ≠ (R.HNT_CAND e k).key :=
  RegId.key_ne_of_offs (by omega)

/-- The first `n` entries of the table are copied. -/
theorem Chip.rd_snaps {n : Nat} (hn : n ≤ 64) {k : Nat} (hk : k < n) :
    ((List.range n).foldl (fun x j => x.wr (R.HNT_CAND e j) (d.candWord e j)) d).rd (R.HNT_CAND e k) = d.candWord e k := by
  induction n with
  | zero => exact absurd hk (Nat.not_lt_zero k)
  | succ n ih =>
    rw [List.range_succ, List.foldl_append]
    dsimp only [List.foldl_cons, List.foldl_nil]
    obtain rfl | hne := eq_or_ne k n
    · exact Chip.rd_wr_same _ _ _
    · rw [Chip.rd_wr_other _ _ (candKey_ne e (by omega) (by omega) hne)]
      exact ih (by omega) (by omega)

theorem Chip.rd_snap {k : Nat} (hk : k < 64) : (d.snap e).rd (R.HNT_CAND e k) = d.candWord e k :=
  Chip.rd_snaps d e (Nat.le_refl 64) hk

@[simp] theorem Chip.snap_hunters : (d.snap e).hunters = d.hunters :=
  foldl_keeps Chip.hunters _ (fun x _ => Chip.wr_hunters x _ _) _ d

/-- The table of candidates is no configuration that a spare takes over. -/
theorem engRows_no_cand : ∀ r ∈ RegMap.engRows, r.off % 2 ^ 12 < 0x100 ∨ 0x200 ≤ r.off % 2 ^ 12 := by decide +kernel

theorem Chip.rd_copyConfig_cand (s : Nat) {k : Nat} (hk : k < 64) :
    (d.copyConfig e s).rd (R.HNT_CAND e k) = d.rd (R.HNT_CAND e k) := by
  refine List.foldlRecOn (motive := fun c : Chip => c.rd (R.HNT_CAND e k) = d.rd (R.HNT_CAND e k)) _ _ rfl
    fun c hc r hr => Eq.trans (Chip.rd_wr_other c _ (RegId.key_ne_of_offs ?_)) hc
  have := engRows_no_cand r (List.mem_of_mem_filter hr)
  omega

theorem Chip.rd_mirror_cand {k : Nat} (hk : k < 64) : (d.mirror e).rd (R.HNT_CAND e k) = d.rd (R.HNT_CAND e k) :=
  foldl_keeps (fun c : Chip => c.rd (R.HNT_CAND e k)) _ (fun c s => Chip.rd_copyConfig_cand c e s hk) _ d

@[simp] theorem Chip.mirror_hunters : (d.mirror e).hunters = d.hunters :=
  foldl_keeps Chip.hunters _ (fun c _ => foldl_keeps Chip.hunters _ (fun x _ => Chip.wr_hunters x _ _) _ c) _ d

end Snap

/-! # Writes of HNT_CTRL (R79) -/

section Write

variable (d : Chip) (e : Nat)

theorem Chip.huntCtrl_rehunt : d.huntCtrl e 1 = (.ok, d.rehunt e) := rfl

theorem Chip.huntCtrl_snap : d.huntCtrl e 4 = (.ok, d.snap e) := rfl

/-- The word of FORCE holds FORCE and the entry, and neither REHUNT nor SNAP. -/
theorem forceWord_fields : ∀ k < 64, bit (w32 (2 + k * 2 ^ 8)) 0 = false ∧ bit (w32 (2 + k * 2 ^ 8)) 1 = true
    ∧ bit (w32 (2 + k * 2 ^ 8)) 2 = false ∧ fld (w32 (2 + k * 2 ^ 8)) 13 8 = k := by decide

theorem Chip.huntCtrl_force {k : Nat} (hk : k < 64) : d.huntCtrl e (w32 (2 + k * 2 ^ 8))
    = (if (d.force e k).1 then .ok else .badParam, (d.force e k).2) := by
  obtain ⟨h0, h1, h2, hf⟩ := forceWord_fields k hk
  generalize w32 (2 + k * 2 ^ 8) = w at h0 h1 h2 hf
  simp [Chip.huntCtrl, h0, h1, h2, hf]

variable {d e}

theorem Dev.writeReg_huntCtrl {x : Dev} (w : Word) (hb : x.chip.subBusy e = false) :
    x.writeReg (R.HNT_CTRL e) w = ((x.chip.huntCtrl e w).1, ⟨(x.chip.huntCtrl e w).2, x.mem⟩) := by
  have hc : ¬ (x.chip.subBusy (R.HNT_CTRL e).idx = true ∧ ¬ ((R.HNT_CTRL e).off = 0 ∧ bit w 1 = true)) := by
    simp [R.HNT_CTRL, hb]
  exact if_neg hc

/-- A write of HNT_CTRL that passes its checks does what its bits ask for, and is answered with its status. -/
theorem Dev.hostWrite_huntCtrl {x : Dev} {sess : Nat} {w : Word} {st : Status} {c : Chip}
    (ha : x.allows sess (R.HNT_CTRL e) w) (hb : x.chip.subBusy e = false) (hw : x.chip.huntCtrl e w = (st, c)) :
    x.hostWrite sess (R.HNT_CTRL e) w = ⟨(if st = .ok then c.mirror e else c).answer st, x.mem⟩ := by
  simp only [Dev.hostWrite, Dev.regWrite_allows x sess 0x0011 _ w ha, Dev.writeReg_huntCtrl w hb, hw]
  have hown : ownerOnly (R.HNT_CTRL e) = false := rfl
  have hrow : (R.HNT_CTRL e).row.isSome = true := rfl
  have hblk : (R.HNT_CTRL e).blk = .eng := rfl
  simp only [hown, hrow, hblk, true_and, and_true, Bool.false_eq_true, false_and, if_false]
  rfl

end Write

/-! # The commands -/

theorem exec_rehunt (sess e : Nat) (s : State) : exec (.rehunt sess e) s
    = command (engineOk e) false (fun x => x.hostWrite sess (R.HNT_CTRL e) 1) s := rfl

theorem exec_force (sess e : Nat) {k : Nat} (hk : k < 64) (s : State) : exec (.force sess e k) s
    = command (engineOk e) false (fun x => x.hostWrite sess (R.HNT_CTRL e) (w32 (2 + k * 2 ^ 8))) s := by
  have h : exec (.force sess e k) s
      = command (engineOk e) false (fun x => x.hostWrite sess (R.HNT_CTRL e) (w32 (2 + k % 64 * 2 ^ 8))) s := rfl
  rw [h, Nat.mod_eq_of_lt hk]

theorem exec_snap (sess e : Nat) (s : State) : exec (.snap sess e) s
    = command (engineOk e) false (fun x => x.hostWrite sess (R.HNT_CTRL e) 4) s := rfl

section Commands

variable (q : List Instr) {x : Dev} {sess e : Nat} (he : e < 136) (hx : x.live) (hb : x.chip.subBusy e = false)

include he hx hb

theorem does_rehunt (ha : x.allows sess (R.HNT_CTRL e) 1) :
    Does (.rehunt sess e) ⟨q, x⟩ (fun y => y.answered .ok ∧ x.sameMem y
      ∧ (∀ s ∈ (y.chip.hunter e).streams, s.st = .oof ∧ s.lead = none ∧ s.forced = none)
      ∧ (∀ c ∈ (y.chip.hunter e).cands, (x.chip.hunter e).streams.length ≤ c.2.stream)
      ∧ ((x.chip.hunter e).streams = [] → x.chip.ganged e = false → y.chip.hunter e = x.chip.hunter e)) := by
  refine does_of_command (exec_rehunt sess e ⟨q, x⟩) (decide_eq_true he) hx ?_
  rw [Dev.hostWrite_huntCtrl (x := x.cleared) (Dev.allows_cleared ha) hb (Chip.huntCtrl_rehunt _ e)]
  have hh : (((x.cleared.chip.rehunt e).mirror e).answer .ok).hunter e = (x.cleared.chip.rehunt e).hunter e :=
    Chip.hunter_congr (Chip.mirror_hunters _ e) e
  obtain ⟨hnew, hcands⟩ := Chip.search_rehunt x.cleared.chip e
  refine ⟨Chip.answered_answer _ _ _, x.sameMem_mk _, ?_, ?_, fun hs hg => ?_⟩
  · exact fun s hs => hnew s (hh ▸ hs)
  · exact fun c hc => hcands c (hh ▸ hc)
  · have hidle : x.cleared.chip.rehunt e = x.cleared.chip := Chip.rehunt_idle _ e hs hg
    exact hh.trans (by rw [hidle]; rfl)

theorem does_snap (ha : x.allows sess (R.HNT_CTRL e) 4) :
    Does (.snap sess e) ⟨q, x⟩ (fun y => y.answered .ok ∧ x.sameMem y ∧ y.chip.hunters = x.chip.hunters
      ∧ ∀ k < 64, y.chip.rd (R.HNT_CAND e k) = x.chip.candWord e k) := by
  refine does_of_command (exec_snap sess e ⟨q, x⟩) (decide_eq_true he) hx ?_
  rw [Dev.hostWrite_huntCtrl (x := x.cleared) (Dev.allows_cleared ha) hb (Chip.huntCtrl_snap _ e)]
  refine ⟨Chip.answered_answer _ _ _, x.sameMem_mk _, ?_, fun k hk => ?_⟩
  · exact (Chip.mirror_hunters _ e).trans (Chip.snap_hunters _ e)
  · exact (Chip.rd_mirror_cand _ e hk).trans (Chip.rd_snap x.cleared.chip e hk)

variable {k : Nat} (hk : k < 64) (ha : x.allows sess (R.HNT_CTRL e) (w32 (2 + k * 2 ^ 8)))

include hk ha

theorem does_force_rejected (hf : x.cleared.chip.force e k = (false, x.cleared.chip.flag (R.HNT_EVENT e) 7)) :
    Does (.force sess e k) ⟨q, x⟩ (fun y => y.answered .badParam ∧ y.chip.rb (R.HNT_EVENT e) 7 = true
      ∧ y.chip.hunter e = x.chip.hunter e ∧ x.sameMem y) := by
  refine does_of_command (exec_force sess e hk ⟨q, x⟩) (decide_eq_true he) hx ?_
  rw [Dev.hostWrite_huntCtrl (x := x.cleared) (Dev.allows_cleared ha) hb (Chip.huntCtrl_force _ e hk), hf]
  exact ⟨Chip.answered_answer _ _ _, Chip.rb_flag_same _ _ 7 (by decide), rfl, x.sameMem_mk _⟩

theorem does_force {c : Nat × Cand} (hc : (x.chip.hunter e).cands.find? (fun z => z.1 = k) = some c)
    (hs : ((x.chip.hunter e).stream c.2.stream).st ≠ .inFrame) (hi : c.2.stream < (x.chip.hunter e).streams.length) :
    Does (.force sess e k) ⟨q, x⟩ (fun y => y.answered .ok ∧ ((y.chip.hunter e).stream c.2.stream).forced = some k
      ∧ (∀ z ∈ (y.chip.hunter e).cands, z.2.stream = c.2.stream → z.1 = k) ∧ x.sameMem y) := by
  refine does_of_command (exec_force sess e hk ⟨q, x⟩) (decide_eq_true he) hx ?_
  obtain ⟨y, hy, hforced, hcands⟩ := Chip.force_names (d := x.cleared.chip) hc hs hi
  rw [Dev.hostWrite_huntCtrl (x := x.cleared) (Dev.allows_cleared ha) hb (Chip.huntCtrl_force _ e hk), hy]
  have hh : ((y.mirror e).answer .ok).hunter e = y.hunter e := Chip.hunter_congr (Chip.mirror_hunters y e) e
  refine ⟨Chip.answered_answer _ _ _, ?_, ?_, x.sameMem_mk _⟩
  · exact (congrArg (fun h : Hunter => (h.stream c.2.stream).forced) hh).trans hforced
  · exact fun z hz => hcands z (hh ▸ hz)

end Commands

/-- Settles O15: REHUNT restarts the streams one after another, FORCE answers by the stream of the entry, and what
follows each of them, up to the group's verdict and the spares' copies, leaves the streams and the table. -/
theorem hunterControls : Obligations.HunterControls := by
  intro q x sess e he hx hb
  refine ⟨does_rehunt q he hx hb, fun k hk ha => ⟨fun hn => ?_, fun c hc => ⟨fun hs => ?_, fun hs hi => ?_⟩⟩,
    does_snap q he hx hb⟩
  · exact does_force_rejected q he hx hb hk ha (Chip.force_empty hn)
  · exact does_force_rejected q he hx hb hk ha (Chip.force_inFrame hc hs)
  · exact does_force q he hx hb hk ha hc hs hi

end Sys2Proof.Machine
end

section
set_option Elab.async false
/-! Overhead (R80-R96): what received and transmitted frames, the commit of byte overrides and the trail-trace windows
leave.  First host writes to an engine window, which every one of these registers shares; then one part for each
obligation. -/
namespace Sys2Proof.Machine

/-! # Host writes to an engine window (R300) -/

section EngineWrite

variable (d : Chip) {x : Dev} {sess e o : Nat} {w : Word} {st : Status} {c : Chip}

/-- A spare's copy of an engine's configuration leaves the registers of the engine's window as they are. -/
theorem Chip.rd_copyConfig_eng (e s : Nat) (ho : o < 2 ^ 12) : (d.copyConfig e s).rd ⟨.eng, e, o⟩ = d.rd ⟨.eng, e, o⟩ := by
  refine List.foldlRecOn (motive := fun c : Chip => c.rd ⟨.eng, e, o⟩ = d.rd ⟨.eng, e, o⟩) _ _ rfl
    fun c hc r hr => Eq.trans ?_ hc
  by_cases hk : (RegId.mk .eng e o).key = (RegId.mk .eng s r.off).key
  · have hlt := engRows_off r (List.mem_of_mem_filter hr)
    have hoff : o = r.off := by
      by_contra hne
      exact RegId.key_ne_of_offs (by omega) hk
    subst hoff
    rw [Chip.rd_eq_of_key _ hk rfl, Chip.rd_wr_same, ← Chip.rd_eq_of_key c hk rfl]
    exact word_merge _ _
  · exact Chip.rd_wr_other c _ hk

theorem Chip.rd_mirror_eng (e : Nat) (ho : o < 2 ^ 12) : (d.mirror e).rd ⟨.eng, e, o⟩ = d.rd ⟨.eng, e, o⟩ :=
  foldl_keeps (fun c : Chip => c.rd ⟨.eng, e, o⟩) _ (fun c s => Chip.rd_copyConfig_eng c e s ho) _ d

/-- A spare's copies are written to engine windows alone. -/
theorem Chip.mirror_keeps {γ : Type} (f : Chip → γ) (hf : ∀ (c : Chip) (r : RegId) (w : Word), r.blk = .eng → f (c.wr r w) = f c)
    (e : Nat) : f (d.mirror e) = f d :=
  foldl_keeps f _ (fun c _ => foldl_keeps f _ (fun c _ => hf c _ _ rfl) _ c) _ d

/-- A write to an engine window that passes its checks is answered with the status of its effect, which the spares
that shadow the engine follow when it is OK. -/
theorem Dev.hostWrite_eng (ha : x.allows sess ⟨.eng, e, o⟩ w) (hb : x.chip.subBusy e = false)
    (hr : (RegId.mk .eng e o).row.isSome = true)
    (hw : x.writeEng e ⟨.eng, e, o⟩ (x.chip.reach ⟨.eng, e, o⟩) w = (st, ⟨c, x.mem⟩)) :
    x.hostWrite sess ⟨.eng, e, o⟩ w = ⟨(if st = .ok then c.mirror e else c).answer st, x.mem⟩ := by
  have hreg : x.writeReg ⟨.eng, e, o⟩ w = (st, ⟨c, x.mem⟩) :=
    (if_neg (fun h => by simp [hb] at h)).trans hw
  have hown : ownerOnly ⟨.eng, e, o⟩ = false := rfl
  simp only [Dev.hostWrite, Dev.regWrite_allows x sess 0x0011 _ w ha, hreg, hown, hr, true_and, and_true, Bool.false_eq_true,
    false_and, if_false]
  rfl

/-- A command that writes a register of an engine window leaves what the register's own write leaves. -/
theorem does_hostWrite_eng (q : List Instr) (hx : x.live) {i : Instr} {ok : Bool} {P : Dev → Prop}
    (hi : exec i ⟨q, x⟩ = command ok false (fun y => y.hostWrite sess ⟨.eng, e, o⟩ w) ⟨q, x⟩) (hok : ok = true)
    (ha : x.allows sess ⟨.eng, e, o⟩ w) (hb : x.chip.subBusy e = false)
    (hr : (RegId.mk .eng e o).row.isSome = true)
    (hw : x.cleared.writeEng e ⟨.eng, e, o⟩ (x.cleared.chip.reach ⟨.eng, e, o⟩) w = (st, ⟨c, x.mem⟩))
    (hp : P ⟨(if st = .ok then c.mirror e else c).answer st, x.mem⟩) :
    Does i ⟨q, x⟩ (fun y => y.answered st ∧ P y) := by
  refine does_of_command hi hok hx ?_
  rw [Dev.hostWrite_eng (x := x.cleared) (Dev.allows_cleared ha) hb hr hw]
  exact ⟨Chip.answered_answer _ _ _, hp⟩

end EngineWrite

/-! # The trail-trace windows (R88, R89, R96) -/

/-! ## The window of a buffer -/

/-- The word that a write of OHP_TTI_IDX stores: the fields that name a slot and a buffer. -/
def ttiIdxWord (w : Word) : Word := w32 (fld w 11 0 + b2n (bit w 15) * 2 ^ 15 + fld w 17 16 * 2 ^ 16)

theorem ttiIdxWord_fields (w : Word) : fld (ttiIdxWord w) 11 0 = fld w 11 0 ∧ bit (ttiIdxWord w) 15 = bit w 15
    ∧ fld (ttiIdxWord w) 17 16 = fld w 17 16 := by
  have hslot : fld w 11 0 < 2 ^ 12 := fld_lt w 11 0
  have hbuf : fld w 17 16 < 2 ^ 2 := fld_lt w 17 16
  rw [bit_eq_fld (ttiIdxWord w)]
  unfold ttiIdxWord
  generalize fld w 11 0 = slot at *
  generalize fld w 17 16 = buf at *
  cases bit w 15
  all_goals
    simp only [fld, w32, b2n, BitVec.toNat_ofNat, if_true, Bool.false_eq_true, if_false, decide_eq_true_eq,
      decide_eq_false_iff_not]
    omega

/-- The buffer of a slot that BUF names: expected, accepted or transmit. -/
def Trace.buffer (t : Trace) (buf : Nat) : List Byte := if buf = 0 then t.exp else if buf = 1 then t.acc else t.tx

/-- Word `i` of a buffer as OHP_TTI_DATA shows it. -/
def ttiWord (l : List Byte) (i : Nat) : Word := w32 (ofBytes (((padTo 64 0 l).drop (4 * i)).take 4))

/-- A buffer is copied into OHP_TTI_DATA0 to 15. -/
def Chip.ttiLoad (d : Chip) (e : Nat) (l : List Byte) : Chip :=
  (List.range 16).foldl (fun x i => x.wr (ttiData e i) (ttiWord l i)) d

section Load

variable (d : Chip) (e : Nat) (l : List Byte)

/-- Registers that are written one after another hold what each was given. -/
theorem Chip.rd_foldl_wr (d : Chip) {r : Nat → RegId} {v : Nat → Word} {n : Nat}
    (hr : ∀ j < n, ∀ k < n, j ≠ k → (r j).key ≠ (r k).key) {k : Nat} (hk : k < n) :
    ((List.range n).foldl (fun x i => x.wr (r i) (v i)) d).rd (r k) = v k := by
  induction n with
  | zero => exact absurd hk (Nat.not_lt_zero k)
  | succ n ih =>
    rw [List.range_succ, List.foldl_append]
    dsimp only [List.foldl_cons, List.foldl_nil]
    obtain rfl | hne := eq_or_ne k n
    · exact Chip.rd_wr_same _ _ _
    · rw [Chip.rd_wr_other _ _ (hr k (by omega) n (by omega) hne)]
      exact ih (fun j hj m hm => hr j (by omega) m (by omega)) (by omega)

theorem ttiData_key_ne {j k : Nat} (hj : j < 16) (hk : k < 16) (h : j ≠ k) : (ttiData e j).key ≠ (ttiData e k).key :=
  RegId.key_ne_of_offs (by omega)

theorem Chip.rd_ttiLoad {i : Nat} (hi : i < 16) : (d.ttiLoad e l).rd (ttiData e i) = ttiWord l i :=
  Chip.rd_foldl_wr d (v := ttiWord l) (fun _ hj _ hk h => ttiData_key_ne e hj hk h) hi

theorem Chip.rd_ttiLoad_other {r : RegId} (hr : ∀ i < 16, r.key ≠ (ttiData e i).key) : (d.ttiLoad e l).rd r = d.rd r :=
  List.foldlRecOn (motive := fun x : Chip => x.rd r = d.rd r) _ _ rfl
    fun x hx i hi => (Chip.rd_wr_other x _ (hr i (List.mem_range.mp hi))).trans hx

theorem Chip.ttiLoad_besides (c : Chip) : (d.ttiLoad e l).besides c = d.besides c :=
  foldl_keeps (fun x : Chip => x.besides c) _ (fun x _ => Chip.wr_besides x _ _ c) _ d

end Load

/-! ## Writes of OHP_TTI_IDX and OHP_TTI_CMD -/

section IdxAndStore

variable {d : Chip} {e : Nat} {w : Word}

theorem Chip.ttiIdxWrite_named (hs : bit w 15 = true ∨ fld w 11 0 ≤ 7) (hb : fld w 17 16 < 3) :
    d.ttiIdxWrite e w = (.ok, (d.wr (R.OHP_TTI_IDX e) (ttiIdxWord w)).ttiLoad e
      ((d.trace (slotKey e (fld w 11 0) (bit w 15))).buffer (fld w 17 16))) := by
  obtain ⟨hslot, hshared, -⟩ := ttiIdxWord_fields w
  have hidx : (d.wr (R.OHP_TTI_IDX e) (ttiIdxWord w)).ttiIdx e = some (slotKey e (fld w 11 0) (bit w 15)) := by
    unfold Chip.ttiIdx slotKey
    rw [Chip.rd_wr_same]
    dsimp only
    rw [hslot, hshared]
    cases hc : bit w 15
    · exact if_pos (hs.resolve_left (by simp [hc]))
    · rfl
  have hnamed : ¬ ((¬ bit w 15 = true ∧ 7 < fld w 11 0) ∨ fld w 17 16 = 3) := by
    rintro (⟨hlocal, hbig⟩ | h3)
    · exact absurd (hs.resolve_left hlocal) (by omega)
    · omega
  unfold Chip.ttiIdxWrite
  dsimp only
  rw [if_neg hnamed]
  unfold ttiIdxWord at hidx ⊢
  rw [hidx]
  rfl

theorem Chip.ttiIdxWrite_unnamed (h : (bit w 15 = false ∧ 7 < fld w 11 0) ∨ fld w 17 16 = 3) :
    d.ttiIdxWrite e w = (.badParam, d.flag (R.OHP_EVENT e) 10) :=
  if_pos (by simpa using h)

theorem Chip.ttiStore_unnamed (h : d.ttiIdx e = none ∨ d.rf (R.OHP_TTI_IDX e) 17 16 = 1 ∨ d.rf (R.OHP_TTI_IDX e) 17 16 = 3) :
    d.ttiStore e = (.badParam, d.flag (R.OHP_EVENT e) 10) := by
  unfold Chip.ttiStore
  cases hk : d.ttiIdx e with
  | none => rfl
  | some k =>
    have hbuf : d.rf (R.OHP_TTI_IDX e) 17 16 ≠ 0 ∧ d.rf (R.OHP_TTI_IDX e) 17 16 ≠ 2 := by
      simp only [hk] at h
      simp at h
      omega
    simp [hbuf]

/-- The octets that the data registers hold. -/
def Chip.ttiOctets (d : Chip) (e : Nat) : List Byte :=
  (List.range 16).flatMap (fun i => beBytes 4 (d.rd (ttiData e i)).toNat)

variable {k : Nat} (hk : d.ttiIdx e = some k)

include hk

theorem Chip.ttiStore_expected (h : d.rf (R.OHP_TTI_IDX e) 17 16 = 0) :
    d.ttiStore e = (.ok, d.setTrace k { d.trace k with exp := d.ttiOctets e }) := by
  simp only [Chip.ttiStore, hk, h]
  rfl

theorem Chip.ttiStore_transmit (h : d.rf (R.OHP_TTI_IDX e) 17 16 = 2) :
    d.ttiStore e = (.ok, d.setTrace k { d.trace k with tx := d.ttiOctets e }) := by
  simp only [Chip.ttiStore, hk, h]
  rfl

end IdxAndStore

theorem Chip.trace_setTrace_same (d : Chip) (k : Nat) (t : Trace) : (d.setTrace k t).trace k = t :=
  SMap.get_put_same _ _ _ _

theorem Chip.trace_setTrace_other (d : Chip) {k j : Nat} (t : Trace) (h : j ≠ k) : (d.setTrace k t).trace j = d.trace j :=
  SMap.get_put_other _ _ _ _ h

theorem Chip.trace_congr {d c : Chip} (h : c.traces = d.traces) (k : Nat) : c.trace k = d.trace k := by
  unfold Chip.trace
  rw [h]

/-- A spare's copies leave every trace slot. -/
theorem Chip.mirror_traces (d : Chip) (e : Nat) : (d.mirror e).traces = d.traces :=
  Chip.mirror_keeps d Chip.traces (fun _ _ _ _ => rfl) e

/-! ## What the defect monitor leaves alone

A write of OHP_TTI_SLOT clears the slot's TIM criterion, and what follows a defect runs on through events, triggers and
protection.  All of that writes registers of engine windows alone. -/

/-- No update of the units behind the defect monitor changes what `f` shows. -/
structure Chip.BlindToEngines {γ : Type} (f : Chip → γ) : Prop where
  wr : ∀ (d : Chip) (r : RegId) (w : Word), r.blk = .eng → f (d.wr r w) = f d
  log : ∀ (d : Chip) (l : EvLog), f { d with log := l } = f d
  lines : ∀ (d : Chip) (l : List LineFire), f { d with lines := l } = f d
  paths : ∀ (d : Chip) (l : SMap Nat), f { d with paths := l } = f d
  setCap : ∀ (d : Chip) (k : Nat) (c : Cap), f (d.setCap k c) = f d
  setRgn : ∀ (d : Chip) (k : Nat) (c : Rgn), f (d.setRgn k c) = f d
  setComb : ∀ (d : Chip) (k : Nat) (c : Comb), f (d.setComb k c) = f d
  setGroup : ∀ (d : Chip) (k : Nat) (c : Group), f (d.setGroup k c) = f d
  setDefT : ∀ (d : Chip) (k : DKey) (c : DefT), f (d.setDefT k c) = f d
  setMon : ∀ (d : Chip) (k : Nat) (c : DefMon), f (d.setMon k c) = f d

/-- A register outside the engine windows. -/
theorem Chip.blindToEngines_rd {r : RegId} (hr : r.blk ≠ .eng) : Chip.BlindToEngines (fun d => d.rd r) :=
  ⟨fun d _ _ h => Chip.rd_wr_other d _ (RegId.key_ne_of_blk (by rwa [h])), fun _ _ => rfl, fun _ _ => rfl,
    fun _ _ => rfl, fun _ _ _ => rfl, fun _ _ _ => rfl, fun _ _ _ => rfl, fun _ _ _ => rfl, fun _ _ _ => rfl,
    fun _ _ _ => rfl⟩

theorem Chip.blindToEngines_traces : Chip.BlindToEngines Chip.traces :=
  ⟨fun _ _ _ _ => rfl, fun _ _ => rfl, fun _ _ => rfl, fun _ _ => rfl, fun _ _ _ => rfl, fun _ _ _ => rfl,
    fun _ _ _ => rfl, fun _ _ _ => rfl, fun _ _ _ => rfl, fun _ _ _ => rfl⟩

/-- A run of steps that `f` does not see.  The argument `_K` lets `grind` find the lemma. -/
theorem Chip.BlindToEngines.foldl {γ β : Type} {f : Chip → γ} (_K : Chip.BlindToEngines f) {g : Chip → β → Chip}
    (h : ∀ d b, f (g d b) = f d) (l : List β) (d : Chip) : f (l.foldl g d) = f d :=
  foldl_keeps f g h l d

namespace Chip.BlindToEngines

variable {γ : Type} {f : Chip → γ} (K : Chip.BlindToEngines f)

include K

theorem flag (d : Chip) (r : RegId) (i : Nat) (h : r.blk = .eng) : f (d.flag r i) = f d := K.wr d r _ h
theorem sbit (d : Chip) (r : RegId) (i : Nat) (b : Bool) (h : r.blk = .eng) : f (d.sbit r i b) = f d := K.wr d r _ h
theorem count (d : Chip) (r : RegId) (n : Nat) (h : r.blk = .eng) : f (d.count r n) = f d := K.wr d r _ h

theorem setPair (d : Chip) (lo hi : RegId) (v : Nat) (hl : lo.blk = .eng) (hh : hi.blk = .eng) :
    f (d.setPair lo hi v) = f d :=
  (K.wr _ hi _ hh).trans (K.wr d lo _ hl)

theorem evt (d : Chip) (src code ctx det ext : Nat) : f (d.evt src code ctx det ext) = f d :=
  Chip.evtAt_keeps f (Chip.tapWord_keeps f K.setCap (fun _ _ _ _ => (K.wr _ _ _ rfl).trans (K.wr _ _ _ rfl))) K.log
    d d.dt src code ctx det ext

theorem ev (d : Chip) (src code det : Nat) : f (d.ev src code det) = f d := K.evt d src code 0xFFFF det 0

/-! ### Triggers -/

theorem enqueue (d : Chip) (c : RCfg) (b : Bale) (marker : Bool) (last : Nat) :
    f (d.enqueue c b marker last) = f d := by
  grind [Chip.enqueue, setRgn]

theorem closeBale (d : Chip) (r : Nat) : f (d.closeBale r) = f d := by
  grind [Chip.closeBale, enqueue, setRgn]

theorem openWith (d : Chip) (r : Nat) (tent split : Bool) (l : List Byte) (tags : List OTag) :
    f (d.openWith r tent split l tags) = f d :=
  K.setRgn d r _

theorem markTrigger (d : Chip) (r k : Nat) (tent : Bool) : f (d.markTrigger r k tent) = f d := by
  grind [Chip.markTrigger, setRgn]

theorem fireRgn (d : Chip) (r t : Nat) (tent : Bool) : f (d.fireRgn r t tent) = f d := by
  grind [Chip.fireRgn, setRgn, markTrigger, closeBale, openWith, flag, R.CAP_EVENT]

theorem fireRegions (d : Chip) (global : Bool) (sel cluster t : Nat) (tent : Bool) :
    f (d.fireRegions global sel cluster t tent) = f d := by
  grind [Chip.fireRegions, foldl, fireRgn]

theorem combFire (d : Chip) (cb t : Nat) (tent : Bool) : f (d.combFire cb t tent) = f d := by
  grind [Chip.combFire, fireRegions, evt, setComb, lines]

theorem combEval (d : Chip) (cb t : Nat) (tent : Bool) : f (d.combEval cb t tent).2 = f d := by
  grind [Chip.combEval, setComb, combFire]

theorem termEvent (d : Chip) (cb i t : Nat) (tent : Bool) : f (d.termEvent cb i t tent) = f d :=
  K.setComb d cb _

theorem raiseN (cluster n : Nat) (d : Chip) (i t : Nat) (tent : Bool) : f (d.raiseN cluster n i t tent) = f d := by
  induction n generalizing d i t tent with
  | zero => rfl
  | succ n ih =>
    unfold Chip.raiseN
    exact foldl_keeps f _ (fun x k => by grind [combEval, termEvent]) _ d

theorem raise (d : Chip) (cluster i t : Nat) (tent : Bool) : f (d.raise cluster i t tent) = f d :=
  K.raiseN cluster 8 d i t tent

theorem raiseEng (d : Chip) (e s t : Nat) (tent : Bool) : f (d.raiseEng e s t tent) = f d :=
  K.raise d _ _ t tent

theorem engLevels (d : Chip) (e t : Nat) : f (d.engLevels e t) = f d := by
  grind [Chip.engLevels, Chip.levels, foldl, combEval, raise]

/-! ### Protection -/

theorem applySel (d : Chip) (h tgt : Nat) : f (d.applySel h tgt) = f d := by
  have hbreak (x : Chip) (e sub : Nat) (b : Bool) : f (x.breakBale e sub b) = f x := K.setCap x e _
  grind [Chip.applySel, setGroup, count, setPair, flag, sbit, ev, raiseEng, R.APS_SW_CNT, R.APS_SW_TIME_LO,
    R.APS_SW_TIME_HI, R.APS_EVENT, R.DSK_EVENT, R.DSK_STATUS]

theorem setSel (d : Chip) (h tgt : Nat) : f (d.setSel h tgt) = f d := by
  grind [Chip.setSel, setGroup, applySel]

theorem apsPass (d : Chip) (h : Nat) : f (d.apsPass h).2.2 = f d := by
  grind [Chip.apsPass, setGroup]

theorem apsPasses (h n : Nat) (d : Chip) : f (d.apsPasses h n).2 = f d := by
  induction n generalizing d with
  | zero => rfl
  | succ n ih => grind [Chip.apsPasses, apsPass]

theorem apsEval (d : Chip) (h : Nat) : f (d.apsEval h) = f d := by
  grind [Chip.apsEval, setGroup, apsPasses, setSel]

theorem apsInputs (d : Chip) (h : Nat) : f (d.apsInputs h) = f d := by
  grind [Chip.apsInputs, setGroup, apsEval]

theorem apsEngine (d : Chip) (e : Nat) : f (d.apsEngine e) = f d := by
  grind [Chip.apsEngine, foldl, apsInputs]

/-! ### Defects -/

theorem defSummary (d : Chip) (e : Nat) : f (d.defSummary e) = f d := by
  grind [Chip.defSummary, engLevels, apsEngine, sbit, R.DEF_STATUS]

theorem pmNote (d : Chip) (e : Nat) : f (d.pmNote e) = f d :=
  K.setMon d e _

theorem defFlip (d : Chip) (k : DKey) (on : Bool) : f (d.defFlip k on) = f d := by
  grind [Chip.defFlip, setDefT, sbit, flag, evt, pmNote, defSummary, raiseEng, paths, R.DEF_STATUS, R.DEF_TCM,
    R.DEF_EVENT]

theorem defCrit (d : Chip) (k : DKey) (c : Option Bool) : f (d.defCrit k c) = f d := by
  grind [Chip.defCrit, setDefT, defFlip]

end Chip.BlindToEngines

/-! ## Writes of OHP_TTI_SLOT (R89) -/

/-- What a write leaves of a slot's acceptance: ACC_VALID and MISMATCH are clear and the run starts anew. -/
def Chip.ttiRestart (d : Chip) (k : Nat) : Chip :=
  ((d.unflag (R.tslot_OHP_TTI_SLOT k) 9).unflag (R.tslot_OHP_TTI_SLOT k) 8).setTrace k (d.trace k).restart

theorem Chip.rd_ttiRestart (d : Chip) (k : Nat) (r : RegId) : (d.ttiRestart k).rd r
    = ((d.unflag (R.tslot_OHP_TTI_SLOT k) 9).unflag (R.tslot_OHP_TTI_SLOT k) 8).rd r :=
  Chip.rd_congr (Chip.setTrace_regs _ _ _) r

theorem Chip.rb_unflag_same (d : Chip) (r : RegId) {i : Nat} (h : i < 32) : (d.unflag r i).rb r i = false := by
  unfold Chip.rb Chip.unflag Chip.sf
  rw [Chip.rd_wr_same]
  exact bit_setFld_same _ 0 h

theorem Chip.rf_ttiRestart_cfg (d : Chip) (k : Nat) :
    (d.ttiRestart k).rf (R.tslot_OHP_TTI_SLOT k) 5 0 = d.rf (R.tslot_OHP_TTI_SLOT k) 5 0 := by
  unfold Chip.rf
  rw [Chip.rd_ttiRestart]
  exact (Chip.rf_sf_beside _ 0 (by decide) (by decide) (by decide)).trans
    (Chip.rf_sf_beside _ 0 (by decide) (by decide) (by decide))

theorem Chip.rf_ttiRestart_status (d : Chip) (k : Nat) : (d.ttiRestart k).rf (R.tslot_OHP_TTI_SLOT k) 9 8 = 0 := by
  have h8 := Chip.rb_unflag_same (d.unflag (R.tslot_OHP_TTI_SLOT k) 9) (R.tslot_OHP_TTI_SLOT k) (i := 8) (by decide)
  have h9 := Chip.rb_unflag_same d (R.tslot_OHP_TTI_SLOT k) (i := 9) (by decide)
  rw [← Chip.rb_sf_beside (d.unflag (R.tslot_OHP_TTI_SLOT k) 9) (hi := 8) (lo := 8) 0 (by decide) (by decide) (by decide)] at h9
  refine Nat.eq_of_testBit_eq fun j => ?_
  rw [Chip.rf, testBit_fld, Nat.zero_testBit, Chip.rd_ttiRestart]
  match j with
  | 0 => exact h8
  | 1 => exact h9
  | j + 2 => rw [decide_eq_false (by omega), Bool.false_and]

theorem Chip.trace_ttiRestart_same (d : Chip) (k : Nat) : (d.ttiRestart k).trace k = (d.trace k).restart :=
  Chip.trace_setTrace_same _ k _

theorem Chip.trace_ttiRestart_other (d : Chip) {k j : Nat} (h : j ≠ k) : (d.ttiRestart k).trace j = d.trace j :=
  Chip.trace_setTrace_other _ _ h

theorem Chip.store_traces (d : Chip) (t : RegId) (w : Word) : (d.store t w).traces = d.traces := by
  unfold Chip.store
  split
  · rfl
  · rfl

theorem Chip.slotKey_of_ttiIdx {d : Chip} {e k : Nat} (hk : d.ttiIdx e = some k) :
    slotKey e (d.rf (R.OHP_TTI_IDX e) 11 0) (d.rb (R.OHP_TTI_IDX e) 15) = k := by
  unfold Chip.ttiIdx at hk
  dsimp only at hk
  unfold slotKey Chip.rf Chip.rb
  split at hk
  · rename_i hb
    rw [if_pos hb]
    exact Option.some.inj hk
  · rename_i hb
    rw [if_neg hb]
    split at hk
    · exact Option.some.inj hk
    · exact absurd hk (by simp)

/-- The write stores its fields and restarts the slot; clearing the TIM criteria that the slot feeds shows in nothing
that the units behind the defect monitor leave alone. -/
theorem Chip.BlindToEngines.ttiSlotCfg {γ : Type} {f : Chip → γ} (K : Chip.BlindToEngines f) {d : Chip} {e k : Nat}
    (hk : d.ttiIdx e = some k) (w : Word) :
    f (d.ttiSlotCfg e w) = f ((d.store (R.tslot_OHP_TTI_SLOT k) w).ttiRestart k) := by
  have hreach : d.reach ⟨.eng, e, 0x268⟩ = R.tslot_OHP_TTI_SLOT k :=
    congrArg (fun o : Option Nat => RegId.mk .tslot (o.getD (e * 8)) 0x268) hk
  have hwrite (c : Chip) : c.ttiSlotWrite e (d.rf (R.OHP_TTI_IDX e) 11 0) (d.rb (R.OHP_TTI_IDX e) 15) = c.ttiRestart k := by
    rw [← Chip.slotKey_of_ttiIdx hk]
    rfl
  unfold Chip.ttiSlotCfg
  dsimp only
  rw [hreach, hwrite]
  split
  · exact K.foldl (fun x c => K.defCrit x _ _) _ _
  · exact K.defCrit _ _ _

/-! ## The commands -/

theorem exec_ttiIdxWrite (sess e : Nat) (w : Word) (s : State) : exec (.ttiIdxWrite sess e w) s
    = command (engineOk e) false (fun x => x.hostWrite sess (R.OHP_TTI_IDX e) w) s := rfl

theorem exec_ttiStore (sess e : Nat) (s : State) : exec (.ttiStore sess e) s
    = command (engineOk e) false (fun x => x.hostWrite sess (R.OHP_TTI_CMD e) 1) s := rfl

theorem exec_ttiFmtWrite (sess e : Nat) (w : Word) (s : State) : exec (.ttiFmtWrite sess e w) s
    = command (engineOk e) false (fun x => x.hostWrite sess (R.OHP_TTI_SLOT e) w) s := rfl

/-- From `x` to `y` IDX_ERR sets and nothing else changes. -/
def Dev.idxErr (x y : Dev) (e : Nat) : Prop :=
  y.chip.rb (R.OHP_EVENT e) 10 = true ∧ x.only y ∧ x.regsBut y [R.OHP_EVENT e]

theorem Dev.idxErr_flag (x : Dev) (e : Nat) :
    x.idxErr ⟨(x.cleared.chip.flag (R.OHP_EVENT e) 10).answer .badParam, x.mem⟩ e := by
  refine ⟨(Chip.rb_answer _ _ _ _).trans (Chip.rb_flag_same _ _ 10 (by decide)), ?_, fun r hr _ => ?_⟩
  · exact Dev.only_of_besides (f := id) (fun _ _ => rfl)
      (Chip.flag_answer_besides x.cleared.chip (R.OHP_EVENT e) 10 .badParam x.chip) (x.sameMem_mk _)
  · exact (Chip.rd_answer _ _ r).trans (Chip.rd_flag_other x.cleared.chip 10 (hr (R.OHP_EVENT e) (by simp)))

section Commands

variable (q : List Instr) {x : Dev} {sess e : Nat} {w : Word} (he : e < 136) (hx : x.live) (hb : x.chip.subBusy e = false)

include he hx hb

theorem does_ttiIdxWrite (ha : x.allows sess (R.OHP_TTI_IDX e) w) (hs : bit w 15 = true ∨ fld w 11 0 ≤ 7)
    (hbuf : fld w 17 16 < 3) :
    Does (.ttiIdxWrite sess e w) ⟨q, x⟩ (fun y => y.answered .ok ∧ x.only y
      ∧ y.chip.rf (R.OHP_TTI_IDX e) 11 0 = fld w 11 0 ∧ y.chip.rb (R.OHP_TTI_IDX e) 15 = bit w 15
      ∧ y.chip.rf (R.OHP_TTI_IDX e) 17 16 = fld w 17 16
      ∧ ∀ i < 16, y.chip.rd (ttiData e i)
        = ttiWord ((x.chip.trace (slotKey e (fld w 11 0) (bit w 15))).buffer (fld w 17 16)) i) := by
  have hwr : x.cleared.writeEng e (R.OHP_TTI_IDX e) (x.cleared.chip.reach (R.OHP_TTI_IDX e)) w = _ :=
    congrArg (fun p : Status × Chip => (p.1, Dev.mk p.2 x.mem)) (Chip.ttiIdxWrite_named (d := x.cleared.chip) (e := e) hs hbuf)
  refine does_hostWrite_eng q hx (exec_ttiIdxWrite sess e w ⟨q, x⟩) (decide_eq_true he) ha hb rfl hwr ?_
  rw [if_pos rfl]
  set c := x.cleared.chip.wr (R.OHP_TTI_IDX e) (ttiIdxWord w) with hc
  set l := (x.cleared.chip.trace (slotKey e (fld w 11 0) (bit w 15))).buffer (fld w 17 16)
  have hidx : ((c.ttiLoad e l).mirror e).rd (R.OHP_TTI_IDX e) = ttiIdxWord w := by
    rw [show R.OHP_TTI_IDX e = ⟨.eng, e, 0x260⟩ from rfl, Chip.rd_mirror_eng _ _ (by decide)]
    rw [Chip.rd_ttiLoad_other _ _ _ (fun i hi => RegId.key_ne_of_offs (by omega))]
    exact Chip.rd_wr_same _ _ _
  obtain ⟨hslot, hshared, hbuf'⟩ := ttiIdxWord_fields w
  refine ⟨Dev.only_of_besides (f := id) (fun _ _ => rfl)
      ((Chip.mirror_besides _ e x.chip).trans (Chip.ttiLoad_besides c e l x.chip)) (x.sameMem_mk _),
    (congrArg (fld · 11 0) hidx).trans hslot, (congrArg (bit · 15) hidx).trans hshared,
    (congrArg (fld · 17 16) hidx).trans hbuf', fun i hi => ?_⟩
  exact (Chip.rd_mirror_eng _ e (by omega)).trans (Chip.rd_ttiLoad c e l hi)

theorem does_ttiIdxWrite_unnamed (ha : x.allows sess (R.OHP_TTI_IDX e) w)
    (h : (bit w 15 = false ∧ 7 < fld w 11 0) ∨ fld w 17 16 = 3) :
    Does (.ttiIdxWrite sess e w) ⟨q, x⟩ (fun y => y.answered .badParam ∧ y.chip.rb (R.OHP_EVENT e) 10 = true
      ∧ x.only y ∧ x.regsBut y [R.OHP_EVENT e]) :=
  does_hostWrite_eng q hx (exec_ttiIdxWrite sess e w ⟨q, x⟩) (decide_eq_true he) ha hb rfl
    (congrArg (fun p : Status × Chip => (p.1, Dev.mk p.2 x.mem)) (Chip.ttiIdxWrite_unnamed (d := x.cleared.chip) (e := e) h))
    (x.idxErr_flag e)

theorem does_ttiStore_unnamed (ha : x.allows sess (R.OHP_TTI_CMD e) 1)
    (h : x.chip.ttiIdx e = none ∨ x.chip.rf (R.OHP_TTI_IDX e) 17 16 = 1 ∨ x.chip.rf (R.OHP_TTI_IDX e) 17 16 = 3) :
    Does (.ttiStore sess e) ⟨q, x⟩ (fun y => y.answered .badParam ∧ y.chip.rb (R.OHP_EVENT e) 10 = true
      ∧ x.only y ∧ x.regsBut y [R.OHP_EVENT e]) :=
  does_hostWrite_eng q hx (exec_ttiStore sess e ⟨q, x⟩) (decide_eq_true he) ha hb rfl
    (congrArg (fun p : Status × Chip => (p.1, Dev.mk p.2 x.mem)) (Chip.ttiStore_unnamed (d := x.cleared.chip) h))
    (x.idxErr_flag e)

variable {k : Nat}

/-- A store that leaves slot `k` as `t` leaves every other slot. -/
theorem does_ttiStore (ha : x.allows sess (R.OHP_TTI_CMD e) 1) {t : Trace}
    (h : x.cleared.chip.ttiStore e = (.ok, x.cleared.chip.setTrace k t)) :
    Does (.ttiStore sess e) ⟨q, x⟩ (fun y => y.answered .ok ∧ y.chip.trace k = t
      ∧ (∀ j, j ≠ k → y.chip.trace j = x.chip.trace j) ∧ x.only y (fun c => { c with traces := y.chip.traces })) := by
  refine does_hostWrite_eng q hx (exec_ttiStore sess e ⟨q, x⟩) (decide_eq_true he) ha hb rfl
    (congrArg (fun p : Status × Chip => (p.1, Dev.mk p.2 x.mem)) h) ?_
  rw [if_pos rfl]
  have hm := Chip.mirror_traces (x.cleared.chip.setTrace k t) e
  refine ⟨(Chip.trace_congr hm k).trans (Chip.trace_setTrace_same _ k t),
    fun j hj => (Chip.trace_congr hm j).trans (Chip.trace_setTrace_other _ t hj),
    Dev.only_of_besides (fun _ _ => rfl) ((Chip.mirror_besides _ e x.chip).trans ?_) (x.sameMem_mk _)⟩
  exact congrArg (fun l : SMap Trace => { x.chip with traces := l }) hm.symm

theorem does_ttiFmtWrite (hk : x.chip.ttiIdx e = some k) (ha : x.allows sess (R.OHP_TTI_SLOT e) w) :
    Does (.ttiFmtWrite sess e w) ⟨q, x⟩ (fun y => y.answered .ok ∧ x.sameMem y
      ∧ y.chip.rf (R.tslot_OHP_TTI_SLOT k) 5 0 = fld w 5 0 ∧ y.chip.rf (R.tslot_OHP_TTI_SLOT k) 9 8 = 0
      ∧ y.chip.trace k = (x.chip.trace k).restart ∧ (∀ j, j ≠ k → y.chip.trace j = x.chip.trace j)) := by
  refine does_hostWrite_eng (c := x.cleared.chip.ttiSlotCfg e w) q hx (exec_ttiFmtWrite sess e w ⟨q, x⟩)
    (decide_eq_true he) ha hb rfl rfl ?_
  rw [if_pos rfl]
  set s := x.cleared.chip.store (R.tslot_OHP_TTI_SLOT k) w
  have hrd : ((x.cleared.chip.ttiSlotCfg e w).mirror e).rd (R.tslot_OHP_TTI_SLOT k) = (s.ttiRestart k).rd (R.tslot_OHP_TTI_SLOT k) := by
    have K := Chip.blindToEngines_rd (r := R.tslot_OHP_TTI_SLOT k) (by simp [R.tslot_OHP_TTI_SLOT])
    exact (Chip.mirror_keeps _ (fun d => d.rd (R.tslot_OHP_TTI_SLOT k)) K.wr e).trans (K.ttiSlotCfg (d := x.cleared.chip) hk w)
  have htr : ((x.cleared.chip.ttiSlotCfg e w).mirror e).traces = (s.ttiRestart k).traces :=
    (Chip.mirror_traces (x.cleared.chip.ttiSlotCfg e w) e).trans (Chip.blindToEngines_traces.ttiSlotCfg (d := x.cleared.chip) hk w)
  have hs : s.traces = x.chip.traces := Chip.store_traces _ _ w
  refine ⟨x.sameMem_mk _, ?_, (congrArg (fld · 9 8) hrd).trans (Chip.rf_ttiRestart_status s k), ?_, fun j hj => ?_⟩
  · exact (congrArg (fld · 5 0) hrd).trans ((Chip.rf_ttiRestart_cfg s k).trans
      (Chip.rf_store (t := R.tslot_OHP_TTI_SLOT k) w rfl (by decide) (by decide)))
  · exact (Chip.trace_congr htr k).trans ((Chip.trace_ttiRestart_same s k).trans
      (congrArg Trace.restart (Chip.trace_congr hs k)))
  · exact (Chip.trace_congr htr j).trans ((Chip.trace_ttiRestart_other s hj).trans (Chip.trace_congr hs j))

end Commands

/-- Settles O17: the window's registers are those of the named slot and buffer, and neither the spares' copies nor the
defect monitor, which a new format makes clear TIM, touch a trace or a slot register. -/
theorem trailTraceBuffers : Obligations.TrailTraceBuffers := by
  intro q x sess e he hx hb
  refine ⟨fun w ha h => does_ttiIdxWrite q he hx hb ha h.1 h.2, fun w ha h => does_ttiIdxWrite_unnamed q he hx hb ha h,
    fun ha => ⟨fun k hk => ⟨fun h => ?_, fun h => ?_⟩, fun h => does_ttiStore_unnamed q he hx hb ha h⟩,
    fun w k ha hk => does_ttiFmtWrite q he hx hb hk ha⟩
  · exact does_ttiStore q he hx hb ha (Chip.ttiStore_expected (d := x.cleared.chip) hk h)
  · exact does_ttiStore q he hx hb ha (Chip.ttiStore_transmit (d := x.cleared.chip) hk h)

/-! # What a received frame leaves of the overhead that is readable (R80, R81) -/

/-! ## The units behind the overhead processor

A received frame runs through counts, traces, protection, the mapper, triggers and the tap.  None of it touches the
frame whose overhead is readable, which the overhead processor alone takes over. -/

/-- No update of the receive side changes what `f` shows, where an overhead processor keeps its readable frame. -/
structure Chip.BlindToReceive {γ : Type} (f : Chip → γ) : Prop extends Chip.Blind f where
  mats : ∀ (d : Chip) (l : SMap Bool), f { d with mats := l } = f d
  setTrace : ∀ (d : Chip) (k : Nat) (c : Trace), f (d.setTrace k c) = f d
  setPat : ∀ (d : Chip) (k : Nat) (c : Pat), f (d.setPat k c) = f d
  setHunter : ∀ (d : Chip) (k : Nat) (c : Hunter), f (d.setHunter k c) = f d
  setOhp : ∀ (d : Chip) (k : Nat) (c : Ohp), c.frame = (d.ohp k).frame → f (d.setOhp k c) = f d
  wrEng : ∀ (d : Chip) (e o : Nat) (w : Word), f (d.wr ⟨.eng, e, o⟩ w) = f d

theorem Chip.ohp_setOhp_same (d : Chip) (e : Nat) (o : Ohp) : (d.setOhp e o).ohp e = o := SMap.get_put_same _ _ _ _

theorem Chip.ohp_setOhp_other (d : Chip) {e m : Nat} (o : Ohp) (h : m ≠ e) : (d.setOhp e o).ohp m = d.ohp m :=
  SMap.get_put_other _ _ _ _ h

theorem Chip.frame_setOhp (d : Chip) (e k : Nat) {c : Ohp} (h : c.frame = (d.ohp k).frame) :
    ((d.setOhp k c).ohp e).frame = (d.ohp e).frame := by
  obtain rfl | hne := eq_or_ne e k
  · rw [Chip.ohp_setOhp_same, h]
  · rw [Chip.ohp_setOhp_other d c hne]

theorem Chip.blindToReceive_frame (e : Nat) : Chip.BlindToReceive (fun d => (d.ohp e).frame) :=
  ⟨⟨fun _ _ _ _ => rfl, fun _ _ => rfl, fun _ _ => rfl, fun _ _ => rfl, fun _ _ _ => rfl, fun _ _ _ => rfl,
    fun _ _ _ => rfl, fun _ _ _ => rfl, fun _ _ _ => rfl, fun _ _ _ => rfl, fun _ _ _ => rfl⟩,
    fun _ _ => rfl, fun _ _ _ => rfl, fun _ _ _ => rfl, fun _ _ _ => rfl, fun d k _ h => Chip.frame_setOhp d e k h,
    fun _ _ _ _ => rfl⟩

namespace Chip.Blind

variable {γ : Type} {f : Chip → γ} (K : Chip.Blind f)

include K

/-! ### Performance, windows and protection -/

theorem defRun (d : Chip) (k : DKey) (need : Nat) (cond : Bool) : f (d.defRun k need cond) = f d := by
  grind [Chip.defRun, setDefT, defCrit]

theorem pmBlock (d : Chip) (e l : Nat) (errored : Bool) : f (d.pmBlock e l errored) = f d :=
  K.setMon d e _

theorem layerChange (d : Chip) (e : Nat) : f (d.layerChange e) = f d := by
  grind [Chip.layerChange, setMon, defFlip]

theorem winEnd (d : Chip) (e : Nat) (sd : Bool) : f (d.winEnd e sd) = f d := by
  grind [Chip.winEnd, setMon, defFlip, layerChange]

theorem winFrame (d : Chip) (e : Nat) (sd : Bool) (errs : Nat) : f (d.winFrame e sd errs) = f d := by
  grind [Chip.winFrame, setMon, winEnd]

theorem winFrames (d : Chip) (e l errs : Nat) : f (d.winFrames e l errs) = f d := by
  grind [Chip.winFrames, winFrame]

theorem bipDone (d : Chip) (e l errs t : Nat) : f (d.bipDone e l errs t) = f d := by
  grind [Chip.bipDone, pmBlock, winFrames, raiseEng]

theorem apsMode (d : Chip) (h : Nat) : f (d.apsMode h) = f d := by
  grind [Chip.apsMode, setGroup, flag, ev, RegId.quiet, R.APS_EVENT]

theorem apsRx (d : Chip) (h v : Nat) : f (d.apsRx h v) = f d := by
  grind [Chip.apsRx, setGroup, apsMode, apsEval]

/-! ### Contexts -/

theorem workLeft (d : Chip) (t : Nat) : f (d.workLeft t) = f d := by
  grind [Chip.workLeft, tapWord]

theorem workStep (d : Chip) (t : Nat) : f (d.workStep t) = f d := by
  grind [Chip.workStep, setCtx, workLeft]

theorem workParents (d : Chip) (e : Nat) : f (d.workParents e) = f d := by
  grind [Chip.workParents, foldl, workStep]

theorem msiEval (d : Chip) (e : Nat) : f (d.msiEval e) = f d := by
  unfold Chip.msiEval
  extract_lets rank acc bad free d1
  have h1 : f d1 = f d := (K.defCrit _ _ _).trans (K.sbit d _ _ _ rfl)
  refine (K.foldl (fun x t => ?_) _ d1).trans h1
  extract_lets top r a p bad1
  split
  · split
    · rfl
    · exact (K.ctxSync _ t).trans (K.setCtx x t _)
  · rfl

theorem countHalf (d : Chip) (r : RegId) (hi : Bool) (n : Nat) (h : r.quiet = true) : f (d.countHalf r hi n) = f d := by
  grind [Chip.countHalf, sf]

theorem ctxEvent (d : Chip) (t bit_ code det : Nat) : f (d.ctxEvent t bit_ code det) = f d :=
  (K.evt _ _ _ _ _ _).trans (K.flag d _ _ rfl)

theorem ptrEvents (d : Chip) (t : Nat) (ev : PtrEv) (ptr stamp : Nat) : f (d.ptrEvents t ev ptr stamp) = f d := by
  grind [Chip.ptrEvents, countHalf, ctxEvent, raiseEng, RegId.quiet, R.TRB_JUST_CNT, R.TRB_ERR_CNT]

theorem ctxPhase (d : Chip) (t at_ : Nat) : f (d.ctxPhase t at_) = f d :=
  (K.breakBale _ _ _ _).trans (K.setCtx d t _)

theorem ctxPtr (d : Chip) (t : Nat) (ws : List Nat) (stamp : Nat) (conf : Bool) : f (d.ctxPtr t ws stamp conf) = f d := by
  unfold Chip.ctxPtr
  split
  · rfl
  · grind [ptrEvents, setCtx, workLeft, ctxPhase, ctxSync]

theorem ampJc (d : Chip) (t jc : Nat) (conf : Bool) : f (d.ampJc t jc conf) = f d := by
  unfold Chip.ampJc
  extract_lets x d1
  have h1 : f d1 = f d := K.setCtx d t _
  repeat' split
  · exact h1
  · exact (K.countHalf d1 _ _ _ rfl).trans h1
  · exact (K.countHalf d1 _ _ _ rfl).trans h1
  · exact (K.countHalf d1 _ _ _ rfl).trans h1
  · exact h1

theorem gmpJc (d : Chip) (t : Nat) (jc : List Nat) (ok conf : Bool) : f (d.gmpJc t jc ok conf) = f d := by
  grind [Chip.gmpJc, setCtx, sf, ctxEvent, countHalf, RegId.quiet, R.TRB_GMP_TX, R.TRB_JUST_CNT, R.TRB_ERR_CNT]

theorem ctxJc (d : Chip) (t : Nat) (jc : List Nat) (conf : Bool) : f (d.ctxJc t jc conf) = f d := by
  grind [Chip.ctxJc, setCtx, ampJc, gmpJc, ctxPhase, ctxSync]

theorem pathBip (d : Chip) (t errs : Nat) : f (d.pathBip t errs) = f d := by
  grind [Chip.pathBip, Chip.pathBlock, setCtx, pmBlock, count, RegId.quiet, R.TRB_BIP_CNT]

theorem ctxLabel (d : Chip) (t v : Nat) : f (d.ctxLabel t v) = f d := by
  grind [Chip.ctxLabel, setCtx, defCrit, ctxEvent]

theorem labelSeen (d : Chip) (t need v : Nat) : f (d.labelSeen t need v) = f d := by
  grind [Chip.labelSeen, setCtx, ctxLabel]

theorem ctxH4 (d : Chip) (t v : Nat) : f (d.ctxH4 t v) = f d := by
  grind [Chip.ctxH4, setCtx, defCrit]

/-! ### The tap -/

theorem tapOctet (d : Chip) (e sub g i raw desc stamp : Nat) (tent poison : Bool) :
    f (d.tapOctet e sub g i raw desc stamp tent poison) = f d := by
  grind [Chip.tapOctet, Chip.tapOne, tapWord]

theorem tapSelected (d : Chip) (e g i raw desc stamp : Nat) (poison : Bool) :
    f (d.tapSelected e g i raw desc stamp poison) = f d := by
  grind [Chip.tapSelected, foldl, tapOctet]

end Chip.Blind

namespace Chip.BlindToReceive

variable {γ : Type} {f : Chip → γ} (K : Chip.BlindToReceive f)

include K

/-! ### Overhead -/

theorem apsSeen (d : Chip) (e v t : Nat) : f (d.apsSeen e v t) = f d := by
  have B := K.toBlind
  grind [Chip.apsSeen, setOhp, Blind.wr, Blind.flag, Blind.ev, Blind.raiseEng, Blind.apsRx, RegId.quiet, R.OHP_APS,
    R.OHP_EVENT]

theorem labelAccept (d : Chip) (e v : Nat) : f (d.labelAccept e v) = f d := by
  have B := K.toBlind
  grind [Chip.labelAccept, setOhp, Blind.wr, Blind.flag, Blind.ev, RegId.quiet, R.OHP_LABEL, R.OHP_EVENT]

theorem ttiAccept (d : Chip) (e slot : Nat) (ctx : Option Nat) (m : List Byte) : f (d.ttiAccept e slot ctx m) = f d := by
  have B := K.toBlind
  unfold Chip.ttiAccept
  extract_lets k rg t new mm d1 d2
  have h1 : f d1 = f d := (B.sbit _ _ _ _ rfl).trans ((B.sbit _ _ _ _ rfl).trans (K.setTrace d k _))
  have h2 : f d2 = f d1 := by
    unfold d2
    clear_value d1
    grind [Blind.flag, Blind.ev, Blind.evt, RegId.quiet, R.TRB_EVENT, R.OHP_EVENT]
  exact (B.defCrit d2 _ _).trans (h2.trans h1)

theorem ttiByte (d : Chip) (e slot : Nat) (ctx : Option Nat) (b mf : Nat) : f (d.ttiByte e slot ctx b mf) = f d := by
  have B := K.toBlind
  grind [Chip.ttiByte, setTrace, ttiAccept, Blind.flag, RegId.quiet, R.tslot_OHP_TTI_SLOT]

theorem matchers (d : Chip) (e : Nat) (g : List Byte) (start : Nat) (tent : Bool) : f (d.matchers e g start tent) = f d := by
  have B := K.toBlind
  grind [Chip.matchers, mats, Blind.foldl, Blind.levels]

theorem rxTcm (d : Chip) (e i : Nat) (bip : Option Nat) (g : List Byte) (mf : Nat) : f (d.rxTcm e i bip g mf) = f d := by
  have B := K.toBlind
  have hc (d : Chip) (o n : Nat) : f (d.count ⟨.eng, e, o⟩ n) = f d := K.wrEng d e o _
  grind [Chip.rxTcm, setOhp, ttiByte, Blind.defRun]

/-! ### Containers -/

theorem ctxTrace (d : Chip) (t b mf : Nat) : f (d.ctxTrace t b mf) = f d := by
  grind [Chip.ctxTrace, ttiByte]

theorem rxHo (d : Chip) (t : Nat) (u : List Byte) : f (d.rxHo t u) = f d := by
  have B := K.toBlind
  grind [Chip.rxHo, ctxTrace, Blind.ctxH4, Blind.pathBip, Blind.setCtx, Blind.labelSeen, Blind.count, Blind.defRun,
    RegId.quiet, R.TRB_REI_CNT]

theorem rxLo (d : Chip) (t : Nat) (u : List Byte) : f (d.rxLo t u) = f d := by
  have B := K.toBlind
  grind [Chip.rxLo, ctxTrace, Blind.pathBip, Blind.setCtx, Blind.labelSeen, Blind.count, Blind.defRun,
    RegId.quiet, R.TRB_REI_CNT]

theorem rxOdu (d : Chip) (t : Nat) (u : List Byte) : f (d.rxOdu t u) = f d := by
  have B := K.toBlind
  grind [Chip.rxOdu, ctxTrace, Blind.pathBip, Blind.setCtx, Blind.labelSeen, Blind.count, Blind.defRun,
    RegId.quiet, R.TRB_REI_CNT]

theorem contDone (d : Chip) (t : Nat) (u : List Byte) (conf : Bool) : f (d.contDone t u conf) = f d := by
  have B := K.toBlind
  grind [Chip.contDone, rxOdu, rxLo, rxHo, Blind.setCtx]

theorem contOctet (d : Chip) (t : Nat) (conf poison : Bool) (k : Option Nat) (o : Byte) (stamp : Nat) :
    f (d.contOctet t conf poison k o stamp) = f d := by
  have B := K.toBlind
  grind [Chip.contOctet, Chip.tapOne, contDone, Blind.tapWord, Blind.setCtx]

theorem placeOctet (d : Chip) (t : Nat) (conf poison : Bool) (o : Byte) (stamp : Nat) :
    f (d.placeOctet t conf poison o stamp) = f d := by
  have B := K.toBlind
  grind [Chip.placeOctet, contOctet, Blind.setCtx]

theorem placeRun (d : Chip) (t : Nat) (conf poison : Bool) (r : Nat × List Byte) :
    f (d.placeRun t conf poison r) = f d := by
  have B := K.toBlind
  grind [Chip.placeRun, placeOctet, Blind.foldl]

theorem placeJust (d : Chip) (t : Nat) (conf poison : Bool) (r : Nat × List Byte) :
    f (d.placeJust t conf poison r) = f d := by
  have B := K.toBlind
  grind [Chip.placeJust, placeRun, Blind.setCtx]

theorem rxUnit (d : Chip) (e : Nat) (conf : Bool) (u : RxUnit) : f (d.rxUnit e conf u) = f d := by
  have B := K.toBlind
  grind [Chip.rxUnit, placeRun, placeJust, Blind.foldl, Blind.setCtx, Blind.ctxPtr, Blind.ctxJc]

/-! ### The octets of a group and the stores of through mode -/

theorem patMatch (d : Chip) (e g i o stamp : Nat) (tent : Bool) : f (d.patMatch e g i o stamp tent) = f d := by
  have B := K.toBlind
  grind [Chip.patMatch, setHunter, Blind.foldl, Blind.raiseEng]

theorem groupOctets (d : Chip) (e start : Nat) (conf : Bool) (bad : List Nat) (l : List Byte) :
    f (d.groupOctets e start conf bad l) = f d := by
  have B := K.toBlind
  unfold Chip.groupOctets
  refine foldl_keeps (fun a : Chip × Nat => f a.1) _ (fun a p => ?_) _ _
  grind [patMatch, Blind.tapOctet, Blind.tapSelected]

theorem storePush (d : Chip) (e : Nat) (l : List Byte) : f (d.storePush e l) = f d := by
  have B := K.toBlind
  grind [Chip.storePush, Chip.patEvent, setPat, Blind.flag, Blind.evt, RegId.quiet, R.PAT_EVENT]

theorem thruPush (d : Chip) (src : Nat) (l : List Byte) : f (d.thruPush src l) = f d := by
  have B := K.toBlind
  grind [Chip.thruPush, storePush, Blind.foldl]

end Chip.BlindToReceive

/-! ## One received frame -/

theorem Chip.frame_setOhp_same (d : Chip) (e : Nat) (o : Ohp) : ((d.setOhp e o).ohp e).frame = o.frame :=
  congrArg Ohp.frame (Chip.ohp_setOhp_same d e o)

/-- A confirmed STM-N frame becomes the readable one. -/
theorem Chip.frame_rxSdh (d : Chip) (e n start : Nat) (g : List Byte) : ((d.rxSdh e n start g).ohp e).frame = g := by
  have K := Chip.blindToReceive_frame e
  have B := K.toBlind
  unfold Chip.rxSdh
  extract_lets o at_ stampOf d1 rx rei k1 k2
  split
  extract_lets o2 d3 d4 d5 d6 d7 s1 o7 d8 d9
  have h3 : (d3.ohp e).frame = g := Chip.frame_setOhp_same _ e _
  clear_value d3
  have h4 : (d4.ohp e).frame = g := ((B.pmBlock _ e 2 _).trans (B.count d3 _ _ rfl)).trans h3
  clear_value d4
  have h5 : (d5.ohp e).frame = g := (K.apsSeen d4 e _ _).trans h4
  clear_value d5
  have h7 : (d7.ohp e).frame = g := ((B.defRun _ _ _ _).trans (B.defRun d5 _ _ _)).trans h5
  clear_value d7
  have h8 : (d8.ohp e).frame = g := (K.setOhp d7 e _ (by rfl)).trans h7
  clear_value d8
  have h9 : (d9.ohp e).frame = g := by
    unfold d9
    split
    · exact (K.labelAccept d8 e _).trans h8
    · exact h8
  exact (K.ttiByte d9 e 0 none _ 0).trans h9

/-- A confirmed OTN frame becomes the readable one. -/
theorem Chip.frame_rxOtn (d : Chip) (e start : Nat) (g : List Byte) : ((d.rxOtn e start g).ohp e).frame = g := by
  have K := Chip.blindToReceive_frame e
  have B := K.toBlind
  unfold Chip.rxOtn
  extract_lets at_ o m v mf bip stampOf smErr sm pmErr pm psi
  split
  extract_lets d1 m1 d2 d3 d4 d5 d6 d7 d8 y d9 d10 lom o1 d11 z s d12 d13 exp s1
  clear_value d8
  have h9 : (d9.ohp e).frame = g := Chip.frame_setOhp_same _ e _
  clear_value d9
  have h10 : (d10.ohp e).frame = g := (B.foldl (fun x i => K.rxTcm x e (i + 1) bip g mf) _ d9).trans h9
  clear_value d10
  have h11 : (d11.ohp e).frame = g := by
    unfold d11
    split
    · exact (K.setOhp d10 e _ (by rfl)).trans h10
    · split
      · exact (K.apsSeen d10 e _ _).trans h10
      · exact h10
  clear_value d11
  have h12 : (d12.ohp e).frame = g := (K.setOhp d11 e _ (by rfl)).trans h11
  clear_value d12
  split
  · split
    · exact h12
    · refine (B.defCrit d13 _ _).trans ?_
      unfold d13
      split
      · exact (K.labelAccept d12 e psi).trans h12
      · exact h12
  · split
    · exact (K.setOhp d11 e _ (by rfl)).trans h11
    · exact h11

/-- What leads the frames of a line: the candidate of its group or of its hunter. -/
def Chip.led (d : Chip) (e : Nat) : Bool := if d.ganged e then (d.hunter e).groupTent else (d.hunter e).align.isSome

/-- A frame of an enabled framed line is readable when the line is IN_FRAME, and leaves the readable one else. -/
theorem Chip.frame_rxFrame {d : Chip} {e : Nat} (fr : RxFrame) (hen : d.engEn e = true) (hh : d.head e = e)
    (hf : isFramed (d.engFmt e) = true) :
    ((d.rxFrame e fr).ohp e).frame = if d.inFrame e then lineOctets (d.engFmt e) fr.octets else (d.ohp e).frame := by
  have K := Chip.blindToReceive_frame e
  have B := K.toBlind
  unfold Chip.rxFrame
  extract_lets fm l conf lead d1 o m o1 d2 d3 d4 d5
  rw [if_neg (by simp [hen, hh, hf, fm])]
  change _ = if conf then l else (d.ohp e).frame
  have h1 : (d1.ohp e).frame = if conf then l else (d.ohp e).frame := by
    unfold d1
    clear_value conf
    cases conf
    · rfl
    · rw [if_neg (by simp)]
      split
      · exact Chip.frame_rxSdh d e _ _ l
      · exact Chip.frame_rxOtn d e _ l
  clear_value d1
  have h2 : (d2.ohp e).frame = (d1.ohp e).frame := by
    unfold d2
    repeat' split
    all_goals exact K.setOhp d1 e _ (by rfl)
  clear_value d2
  have h3 : (d3.ohp e).frame = (d2.ohp e).frame := by
    unfold d3
    split
    · exact K.matchers d2 e l _ _
    · rfl
  clear_value d3
  have h4 : (d4.ohp e).frame = (d3.ohp e).frame := by
    unfold d4
    split
    · exact K.groupOctets d3 e _ _ _ _
    · rfl
  have h5 : (d5.ohp e).frame = (d4.ohp e).frame := B.foldl (fun x u => K.rxUnit x e conf u) _ d4
  have h : (d5.ohp e).frame = if conf then l else (d.ohp e).frame := by rw [h5, h4, h3, h2, h1]
  clear_value d5 conf
  cases conf
  · split
    · rfl
    · exact (B.workParents d5 e).trans h
  · exact ((B.parents _ e).trans (B.msiEval d5 e)).trans h

theorem Chip.rxFrame_off {d : Chip} {e : Nat} (fr : RxFrame)
    (h : d.engEn e = false ∨ d.head e ≠ e ∨ isFramed (d.engFmt e) = false) : d.rxFrame e fr = d :=
  if_pos (by simpa using h)

theorem Chip.rxFrame_unled {d : Chip} {e : Nat} (fr : RxFrame) (hi : d.inFrame e = false) (hl : d.led e = false) :
    d.rxFrame e fr = d := by
  unfold Chip.rxFrame
  extract_lets fm l conf lead d1 o m o1 d2 d3 d4 d5
  split
  · rfl
  · exact if_pos ⟨by simp [conf, hi], by simpa [lead, Chip.led] using hl⟩

/-! ## RX_FRAME -/

theorem Chip.frame_rxLine {d : Chip} {e : Nat} (he : e < 136) (fr : RxFrame) (hen : d.engEn e = true)
    (hh : d.head e = e) (hf : isFramed (d.engFmt e) = true) :
    ((d.rxLine e fr).ohp e).frame = if d.inFrame e then lineOctets (d.engFmt e) fr.octets else (d.ohp e).frame := by
  refine Eq.trans ?_ (Chip.frame_rxFrame fr hen hh hf)
  unfold Chip.rxLine
  rw [if_neg (by omega)]
  dsimp only
  split
  · exact (Chip.blindToReceive_frame e).thruPush _ e _
  · rfl

theorem Chip.rxLine_off {d : Chip} {e : Nat} (he : e < 136) (fr : RxFrame)
    (h : d.engEn e = false ∨ d.head e ≠ e ∨ isFramed (d.engFmt e) = false) : d.rxLine e fr = d := by
  unfold Chip.rxLine
  rw [if_neg (by omega)]
  dsimp only
  rw [if_neg (by grind), Chip.rxFrame_off fr h]

theorem Chip.rxLine_unled {d : Chip} {e : Nat} (he : e < 136) (fr : RxFrame) (hi : d.inFrame e = false)
    (hl : d.led e = false) : d.rxLine e fr = d := by
  unfold Chip.rxLine
  rw [if_neg (by omega)]
  dsimp only
  rw [if_neg (by simp [hi]), Chip.rxFrame_unled fr hi hl]

theorem Chip.rxLine_peer_apart {d : Chip} {e : Nat} (he : 136 ≤ e) (fr : RxFrame)
    (h : d.joined = false ∨ d.splitHold = true) : d.rxLine e fr = d := by
  unfold Chip.rxLine
  rw [if_pos he, if_neg (by simpa [or_iff_not_imp_left] using h)]

theorem exec_rxFrame (e : Nat) (fr : RxFrame) (s : State) :
    exec (.rxFrame e fr) s = command (pairEngineOk e) false (fun x => x.on (fun d => d.rxLine e fr)) s := rfl

theorem pairEngineOk_of_lt {e : Nat} (h : e < 272) : pairEngineOk e = true := decide_eq_true h

theorem does_rxFrame {q : List Instr} {x : Dev} {e : Nat} (fr : RxFrame) (hx : x.live) (he : e < 136)
    (hen : x.chip.engEn e = true) (hh : x.chip.head e = e) (hf : isFramed (x.chip.engFmt e) = true) :
    Does (.rxFrame e fr) ⟨q, x⟩ (fun y => (y.chip.ohp e).frame =
      (if x.chip.inFrame e then lineOctets (x.chip.engFmt e) fr.octets else (x.chip.ohp e).frame) ∧ x.sameMem y) :=
  does_on (exec_rxFrame e fr ⟨q, x⟩) (pairEngineOk_of_lt (by omega)) hx rfl
    ⟨Chip.frame_rxLine (d := x.cleared.chip) he fr hen hh hf, x.sameMem_mk _⟩

theorem does_rxFrame_idle {q : List Instr} {x : Dev} {e : Nat} (fr : RxFrame) (he : e < 272)
    (h : x.cleared.chip.rxLine e fr = x.cleared.chip) : Does (.rxFrame e fr) ⟨q, x⟩ x.idle :=
  does_idle (exec_rxFrame e fr ⟨q, x⟩) (pairEngineOk_of_lt he) h

/-! # The commit of byte overrides (R93) -/

theorem exec_ohpCommit (sess e : Nat) (s : State) : exec (.ohpCommit sess e) s
    = command (engineOk e) false (fun x => x.hostWrite sess (R.OHP_CTRL e) 1) s := rfl

theorem Chip.mirror_ohps (d : Chip) (e : Nat) : (d.mirror e).ohps = d.ohps :=
  d.mirror_keeps Chip.ohps (fun _ _ _ _ => rfl) e

theorem Chip.ohp_congr {c d : Chip} (h : c.ohps = d.ohps) (e : Nat) : c.ohp e = d.ohp e :=
  congrArg (SMap.get Ohp.init · e) h

theorem ohpStatus_readMask (e : Nat) : bit (R.OHP_STATUS e).readMask 0 = true := by
  have h : (R.OHP_STATUS e).readMask = 0xFF01 := by rfl
  rw [h]
  decide

/-- COMMIT_PEND shows whether a commit waits. -/
theorem Chip.commitPend (d : Chip) (e : Nat) : bit (d.readWord (R.OHP_STATUS e)) 0 = !(d.ohp e).commit.isEmpty := by
  have hm : bit (R.OHP_STATUS e).readMask 0 = true := ohpStatus_readMask e
  change bit (d.ohpStatus e &&& (R.OHP_STATUS e).readMask) 0 = _
  rw [bit_and, hm, Bool.and_true, bit_eq_fld]
  unfold Chip.ohpStatus
  extract_lets mis
  cases (d.ohp e).commit.isEmpty
  all_goals
    simp only [fld, w32, b2n, BitVec.toNat_ofNat, Bool.not_true, Bool.not_false, if_true, Bool.false_eq_true, if_false,
      decide_eq_true_eq, decide_eq_false_iff_not]
    omega

theorem does_ohpCommit {q : List Instr} {x : Dev} {sess e : Nat} (hx : x.live) (he : e < 136)
    (ha : x.allows sess (R.OHP_CTRL e) 1) (hb : x.chip.subBusy e = false) :
    Does (.ohpCommit sess e) ⟨q, x⟩ (fun y => y.answered .ok ∧ (y.chip.ohp e).commit = (x.chip.ohp e).commit ++ [x.chip.core]
      ∧ bit (y.chip.readWord (R.OHP_STATUS e)) 0 = true ∧ (∀ m, m ≠ e → y.chip.ohp m = x.chip.ohp m)
      ∧ x.only y (fun c => { c with ohps := y.chip.ohps })) := by
  refine does_hostWrite_eng (st := .ok) (c := x.cleared.chip.commit e) q hx (exec_ohpCommit sess e ⟨q, x⟩)
    (decide_eq_true he) ha hb rfl rfl ?_
  rw [if_pos rfl]
  have hm := Chip.mirror_ohps (x.cleared.chip.commit e) e
  have hc : (((x.cleared.chip.commit e).mirror e).ohp e).commit = (x.chip.ohp e).commit ++ [x.chip.core] :=
    congrArg Ohp.commit ((Chip.ohp_congr hm e).trans (Chip.ohp_setOhp_same _ e _))
  refine ⟨hc, ?_, fun m hne => (Chip.ohp_congr hm m).trans (Chip.ohp_setOhp_other _ _ hne),
    Dev.only_of_besides (fun _ _ => rfl) ((Chip.mirror_besides _ e x.chip).trans ?_) (x.sameMem_mk _)⟩
  · rw [Chip.commitPend]
    have hne : (x.chip.ohp e).commit ++ [x.chip.core] ≠ [] := List.append_ne_nil_of_right_ne_nil _ (List.cons_ne_nil _ _)
    change (!(((x.cleared.chip.commit e).mirror e).ohp e).commit.isEmpty) = true
    rw [hc, List.isEmpty_eq_false_iff.2 hne]
    rfl
  · exact congrArg (fun l : SMap Ohp => { x.chip with ohps := l }) hm.symm

/-! # What a transmit frame leaves of the commits (R93, R94) -/

/-! ## The units behind the frame start

Once its commits are applied, a transmit frame runs through the pattern engine, the injection, the trace buffers, the
through store and the lanes. -/

/-- No update of the transmit side changes what `f` shows, where an overhead processor keeps its commits and the
entries that are applied. -/
structure Chip.BlindToTransmit {γ : Type} (f : Chip → γ) : Prop where
  wr : ∀ (d : Chip) (e o : Nat) (w : Word), o < 2 ^ 12 → o ≠ 0x20C → f (d.wr ⟨.eng, e, o⟩ w) = f d
  log : ∀ (d : Chip) (l : EvLog), f { d with log := l } = f d
  free : ∀ (d : Chip) (n : Nat), f { d with free := n } = f d
  emit : ∀ (d : Chip) (o : Out), f (d.emit o) = f d
  setCap : ∀ (d : Chip) (k : Nat) (c : Cap), f (d.setCap k c) = f d
  setLane : ∀ (d : Chip) (k : Nat) (c : Lane), f (d.setLane k c) = f d
  setCtx : ∀ (d : Chip) (k : Nat) (c : Ctx), f (d.setCtx k c) = f d
  setTrace : ∀ (d : Chip) (k : Nat) (c : Trace), f (d.setTrace k c) = f d
  setPat : ∀ (d : Chip) (k : Nat) (c : Pat), f (d.setPat k c) = f d
  setOhp : ∀ (d : Chip) (k : Nat) (c : Ohp), c.commit = (d.ohp k).commit → c.applied = (d.ohp k).applied →
    f (d.setOhp k c) = f d

/-- The commits of engine `e` that wait, the entries that are applied, and OHP_EVENT. -/
def Chip.commits (d : Chip) (e : Nat) : List Nat × SMap Nat × Word :=
  ((d.ohp e).commit, (d.ohp e).applied, d.rd (R.OHP_EVENT e))

theorem Chip.blindToTransmit_commits (e : Nat) : Chip.BlindToTransmit (Chip.commits · e) where
  wr d k o w ho hne := by
    have hk : (R.OHP_EVENT e).key ≠ (RegId.mk .eng k o).key :=
      RegId.key_ne_of_offs (o := 0x20C) (by omega)
    exact congrArg (fun v => ((d.ohp e).commit, (d.ohp e).applied, v)) (Chip.rd_wr_other d w hk)
  log _ _ := rfl
  free _ _ := rfl
  emit _ _ := rfl
  setCap _ _ _ := rfl
  setLane _ _ _ := rfl
  setCtx _ _ _ := rfl
  setTrace _ _ _ := rfl
  setPat _ _ _ := rfl
  setOhp d k c hc ha := by
    obtain rfl | hne := eq_or_ne e k
    · unfold Chip.commits
      rw [Chip.ohp_setOhp_same, hc, ha]
      rfl
    · unfold Chip.commits
      rw [Chip.ohp_setOhp_other d c hne]
      rfl

/-- A run of steps that `f` does not see.  The argument `_K` lets `grind` find the lemma. -/
theorem Chip.BlindToTransmit.foldl {γ β : Type} {f : Chip → γ} (_K : Chip.BlindToTransmit f) {g : Chip → β → Chip}
    (h : ∀ d b, f (g d b) = f d) (l : List β) (d : Chip) : f (l.foldl g d) = f d :=
  foldl_keeps f g h l d

theorem Chip.laneSend_ohps (d : Chip) (n : Nat) (l : List Byte) : (d.laneSend n l).ohps = d.ohps := by
  grind [Chip.laneSend, Chip.setLane_ohps, Chip.emit_ohps]

theorem Chip.engSend_ohps (d : Chip) (e : Nat) (l : List Byte) : (d.engSend e l).ohps = d.ohps :=
  foldl_keeps Chip.ohps _ (fun d n => d.laneSend_ohps n l) _ d

theorem Chip.groupSend_ohps (d : Chip) (e f : Nat) (l : List Byte) : (d.groupSend e f l).ohps = d.ohps := by
  unfold Chip.groupSend
  split
  · exact d.engSend_ohps e l
  · exact foldl_keeps Chip.ohps _ (fun x (p : List Byte × Nat) => x.engSend_ohps (e + p.2) p.1) _ d

namespace Chip.BlindToTransmit

variable {γ : Type} {f : Chip → γ} (K : Chip.BlindToTransmit f)

include K

/-! ### The pattern engine -/

theorem evt (d : Chip) (src code ctx det ext : Nat) : f (d.evt src code ctx det ext) = f d :=
  Chip.evtAt_keeps f
    (Chip.tapWord_keeps f K.setCap
      (fun _ _ _ _ => (K.wr _ _ _ _ (by decide) (by decide)).trans (K.wr _ _ _ _ (by decide) (by decide)))) K.log
    d d.dt src code ctx det ext

theorem patFlag (d : Chip) (e i : Nat) : f (d.flag (R.PAT_EVENT e) i) = f d := K.wr d e 0x370 _ (by decide) (by decide)

theorem patEvent (d : Chip) (e bit_ code sub det ext : Nat) : f (d.patEvent e bit_ code sub det ext) = f d :=
  (K.evt _ _ _ _ _ _).trans (K.patFlag d e bit_)

theorem setRun (d : Chip) (e sub : Nat) (r : Option Run') : f (d.setRun e sub r) = f d := K.setPat d e _

theorem enterSeg (s : Dev) (e now : Nat) (r0 : Run') (g : Seg) : f (s.enterSeg e now r0 g).chip = f s.chip := by
  unfold Dev.enterSeg
  extract_lets r diff
  have set (o : Option Run') : f (s.on (fun d => d.setRun e r.sub o)).chip = f s.chip := K.setRun s.chip e r.sub o
  split
  · split
    · exact set _
    · split
      · exact set _
      · exact (K.patEvent _ e 1 _ _ _ _).trans (set (some r))
  · exact set _

theorem runAdvance (s : Dev) (e now : Nat) (r : Run') : f (s.runAdvance e now r).chip = f s.chip := by
  grind [Dev.runAdvance, Dev.on_chip, enterSeg, setRun, patEvent]

theorem frameEnd (s : Dev) (e sub now : Nat) : f (s.frameEnd e sub now).chip = f s.chip := by
  grind [Dev.frameEnd, Dev.on_chip, runAdvance, setRun]

theorem thruPop (d : Chip) (e : Nat) : f (d.thruPop e).2 = f d := by
  grind [Chip.thruPop, setPat, patEvent]

/-! ### Edits, injection and traces -/

theorem editCtx (d : Chip) (inj : Bool) (x : Edit) : f (d.editCtx inj x) = f d := by
  grind [Chip.editCtx, setCtx]

theorem frameEdits (s : Dev) (e : Nat) (r : Run') : f (s.frameEdits e r).2.chip = f s.chip := by
  grind [Dev.frameEdits, Dev.on_chip, foldl, patEvent, editCtx]

theorem injEnd (d : Chip) (e : Nat) : f (d.injEnd e) = f d := (K.patEvent _ _ _ _ _ _ _).trans (K.setPat d e _)

theorem injFrame (d : Chip) (e stamp : Nat) (ais : Edit → Bool) : f (d.injFrame e stamp ais).2 = f d := by
  grind [Chip.injFrame, setPat, editCtx, patFlag, injEnd]

theorem ttiSend (d : Chip) (k mf : Nat) : f (d.ttiSend k mf).2 = f d := K.setTrace d k _

theorem fresh (d : Chip) (w : Nat) : f (d.fresh w).2 = f d := K.free d _

/-! ### Octets on the lanes -/

theorem laneSend (d : Chip) (n : Nat) (l : List Byte) : f (d.laneSend n l) = f d := by
  grind [Chip.laneSend, setLane, emit]

theorem engSend (d : Chip) (e : Nat) (l : List Byte) : f (d.engSend e l) = f d :=
  K.foldl (fun d n => K.laneSend d n l) _ d

theorem groupSend (d : Chip) (e g : Nat) (l : List Byte) : f (d.groupSend e g l) = f d := by
  unfold Chip.groupSend
  split
  · exact K.engSend d e l
  · exact K.foldl (fun x (p : List Byte × Nat) => K.engSend x (e + p.2) p.1) _ d

theorem frameSent (d : Chip) (e g : Nat) (l : List Byte) : f (d.frameSent e g l) = f d := by
  unfold Chip.frameSent
  extract_lets n sent y y1
  have hy : (d.groupSend e g sent).ohp e = y := Chip.ohp_congr (d.groupSend_ohps e g sent) e
  have h1 : y1.commit = y.commit ∧ y1.applied = y.applied := by
    unfold y1
    split
    · exact ⟨rfl, rfl⟩
    · exact ⟨rfl, rfl⟩
  rw [← hy] at h1
  exact (K.emit _ _).trans ((K.setOhp _ e y1 h1.1 h1.2).trans (K.groupSend d e g sent))

/-! ### A transmit frame -/

theorem rawFrame (s : Dev) (e : Nat) (fr : TxFrame) (r : Option Run') : f (s.rawFrame e fr r).chip = f s.chip := by
  unfold Dev.rawFrame
  extract_lets o n
  split
  rename_i es s1 hs
  have h1 : f s1.chip = f s.chip := by
    have hf (x : Run') := K.frameEdits s e x
    grind
  split
  rename_i inj d1 hi
  extract_lets o1
  split
  extract_lets l d2 d3 d4
  have h2 : f d2 = f s.chip := by
    have := K.injFrame s1.chip e fr.stamp (fun _ => false)
    rw [hi] at this
    exact (K.setOhp d1 e _ (by rfl) (by rfl)).trans (this.trans h1)
  clear hs hi
  clear_value d2 n
  have h4 : f d4 = f d2 := by grind [setRun, patEvent]
  exact (K.emit _ _).trans ((K.engSend d4 e l).trans (h4.trans h2))

theorem framedFrame (s : Dev) (e : Nat) (fr : TxFrame) (r : Option Run') (src : Option (List Byte)) :
    f (s.framedFrame e fr r src).chip = f s.chip := by
  unfold Dev.framedFrame
  extract_lets g sdh thru ais
  split
  rename_i es s1 hs
  have h1 : f s1.chip = f s.chip := by
    have hf (x : Run') := K.frameEdits s e x
    clear_value ais
    grind
  split
  rename_i inj d1 hi
  have h2 : f d1 = f s.chip := by
    have := K.injFrame s1.chip e fr.stamp (s1.chip.injMasked g ais)
    rw [hi] at this
    exact this.trans h1
  extract_lets all o slots
  split
  extract_lets body
  split
  rename_i tt d2 ht
  have h3 : f d2 = f d1 := by
    have hd := congrArg Prod.snd ht
    rw [← show _ = d2 from hd]
    exact foldl_keeps (fun a : List (Nat × Nat) × Chip => f a.2) _ (fun a k => K.ttiSend a.2 (slotKey e k false) o.txMf) _ _
  extract_lets tti
  split
  rename_i free d3 hd
  have h4 : f d3 = f d2 := by
    have := K.fresh d2 72
    rwa [hd] at this
  extract_lets l o1 d4 d5
  have h5 : f d4 = f d3 := (K.frameSent _ e g l).trans (K.setOhp d3 e _ (by rfl) (by rfl))
  have h6 : f d5 = f d4 := by
    unfold d5
    split
    · exact K.setRun d4 e 0 _
    · rfl
  have h : f d5 = f s.chip := by rw [h6, h5, h4, h3, h2]
  split
  · exact (K.patEvent d5 e 5 _ _ _ _).trans h
  · exact h

/-- After its commits are applied, a transmit frame leaves what `f` shows. -/
theorem txFrame {s : Dev} {e : Nat} (fr : TxFrame) (hen : s.chip.engEn e = true) (hh : s.chip.head e = e) :
    f (s.txFrame e fr).chip = f (s.chip.commitApply e) := by
  unfold Dev.txFrame
  rw [if_neg (by simp [hen, hh])]
  extract_lets s0 s1 thru lost s2 r raw
  change _ = f s0.chip
  clear_value s0
  split
  · exact K.frameSent s0.chip e _ _
  · have h1 : f s1.chip = f s0.chip := K.frameEnd s0 e 0 fr.stamp
    have h2 : f s2.chip = f s1.chip := by
      change f (if _ then _ else _) = _
      split
      · rfl
      · exact K.setPat s1.chip e _
    split
    · exact (K.rawFrame s2 e fr r).trans (h2.trans h1)
    · split
      rename_i src d hd
      have h3 : f d = f s2.chip := by
        have hp := K.thruPop s2.chip e
        clear_value s2 lost
        grind
      exact (K.framedFrame _ e fr r src).trans (h3.trans (h2.trans h1))

end Chip.BlindToTransmit

/-! ## The octets that leave -/

theorem Chip.octets_frameSent (d : Chip) (e g : Nat) (l : List Byte) : ∃ b, Out.octets e b ∈ (d.frameSent e g l).out :=
  ⟨_, List.mem_append_right _ (List.mem_singleton_self _)⟩

theorem Dev.octets_rawFrame (s : Dev) (e : Nat) (fr : TxFrame) (r : Option Run') :
    ∃ b, Out.octets e b ∈ (s.rawFrame e fr r).chip.out := by
  unfold Dev.rawFrame
  extract_lets o n
  split
  split
  extract_lets o1
  split
  exact ⟨_, List.mem_append_right _ (List.mem_singleton_self _)⟩

theorem Chip.patEvent_out (d : Chip) (e bit_ code sub det ext : Nat) : (d.patEvent e bit_ code sub det ext).out = d.out := by
  rw [Chip.patEvent, Chip.evt_out, Chip.flag_out]

theorem Chip.setRun_out (d : Chip) (e sub : Nat) (r : Option Run') : (d.setRun e sub r).out = d.out := rfl

theorem Dev.octets_framedFrame (s : Dev) (e : Nat) (fr : TxFrame) (r : Option Run') (src : Option (List Byte)) :
    ∃ b, Out.octets e b ∈ (s.framedFrame e fr r src).chip.out := by
  unfold Dev.framedFrame
  extract_lets g sdh thru ais
  split
  split
  extract_lets all o slots
  split
  extract_lets body
  split
  extract_lets tti
  split
  rename_i d3 _
  extract_lets l o1 d4 d5
  have h4 : ∃ b, Out.octets e b ∈ d4.out := Chip.octets_frameSent _ e g l
  have h5 : d5.out = d4.out := by
    unfold d5
    split
    · exact Chip.setRun_out d4 e 0 _
    · rfl
  rw [← h5] at h4
  dsimp only
  split
  · rw [Chip.patEvent_out]
    exact h4
  · exact h4

theorem Dev.octets_txFrame {s : Dev} {e : Nat} (fr : TxFrame) (hen : s.chip.engEn e = true) (hh : s.chip.head e = e) :
    ∃ b, Out.octets e b ∈ (s.txFrame e fr).chip.out := by
  unfold Dev.txFrame
  rw [if_neg (by simp [hen, hh])]
  extract_lets s0 s1 thru lost s2 r raw
  split
  · exact Chip.octets_frameSent _ e _ _
  · split
    · exact Dev.octets_rawFrame s2 e fr r
    · split
      exact Dev.octets_framedFrame _ e fr r _

/-! ## The commits that a frame start applies -/

theorem Chip.commit_commitApply (d : Chip) (e : Nat) :
    ((d.commitApply e).ohp e).commit = (d.ohp e).commit.filter (fun c => decide (d.core ≤ c + 1)) := by
  unfold Chip.commitApply
  extract_lets o
  split
  · exact congrArg Ohp.commit (Chip.ohp_setOhp_same d e _)
  · next h =>
    refine (List.filter_eq_self.2 fun c hc => decide_eq_true ?_).symm
    by_contra hlt
    exact h (List.any_eq_true.2 ⟨c, hc, decide_eq_true (by omega)⟩)

theorem Chip.commitApply_due {d : Chip} {e c : Nat} (hc : c ∈ (d.ohp e).commit) (hd : c + 1 < d.core) :
    ((d.commitApply e).ohp e).applied = d.staged e ∧ (d.commitApply e).rb (R.OHP_EVENT e) 3 = true := by
  unfold Chip.commitApply
  extract_lets o
  rw [if_pos (List.any_eq_true.2 ⟨c, hc, decide_eq_true hd⟩)]
  exact ⟨congrArg Ohp.applied (Chip.ohp_setOhp_same d e _), Chip.rb_flag_same _ _ 3 (by decide)⟩

/-! ## TX_FRAME_START -/

theorem exec_txFrameStart (e : Nat) (fr : TxFrame) (s : State) :
    exec (.txFrameStart e fr) s = command (engineOk e) false (fun x => x.txFrame e fr) s := rfl

theorem Dev.txFrame_off {s : Dev} {e : Nat} (fr : TxFrame) (h : s.chip.engEn e = false ∨ s.chip.head e ≠ e) :
    s.txFrame e fr = s :=
  if_pos (by simpa using h)

section Frame

variable {q : List Instr} {x : Dev} {e : Nat} (fr : TxFrame) (hx : x.live) (he : e < 136)

include hx he

theorem does_txFrameStart (hen : x.chip.engEn e = true) (hh : x.chip.head e = e) :
    Does (.txFrameStart e fr) ⟨q, x⟩ (fun y => (∃ l, Out.octets e l ∈ y.chip.out)
      ∧ ((y.chip.ohp e).commit = (x.chip.ohp e).commit.filter (fun c => decide (x.chip.core ≤ c + 1)))
      ∧ ∀ c ∈ (x.chip.ohp e).commit, c + 1 < x.chip.core →
          (y.chip.ohp e).applied = x.chip.staged e ∧ y.chip.rb (R.OHP_EVENT e) 3 = true) := by
  refine does_of_command (exec_txFrameStart e fr ⟨q, x⟩) (decide_eq_true he) hx ?_
  have hk := (Chip.blindToTransmit_commits e).txFrame (s := x.cleared) fr hen hh
  obtain ⟨hcommit, hrest⟩ := Prod.mk.inj hk
  obtain ⟨happlied, hevent⟩ := Prod.mk.inj hrest
  refine ⟨Dev.octets_txFrame (s := x.cleared) fr hen hh, hcommit.trans (Chip.commit_commitApply x.cleared.chip e),
    fun c hc hd => ?_⟩
  obtain ⟨ha, hf⟩ := Chip.commitApply_due (d := x.cleared.chip) hc hd
  exact ⟨happlied.trans ha, (congrArg (bit · 3) hevent).trans hf⟩

theorem does_txFrameStart_idle (h : x.chip.engEn e = false ∨ x.chip.head e ≠ e) :
    Does (.txFrameStart e fr) ⟨q, x⟩ x.idle :=
  does_same (exec_txFrameStart e fr ⟨q, x⟩) (decide_eq_true he) hx 
    (Dev.txFrame_off (s := x.cleared) fr h)

end Frame

/-! # The obligation -/

/-- Settles O16: behind the overhead processor no unit touches the readable frame (`Chip.BlindToReceive`), and once a
frame start has applied its commits no unit touches them or OHP_EVENT (`Chip.BlindToTransmit`). -/
theorem overheadFrames : Obligations.OverheadFrames := by
  intro q x hx
  refine ⟨fun e fr he => ⟨fun hen hh hf => ⟨fun hi => ?_, fun hi _ => ?_, fun hi hl => ?_⟩, fun h => ?_⟩,
    fun e fr he hlt h => ?_,
    fun e fr he => ⟨fun hen hh => does_txFrameStart fr hx he hen hh, fun h => does_txFrameStart_idle fr hx he h⟩,
    fun sess e he ha hb => does_ohpCommit hx he ha hb⟩
  · simpa only [hi, if_true] using does_rxFrame fr hx he hen hh hf
  · simpa only [hi, Bool.false_eq_true, if_false] using does_rxFrame fr hx he hen hh hf
  · exact does_rxFrame_idle fr (by omega) (Chip.rxLine_unled (d := x.cleared.chip) he fr hi hl)
  · exact does_rxFrame_idle fr (by omega) (Chip.rxLine_off (d := x.cleared.chip) he fr h)
  · exact does_rxFrame_idle fr hlt (Chip.rxLine_peer_apart (d := x.cleared.chip) he fr h)

end Sys2Proof.Machine
end

section
set_option Elab.async false
/-! Tributary contexts (R98-R121): what enables and disables a context, and what the pointer programs and the pointer
periods of a context leave.  First writes of TRB_CFG; then pointer periods, and last the sequence programs that
MAP_CTRL starts and stops. -/
namespace Sys2Proof.Machine

/-! # Writes of TRB_CFG (R100, R103) -/

/-! ## A store that keeps a bit -/

section Store

variable (d : Chip) {t : RegId} (w keep : Word)

theorem Chip.rd_store_keep_other {r : RegId} (h : r.key ≠ t.key) : (d.store t w keep).rd r = d.rd r := by
  unfold Chip.store
  split
  · rfl
  · exact Chip.rd_wr_other d _ h

theorem Chip.store_keep_besides (c : Chip) : (d.store t w keep).besides c = d.besides c := by
  unfold Chip.store
  split
  · rfl
  · rfl

/-- A bit that the write keeps, and that no 1 clears, stays. -/
theorem Chip.rb_store_kept {row : Row} {i : Nat} (hr : t.row = some row) (hk : bit keep i = true)
    (hc : bit (w32 row.w1c) i = false) (h : i < 32) : (d.store t w keep).rb t i = d.rb t i := by
  simp only [Chip.rb, Chip.store, hr, Chip.rd_wr_same, bit_or, bit_and, bit_not _ h, hk, hc]
  simp

end Store

theorem Chip.ctxEn_store (d : Chip) (t : Nat) (w : Word) : (d.store (R.TRB_CFG t) w 1).ctxEn t = d.ctxEn t :=
  Chip.rb_store_kept d w 1 (t := R.TRB_CFG t) rfl (by decide) (by decide) (by decide)

/-! ## Enabled contexts and their children -/

theorem SMap.mem_of_get_ne {α : Type} {d : α} {m : SMap α} {k : Nat} (h : SMap.get d m k ≠ d) :
    (k, SMap.get d m k) ∈ m := by
  induction m with
  | nil => exact absurd rfl h
  | cons z m ih =>
    obtain ⟨a, v⟩ := z
    unfold SMap.get at h ⊢
    split at h
    · next ha =>
      rw [if_pos ha, ha]
      exact List.mem_cons_self
    · next ha =>
      rw [if_neg ha]
      exact List.mem_cons_of_mem _ (ih h)

theorem Chip.mem_enabledCtxs {d : Chip} {u : Nat} (hu : u < 2 ^ 36) (h : d.ctxEn u = true) : u ∈ d.enabledCtxs := by
  have hne : d.rd (R.TRB_CFG u) ≠ (R.TRB_CFG u).resetWord := by
    intro he
    unfold Chip.ctxEn Chip.rb at h
    rw [he] at h
    exact absurd h (by decide : ¬ bit 0 0 = true)
  refine List.mem_filterMap.2 ⟨_, SMap.mem_of_get_ne hne, ?_⟩
  have hb : (R.TRB_CFG u).key / 2 ^ 48 = Blk.trb.code := RegId.key_blk _
  have ho : (R.TRB_CFG u).key % 2 ^ 12 = 0 := RegId.key_off _
  have hi : (R.TRB_CFG u).key / 2 ^ 12 % 2 ^ 36 = u := (RegId.key_idx _).trans (Nat.mod_eq_of_lt hu)
  dsimp only
  rw [if_pos ⟨hb, ho, h⟩, hi]

theorem Chip.hasKids_of_child {d : Chip} {t u : Nat} (hu : u < 2 ^ 36) (hne : u ≠ t) (hen : d.ctxEn u = true)
    (htop : d.ctxTop u = false) (hp : d.ctxParent u = t) : d.hasKids t = true :=
  List.any_eq_true.2 ⟨u, Chip.mem_enabledCtxs hu hen, by simp [htop, hp, hne]⟩

/-- A write of a context's configuration leaves every other context where it is. -/
theorem Chip.hasKids_store {d : Chip} {t u : Nat} (ht : t < 2 ^ 36) (hu : u < 2 ^ 36) (w : Word) (hne : u ≠ t)
    (hen : d.ctxEn u = true) (htop : d.ctxTop u = false) (hp : d.ctxParent u = t) :
    (d.store (R.TRB_CFG t) w 1).hasKids t = true := by
  have hk : (R.TRB_CFG u).key ≠ (R.TRB_CFG t).key :=
    RegId.key_ne_of_idx (show u % 2 ^ 36 ≠ t % 2 ^ 36 by rwa [Nat.mod_eq_of_lt ht, Nat.mod_eq_of_lt hu])
  have hrd := Chip.rd_store_keep_other d w 1 hk
  exact Chip.hasKids_of_child hu hne ((congrArg (bit · 0) hrd).trans hen) ((congrArg (bit · 13) hrd).trans htop)
    ((congrArg (fld · 27 14) hrd).trans hp)

/-! ## What the mapper's evaluation leaves alone -/

section Mapper

variable (d : Chip) (t e : Nat) {r : RegId} (hr : r.blk ≠ .eng)

include hr

theorem Chip.rd_ctxSync : (d.ctxSync t).rd r = d.rd r := by
  have hc (c : Chip) (k : DKey) (b : Option Bool) := (Chip.blindToEngines_rd hr).defCrit c k b
  grind [Chip.ctxSync]

theorem Chip.rd_setCtx_ctxSync (c : Ctx) : ((d.setCtx t c).ctxSync t).rd r = d.rd r :=
  (Chip.rd_ctxSync (d.setCtx t c) t hr).trans (Chip.rd_congr (Chip.setCtx_regs d t c) r)

theorem Chip.rd_parentStep : (d.parentStep t).rd r = d.rd r := by
  unfold Chip.parentStep
  extract_lets x
  repeat' split
  · rfl
  · rfl
  · exact Chip.rd_setCtx_ctxSync d t hr _
  · exact Chip.rd_setCtx_ctxSync d t hr _
  · rfl

theorem Chip.rd_parents : (d.parents e).rd r = d.rd r := by
  have K := Chip.blindToEngines_rd hr
  unfold Chip.parents
  split
  · exact K.foldl (fun c _ => K.foldl (fun y u => Chip.rd_parentStep y u hr) _ c) _ d
  · rfl

theorem Chip.rd_msiEval : (d.msiEval e).rd r = d.rd r := by
  have K := Chip.blindToEngines_rd hr
  unfold Chip.msiEval
  extract_lets rank acc bad free d1
  have h1 : d1.rd r = d.rd r := (K.defCrit _ _ _).trans (K.sbit d _ _ _ rfl)
  refine (K.foldl (fun x t => ?_) _ d1).trans h1
  extract_lets top r a p bad1
  split
  · split
    · rfl
    · exact Chip.rd_setCtx_ctxSync x t hr _
  · rfl

end Mapper

/-! ## The cases of a write -/

section Cases

variable {d : Chip} {t : Nat} {w : Word}

theorem Chip.trbCfgWrite_enable (hb : bit w 0 = true) (h : d.ctxEn t = false) :
    d.trbCfgWrite t w = (d.store (R.TRB_CFG t) w 1).ctxEnable t :=
  if_pos ⟨hb, by simp [h]⟩

theorem Chip.trbCfgWrite_disable (hb : bit w 0 = false) (h : d.ctxEn t = true) :
    d.trbCfgWrite t w = (d.store (R.TRB_CFG t) w 1).ctxDisable t := by
  unfold Chip.trbCfgWrite
  extract_lets was d1
  rw [if_neg (by simp [hb]), if_pos (by simp [hb, was, h])]

theorem Chip.trbCfgWrite_same (h : d.ctxEn t = bit w 0) : d.trbCfgWrite t w = (.ok, d.store (R.TRB_CFG t) w 1) := by
  unfold Chip.trbCfgWrite
  extract_lets was d1
  rw [if_neg (by simp [was, h]), if_neg (by simp [was, h])]

/-- A context that has been enabled stays so while the mapper evaluates what follows. -/
theorem Chip.ctxEnable_ok (h : d.ctxOk t = true) :
    (d.ctxEnable t).1 = .ok ∧ (d.ctxEnable t).2.ctxEn t = true := by
  unfold Chip.ctxEnable
  rw [if_pos h]
  extract_lets d1 e
  refine ⟨rfl, ?_⟩
  have hrd : ((d1.msiEval e).parents e).rd (R.TRB_CFG t) = (d.flag (R.TRB_CFG t) 0).rd (R.TRB_CFG t) :=
    (Chip.rd_parents _ e (by simp [R.TRB_CFG])).trans (Chip.rd_msiEval d1 e (by simp [R.TRB_CFG]))
  exact (congrArg (bit · 0) hrd).trans (Chip.rb_flag_same d (R.TRB_CFG t) 0 (by decide))

theorem Chip.ctxEnable_refused (h : d.ctxOk t = false) : d.ctxEnable t = (.badParam, d.flag (R.TRB_EVENT t) 11) :=
  if_neg (by simp [h])

/-- A context that has been disabled stays so while the mapper evaluates what follows. -/
theorem Chip.ctxDisable_ok (h : d.hasKids t = false) :
    (d.ctxDisable t).1 = .ok ∧ (d.ctxDisable t).2.ctxEn t = false := by
  unfold Chip.ctxDisable
  rw [if_neg (by simp [h])]
  extract_lets e
  refine ⟨rfl, ?_⟩
  have hrd : (((d.ctxEnd t).msiEval e).parents e).rd (R.TRB_CFG t) = (d.ctxEnd t).rd (R.TRB_CFG t) :=
    (Chip.rd_parents _ e (by simp [R.TRB_CFG])).trans (Chip.rd_msiEval _ e (by simp [R.TRB_CFG]))
  exact (congrArg (bit · 0) hrd).trans (Chip.rb_unflag_same _ (R.TRB_CFG t) (by decide))

theorem Chip.ctxDisable_refused (h : d.hasKids t = true) : d.ctxDisable t = (.badParam, d.flag (R.TRB_EVENT t) 11) :=
  if_pos h

end Cases

/-! ## The commands -/

theorem exec_contextEnable (sess t : Nat) (w : Word) (s : State) : exec (.contextEnable sess t w) s
    = command (contextOk t) false (fun x => x.hostWrite sess (R.TRB_CFG t) (setFld w 0 0 1)) s := rfl

theorem exec_contextDisable (sess t : Nat) (w : Word) (s : State) : exec (.contextDisable sess t w) s
    = command (contextOk t) false (fun x => x.hostWrite sess (R.TRB_CFG t) (setFld w 0 0 0)) s := rfl

/-- A write of TRB_CFG that passes its checks does what the context's own write does, and is answered with its
status. -/
theorem Dev.hostWrite_trbCfg {x : Dev} {sess t : Nat} {w : Word} (ha : x.allows sess (R.TRB_CFG t) w) :
    x.hostWrite sess (R.TRB_CFG t) w = ⟨(x.chip.trbCfgWrite t w).2.answer (x.chip.trbCfgWrite t w).1, x.mem⟩ := by
  simp only [Dev.hostWrite, Dev.regWrite_allows x sess 0x0011 _ w ha]
  rfl

theorem Does.mono {i : Instr} {s : State} {P Q : Dev → Prop} (h : Does i s P) (hPQ : ∀ y, P y → Q y) : Does i s Q := by
  obtain ⟨t, he, hp, hd⟩ := h
  exact ⟨t, he, hp, hPQ _ hd⟩

section Commands

variable (q : List Instr) {x : Dev} {sess t : Nat} {w : Word} (ht : t < 16384) (hx : x.live)

include ht hx

/-- A command whose write of TRB_CFG is answered with `st` and leaves the chip `c`. -/
theorem does_trbCfg {i : Instr} {v : Word} {st : Status} {c : Chip} {P : Dev → Prop}
    (hi : exec i ⟨q, x⟩ = command (contextOk t) false (fun y => y.hostWrite sess (R.TRB_CFG t) v) ⟨q, x⟩)
    (ha : x.allows sess (R.TRB_CFG t) v) (hw : x.cleared.chip.trbCfgWrite t v = (st, c)) (hp : P ⟨c.answer st, x.mem⟩) :
    Does i ⟨q, x⟩ (fun y => y.answered st ∧ P y) := by
  refine does_of_command hi (decide_eq_true ht) hx ?_
  rw [Dev.hostWrite_trbCfg (Dev.allows_cleared ha), hw]
  exact ⟨Chip.answered_answer _ _ _, hp⟩

/-- A write that leaves ENABLE as it was stores its fields and changes no context. -/
theorem does_trbCfg_same {i : Instr} {v : Word}
    (hi : exec i ⟨q, x⟩ = command (contextOk t) false (fun y => y.hostWrite sess (R.TRB_CFG t) v) ⟨q, x⟩)
    (ha : x.allows sess (R.TRB_CFG t) v) (h : x.chip.ctxEn t = bit v 0) :
    Does i ⟨q, x⟩ (fun y => y.answered .ok ∧ y.chip.ctxEn t = bit v 0 ∧ x.only y ∧ x.regsBut y [R.TRB_CFG t]) := by
  refine does_trbCfg q ht hx hi ha (Chip.trbCfgWrite_same (d := x.cleared.chip) h) ⟨?_, ?_, fun r hr _ => ?_⟩
  · exact (Chip.ctxEn_store x.cleared.chip t v).trans h
  · exact Dev.only_of_besides (f := id) (fun _ _ => rfl) (Chip.store_keep_besides x.cleared.chip v 1 x.chip)
      (x.sameMem_mk _)
  · exact Chip.rd_store_keep_other x.cleared.chip v 1 (hr (R.TRB_CFG t) (by simp))

/-- A write that is refused stores its fields, leaves ENABLE, sets CFG_ERR and changes no context. -/
theorem does_trbCfg_refused {i : Instr} {v : Word}
    (hi : exec i ⟨q, x⟩ = command (contextOk t) false (fun y => y.hostWrite sess (R.TRB_CFG t) v) ⟨q, x⟩)
    (ha : x.allows sess (R.TRB_CFG t) v) (hw : x.cleared.chip.trbCfgWrite t v
      = (.badParam, (x.cleared.chip.store (R.TRB_CFG t) v 1).flag (R.TRB_EVENT t) 11)) :
    Does i ⟨q, x⟩ (fun y => y.answered .badParam ∧ y.chip.ctxEn t = x.chip.ctxEn t ∧ y.chip.rb (R.TRB_EVENT t) 11 = true
      ∧ x.only y ∧ x.regsBut y [R.TRB_CFG t, R.TRB_EVENT t]) := by
  have hk : (R.TRB_CFG t).key ≠ (R.TRB_EVENT t).key := RegId.key_ne_of_offs (by decide)
  set c := x.cleared.chip.store (R.TRB_CFG t) v 1
  have hen : c.ctxEn t = x.chip.ctxEn t := Chip.ctxEn_store x.cleared.chip t v
  have hrd (r : RegId) (h : r.key ≠ (R.TRB_CFG t).key) : c.rd r = x.chip.rd r :=
    Chip.rd_store_keep_other x.cleared.chip v 1 h
  have hbes : c.besides x.chip = x.chip := Chip.store_keep_besides x.cleared.chip v 1 x.chip
  clear_value c
  refine does_trbCfg q ht hx hi ha hw ⟨?_, ?_, ?_, fun r hr _ => ?_⟩
  · exact ((Chip.rb_answer _ _ _ _).trans (congrArg (bit · 0) (Chip.rd_flag_other c 11 hk))).trans hen
  · exact (Chip.rb_answer _ _ _ _).trans (Chip.rb_flag_same c (R.TRB_EVENT t) 11 (by decide))
  · exact Dev.only_of_besides (f := id) (fun _ _ => rfl)
      ((Chip.flag_answer_besides c (R.TRB_EVENT t) 11 .badParam x.chip).trans hbes) (x.sameMem_mk _)
  · refine (Chip.rd_answer _ _ r).trans ?_
    exact (Chip.rd_flag_other c 11 (hr (R.TRB_EVENT t) (by simp))).trans (hrd r (hr (R.TRB_CFG t) (by simp)))

section Enable

variable (ha : x.allows sess (R.TRB_CFG t) (setFld w 0 0 1))

include ha

theorem does_contextEnable (he : x.chip.ctxEn t = false)
    (hok : (x.chip.store (R.TRB_CFG t) (setFld w 0 0 1) 1).ctxOk t = true) :
    Does (.contextEnable sess t w) ⟨q, x⟩ (fun y => y.answered .ok ∧ y.chip.ctxEn t = true ∧ x.sameMem y) := by
  obtain ⟨hst, hen⟩ := Chip.ctxEnable_ok (d := x.cleared.chip.store (R.TRB_CFG t) (setFld w 0 0 1) 1) (t := t) hok
  refine does_trbCfg q ht hx (exec_contextEnable sess t w ⟨q, x⟩) ha
    ((Chip.trbCfgWrite_enable (d := x.cleared.chip) (bit_setFld_same w 1 (by decide)) he).trans (Prod.ext hst rfl)) ?_
  exact ⟨hen, x.sameMem_mk _⟩

theorem does_contextEnable_refused (he : x.chip.ctxEn t = false)
    (hok : (x.chip.store (R.TRB_CFG t) (setFld w 0 0 1) 1).ctxOk t = false) :
    Does (.contextEnable sess t w) ⟨q, x⟩ (fun y => y.answered .badParam ∧ y.chip.ctxEn t = false
      ∧ y.chip.rb (R.TRB_EVENT t) 11 = true ∧ x.only y ∧ x.regsBut y [R.TRB_CFG t, R.TRB_EVENT t]) := by
  simpa only [he] using does_trbCfg_refused q ht hx (exec_contextEnable sess t w ⟨q, x⟩) ha
    ((Chip.trbCfgWrite_enable (d := x.cleared.chip) (bit_setFld_same w 1 (by decide)) he).trans
      (Chip.ctxEnable_refused (d := x.cleared.chip.store _ _ 1) hok))

theorem does_contextEnable_enabled (he : x.chip.ctxEn t = true) :
    Does (.contextEnable sess t w) ⟨q, x⟩ (fun y => y.answered .ok ∧ y.chip.ctxEn t = true
      ∧ x.only y ∧ x.regsBut y [R.TRB_CFG t]) := by
  have hb : bit (setFld w 0 0 1) 0 = true := bit_setFld_same w 1 (by decide)
  simpa only [hb] using does_trbCfg_same q ht hx (exec_contextEnable sess t w ⟨q, x⟩) ha (he.trans hb.symm)

end Enable

section Disable

variable (ha : x.allows sess (R.TRB_CFG t) (setFld w 0 0 0))

include ha

theorem does_contextDisable (he : x.chip.ctxEn t = true)
    (hk : (x.chip.store (R.TRB_CFG t) (setFld w 0 0 0) 1).hasKids t = false) :
    Does (.contextDisable sess t w) ⟨q, x⟩ (fun y => y.answered .ok ∧ y.chip.ctxEn t = false ∧ x.sameMem y) := by
  obtain ⟨hst, hen⟩ := Chip.ctxDisable_ok (d := x.cleared.chip.store (R.TRB_CFG t) (setFld w 0 0 0) 1) (t := t) hk
  refine does_trbCfg q ht hx (exec_contextDisable sess t w ⟨q, x⟩) ha
    ((Chip.trbCfgWrite_disable (d := x.cleared.chip) (bit_setFld_same w 0 (by decide)) he).trans (Prod.ext hst rfl)) ?_
  exact ⟨hen, x.sameMem_mk _⟩

theorem does_contextDisable_refused (he : x.chip.ctxEn t = true)
    (hk : (x.chip.store (R.TRB_CFG t) (setFld w 0 0 0) 1).hasKids t = true) :
    Does (.contextDisable sess t w) ⟨q, x⟩ (fun y => y.answered .badParam ∧ y.chip.ctxEn t = true
      ∧ y.chip.rb (R.TRB_EVENT t) 11 = true ∧ x.only y ∧ x.regsBut y [R.TRB_CFG t, R.TRB_EVENT t]) := by
  simpa only [he] using does_trbCfg_refused q ht hx (exec_contextDisable sess t w ⟨q, x⟩) ha
    ((Chip.trbCfgWrite_disable (d := x.cleared.chip) (bit_setFld_same w 0 (by decide)) he).trans
      (Chip.ctxDisable_refused (d := x.cleared.chip.store _ _ 1) hk))

theorem does_contextDisable_disabled (he : x.chip.ctxEn t = false) :
    Does (.contextDisable sess t w) ⟨q, x⟩ (fun y => y.answered .ok ∧ y.chip.ctxEn t = false
      ∧ x.only y ∧ x.regsBut y [R.TRB_CFG t]) := by
  have hb : bit (setFld w 0 0 0) 0 = false := bit_setFld_same w 0 (by decide)
  simpa only [hb] using does_trbCfg_same q ht hx (exec_contextDisable sess t w ⟨q, x⟩) ha (he.trans hb.symm)

end Disable

end Commands

/-- Settles O18: a write of TRB_CFG keeps ENABLE while it stores its fields, so that the checks alone change it, and the
mapper's evaluation after an enable or a disable writes registers of engine windows alone. -/
theorem contextEnableAndDisable : Obligations.ContextEnableAndDisable := by
  intro q x sess t w ht hx
  exact ⟨fun ha => ⟨does_contextEnable q ht hx ha, does_contextEnable_refused q ht hx ha,
      does_contextEnable_enabled q ht hx ha⟩,
    fun ha => ⟨does_contextDisable q ht hx ha, does_contextDisable_refused q ht hx ha,
      does_contextDisable_disabled q ht hx ha⟩⟩

/-- Settles O54: the write stores fields of the parent's own register alone, so the child still counts when R103 asks
for children. -/
theorem contextsWithChildrenStayEnabled : Obligations.ContextsWithChildrenStayEnabled := by
  intro q x sess t u w ht hu hx ha hen hne hchild htop hp
  have hk := Chip.hasKids_store (d := x.chip) (by omega) (by omega) (setFld w 0 0 0) hne hchild htop hp
  refine (does_contextDisable_refused q ht hx ha hen hk).mono fun y ⟨hst, hy, hflag, honly, _⟩ => ?_
  exact ⟨hst, hy, hflag, (congrArg Chip.ctxs honly.1).trans rfl, honly.2⟩

/-! # Pointer periods (R113, R121) -/

/-! ## Contexts -/

theorem Chip.ctx_setCtx_same (d : Chip) (t : Nat) (c : Ctx) : (d.setCtx t c).ctx t = c := SMap.get_put_same _ _ _ _

theorem Chip.ctx_setCtx_other (d : Chip) {t u : Nat} (c : Ctx) (h : u ≠ t) : (d.setCtx t c).ctx u = d.ctx u :=
  SMap.get_put_other _ _ _ _ h

theorem Chip.ctx_congr {d c : Chip} (h : c.ctxs = d.ctxs) (t : Nat) : c.ctx t = d.ctx t := by
  unfold Chip.ctx
  rw [h]

/-! ## What a period leaves of PAYLOAD_SRC (R121)

A period takes PAYLOAD_SRC over from TRB_TX at its start.  Neither the scripts and edits of its sub-channel nor the
pointer generator nor the container itself touches what was taken over. -/

section PaySrc

variable (d : Chip) (s : Dev) (t : Nat)

theorem Chip.src_setCtx {k : Nat} {c : Ctx} (h : c.src = (d.ctx k).src) :
    ((d.setCtx k c).ctx t).src = (d.ctx t).src := by
  obtain rfl | hne := eq_or_ne t k
  · rw [Chip.ctx_setCtx_same, h]
  · rw [Chip.ctx_setCtx_other d c hne]

theorem Chip.src_congr {c : Chip} (h : c.ctxs = d.ctxs) : (c.ctx t).src = (d.ctx t).src :=
  congrArg Ctx.src (Chip.ctx_congr h t)

theorem Chip.patEvent_ctxs (e bit_ code sub det ext : Nat) : (d.patEvent e bit_ code sub det ext).ctxs = d.ctxs := by
  rw [Chip.patEvent, Chip.evt_ctxs, Chip.flag_ctxs]

theorem Chip.setRun_ctxs (e sub : Nat) (r : Option Run') : (d.setRun e sub r).ctxs = d.ctxs := rfl

theorem Chip.ctxEvent_ctxs (k bit_ code det : Nat) : (d.ctxEvent k bit_ code det).ctxs = d.ctxs := by
  rw [Chip.ctxEvent, Chip.evt_ctxs, Chip.flag_ctxs]

/-! ### Scripts -/

theorem Dev.enterSeg_ctxs (e now : Nat) (r : Run') (g : Seg) : (s.enterSeg e now r g).chip.ctxs = s.chip.ctxs := by
  unfold Dev.enterSeg
  extract_lets r diff
  split
  · split
    · rfl
    · split
      · rfl
      · exact Chip.patEvent_ctxs _ e 1 _ _ _ _
  · rfl

theorem Dev.runAdvance_ctxs (e now : Nat) (r : Run') : (s.runAdvance e now r).chip.ctxs = s.chip.ctxs := by
  grind [Dev.runAdvance, Dev.on_chip, Dev.enterSeg_ctxs, Chip.setRun_ctxs, Chip.patEvent_ctxs]

theorem Dev.frameEnd_ctxs (e sub now : Nat) : (s.frameEnd e sub now).chip.ctxs = s.chip.ctxs := by
  grind [Dev.frameEnd, Dev.on_chip, Dev.runAdvance_ctxs, Chip.setRun_ctxs]

theorem Chip.src_editCtx (inj : Bool) (x : Edit) : ((d.editCtx inj x).ctx t).src = (d.ctx t).src := by
  grind [Chip.editCtx, Chip.src_setCtx]

theorem Dev.src_frameEdits (e : Nat) (r : Run') : ((s.frameEdits e r).2.chip.ctx t).src = (s.chip.ctx t).src := by
  have hf := foldl_keeps (fun d : Chip => (d.ctx t).src) (fun x (y : Edit) => x.editCtx false y)
    (fun x y => Chip.src_editCtx x t false y)
  grind [Dev.frameEdits, Dev.on_chip, Chip.src_congr, Chip.patEvent_ctxs]

/-! ### Pointers and justification -/

theorem Ctx.act_src (x : Ctx) (ty a : Nat) : (x.act ty a).1.src = x.src := by
  grind [Ctx.act]

theorem Chip.src_ctxEvent (k bit_ code det : Nat) : ((d.ctxEvent k bit_ code det).ctx t).src = (d.ctx t).src :=
  Chip.src_congr d t (Chip.ctxEvent_ctxs d k bit_ code det)

theorem Chip.src_seqPeriod (k : Nat) : ((d.seqPeriod k).2.ctx t).src = (d.ctx t).src := by
  grind [Chip.seqPeriod, Chip.src_setCtx, Chip.src_ctxEvent]

theorem Chip.src_recentre (k : Nat) (f unit : Int) : ((d.recentre k f unit).ctx t).src = (d.ctx t).src :=
  (Chip.src_congr _ t (Chip.emit_ctxs _ _)).trans
    ((Chip.src_ctxEvent _ t k _ _ _).trans (Chip.src_setCtx d t rfl))

theorem Chip.src_basePeriod (k : Nat) (units : Int) : ((d.basePeriod k units).2.ctx t).src = (d.ctx t).src := by
  grind [Chip.basePeriod, Chip.src_setCtx, Chip.src_recentre]

theorem Chip.src_forcedFill (k : Nat) (units : Int) (a : Nat) :
    ((d.forcedFill k units a).ctx t).src = (d.ctx t).src := by
  grind [Chip.forcedFill, Chip.src_setCtx, Chip.src_recentre]

theorem Chip.src_ptrPeriod (k : Nat) (units : Int) (ais : Bool) :
    ((d.ptrPeriod k units ais).2.ctx t).src = (d.ctx t).src := by
  grind [Chip.ptrPeriod, Chip.src_setCtx, Chip.src_ctxEvent, Chip.src_seqPeriod, Chip.src_basePeriod,
    Chip.src_forcedFill, Ctx.act_src]

theorem Chip.src_gmpPeriod (k : Nat) (units : Int) : ((d.gmpPeriod k units).2.ctx t).src = (d.ctx t).src := by
  grind [Chip.gmpPeriod, Chip.src_setCtx, Chip.src_ctxEvent, Chip.src_recentre]

theorem Chip.src_jcPeriod (k : Nat) (units : Int) : ((d.jcPeriod k units).2.ctx t).src = (d.ctx t).src := by
  have hf (c : Chip) (w : Nat) : ((c.fresh w).2.ctx t).src = (c.ctx t).src := rfl
  grind [Chip.jcPeriod, Chip.src_basePeriod, Chip.src_gmpPeriod]

/-! ### Containers -/

theorem Chip.src_takeUnit (k u : Nat) : ((d.takeUnit k u).2.ctx t).src = (d.ctx t).src := by
  grind [Chip.takeUnit, Chip.src_setCtx]

/-- The last thing that a container's start does is to send it; PAYLOAD_SRC stays. -/
theorem Dev.container_sends (u : TxUnit) (ais : Bool) (o : PtrOut) :
    ∃ c p j l, (s.container t u ais o).chip = Chip.emit c (.container t p j l)
      ∧ (c.ctx t).src = (s.chip.ctx t).src := by
  unfold Dev.container
  extract_lets d e ty x n thru from_ uneq r per label
  split
  rename_i es s1 hs
  have h1 : (s1.chip.ctx t).src = (s.chip.ctx t).src := by
    have hf (q : Run') := Dev.src_frameEdits s t e q
    clear_value r
    grind
  split
  extract_lets b body
  split
  rename_i srcUnit d0 h0
  have h2 : (d0.ctx t).src = (s1.chip.ctx t).src := by
    have hf (q : Nat) := Chip.src_takeUnit s1.chip t t q
    clear_value from_
    grind
  split
  rename_i tti d1 htti
  have h3 : (d1.ctx t).src = (d0.ctx t).src := by
    have hf (k mf : Nat) : ((d0.ttiSend k mf).2.ctx t).src = (d0.ctx t).src := rfl
    have hg (w : Nat) : ((d0.fresh w).2.ctx t).src = (d0.ctx t).src := rfl
    grind
  split
  rename_i free d2 hfree
  have h4 : (d2.ctx t).src = (d1.ctx t).src := by
    rw [← show (d1.fresh 88).2 = d2 from congrArg Prod.snd hfree]
    rfl
  extract_lets app c place l bip d3 d4 d5
  have h5 : (d3.ctx t).src = (d2.ctx t).src := Chip.src_setCtx d2 t rfl
  have h6 : d5.ctxs = d3.ctxs := by
    clear_value d3
    grind [Chip.setRun_ctxs, Chip.patEvent_ctxs]
  refine ⟨d5, _, _, _, rfl, ?_⟩
  calc (d5.ctx t).src = (d3.ctx t).src := Chip.src_congr d3 t h6
    _ = (s.chip.ctx t).src := by rw [h5, h4, h3, h2, h1]

/-! ### The period -/

/-- A pointer period sends a container, with PAYLOAD_SRC as it stands at the period's start. -/
theorem Dev.ptrStart_sends (u : TxUnit) (hen : s.chip.ctxEn t = true) (he : s.chip.engEn (s.chip.ctxOwner t) = true) :
    ∃ c p j l, (s.ptrStart t u).chip = Chip.emit c (.container t p j l)
      ∧ (c.ctx t).src = s.chip.rf (R.TRB_TX t) 1 0 := by
  unfold Dev.ptrStart
  extract_lets e s0 s1 ais
  rw [if_neg (by simp [hen, he, e])]
  have h0 : (s0.chip.ctx t).src = s.chip.rf (R.TRB_TX t) 1 0 := congrArg Ctx.src (Chip.ctx_setCtx_same s.chip t _)
  have h1 : (s1.chip.ctx t).src = (s0.chip.ctx t).src := Chip.src_congr s0.chip t (Dev.frameEnd_ctxs s0 e _ _)
  split
  rename_i o d hd
  have hd : (d.ctx t).src = (s1.chip.ctx t).src := by
    have hjc := Chip.src_jcPeriod s1.chip t t u.units
    have hptr := Chip.src_ptrPeriod s1.chip t t u.units ais
    split at hd
    · rwa [hd] at hjc
    · rwa [hd] at hptr
  obtain ⟨c, p, j, l, hsend, hc⟩ := Dev.container_sends ⟨d, s1.mem⟩ t u ais o
  exact ⟨c, p, j, l, hsend, hc.trans (hd.trans (h1.trans h0))⟩

theorem Dev.ptrStart_off (u : TxUnit) (h : s.chip.ctxEn t = false ∨ s.chip.engEn (s.chip.ctxOwner t) = false) :
    s.ptrStart t u = s :=
  if_pos (by simpa using h)

end PaySrc

/-! # Sequence programs (R112) -/

/-! ## What a write of MAP_CTRL asks -/

theorem mapCtrl_goWord {t : Nat} (ht : t < 16384) : fld (w32 (t + 2 ^ 14)) 13 0 = t
    ∧ bit (w32 (t + 2 ^ 14)) 14 = true ∧ bit (w32 (t + 2 ^ 14)) 15 = false := by
  simp only [bit_eq_fld, fld, w32, BitVec.toNat_ofNat, Nat.reducePow, Nat.reduceAdd, Nat.reduceSub, decide_eq_true_eq,
    decide_eq_false_iff_not]
  omega

theorem mapCtrl_stopWord {t : Nat} (ht : t < 16384) : fld (w32 (t + 2 ^ 15)) 13 0 = t
    ∧ bit (w32 (t + 2 ^ 15)) 14 = false ∧ bit (w32 (t + 2 ^ 15)) 15 = true := by
  simp only [bit_eq_fld, fld, w32, BitVec.toNat_ofNat, Nat.reducePow, Nat.reduceAdd, Nat.reduceSub, decide_eq_true_eq,
    decide_eq_false_iff_not]
  omega

theorem Chip.mapCtrl_go (d : Chip) (e : Nat) {t : Nat} (ht : t < 16384) :
    d.mapCtrl e (w32 (t + 2 ^ 14)) = d.seqGo e t := by
  obtain ⟨hctx, hgo, hstop⟩ := mapCtrl_goWord ht
  simp only [Chip.mapCtrl, hctx, hgo, hstop, if_true, Bool.false_eq_true, if_false]

theorem Chip.mapCtrl_stop (d : Chip) (e : Nat) {t : Nat} (ht : t < 16384) :
    d.mapCtrl e (w32 (t + 2 ^ 15)) = d.seqStop e t := by
  obtain ⟨hctx, hgo, hstop⟩ := mapCtrl_stopWord ht
  simp only [Chip.mapCtrl, hctx, hgo, hstop, if_true, Bool.false_eq_true, if_false]

section Sequence

variable {d : Chip} {e t : Nat}

theorem Chip.seqGo_starts (hen : d.ctxEn t = true) (ho : d.ctxOwner t = e) (hm : d.rf (R.TRB_TX t) 3 2 = 2) :
    d.seqGo e t = d.setCtx t { d.ctx t with seq := some ⟨0, 0, d.seqWait t 0 + 1, false⟩ } :=
  if_pos ⟨hen, ho, hm⟩

theorem Chip.seqGo_refused (h : d.ctxEn t = false ∨ d.ctxOwner t ≠ e ∨ d.rf (R.TRB_TX t) 3 2 ≠ 2) :
    d.seqGo e t = d.flag (R.MAP_EVENT e) 0 :=
  if_neg fun ⟨hen, ho, hm⟩ => h.elim (by simp [hen]) (Or.elim · (· ho) (· hm))

theorem Chip.seqStop_running {z : SeqRun} (ho : d.ctxOwner t = e) (hz : (d.ctx t).seq = some z) :
    d.seqStop e t = d.setCtx t { d.ctx t with seq := some { z with stop := true } } := by
  simp only [Chip.seqStop, hz]
  exact if_pos ho

theorem Chip.seqStop_idle (h : d.ctxOwner t ≠ e ∨ (d.ctx t).seq = none) : d.seqStop e t = d := by
  unfold Chip.seqStop
  extract_lets x
  split
  · next z hz => exact if_neg (h.resolve_right (by simp [show (d.ctx t).seq = some z from hz]))
  · rfl

end Sequence

/-! ## The commands -/

theorem exec_seqGo (sess e : Nat) {t : Nat} (ht : t < 16384) (s : State) : exec (.seqGo sess e t) s
    = command (engineOk e) false (fun x => x.hostWrite sess (R.MAP_CTRL e) (w32 (t + 2 ^ 14))) s :=
  (congrArg (fun n => command (engineOk e) false (fun x => x.hostWrite sess (R.MAP_CTRL e) (w32 (n + 2 ^ 14))) s)
    (Nat.mod_eq_of_lt ht) :)

theorem exec_seqStop (sess e : Nat) {t : Nat} (ht : t < 16384) (s : State) : exec (.seqStop sess e t) s
    = command (engineOk e) false (fun x => x.hostWrite sess (R.MAP_CTRL e) (w32 (t + 2 ^ 15))) s :=
  (congrArg (fun n => command (engineOk e) false (fun x => x.hostWrite sess (R.MAP_CTRL e) (w32 (n + 2 ^ 15))) s)
    (Nat.mod_eq_of_lt ht) :)

theorem exec_pointerPeriodStart (t : Nat) (u : TxUnit) (s : State) :
    exec (.pointerPeriodStart t u) s = command (contextOk t) false (fun x => x.ptrStart t u) s := rfl

theorem Chip.mirror_ctxs (d : Chip) (e : Nat) : (d.mirror e).ctxs = d.ctxs :=
  Chip.mirror_keeps d Chip.ctxs (fun _ _ _ _ => rfl) e

/-- From `x` to `y` context `t` becomes `c` and nothing else changes. -/
def Dev.ctxSet (x y : Dev) (t : Nat) (c : Ctx) : Prop :=
  y.chip.ctx t = c ∧ (∀ u, u ≠ t → y.chip.ctx u = x.chip.ctx u) ∧ x.only y (fun d => { d with ctxs := y.chip.ctxs })

theorem Dev.ctxSet_mirror (x : Dev) (e t : Nat) (c : Ctx) (st : Status) :
    x.ctxSet ⟨((x.cleared.chip.setCtx t c).mirror e).answer st, x.mem⟩ t c := by
  have hm := Chip.mirror_ctxs (x.cleared.chip.setCtx t c) e
  refine ⟨(Chip.ctx_congr hm t).trans (Chip.ctx_setCtx_same _ t c),
    fun u hu => (Chip.ctx_congr hm u).trans (Chip.ctx_setCtx_other _ c hu),
    Dev.only_of_besides (fun _ _ => rfl) ((Chip.mirror_besides _ e x.chip).trans ?_) (x.sameMem_mk _)⟩
  exact congrArg (fun l : SMap Ctx => { x.chip with ctxs := l }) hm.symm

section Commands

variable (q : List Instr) {x : Dev} (hx : x.live)

include hx

/-- A command that writes MAP_CTRL is answered OK and leaves what SEQ_STOP and SEQ_GO leave. -/
theorem does_mapCtrl {i : Instr} {sess e : Nat} {w : Word} {c : Chip} {P : Dev → Prop} (he : e < 136)
    (hi : exec i ⟨q, x⟩ = command (engineOk e) false (fun y => y.hostWrite sess (R.MAP_CTRL e) w) ⟨q, x⟩)
    (ha : x.allows sess (R.MAP_CTRL e) w) (hb : x.chip.subBusy e = false) (hc : x.cleared.chip.mapCtrl e w = c)
    (hp : P ⟨(c.mirror e).answer .ok, x.mem⟩) : Does i ⟨q, x⟩ (fun y => y.answered .ok ∧ P y) := by
  subst hc
  exact does_hostWrite_eng (st := .ok) (c := x.cleared.chip.mapCtrl e w) q hx hi (decide_eq_true he) ha hb rfl rfl hp

section Programs

variable {sess e t : Nat} (ht : t < 16384) (he : e < 136) (hb : x.chip.subBusy e = false)

include ht he hb

theorem does_seqGo (ha : x.allows sess (R.MAP_CTRL e) (w32 (t + 2 ^ 14))) (hen : x.chip.ctxEn t = true)
    (ho : x.chip.ctxOwner t = e) (hm : x.chip.rf (R.TRB_TX t) 3 2 = 2) :
    Does (.seqGo sess e t) ⟨q, x⟩ (fun y => y.answered .ok
      ∧ x.ctxSet y t { x.chip.ctx t with seq := some ⟨0, 0, x.chip.seqWait t 0 + 1, false⟩ }) :=
  does_mapCtrl q hx he (exec_seqGo sess e ht ⟨q, x⟩) ha hb
    ((Chip.mapCtrl_go _ e ht).trans (Chip.seqGo_starts (d := x.cleared.chip) hen ho hm)) (x.ctxSet_mirror e t _ .ok)

theorem does_seqGo_refused (ha : x.allows sess (R.MAP_CTRL e) (w32 (t + 2 ^ 14)))
    (h : x.chip.ctxEn t = false ∨ x.chip.ctxOwner t ≠ e ∨ x.chip.rf (R.TRB_TX t) 3 2 ≠ 2) :
    Does (.seqGo sess e t) ⟨q, x⟩ (fun y => y.answered .ok ∧ x.only y ∧ y.chip.rb (R.MAP_EVENT e) 0 = true) := by
  refine does_mapCtrl q hx he (exec_seqGo sess e ht ⟨q, x⟩) ha hb
    ((Chip.mapCtrl_go _ e ht).trans (Chip.seqGo_refused (d := x.cleared.chip) h)) ⟨?_, ?_⟩
  · exact Dev.only_of_besides (f := id) (fun _ _ => rfl) (Chip.mirror_besides _ e x.chip) (x.sameMem_mk _)
  · exact (congrArg (bit · 0) (Chip.rd_mirror_eng _ e (by decide))).trans
      (Chip.rb_flag_same x.cleared.chip (R.MAP_EVENT e) 0 (by decide))

theorem does_seqStop (ha : x.allows sess (R.MAP_CTRL e) (w32 (t + 2 ^ 15))) {z : SeqRun} (ho : x.chip.ctxOwner t = e)
    (hz : (x.chip.ctx t).seq = some z) :
    Does (.seqStop sess e t) ⟨q, x⟩ (fun y => y.answered .ok
      ∧ x.ctxSet y t { x.chip.ctx t with seq := some { z with stop := true } }) :=
  does_mapCtrl q hx he (exec_seqStop sess e ht ⟨q, x⟩) ha hb
    ((Chip.mapCtrl_stop _ e ht).trans (Chip.seqStop_running (d := x.cleared.chip) ho hz)) (x.ctxSet_mirror e t _ .ok)

theorem does_seqStop_idle (ha : x.allows sess (R.MAP_CTRL e) (w32 (t + 2 ^ 15)))
    (h : x.chip.ctxOwner t ≠ e ∨ (x.chip.ctx t).seq = none) :
    Does (.seqStop sess e t) ⟨q, x⟩ (fun y => y.answered .ok ∧ x.only y) :=
  does_mapCtrl q hx he (exec_seqStop sess e ht ⟨q, x⟩) ha hb
    ((Chip.mapCtrl_stop _ e ht).trans (Chip.seqStop_idle (d := x.cleared.chip) h))
    (Dev.only_of_besides (f := id) (fun _ _ => rfl) (Chip.mirror_besides _ e x.chip) (x.sameMem_mk _))

end Programs

theorem does_pointerPeriodStart {t : Nat} (ht : t < 16384) (u : TxUnit) (hen : x.chip.ctxEn t = true)
    (he : x.chip.engEn (x.chip.ctxOwner t) = true) :
    Does (.pointerPeriodStart t u) ⟨q, x⟩ (fun y => (∃ p j l, Out.container t p j l ∈ y.chip.out)
      ∧ (y.chip.ctx t).src = x.chip.rf (R.TRB_TX t) 1 0) := by
  obtain ⟨c, p, j, l, hsend, hsrc⟩ := Dev.ptrStart_sends x.cleared t u hen he
  refine does_of_command (exec_pointerPeriodStart t u ⟨q, x⟩) (decide_eq_true ht) hx ?_
  rw [hsend]
  exact ⟨⟨p, j, l, List.mem_append_right _ (List.mem_singleton_self _)⟩, hsrc⟩

end Commands

/-- Settles O19: MAP_CTRL's word asks for one of SEQ_GO and SEQ_STOP, the spares' copies that follow the write touch no
context, and between the start of a period and its container no unit touches PAYLOAD_SRC. -/
theorem pointerPrograms : Obligations.PointerPrograms := by
  intro q x t ht hx
  refine ⟨fun sess e he ha hb => ⟨fun hen ho hm => does_seqGo q hx ht he hb ha hen ho hm,
      fun h => does_seqGo_refused q hx ht he hb ha h⟩,
    fun sess e he ha hb => ⟨fun z ho hz => does_seqStop q hx ht he hb ha ho hz,
      fun h => does_seqStop_idle q hx ht he hb ha h⟩,
    fun u hen he => does_pointerPeriodStart q hx ht u hen he, fun u h => ?_⟩
  exact does_same (exec_pointerPeriodStart t u ⟨q, x⟩) (decide_eq_true ht) hx (Dev.ptrStart_off x.cleared t u h)

end Sys2Proof.Machine
end

section
set_option Elab.async false
namespace Sys2Proof.Machine

/-! # What runs on behind a protection group or a defect -/

/-! ## Registers of engine windows -/

section Windows

variable (d : Chip) {i j o k n : Nat}

theorem Chip.rd_eng_eq_of_key (h : (RegId.mk .eng i o).key = (RegId.mk .eng j o).key) :
    d.rd ⟨.eng, i, o⟩ = d.rd ⟨.eng, j, o⟩ :=
  Chip.rd_eq_of_key d h rfl

/-- A write of one bit of an engine's register leaves the other bits of that register in every window. -/
theorem Chip.rb_sbit_eng_beside (b : Bool) (hk : k < 32) (hn : n ≠ k) :
    (d.sbit ⟨.eng, i, o⟩ k b).rb ⟨.eng, j, o⟩ n = d.rb ⟨.eng, j, o⟩ n := by
  by_cases h : (RegId.mk .eng j o).key = (RegId.mk .eng i o).key
  · unfold Chip.rb
    rw [Chip.rd_eng_eq_of_key _ h, Chip.rd_eng_eq_of_key _ h]
    exact Chip.rb_sbit_beside d b hk hn
  · exact Chip.rb_wr_other d _ n h

/-- A flag that is set stays set when a flag of that register is set in any window. -/
theorem Chip.rb_flag_eng_of_set (hk : k < 32) (h : d.rb ⟨.eng, j, o⟩ n = true) :
    (d.flag ⟨.eng, i, o⟩ k).rb ⟨.eng, j, o⟩ n = true := by
  by_cases hn : n = k
  · subst hn
    by_cases hij : (RegId.mk .eng j o).key = (RegId.mk .eng i o).key
    · unfold Chip.rb
      rw [Chip.rd_eng_eq_of_key _ hij]
      exact Chip.rb_flag_same d _ n hk
    · exact (Chip.rb_wr_other d _ n hij).trans h
  · exact (Chip.rb_sbit_eng_beside d true hk hn).trans h

end Windows

/-! ## Triggers, events and the capture tap -/

/-- The registers that capture writes when a trigger fires or an event goes to its streams. -/
def RegId.ofCapture (r : RegId) : Bool := r.blk == .eng && [0x098, 0x0A0, 0x0A4].contains (r.off % 2 ^ 12)

theorem RegId.ofCapture_congr {r q : RegId} (h : r.key = q.key) : r.ofCapture = q.ofCapture := by
  have hb : r.blk = q.blk := Blk.code_injective _ _ (by rw [← r.key_blk, ← q.key_blk, h])
  have ho : r.off % 2 ^ 12 = q.off % 2 ^ 12 := by rw [← r.key_off, ← q.key_off, h]
  rw [RegId.ofCapture, RegId.ofCapture, hb, ho]

/-- No firing of a trigger source and no event changes what `f` shows. -/
structure Chip.BlindToCapture {γ : Type} (f : Chip → γ) : Prop where
  wr : ∀ (d : Chip) (r : RegId) (w : Word), r.ofCapture = true → f (d.wr r w) = f d
  log : ∀ (d : Chip) (l : EvLog), f { d with log := l } = f d
  lines : ∀ (d : Chip) (l : List LineFire), f { d with lines := l } = f d
  setCap : ∀ (d : Chip) (k : Nat) (c : Cap), f (d.setCap k c) = f d
  setRgn : ∀ (d : Chip) (k : Nat) (c : Rgn), f (d.setRgn k c) = f d
  setComb : ∀ (d : Chip) (k : Nat) (c : Comb), f (d.setComb k c) = f d

/-- A run of steps that `f` does not see.  The argument `_K` lets `grind` find the lemma. -/
theorem Chip.BlindToCapture.foldl {γ β : Type} {f : Chip → γ} (_K : Chip.BlindToCapture f) {g : Chip → β → Chip}
    (h : ∀ d b, f (g d b) = f d) (l : List β) (d : Chip) : f (l.foldl g d) = f d :=
  foldl_keeps f g h l d

theorem Chip.blindToCapture_rd {r : RegId} (h : r.ofCapture = false) : Chip.BlindToCapture (fun d => d.rd r) :=
  ⟨fun d q w hq => Chip.rd_wr_other d w (fun hk => by simp [RegId.ofCapture_congr hk, hq] at h), fun _ _ => rfl,
    fun _ _ => rfl, fun _ _ _ => rfl, fun _ _ _ => rfl, fun _ _ _ => rfl⟩

theorem Chip.blindToCapture_groups : Chip.BlindToCapture Chip.groups :=
  ⟨fun _ _ _ _ => rfl, fun _ _ => rfl, fun _ _ => rfl, fun _ _ _ => rfl, fun _ _ _ => rfl, fun _ _ _ => rfl⟩

namespace Chip.BlindToCapture

variable {γ : Type} {f : Chip → γ} (K : Chip.BlindToCapture f)

include K

theorem comp {δ : Type} (g : γ → δ) : Chip.BlindToCapture (fun d => g (f d)) :=
  ⟨fun d r w h => congrArg g (K.wr d r w h), fun d l => congrArg g (K.log d l), fun d l => congrArg g (K.lines d l),
    fun d k c => congrArg g (K.setCap d k c), fun d k c => congrArg g (K.setRgn d k c),
    fun d k c => congrArg g (K.setComb d k c)⟩

theorem prod {δ : Type} {g : Chip → δ} (L : Chip.BlindToCapture g) : Chip.BlindToCapture (fun d => (f d, g d)) :=
  ⟨fun d r w h => Prod.ext (K.wr d r w h) (L.wr d r w h), fun d l => Prod.ext (K.log d l) (L.log d l),
    fun d l => Prod.ext (K.lines d l) (L.lines d l), fun d k c => Prod.ext (K.setCap d k c) (L.setCap d k c),
    fun d k c => Prod.ext (K.setRgn d k c) (L.setRgn d k c), fun d k c => Prod.ext (K.setComb d k c) (L.setComb d k c)⟩

theorem tapWord (d : Chip) (e : Nat) (w : SWord) : f (d.tapWord e w) = f d :=
  Chip.tapWord_keeps f K.setCap (fun d _ _ _ => (K.wr _ _ _ rfl).trans (K.wr d _ _ rfl)) d e w

theorem evt (d : Chip) (src code ctx det ext : Nat) : f (d.evt src code ctx det ext) = f d :=
  Chip.evtAt_keeps f K.tapWord K.log d d.dt src code ctx det ext

theorem ev (d : Chip) (src code det : Nat) : f (d.ev src code det) = f d := K.evt d src code 0xFFFF det 0

theorem enqueue (d : Chip) (c : RCfg) (b : Bale) (marker : Bool) (last : Nat) :
    f (d.enqueue c b marker last) = f d := by
  grind [Chip.enqueue, setRgn]

theorem closeBale (d : Chip) (r : Nat) : f (d.closeBale r) = f d := by
  grind [Chip.closeBale, enqueue, setRgn]

theorem openWith (d : Chip) (r : Nat) (tent split : Bool) (l : List Byte) (tags : List OTag) :
    f (d.openWith r tent split l tags) = f d :=
  K.setRgn d r _

theorem markTrigger (d : Chip) (r k : Nat) (tent : Bool) : f (d.markTrigger r k tent) = f d := by
  grind [Chip.markTrigger, setRgn]

theorem fireRgn (d : Chip) (r t : Nat) (tent : Bool) : f (d.fireRgn r t tent) = f d := by
  have hlate (x : Chip) (e : Nat) : f (x.flag (R.CAP_EVENT e) 4) = f x := K.wr x _ _ rfl
  grind [Chip.fireRgn, setRgn, markTrigger, closeBale, openWith]

theorem fireRegions (d : Chip) (global : Bool) (sel cluster t : Nat) (tent : Bool) :
    f (d.fireRegions global sel cluster t tent) = f d := by
  grind [Chip.fireRegions, foldl, fireRgn]

theorem combFire (d : Chip) (cb t : Nat) (tent : Bool) : f (d.combFire cb t tent) = f d := by
  grind [Chip.combFire, fireRegions, evt, setComb, lines]

theorem combEval (d : Chip) (cb t : Nat) (tent : Bool) : f (d.combEval cb t tent).2 = f d := by
  grind [Chip.combEval, setComb, combFire]

theorem termEvent (d : Chip) (cb i t : Nat) (tent : Bool) : f (d.termEvent cb i t tent) = f d :=
  K.setComb d cb _

theorem raiseN (cluster n : Nat) (d : Chip) (i t : Nat) (tent : Bool) : f (d.raiseN cluster n i t tent) = f d := by
  induction n generalizing d i t tent with
  | zero => rfl
  | succ n ih =>
    unfold Chip.raiseN
    exact foldl_keeps f _ (fun x k => by grind [combEval, termEvent]) _ d

theorem raise (d : Chip) (cluster i t : Nat) (tent : Bool) : f (d.raise cluster i t tent) = f d :=
  K.raiseN cluster 8 d i t tent

theorem raiseEng (d : Chip) (e s t : Nat) (tent : Bool) : f (d.raiseEng e s t tent) = f d :=
  K.raise d _ _ t tent

theorem engLevels (d : Chip) (e t : Nat) : f (d.engLevels e t) = f d := by
  grind [Chip.engLevels, Chip.levels, foldl, combEval, raise]

theorem breakBale (d : Chip) (e sub : Nat) (resync : Bool) : f (d.breakBale e sub resync) = f d :=
  K.setCap d e _

end Chip.BlindToCapture

/-! ## A selector change (R153)

What a change of the selector does beside its marks goes to the capture tap, the trigger sources and the flags of the
deskew engine. -/

/-- No selector change is seen in `f` but by its marks. -/
structure Chip.BlindToSelector {γ : Type} (f : Chip → γ) : Prop extends Chip.BlindToCapture f where
  dskEvent : ∀ (d : Chip) (h : Nat) (w : Word), f (d.wr (R.DSK_EVENT h) w) = f d
  dskStatus : ∀ (d : Chip) (h : Nat) (w : Word), f (d.wr (R.DSK_STATUS h) w) = f d

/-- The marks of a selector change: the group as `g`, the count, the time and the event flag. -/
def Chip.switched (d : Chip) (h : Nat) (g : Group) : Chip :=
  (((d.setGroup h g).count (R.APS_SW_CNT h)).setPair (R.APS_SW_TIME_LO h) (R.APS_SW_TIME_HI h) d.dt).flag (R.APS_EVENT h) 0

theorem Chip.BlindToSelector.applySel {γ : Type} {f : Chip → γ} (K : Chip.BlindToSelector f) (d : Chip) (h tgt : Nat) :
    f (d.applySel h tgt) = f (d.switched h { d.group h with sel := tgt, next := none }) := by
  have hbit (x : Chip) (b : Bool) : f (x.sbit (R.DSK_STATUS h) 5 b) = f x := K.dskStatus x h _
  have hflag (x : Chip) : f (x.flag (R.DSK_EVENT h) 4) = f x := K.dskEvent x h _
  unfold Chip.applySel
  extract_lets g locked d1 d2 d3 d4 d5
  have h3 : f d3 = f d2 := (K.breakBale _ h 1 _).trans (K.ev d2 h _ _)
  have h4 : f d4 = f d3 := by
    unfold d4
    split
    · exact (K.ev _ h _ _).trans (hflag d3)
    · rfl
  have h5 : f d5 = f d4 := by
    unfold d5
    split
    · exact hbit d4 _
    · rfl
  exact (K.raiseEng d5 h 14 _ _).trans (h5.trans (h4.trans h3))

theorem Chip.blindToSelector_groups : Chip.BlindToSelector Chip.groups :=
  ⟨Chip.blindToCapture_groups, fun _ _ _ => rfl, fun _ _ _ => rfl⟩

theorem Chip.blindToSelector_rd {r : RegId} (h : r.ofCapture = false) (he : r.off % 2 ^ 12 ≠ 0x3C0)
    (hs : r.off % 2 ^ 12 ≠ 0x3BC) : Chip.BlindToSelector (fun d => d.rd r) :=
  ⟨Chip.blindToCapture_rd h, fun d _ w => Chip.rd_wr_other d w (RegId.key_ne_of_off he),
    fun d _ w => Chip.rd_wr_other d w (RegId.key_ne_of_off hs)⟩

@[simp] theorem Chip.group_setGroup_same (d : Chip) (h : Nat) (g : Group) : (d.setGroup h g).group h = g :=
  SMap.get_put_same _ _ _ _

theorem Chip.group_setGroup_other (d : Chip) {h k : Nat} (g : Group) (hk : k ≠ h) : (d.setGroup h g).group k = d.group k :=
  SMap.get_put_other _ _ _ _ hk

theorem Chip.group_congr {d e : Chip} (h : d.groups = e.groups) (k : Nat) : d.group k = e.group k :=
  congrArg (SMap.get Group.init · k) h

/-- What no register shows, a selector change alters in the group alone. -/
theorem Chip.switched_keeps {γ : Type} {f : Chip → γ} (hw : ∀ (d : Chip) (r : RegId) (w : Word), f (d.wr r w) = f d)
    (d : Chip) (h : Nat) (g : Group) : f (d.switched h g) = f (d.setGroup h g) :=
  (hw _ _ _).trans ((hw _ _ _).trans ((hw _ _ _).trans (hw _ _ _)))

theorem Chip.group_applySel (d : Chip) (h tgt : Nat) :
    (d.applySel h tgt).group h = { d.group h with sel := tgt, next := none } :=
  (Chip.group_congr (Chip.blindToSelector_groups.applySel d h tgt) h).trans
    ((Chip.group_congr (Chip.switched_keeps (f := Chip.groups) (fun _ _ _ => rfl) d h _) h).trans
      (Chip.group_setGroup_same d h _))

theorem Chip.switched_rd (d : Chip) (h : Nat) (g : Group) {r : RegId} (hc : r.off % 2 ^ 12 ≠ 0x398)
    (hl : r.off % 2 ^ 12 ≠ 0x39C) (hh : r.off % 2 ^ 12 ≠ 0x3A0) (he : r.off % 2 ^ 12 ≠ 0x390) :
    (d.switched h g).rd r = d.rd r :=
  (Chip.rd_flag_other _ 0 (RegId.key_ne_of_off he)).trans
    ((Chip.rd_wr_other _ _ (RegId.key_ne_of_off hh)).trans
      ((Chip.rd_wr_other _ _ (RegId.key_ne_of_off hl)).trans (Chip.rd_count_other _ 1 (RegId.key_ne_of_off hc))))

/-! ## What the protection controller leaves alone -/

/-- Nothing that the protection controller decides changes what `f` shows. -/
structure Chip.BlindToProtection {γ : Type} (f : Chip → γ) : Prop extends Chip.BlindToSelector f where
  setGroup : ∀ (d : Chip) (h : Nat) (g : Group), f (d.setGroup h g) = f d
  switched : ∀ (d : Chip) (h : Nat) (g : Group), f (d.switched h g) = f d

/-- The registers that a selector change writes. -/
def RegId.ofSwitching (r : RegId) : Bool := [0x390, 0x398, 0x39C, 0x3A0, 0x3BC, 0x3C0].contains (r.off % 2 ^ 12)

theorem Chip.blindToProtection_rd {r : RegId} (h : r.ofCapture = false) (hs : r.ofSwitching = false) :
    Chip.BlindToProtection (fun d => d.rd r) := by
  simp only [RegId.ofSwitching, List.contains_cons, List.contains_nil, Bool.or_false, Bool.or_eq_false_iff,
    beq_eq_false_iff_ne] at hs
  obtain ⟨he, hc, hl, hh, hds, hde⟩ := hs
  exact ⟨Chip.blindToSelector_rd h hde hds, fun _ _ _ => rfl, fun d k g => Chip.switched_rd d k g hc hl hh he⟩

theorem Chip.blindToProtection_event (e : Nat) {n : Nat} (hn : n ≠ 0) :
    Chip.BlindToProtection (fun d => d.rb (R.APS_EVENT e) n) := by
  refine ⟨⟨(Chip.blindToCapture_rd rfl).comp (bit · n), fun d _ w => ?_, fun d _ w => ?_⟩, fun _ _ _ => rfl, fun d h g => ?_⟩
  · exact Chip.rb_wr_other d w n (RegId.key_ne_of_offs (by decide))
  · exact Chip.rb_wr_other d w n (RegId.key_ne_of_offs (by decide))
  · refine (Chip.rb_sbit_eng_beside _ true (by decide) hn).trans ?_
    exact (Chip.rb_wr_other _ _ n (RegId.key_ne_of_offs (by decide))).trans
      ((Chip.rb_wr_other _ _ n (RegId.key_ne_of_offs (by decide))).trans
        (Chip.rb_wr_other _ _ n (RegId.key_ne_of_offs (by decide))))

theorem Chip.blindToProtection_tdm : Chip.BlindToProtection Chip.tdm :=
  ⟨⟨⟨fun _ _ _ _ => rfl, fun _ _ => rfl, fun _ _ => rfl, fun _ _ _ => rfl, fun _ _ _ => rfl, fun _ _ _ => rfl⟩,
    fun _ _ _ => rfl, fun _ _ _ => rfl⟩, fun _ _ _ => rfl,
    fun d h g => Chip.switched_keeps (f := Chip.tdm) (fun _ _ _ => rfl) d h g⟩

namespace Chip.BlindToProtection

variable {γ : Type} {f : Chip → γ} (K : Chip.BlindToProtection f)

include K

theorem applySel (d : Chip) (h tgt : Nat) : f (d.applySel h tgt) = f d :=
  (K.toBlindToSelector.applySel d h tgt).trans (K.switched d h _)

theorem setSel (d : Chip) (h tgt : Nat) : f (d.setSel h tgt) = f d := by
  grind [Chip.setSel, setGroup, applySel]

theorem apsPass (d : Chip) (h : Nat) : f (d.apsPass h).2.2 = f d := by
  grind [Chip.apsPass, setGroup]

theorem apsPasses (h n : Nat) (d : Chip) : f (d.apsPasses h n).2 = f d := by
  induction n generalizing d with
  | zero => rfl
  | succ n ih => grind [Chip.apsPasses, apsPass]

theorem apsEval (d : Chip) (h : Nat) : f (d.apsEval h) = f d := by
  grind [Chip.apsEval, setGroup, apsPasses, setSel]

theorem apsInputs (d : Chip) (h : Nat) : f (d.apsInputs h) = f d := by
  grind [Chip.apsInputs, setGroup, apsEval]

theorem apsEngine (d : Chip) (e : Nat) : f (d.apsEngine e) = f d := by
  have hfold (l : List Nat) : f (l.foldl (fun x h => x.apsInputs h) d) = f d := foldl_keeps f _ K.apsInputs l d
  exact hfold _

end Chip.BlindToProtection

/-! ## What the protection controller decides of a group -/

/-- A decision brings the group from `g` to `g'`: its inputs and what it received stay, and one that is not DISABLED
does not become so. -/
structure Group.Decides (g g' : Group) : Prop where
  sfUp : g'.sfUp = g.sfUp
  sdUp : g'.sdUp = g.sdUp
  holds : g'.holds = g.holds
  rx : g'.rx = g.rx
  mm : g'.mm = g.mm
  ever : g'.ever = g.ever
  st : g.st ≠ .disabled → g'.st ≠ .disabled

theorem Group.Decides.trans {a b c : Group} (h : a.Decides b) (k : b.Decides c) : a.Decides c :=
  ⟨k.sfUp.trans h.sfUp, k.sdUp.trans h.sdUp, k.holds.trans h.holds, k.rx.trans h.rx, k.mm.trans h.mm,
    k.ever.trans h.ever, fun hs => k.st (h.st hs)⟩

/-- A decision with which a stored command stays where `keep` holds. -/
def Group.Follows (keep : Prop) (g g' : Group) : Prop := g.Decides g' ∧ (keep → g'.cmd = g.cmd)

theorem Group.Follows.trans {a b c : Group} {p q : Prop} (h : a.Follows p b) (k : b.Follows q c) (hq : p → q) :
    a.Follows p c :=
  ⟨h.1.trans k.1, fun hp => (k.2 (hq hp)).trans (h.2 hp)⟩

/-- Nothing that a group sees outranks a manual switch that it has stored (R144). -/
def Chip.manualStands (d : Chip) (h : Nat) : Prop :=
  ∀ c, (d.group h).cmd = some ⟨.ms, c⟩ → ∀ r ∈ d.apsLocal h ++ (d.apsRxReq h).toList, PReq.ms.rank ≤ r.req.rank

theorem nextSt_ne_disabled {g : Group} (rev : Bool) (top : ReqCh) (loc : Bool) (h : g.st ≠ .disabled) :
    (nextSt g rev top loc).1 ≠ .disabled := by
  unfold nextSt
  grind

theorem rank_le_topOf {n : Nat} (hn : n ≤ 13) {l : List ReqCh} (h : ∀ r ∈ l, n ≤ r.req.rank) : n ≤ (topOf l).req.rank := by
  suffices hs : ∀ a : ReqCh, n ≤ a.req.rank → n ≤ (l.foldl (fun a b => if b.above a then b else a) a).req.rank from hs _ hn
  induction l with
  | nil => exact fun a ha => ha
  | cons b l ih =>
    refine fun a ha => ih (fun r hr => h r (List.mem_cons_of_mem _ hr)) _ ?_
    dsimp only
    split
    · exact h b List.mem_cons_self
    · exact ha

theorem rank_le_otnRank (otn : Bool) (loc : ReqCh) {rx : ReqCh} (h : PReq.ms.rank ≤ rx.req.rank) :
    PReq.ms.rank ≤ (otnRank otn loc rx).req.rank := by
  unfold otnRank
  split
  · split
    · next hr _ => rw [hr] at h; exact absurd h (by decide)
    · next hr _ => rw [hr] at h; exact absurd h (by decide)
    · exact h
  · exact h

section Decisions

variable (d : Chip) (h : Nat)

/-- The requests of a group after a decision are those before it, but for WTR and DNR. -/
theorem Chip.mem_apsLocal_setGroup {g : Group} (hd : (d.group h).Decides g) (hc : g.cmd = (d.group h).cmd) {r : ReqCh}
    (hr : r ∈ (d.setGroup h g).apsLocal h) : r ∈ d.apsLocal h ∨ PReq.ms.rank ≤ r.req.rank := by
  unfold Chip.apsLocal at hr ⊢
  rw [Chip.group_setGroup_same] at hr
  dsimp only at hr ⊢
  rw [hd.sfUp, hd.sdUp, hc] at hr
  simp only [List.mem_append] at hr ⊢
  obtain hr | hr := hr
  · exact .inl (.inl hr)
  · right
    split at hr
    · rw [List.mem_singleton.1 hr]
      exact (by decide : PReq.ms.rank ≤ PReq.wtr.rank)
    · rw [List.mem_singleton.1 hr]
      exact (by decide : PReq.ms.rank ≤ PReq.dnr.rank)
    · exact absurd hr List.not_mem_nil

theorem Chip.apsRxReq_setGroup {g : Group} (hd : (d.group h).Decides g) :
    (d.setGroup h g).apsRxReq h = d.apsRxReq h := by
  unfold Chip.apsRxReq Chip.apsRxDec
  rw [Chip.group_setGroup_same, hd.rx, hd.mm]
  rfl

theorem Chip.manualStands_setGroup {g : Group} (hd : (d.group h).Decides g) (hc : g.cmd = (d.group h).cmd)
    (hm : d.manualStands h) : (d.setGroup h g).manualStands h := by
  intro c hcmd r hr
  rw [Chip.group_setGroup_same, hc] at hcmd
  rw [Chip.apsRxReq_setGroup d h hd, List.mem_append] at hr
  obtain hr | hr := hr
  · obtain hr | hr := Chip.mem_apsLocal_setGroup d h hd hc hr
    · exact hm c hcmd r (List.mem_append_left _ hr)
    · exact hr
  · exact hm c hcmd r (List.mem_append_right _ hr)

/-- What a pass of the decision can do: remove a manual switch that something outranks, or move the state. -/
theorem Chip.apsPass_cases : ∃ g, (d.apsPass h).2.2 = d.setGroup h g ∧ (d.group h).Follows (d.manualStands h) g := by
  have hmove (g : Group) (rev loc : Bool) (top : ReqCh) (due : Option Nat) : g.Follows (d.manualStands h)
      { g with st := (nextSt g rev top loc).1, served := (nextSt g rev top loc).2, wtrDue := due } :=
    ⟨⟨rfl, rfl, rfl, rfl, rfl, rfl, nextSt_ne_disabled rev top loc⟩, fun _ => rfl⟩
  unfold Chip.apsPass
  extract_lets g loc
  split
  next top isLoc htop =>
  split
  · next c hcmd =>
    split
    · next hlt =>
      refine ⟨_, rfl, ⟨rfl, rfl, rfl, rfl, rfl, rfl, id⟩, fun hm => absurd hlt (Nat.not_lt.2 ?_)⟩
      have hall := hm c hcmd
      have hloc : PReq.ms.rank ≤ loc.req.rank :=
        rank_le_topOf (by decide) (fun r hr => hall r (List.mem_append_left _ hr))
      have hrx (r : ReqCh) (hr : d.apsRxReq h = some r) : PReq.ms.rank ≤ r.req.rank :=
        hall r (List.mem_append_right _ (by simp [hr]))
      grind [rank_le_otnRank]
    · exact ⟨_, rfl, hmove _ _ _ _ _⟩
  · exact ⟨_, rfl, hmove _ _ _ _ _⟩

theorem Chip.group_apsPass : (d.group h).Follows (d.manualStands h) ((d.apsPass h).2.2.group h) := by
  obtain ⟨g, hg, hf⟩ := Chip.apsPass_cases d h
  rw [hg, Chip.group_setGroup_same]
  exact hf

theorem Chip.manualStands_apsPass (hm : d.manualStands h) : (d.apsPass h).2.2.manualStands h := by
  obtain ⟨g, hg, hf⟩ := Chip.apsPass_cases d h
  rw [hg]
  exact Chip.manualStands_setGroup d h hf.1 (hf.2 hm) hm

theorem Chip.group_apsPasses (n : Nat) : (d.group h).Follows (d.manualStands h) ((d.apsPasses h n).2.group h) := by
  induction n generalizing d with
  | zero => exact ⟨⟨rfl, rfl, rfl, rfl, rfl, rfl, id⟩, fun _ => rfl⟩
  | succ n ih =>
    have hp := Chip.group_apsPass d h
    have hm := Chip.manualStands_apsPass d h
    unfold Chip.apsPasses
    split
    · next d' heq =>
      rw [heq] at hp hm
      split
      · exact hp
      · exact hp.trans (ih d') hm
    · next heq =>
      rw [heq] at hp
      exact hp

theorem Chip.group_setSel (tgt : Nat) :
    ∃ sel next, (d.setSel h tgt).group h = { d.group h with sel := sel, next := next }
      ∧ (sel = tgt ∨ (sel = (d.group h).sel ∧ next = some tgt)) := by
  unfold Chip.setSel
  extract_lets g stream locked
  split
  · next he => exact ⟨g.sel, none, Chip.group_setGroup_same d h _, .inl he.symm⟩
  · split
    · exact ⟨g.sel, some tgt, Chip.group_setGroup_same d h _, .inr ⟨rfl, rfl⟩⟩
    · exact ⟨tgt, none, Chip.group_applySel d h tgt, .inl rfl⟩

theorem Chip.group_apsEval : (d.group h).Follows (d.manualStands h) ((d.apsEval h).group h) := by
  unfold Chip.apsEval
  split
  · exact ⟨⟨rfl, rfl, rfl, rfl, rfl, rfl, id⟩, fun _ => rfl⟩
  · have hp := Chip.group_apsPasses d h 4
    split
    next top d1 heq =>
    rw [heq] at hp
    extract_lets g loc tx bridged d2 differs g2 d3
    have h3 : (d1.group h).Follows True (d3.group h) := by
      unfold d3 g2 d2
      rw [Chip.group_setGroup_same, Chip.group_setGroup_same]
      exact ⟨⟨rfl, rfl, rfl, rfl, rfl, rfl, id⟩, fun _ => rfl⟩
    have hd := hp.trans h3 (fun _ => trivial)
    split
    · exact hd
    · obtain ⟨sel, next, he, -⟩ := Chip.group_setSel d3 h (d3.apsTarget h top)
      rw [he]
      exact hd.trans (q := True) ⟨⟨rfl, rfl, rfl, rfl, rfl, rfl, id⟩, fun _ => rfl⟩ (fun _ => trivial)

end Decisions

/-! ## The answer to a write of an engine window -/

section Answers

variable (z : Chip) (st : Status) {h : Nat}

theorem Chip.group_mirror_answer (k : Nat) : ((z.mirror h).answer st).group k = z.group k :=
  Chip.group_congr (Chip.mirror_keeps z Chip.groups (fun _ _ _ _ => rfl) h) k

theorem Chip.rd_mirror_answer {o : Nat} (ho : o < 2 ^ 12) : ((z.mirror h).answer st).rd ⟨.eng, h, o⟩ = z.rd ⟨.eng, h, o⟩ :=
  (Chip.rd_answer (z.mirror h) st _).trans (Chip.rd_mirror_eng z h ho)

theorem Chip.rb_mirror_answer {o : Nat} (i : Nat) (ho : o < 2 ^ 12) :
    ((z.mirror h).answer st).rb ⟨.eng, h, o⟩ i = z.rb ⟨.eng, h, o⟩ i :=
  congrArg (bit · i) (Chip.rd_mirror_answer z st ho)

theorem Chip.answer_besides (y : Chip) : (z.answer st).besides y = z.besides y := rfl

theorem Chip.mirror_answer_besides (y : Chip) : ((z.mirror h).answer st).besides y = z.besides y :=
  (Chip.answer_besides (z.mirror h) st y).trans (Chip.mirror_besides z h y)

end Answers

/-- What a command leaves of the chip is what it was, but for what any command may touch. -/
theorem Dev.only_of_eq {x : Dev} {c : Chip} (hc : c.besides x.chip = x.cleared.chip.besides x.chip) : x.only ⟨c, x.mem⟩ :=
  Dev.only_of_besides (f := id) (fun _ _ => rfl) hc (x.sameMem_mk _)

end Sys2Proof.Machine
end

section
set_option Elab.async false

/-! # External commands of a protection group (R144) -/

namespace Sys2Proof.Machine

/-! ## What the controller accepts -/

/-- The requests that a group sees: its own and the received one. -/
def Chip.apsAsked (d : Chip) (h : Nat) : List ReqCh := d.apsLocal h ++ (d.apsRxReq h).toList

/-- A group that is not DISABLED accepts the command `cmd` for the channel. -/
def Chip.apsAccepts (d : Chip) (h chan : Nat) : Nat → Prop
  | 0 | 1 => True
  | 2 => (1 ≤ chan ∧ chan ≤ d.apsN h) ∧ ¬ ∃ r ∈ d.apsAsked h, r.req = .lo ∨ r.req = .sfP
  | 3 => (1 ≤ chan ∧ chan ≤ d.apsN h) ∧ PReq.ms.rank < (topOf (d.apsAsked h)).req.rank
  | 4 => (1 ≤ chan ∧ chan ≤ d.apsN h) ∧ PReq.exer.rank < (topOf (d.apsAsked h)).req.rank
  | _ => False

section Accepting

variable (d : Chip) (h chan : Nat)

/-- A command is accepted or refused, by its code. -/
theorem Chip.apsCommand_cases (cmd : Nat) :
    (((d.group h).st ≠ .disabled ∧ d.apsAccepts h chan cmd)
      ∧ d.apsCommand h cmd chan = (.ok, (d.setGroup h { d.group h with cmd := apsCmdReq cmd chan }).apsEval h))
    ∨ (¬ ((d.group h).st ≠ .disabled ∧ d.apsAccepts h chan cmd)
      ∧ d.apsCommand h cmd chan = (.notPermitted, d.flag (R.APS_EVENT h) 1)) := by
  unfold Chip.apsCommand
  extract_lets g loc rx top lim blocked ok
  have hall : loc ++ rx = d.apsAsked h := by
    unfold rx Chip.apsAsked
    cases d.apsRxReq h <;> rfl
  have htop : top = topOf (d.apsAsked h) := congrArg topOf hall
  have hblk : blocked = (d.apsAsked h).any (fun r => decide (r.req = .lo ∨ r.req = .sfP)) := congrArg (List.any · _) hall
  have hok : ok = true ↔ (d.group h).st ≠ .disabled ∧ d.apsAccepts h chan cmd := by
    refine (Bool.and_eq_true_iff.trans (and_congr decide_eq_true_iff ?_))
    match cmd with
    | 0 => exact iff_of_true rfl trivial
    | 1 => exact iff_of_true rfl trivial
    | 2 => simp [Chip.apsAccepts, lim, hblk]
    | 3 => simp [Chip.apsAccepts, lim, htop]
    | 4 => simp [Chip.apsAccepts, lim, htop]
    | _ + 5 => exact iff_of_false (by simp) id
  split
  · next h => exact .inl ⟨hok.1 h, rfl⟩
  · next h => exact .inr ⟨fun ha => h (hok.2 ha), rfl⟩

theorem Chip.apsCommand_accepted {cmd : Nat} (hst : (d.group h).st ≠ .disabled) (ha : d.apsAccepts h chan cmd) :
    d.apsCommand h cmd chan = (.ok, (d.setGroup h { d.group h with cmd := apsCmdReq cmd chan }).apsEval h) :=
  ((Chip.apsCommand_cases d h chan cmd).resolve_right fun hn => hn.1 ⟨hst, ha⟩).2

theorem Chip.apsCommand_refused {cmd : Nat} (hr : (d.group h).st = .disabled ∨ ¬ d.apsAccepts h chan cmd) :
    d.apsCommand h cmd chan = (.notPermitted, d.flag (R.APS_EVENT h) 1) :=
  ((Chip.apsCommand_cases d h chan cmd).resolve_left fun hy => hr.elim hy.1.1 (· hy.1.2)).2

end Accepting

theorem topOf_rank_le {l : List ReqCh} {r : ReqCh} (hr : r ∈ l) : (topOf l).req.rank ≤ r.req.rank := by
  have hstep (a b : ReqCh) : (if b.above a = true then b else a).req.rank ≤ a.req.rank
      ∧ (if b.above a = true then b else a).req.rank ≤ b.req.rank := by
    unfold ReqCh.above
    grind
  have hfold (l : List ReqCh) (a : ReqCh) : (l.foldl (fun a b : ReqCh => if b.above a then b else a) a).req.rank ≤ a.req.rank := by
    induction l generalizing a with
    | nil => exact le_rfl
    | cons b l ih => exact (ih _).trans (hstep a b).1
  suffices hs : ∀ a : ReqCh, (l.foldl (fun a b => if b.above a then b else a) a).req.rank ≤ r.req.rank from hs _
  induction l with
  | nil => exact absurd hr List.not_mem_nil
  | cons b l ih =>
    intro a
    obtain rfl | hr := List.mem_cons.1 hr
    · exact (hfold l _).trans (hstep a r).2
    · exact ih hr _

section Commands

variable {d : Chip} {h chan c : Nat}

/-- A manual switch that is stored when its rank is above the top request is outranked by nothing. -/
theorem Chip.manualStands_manual (htop : PReq.ms.rank < (topOf (d.apsAsked h)).req.rank) :
    (d.setGroup h { d.group h with cmd := some ⟨.ms, chan⟩ }).manualStands h := by
  have hold (r : ReqCh) (hr : r ∈ d.apsAsked h) : PReq.ms.rank ≤ r.req.rank := (htop.trans_le (topOf_rank_le hr)).le
  have hd : (d.group h).Decides { d.group h with cmd := some ⟨.ms, chan⟩ } := ⟨rfl, rfl, rfl, rfl, rfl, rfl, id⟩
  intro _ _ r hr
  rw [Chip.apsRxReq_setGroup d h hd, List.mem_append] at hr
  obtain hr | hr := hr
  · unfold Chip.apsLocal at hr
    rw [Chip.group_setGroup_same] at hr
    simp only [List.mem_append, or_assoc] at hr
    obtain hr | hr := hr
    · exact (congrArg (fun r : ReqCh => r.req.rank) (List.mem_singleton.1 hr)).ge
    · refine hold r (List.mem_append_left _ ?_)
      unfold Chip.apsLocal
      simp only [List.mem_append, or_assoc]
      exact .inr hr
  · exact hold r (List.mem_append_right _ hr)

theorem Chip.manualStands_stored (ha : d.apsAccepts h chan c) :
    (d.setGroup h { d.group h with cmd := apsCmdReq c chan }).manualStands h := by
  match c, ha with
  | 3, ⟨_, htop⟩ => exact Chip.manualStands_manual htop
  | 0, _ | 1, _ | 2, _ | 4, _ =>
    intro k hk
    rw [Chip.group_setGroup_same] at hk
    simp [apsCmdReq] at hk

theorem fld_apsCmdWord (hc : c < 5) (hn : chan < 16) : fld (apsCmdWord c chan) 3 0 = c ∧ fld (apsCmdWord c chan) 11 8 = chan := by
  have hw : (apsCmdWord c chan).toNat = c + chan * 2 ^ 8 := by
    unfold apsCmdWord w32
    rw [BitVec.toNat_ofNat]
    omega
  unfold fld
  rw [hw]
  omega

variable (q : List Instr) {x : Dev} {sess : Nat} {i : Instr} (hh : h < 136) (hn : chan < 16) (hc : c < 5) (hx : x.live)
  (hb : x.chip.subBusy h = false) (hw : x.allows sess (R.APS_CMD h) (apsCmdWord c chan))
  (hi : exec i ⟨q, x⟩ = command (engineOk h) false (fun y => y.hostWrite sess (R.APS_CMD h) (apsCmdWord c chan)) ⟨q, x⟩)

include hn hc in
theorem Dev.writeEng_apsCmd {st : Status} {e : Chip} (he : x.cleared.chip.apsCommand h c chan = (st, e)) :
    x.cleared.writeEng h (R.APS_CMD h) (x.cleared.chip.reach (R.APS_CMD h)) (apsCmdWord c chan) = (st, ⟨e, x.mem⟩) := by
  obtain ⟨h1, h2⟩ := fld_apsCmdWord hc hn
  have hf : x.cleared.chip.apsCommand h (fld (apsCmdWord c chan) 3 0) (fld (apsCmdWord c chan) 11 8) = (st, e) := by
    rw [h1, h2, he]
  exact congrArg (fun p : Status × Chip => (p.1, Dev.mk p.2 x.mem)) hf

include hh hn hc hx hb hw hi

theorem does_apsCmd_kept (hst : (x.chip.group h).st ≠ .disabled) (ha : x.chip.apsAccepts h chan c) :
    Does i ⟨q, x⟩ (fun y => y.answered .ok ∧ (y.chip.group h).cmd = apsCmdReq c chan ∧ x.sameMem y) := by
  refine does_hostWrite_eng q hx hi (decide_eq_true hh) hw hb rfl
    (Dev.writeEng_apsCmd hn hc (Chip.apsCommand_accepted x.cleared.chip h chan hst ha)) ⟨?_, x.sameMem_mk _⟩
  rw [if_pos rfl]
  set g := { x.cleared.chip.group h with cmd := apsCmdReq c chan }
  rw [Chip.group_mirror_answer]
  calc (((x.cleared.chip.setGroup h g).apsEval h).group h).cmd
    _ = ((x.cleared.chip.setGroup h g).group h).cmd :=
        (Chip.group_apsEval _ h).2 (Chip.manualStands_stored (d := x.cleared.chip) ha)
    _ = apsCmdReq c chan := congrArg Group.cmd (Chip.group_setGroup_same x.cleared.chip h g)

theorem does_apsCmd_refused (hr : (x.chip.group h).st = .disabled ∨ ¬ x.chip.apsAccepts h chan c) :
    Does i ⟨q, x⟩ (fun y => y.answered .notPermitted ∧ y.chip.rb (R.APS_EVENT h) 1 = true ∧ x.only y
      ∧ x.regsBut y [R.APS_EVENT h]) := by
  refine does_hostWrite_eng q hx hi (decide_eq_true hh) hw hb rfl
    (Dev.writeEng_apsCmd hn hc (Chip.apsCommand_refused x.cleared.chip h chan hr)) ⟨?_, ?_, fun r hr _ => ?_⟩
  · exact Chip.rb_flag_same x.cleared.chip (R.APS_EVENT h) 1 (by decide)
  · exact Dev.only_of_besides (f := id) (fun _ _ => rfl)
      (Chip.flag_answer_besides x.cleared.chip (R.APS_EVENT h) 1 .notPermitted x.chip) (x.sameMem_mk _)
  · exact Chip.rd_flag_other x.cleared.chip 1 (hr (R.APS_EVENT h) (by simp))

end Commands

theorem exec_lockout (sess h chan : Nat) (s : State) : exec (.lockout sess h chan) s
    = command (engineOk h) false (fun x => x.hostWrite sess (R.APS_CMD h) (apsCmdWord 1 chan)) s := rfl

theorem exec_forceSwitch (sess h chan : Nat) (s : State) : exec (.forceSwitch sess h chan) s
    = command (engineOk h) false (fun x => x.hostWrite sess (R.APS_CMD h) (apsCmdWord 2 chan)) s := rfl

theorem exec_manual (sess h chan : Nat) (s : State) : exec (.manual sess h chan) s
    = command (engineOk h) false (fun x => x.hostWrite sess (R.APS_CMD h) (apsCmdWord 3 chan)) s := rfl

theorem exec_exercise (sess h chan : Nat) (s : State) : exec (.exercise sess h chan) s
    = command (engineOk h) false (fun x => x.hostWrite sess (R.APS_CMD h) (apsCmdWord 4 chan)) s := rfl

theorem exec_clear (sess h chan : Nat) (s : State) : exec (.clear sess h chan) s
    = command (engineOk h) false (fun x => x.hostWrite sess (R.APS_CMD h) (apsCmdWord 0 chan)) s := rfl

/-- Settles O23: a group moves its stored command in deciding only when something outranks a manual switch, and a manual
switch is accepted only when nothing does. -/
theorem protectionCommands : Obligations.ProtectionCommands := by
  intro q x sess h chan hh hn hx hb hw
  extract_lets asked top kept turnedAway ours blocked
  have yes {c : Nat} {i : Instr} (hc : c < 5)
      (hi : exec i ⟨q, x⟩ = command (engineOk h) false (fun y => y.hostWrite sess (R.APS_CMD h) (apsCmdWord c chan)) ⟨q, x⟩)
      (hst : (x.chip.group h).st ≠ .disabled) (ha : x.chip.apsAccepts h chan c) : kept i (apsCmdReq c chan) :=
    does_apsCmd_kept q hh hn hc hx hb (hw c hc) hi hst ha
  have no {c : Nat} {i : Instr} (hc : c < 5)
      (hi : exec i ⟨q, x⟩ = command (engineOk h) false (fun y => y.hostWrite sess (R.APS_CMD h) (apsCmdWord c chan)) ⟨q, x⟩)
      (hr : (x.chip.group h).st = .disabled ∨ ¬ x.chip.apsAccepts h chan c) : turnedAway i :=
    does_apsCmd_refused q hh hn hc hx hb (hw c hc) hi hr
  have hlock := exec_lockout sess h chan ⟨q, x⟩
  have hclear := exec_clear sess h chan ⟨q, x⟩
  have hforce := exec_forceSwitch sess h chan ⟨q, x⟩
  have hman := exec_manual sess h chan ⟨q, x⟩
  have hexer := exec_exercise sess h chan ⟨q, x⟩
  refine ⟨fun hst => ⟨yes (by decide) hlock hst trivial, yes (by decide) hclear hst trivial, ?_, ?_, ?_, ?_, ?_, ?_⟩,
    fun hst i hi => ?_⟩
  · exact fun ho hbl => yes (by decide) hforce hst ⟨ho, hbl⟩
  · exact fun hor => no (by decide) hforce (.inr fun ⟨ho, hbl⟩ => hor.elim (· ho) hbl)
  · exact fun ho htop => yes (by decide) hman hst ⟨ho, htop⟩
  · exact fun hor => no (by decide) hman (.inr fun ⟨ho, htop⟩ => hor.elim (· ho) (Nat.not_le.2 htop))
  · exact fun ho htop => yes (by decide) hexer hst ⟨ho, htop⟩
  · exact fun hor => no (by decide) hexer (.inr fun ⟨ho, htop⟩ => hor.elim (· ho) (Nat.not_le.2 htop))
  · simp only [List.mem_cons, List.not_mem_nil, or_false] at hi
    obtain rfl | rfl | rfl | rfl | rfl := hi
    · exact no (by decide) hlock (.inl hst)
    · exact no (by decide) hclear (.inl hst)
    · exact no (by decide) hforce (.inl hst)
    · exact no (by decide) hman (.inl hst)
    · exact no (by decide) hexer (.inl hst)

end Sys2Proof.Machine
end

section
set_option Elab.async false

/-! # Timers of a protection group (R143, R145, R146, R153) -/

namespace Sys2Proof.Machine

section Timers

variable {d : Chip} {h c : Nat}

/-! ## Hold-off -/

/-- The group after the hold-off timers of a channel that have run out at `core` have raised their requests. -/
def Group.holdOut (g : Group) (core chan : Nat) : Group :=
  let due := g.holds.filter (fun t => t.chan = chan ∧ t.due ≤ core)
  { g with
    holds := g.holds.filter (fun t => ¬ (t.chan = chan ∧ t.due ≤ core))
    sfUp := g.sfUp ++ (due.filter (fun t => !t.sd)).map (·.chan)
    sdUp := g.sdUp ++ (due.filter (fun t => t.sd)).map (·.chan) }

theorem Group.holdOut_raises {g : Group} {core due : Nat} {sd : Bool} (hm : ⟨c, sd, due⟩ ∈ g.holds) (ht : due ≤ core) :
    c ∈ (if sd then (g.holdOut core c).sdUp else (g.holdOut core c).sfUp) := by
  cases sd
  · refine List.mem_append_right _ (List.mem_map.2 ⟨⟨c, false, due⟩, ?_, rfl⟩)
    simp [hm, ht]
  · refine List.mem_append_right _ (List.mem_map.2 ⟨⟨c, true, due⟩, ?_, rfl⟩)
    simp [hm, ht]

theorem Group.holdOut_holds {g : Group} {core : Nat} {t : HoldOff} (ht : t ∈ (g.holdOut core c).holds) (hc : t.chan = c) :
    core < t.due := by
  have hn := of_decide_eq_true (List.mem_filter.1 ht).2
  exact Nat.lt_of_not_le fun hle => hn ⟨hc, hle⟩

theorem Chip.holdExpire_due {due : Nat} {sd : Bool} (hf : d.apsFrozen h = false) (hm : ⟨c, sd, due⟩ ∈ (d.group h).holds)
    (ht : due ≤ d.core) : d.holdExpire h c = (d.setGroup h ((d.group h).holdOut d.core c)).apsEval h := by
  have hne : (List.filter (fun t : HoldOff => decide (t.chan = c ∧ t.due ≤ d.core)) (d.group h).holds).isEmpty = false :=
    List.isEmpty_eq_false_iff_exists_mem.2 ⟨_, List.mem_filter.2 ⟨hm, decide_eq_true ⟨rfl, ht⟩⟩⟩
  exact (if_neg (by simp [hf])).trans (if_neg (ne_true_of_eq_false hne))

theorem Chip.holdExpire_same
    (hn : d.apsFrozen h = true ∨ ∀ t ∈ (d.group h).holds, t.chan = c → d.core < t.due) : d.holdExpire h c = d := by
  obtain hf | hn := hn
  · exact if_pos hf
  · have he : List.filter (fun t : HoldOff => decide (t.chan = c ∧ t.due ≤ d.core)) (d.group h).holds = [] :=
      List.filter_eq_nil_iff.2 fun t ht hd =>
        absurd (of_decide_eq_true hd).2 (Nat.not_le.2 (hn t ht (of_decide_eq_true hd).1))
    unfold Chip.holdExpire
    split
    · rfl
    · exact if_pos (List.isEmpty_iff.2 he)

theorem Chip.group_holdExpire {due : Nat} {sd : Bool} (hf : d.apsFrozen h = false)
    (hm : ⟨c, sd, due⟩ ∈ (d.group h).holds) (ht : due ≤ d.core) :
    ((d.group h).holdOut d.core c).Decides ((d.holdExpire h c).group h) := by
  have hd := (Chip.group_apsEval (d.setGroup h ((d.group h).holdOut d.core c)) h).1
  rwa [Chip.group_setGroup_same, ← Chip.holdExpire_due hf hm ht] at hd

/-! ## Wait to restore -/

theorem Chip.wtrExpire_event {t : Nat} (hs : (d.group h).st = .wtr) (hw : (d.group h).wtrDue = some t)
    (hf : d.apsFrozen h = false) (ht : t ≤ d.core) : (d.wtrExpire h).rb (R.APS_EVENT h) 2 = true := by
  have hc : ¬ (d.core < t ∨ d.apsFrozen h = true) := by simp [hf, ht]
  unfold Chip.wtrExpire
  dsimp only
  rw [hs, hw]
  dsimp only
  rw [if_neg hc]
  refine ((Chip.blindToProtection_event h (by decide)).apsEval _ h).trans ?_
  refine (congrArg (bit · 2) (Chip.rd_evtAt _ _ _ _ _ _ _ _ (fun _ => RegId.key_ne_of_offs (by decide))
    (fun _ => RegId.key_ne_of_offs (by decide)))).trans ?_
  exact Chip.rb_flag_same _ (R.APS_EVENT h) 2 (by decide)

theorem Chip.wtrExpire_same (hn : (d.group h).st ≠ .wtr ∨ (d.group h).wtrDue = none ∨ d.apsFrozen h = true
    ∨ ∃ t, (d.group h).wtrDue = some t ∧ d.core < t) : d.wtrExpire h = d := by
  unfold Chip.wtrExpire
  dsimp only
  split
  · next t hs hw =>
    refine if_pos ?_
    obtain hn | hn | hn | ⟨t', hw', hn⟩ := hn
    · exact absurd hs hn
    · simp [hw] at hn
    · exact .inr hn
    · rw [hw, Option.some.injEq] at hw'
      exact .inl (hw' ▸ hn)
  · rfl

/-! ## Failure of protocol -/

theorem Chip.fopExpire_due {t : Nat} (hw : (d.group h).fopFrom = some t) (ht : t + 50000000 ≤ d.core)
    (hg : (d.group h).fop = false) (hf : d.apsFrozen h = false) : d.fopExpire h
      = ((d.setGroup h { d.group h with fop := true }).flag (R.APS_EVENT h) 3).ev h 0x0512 0 := by
  have hc : ¬ (d.core < t + 50000000 ∨ (d.group h).fop = true ∨ d.apsFrozen h = true) := by simp [hg, hf, ht]
  unfold Chip.fopExpire
  dsimp only
  rw [hw]
  exact if_neg hc

theorem Chip.fopExpire_same (hn : (d.group h).fopFrom = none ∨ (d.group h).fop = true ∨ d.apsFrozen h = true
    ∨ ∃ t, (d.group h).fopFrom = some t ∧ d.core < t + 50000000) : d.fopExpire h = d := by
  unfold Chip.fopExpire
  dsimp only
  split
  · next t hw =>
    refine if_pos ?_
    obtain hn | hn | hn | ⟨t', hw', hn⟩ := hn
    · simp [hw] at hn
    · exact .inr (.inl hn)
    · exact .inr (.inr hn)
    · rw [hw, Option.some.injEq] at hw'
      exact .inl (hw' ▸ hn)
  · rfl

/-! ## Selector changes -/

theorem Chip.selBoundary_decided {t : Nat} (hn : (d.group h).next = some t) : d.selBoundary h = d.applySel h t := by
  unfold Chip.selBoundary
  rw [hn]

theorem Chip.selBoundary_none (hn : (d.group h).next = none) : d.selBoundary h = d := by
  unfold Chip.selBoundary
  rw [hn]

/-- A register of the group other than those of the deskew engine reads after a selector change as its marks leave it. -/
theorem Chip.rd_applySel (tgt : Nat) {i o : Nat} (hc : (RegId.mk .eng i o).ofCapture = false)
    (he : o % 2 ^ 12 ≠ 0x3C0) (hs : o % 2 ^ 12 ≠ 0x3BC) : (d.applySel h tgt).rd ⟨.eng, i, o⟩
      = (d.switched h { d.group h with sel := tgt, next := none }).rd ⟨.eng, i, o⟩ :=
  (Chip.blindToSelector_rd hc he hs).applySel d h tgt

theorem Chip.applySel_event (tgt : Nat) : (d.applySel h tgt).rb (R.APS_EVENT h) 0 = true :=
  (congrArg (bit · 0) (Chip.rd_applySel tgt rfl (by decide) (by decide))).trans (Chip.rb_flag_same _ _ 0 (by decide))

theorem w32_pair (v : Nat) : (w32 v).toNat + (w32 (v / 2 ^ 32)).toNat * 2 ^ 32 = v % 2 ^ 64 := by
  unfold w32
  rw [BitVec.toNat_ofNat, BitVec.toNat_ofNat]
  omega

theorem Chip.applySel_time (tgt : Nat) :
    (d.applySel h tgt).pair (R.APS_SW_TIME_LO h) (R.APS_SW_TIME_HI h) = d.dt % 2 ^ 64 := by
  have hlo : (d.applySel h tgt).rd (R.APS_SW_TIME_LO h) = w32 d.dt :=
    (Chip.rd_applySel tgt rfl (by decide) (by decide)).trans
      ((Chip.rd_flag_other _ 0 (RegId.key_ne_of_offs (by decide))).trans
        ((Chip.rd_wr_other _ _ (RegId.key_ne_of_offs (by decide))).trans (Chip.rd_wr_same _ _ _)))
  have hhi : (d.applySel h tgt).rd (R.APS_SW_TIME_HI h) = w32 (d.dt / 2 ^ 32) :=
    (Chip.rd_applySel tgt rfl (by decide) (by decide)).trans
      ((Chip.rd_flag_other _ 0 (RegId.key_ne_of_offs (by decide))).trans (Chip.rd_wr_same _ _ _))
  unfold Chip.pair
  rw [hlo, hhi, w32_pair]

theorem Chip.applySel_count (tgt : Nat) :
    ((d.applySel h tgt).rd (R.APS_SW_CNT h)).toNat = min ((d.rd (R.APS_SW_CNT h)).toNat + 1) 0xFFFFFFFF := by
  have hcnt : (d.applySel h tgt).rd (R.APS_SW_CNT h)
      = ((d.setGroup h { d.group h with sel := tgt, next := none }).count (R.APS_SW_CNT h)).rd (R.APS_SW_CNT h) :=
    (Chip.rd_applySel tgt rfl (by decide) (by decide)).trans
      ((Chip.rd_flag_other _ 0 (RegId.key_ne_of_offs (by decide))).trans
        ((Chip.rd_wr_other _ _ (RegId.key_ne_of_offs (by decide))).trans
          (Chip.rd_wr_other _ _ (RegId.key_ne_of_offs (by decide)))))
  rw [hcnt, Chip.rd_count_same, Chip.rd_congr (Chip.setGroup_regs d h _)]

end Timers

/-! ## The commands -/

theorem exec_holdoffExpiry (h chan : Nat) (s : State) : exec (.holdoffExpiry h chan) s
    = command (engineOk h) false (fun x => x.on (fun d => d.holdExpire h chan)) s := rfl

theorem exec_wtrExpiry (h : Nat) (s : State) : exec (.wtrExpiry h) s
    = command (engineOk h) false (fun x => x.on (fun d => d.wtrExpire h)) s := rfl

theorem exec_fopDeclare (h : Nat) (s : State) : exec (.fopDeclare h) s
    = command (engineOk h) false (fun x => x.on (fun d => d.fopExpire h)) s := rfl

theorem exec_selectorChange (h : Nat) (s : State) : exec (.selectorChange h) s
    = command (engineOk h) false (fun x => x.on (fun d => d.selBoundary h)) s := rfl

section Commands

variable (q : List Instr) {x : Dev} {h : Nat} (hh : h < 136) (hx : x.live)

include hh hx

theorem does_holdoffExpiry {c due : Nat} {sd : Bool} (hf : x.chip.apsFrozen h = false)
    (hm : ⟨c, sd, due⟩ ∈ (x.chip.group h).holds) (ht : due ≤ x.chip.core) :
    Does (.holdoffExpiry h c) ⟨q, x⟩ (fun y => c ∈ (if sd then (y.chip.group h).sdUp else (y.chip.group h).sfUp)
      ∧ (∀ t ∈ (y.chip.group h).holds, t.chan = c → x.chip.core < t.due) ∧ x.sameMem y) := by
  have hd := Chip.group_holdExpire (d := x.cleared.chip) hf hm ht
  refine does_on (exec_holdoffExpiry h c ⟨q, x⟩) (decide_eq_true hh) hx rfl ⟨?_, ?_, x.sameMem_mk _⟩
  · rw [hd.sfUp, hd.sdUp]
    exact Group.holdOut_raises hm ht
  · rw [hd.holds]
    exact fun t ht hc => Group.holdOut_holds ht hc

theorem does_wtrExpiry {t : Nat} (hs : (x.chip.group h).st = .wtr) (hw : (x.chip.group h).wtrDue = some t)
    (hf : x.chip.apsFrozen h = false) (ht : t ≤ x.chip.core) :
    Does (.wtrExpiry h) ⟨q, x⟩ (fun y => y.chip.rb (R.APS_EVENT h) 2 = true ∧ x.sameMem y) :=
  does_on (exec_wtrExpiry h ⟨q, x⟩) (decide_eq_true hh) hx rfl
    ⟨Chip.wtrExpire_event (d := x.cleared.chip) hs hw hf ht, x.sameMem_mk _⟩

theorem does_fopDeclare {t : Nat} (hw : (x.chip.group h).fopFrom = some t) (ht : t + 50000000 ≤ x.chip.core)
    (hg : (x.chip.group h).fop = false) (hf : x.chip.apsFrozen h = false) :
    Does (.fopDeclare h) ⟨q, x⟩ (fun y => y.chip.group h = { x.chip.group h with fop := true }
      ∧ y.chip.rb (R.APS_EVENT h) 3 = true ∧ x.chip.logged y.chip h 0x0512 0
      ∧ (∀ k, k ≠ h → y.chip.group k = x.chip.group k) ∧ x.only y (fun c => { c with groups := y.chip.groups })
      ∧ x.regsBut y [R.APS_EVENT h]) := by
  set g := { x.cleared.chip.group h with fop := true }
  set d1 := (x.cleared.chip.setGroup h g).flag (R.APS_EVENT h) 3 with hd1
  have hgroups : (d1.ev h 0x0512 0).groups = (x.cleared.chip.setGroup h g).groups := Chip.ev_groups d1 h 0x0512 0
  refine does_on (exec_fopDeclare h ⟨q, x⟩) (decide_eq_true hh) hx
    (Chip.fopExpire_due (d := x.cleared.chip) hw ht hg hf) ⟨?_, ?_, ?_, fun k hk => ?_, ?_, fun r hr hl => ?_⟩
  · exact (Chip.group_congr hgroups h).trans (Chip.group_setGroup_same _ h g)
  · exact (congrArg (bit · 3) (Chip.rd_evtAt _ _ _ _ _ _ _ _ (fun _ => RegId.key_ne_of_offs (by decide))
      (fun _ => RegId.key_ne_of_offs (by decide)))).trans (Chip.rb_flag_same _ (R.APS_EVENT h) 3 (by decide))
  · exact Chip.logged_ev d1 h 0x0512 0
  · exact (Chip.group_congr hgroups k).trans (Chip.group_setGroup_other _ g hk)
  · refine Dev.only_of_besides (fun _ _ => rfl) ?_ (x.sameMem_mk _)
    dsimp only
    rw [hgroups]
    exact Chip.ev_besides d1 h 0x0512 0 x.chip
  · exact (Chip.rd_evtAt _ _ _ _ _ _ _ r (fun e => (hl e).1) (fun e => (hl e).2)).trans
      (Chip.rd_flag_other (x.cleared.chip.setGroup h g) 3 (hr (R.APS_EVENT h) (by simp)))

theorem does_selectorChange {c : Nat} (hn : (x.chip.group h).next = some c) :
    Does (.selectorChange h) ⟨q, x⟩ (fun y => y.chip.group h = { x.chip.group h with sel := c, next := none }
      ∧ y.chip.rb (R.APS_EVENT h) 0 = true
      ∧ y.chip.pair (R.APS_SW_TIME_LO h) (R.APS_SW_TIME_HI h) = x.chip.dt % 2 ^ 64
      ∧ (y.chip.rd (R.APS_SW_CNT h)).toNat = min ((x.chip.rd (R.APS_SW_CNT h)).toNat + 1) 0xFFFFFFFF ∧ x.sameMem y) :=
  does_on (exec_selectorChange h ⟨q, x⟩) (decide_eq_true hh) hx (Chip.selBoundary_decided (d := x.cleared.chip) hn)
    ⟨Chip.group_applySel x.cleared.chip h c, Chip.applySel_event c, Chip.applySel_time c, Chip.applySel_count c,
      x.sameMem_mk _⟩

end Commands

/-- Settles O24: what a timer has done to a group stands through the decision that follows it. -/
theorem protectionTimers : Obligations.ProtectionTimers := by
  intro q x h hh hx
  have hok : engineOk h = true := decide_eq_true hh
  refine ⟨fun c sd due hf hm ht => does_holdoffExpiry q hh hx hf hm ht, fun c hn => ?_,
    fun t hs hw hf ht => does_wtrExpiry q hh hx hs hw hf ht, fun hn => ?_,
    fun t hw ht hg hf => does_fopDeclare q hh hx hw ht hg hf, fun hn => ?_,
    fun c hn => does_selectorChange q hh hx hn, fun hn => ?_⟩
  · exact does_idle (exec_holdoffExpiry h c ⟨q, x⟩) hok (Chip.holdExpire_same (d := x.cleared.chip) hn)
  · exact does_idle (exec_wtrExpiry h ⟨q, x⟩) hok (Chip.wtrExpire_same (d := x.cleared.chip) hn)
  · exact does_idle (exec_fopDeclare h ⟨q, x⟩) hok (Chip.fopExpire_same (d := x.cleared.chip) hn)
  · exact does_idle (exec_selectorChange h ⟨q, x⟩) hok (Chip.selBoundary_none (d := x.cleared.chip) hn)

end Sys2Proof.Machine
end

section
set_option Elab.async false

/-! # Setting up protection groups (R139, R145, R304) -/

namespace Sys2Proof.Machine

section Setup

variable (d : Chip) (h : Nat)

/-! ## Entering NR -/

theorem Chip.group_apsMode : (d.apsMode h).group h = { d.group h with mm := d.apsModeDiffers h } := by
  unfold Chip.apsMode
  extract_lets g mm d1
  have h1 : d1.group h = { g with mm := mm } := Chip.group_setGroup_same d h _
  split
  · exact (Chip.group_congr (Chip.ev_groups (d1.flag (R.APS_EVENT h) 4) h 0x0513 0) h).trans h1
  · exact h1

theorem Chip.rd_apsMode {r : RegId} (hc : r.ofCapture = false) (he : r.off % 2 ^ 12 ≠ 0x390) :
    (d.apsMode h).rd r = d.rd r := by
  unfold Chip.apsMode
  extract_lets g mm d1
  split
  · exact ((Chip.blindToCapture_rd hc).ev _ h 0x0513 0).trans (Chip.rd_flag_other d1 4 (RegId.key_ne_of_off he))
  · rfl

/-- A group that is not DISABLED, and that has been enabled since the last reset. -/
def Group.entered (g : Group) : Prop := g.st ≠ .disabled ∧ g.ever = true

theorem Group.Decides.entered {g g' : Group} (hd : g.Decides g') (hg : g.entered) : g'.entered :=
  ⟨hd.st hg.1, hd.ever.trans hg.2⟩

theorem Chip.entered_apsInputs (hg : (d.group h).entered) : ((d.apsInputs h).group h).entered := by
  unfold Chip.apsInputs
  extract_lets g
  split
  · exact hg
  · refine (Chip.group_apsEval _ h).1.entered ?_
    rw [Chip.group_setGroup_same]
    exact hg

theorem Chip.entered_apsEnter : ((d.apsEnter h).group h).entered := by
  unfold Chip.apsEnter
  extract_lets init g d1 src d2
  have h1 : d1.group h = g := Chip.group_setGroup_same d h g
  have h2 : d2.group h = d1.group h := by
    unfold d2
    split <;> rfl
  have hmode : ((d2.apsMode h).group h).entered := by
    rw [Chip.group_apsMode, h2, h1]
    exact ⟨by simp [g], rfl⟩
  exact (Chip.group_apsEval _ h).1.entered (Chip.entered_apsInputs _ h hmode)

theorem Chip.rd_apsEnter : (d.apsEnter h).rd (R.APS_CFG h) = d.rd (R.APS_CFG h) := by
  have K := Chip.blindToProtection_rd (r := R.APS_CFG h) rfl rfl
  unfold Chip.apsEnter
  extract_lets init g d1 src d2
  have h2 : d2.rd (R.APS_CFG h) = d.rd (R.APS_CFG h) := by
    unfold d2
    split
    · exact Chip.rd_wr_other _ _ (RegId.key_ne_of_offs (by decide))
    · rfl
  exact (K.apsEval _ h).trans ((K.apsInputs _ h).trans
    ((Chip.rd_apsMode d2 h rfl (by exact (by decide : 0x380 % 2 ^ 12 ≠ 0x390))).trans h2))

/-! ## Leaving -/

/-- A group that is DISABLED, with no command and its selector on working or to go there. -/
def Group.left (g : Group) : Prop := g.st = .disabled ∧ g.cmd = none ∧ (g.sel = 0 ∨ g.next = some 0)

theorem Chip.left_apsLeave : ((d.apsLeave h).group h).left := by
  unfold Chip.apsLeave
  extract_lets g init d1 d2
  have h2 : d2.group h = { init with rx := g.rx, sel := g.sel, ever := g.ever } := by
    refine Eq.trans ?_ (Chip.group_setGroup_same d h _)
    unfold d2
    split <;> rfl
  split
  · next hs =>
    rw [h2]
    exact ⟨rfl, rfl, .inl hs⟩
  · obtain ⟨sel, next, he, hsel⟩ := Chip.group_setSel d2 h 0
    rw [he, h2]
    exact ⟨rfl, rfl, hsel.imp id And.right⟩

/-! ## Writes of APS_CFG -/

variable (w : Word)

/-- APS_CFG as a write stores it, ENABLE kept. -/
def Chip.apsCfgStore : Chip := d.store (R.APS_CFG h) w 1

theorem Chip.rb_apsCfgStore : (d.apsCfgStore h w).rb (R.APS_CFG h) 0 = d.rb (R.APS_CFG h) 0 :=
  Chip.rb_store_kept d w 1 (t := R.APS_CFG h) rfl (by decide) (by decide) (by decide)

variable {d h w} {c : Chip} (hc : d.apsCfgStore h w = c)

include hc

theorem Chip.apsCfgWrite_enable (hw : bit w 0 = true) (hd : d.rb (R.APS_CFG h) 0 = false) :
    d.apsCfgWrite h w = c.apsEnable h :=
  hc ▸ if_pos ⟨hw, by simp [hd]⟩

theorem Chip.apsCfgWrite_disable (hw : bit w 0 = false) (hd : d.rb (R.APS_CFG h) 0 = true) :
    d.apsCfgWrite h w = (.ok, (c.apsLeave h).unflag (R.APS_CFG h) 0) :=
  hc ▸ (if_neg (by simp [hw])).trans (if_pos ⟨by simp [hw], hd⟩)

theorem Chip.apsCfgWrite_stays (hw : bit w 0 = d.rb (R.APS_CFG h) 0) : d.apsCfgWrite h w = (.ok, c) :=
  hc ▸ (if_neg (by simp [hw])).trans (if_neg (by simp [hw]))

omit hc

theorem Chip.apsEnable_notReady (hr : c.dskReady h = false) : c.apsEnable h = (.notReady, c) :=
  if_pos (by simp [hr])

theorem Chip.apsEnable_pass (hr : c.dskReady h = true) (hk : c.apsChecks h = true) :
    c.apsEnable h = (.ok, (c.flag (R.APS_CFG h) 0).apsEnter h) :=
  (if_neg (by simp [hr])).trans (if_pos hk)

theorem Chip.apsEnable_fail (hr : c.dskReady h = true) (hk : c.apsChecks h = false) :
    c.apsEnable h = (.badParam, c.flag (R.APS_EVENT h) 9) :=
  (if_neg (by simp [hr])).trans (if_neg (by simp [hk]))

theorem Chip.apsCfgStore_besides (z : Chip) : (d.apsCfgStore h w).besides z = d.besides z :=
  Chip.store_keep_besides d w 1 z

theorem Chip.rd_apsCfgStore_other {r : RegId} (hr : r.key ≠ (R.APS_CFG h).key) : (d.apsCfgStore h w).rd r = d.rd r :=
  Chip.rd_store_keep_other d w 1 hr

end Setup

/-! ## The commands -/

theorem exec_apsGroupEnable (sess h : Nat) (w : Word) (s : State) : exec (.apsGroupEnable sess h w) s
    = command (engineOk h) false (fun x => x.hostWrite sess (R.APS_CFG h) (setFld w 0 0 1)) s := rfl

theorem exec_apsGroupDisable (sess h : Nat) (w : Word) (s : State) : exec (.apsGroupDisable sess h w) s
    = command (engineOk h) false (fun x => x.hostWrite sess (R.APS_CFG h) (setFld w 0 0 0)) s := rfl

theorem exec_apsMemberWrite (sess h : Nat) (w : Word) (s : State) : exec (.apsMemberWrite sess h w) s
    = command (engineOk h) false (fun x => x.hostWrite sess (R.APS_MEMBER h) w) s := rfl

/-! ## A refused write of APS_MEMBER -/

/-- A refusal leaves the engine windows alone. -/
theorem Chip.rd_refuse_eng (d : Chip) (sess a : Nat) (st : Status) {r : RegId} (hr : r.blk = .eng) :
    (d.refuse sess a st).rd r = d.rd r := by
  have hne {g : RegId} (hg : g.blk = .glb) : r.key ≠ g.key := RegId.key_ne_of_blk (by rw [hr, hg]; decide)
  exact (Chip.rd_wr_other _ _ (hne rfl)).trans ((Chip.rd_wr_other _ _ (hne rfl)).trans
    ((Chip.rd_count_other _ 1 (hne rfl)).trans (Chip.rd_flag_other d 4 (hne rfl))))

theorem Dev.refusedWith_refuse {x : Dev} {c : Chip} (sess a : Nat) (st : Status) (m : Mem)
    (hcnt : c.rd R.GLB_REFUSE_CNT = x.chip.rd R.GLB_REFUSE_CNT) :
    x.refusedWith ⟨(c.refuse sess a st).answer st, m⟩ sess a st := by
  obtain ⟨hset, haddr, hinfo, hn⟩ := Chip.refuse_record c sess a st
  rw [hcnt] at hn
  exact ⟨Chip.answered_answer _ _ _, (Chip.rb_answer _ _ _ _).trans hset, (Chip.rd_answer _ _ _).trans haddr,
    (Chip.rd_answer _ _ _).trans hinfo, (congrArg BitVec.toNat (Chip.rd_answer _ _ _)).trans hn⟩

theorem Chip.cdRefused_member (d : Chip) (h : Nat) (w : Word) : d.cdRefused (R.APS_MEMBER h) w
    = (d.memberBusy (d.rd (R.APS_MEMBER h)) || d.memberBusy w, some (R.APS_EVENT h, 8)) := by
  unfold Chip.cdRefused
  exact if_pos ⟨rfl, rfl⟩

theorem Dev.accessCheck_cleared (x : Dev) (sess a : Nat) (write : Bool) :
    x.cleared.chip.accessCheck sess a write = x.chip.accessCheck sess a write := rfl

section Commands

variable (q : List Instr) {x : Dev} {sess h : Nat} {w : Word}

theorem Dev.writeEng_apsCfg {st : Status} {e : Chip} (he : x.cleared.chip.apsCfgWrite h w = (st, e)) :
    x.cleared.writeEng h (R.APS_CFG h) (x.cleared.chip.reach (R.APS_CFG h)) w = (st, ⟨e, x.mem⟩) :=
  congrArg (fun p : Status × Chip => (p.1, Dev.mk p.2 x.mem)) he

variable (hh : h < 136) (hx : x.live) (hb : x.chip.subBusy h = false)

include hh hx

section Write

variable {i : Instr} (hi : exec i ⟨q, x⟩ = command (engineOk h) false (fun y => y.hostWrite sess (R.APS_CFG h) w) ⟨q, x⟩)
  (ha : x.allows sess (R.APS_CFG h) w)

include hb hi ha

/-- A write that leaves ENABLE as it is stores its fields and does nothing else. -/
theorem does_apsCfg_stays (hw : bit w 0 = x.chip.rb (R.APS_CFG h) 0) :
    Does i ⟨q, x⟩ (fun y => y.answered .ok ∧ y.chip.rb (R.APS_CFG h) 0 = x.chip.rb (R.APS_CFG h) 0 ∧ x.only y) := by
  refine does_hostWrite_eng q hx hi (decide_eq_true hh) ha hb rfl
    (Dev.writeEng_apsCfg (Chip.apsCfgWrite_stays (d := x.cleared.chip) rfl hw)) ?_
  rw [if_pos rfl]
  refine ⟨?_, Dev.only_of_eq ?_⟩
  · exact (Chip.rb_mirror_answer _ .ok 0 (by decide)).trans (Chip.rb_apsCfgStore x.cleared.chip h w)
  · exact (Chip.mirror_answer_besides _ .ok x.chip).trans (Chip.apsCfgStore_besides x.chip)

theorem does_apsCfg_leave (hd : x.chip.rb (R.APS_CFG h) 0 = true) (hw : bit w 0 = false) :
    Does i ⟨q, x⟩ (fun y => y.answered .ok ∧ y.chip.rb (R.APS_CFG h) 0 = false ∧ (y.chip.group h).left ∧ x.sameMem y) := by
  refine does_hostWrite_eng q hx hi (decide_eq_true hh) ha hb rfl
    (Dev.writeEng_apsCfg (Chip.apsCfgWrite_disable (d := x.cleared.chip) rfl hw hd)) ?_
  rw [if_pos rfl]
  generalize x.cleared.chip.apsCfgStore h w = c
  refine ⟨?_, ?_, x.sameMem_mk _⟩
  · exact (Chip.rb_mirror_answer _ .ok 0 (by decide)).trans (Chip.rb_unflag_same _ _ (by decide))
  · rw [Chip.group_mirror_answer]
    exact Chip.left_apsLeave c h

variable {c : Chip} (hc : x.cleared.chip.apsCfgStore h w = c) (hd : x.chip.rb (R.APS_CFG h) 0 = false)
  (hw : bit w 0 = true)

include hc hd hw

theorem does_apsCfg_notReady (hr : c.dskReady h = false) :
    Does i ⟨q, x⟩ (fun y => y.answered .notReady ∧ y.chip.rb (R.APS_CFG h) 0 = false ∧ x.only y
      ∧ x.regsBut y [R.APS_CFG h]) := by
  refine does_hostWrite_eng q hx hi (decide_eq_true hh) ha hb rfl
    (Dev.writeEng_apsCfg ((Chip.apsCfgWrite_enable hc hw hd).trans (Chip.apsEnable_notReady hr))) ?_
  rw [if_neg (by decide), ← hc]
  refine ⟨?_, Dev.only_of_eq ?_, fun r hr _ => ?_⟩
  · exact (Chip.rb_answer _ _ _ _).trans ((Chip.rb_apsCfgStore x.cleared.chip h w).trans hd)
  · exact (Chip.answer_besides _ _ _).trans (Chip.apsCfgStore_besides x.chip)
  · exact (Chip.rd_answer _ _ r).trans (Chip.rd_apsCfgStore_other (hr (R.APS_CFG h) (by simp)))

variable (hr : c.dskReady h = true)

include hr

theorem does_apsCfg_fail (hk : c.apsChecks h = false) :
    Does i ⟨q, x⟩ (fun y => y.answered .badParam ∧ y.chip.rb (R.APS_CFG h) 0 = false ∧ y.chip.rb (R.APS_EVENT h) 9 = true
      ∧ x.only y ∧ x.regsBut y [R.APS_CFG h, R.APS_EVENT h]) := by
  refine does_hostWrite_eng q hx hi (decide_eq_true hh) ha hb rfl
    (Dev.writeEng_apsCfg ((Chip.apsCfgWrite_enable hc hw hd).trans (Chip.apsEnable_fail hr hk))) ?_
  rw [if_neg (by decide), ← hc]
  refine ⟨?_, ?_, Dev.only_of_eq ?_, fun r hr _ => ?_⟩
  · exact (Chip.rb_answer _ _ _ _).trans ((Chip.rb_wr_other _ _ 0 (RegId.key_ne_of_offs (by decide))).trans
      ((Chip.rb_apsCfgStore x.cleared.chip h w).trans hd))
  · exact (Chip.rb_answer _ _ _ _).trans (Chip.rb_flag_same _ _ 9 (by decide))
  · exact (Chip.flag_answer_besides _ _ 9 .badParam _).trans (Chip.apsCfgStore_besides x.chip)
  · exact (Chip.rd_answer _ _ r).trans ((Chip.rd_flag_other _ 9 (hr (R.APS_EVENT h) (by simp))).trans
      (Chip.rd_apsCfgStore_other (hr (R.APS_CFG h) (by simp))))

theorem does_apsCfg_enter (hk : c.apsChecks h = true) :
    Does i ⟨q, x⟩ (fun y => y.answered .ok ∧ y.chip.rb (R.APS_CFG h) 0 = true ∧ (y.chip.group h).entered ∧ x.sameMem y) := by
  refine does_hostWrite_eng q hx hi (decide_eq_true hh) ha hb rfl
    (Dev.writeEng_apsCfg ((Chip.apsCfgWrite_enable hc hw hd).trans (Chip.apsEnable_pass hr hk))) ?_
  rw [if_pos rfl]
  refine ⟨?_, ?_, x.sameMem_mk _⟩
  · exact (Chip.rb_mirror_answer _ .ok 0 (by decide)).trans ((congrArg (bit · 0) (Chip.rd_apsEnter _ h)).trans
      (Chip.rb_flag_same c _ 0 (by decide)))
  · rw [Chip.group_mirror_answer]
    exact Chip.entered_apsEnter _ h

end Write

include hb in
theorem does_apsMemberWrite (ha : x.allows sess (R.APS_MEMBER h) w) :
    Does (.apsMemberWrite sess h w) ⟨q, x⟩ (fun y => y.answered .ok ∧ y.chip.rf (R.APS_MEMBER h) 7 0 = fld w 7 0
      ∧ y.chip.rf (R.APS_MEMBER h) 11 8 = fld w 11 8 ∧ y.chip.rb (R.APS_MEMBER h) 12 = bit w 12
      ∧ y.chip.rb (R.APS_MEMBER h) 13 = bit w 13 ∧ x.only y) := by
  have hwr : x.cleared.writeEng h (R.APS_MEMBER h) (x.cleared.chip.reach (R.APS_MEMBER h)) w
      = (.ok, ⟨x.cleared.chip.store (R.APS_MEMBER h) w, x.mem⟩) := rfl
  refine does_hostWrite_eng q hx (exec_apsMemberWrite sess h w ⟨q, x⟩) (decide_eq_true hh) ha hb rfl hwr ?_
  rw [if_pos rfl]
  have hstored {hi lo : Nat} (hk : ∀ i < 32, lo ≤ i → i ≤ hi → bit (w32 (0x3FFF ||| 0)) i = true) (hlt : hi < 32) :
      (x.cleared.chip.store (R.APS_MEMBER h) w).rf (R.APS_MEMBER h) hi lo = fld w hi lo :=
    Chip.rf_store (t := R.APS_MEMBER h) w rfl hk hlt
  have hbes := Chip.store_besides x.cleared.chip (R.APS_MEMBER h) w x.chip
  generalize x.cleared.chip.store (R.APS_MEMBER h) w = c at hstored hbes
  have hf {hi lo : Nat} (hk : ∀ i < 32, lo ≤ i → i ≤ hi → bit (w32 (0x3FFF ||| 0)) i = true) (hlt : hi < 32) :
      ((c.mirror h).answer .ok).rf (R.APS_MEMBER h) hi lo = fld w hi lo :=
    (congrArg (fld · hi lo) (Chip.rd_mirror_answer c .ok (by decide))).trans (hstored hk hlt)
  have hbit {i : Nat} (hk : bit (w32 (0x3FFF ||| 0)) i = true) (hlt : i < 32) :
      ((c.mirror h).answer .ok).rb (R.APS_MEMBER h) i = bit w i := by
    rw [bit_eq_fld w, ← hf (hi := i) (lo := i) (fun j _ h1 h2 => Nat.le_antisymm h1 h2 ▸ hk) hlt]
    exact bit_eq_fld _ i
  refine ⟨hf (by decide) (by decide), hf (by decide) (by decide), hbit (by decide) (by decide), hbit (by decide) (by decide), ?_⟩
  exact Dev.only_of_eq ((Chip.mirror_answer_besides c .ok x.chip).trans hbes)

theorem does_apsMemberWrite_refused (hc : x.chip.accessCheck sess (R.APS_MEMBER h).addr true = .ok (R.APS_MEMBER h))
    (hm : x.chip.memberBusy (x.chip.rd (R.APS_MEMBER h)) = true ∨ x.chip.memberBusy w = true) :
    Does (.apsMemberWrite sess h w) ⟨q, x⟩ (fun y => x.refusedWith y sess (R.APS_MEMBER h).addr .notAppliedEnabled
      ∧ y.chip.rb (R.APS_EVENT h) 8 = true ∧ y.chip.rd (R.APS_MEMBER h) = x.chip.rd (R.APS_MEMBER h) ∧ x.sameMem y) := by
  have hrule := Chip.cdRefused_member x.cleared.chip h w
  have hd : (x.cleared.chip.cdRefused (R.APS_MEMBER h) w).1 = true := by
    rw [hrule]
    exact Bool.or_eq_true_iff.2 hm
  refine does_of_command (exec_apsMemberWrite sess h w ⟨q, x⟩) (decide_eq_true hh) hx ?_
  rw [Dev.hostWrite_cd x.cleared sess (R.APS_MEMBER h) w ((Dev.accessCheck_cleared x _ _ _).trans hc) rfl hd, hrule]
  dsimp only
  generalize (R.APS_MEMBER h).addr = a
  generalize hfl : x.cleared.chip.flag (R.APS_EVENT h) 8 = c
  have hcnt : c.rd R.GLB_REFUSE_CNT = x.chip.rd R.GLB_REFUSE_CNT :=
    hfl ▸ Chip.rd_flag_other x.cleared.chip 8 (RegId.key_ne_of_blk (show Blk.glb ≠ Blk.eng by decide))
  have hev : c.rb (R.APS_EVENT h) 8 = true := hfl ▸ Chip.rb_flag_same x.cleared.chip (R.APS_EVENT h) 8 (by decide)
  have hmem : c.rd (R.APS_MEMBER h) = x.chip.rd (R.APS_MEMBER h) :=
    hfl ▸ Chip.rd_flag_other x.cleared.chip 8 (RegId.key_ne_of_offs (by decide))
  refine ⟨Dev.refusedWith_refuse sess a .notAppliedEnabled x.mem hcnt, ?_, ?_, x.sameMem_mk _⟩
  · exact (Chip.rb_answer (c.refuse sess a .notAppliedEnabled) _ _ 8).trans
      ((congrArg (bit · 8) (Chip.rd_refuse_eng c sess a .notAppliedEnabled rfl)).trans hev)
  · exact (Chip.rd_answer (c.refuse sess a .notAppliedEnabled) _ _).trans
      ((Chip.rd_refuse_eng c sess a .notAppliedEnabled rfl).trans hmem)

end Commands

/-- Settles O22: ENABLE changes only where the checks pass, and a decision never brings a group out of NR to DISABLED. -/
theorem protectionGroupSetup : Obligations.ProtectionGroupSetup := by
  intro q x sess h w hh hx hb
  have hon : bit (setFld w 0 0 1) 0 = true := bit_setFld_one w (by decide)
  have hoff : bit (setFld w 0 0 0) 0 = false := bit_setFld_zero w (by decide)
  have hen := exec_apsGroupEnable sess h w ⟨q, x⟩
  have hdis := exec_apsGroupDisable sess h w ⟨q, x⟩
  refine ⟨fun ha => ⟨fun hd => ?_, fun hd => ?_⟩, fun ha => ⟨fun hd => ?_, fun hd => ?_⟩,
    fun ha => does_apsMemberWrite q hh hx hb ha, fun hc hm => does_apsMemberWrite_refused q hh hx hc hm⟩
  · intro c
    refine ⟨fun hr hk => ?_, fun hr hk => does_apsCfg_fail q hh hx hb hen ha rfl hd hon hr hk,
      fun hr => does_apsCfg_notReady q hh hx hb hen ha rfl hd hon hr⟩
    exact (does_apsCfg_enter q hh hx hb hen ha rfl hd hon hr hk).mono
      fun y ⟨hst, hbit, ⟨hne, hever⟩, hm⟩ => ⟨hst, hbit, hne, hever, hm⟩
  · exact hd ▸ does_apsCfg_stays q hh hx hb hen ha (hon.trans hd.symm)
  · exact (does_apsCfg_leave q hh hx hb hdis ha hd hoff).mono
      fun y ⟨hst, hbit, ⟨hne, hcmd, hsel⟩, hm⟩ => ⟨hst, hbit, hne, hcmd, hsel, hm⟩
  · exact hd ▸ does_apsCfg_stays q hh hx hb hdis ha (hoff.trans hd.symm)

end Sys2Proof.Machine
end

section
set_option Elab.async false

/-! # What follows a defect (R123-R129)

A defect that is declared or cleared goes to the summaries, the performance layers, the triggers and the protection
groups; and the contexts of its engine are held against their parents. -/

namespace Sys2Proof.Machine

/-! ## One bit of a set of defects -/

/-- Clearing bit `b` of a number by subtraction leaves the other bits. -/
theorem testBit_sub_two_pow {x b : Nat} (h : x.testBit b = true) (j : Nat) :
    (x - 2 ^ b).testBit j = (decide (j ≠ b) && x.testBit j) := by
  obtain ⟨a, r, hr, rfl⟩ : ∃ a r, r < 2 ^ b ∧ x = 2 ^ (b + 1) * a + (2 ^ b + r) := by
    have hodd : x / 2 ^ b % 2 = 1 := by simpa [Nat.testBit_eq_decide_div_mod_eq] using h
    refine ⟨x / 2 ^ b / 2, x % 2 ^ b, Nat.mod_lt _ (Nat.two_pow_pos b), ?_⟩
    calc x = 2 ^ b * (2 * (x / 2 ^ b / 2) + 1) + x % 2 ^ b := by
          rw [← hodd, Nat.div_add_mod, Nat.div_add_mod]
      _ = _ := by ring
  have hsub : 2 ^ (b + 1) * a + (2 ^ b + r) - 2 ^ b = 2 ^ (b + 1) * a + r := by omega
  have hlow : 2 ^ b + r < 2 ^ (b + 1) := by rw [Nat.pow_succ]; omega
  have hr' : r < 2 ^ (b + 1) := by omega
  rw [hsub, Nat.testBit_two_pow_mul_add a hr', Nat.testBit_two_pow_mul_add a hlow]
  obtain hj | rfl | hj := Nat.lt_trichotomy j b
  · have hne : j ≠ b := by omega
    simp [show j < b + 1 by omega, Nat.testBit_two_pow_add_gt hj, hne]
  · simp [Nat.testBit_lt_two_pow hr]
  · have hne : j ≠ b := by omega
    simp [show ¬ j < b + 1 by omega, hne]

theorem testBit_or_two_pow (x b j : Nat) : (x ||| 2 ^ b).testBit j = (decide (j = b) || x.testBit j) := by
  rw [Nat.testBit_or, Nat.testBit_two_pow, Bool.or_comm]
  simp [eq_comm]

/-! ## What is not changed -/

/-- The defects of a context that follow the state its parent brings: LOP, AIS, MSIM and PARENT_FAIL. -/
def parentDefects : List Nat := [0, 1, 10, 11]

/-- The registers of the defects' status and of their event flags. -/
def RegId.ofDefects (r : RegId) : Bool := [0x2F0, 0x2F4, 0x2F8].contains (r.off % 2 ^ 12)

/-- From `d` to `d'` no defect changes that follows from no other, and no configuration: the summaries and PARENT_FAIL
may, event flags are set, and what is behind the defect monitor runs on. -/
structure Chip.Settles (d d' : Chip) : Prop where
  reg : ∀ r : RegId, r.ofCapture = false → r.ofSwitching = false → r.ofDefects = false → d'.rd r = d.rd r
  status : ∀ e n, n < 24 → d'.rb (R.DEF_STATUS e) n = d.rb (R.DEF_STATUS e) n
  event : ∀ e n, d.rb (R.DEF_EVENT e) n = true → d'.rb (R.DEF_EVENT e) n = true
  path : ∀ t b, b ∉ parentDefects → (d'.pathBits t).testBit b = (d.pathBits t).testBit b
  mon : ∀ e, { d'.mon e with pm := [] } = { d.mon e with pm := [] }

namespace Chip.Settles

theorem refl (d : Chip) : d.Settles d :=
  ⟨fun _ _ _ _ => rfl, fun _ _ _ => rfl, fun _ _ => id, fun _ _ _ => rfl, fun _ => rfl⟩

theorem trans {a b c : Chip} (h : a.Settles b) (k : b.Settles c) : a.Settles c :=
  ⟨fun r h1 h2 h3 => (k.reg r h1 h2 h3).trans (h.reg r h1 h2 h3), fun e n hn => (k.status e n hn).trans (h.status e n hn),
    fun e n he => k.event e n (h.event e n he), fun t b hb => (k.path t b hb).trans (h.path t b hb),
    fun e => (k.mon e).trans (h.mon e)⟩

theorem foldl {β : Type} {g : Chip → β → Chip} (h : ∀ (d : Chip) (b : β), d.Settles (g d b)) (l : List β) (d : Chip) :
    d.Settles (l.foldl g d) := by
  induction l generalizing d with
  | nil => exact refl d
  | cons b l ih => exact (h d b).trans (ih _)

/-- What the protection controller decides, and what the triggers bring, changes nothing here. -/
theorem of_blind {d d' : Chip} (h : ∀ {γ : Type} (f : Chip → γ), Chip.BlindToProtection f → f d' = f d) : d.Settles d' := by
  have hpaths : Chip.BlindToProtection Chip.paths :=
    ⟨⟨⟨fun _ _ _ _ => rfl, fun _ _ => rfl, fun _ _ => rfl, fun _ _ _ => rfl, fun _ _ _ => rfl, fun _ _ _ => rfl⟩,
      fun _ _ _ => rfl, fun _ _ _ => rfl⟩, fun _ _ _ => rfl,
      fun d h g => Chip.switched_keeps (f := Chip.paths) (fun _ _ _ => rfl) d h g⟩
  have hmons : Chip.BlindToProtection Chip.mons :=
    ⟨⟨⟨fun _ _ _ _ => rfl, fun _ _ => rfl, fun _ _ => rfl, fun _ _ _ => rfl, fun _ _ _ => rfl, fun _ _ _ => rfl⟩,
      fun _ _ _ => rfl, fun _ _ _ => rfl⟩, fun _ _ _ => rfl,
      fun d h g => Chip.switched_keeps (f := Chip.mons) (fun _ _ _ => rfl) d h g⟩
  refine ⟨fun r h1 h2 _ => h _ (Chip.blindToProtection_rd h1 h2), fun e n _ => ?_, fun e n he => ?_, fun t b _ => ?_,
    fun e => ?_⟩
  · exact congrArg (bit · n) (h _ (Chip.blindToProtection_rd (r := R.DEF_STATUS e) rfl rfl))
  · exact (congrArg (bit · n) (h _ (Chip.blindToProtection_rd (r := R.DEF_EVENT e) rfl rfl))).trans he
  · exact congrArg (fun m : SMap Nat => (SMap.get 0 m t).testBit b) (h _ hpaths)
  · exact congrArg (fun m : SMap DefMon => { SMap.get DefMon.init m e with pm := [] }) (h _ hmons)

end Chip.Settles

section Steps

variable (d : Chip)

theorem Chip.mon_setMon_same (e : Nat) (m : DefMon) : (d.setMon e m).mon e = m := SMap.get_put_same _ _ _ _

theorem Chip.mon_setMon_other {e k : Nat} (m : DefMon) (h : k ≠ e) : (d.setMon e m).mon k = d.mon k :=
  SMap.get_put_other _ _ _ _ h

theorem Chip.settles_setMon (e : Nat) {m : DefMon} (hm : { m with pm := [] } = { d.mon e with pm := [] }) :
    d.Settles (d.setMon e m) := by
  refine ⟨fun _ _ _ _ => rfl, fun _ _ _ => rfl, fun _ _ => id, fun _ _ _ => rfl, fun k => ?_⟩
  by_cases hk : k = e
  · rw [hk, Chip.mon_setMon_same, hm]
  · rw [Chip.mon_setMon_other d m hk]

theorem Chip.settles_pmNote (e : Nat) : d.Settles (d.pmNote e) := Chip.settles_setMon d e rfl

/-- The status of a line's summaries, above its defects. -/
theorem Chip.settles_sbit (e : Nat) {k : Nat} (b : Bool) (hk : 24 ≤ k) (hk' : k < 32) :
    d.Settles (d.sbit (R.DEF_STATUS e) k b) := by
  refine ⟨fun r _ _ h => ?_, fun j n hn => ?_, fun j n hj => ?_, fun _ _ _ => rfl, fun _ => rfl⟩
  · simp only [RegId.ofDefects, List.contains_cons, Bool.or_eq_false_iff, beq_eq_false_iff_ne] at h
    exact Chip.rd_wr_other d _ (RegId.key_ne_of_off h.1)
  · exact Chip.rb_sbit_eng_beside d b hk' (by omega)
  · exact (Chip.rb_wr_other d _ n (RegId.key_ne_of_offs (by decide))).trans hj

theorem Chip.settles_event (e : Nat) {k : Nat} (hk : k < 32) : d.Settles (d.flag (R.DEF_EVENT e) k) := by
  refine ⟨fun r _ _ h => ?_, fun j n hn => ?_, fun j n hj => ?_, fun _ _ _ => rfl, fun _ => rfl⟩
  · simp only [RegId.ofDefects, List.contains_cons, Bool.or_eq_false_iff, beq_eq_false_iff_ne] at h
    exact Chip.rd_wr_other d _ (RegId.key_ne_of_off h.2.1)
  · exact Chip.rb_wr_other d _ n (RegId.key_ne_of_offs (by decide))
  · exact Chip.rb_flag_eng_of_set d hk hj

theorem Chip.settles_defSummary (e : Nat) : d.Settles (d.defSummary e) := by
  have h24 := Chip.settles_sbit d e (d.sfNow e) (k := 24) (by decide) (by decide)
  have h25 := Chip.settles_sbit (d.sbit (R.DEF_STATUS e) 24 (d.sfNow e)) e (d.sdNow e) (k := 25) (by decide) (by decide)
  exact (h24.trans h25).trans ((Chip.Settles.of_blind fun f K => K.apsEngine _ e).trans
    (Chip.Settles.of_blind fun f K => K.engLevels _ e d.dt))

/-! ## A defect of a line -/

/-- The marks of a line defect's change: its status and event bits. -/
def Chip.lineMark (e n : Nat) (on : Bool) : Chip := (d.sbit (R.DEF_STATUS e) n on).flag (R.DEF_EVENT e) n

variable {d} {e n : Nat} {on : Bool}

theorem Chip.defUp_line (hn : n < 24) : d.defUp (.line e n) = d.rb (R.DEF_STATUS e) n :=
  if_pos (by omega)

theorem Chip.defFlip_same {k : DKey} (h : d.defUp k = on) : d.defFlip k on = d := if_pos h

theorem Chip.settles_setDefT (d : Chip) (k : DKey) (z : DefT) : d.Settles (d.setDefT k z) :=
  ⟨fun _ _ _ _ => rfl, fun _ _ _ => rfl, fun _ _ => id, fun _ _ _ => rfl, fun _ => rfl⟩

theorem Chip.settles_defFlip_line (hn : n < 24) (h : d.defUp (.line e n) ≠ on) :
    (d.lineMark e n on).Settles (d.defFlip (.line e n) on) := by
  set d0 := d.setDefT (.line e n) { d.defT (.line e n) with flip := some d.core } with hd0
  have h0 : (d.lineMark e n on).Settles (d0.lineMark e n on) :=
    ⟨fun _ _ _ _ => rfl, fun _ _ _ => rfl, fun _ _ => id, fun _ _ _ => rfl, fun _ => rfl⟩
  have heq : d.defFlip (.line e n) on
      = (((d0.lineMark e n on).evt e 0x0500 0xFFFF (n + b2n on * 256) 0).pmNote e).defSummary e := by
    unfold Chip.defFlip
    rw [if_neg h]
    dsimp only
    rw [if_pos (show n < 0x80 by omega), if_pos hn]
    rfl
  rw [heq]
  exact h0.trans ((Chip.Settles.of_blind fun f K => K.evt _ e 0x0500 0xFFFF _ 0).trans
    ((Chip.settles_pmNote _ e).trans (Chip.settles_defSummary _ e)))

theorem Chip.rb_lineMark_same (hn : n < 24) : (d.lineMark e n on).rb (R.DEF_STATUS e) n = on :=
  (Chip.rb_wr_other _ _ n (RegId.key_ne_of_offs (by decide))).trans (Chip.rb_sbit_same d on (by omega))

theorem Chip.rb_lineMark_other (hn : n < 24) {k : Nat} (hk : k ≠ n) :
    (d.lineMark e n on).rb (R.DEF_STATUS e) k = d.rb (R.DEF_STATUS e) k :=
  (Chip.rb_wr_other _ _ k (RegId.key_ne_of_offs (by decide))).trans (Chip.rb_sbit_eng_beside d on (by omega) hk)

theorem Chip.event_lineMark (hn : n < 24) : (d.lineMark e n on).rb (R.DEF_EVENT e) n = true :=
  Chip.rb_flag_same _ _ n (by omega)

/-- A line defect stands as its change has it. -/
theorem Chip.defUp_defFlip_line (hn : n < 24) : (d.defFlip (.line e n) on).defUp (.line e n) = on := by
  by_cases h : d.defUp (.line e n) = on
  · rw [Chip.defFlip_same h, h]
  · rw [Chip.defUp_line hn, (Chip.settles_defFlip_line hn h).status e n hn, Chip.rb_lineMark_same hn]

theorem Chip.defUp_defFlip_line_other (hn : n < 24) {k : Nat} (hk : k < 24) (hne : k ≠ n) :
    (d.defFlip (.line e n) on).defUp (.line e k) = d.defUp (.line e k) := by
  by_cases h : d.defUp (.line e n) = on
  · rw [Chip.defFlip_same h]
  · rw [Chip.defUp_line hk, Chip.defUp_line hk, (Chip.settles_defFlip_line hn h).status e k hk,
      Chip.rb_lineMark_other hn hne]

theorem Chip.mon_defFlip_line (hn : n < 24) (j : Nat) :
    { (d.defFlip (.line e n) on).mon j with pm := [] } = { d.mon j with pm := [] } := by
  by_cases h : d.defUp (.line e n) = on
  · rw [Chip.defFlip_same h]
  · exact (Chip.settles_defFlip_line hn h).mon j

/-! ## A defect of a context -/

variable {t b : Nat}

/-- The set of a context's defects with one declared or cleared. -/
def pathSet (old b : Nat) (on : Bool) : Nat := if on then old ||| 2 ^ b else old - 2 ^ b

theorem testBit_pathSet {old : Nat} (h : old.testBit b ≠ on) (j : Nat) :
    (pathSet old b on).testBit j = if j = b then on else old.testBit j := by
  unfold pathSet
  cases on
  · rw [if_neg (by simp), testBit_sub_two_pow (by simpa using h)]
    by_cases hj : j = b <;> simp [hj]
  · rw [if_pos rfl, testBit_or_two_pow]
    by_cases hj : j = b <;> simp [hj]

/-- The marks of a change of a context's defect. -/
def Chip.pathMark (d : Chip) (t b : Nat) (on : Bool) : Chip :=
  ({ d with paths := SMap.put 0 d.paths t (pathSet (d.pathBits t) b on) } : Chip).flag (R.DEF_EVENT (d.ctxOwner t)) 27

theorem Chip.settles_defFlip_path (h : d.defUp (.path t b) ≠ on) :
    (d.pathMark t b on).Settles (d.defFlip (.path t b) on) := by
  set d0 := d.setDefT (.path t b) { d.defT (.path t b) with flip := some d.core } with hd0
  set d3 := ((d0.pathMark t b on).evt (d.ctxOwner t) 0x0500 t (0x40 + b + b2n on * 256) 0).pmNote (d.ctxOwner t) with hd3
  have h0 : (d.pathMark t b on).Settles (d0.pathMark t b on) :=
    ⟨fun _ _ _ _ => rfl, fun _ _ _ => rfl, fun _ _ => id, fun _ _ _ => rfl, fun _ => rfl⟩
  have h3 : (d.pathMark t b on).Settles d3 :=
    h0.trans ((Chip.Settles.of_blind fun f K => K.evt _ _ 0x0500 t _ 0).trans (Chip.settles_pmNote _ _))
  have heq : d.defFlip (.path t b) on = if on then d3.raiseEng (d.ctxOwner t) 11 d3.dt else d3 := by
    unfold Chip.defFlip
    rw [if_neg h]
    rfl
  rw [heq]
  split
  · exact h3.trans (Chip.Settles.of_blind fun f K => K.raiseEng d3 _ 11 d3.dt _)
  · exact h3

theorem Chip.pathBits_pathMark_same : (d.pathMark t b on).pathBits t = pathSet (d.pathBits t) b on :=
  SMap.get_put_same _ _ _ _

theorem Chip.pathBits_pathMark_other {u : Nat} (hu : u ≠ t) : (d.pathMark t b on).pathBits u = d.pathBits u :=
  SMap.get_put_other _ _ _ _ hu

/-- A change of a defect that follows the parent leaves the other defects of every context. -/
theorem Chip.settles_pathMark (hb : b ∈ parentDefects) (h : d.defUp (.path t b) ≠ on) : d.Settles (d.pathMark t b on) := by
  have hev := Chip.settles_event { d with paths := SMap.put 0 d.paths t (pathSet (d.pathBits t) b on) } (d.ctxOwner t) (k := 27)
    (by decide)
  refine ⟨hev.reg, hev.status, hev.event, fun u j hj => ?_, hev.mon⟩
  by_cases hu : u = t
  · rw [hu, Chip.pathBits_pathMark_same, testBit_pathSet h, if_neg (fun he : j = b => hj (he ▸ hb))]
  · rw [Chip.pathBits_pathMark_other hu]

theorem Chip.settles_defFlip_parent (hb : b ∈ parentDefects) : d.Settles (d.defFlip (.path t b) on) := by
  by_cases h : d.defUp (.path t b) = on
  · rw [Chip.defFlip_same h]
    exact Chip.Settles.refl d
  · exact (Chip.settles_pathMark hb h).trans (Chip.settles_defFlip_path h)

theorem Chip.defUp_defFlip_path (h : d.defUp (.path t b) ≠ on) (hb : b ∉ parentDefects) :
    (d.defFlip (.path t b) on).defUp (.path t b) = on := by
  refine ((Chip.settles_defFlip_path h).path t b hb).trans ?_
  rw [Chip.pathBits_pathMark_same, testBit_pathSet h, if_pos rfl]

theorem Chip.event_defFlip_path (h : d.defUp (.path t b) ≠ on) :
    (d.defFlip (.path t b) on).rb (R.DEF_EVENT (d.ctxOwner t)) 27 = true :=
  (Chip.settles_defFlip_path h).event _ 27 (Chip.rb_flag_same _ _ 27 (by decide))

/-- A change of any defect writes the defects' own registers, and what protection and capture write. -/
theorem Chip.rd_defFlip (k : DKey) {r : RegId} (h1 : r.ofCapture = false) (h2 : r.ofSwitching = false)
    (h3 : r.ofDefects = false) : (d.defFlip k on).rd r = d.rd r := by
  have K := Chip.blindToProtection_rd h1 h2
  have hsum (x : Chip) (e : Nat) : (x.defSummary e).rd r = x.rd r := (Chip.settles_defSummary x e).reg r h1 h2 h3
  simp only [RegId.ofDefects, List.contains_cons, List.contains_nil, Bool.or_false, Bool.or_eq_false_iff,
    beq_eq_false_iff_ne] at h3
  obtain ⟨hs, he, ht⟩ := h3
  have hstatus (x : Chip) (e n : Nat) : (x.sbit (R.DEF_STATUS e) n on).rd r = x.rd r := Chip.rd_wr_other x _ (RegId.key_ne_of_off hs)
  have htcm (x : Chip) (e n : Nat) : (x.sbit (R.DEF_TCM e) n on).rd r = x.rd r := Chip.rd_wr_other x _ (RegId.key_ne_of_off ht)
  have hevent (x : Chip) (e n : Nat) : (x.flag (R.DEF_EVENT e) n).rd r = x.rd r := Chip.rd_wr_other x _ (RegId.key_ne_of_off he)
  have hnote (x : Chip) (e : Nat) : (x.pmNote e).rd r = x.rd r := rfl
  have htime (x : Chip) (z : DefT) : (x.setDefT k z).rd r = x.rd r := rfl
  have hpaths (x : Chip) (m : SMap Nat) : ({ x with paths := m } : Chip).rd r = x.rd r := rfl
  have hevt (x : Chip) (src code ctx det ext : Nat) : (x.evt src code ctx det ext).rd r = x.rd r := K.evt x src code ctx det ext
  have hraise (x : Chip) (e s t : Nat) (b : Bool) : (x.raiseEng e s t b).rd r = x.rd r := K.raiseEng x e s t b
  grind [Chip.defFlip]

/-! ## The contexts against their parents -/

theorem Chip.settles_defCrit_parent (c : Option Bool) (hb : b ∈ parentDefects) : d.Settles (d.defCrit (.path t b) c) := by
  unfold Chip.defCrit
  extract_lets z d1
  split
  · exact Chip.Settles.refl d
  · split
    · split
      · exact (Chip.settles_setDefT d _ _).trans (Chip.settles_defFlip_parent hb)
      · exact Chip.settles_setDefT d _ _
    · exact Chip.settles_setDefT d _ _

theorem Chip.settles_ctxSync (d : Chip) (t : Nat) : d.Settles (d.ctxSync t) := by
  unfold Chip.ctxSync
  extract_lets st d1
  have h1 : d.Settles d1 := by
    unfold d1
    split
    · exact (Chip.settles_defCrit_parent _ (by decide)).trans (Chip.settles_defCrit_parent _ (by decide))
    · exact Chip.Settles.refl d
  exact h1.trans ((Chip.settles_defCrit_parent _ (by decide)).trans (Chip.settles_defCrit_parent _ (by decide)))

theorem Chip.settles_parentStep (d : Chip) (t : Nat) : d.Settles (d.parentStep t) := by
  have hset (c : Ctx) : d.Settles ((d.setCtx t c).ctxSync t) :=
    (⟨fun _ _ _ _ => rfl, fun _ _ _ => rfl, fun _ _ => id, fun _ _ _ => rfl, fun _ => rfl⟩ : d.Settles (d.setCtx t c)).trans
      (Chip.settles_ctxSync _ t)
  unfold Chip.parentStep
  extract_lets x
  split
  · exact Chip.Settles.refl d
  · split
    · split
      · exact Chip.Settles.refl d
      · exact hset _
    · split
      · exact hset _
      · exact Chip.Settles.refl d

theorem Chip.settles_parents (d : Chip) (e : Nat) : d.Settles (d.parents e) := by
  unfold Chip.parents
  split
  · exact Chip.Settles.foldl (fun c _ => Chip.Settles.foldl Chip.settles_parentStep _ c) _ d
  · exact Chip.Settles.refl d

end Steps

end Sys2Proof.Machine
end

section
set_option Elab.async false

/-! # Integration of defects (R123, R124, R346) -/

namespace Sys2Proof.Machine

/-! ## The expiry of a criterion's time -/

/-- The defect `b` of a context or of a line. -/
def defKey (path : Bool) (n b : Nat) : DKey := if path then .path n b else .line n b

/-- A defect that does not follow the state of a parent. -/
def defOwn (path : Bool) (b : Nat) : Prop := path = false ∨ b ∉ parentDefects

/-- In `y` the event flag of the defect is set; the owner of a context is that of `d`. -/
def Chip.defEvented (d y : Chip) (path : Bool) (n b : Nat) : Prop :=
  if path then y.rb (R.DEF_EVENT (d.ctxOwner n)) 27 = true else y.rb (R.DEF_EVENT n) b = true

section Expiry

variable {d : Chip} {k : DKey} {path on : Bool} {n b : Nat}

theorem Chip.defExpire_due (he : d.defEval k = true) (hc : (d.defT k).crit = some on) (hu : d.defUp k ≠ on)
    (ht : (d.defT k).since + d.defTime k on ≤ d.core) : d.defExpire k on = d.defFlip k on :=
  if_pos ⟨he, hc, hu, ht⟩

theorem Chip.defExpire_same
    (h : d.defEval k = false ∨ (d.defT k).crit ≠ some on ∨ d.core < (d.defT k).since + d.defTime k on) :
    d.defExpire k on = d := by
  refine if_neg fun ⟨he, hc, _, ht⟩ => ?_
  obtain h | h | h := h
  · exact absurd (he.symm.trans h) (by decide)
  · exact h hc
  · exact absurd ht (Nat.not_le.2 h)

theorem Chip.defectTimer_own (hn : n < if path then 16384 else 136) :
    d.defectTimer path n b on = (d.defExpire (defKey path n b) on).defSettle (defKey path n b) := by
  cases path
  · have hlt : ¬ 136 ≤ n := Nat.not_le.2 hn
    exact if_neg hlt
  · rfl

/-- What is held against its parent afterwards leaves the defect. -/
theorem Chip.defUp_defSettle (hb : b < 24) (ho : defOwn path b) :
    (d.defSettle (defKey path n b)).defUp (defKey path n b) = d.defUp (defKey path n b) := by
  cases path
  · exact (Chip.defUp_line hb).trans (((Chip.settles_parents d n).status n b hb).trans (Chip.defUp_line hb).symm)
  · exact (Chip.settles_parents d (d.ctxOwner n)).path n b (ho.resolve_left (by decide))

theorem Chip.defUp_defFlip (hb : b < 24) (ho : defOwn path b) (h : d.defUp (defKey path n b) ≠ on) :
    (d.defFlip (defKey path n b) on).defUp (defKey path n b) = on := by
  cases path
  · exact Chip.defUp_defFlip_line hb
  · exact Chip.defUp_defFlip_path h (ho.resolve_left (by decide))

theorem Chip.defEvented_defFlip (hb : b < 24) (h : d.defUp (defKey path n b) ≠ on) :
    d.defEvented ((d.defFlip (defKey path n b) on).defSettle (defKey path n b)) path n b := by
  cases path
  · refine (Chip.settles_parents _ n).event n b ?_
    exact (Chip.settles_defFlip_line hb h).event n b (Chip.event_lineMark hb)
  · exact (Chip.settles_parents _ _).event _ 27 (Chip.event_defFlip_path h)

end Expiry

/-! ## Defects that the bridge reports -/

/-- A list of engines with one in it or not. -/
def putEngine (l : List Nat) (e : Nat) (on : Bool) : List Nat := if on then e :: l.filter (· ≠ e) else l.filter (· ≠ e)

theorem mem_putEngine (l : List Nat) (e : Nat) : e ∈ putEngine l e true := List.mem_cons_self

theorem not_mem_putEngine (l : List Nat) (e : Nat) : e ∉ putEngine l e false := fun h => by
  simp [putEngine] at h

section Remote

variable {d : Chip} {e : Nat} (on : Bool)

theorem Chip.defectTimer_remote (he : 136 ≤ e) (b : Nat) : d.defectTimer false e b on = d.remoteDefect e b on := if_pos he

theorem Chip.remoteDefect_apart (h2 : d.tdmSt ≠ 2) (h3 : d.tdmSt ≠ 3) (b : Nat) : d.remoteDefect e b on = d :=
  if_pos fun h => h.elim h2 h3

variable (hj : d.tdmSt = 2 ∨ d.tdmSt = 3)

include hj

theorem Chip.remoteDefect_sf : (d.remoteDefect e 24 on).tdm.sf = putEngine d.tdm.sf e on := by
  unfold Chip.remoteDefect
  rw [if_neg (not_not_intro hj)]
  exact congrArg Tdm.sf (Chip.blindToProtection_tdm.apsEngine _ e)

theorem Chip.remoteDefect_sd : (d.remoteDefect e 25 on).tdm.sd = putEngine d.tdm.sd e on := by
  unfold Chip.remoteDefect
  rw [if_neg (not_not_intro hj)]
  exact congrArg Tdm.sd (Chip.blindToProtection_tdm.apsEngine _ e)

end Remote

/-! ## The commands -/

theorem exec_defectSetExpiry (path : Bool) (n b : Nat) (s : State) : exec (.defectSetExpiry path n b) s
    = command (defectOk path n) false (fun x => x.on (fun d => d.defectTimer path n b true)) s := rfl

theorem exec_defectClrExpiry (path : Bool) (n b : Nat) (s : State) : exec (.defectClrExpiry path n b) s
    = command (defectOk path n) false (fun x => x.on (fun d => d.defectTimer path n b false)) s := rfl

theorem exec_integTimeConfig (sess e : Nat) (path : Bool) (w : Word) (s : State) : exec (.integTimeConfig sess e path w) s
    = command (engineOk e) false (fun x =>
        x.hostWrite sess ⟨.eng, e, if path then 0x2EC else 0x2E8⟩ w) s := by
  cases path <;> rfl

section Commands

variable (q : List Instr) {x : Dev} (hx : x.live)

section Expiry

variable {path on : Bool} {n b : Nat} {i : Instr} (hn : n < if path then 16384 else 136)
  (hi : exec i ⟨q, x⟩ = command (defectOk path n) false (fun x => x.on (fun d => d.defectTimer path n b on)) ⟨q, x⟩)

theorem defectOk_own (hn : n < if path then 16384 else 136) : defectOk path n = true := by
  cases path
  · exact decide_eq_true (Nat.lt_trans hn (by decide))
  · exact decide_eq_true hn

include hx hn hi

theorem does_defExpiry_due (hb : b < 24) (he : x.chip.defEval (defKey path n b) = true)
    (hc : (x.chip.defT (defKey path n b)).crit = some on) (hu : x.chip.defUp (defKey path n b) ≠ on)
    (ht : (x.chip.defT (defKey path n b)).since + x.chip.defTime (defKey path n b) on ≤ x.chip.core) :
    Does i ⟨q, x⟩ (fun y => (defOwn path b → y.chip.defUp (defKey path n b) = on)
      ∧ x.chip.defEvented y.chip path n b ∧ x.sameMem y) := by
  have hexp : x.cleared.chip.defExpire (defKey path n b) on = _ := Chip.defExpire_due he hc hu ht
  refine does_on hi (defectOk_own hn) hx ((Chip.defectTimer_own hn).trans (congrArg (Chip.defSettle · _) hexp))
    ⟨fun ho => ?_, ?_, x.sameMem_mk _⟩
  · exact (Chip.defUp_defSettle hb ho).trans (Chip.defUp_defFlip hb ho hu)
  · exact Chip.defEvented_defFlip (d := x.cleared.chip) hb hu

theorem does_defExpiry_early (hb : b < 24) (ho : defOwn path b)
    (h : x.chip.defEval (defKey path n b) = false ∨ (x.chip.defT (defKey path n b)).crit ≠ some on
      ∨ x.chip.core < (x.chip.defT (defKey path n b)).since + x.chip.defTime (defKey path n b) on) :
    Does i ⟨q, x⟩ (fun y => y.chip.defUp (defKey path n b) = x.chip.defUp (defKey path n b) ∧ x.sameMem y) := by
  have hexp : x.cleared.chip.defExpire (defKey path n b) on = _ := Chip.defExpire_same h
  exact does_on hi (defectOk_own hn) hx ((Chip.defectTimer_own hn).trans (congrArg (Chip.defSettle · _) hexp))
    ⟨Chip.defUp_defSettle hb ho, x.sameMem_mk _⟩

end Expiry

section Remote

variable {e : Nat} (he : 136 ≤ e) (he' : e < 272)

include hx he he'

theorem does_defExpiry_remote (hj : x.chip.tdmSt = 2 ∨ x.chip.tdmSt = 3) :
    Does (.defectSetExpiry false e 24) ⟨q, x⟩ (fun y => e ∈ y.chip.tdm.sf ∧ x.sameMem y)
    ∧ Does (.defectClrExpiry false e 24) ⟨q, x⟩ (fun y => e ∉ y.chip.tdm.sf ∧ x.sameMem y)
    ∧ Does (.defectSetExpiry false e 25) ⟨q, x⟩ (fun y => e ∈ y.chip.tdm.sd ∧ x.sameMem y)
    ∧ Does (.defectClrExpiry false e 25) ⟨q, x⟩ (fun y => e ∉ y.chip.tdm.sd ∧ x.sameMem y) := by
  have hok : defectOk false e = true := decide_eq_true he'
  have hsf (on : Bool) : (x.cleared.chip.remoteDefect e 24 on).tdm.sf = putEngine x.chip.tdm.sf e on :=
    Chip.remoteDefect_sf (d := x.cleared.chip) on hj
  have hsd (on : Bool) : (x.cleared.chip.remoteDefect e 25 on).tdm.sd = putEngine x.chip.tdm.sd e on :=
    Chip.remoteDefect_sd (d := x.cleared.chip) on hj
  refine ⟨?_, ?_, ?_, ?_⟩
  · refine does_on (exec_defectSetExpiry false e 24 ⟨q, x⟩) hok hx (Chip.defectTimer_remote true he 24) ⟨?_, x.sameMem_mk _⟩
    exact (hsf true).symm ▸ mem_putEngine _ e
  · refine does_on (exec_defectClrExpiry false e 24 ⟨q, x⟩) hok hx (Chip.defectTimer_remote false he 24) ⟨?_, x.sameMem_mk _⟩
    exact (hsf false).symm ▸ not_mem_putEngine _ e
  · refine does_on (exec_defectSetExpiry false e 25 ⟨q, x⟩) hok hx (Chip.defectTimer_remote true he 25) ⟨?_, x.sameMem_mk _⟩
    exact (hsd true).symm ▸ mem_putEngine _ e
  · refine does_on (exec_defectClrExpiry false e 25 ⟨q, x⟩) hok hx (Chip.defectTimer_remote false he 25) ⟨?_, x.sameMem_mk _⟩
    exact (hsd false).symm ▸ not_mem_putEngine _ e

omit hx in
theorem does_defExpiry_apart (h2 : x.chip.tdmSt ≠ 2) (h3 : x.chip.tdmSt ≠ 3) (b : Nat) :
    Does (.defectSetExpiry false e b) ⟨q, x⟩ x.idle ∧ Does (.defectClrExpiry false e b) ⟨q, x⟩ x.idle := by
  have hok : defectOk false e = true := decide_eq_true he'
  have hsame (on : Bool) : x.cleared.chip.defectTimer false e b on = x.cleared.chip :=
    (Chip.defectTimer_remote on he b).trans (Chip.remoteDefect_apart (d := x.cleared.chip) on h2 h3 b)
  exact ⟨does_idle (exec_defectSetExpiry false e b ⟨q, x⟩) hok (hsame true),
    does_idle (exec_defectClrExpiry false e b ⟨q, x⟩) hok (hsame false)⟩

end Remote

/-! ## The integration times -/

/-- The word that a write of the integration times stores. -/
def integWord (w : Word) : Word := fixField 0 10000 (fixField 0 10000 w 13 0) 29 16

theorem fld_integWord (w : Word) :
    fld (integWord w) 13 0 = min 10000 (fld w 13 0) ∧ fld (integWord w) 29 16 = min 10000 (fld w 29 16) := by
  have hlow : fld (integWord w) 13 0 = fld (fixField 0 10000 w 13 0) 13 0 :=
    fld_setFld_other _ _ (by decide) (by decide) (by decide)
  have hhigh : fld (fixField 0 10000 w 13 0) 29 16 = fld w 29 16 :=
    fld_setFld_other _ _ (by decide) (by decide) (by decide)
  refine ⟨?_, ?_⟩
  · rw [hlow, fld_fixField 0 10000 w (by decide) (by decide) (by decide) (by decide), Nat.zero_max]
  · rw [integWord, fld_fixField 0 10000 _ (by decide) (by decide) (by decide) (by decide), Nat.zero_max, hhigh]

include hx

theorem does_integTimeConfig {sess e : Nat} {path : Bool} {w : Word} (he : e < 136) (hb : x.chip.subBusy e = false)
    (ha : x.allows sess ⟨.eng, e, if path then 0x2EC else 0x2E8⟩ w) :
    Does (.integTimeConfig sess e path w) ⟨q, x⟩ (fun y => y.answered .ok ∧ x.only y
      ∧ y.chip.rf ⟨.eng, e, if path then 0x2EC else 0x2E8⟩ 13 0 = min 10000 (fld w 13 0)
      ∧ y.chip.rf ⟨.eng, e, if path then 0x2EC else 0x2E8⟩ 29 16 = min 10000 (fld w 29 16)) := by
  set o := if path then 0x2EC else 0x2E8 with hoff
  have ho : o < 2 ^ 12 := by
    rw [hoff]
    cases path <;> decide
  set c := x.cleared.chip.store ⟨.eng, e, o⟩ (integWord w) with hc
  have hrow : ∃ row, (RegId.mk .eng e o).row = some row ∧ row.rw ||| row.ot = 0x3FFF3FFF := by
    rw [hoff]
    cases path
    · exact ⟨_, rfl, rfl⟩
    · exact ⟨_, rfl, rfl⟩
  have hwr : x.cleared.writeEng e ⟨.eng, e, o⟩ (x.cleared.chip.reach ⟨.eng, e, o⟩) w = (.ok, ⟨c, x.mem⟩) := by
    rw [hc, hoff]
    cases path <;> rfl
  obtain ⟨row, hrow, hmask⟩ := hrow
  have hf {hi lo : Nat} (hk : ∀ i < 32, lo ≤ i → i ≤ hi → bit (w32 0x3FFF3FFF) i = true) (hlt : hi < 32) :
      ((c.mirror e).answer .ok).rf ⟨.eng, e, o⟩ hi lo = fld (integWord w) hi lo :=
    (congrArg (fld · hi lo) (Chip.rd_mirror_answer c .ok ho)).trans (Chip.rf_store (integWord w) hrow (by rwa [hmask]) hlt)
  obtain ⟨hset, hclr⟩ := fld_integWord w
  refine does_hostWrite_eng q hx (exec_integTimeConfig sess e path w ⟨q, x⟩) (decide_eq_true he) ha hb
    (by rw [hrow]; rfl) hwr ?_
  rw [if_pos rfl]
  refine ⟨Dev.only_of_eq ?_, (hf (by decide) (by decide)).trans hset, (hf (by decide) (by decide)).trans hclr⟩
  exact (Chip.mirror_answer_besides c .ok x.chip).trans (Chip.store_besides x.cleared.chip _ _ x.chip)

end Commands

/-- Settles O20: what follows a defect's change leaves the defect itself, and the states that parents bring change only
the four bits that follow them. -/
theorem defectIntegration : Obligations.DefectIntegration := by
  intro q x hx
  refine ⟨fun path n b hb hn => ?_, fun e he he' => ⟨fun hj => does_defExpiry_remote q hx he he' hj,
    fun h2 h3 b => does_defExpiry_apart q he he' h2 h3 b⟩, fun sess e w path he hsub => ?_⟩
  · intro k own event
    refine ⟨fun hev hc hu ht => ?_, fun hev hc hu ht => ?_, fun ho h => ?_, fun ho h => ?_⟩
    · exact does_defExpiry_due q hx hn (exec_defectSetExpiry path n b ⟨q, x⟩) hb hev hc (ne_true_of_eq_false hu) ht
    · exact does_defExpiry_due q hx hn (exec_defectClrExpiry path n b ⟨q, x⟩) hb hev hc (ne_false_of_eq_true hu) ht
    · exact does_defExpiry_early q hx hn (exec_defectSetExpiry path n b ⟨q, x⟩) hb ho h
    · exact does_defExpiry_early q hx hn (exec_defectClrExpiry path n b ⟨q, x⟩) hb ho h
  · intro r ha
    have hr : r = ⟨.eng, e, if path then 0x2EC else 0x2E8⟩ := by
      unfold r
      cases path <;> rfl
    rw [hr] at ha ⊢
    exact does_integTimeConfig q hx he hsub ha

end Sys2Proof.Machine
end

section
set_option Elab.async false

/-! # Bit-error windows and performance seconds (R131, R135-R137) -/

namespace Sys2Proof.Machine

/-! ## The ends of windows (R131) -/

theorem winDef_lt {layer : Nat} (h : layer < 2) (sd : Bool) : winDef layer sd < 24 := by
  unfold winDef
  cases sd <;> simp [b2n] <;> omega

theorem winDef_ne (layer : Nat) : winDef layer false ≠ winDef layer true := by
  unfold winDef
  simp [b2n]

theorem DefMon.win_setWin (m : DefMon) (sd : Bool) (w : Win) : (m.setWin sd w).win sd = w := by
  cases sd <;> rfl

theorem DefMon.layer_setWin (m : DefMon) (sd : Bool) (w : Win) : (m.setWin sd w).layer = m.layer := by
  cases sd <;> rfl

/-- Monitors that agree but for the performance layers have the same windows. -/
theorem DefMon.win_congr {m z : DefMon} (h : { m with pm := [] } = { z with pm := [] }) (sd : Bool) : m.win sd = z.win sd := by
  have hw := congrArg (fun y : DefMon => y.win sd) h
  exact hw

theorem DefMon.layer_congr {m z : DefMon} (h : { m with pm := [] } = { z with pm := [] }) : m.layer = z.layer := by
  have hl := congrArg DefMon.layer h
  exact hl

section Windows

variable {d : Chip} {e : Nat} {sd : Bool}

/-- The window has ended: it starts empty, with `below` windows in a row below CLR. -/
def Chip.winEmpty (d : Chip) (e : Nat) (sd : Bool) (below : Nat) : Chip :=
  d.setMon e ((d.mon e).setWin sd { Win.init with below := below })

theorem Chip.mon_winEmpty (below : Nat) :
    (d.winEmpty e sd below).mon e = (d.mon e).setWin sd { Win.init with below := below } :=
  Chip.mon_setMon_same d e _

theorem Chip.winEnd_idle (h : d.engEn e = false ∨ ((d.mon e).win sd).window = 0
    ∨ ((d.mon e).win sd).frames < ((d.mon e).win sd).window) : d.winEnd e sd = d := by
  refine if_pos ?_
  obtain h | h | h := h
  · exact .inr (.inr (by simp [h]))
  · exact .inl h
  · exact .inr (.inl h)

/-- A window that is judged ends empty, and its defect may change. -/
theorem Chip.winEnd_judged (he : d.engEn e = true) (hw : ((d.mon e).win sd).window ≠ 0)
    (hf : ((d.mon e).win sd).window ≤ ((d.mon e).win sd).frames) :
    let k := DKey.line e (winDef (d.mon e).layer sd)
    let w := (d.mon e).win sd
    ∃ below z, d.winEnd e sd = (if sd then z else z.layerChange e)
      ∧ (z = d.winEmpty e sd below ∨ ∃ on, z = (d.winEmpty e sd below).defFlip k on)
      ∧ (w.set ≠ 0 → w.set ≤ w.errs → below = 0 ∧ z = (d.winEmpty e sd below).defFlip k true)
      ∧ ((w.set = 0 ∨ w.errs < w.set) → w.errs < w.clr → max 1 (d.winCfg e sd).2.2.2 ≤ w.below + 1 →
          below = w.below + 1 ∧ z = (d.winEmpty e sd below).defFlip k false) := by
  intro k w
  have hn : ¬ (w.window = 0 ∨ w.frames < w.window ∨ ¬ d.engEn e = true) := by
    simp only [not_or]
    exact ⟨hw, Nat.not_lt.2 hf, not_not_intro he⟩
  unfold Chip.winEnd
  extract_lets m w' k' hit below clrW empty d1 d2
  refine ⟨below, d2, if_neg hn, ?_, fun h0 hle => ?_, fun hno hlt hcw => ?_⟩
  · unfold d2
    split
    · exact .inr ⟨true, rfl⟩
    · split
      · exact .inr ⟨false, rfl⟩
      · exact .inl rfl
  · have hhit : hit = true := decide_eq_true ⟨h0, hle⟩
    exact ⟨if_pos hhit, if_pos hhit⟩
  · have hhit : ¬ hit = true := fun h => by
      obtain ⟨h1, h2⟩ := of_decide_eq_true h
      exact hno.elim h1 (fun h3 => absurd h2 (Nat.not_le.2 h3))
    have hbelow : below = w.below + 1 := (if_neg hhit).trans (if_pos hlt)
    exact ⟨hbelow, (if_neg hhit).trans (if_pos (hbelow ▸ hcw))⟩

variable (hl : (d.mon e).layer < 2)

include hl

/-- What a judged window leaves of the monitor and of LAYER's register. -/
theorem Chip.judged_keeps {z : Chip} {below : Nat}
    (hz : z = d.winEmpty e sd below ∨ ∃ on, z = (d.winEmpty e sd below).defFlip (.line e (winDef (d.mon e).layer sd)) on) :
    (z.mon e).win sd = { Win.init with below := below } ∧ (z.mon e).layer = (d.mon e).layer
      ∧ z.rf (R.DEF_SF_WIN e) 20 20 = d.rf (R.DEF_SF_WIN e) 20 20 := by
  have hmon : { z.mon e with pm := [] } = { (d.winEmpty e sd below).mon e with pm := [] } := by
    obtain rfl | ⟨on, rfl⟩ := hz
    · rfl
    · exact Chip.mon_defFlip_line (winDef_lt hl sd) e
  rw [Chip.mon_winEmpty] at hmon
  refine ⟨(DefMon.win_congr hmon sd).trans (DefMon.win_setWin _ sd _),
    (DefMon.layer_congr hmon).trans (DefMon.layer_setWin _ sd _), ?_⟩
  obtain rfl | ⟨on, rfl⟩ := hz
  · rfl
  · exact congrArg (fld · 20 20) (Chip.rd_defFlip _ rfl rfl rfl)

omit hl in
theorem Chip.layerChange_same (h : d.rf (R.DEF_SF_WIN e) 20 20 = (d.mon e).layer) : d.layerChange e = d := if_pos h.symm

omit hl in
theorem Chip.defUp_setMon (d : Chip) (e : Nat) (m : DefMon) (k : DKey) : (d.setMon e m).defUp k = d.defUp k := by
  cases k <;> rfl

theorem Chip.layerChange_new (h : d.rf (R.DEF_SF_WIN e) 20 20 ≠ (d.mon e).layer) :
    ((d.layerChange e).mon e).layer = d.rf (R.DEF_SF_WIN e) 20 20 ∧ ((d.layerChange e).mon e).sf = Win.init
      ∧ ((d.layerChange e).mon e).sd = Win.init
      ∧ ∀ b : Bool, (d.layerChange e).defUp (.line e (winDef (d.mon e).layer b)) = false := by
  unfold Chip.layerChange
  extract_lets m new d1
  rw [if_neg (Ne.symm h), Chip.mon_setMon_same]
  refine ⟨rfl, rfl, rfl, fun b => ?_⟩
  rw [Chip.defUp_setMon]
  cases b
  · exact (Chip.defUp_defFlip_line_other (winDef_lt hl true) (winDef_lt hl false) (winDef_ne _)).trans
      (Chip.defUp_defFlip_line (winDef_lt hl false))
  · exact Chip.defUp_defFlip_line (winDef_lt hl true)

end Windows

/-! ## Writes of the windows (R131) -/

theorem winReg_eq {e k : Nat} (hk : k < 6) : winReg e k = ⟨.eng, e, 0x2FC + 4 * k⟩ := by
  match k, hk with
  | 0, _ | 1, _ | 2, _ | 3, _ | 4, _ | 5, _ => rfl

section Write

variable {d : Chip} {e : Nat} {sd : Bool}

theorem Chip.rd_layerChange {r : RegId} (h1 : r.ofCapture = false) (h2 : r.ofSwitching = false)
    (h3 : r.ofDefects = false) : (d.layerChange e).rd r = d.rd r := by
  unfold Chip.layerChange
  extract_lets m new d1
  split
  · rfl
  · exact (Chip.rd_defFlip _ h1 h2 h3).trans (Chip.rd_defFlip _ h1 h2 h3)

theorem Chip.rd_winWrite {r : RegId} (h1 : r.ofCapture = false) (h2 : r.ofSwitching = false)
    (h3 : r.ofDefects = false) : (d.winWrite e sd).rd r = d.rd r := by
  unfold Chip.winWrite
  extract_lets m d1
  have h : d1.rd r = d.rd r := by
    unfold d1
    split
    · exact Chip.rd_defFlip _ h1 h2 h3
    · rfl
  split
  · exact (Chip.rd_layerChange h1 h2 h3).trans h
  · exact h

/-- WINDOW 0 clears the defect and abandons the window. -/
theorem Chip.winWrite_off (hw : (d.winCfg e sd).1 = 0) (hl : (d.mon e).layer < 2) :
    (d.winWrite e sd).defUp (.line e (winDef (d.mon e).layer sd)) = false ∧ ((d.winWrite e sd).mon e).win sd = Win.init := by
  unfold Chip.winWrite
  extract_lets m d1
  have h1 : d1 = (d.winEmpty e sd 0).defFlip (.line e (winDef (d.mon e).layer sd)) false := if_pos hw
  have hup : d1.defUp (.line e (winDef (d.mon e).layer sd)) = false := by
    rw [h1]
    exact Chip.defUp_defFlip_line (winDef_lt hl sd)
  obtain ⟨hwin, hlay, -⟩ := Chip.judged_keeps hl (.inr ⟨false, h1⟩)
  split
  · next hc =>
    obtain rfl : sd = false := by simpa using hc.1
    by_cases hsame : d1.rf (R.DEF_SF_WIN e) 20 20 = (d1.mon e).layer
    · rw [Chip.layerChange_same hsame]
      exact ⟨hup, hwin⟩
    · obtain ⟨-, hsf, -, hclear⟩ := Chip.layerChange_new (hlay ▸ hl) hsame
      exact ⟨hlay ▸ hclear false, hsf⟩
  · exact ⟨hup, hwin⟩

end Write

/-! ## Seconds (R135, R137) -/

/-- A run over distinct keys of which one touches what `f` shows: `f` sees that step alone. -/
theorem foldl_one {α β γ : Type} [DecidableEq β] (f : α → γ) (g : α → β → α) (j : β) {l : List β} (hn : l.Nodup) (hj : j ∈ l)
    (hg : ∀ x, ∀ b ∈ l, b ≠ j → f (g x b) = f x) (x : α) : ∃ y, f y = f x ∧ f (l.foldl g x) = f (g y j) := by
  induction l generalizing x with
  | nil => exact absurd hj List.not_mem_nil
  | cons b l ih =>
    obtain ⟨hb, hn⟩ := List.nodup_cons.1 hn
    by_cases hbj : b = j
    · subst hbj
      refine ⟨x, rfl, ?_⟩
      have hkeep : ∀ m : List β, m ⊆ l → ∀ y, f (m.foldl g y) = f y := by
        intro m
        induction m with
        | nil => exact fun _ _ => rfl
        | cons c m ihm =>
          intro hm y
          have hc : c ∈ l := hm List.mem_cons_self
          exact (ihm (fun a ha => hm (List.mem_cons_of_mem _ ha)) _).trans
            (hg y c (List.mem_cons_of_mem _ hc) (fun h => hb (h ▸ hc)))
      exact hkeep l (List.Subset.refl l) _
    · obtain ⟨y, hy, hf⟩ := ih hn ((List.mem_cons.1 hj).resolve_left (Ne.symm hbj))
        (fun x c hc => hg x c (List.mem_cons_of_mem _ hc)) (g x b)
      exact ⟨y, hy.trans (hg x b List.mem_cons_self hbj), hf⟩

section Seconds

variable {d : Chip} {e : Nat}

theorem Chip.secondEnd_same (h : d.dt / secTicks = (d.mon e).sec) : d.secondEnd e = d := if_pos h

theorem Chip.mon_secondEnd (h : d.dt / secTicks ≠ (d.mon e).sec) : ((d.secondEnd e).mon e).sec = d.dt / secTicks
    ∧ ((d.secondEnd e).mon e).waits = (d.mon e).waits ++ [(d.mon e).sec] := by
  unfold Chip.secondEnd
  extract_lets m now l1def pm cfg
  rw [if_neg h]
  have hnote (m : DefMon) : ∃ p, ((d.setMon e m).pmNote e).mon e = { m with pm := p } := by
    unfold Chip.pmNote
    rw [Chip.mon_setMon_same, Chip.mon_setMon_same]
    exact ⟨_, rfl⟩
  obtain ⟨p, hp⟩ := hnote { m with pm := pm, sec := now, waits := m.waits ++ [m.sec], pmCfg := cfg, pmCtx := cfg % 2 ^ 14 }
  rw [hp]
  exact ⟨rfl, rfl⟩

theorem Chip.secondCounted_none (h : (d.mon e).waits = []) : d.secondCounted e = d := by
  unfold Chip.secondCounted
  dsimp only
  rw [h]

theorem Chip.secondCounted_early {s : Nat} {rest : List Nat} (h : (d.mon e).waits = s :: rest)
    (ht : d.dt < (s + 11) * secTicks) : d.secondCounted e = d := by
  unfold Chip.secondCounted
  dsimp only
  rw [h]
  exact if_pos ht

theorem Chip.secondCounted_due {s : Nat} {rest : List Nat} (h : (d.mon e).waits = s :: rest)
    (ht : (s + 11) * secTicks ≤ d.dt) : d.secondCounted e
      = ((List.range 4).foldl (fun x l => x.countLayer e l s) (d.setMon e { d.mon e with waits := rest })).sf
          (R.DEF_PM_STATUS e) 31 8 s := by
  unfold Chip.secondCounted
  dsimp only
  rw [h]
  exact if_neg (Nat.not_lt.2 ht)

/-- What a second adds to counter `i` of its layer: ES, SES, BBE and UAS. -/
def PmLayer.adds (p : PmLayer) (s : PmSec) (i : Nat) : Nat :=
  match p.unavailAt, i with
  | true, 3 => 1
  | false, 0 => b2n s.es
  | false, 1 => b2n s.ses
  | false, 2 => if s.ses then 0 else s.bbe
  | _, _ => 0

theorem PmLayer.adds_unavail {p : PmLayer} (h : p.unavailAt = true) (s : PmSec) :
    p.adds s 3 = 1 ∧ p.adds s 0 = 0 ∧ p.adds s 1 = 0 ∧ p.adds s 2 = 0 := by
  simp [PmLayer.adds, h]

theorem PmLayer.adds_avail {p : PmLayer} (h : p.unavailAt = false) (s : PmSec) :
    p.adds s 0 = b2n s.es ∧ p.adds s 1 = b2n s.ses ∧ p.adds s 2 = (if s.ses then 0 else s.bbe) ∧ p.adds s 3 = 0 := by
  simp [PmLayer.adds, h]

/-- The sum that a counter shows after `n` more. -/
def counted (w : Word) (n : Nat) : Nat := min (w.toNat + n) 0xFFFFFFFF

theorem counted_zero (w : Word) : counted w 0 = w.toNat := Nat.min_eq_left (Nat.le_of_lt_succ w.isLt)

theorem Chip.rd_count_pmReg (d : Chip) {l i k : Nat} (n : Nat) (hi : i < 4) (hk : k < 4) :
    ((d.count (pmReg e l i) n).rd (pmReg e l k)).toNat = counted (d.rd (pmReg e l k)) (if k = i then n else 0) := by
  by_cases h : k = i
  · rw [if_pos h, h]
    exact Chip.rd_count_same d _ n
  · rw [if_neg h, counted_zero]
    exact congrArg BitVec.toNat (Chip.rd_count_other d n (RegId.key_ne_of_offs (by omega)))

/-- The counters and the status of one layer, as a second that is counted brings them. -/
def Chip.layerCounts (d : Chip) (e l : Nat) (un : Bool) (s : PmSec) : Chip :=
  (if un then d.count (pmReg e l 3)
    else ((d.count (pmReg e l 0) (b2n s.es)).count (pmReg e l 1) (b2n s.ses)).count (pmReg e l 2) (if s.ses then 0 else s.bbe)).sbit
      (R.DEF_PM_STATUS e) l un

theorem Chip.countLayer_due {l sec : Nat} {p : PmLayer} {s : PmSec} {rest : List PmSec} (hp : (d.mon e).pm[l]? = some p)
    (hs : p.pend = s :: rest) (hsec : s.sec = sec) : d.countLayer e l sec
      = (d.setMon e { d.mon e with pm := setAt (d.mon e).pm l { p with pend := rest, unavail := p.unavailAt } }).layerCounts
          e l p.unavailAt s := by
  unfold Chip.countLayer
  rw [hp]
  dsimp only
  rw [hs]
  exact if_neg (not_not_intro hsec)

/-- A layer that has no such second pending is left as it is. -/
theorem Chip.countLayer_cases (d : Chip) (e l sec : Nat) : d.countLayer e l sec = d
    ∨ ∃ p s rest, (d.mon e).pm[l]? = some p ∧ p.pend = s :: rest ∧ s.sec = sec := by
  unfold Chip.countLayer
  split
  · exact .inl rfl
  · next p hp =>
    split
    · exact .inl rfl
    · next s rest hs =>
      by_cases hsec : s.sec = sec
      · exact .inr ⟨p, s, rest, hp, hs, hsec⟩
      · exact .inl (if_pos hsec)

/-- Registers that no counting writes. -/
theorem Chip.rd_layerCounts_other {l : Nat} (un : Bool) (s : PmSec) {r : RegId} (hr : ∀ i < 4, r.key ≠ (pmReg e l i).key)
    (hst : r.key ≠ (R.DEF_PM_STATUS e).key) : (d.layerCounts e l un s).rd r = d.rd r := by
  refine (Chip.rd_wr_other _ _ hst).trans ?_
  cases un
  · exact (Chip.rd_count_other _ _ (hr 2 (by decide))).trans ((Chip.rd_count_other _ _ (hr 1 (by decide))).trans
      (Chip.rd_count_other d _ (hr 0 (by decide))))
  · exact Chip.rd_count_other d 1 (hr 3 (by decide))

theorem Chip.rd_countLayer_same {l sec : Nat} {p : PmLayer} {s : PmSec} {rest : List PmSec} (hl : l < 4)
    (hp : (d.mon e).pm[l]? = some p) (hs : p.pend = s :: rest) (hsec : s.sec = sec) {i : Nat} (hi : i < 4) :
    ((d.countLayer e l sec).rd (pmReg e l i)).toNat = counted (d.rd (pmReg e l i)) (p.adds s i) := by
  rw [Chip.countLayer_due hp hs hsec]
  set z := d.setMon e { d.mon e with pm := setAt (d.mon e).pm l { p with pend := rest, unavail := p.unavailAt } }
  have hz : z.rd (pmReg e l i) = d.rd (pmReg e l i) := rfl
  have hst : (pmReg e l i).key ≠ (R.DEF_PM_STATUS e).key := RegId.key_ne_of_offs (by omega)
  refine (congrArg BitVec.toNat (Chip.rd_wr_other _ _ hst)).trans ?_
  rw [← hz]
  have hsum (a m n : Nat) : min (min (a + m) 0xFFFFFFFF + n) 0xFFFFFFFF = min (a + (m + n)) 0xFFFFFFFF := by omega
  unfold PmLayer.adds
  cases p.unavailAt
  · rw [if_neg (by decide), Chip.rd_count_pmReg _ _ (by decide) hi, counted, Chip.rd_count_pmReg _ _ (by decide) hi, counted,
      Chip.rd_count_pmReg _ _ (by decide) hi, counted, counted, hsum, hsum]
    match i, hi with
    | 0, _ | 1, _ | 2, _ | 3, _ => simp
  · rw [if_pos rfl, Chip.rd_count_pmReg _ _ (by decide) hi, counted, counted]
    match i, hi with
    | 0, _ | 1, _ | 2, _ | 3, _ => simp

theorem Chip.mon_countLayer (d : Chip) (e l sec : Nat) :
    ((d.countLayer e l sec).mon e).waits = (d.mon e).waits
      ∧ ∀ j, j ≠ l → ((d.countLayer e l sec).mon e).pm[j]? = (d.mon e).pm[j]? := by
  obtain h | ⟨p, s, rest, hp, hs, hsec⟩ := Chip.countLayer_cases d e l sec
  · rw [h]
    exact ⟨rfl, fun _ _ => rfl⟩
  · rw [Chip.countLayer_due hp hs hsec]
    have hm (z : Chip) (un : Bool) : (z.layerCounts e l un s).mon e = z.mon e := by
      cases un <;> rfl
    rw [hm, Chip.mon_setMon_same]
    refine ⟨rfl, fun j hj => ?_⟩
    dsimp only
    rw [setAt_eq_set, List.getElem?_set_ne (Ne.symm hj)]

theorem Chip.rd_countLayer_other {l j sec i : Nat} (hl : l < 4) (hj : j < 4) (hne : j ≠ l) (hi : i < 4) :
    (d.countLayer e l sec).rd (pmReg e j i) = d.rd (pmReg e j i) := by
  obtain h | ⟨p, s, rest, hp, hs, hsec⟩ := Chip.countLayer_cases d e l sec
  · rw [h]
  · rw [Chip.countLayer_due hp hs hsec]
    exact Chip.rd_layerCounts_other _ s (fun k hk => RegId.key_ne_of_offs (by omega)) (RegId.key_ne_of_offs (by omega))

/-- What counting a second shows of one layer: its pending seconds and its counters. -/
def Chip.layerShown (d : Chip) (e j : Nat) : Option PmLayer × (Fin 4 → Word) :=
  ((d.mon e).pm[j]?, fun i => d.rd (pmReg e j i))

/-- A second that is due is counted once in each layer that has it pending. -/
theorem Chip.rd_secondCounted {k : Nat} {waits : List Nat} (h : (d.mon e).waits = k :: waits)
    (ht : (k + 11) * secTicks ≤ d.dt) {j : Nat} {p : PmLayer} {s : PmSec} {rest : List PmSec} (hj : j < 4)
    (hp : (d.mon e).pm[j]? = some p) (hs : p.pend = s :: rest) (hsec : s.sec = k) {i : Nat} (hi : i < 4) :
    ((d.secondCounted e).rd (pmReg e j i)).toNat = counted (d.rd (pmReg e j i)) (p.adds s i) := by
  rw [Chip.secondCounted_due h ht]
  set d1 := d.setMon e { d.mon e with waits := waits } with hd1
  have h1 : d1.layerShown e j = d.layerShown e j := by
    unfold Chip.layerShown
    rw [hd1, Chip.mon_setMon_same]
    rfl
  obtain ⟨y, hy, hf⟩ := foldl_one (fun z : Chip => z.layerShown e j) (fun z l => z.countLayer e l k) j
    (List.nodup_range (n := 4)) (List.mem_range.2 hj) (fun z l hl hne => by
      have hl := List.mem_range.1 hl
      exact Prod.ext ((Chip.mon_countLayer z e l k).2 j (Ne.symm hne))
        (funext fun i => Chip.rd_countLayer_other hl hj (Ne.symm hne) i.isLt)) d1
  generalize (List.range 4).foldl (fun z l => z.countLayer e l k) d1 = z at hf ⊢
  obtain ⟨hpm, hreg⟩ := Prod.mk.inj (hy.trans h1)
  have hcount := congrFun (congrArg Prod.snd hf) ⟨i, hi⟩
  refine (congrArg BitVec.toNat (Chip.rd_sf_other _ 31 8 k (RegId.key_ne_of_offs (by omega)))).trans ?_
  refine (congrArg BitVec.toNat hcount).trans ?_
  refine (Chip.rd_countLayer_same hj (hpm.trans hp) hs hsec hi).trans ?_
  exact congrArg (counted · _) (congrFun hreg ⟨i, hi⟩)

theorem Chip.waits_secondCounted {k : Nat} {waits : List Nat} (h : (d.mon e).waits = k :: waits)
    (ht : (k + 11) * secTicks ≤ d.dt) : ((d.secondCounted e).mon e).waits = waits := by
  rw [Chip.secondCounted_due h ht]
  set d1 := d.setMon e { d.mon e with waits := waits } with hd1
  have h1 : (d1.mon e).waits = waits := by rw [hd1, Chip.mon_setMon_same]
  have hfold := foldl_keeps (fun z : Chip => (z.mon e).waits) (fun z l => z.countLayer e l k)
    (fun z l => (Chip.mon_countLayer z e l k).1) (List.range 4) d1
  generalize (List.range 4).foldl (fun z l => z.countLayer e l k) d1 = z at hfold ⊢
  exact hfold.trans h1

theorem Chip.last_secondCounted {k : Nat} {waits : List Nat} (h : (d.mon e).waits = k :: waits)
    (ht : (k + 11) * secTicks ≤ d.dt) (hk : k < 2 ^ 24) : (d.secondCounted e).rf (R.DEF_PM_STATUS e) 31 8 = k := by
  rw [Chip.secondCounted_due h ht, Chip.rf_sf_same _ _ _ _ _ (by decide) (by decide)]
  exact Nat.mod_eq_of_lt hk

end Seconds

/-! ## The commands -/

theorem exec_bipWindowEnd (e : Nat) (sd : Bool) (s : State) : exec (.bipWindowEnd e sd) s
    = command (engineOk e) false (fun x => x.on (fun d => d.winEnd e sd)) s := rfl

theorem exec_sfSdWindowConfig (sess e k : Nat) (w : Word) (s : State) : exec (.sfSdWindowConfig sess e k w) s
    = command (engineOk e) false (fun x => x.hostWrite sess (winReg e k) w) s := rfl

theorem exec_pmSecondEnd (e : Nat) (s : State) : exec (.pmSecondEnd e) s
    = command (engineOk e) false (fun x => x.on (fun d => d.secondEnd e)) s := rfl

theorem exec_pmSecondCounted (e : Nat) (s : State) : exec (.pmSecondCounted e) s
    = command (engineOk e) false (fun x => x.on (fun d => d.secondCounted e)) s := rfl

/-! ### Writes of the windows -/

theorem fld_all (w : Word) : fld w 31 0 = w.toNat := by
  unfold fld
  have := w.isLt
  omega

/-- The six registers: SET and CLR are read-write whole, and WIN up to its CLR_WINDOWS. -/
theorem winReg_row (e : Nat) {k : Nat} (hk : k < 6) : ∃ row, (RegId.mk .eng e (0x2FC + 4 * k)).row = some row
    ∧ (∀ i ≤ 19, bit (w32 (row.rw ||| row.ot)) i = true) ∧ (k % 3 ≠ 0 → ∀ i < 32, bit (w32 (row.rw ||| row.ot)) i = true) := by
  match k, hk with
  | 0, _ | 3, _ => exact ⟨_, rfl, by decide, fun h => absurd rfl h⟩
  | 1, _ | 2, _ | 4, _ | 5, _ => exact ⟨_, rfl, by decide, fun _ => by decide⟩

/-- What a write of one of the six registers stores. -/
theorem Chip.store_win (d : Chip) (e : Nat) {k : Nat} (hk : k < 6) (w : Word) :
    let r : RegId := ⟨.eng, e, 0x2FC + 4 * k⟩
    (k % 3 ≠ 0 → (d.store r w).rd r = w) ∧ (d.store r w).rf r 19 0 = fld w 19 0 ∧ (d.store r w).rf r 15 0 = fld w 15 0 := by
  intro r
  obtain ⟨row, hrow, hlow, hall⟩ := winReg_row e hk
  refine ⟨fun h => ?_, Chip.rf_store w hrow (fun i _ _ hi => hlow i hi) (by decide),
    Chip.rf_store w hrow (fun i _ _ hi => hlow i (by omega)) (by decide)⟩
  have hword := Chip.rf_store (d := d) (hi := 31) (lo := 0) w hrow (fun i hi _ _ => hall h i hi) (by decide)
  rw [fld_all, Chip.rf, fld_all] at hword
  exact BitVec.eq_of_toNat_eq hword

theorem Chip.rd_winWrite_own (d : Chip) (e : Nat) (sd : Bool) {k : Nat} (hk : k < 6) :
    (d.winWrite e sd).rd ⟨.eng, e, 0x2FC + 4 * k⟩ = d.rd ⟨.eng, e, 0x2FC + 4 * k⟩ := by
  match k, hk with
  | 0, _ | 1, _ | 2, _ | 3, _ | 4, _ | 5, _ => exact Chip.rd_winWrite rfl rfl rfl

theorem Chip.store_mon (d : Chip) (t : RegId) (w : Word) (e : Nat) : (d.store t w).mon e = d.mon e := by
  unfold Chip.store
  split
  · rfl
  · rfl

theorem Chip.winCfg_window (d : Chip) (e : Nat) {k : Nat} (hk : k < 6) (h : k % 3 = 0) :
    (d.winCfg e (decide (k = 3))).1 = d.rf ⟨.eng, e, 0x2FC + 4 * k⟩ 15 0 := by
  obtain rfl | rfl : k = 0 ∨ k = 3 := by omega
  · rfl
  · rfl

theorem Chip.mon_mirror_answer (z : Chip) (e k : Nat) (st : Status) : ((z.mirror e).answer st).mon k = z.mon k :=
  congrArg (SMap.get DefMon.init · k) (Chip.mirror_keeps z Chip.mons (fun _ _ _ _ => rfl) e)

/-- A write of one of the six registers stores the word and acts on its window. -/
theorem Dev.writeEng_win (x : Dev) (e : Nat) {k : Nat} (hk : k < 6) (w : Word) :
    x.cleared.writeEng e ⟨.eng, e, 0x2FC + 4 * k⟩ (x.cleared.chip.reach ⟨.eng, e, 0x2FC + 4 * k⟩) w
      = (.ok, ⟨(x.cleared.chip.store ⟨.eng, e, 0x2FC + 4 * k⟩ w).winWrite e (decide (3 ≤ k)), x.mem⟩) := by
  match k, hk with
  | 0, _ | 1, _ | 2, _ | 3, _ | 4, _ | 5, _ => rfl

section Commands

variable (q : List Instr) {x : Dev} {e : Nat} (he : e < 136) (hx : x.live)

include he hx

section WindowEnds

variable {sd : Bool} (hen : x.chip.engEn e = true) (hw : ((x.chip.mon e).win sd).window ≠ 0)
  (hf : ((x.chip.mon e).win sd).window ≤ ((x.chip.mon e).win sd).frames) (hl : (x.chip.mon e).layer < 2)

include hen hw hf hl

/-- A window that ends with its layer kept leaves its defect as it was judged. -/
theorem does_bipWindowEnd (hk : sd = true ∨ x.chip.rf (R.DEF_SF_WIN e) 20 20 = (x.chip.mon e).layer) :
    let k := DKey.line e (winDef (x.chip.mon e).layer sd)
    let w := (x.chip.mon e).win sd
    (w.set ≠ 0 → w.set ≤ w.errs → Does (.bipWindowEnd e sd) ⟨q, x⟩ (fun y => y.chip.defUp k = true
      ∧ (y.chip.mon e).win sd = Win.init ∧ x.sameMem y))
    ∧ ((w.set = 0 ∨ w.errs < w.set) → w.errs < w.clr → max 1 (x.chip.winCfg e sd).2.2.2 ≤ w.below + 1 →
      Does (.bipWindowEnd e sd) ⟨q, x⟩ (fun y => y.chip.defUp k = false
        ∧ (y.chip.mon e).win sd = { Win.init with below := w.below + 1 } ∧ x.sameMem y)) := by
  intro k w
  obtain ⟨below, z, hend, hz, hset, hclr⟩ := Chip.winEnd_judged (d := x.cleared.chip) hen hw hf
  obtain ⟨hwin, hlay, hreg⟩ := Chip.judged_keeps (d := x.cleared.chip) hl hz
  have hsame : x.cleared.chip.winEnd e sd = z := by
    refine hend.trans ?_
    obtain rfl | hk := hk
    · exact if_pos rfl
    · rw [Chip.layerChange_same (hreg.trans (hk.trans hlay.symm)), ite_self]
  have hup (b : Bool) (h : z = (x.cleared.chip.winEmpty e sd below).defFlip k b) : z.defUp k = b := by
    rw [h]
    exact Chip.defUp_defFlip_line (winDef_lt hl sd)
  refine ⟨fun h0 hle => ?_, fun hno hlt hcw => ?_⟩
  · obtain ⟨hb, hflip⟩ := hset h0 hle
    exact does_on (exec_bipWindowEnd e sd ⟨q, x⟩) (decide_eq_true he) hx hsame
      ⟨hup true hflip, hwin.trans (by rw [hb]; rfl), x.sameMem_mk _⟩
  · obtain ⟨hb, hflip⟩ := hclr hno hlt hcw
    exact does_on (exec_bipWindowEnd e sd ⟨q, x⟩) (decide_eq_true he) hx hsame
      ⟨hup false hflip, hwin.trans (by rw [hb]; rfl), x.sameMem_mk _⟩

theorem does_bipWindowEnd_layer (hsd : sd = false) (hk : x.chip.rf (R.DEF_SF_WIN e) 20 20 ≠ (x.chip.mon e).layer) :
    Does (.bipWindowEnd e sd) ⟨q, x⟩ (fun y => (y.chip.mon e).layer = x.chip.rf (R.DEF_SF_WIN e) 20 20
      ∧ (y.chip.mon e).sf = Win.init ∧ (y.chip.mon e).sd = Win.init
      ∧ (∀ b : Bool, y.chip.defUp (.line e (winDef (x.chip.mon e).layer b)) = false) ∧ x.sameMem y) := by
  subst hsd
  obtain ⟨below, z, hend, hz, -, -⟩ := Chip.winEnd_judged (d := x.cleared.chip) hen hw hf
  obtain ⟨-, hlay, hreg⟩ := Chip.judged_keeps (d := x.cleared.chip) hl hz
  have hlay : (z.mon e).layer = (x.chip.mon e).layer := hlay
  have hreg : z.rf (R.DEF_SF_WIN e) 20 20 = x.chip.rf (R.DEF_SF_WIN e) 20 20 := hreg
  obtain ⟨hnew, hsf, hsd, hup⟩ := Chip.layerChange_new (d := z) (e := e) (hlay ▸ hl) (by rwa [hreg, hlay])
  rw [hlay] at hup
  exact does_on (exec_bipWindowEnd e false ⟨q, x⟩) (decide_eq_true he) hx (hend.trans (if_neg (by decide)))
    ⟨hnew.trans hreg, hsf, hsd, hup, x.sameMem_mk _⟩

end WindowEnds

theorem does_pmSecondEnd (h : x.chip.dt / secTicks ≠ (x.chip.mon e).sec) :
    Does (.pmSecondEnd e) ⟨q, x⟩ (fun y => (y.chip.mon e).sec = x.chip.dt / secTicks
      ∧ (y.chip.mon e).waits = (x.chip.mon e).waits ++ [(x.chip.mon e).sec] ∧ x.sameMem y) := by
  obtain ⟨hsec, hwaits⟩ := Chip.mon_secondEnd (d := x.cleared.chip) h
  exact does_on (exec_pmSecondEnd e ⟨q, x⟩) (decide_eq_true he) hx rfl ⟨hsec, hwaits, x.sameMem_mk _⟩

theorem does_pmSecondCounted {k : Nat} {l : List Nat} (h : (x.chip.mon e).waits = k :: l)
    (ht : (k + 11) * secTicks ≤ x.chip.dt) (hk : k < 2 ^ 24) :
    Does (.pmSecondCounted e) ⟨q, x⟩ (fun y => (y.chip.mon e).waits = l ∧ y.chip.rf (R.DEF_PM_STATUS e) 31 8 = k
      ∧ x.sameMem y ∧ ∀ j p s rest, j < 4 → (x.chip.mon e).pm[j]? = some p → p.pend = s :: rest → s.sec = k →
        ∀ i < 4, (y.chip.rd (pmReg e j i)).toNat = counted (x.chip.rd (pmReg e j i)) (p.adds s i)) :=
  does_on (exec_pmSecondCounted e ⟨q, x⟩) (decide_eq_true he) hx rfl
    ⟨Chip.waits_secondCounted (d := x.cleared.chip) h ht, Chip.last_secondCounted (d := x.cleared.chip) h ht hk,
      x.sameMem_mk _, fun _ _ _ _ hj hp hs hsec _ hi => Chip.rd_secondCounted (d := x.cleared.chip) h ht hj hp hs hsec hi⟩

theorem does_sfSdWindowConfig {sess k : Nat} {w : Word} (hk : k < 6) (hb : x.chip.subBusy e = false)
    (ha : x.allows sess (winReg e k) w) :
    Does (.sfSdWindowConfig sess e k w) ⟨q, x⟩ (fun y => y.answered .ok ∧ x.sameMem y
      ∧ (k % 3 ≠ 0 → y.chip.rd (winReg e k) = w)
      ∧ (k % 3 = 0 → y.chip.rf (winReg e k) 19 0 = fld w 19 0)
      ∧ (k % 3 = 0 → fld w 15 0 = 0 → (x.chip.mon e).layer < 2 →
          y.chip.defUp (.line e (winDef (x.chip.mon e).layer (decide (k = 3)))) = false
          ∧ (y.chip.mon e).win (decide (k = 3)) = Win.init)) := by
  rw [winReg_eq hk] at ha ⊢
  have hi := (exec_sfSdWindowConfig sess e k w ⟨q, x⟩).trans (by rw [winReg_eq hk])
  obtain ⟨row, hrow, -, -⟩ := winReg_row e hk
  refine does_hostWrite_eng q hx hi (decide_eq_true he) ha hb (by rw [hrow]; rfl) (Dev.writeEng_win x e hk w) ?_
  rw [if_pos rfl]
  obtain ⟨hfull, hwin, hwindow⟩ := Chip.store_win x.cleared.chip e hk w
  have hmon : (x.cleared.chip.store ⟨.eng, e, 0x2FC + 4 * k⟩ w).mon e = x.chip.mon e := Chip.store_mon _ _ w e
  generalize x.cleared.chip.store ⟨.eng, e, 0x2FC + 4 * k⟩ w = c at hfull hwin hwindow hmon ⊢
  have hrd := (Chip.rd_mirror_answer (h := e) (c.winWrite e (decide (3 ≤ k))) .ok (o := 0x2FC + 4 * k) (by omega)).trans
    (Chip.rd_winWrite_own c e _ hk)
  have hst (n : Nat) := Chip.rb_mirror_answer (h := e) (c.winWrite e (decide (3 ≤ k))) .ok (o := 0x2F0) n (by decide)
  have hm := Chip.mon_mirror_answer (c.winWrite e (decide (3 ≤ k))) e e .ok
  generalize ((c.winWrite e (decide (3 ≤ k))).mirror e).answer .ok = y at hrd hst hm ⊢
  refine ⟨x.sameMem_mk _, fun h => hrd.trans (hfull h), fun _ => (congrArg (fld · 19 0) hrd).trans hwin, fun h3 h0 hl => ?_⟩
  have hsd : decide (3 ≤ k) = decide (k = 3) := decide_eq_decide.2 (by omega)
  rw [← hmon] at hl ⊢
  obtain ⟨hup, hw⟩ := Chip.winWrite_off ((Chip.winCfg_window c e hk h3).trans (hwindow.trans h0)) hl
  rw [Chip.defUp_line (winDef_lt hl _)] at hup ⊢
  rw [hsd] at hst hm
  exact ⟨(hst _).trans hup, hm ▸ hw⟩

end Commands

/-- Settles O21: a window's end, a write of WINDOW 0 and a change of LAYER reach the defect by one flip that other
defects do not see, and each layer's counters are written when its own second is counted alone. -/
theorem signalWindowsAndSeconds : Obligations.SignalWindowsAndSeconds := by
  intro q x e he hx
  have hok : engineOk e = true := decide_eq_true he
  refine ⟨fun sd => ?_, fun sess k w hk hb ha => does_sfSdWindowConfig q he hx hk hb ha, does_pmSecondEnd q he hx,
    fun h => does_idle (exec_pmSecondEnd e ⟨q, x⟩) hok (Chip.secondEnd_same (d := x.cleared.chip) h),
    fun k l h => ⟨fun ht hk => ?_, fun ht => ?_⟩, fun h => ?_⟩
  · intro m k
    refine ⟨fun hen hw hf hl => ⟨does_bipWindowEnd q he hx hen hw hf hl, does_bipWindowEnd_layer q he hx hen hw hf hl⟩,
      fun h => ?_⟩
    exact does_idle (exec_bipWindowEnd e sd ⟨q, x⟩) hok (Chip.winEnd_idle (d := x.cleared.chip) h)
  · refine (does_pmSecondCounted q he hx h ht hk).mono fun y ⟨hwaits, hlast, hm, hcount⟩ => ⟨hwaits, hlast, hm, ?_⟩
    intro j p s rest hj hp hs hsec more
    have hmore (i n : Nat) (hi : i < 4) (hn : p.adds s i = n) : more i n := hn ▸ hcount j p s rest hj hp hs hsec i hi
    refine ⟨fun hu => ?_, fun hu => ?_⟩
    · obtain ⟨h3, h0, h1, h2⟩ := PmLayer.adds_unavail hu s
      exact ⟨hmore 3 1 (by decide) h3, hmore 0 0 (by decide) h0, hmore 1 0 (by decide) h1, hmore 2 0 (by decide) h2⟩
    · obtain ⟨h0, h1, h2, h3⟩ := PmLayer.adds_avail hu s
      exact ⟨hmore 0 _ (by decide) h0, hmore 1 _ (by decide) h1, hmore 2 _ (by decide) h2, hmore 3 0 (by decide) h3⟩
  · exact does_idle (exec_pmSecondCounted e ⟨q, x⟩) hok (Chip.secondCounted_early (d := x.cleared.chip) h ht)
  · exact does_idle (exec_pmSecondCounted e ⟨q, x⟩) hok (Chip.secondCounted_none (d := x.cleared.chip) h)

end Sys2Proof.Machine
end

section
set_option Elab.async false

/-! # The deskew engine (R148-R152) -/

namespace Sys2Proof.Machine

/-! ## The delay line -/

theorem Mem.rdN_wrN (l : List Byte) (m : Mem) (a : Nat) : (m.wrN a l).rdN a l.length = l := by
  induction l generalizing m a with
  | nil => rfl
  | cons b l ih =>
    have hb : (m.wrN a (b :: l)).rd1 a = b := Mem.rd1_wrN_inside (b :: l) m a 0 (Nat.succ_pos _)
    exact congrArg₂ List.cons hb (ih (m.wr1 a b) (a + 1))

theorem Mem.rdN_fresh (m : Mem) (a n c k : Nat) : (m.fresh a n).rdN c k = m.rdN c k := by
  induction k generalizing c with
  | zero => rfl
  | succ k ih => exact congrArg₂ List.cons rfl (ih (c + 1))

theorem Mem.rdN_store (m : Mem) (a : Nat) (l : List Byte) : (m.store a l).rdN a l.length = l :=
  (Mem.rdN_fresh _ a l.length a l.length).trans (Mem.rdN_wrN l m a)

theorem Mem.rd1_store_outside (m : Mem) {a c : Nat} {l : List Byte} (h : c < a ∨ a + l.length ≤ c) :
    (m.store a l).rd1 c = m.rd1 c := by
  rw [Mem.rd1_store, if_neg (by omega)]

/-! ## What leaves the deskew engine -/

namespace Chip.BlindToCapture

variable {γ : Type} {f : Chip → γ} (K : Chip.BlindToCapture f)

include K

theorem tapOctet (d : Chip) (e sub g i raw desc stamp : Nat) (tent poison : Bool) :
    f (d.tapOctet e sub g i raw desc stamp tent poison) = f d := by
  grind [Chip.tapOctet, Chip.tapOne, tapWord]

theorem tapStream (d : Chip) (h start : Nat) (l : List Byte) : f (d.tapStream h start l) = f d :=
  K.foldl (fun x _ => K.tapOctet x h 1 _ _ _ _ _ false false) _ d

/-- A frame of the selected stream reaches the frame stores, whose only register is PAT_EVENT. -/
theorem hitlessPush (hpat : ∀ d e p, f (Chip.setPat d e p) = f d) (hev : ∀ d e i, f (Chip.flag d (R.PAT_EVENT e) i) = f d)
    (d : Chip) (h : Nat) (l : List Byte) : f (d.hitlessPush h l) = f d := by
  have hpush (x : Chip) (e : Nat) : f (x.storePush e l) = f x := by
    unfold Chip.storePush
    extract_lets p
    split
    · exact hpat x e _
    · exact (K.evt _ e 0x0708 _ 0 0).trans ((hev _ e 12).trans (hpat x e _))
  refine K.foldl (fun x e => ?_) _ d
  split
  · exact hpush x e
  · rfl

end Chip.BlindToCapture

/-- What the deskew engine of a group compares by: the signatures of both paths and its status. -/
def Chip.sigShown (d : Chip) (h : Nat) : List Sig × List Sig × Word := ((d.dsk h).sigW, (d.dsk h).sigP, d.rd (R.DSK_STATUS h))

@[simp] theorem Chip.dsk_setDsk_same (d : Chip) (h : Nat) (z : Dsk) : (d.setDsk h z).dsk h = z := SMap.get_put_same _ _ _ _

/-- The frames that are due leave with their signatures compared: neither the signatures nor memory change. -/
theorem Dev.deskewOut_keeps (x : Dev) (h : Nat) :
    (x.deskewOut h).chip.sigShown h = x.chip.sigShown h ∧ (x.deskewOut h).mem = x.mem := by
  have K : Chip.BlindToCapture (fun d => d.sigShown h) := by
    have hdsk : Chip.BlindToCapture (fun d => d.dsk h) :=
      ⟨fun _ _ _ _ => rfl, fun _ _ => rfl, fun _ _ => rfl, fun _ _ _ => rfl, fun _ _ _ => rfl, fun _ _ _ => rfl⟩
    exact (hdsk.comp Dsk.sigW).prod ((hdsk.comp Dsk.sigP).prod (Chip.blindToCapture_rd rfl))
  have hsent (d : Chip) (z : Dsk) (start : Nat) (l : List Byte) (hw : z.sigW = (d.dsk h).sigW) (hp : z.sigP = (d.dsk h).sigP) :
      (((d.setDsk h z).tapStream h start l).hitlessPush h l).sigShown h = d.sigShown h := by
    refine (K.hitlessPush (fun _ _ _ => rfl) (fun c e i => ?_) _ h l).trans ((K.tapStream _ h start l).trans ?_)
    · unfold Chip.sigShown
      rw [Chip.rd_flag_other c i (RegId.key_ne_of_off (show 0x3BC % 2 ^ 12 ≠ 0x370 % 2 ^ 12 by decide))]
      rfl
    · unfold Chip.sigShown
      rw [Chip.dsk_setDsk_same, hw, hp]
      rfl
  have hfold {g : Dev → DFrame → Dev} (hg : ∀ y b, ((g y b).chip.sigShown h, (g y b).mem) = (y.chip.sigShown h, y.mem))
      (l : List DFrame) : ((l.foldl g x).chip.sigShown h, (l.foldl g x).mem) = (x.chip.sigShown h, x.mem) :=
    foldl_keeps (fun y : Dev => (y.chip.sigShown h, y.mem)) g hg l x
  refine Prod.mk.inj (hfold (fun y b => ?_) _)
  extract_lets w at_ l start
  split
  · refine Prod.ext ?_ ?_
    · unfold Dev.on
      dsimp only
      exact hsent y.chip { w with out := at_ } start l rfl rfl
    · rfl
  · rfl

/-! ## The comparison -/

theorem sigMatches_nil (a : List Sig) : sigMatches a [] = [] := by
  unfold sigMatches
  split <;> rfl

/-- The signatures of a group with one more of a path, those of the last 16 ms kept. -/
def Dsk.joins (x : Dsk) (path dt : Nat) (s : Sig) : Dsk :=
  let cut := fun (l : List Sig) => l.filter (fun s => dt ≤ s.time + t16ms)
  if path = 0 then { x with sigW := s :: cut x.sigW, sigP := cut x.sigP }
  else { x with sigP := s :: cut x.sigP, sigW := cut x.sigW }

theorem Dsk.head_joins (x : Dsk) (path dt : Nat) (s : Sig) :
    (if path = 0 then (x.joins path dt s).sigW else (x.joins path dt s).sigP).head? = some s := by
  unfold Dsk.joins
  split <;> rfl

/-- Without a signature of the other path a frame joins its own and nothing is compared. -/
theorem Chip.dskFrame_alone {d : Chip} {h path time crc : Nat} (hst : (d.group h).st ≠ .disabled)
    (hh : d.apsHitless h = true) (hne : d.rf (R.DSK_STATUS h) 1 0 ≠ 2)
    (ho : (if path = 0 then (d.dsk h).sigP else (d.dsk h).sigW) = []) :
    d.dskFrame h path time crc = d.setDsk h ((d.dsk h).joins path d.dt ⟨time, crc⟩) := by
  have hon : ¬ ((d.group h).st = .disabled ∨ d.apsHitless h = false) := by simp [hst, hh]
  unfold Chip.dskFrame
  rw [if_neg hon]
  extract_lets x cut s x1 d1 mine other
  have hother : other = [] := by
    unfold other x1
    split
    · next hp =>
      rw [if_pos hp] at ho
      exact congrArg cut ho
    · next hp =>
      rw [if_neg hp] at ho
      exact congrArg cut ho
  refine (if_neg hne).trans ?_
  rw [hother, sigMatches_nil]
  rfl

/-! ## The commands -/

theorem exec_deskewFrame (h path time : Nat) (octets : List Byte) (s : State) : exec (.deskewFrame h path time octets) s
    = command (engineOk h) false (fun x => x.deskewFrame h path time octets) s := rfl

theorem exec_deskewNoMatch (h : Nat) (s : State) : exec (.deskewNoMatch h) s
    = command (engineOk h) false (fun x => x.on (fun d => d.dskNoMatch h)) s := rfl

theorem exec_rebaseDone (h : Nat) (s : State) : exec (.rebaseDone h) s
    = command (engineOk h) false (fun x => x.on (fun d => d.rebaseDone h)) s := rfl

/-- The place of the next frame of `n` octets of a path in the delay line (log entry 76). -/
def Chip.delaySlot (d : Chip) (h path n : Nat) : Nat :=
  let half := d.rf (R.DSK_CFG h) 31 24 * 524288
  let slot := ceilDiv n 32 * 32
  d.rf (R.DSK_CFG h) 16 0 * 1048576 + path * half
    + (if path = 0 then (d.dsk h).nW else (d.dsk h).nP) % max 1 (half / max 1 slot) * slot

section Frames

variable {x : Dev} {h path time : Nat} {l : List Byte}

theorem Dev.delayWrite_mem : (x.delayWrite h path time l).mem = x.mem.store (x.chip.delaySlot h path l.length) l := rfl

/-- A frame in the delay line leaves the signatures. -/
theorem Dev.delayWrite_dsk : ((x.delayWrite h path time l).chip.dsk h).sigW = (x.chip.dsk h).sigW
    ∧ ((x.delayWrite h path time l).chip.dsk h).sigP = (x.chip.dsk h).sigP := by
  unfold Dev.delayWrite
  extract_lets d z half slot n at_ y
  rw [Chip.dsk_setDsk_same]
  exact ⟨rfl, rfl⟩

variable {octets : List Byte}

theorem Dev.deskewFrame_off (hoff : (x.chip.group h).st = .disabled ∨ x.chip.apsHitless h = false) :
    x.deskewFrame h path time octets = x := if_pos hoff

variable (hst : (x.chip.group h).st ≠ .disabled) (hh : x.chip.apsHitless h = true)

include hst hh

theorem Dev.deskewFrame_mem : (x.deskewFrame h path time octets).mem
    = x.mem.store (x.chip.delaySlot h path (lineOctets (x.chip.engFmt h) octets).length) (lineOctets (x.chip.engFmt h) octets) := by
  unfold Dev.deskewFrame
  extract_lets d f l
  rw [if_neg (by simp [d, hst, hh]), (Dev.deskewOut_keeps _ h).2]
  exact Dev.delayWrite_mem (time := time)

/-- A frame without a signature of the other path is the newest of its own. -/
theorem Dev.deskewFrame_alone (hne : x.chip.rf (R.DSK_STATUS h) 1 0 ≠ 2)
    (ho : (if path = 0 then (x.chip.dsk h).sigP else (x.chip.dsk h).sigW) = []) :
    let y := (x.deskewFrame h path time octets).chip
    y.rd (R.DSK_STATUS h) = x.chip.rd (R.DSK_STATUS h)
      ∧ (if path = 0 then (y.dsk h).sigW else (y.dsk h).sigP).head?
        = some ⟨time, crc32 (sigOctets (x.chip.engFmt h) (lineOctets (x.chip.engFmt h) octets))⟩ := by
  unfold Dev.deskewFrame
  extract_lets d f l y
  obtain ⟨hw, hp⟩ := Dev.delayWrite_dsk (x := x) (h := h) (path := path) (time := time) (l := l)
  have halone := Chip.dskFrame_alone (d := (x.delayWrite h path time l).chip) (h := h) (path := path) (time := time)
    (crc := crc32 (sigOctets f l)) hst hh hne (by rw [hw, hp]; exact ho)
  have hy : y.sigShown h = ((x.delayWrite h path time l).chip.dskFrame h path time (crc32 (sigOctets f l))).sigShown h := by
    unfold y
    rw [if_neg (by simp [d, hst, hh])]
    exact (Dev.deskewOut_keeps _ h).1
  rw [halone, Chip.sigShown, Chip.sigShown, Chip.dsk_setDsk_same] at hy
  obtain ⟨hyw, hyp, hys⟩ := Prod.mk.inj hy |>.imp_right Prod.mk.inj
  rw [hyw, hyp, hys]
  exact ⟨rfl, Dsk.head_joins _ _ _ _⟩

end Frames

section Commands

variable (q : List Instr) {x : Dev} {h : Nat} (hh : h < 136) (hx : x.live)

include hh hx

theorem does_deskewFrame (path time : Nat) (octets : List Byte) (hst : (x.chip.group h).st ≠ .disabled)
    (hhit : x.chip.apsHitless h = true) :
    let l := lineOctets (x.chip.engFmt h) octets
    let at_ := x.chip.delaySlot h path l.length
    let s : Sig := ⟨time, crc32 (sigOctets (x.chip.engFmt h) l)⟩
    Does (.deskewFrame h path time octets) ⟨q, x⟩ (fun y =>
      (∀ a, (a < at_ ∨ at_ + l.length ≤ a) → y.mem.rd1 a = x.mem.rd1 a) ∧ y.mem.rdN at_ l.length = l
      ∧ (x.chip.rf (R.DSK_STATUS h) 1 0 ≠ 2 →
          (path = 0 → (x.chip.dsk h).sigP = [] → (y.chip.dsk h).sigW.head? = some s
            ∧ y.chip.rf (R.DSK_STATUS h) 1 0 = x.chip.rf (R.DSK_STATUS h) 1 0)
          ∧ (path ≠ 0 → (x.chip.dsk h).sigW = [] → (y.chip.dsk h).sigP.head? = some s
            ∧ y.chip.rf (R.DSK_STATUS h) 1 0 = x.chip.rf (R.DSK_STATUS h) 1 0))) := by
  intro l at_ s
  have hmem := Dev.deskewFrame_mem (x := x.cleared) (path := path) (time := time) (octets := octets) hst hhit
  refine does_of_command (exec_deskewFrame h path time octets ⟨q, x⟩) (decide_eq_true hh) hx ⟨fun a ha => ?_, ?_, fun hne => ?_⟩
  · rw [hmem]
    exact Mem.rd1_store_outside x.mem ha
  · rw [hmem]
    exact Mem.rdN_store x.mem at_ l
  · have hseen (ho : (if path = 0 then (x.chip.dsk h).sigP else (x.chip.dsk h).sigW) = []) :=
      Dev.deskewFrame_alone (x := x.cleared) (path := path) (time := time) (octets := octets) hst hhit hne ho
    refine ⟨fun hp ho => ?_, fun hp ho => ?_⟩
    · obtain ⟨hst, hhead⟩ := hseen (by rw [if_pos hp, ho])
      rw [if_pos hp] at hhead
      exact ⟨hhead, congrArg (fld · 1 0) hst⟩
    · obtain ⟨hst, hhead⟩ := hseen (by rw [if_neg hp, ho])
      rw [if_neg hp] at hhead
      exact ⟨hhead, congrArg (fld · 1 0) hst⟩

/-- The search of a group has lost: 16 ms of seeking with eight frames of both paths and no offset that matches. -/
def Chip.dskLost (d : Chip) (h : Nat) : Prop :=
  d.rf (R.DSK_STATUS h) 1 0 = 1 ∧ (d.dsk h).from_ + t16ms ≤ d.dt ∧ 8 ≤ (d.dsk h).sigW.length ∧ 8 ≤ (d.dsk h).sigP.length
    ∧ sigMatches (d.dsk h).sigW (d.dsk h).sigP = [] ∧ sigMatches (d.dsk h).sigP (d.dsk h).sigW = []

theorem does_deskewNoMatch (hl : x.chip.dskLost h) : Does (.deskewNoMatch h) ⟨q, x⟩ (fun y =>
    y.chip.rf (R.DSK_STATUS h) 1 0 = 3 ∧ x.only y ∧ x.regsBut y [R.DSK_STATUS h]) := by
  obtain ⟨hs, ht, hw, hp, hwp, hpw⟩ := hl
  have hgo : x.cleared.chip.dskNoMatch h = x.cleared.chip.setDskSt h 3 :=
    if_pos ⟨hs, ht, hw, hp, List.isEmpty_iff.2 hwp, List.isEmpty_iff.2 hpw⟩
  refine does_on (exec_deskewNoMatch h ⟨q, x⟩) (decide_eq_true hh) hx hgo ⟨?_, Dev.only_of_eq rfl, fun r hr _ => ?_⟩
  · exact Chip.rf_sf_same x.cleared.chip (R.DSK_STATUS h) 1 0 3 (by decide) (by decide)
  · exact Chip.rd_sf_other x.cleared.chip 1 0 3 (hr (R.DSK_STATUS h) (by simp))

omit hx in
theorem does_deskewNoMatch_goes_on (hl : ¬ x.chip.dskLost h) : Does (.deskewNoMatch h) ⟨q, x⟩ x.idle := by
  refine does_idle (exec_deskewNoMatch h ⟨q, x⟩) (decide_eq_true hh) (if_neg fun ⟨hs, ht, hw, hp, hwp, hpw⟩ => hl ?_)
  exact ⟨hs, ht, hw, hp, List.isEmpty_iff.1 hwp, List.isEmpty_iff.1 hpw⟩

theorem does_rebaseDone {t : Nat} (hr : (x.chip.dsk h).rebase = some t) (ht : t ≤ x.chip.core) :
    Does (.rebaseDone h) ⟨q, x⟩ (fun y => y.chip.dsk h = { x.chip.dsk h with rebase := none }
      ∧ y.chip.rb (R.DSK_STATUS h) 4 = false ∧ x.only y (fun c => { c with dsks := y.chip.dsks })
      ∧ x.regsBut y [R.DSK_STATUS h]) := by
  have hgo : x.cleared.chip.rebaseDone h
      = (x.cleared.chip.setDsk h { x.cleared.chip.dsk h with rebase := none }).unflag (R.DSK_STATUS h) 4 := by
    unfold Chip.rebaseDone
    dsimp only
    rw [show (x.cleared.chip.dsk h).rebase = some t from hr]
    exact if_neg (Nat.not_lt.2 ht)
  refine does_on (exec_rebaseDone h ⟨q, x⟩) (decide_eq_true hh) hx hgo ⟨?_, ?_, ?_, fun r hr _ => ?_⟩
  · exact Chip.dsk_setDsk_same x.cleared.chip h _
  · exact Chip.rb_unflag_same _ (R.DSK_STATUS h) (by decide)
  · exact Dev.only_of_besides (fun _ _ => rfl) rfl (x.sameMem_mk _)
  · exact Chip.rd_sf_other _ 4 4 0 (hr (R.DSK_STATUS h) (by simp))

omit hx in
theorem does_rebaseDone_early (hn : (x.chip.dsk h).rebase = none ∨ ∃ t, (x.chip.dsk h).rebase = some t ∧ x.chip.core < t) :
    Does (.rebaseDone h) ⟨q, x⟩ x.idle := by
  refine does_idle (exec_rebaseDone h ⟨q, x⟩) (decide_eq_true hh) ?_
  unfold Chip.rebaseDone
  dsimp only
  obtain hn | ⟨t, hn, ht⟩ := hn
  · rw [show (x.cleared.chip.dsk h).rebase = none from hn]
  · rw [show (x.cleared.chip.dsk h).rebase = some t from hn]
    exact if_pos ht

end Commands

/-- Settles O25: a frame is stored in its slot alone, and while the other path has no signature nothing is compared. -/
theorem hitlessDeskew : Obligations.HitlessDeskew := by
  intro q x h hh hx
  refine ⟨fun path time octets hst hhit => does_deskewFrame q hh hx path time octets hst hhit, fun path time octets hoff => ?_,
    ⟨does_deskewNoMatch q hh hx, does_deskewNoMatch_goes_on q hh⟩, fun t hr ht => does_rebaseDone q hh hx hr ht,
    does_rebaseDone_early q hh⟩
  exact does_same (exec_deskewFrame h path time octets ⟨q, x⟩) (decide_eq_true hh) hx (Dev.deskewFrame_off (x := x.cleared) hoff)

end Sys2Proof.Machine
end

section
set_option Elab.async false
/-! Triggers and capture regions (R160-R185, R222): what writes of the capture registers leave, the time compares, the
combiners and the global lines, the regions and their stop, and the bales that a region writes, has refused and writes
again. -/
namespace Sys2Proof.Machine

/-! # Writes of a capture register -/

/-! ## What the answer to a write leaves alone -/

section Written

variable (z : Chip) (st : Status) (e : Nat)

/-- The chip that a write to an engine window leaves, once `z` is its own effect and `st` its status. -/
def Chip.written : Chip := (if st = .ok then z.mirror e else z).answer st

/-- A spare's copies and the answer show in engine windows and in what was sent alone. -/
theorem Chip.written_keeps {γ : Type} (f : Chip → γ) (hw : ∀ (c : Chip) (r : RegId) (w : Word), r.blk = .eng → f (c.wr r w) = f c)
    (ho : ∀ c : Chip, f (c.answer st) = f c) : f (z.written st e) = f z := by
  unfold Chip.written
  rw [ho]
  split
  · exact Chip.mirror_keeps z f hw e
  · rfl

/-- The registers of other blocks than the engine windows are left by writes to those. -/
theorem Chip.rd_wr_eng (d : Chip) {r : RegId} (w : Word) (hr : r.blk = .eng) {b : Blk} {i o : Nat} (hb : b ≠ .eng) :
    (d.wr r w).rd ⟨b, i, o⟩ = d.rd ⟨b, i, o⟩ :=
  Chip.rd_wr_other d w (RegId.key_ne_of_blk (fun h => hb (h.trans hr)))

theorem Chip.rd_written {b : Blk} {i o : Nat} (h : b ≠ .eng) : (z.written st e).rd ⟨b, i, o⟩ = z.rd ⟨b, i, o⟩ :=
  Chip.written_keeps z st e (fun c => c.rd ⟨b, i, o⟩) (fun c _ w hq => Chip.rd_wr_eng c w hq h) fun _ => rfl

theorem Chip.rd_written_eng {o : Nat} (ho : o < 2 ^ 12) : (z.written st e).rd ⟨.eng, e, o⟩ = z.rd ⟨.eng, e, o⟩ := by
  unfold Chip.written
  split
  · exact Chip.rd_mirror_answer z st ho
  · rfl

theorem Chip.rd_written_failed {st : Status} (h : st ≠ .ok) (r : RegId) : (z.written st e).rd r = z.rd r := by
  unfold Chip.written
  rw [if_neg h]
  rfl

theorem Chip.written_besides (y : Chip) : (z.written st e).besides y = z.besides y :=
  Chip.written_keeps z st e (fun c => c.besides y) (fun _ _ _ _ => rfl) fun _ => rfl

end Written

/-- What a write leaves is what it found but for what `f` takes over, where its own effect changes no more. -/
theorem Dev.only_written {x : Dev} {z : Chip} {f : Chip → Chip} (st : Status) (e : Nat)
    (hf : ∀ c y, (f c).besides y = f (c.besides y)) (h : z.besides x.chip = f x.chip) :
    x.only ⟨z.written st e, x.mem⟩ f :=
  Dev.only_of_besides hf ((Chip.written_besides z st e x.chip).trans h) (x.sameMem_mk _)

/-! # Time compares (R176) -/

theorem Chip.trgCmp_lt (d : Chip) {e : Nat} (he : e < 136) : d.trgCmp e < 68 := by
  have h : d.rf (R.CAP_TRG_IDX e) 5 4 < 2 ^ 2 := fld_lt _ 5 4
  unfold Chip.trgCmp
  omega

/-- The short time that a write of CAP_TRG_TIME_HI names for compare `k`. -/
def Chip.cmpValue (d : Chip) (k : Nat) (w : Word) : Nat := fld w 15 0 * 2 ^ 32 + (d.rd (R.tcmp_CAP_TRG_TIME_LO k)).toNat

/-- Compare `k` disarmed. -/
def Chip.cmpOff (d : Chip) (k : Nat) : Chip := { d with cmps := SMap.put false d.cmps k false }

/-- From `d` to `c`, compare `k` becomes armed or not, and every other compare and the rest of the chip stay. -/
structure Chip.CmpSet (d c : Chip) (k : Nat) (on : Bool) : Prop where
  armed : SMap.get false c.cmps k = on
  other : ∀ n, n < 68 → n ≠ k → SMap.get false c.cmps n = SMap.get false d.cmps n ∧ c.cmpTime n = d.cmpTime n
  rest  : c.besides d = { d with cmps := c.cmps }

section Compare

variable (d : Chip) (e : Nat) {k : Nat} (w : Word)

theorem Chip.cmpWrite_late (ha : bit w 31 = true) (h : shortDiff d.dt (d.cmpValue k w) < 0) :
    d.cmpWrite e k w = (.tooLate, (d.cmpOff k).flag (R.CAP_EVENT e) 5) :=
  if_pos ⟨ha, h⟩

/-- The compare stored at the value of a write, armed where the write asks for it. -/
def Chip.cmpStored (d : Chip) (k : Nat) (w : Word) : Chip :=
  let c := (d.cmpOff k).sf (R.tcmp_CAP_TRG_TIME_HI k) 15 0 (fld w 15 0)
  if bit w 31 then { c with cmps := SMap.put false c.cmps k true } else c

theorem Chip.cmpWrite_stored (h : bit w 31 = true → 0 ≤ shortDiff d.dt (d.cmpValue k w)) :
    d.cmpWrite e k w = (.ok, d.cmpStored k w) :=
  if_neg fun ⟨ha, hl⟩ => absurd (h ha) (Int.not_le.mpr hl)

theorem Chip.cmpTime_congr {d c : Chip} {k : Nat} (hh : c.rd (R.tcmp_CAP_TRG_TIME_HI k) = d.rd (R.tcmp_CAP_TRG_TIME_HI k))
    (hl : c.rd (R.tcmp_CAP_TRG_TIME_LO k) = d.rd (R.tcmp_CAP_TRG_TIME_LO k)) : c.cmpTime k = d.cmpTime k := by
  unfold Chip.cmpTime Chip.rf
  rw [hh, hl]

theorem Chip.cmpTime_wr_eng (r : RegId) (hr : r.blk = .eng) (k : Nat) : (d.wr r w).cmpTime k = d.cmpTime k :=
  Chip.cmpTime_congr (Chip.rd_wr_eng d w hr (by decide)) (Chip.rd_wr_eng d w hr (by decide))

theorem Chip.cmpTime_written (z : Chip) (st : Status) (k : Nat) : (z.written st e).cmpTime k = z.cmpTime k :=
  Chip.written_keeps z st e (fun c => c.cmpTime k) (fun c r w hr => Chip.cmpTime_wr_eng c w r hr k) fun _ => rfl

theorem Chip.cmps_cmpOff (n : Nat) :
    SMap.get false (d.cmpOff k).cmps n = if n = k then false else SMap.get false d.cmps n :=
  SMap.get_put false d.cmps k n false

theorem Chip.cmpSet_late : d.CmpSet ((d.cmpOff k).flag (R.CAP_EVENT e) 5) k false :=
  ⟨(Chip.cmps_cmpOff d k).trans (if_pos rfl),
    fun n _ hn => ⟨(Chip.cmps_cmpOff d n).trans (if_neg hn), Chip.cmpTime_wr_eng _ _ _ rfl n⟩, rfl⟩

theorem Chip.cmpStored_regs : (d.cmpStored k w).regs = (d.sf (R.tcmp_CAP_TRG_TIME_HI k) 15 0 (fld w 15 0)).regs := by
  unfold Chip.cmpStored
  dsimp only
  split <;> rfl

theorem Chip.rd_cmpStored_other {r : RegId} (h : r.key ≠ (R.tcmp_CAP_TRG_TIME_HI k).key) : (d.cmpStored k w).rd r = d.rd r :=
  (Chip.rd_congr (Chip.cmpStored_regs d w) r).trans (Chip.rd_sf_other d 15 0 _ h)

theorem Chip.cmpTime_cmpStored : (d.cmpStored k w).cmpTime k = d.cmpValue k w := by
  have hhi : (d.cmpStored k w).rf (R.tcmp_CAP_TRG_TIME_HI k) 15 0 = fld w 15 0 := by
    unfold Chip.rf
    rw [Chip.rd_congr (Chip.cmpStored_regs d w)]
    refine (Chip.rf_sf_same d _ 15 0 _ (by decide) (by decide)).trans (Nat.mod_eq_of_lt (fld_lt w 15 0))
  unfold Chip.cmpTime Chip.cmpValue
  have hlo : (d.cmpStored k w).rd (R.tcmp_CAP_TRG_TIME_LO k) = d.rd (R.tcmp_CAP_TRG_TIME_LO k) :=
    Chip.rd_cmpStored_other d w (RegId.key_ne_of_offs (show 0x0A8 % 2 ^ 12 ≠ 0x0AC % 2 ^ 12 by decide))
  rw [hhi, hlo]

theorem Chip.cmps_cmpStored (n : Nat) :
    SMap.get false (d.cmpStored k w).cmps n = if n = k then bit w 31 else SMap.get false d.cmps n := by
  unfold Chip.cmpStored Chip.cmpOff
  dsimp only
  split
  · next h =>
    simp only [Chip.sf_cmps, SMap.get_put, h]
    split <;> rfl
  · next h => simp only [Chip.sf_cmps, SMap.get_put, h]

theorem Chip.cmpSet_stored (hk : k < 68) : d.CmpSet (d.cmpStored k w) k (bit w 31) := by
  refine ⟨?_, fun n hn hne => ⟨?_, Chip.cmpTime_congr ?_ ?_⟩, ?_⟩
  · rw [Chip.cmps_cmpStored, if_pos rfl]
  · rw [Chip.cmps_cmpStored, if_neg hne]
  · exact Chip.rd_cmpStored_other d w (RegId.key_ne_of_idx (show n % 2 ^ 36 ≠ k % 2 ^ 36 by omega))
  · exact Chip.rd_cmpStored_other d w (RegId.key_ne_of_offs (by decide))
  · unfold Chip.cmpStored
    dsimp only
    split <;> rfl

theorem Chip.CmpSet.written {d c : Chip} {k : Nat} {on : Bool} (h : d.CmpSet c k on) (st : Status) (e : Nat) :
    d.CmpSet (c.written st e) k on := by
  obtain ⟨harmed, hother, hrest⟩ := h
  have hcmps : (c.written st e).cmps = c.cmps := Chip.written_keeps c st e Chip.cmps (fun _ _ _ _ => rfl) fun _ => rfl
  exact ⟨hcmps ▸ harmed, fun n hn hne => by rw [hcmps, Chip.cmpTime_written]; exact hother n hn hne,
    (Chip.written_besides c st e d).trans (by rw [hcmps]; exact hrest)⟩

/-- An armed compare that Device Time has reached: it is disarmed, and its source occurs. -/
theorem Chip.cmpFire_due (ha : SMap.get false d.cmps k = true) (ht : shortDiff d.dt (d.cmpTime k) ≤ 0) :
    (d.cmpFire k).cmps = (d.cmpOff k).cmps :=
  (congrArg Chip.cmps (if_pos ⟨ha, ht⟩)).trans (Chip.BlindToCapture.raise (f := Chip.cmps)
    ⟨fun _ _ _ _ => rfl, fun _ _ => rfl, fun _ _ => rfl, fun _ _ _ => rfl, fun _ _ _ => rfl, fun _ _ _ => rfl⟩ _ _ _ _ _)

theorem Chip.cmpFire_idle (h : SMap.get false d.cmps k = false ∨ 0 < shortDiff d.dt (d.cmpTime k)) : d.cmpFire k = d :=
  if_neg fun ⟨ha, ht⟩ => h.elim (fun hf => by simp [hf] at ha) (Int.not_lt.mpr ht)

end Compare

/-! ## The commands -/

theorem exec_timeCompareArm (sess e : Nat) (w : Word) (s : State) : exec (.timeCompareArm sess e w) s
    = command (engineOk e) false (fun x => x.hostWrite sess (R.CAP_TRG_TIME_HI e) w) s := rfl

theorem exec_timeCompareFire (k : Nat) (s : State) : exec (.timeCompareFire k) s
    = command (compareOk k) false (fun x => x.on (fun d => d.cmpFire k)) s := rfl

section Commands

variable (q : List Instr) {x : Dev} (hx : x.live)

include hx

/-- A write of CAP_TRG_TIME_HI leaves what its effect leaves of the compares, at the value `v`. -/
theorem does_timeCompareArm {sess e : Nat} {w : Word} {st : Status} {c : Chip} {on : Bool} {v : Nat} (he : e < 136)
    (hb : x.chip.subBusy e = false) (ha : x.allows sess (R.CAP_TRG_TIME_HI e) w)
    (hw : x.cleared.chip.cmpWrite e (x.chip.trgCmp e) w = (st, c)) (hs : x.cleared.chip.CmpSet c (x.chip.trgCmp e) on)
    (hv : c.cmpTime (x.chip.trgCmp e) = v) :
    Does (.timeCompareArm sess e w) ⟨q, x⟩ (fun y => y.answered st ∧ y.chip.rb (R.CAP_EVENT e) 5 = c.rb (R.CAP_EVENT e) 5
      ∧ SMap.get false y.chip.cmps (x.chip.trgCmp e) = on ∧ y.chip.cmpTime (x.chip.trgCmp e) = v
      ∧ (∀ n, n < 68 → n ≠ x.chip.trgCmp e →
          SMap.get false y.chip.cmps n = SMap.get false x.chip.cmps n ∧ y.chip.cmpTime n = x.chip.cmpTime n)
      ∧ x.only y (fun c => { c with cmps := y.chip.cmps })) := by
  have hwr : x.cleared.writeEng e (R.CAP_TRG_TIME_HI e) (x.cleared.chip.reach (R.CAP_TRG_TIME_HI e)) w = (st, ⟨c, x.mem⟩) :=
    congrArg (fun r : Status × Chip => (r.1, Dev.mk r.2 x.mem)) hw
  refine does_hostWrite_eng q hx (exec_timeCompareArm sess e w ⟨q, x⟩) (decide_eq_true he) ha hb rfl hwr ?_
  obtain ⟨harmed, hother, hrest⟩ := hs.written st e
  refine ⟨?_, harmed, (Chip.cmpTime_written e c st _).trans hv, hother, ?_⟩
  · exact congrArg (bit · 5) (Chip.rd_written_eng c st e (by decide))
  · refine Dev.only_of_besides (fun _ _ => rfl) ?_ (x.sameMem_mk _)
    exact congrArg (fun z : Chip => z.besides x.chip) hrest

theorem does_timeCompareFire {k : Nat} (hk : k < 68) (ha : SMap.get false x.chip.cmps k = true)
    (ht : shortDiff x.chip.dt (x.chip.cmpTime k) ≤ 0) :
    Does (.timeCompareFire k) ⟨q, x⟩ (fun y => SMap.get false y.chip.cmps k = false ∧ x.sameMem y
      ∧ ∀ n, n ≠ k → SMap.get false y.chip.cmps n = SMap.get false x.chip.cmps n) := by
  have hc := Chip.cmpFire_due x.cleared.chip ha ht
  refine does_on (exec_timeCompareFire k ⟨q, x⟩) (decide_eq_true hk) hx rfl ⟨?_, x.sameMem_mk _, fun n hn => ?_⟩
  · exact (congrArg (SMap.get false · k) hc).trans ((Chip.cmps_cmpOff _ k).trans (if_pos rfl))
  · exact (congrArg (SMap.get false · n) hc).trans ((Chip.cmps_cmpOff _ n).trans (if_neg hn))

end Commands

/-- Settles O29: a late value disarms alone, any other is stored and armed as ARM says, and what occurs behind a compare
that fires leaves the compares. -/
theorem timeCompares : Obligations.TimeCompares := by
  intro q x hx
  refine ⟨fun sess e w he hb ha => ?_, fun k hk => ⟨fun harm ht => does_timeCompareFire q hx hk harm ht, fun h => ?_⟩⟩
  · have hk : x.chip.trgCmp e < 68 := Chip.trgCmp_lt _ he
    have hlate := Chip.cmpSet_late x.cleared.chip e (k := x.chip.trgCmp e)
    have hset := Chip.cmpSet_stored x.cleared.chip w hk
    have hval := Chip.cmpTime_cmpStored x.cleared.chip (k := x.chip.trgCmp e) w
    refine ⟨fun hon ht => ?_, fun hon ht => ?_, fun hoff => ?_⟩
    · have hw := Chip.cmpWrite_stored x.cleared.chip e (k := x.chip.trgCmp e) w fun _ => ht
      exact (does_timeCompareArm q hx he hb ha hw (hon ▸ hset) hval).mono fun y ⟨hst, _, hy⟩ => ⟨hst, hy⟩
    · have hw := Chip.cmpWrite_late x.cleared.chip e (k := x.chip.trgCmp e) w hon ht
      refine (does_timeCompareArm q hx he hb ha hw hlate (Chip.cmpTime_wr_eng _ _ _ rfl _)).mono
        fun y ⟨hst, hev, hy⟩ => ⟨hst, hy.1, hev.trans (Chip.rb_flag_same _ _ 5 (by decide)), hy.2⟩
    · have hw := Chip.cmpWrite_stored x.cleared.chip e (k := x.chip.trgCmp e) w (fun hon => by simp [hoff] at hon)
      exact (does_timeCompareArm q hx he hb ha hw (hoff ▸ hset) hval).mono fun y ⟨hst, _, hy⟩ => ⟨hst, hy⟩
  · exact does_idle (exec_timeCompareFire k ⟨q, x⟩) (decide_eq_true hk) (Chip.cmpFire_idle x.cleared.chip h)

end Sys2Proof.Machine
end

section
set_option Elab.async false
/-! Combiners, host triggers and global lines (R171-R174): what one evaluation of a combiner does, what a source that
occurs does where a single combiner of its cluster is enabled, and what a firing does to a region that waits for it. -/
namespace Sys2Proof.Machine

/-! # What a firing leaves alone -/

section Fires

variable {γ : Type} (f : Chip → γ) (hr : ∀ (d : Chip) (k : Nat) (c : Rgn), f (d.setRgn k c) = f d)

include hr

theorem Chip.enqueue_keeps (d : Chip) (c : RCfg) (b : Bale) (marker : Bool) (last : Nat) :
    f (d.enqueue c b marker last) = f d := by
  grind [Chip.enqueue]

theorem Chip.closeBale_keeps (d : Chip) (r : Nat) : f (d.closeBale r) = f d := by
  have hput (x : Chip) (c : RCfg) (b : Bale) (m : Bool) (n : Nat) : f (x.enqueue c b m n) = f x := Chip.enqueue_keeps f hr x c b m n
  grind [Chip.closeBale]

theorem Chip.markTrigger_keeps (d : Chip) (r k : Nat) (tent : Bool) : f (d.markTrigger r k tent) = f d := by
  grind [Chip.markTrigger]

variable (hw : ∀ (d : Chip) (e : Nat) (w : Word), f (d.wr (R.CAP_EVENT e) w) = f d)

include hw

theorem Chip.fireRgn_keeps (d : Chip) (r t : Nat) (tent : Bool) : f (d.fireRgn r t tent) = f d := by
  have hlate (x : Chip) (e : Nat) : f (x.flag (R.CAP_EVENT e) 4) = f x := hw x e _
  have hopen (x : Chip) (tn sp : Bool) (l : List Byte) (g : List OTag) : f (x.openWith r tn sp l g) = f x := hr x r _
  have hclose (x : Chip) (k : Nat) : f (x.closeBale k) = f x := Chip.closeBale_keeps f hr x k
  have hmark (x : Chip) (k n : Nat) (tn : Bool) : f (x.markTrigger k n tn) = f x := Chip.markTrigger_keeps f hr x k n tn
  grind [Chip.fireRgn]

theorem Chip.fireRegions_keeps (d : Chip) (global : Bool) (sel cl t : Nat) (tent : Bool) :
    f (d.fireRegions global sel cl t tent) = f d :=
  foldl_keeps f _ (fun x z => by
    dsimp only
    split
    · exact Chip.fireRgn_keeps f hr hw x z.1 t tent
    · rfl) _ d

end Fires

/-! # A firing at a region (R174, R178) -/

section Region

variable {d : Chip} {r t : Nat} {tent : Bool}

theorem Chip.rgn_enqueue_other {c : RCfg} {m : Nat} (h : m ≠ c.rgn) (b : Bale) (marker : Bool) (last : Nat) :
    (d.enqueue c b marker last).rgn m = d.rgn m := by
  have hset (x : Rgn) : (d.setRgn c.rgn x).rgn m = d.rgn m := Chip.rgn_setRgn_other d x h
  grind [Chip.enqueue]

theorem Chip.rgn_closeBale_other {m : Nat} (h : m ≠ r) : (d.closeBale r).rgn m = d.rgn m := by
  unfold Chip.closeBale
  dsimp only
  split
  · rfl
  · exact (Chip.rgn_enqueue_other (c := d.rcfg r) h _ _ _).trans (Chip.rgn_setRgn_other d _ h)

theorem Chip.rgn_markTrigger_other {m : Nat} (h : m ≠ r) (k : Nat) : (d.markTrigger r k tent).rgn m = d.rgn m := by
  unfold Chip.markTrigger
  dsimp only
  split
  · rfl
  · exact Chip.rgn_setRgn_other d _ h

theorem Chip.rgn_fireRgn_other {m : Nat} (h : m ≠ r) : (d.fireRgn r t tent).rgn m = d.rgn m := by
  have hset (c : Chip) (x : Rgn) : (c.setRgn r x).rgn m = c.rgn m := Chip.rgn_setRgn_other c x h
  have hopen (c : Chip) (tn sp : Bool) (l : List Byte) (g : List OTag) : (c.openWith r tn sp l g).rgn m = c.rgn m :=
    Chip.rgn_setRgn_other c _ h
  have hlate (c : Chip) (e : Nat) : (c.flag (R.CAP_EVENT e) 4).rgn m = c.rgn m := rfl
  grind [Chip.fireRgn, Chip.rgn_closeBale_other, Chip.rgn_markTrigger_other]

/-- A region ARMED for a trigger, once per arm, from no later than `t`. -/
structure Chip.WaitsFor (d : Chip) (r t : Nat) : Prop where
  mode  : (d.rcfg r).trigMode = 0
  armed : (d.rgn r).st = .armed
  since : (d.rgn r).armT ≤ t

/-- A region has triggered and takes its post-trigger bales. -/
def Chip.Triggered (d : Chip) (r : Nat) (tent : Bool) : Prop := (d.rgn r).st = .post ∧ (d.rgn r).trigTent = tent

theorem Chip.triggered_markTrigger {x : Rgn} (k : Nat) (hs : x.st = .post) (ht : x.trigTent = tent) :
    ((d.setRgn r x).markTrigger r k tent).Triggered r tent := by
  unfold Chip.markTrigger Chip.Triggered
  simp only [Chip.rgn_setRgn_same]
  split
  · simp [hs, ht]
  · simp [hs, ht]

theorem Chip.triggered_fireRgn (h : d.WaitsFor r t) : (d.fireRgn r t tent).Triggered r tent := by
  obtain ⟨hmode, harmed, hsince⟩ := h
  unfold Chip.fireRgn
  dsimp only
  have hset {c : Chip} {x : Rgn} (hs : x.st = .post) (ht : x.trigTent = tent) : (c.setRgn r x).Triggered r tent := by
    simp [Chip.Triggered, hs, ht]
  have hflag {c : Chip} {q : RegId} {i : Nat} (h : c.Triggered r tent) : (c.flag q i).Triggered r tent := h
  rw [if_neg (by simp [hmode, harmed, Nat.not_lt.mpr hsince])]
  simp only [hmode, Nat.reduceEqDiff, decide_false, Bool.false_eq_true, if_false, false_and]
  split
  · exact hflag (hset rfl rfl)
  · split
    · exact hset rfl rfl
    · split
      · exact hset rfl rfl
      · exact Chip.triggered_markTrigger _ rfl rfl

theorem Chip.fireRgn_of_triggered (h : d.Triggered r tent) : d.fireRgn r t tent = d :=
  if_pos (Or.inr (Or.inr (by simp [h.1])))

theorem Chip.triggered_fireRgn_any (m : Nat) (h : d.Triggered r tent) : (d.fireRgn m t tent).Triggered r tent := by
  obtain rfl | hne := eq_or_ne r m
  · rwa [Chip.fireRgn_of_triggered h]
  · unfold Chip.Triggered
    rwa [Chip.rgn_fireRgn_other hne]

theorem Chip.waitsFor_fireRgn_other {m : Nat} (hm : r ≠ m) (h : d.WaitsFor r t) : (d.fireRgn m t tent).WaitsFor r t := by
  obtain ⟨hmode, harmed, hsince⟩ := h
  have hcfg : (d.fireRgn m t tent).rd (R.rgn_CAP_RGN_CFG r) = d.rd (R.rgn_CAP_RGN_CFG r) :=
    (Chip.blindToCapture_rd (r := R.rgn_CAP_RGN_CFG r) rfl).fireRgn d m t tent
  exact ⟨(congrArg (fld · 8 7) hcfg).trans hmode, by rw [Chip.rgn_fireRgn_other hm]; exact harmed,
    by rw [Chip.rgn_fireRgn_other hm]; exact hsince⟩

/-- A region that waits for a line triggers when the firing comes to it, and those before and after leave it so. -/
theorem Chip.triggered_fireRegions {sel cl : Nat} (hg : (d.rcfg r).global = true) (hs : (d.rcfg r).trigSel = sel)
    (hw : d.WaitsFor r t) : (d.fireRegions true sel cl t tent).Triggered r tent := by
  have hmem : (r, d.rgn r) ∈ d.rgns := SMap.mem_of_get_ne (fun h => by
    have harmed := hw.armed
    rw [show d.rgn r = Rgn.init from h] at harmed
    cases harmed)
  obtain ⟨l, l', hl⟩ := List.append_of_mem hmem
  unfold Chip.fireRegions
  simp only [true_or, and_true]
  rw [hl, List.foldl_append, List.foldl_cons, if_pos ⟨hg, hs⟩]
  have hbefore (x : Chip) (hx : x.WaitsFor r t ∨ x.Triggered r tent) (z : Nat × Rgn) :
      (if (d.rcfg z.1).global = true ∧ (d.rcfg z.1).trigSel = sel then x.fireRgn z.1 t tent else x).WaitsFor r t
        ∨ (if (d.rcfg z.1).global = true ∧ (d.rcfg z.1).trigSel = sel then x.fireRgn z.1 t tent else x).Triggered r tent := by
    split
    · obtain hx | hx := hx
      · obtain hr | hne := eq_or_ne r z.1
        · exact Or.inr (hr ▸ Chip.triggered_fireRgn (hr ▸ hx))
        · exact Or.inl (Chip.waitsFor_fireRgn_other hne hx)
      · exact Or.inr (Chip.triggered_fireRgn_any _ hx)
    · exact hx
  refine List.foldlRecOn (motive := fun x : Chip => x.Triggered r tent) l' _ ?_ fun x hx z _ => ?_
  · obtain hx | hx := List.foldlRecOn (motive := fun x : Chip => x.WaitsFor r t ∨ x.Triggered r tent) l _ (Or.inl hw)
      fun x hx z _ => hbefore x hx z
    · exact Chip.triggered_fireRgn hx
    · exact Chip.triggered_fireRgn_any _ hx
  · split
    · exact Chip.triggered_fireRgn_any _ hx
    · exact hx

end Region

/-! # One combiner (R172, R173) -/

@[simp] theorem Chip.comb_setComb_same (d : Chip) (n : Nat) (x : Comb) : (d.setComb n x).comb n = x :=
  SMap.get_put_same _ _ _ _

theorem Chip.comb_setComb_other (d : Chip) {n m : Nat} (x : Comb) (h : m ≠ n) : (d.setComb n x).comb m = d.comb m :=
  SMap.get_put_other _ _ _ _ h

theorem Chip.comb_congr {d c : Chip} (h : c.combs = d.combs) (n : Nat) : c.comb n = d.comb n :=
  congrArg (SMap.get Comb.init · n) h

section Combiner

variable {d : Chip} {cb : Nat}

/-- The combiner with a result that is false now. -/
def Chip.combLow (d : Chip) (cb : Nat) : Comb :=
  let x := d.comb cb
  { x with result := false
           last := if decide (x.result ∧ 0 < d.core ∧ d.combResult cb (d.core - 1) = true) then some (d.core - 1) else x.last }

theorem Chip.combEval_off (h : d.rb (R.comb_CAP_TRG_CFG cb) 0 = false) (t : Nat) (tent : Bool) :
    d.combEval cb t tent = (none, d) :=
  if_pos (fun hb => Bool.false_ne_true (h.symm.trans hb))

theorem Chip.combEval_false (h : d.rb (R.comb_CAP_TRG_CFG cb) 0 = true) (hr : d.combResult cb d.core = false) (t : Nat)
    (tent : Bool) : d.combEval cb t tent = (none, d.setComb cb (d.combLow cb)) :=
  (if_neg (not_not_intro h)).trans (if_pos (by simp [hr]))

/-- A combiner whose COUNT is 1 fires when its result becomes true. -/
theorem Chip.combEval_fires (h : d.rb (R.comb_CAP_TRG_CFG cb) 0 = true) (hr : d.combResult cb d.core = true)
    (hres : (d.comb cb).result = false) (hlast : (d.comb cb).last ≠ some (d.core - 1)) (hf : (d.comb cb).fired = false)
    (hc : d.rf (R.comb_CAP_TRG_CFG cb) 15 12 = 1) (t : Nat) (tent : Bool) :
    d.combEval cb t tent =
      let tt := tent || (List.range 4).any (fun i => d.termEn cb i && d.term cb d.core i && (d.comb cb).termTent.getD i false)
      (some (d.combTime cb t, tt),
        (d.setComb cb { d.comb cb with result := true, occ := 0 }).combFire cb (d.combTime cb t) tt) := by
  have hcount : fld (d.rd (R.comb_CAP_TRG_CFG cb)) 15 12 = 1 := hc
  refine (if_neg (not_not_intro h)).trans ((if_neg (by simp [hr])).trans ((if_neg (by simp [hres, hlast, hf])).trans ?_))
  simp only [hcount, Nat.one_ne_zero, if_false]
  exact if_neg (by omega)

theorem Chip.combResult_false {c : Nat} (h : ∀ i < 4, d.term cb c i = false) : d.combResult cb c = false := by
  have hall (b : Bool) (hb : b ∈ ((List.range 4).filter (d.termEn cb)).map (d.term cb c)) : b = false := by
    obtain ⟨i, hi, rfl⟩ := List.mem_map.mp hb
    exact h i (List.mem_range.mp (List.mem_of_mem_filter hi))
  unfold Chip.combResult
  dsimp only
  generalize ((List.range 4).filter (d.termEn cb)).map (d.term cb c) = ts at hall
  split
  · cases ts with
    | nil => rfl
    | cons b ts => simp [hall b (by simp)]
  · exact List.any_eq_false.mpr fun b hb => by simp [hall b hb]

/-- Where one term alone is enabled, the combined result is that term. -/
theorem Chip.combResult_single {c i : Nat} (h : (List.range 4).filter (d.termEn cb) = [i]) :
    d.combResult cb c = d.term cb c i := by
  unfold Chip.combResult
  rw [h]
  dsimp only
  split
  · simp
  · simp

theorem Chip.term_event {i : Nat} (hs : srcIsLevel (d.termSrc cb i) = false) (c : Nat) :
    d.term cb c i = decide (c < (d.comb cb).until_.getD i 0) := by
  simp [Chip.term, hs]

/-- No firing of a region reaches the combiners or the log. -/
theorem Chip.fireRegions_combs (d : Chip) (global : Bool) (sel cl t : Nat) (tent : Bool) :
    (d.fireRegions global sel cl t tent).combs = d.combs :=
  Chip.fireRegions_keeps Chip.combs (fun _ _ _ => rfl) (fun _ _ _ => rfl) d global sel cl t tent

theorem Chip.fireRegions_log (d : Chip) (global : Bool) (sel cl t : Nat) (tent : Bool) :
    (d.fireRegions global sel cl t tent).log = d.log :=
  Chip.fireRegions_keeps Chip.log (fun _ _ _ => rfl) (fun _ _ _ => rfl) d global sel cl t tent

/-- A firing sets FIRED. -/
theorem Chip.fired_combFire (d : Chip) (cb t : Nat) (tent : Bool) : ((d.combFire cb t tent).comb cb).fired = true := by
  unfold Chip.combFire
  extract_lets cfg x d1 d2 d3
  have h2 : d2.combs = d1.combs := Chip.evtAt_combs d1 _ _ _ _ _ _
  have h3 : d3.combs = d2.combs := by
    unfold d3
    split
    · rfl
    · rfl
  rw [Chip.comb_congr ((Chip.fireRegions_combs d3 _ _ _ _ _).trans (h3.trans h2)), Chip.comb_setComb_same]

/-- A firing logs its TRIGGER event at the present Device Time. -/
theorem Chip.event_combFire (d : Chip) (cb t : Nat) (tent : Bool) :
    ∃ v, v ∈ (d.combFire cb t tent).log.entries ∧ v.src = 0x3000 + cb / 8 ∧ v.code = 0x0604 ∧ v.time = d.dt
      ∧ v.det = (cb % 8 + if tent then 256 else 0) ∧ v.ext = t * 2 ^ 64 := by
  unfold Chip.combFire
  extract_lets cfg x d1 d2 d3
  have h3 : d3.log = d2.log := by
    unfold d3
    split
    · rfl
    · rfl
  have h2 := Chip.evtAt_log d1 d1.dt (0x3000 + cb / 8) 0x0604 0xFFFF (cb % 8 + if tent then 256 else 0) (t * 2 ^ 64)
  rw [Chip.fireRegions_log, h3, show d2.log = _ from h2]
  exact ⟨_, List.mem_cons_self, rfl, rfl, rfl, rfl, rfl⟩

end Combiner
end Sys2Proof.Machine
end

section
set_option Elab.async false
/-! Combiners, host triggers and global lines (R171-R173, R178), continued: a source that occurs, the writes that enable a
combiner, pulse a host trigger and clear FIRED, and the commands. -/
namespace Sys2Proof.Machine

/-! # A source that occurs (R171, R172) -/

/-- Where one element of a list without repetition alone does something, a run over the list does that. -/
theorem foldl_single {α β : Type} (g : α → β → α) {l : List β} (hl : l.Nodup) {m : β} (hm : m ∈ l) (a : α)
    (h1 : ∀ b ∈ l, b ≠ m → g a b = a) (h2 : ∀ b ∈ l, b ≠ m → g (g a m) b = g a m) : l.foldl g a = g a m := by
  obtain ⟨l1, l2, rfl⟩ := List.append_of_mem hm
  obtain ⟨-, hl2, hdis⟩ := List.nodup_append.mp hl
  have hn1 (b : β) (hb : b ∈ l1) : b ≠ m := hdis b hb m List.mem_cons_self
  have hn2 (b : β) (hb : b ∈ l2) : b ≠ m := fun h => (List.nodup_cons.mp hl2).1 (h ▸ hb)
  have hstart : l1.foldl g a = a := List.foldlRecOn (motive := (· = a)) l1 g rfl
    fun x hx b hb => by rw [hx]; exact h1 b (by simp [hb]) (hn1 b hb)
  rw [List.foldl_append, List.foldl_cons, hstart]
  exact List.foldlRecOn (motive := (· = g a m)) l2 g rfl
    fun x hx b hb => by rw [hx]; exact h2 b (by simp [hb]) (hn2 b hb)

section Raise

variable {d : Chip} {cl i t : Nat} {tent : Bool}

/-- What an occurrence of source `i` does at combiner `n` of a cluster: the combiner is evaluated without and with it,
and is itself a source where it fires. -/
def Chip.raiseStep (cl fuel i t : Nat) (tent : Bool) (x : Chip) (n : Nat) : Chip :=
  let cb := cl * 8 + n
  let cfg := x.rd (R.comb_CAP_TRG_CFG cb)
  if bit cfg 0 && (!tent || bit cfg 10) && decide (i ≠ 0xC0 + n)
      && (List.range 4).any (fun k => x.termEn cb k && decide (x.termSrc cb k = i)) then
    let z := ((x.combEval cb t false).2.termEvent cb i t tent).combEval cb t tent
    match z.1 with
    | some f => z.2.raiseN cl fuel (0xC0 + n) f.1 f.2
    | none => z.2
  else x

theorem Chip.raiseN_succ (d : Chip) (cl fuel i t : Nat) (tent : Bool) :
    d.raiseN cl (fuel + 1) i t tent = (List.range 8).foldl (Chip.raiseStep cl fuel i t tent) d := rfl

theorem Chip.raiseStep_off (fuel : Nat) {n : Nat} (h : d.rb (R.comb_CAP_TRG_CFG (cl * 8 + n)) 0 = false ∨ i = 0xC0 + n) :
    d.raiseStep cl fuel i t tent n = d := by
  refine if_neg fun hc => ?_
  simp only [Bool.and_eq_true, decide_eq_true_eq] at hc
  obtain ⟨⟨⟨hbit, -⟩, hself⟩, -⟩ := hc
  exact h.elim (fun hoff => Bool.false_ne_true (hoff.symm.trans hbit)) hself

/-- A source that occurs does nothing where every combiner that could name it is disabled or is itself the source. -/
theorem Chip.raiseN_idle (h : ∀ n < 8, d.rb (R.comb_CAP_TRG_CFG (cl * 8 + n)) 0 = false ∨ i = 0xC0 + n) (fuel : Nat) :
    d.raiseN cl fuel i t tent = d := by
  cases fuel with
  | zero => rfl
  | succ fuel =>
    rw [Chip.raiseN_succ]
    exact List.foldlRecOn (motive := (· = d)) _ _ rfl fun x hx n hn => by
      rw [hx]
      exact Chip.raiseStep_off fuel (h n (List.mem_range.mp hn))

theorem Chip.raise_idle (h : ∀ cb, d.rb (R.comb_CAP_TRG_CFG cb) 0 = false) : d.raise cl i t tent = d :=
  Chip.raiseN_idle (fun _ _ => Or.inl (h _)) 8

/-- The configuration of a combiner is left by what its evaluation does. -/
theorem Chip.rd_combCfg {y : Chip} (n : Nat)
    (h : ∀ {γ : Type} (f : Chip → γ), Chip.BlindToCapture f → f y = f d) :
    y.rd (R.comb_CAP_TRG_CFG n) = d.rd (R.comb_CAP_TRG_CFG n) :=
  h _ (Chip.blindToCapture_rd (r := R.comb_CAP_TRG_CFG n) rfl)

end Raise

/-! ## A combiner that waits for one host trigger -/

/-- Combiner `m` is the only one enabled in its cluster, host trigger `k` the only source it waits for, its COUNT is 1,
and it has not fired and is false in this cycle and in the one before. -/
structure Chip.Poised (d : Chip) (cl m k : Nat) : Prop where
  alone : ∀ n, n < 8 → (d.rb (R.comb_CAP_TRG_CFG (cl * 8 + n)) 0 = true ↔ n = m)
  terms : fld (d.rd (R.comb_CAP_TRG_CFG (cl * 8 + m))) 5 2 = 1
  src   : d.termSrc (cl * 8 + m) 0 = 0xD0 + k
  count : d.rf (R.comb_CAP_TRG_CFG (cl * 8 + m)) 15 12 = 1
  fired : (d.comb (cl * 8 + m)).fired = false
  low   : (d.comb (cl * 8 + m)).until_.getD 0 0 < d.core
  last  : (d.comb (cl * 8 + m)).last ≠ some (d.core - 1)

section Host

variable {d : Chip} {cl m k : Nat}

theorem Chip.termEn_eq (d : Chip) (cb : Nat) {i : Nat} (hi : i < 4) :
    d.termEn cb i = (fld (d.rd (R.comb_CAP_TRG_CFG cb)) 5 2).testBit i := by
  rw [testBit_fld, decide_eq_true (by omega), Bool.true_and]
  rfl

/-- Term 0 is the only one enabled. -/
theorem Chip.Poised.termEn (h : d.Poised cl m k) {i : Nat} (hi : i < 4) : d.termEn (cl * 8 + m) i = decide (i = 0) := by
  rw [Chip.termEn_eq d _ hi, h.terms, Bool.eq_iff_iff, Nat.testBit_one_eq_true_iff_self_eq_zero, decide_eq_true_iff]

theorem filter_zero {p : Nat → Bool} (h : ∀ i < 4, p i = decide (i = 0)) : (List.range 4).filter p = [0] :=
  (List.filter_congr fun i hi => h i (List.mem_range.mp hi)).trans (by decide)

theorem srcIsLevel_host (k : Nat) : srcIsLevel (0xD0 + k) = false := by
  unfold srcIsLevel
  rw [decide_eq_false (by omega), Bool.false_and]

theorem Chip.Poised.term (h : d.Poised cl m k) (c : Nat) :
    d.combResult (cl * 8 + m) c = decide (c < (d.comb (cl * 8 + m)).until_.getD 0 0) := by
  rw [Chip.combResult_single (filter_zero fun _ => h.termEn), Chip.term_event (by rw [h.src]; exact srcIsLevel_host k)]

/-- The combiner as the host trigger of time `t` leaves its term. -/
def Chip.hostHeard (d : Chip) (cb k t : Nat) : Chip := (d.combEval cb t false).2.termEvent cb (0xD0 + k) t false

theorem Chip.Poised.eval (h : d.Poised cl m k) (hm : m < 8) (t : Nat) :
    d.combEval (cl * 8 + m) t false = (none, d.setComb (cl * 8 + m) { d.comb (cl * 8 + m) with result := false }) := by
  have hpast : d.combResult (cl * 8 + m) (d.core - 1) = false := by
    have := h.low
    rw [h.term]
    exact decide_eq_false (by omega)
  have hlow : d.combLow (cl * 8 + m) = { d.comb (cl * 8 + m) with result := false } := by
    simp [Chip.combLow, hpast]
  rw [Chip.combEval_false ((h.alone m hm).mpr rfl) (by rw [h.term]; exact decide_eq_false (Nat.lt_asymm h.low)), hlow]

theorem Chip.termEvent_first {cb i t : Nat} {tent : Bool} (hen : d.termEn cb 0 = true) (hs : d.termSrc cb 0 = i) :
    let c := (d.termEvent cb i t tent).comb cb
    c.until_.getD 0 0 = d.core + d.combHold cb ∧ c.termT.getD 0 0 = t ∧ c.termTent.getD 0 false = tent := by
  simp [Chip.termEvent, List.range_succ_eq_map, hen, hs]

/-- What the combiner holds once the host trigger has come. -/
theorem Chip.Poised.comb_heard (h : d.Poised cl m k) (hm : m < 8) (t : Nat) :
    let c := (d.hostHeard (cl * 8 + m) k t).comb (cl * 8 + m)
    (c.result = false ∧ c.last ≠ some (d.core - 1) ∧ c.fired = false)
      ∧ c.until_.getD 0 0 = d.core + d.combHold (cl * 8 + m) ∧ c.termT.getD 0 0 = t ∧ c.termTent.getD 0 false = false := by
  have hen : d.termEn (cl * 8 + m) 0 = true := h.termEn (by decide)
  unfold Chip.hostHeard
  rw [h.eval hm]
  refine ⟨?_, Chip.termEvent_first (d := d.setComb (cl * 8 + m) _) hen h.src⟩
  simp only [Chip.termEvent, Chip.comb_setComb_same]
  exact ⟨trivial, h.last, h.fired⟩

theorem Chip.Poised.regs_heard (h : d.Poised cl m k) (hm : m < 8) (t : Nat) :
    (d.hostHeard (cl * 8 + m) k t).regs = d.regs ∧ (d.hostHeard (cl * 8 + m) k t).core = d.core
      ∧ (d.hostHeard (cl * 8 + m) k t).dt = d.dt := by
  unfold Chip.hostHeard
  rw [h.eval hm]
  exact ⟨rfl, rfl, rfl⟩

/-- A combiner that waits for one host trigger fires when it comes, at the time it came. -/
theorem Chip.Poised.fires (h : d.Poised cl m k) (hm : m < 8) (t : Nat) :
    ∃ c : Chip, c.dt = d.dt
      ∧ (d.hostHeard (cl * 8 + m) k t).combEval (cl * 8 + m) t false = (some (t, false), c.combFire (cl * 8 + m) t false) := by
  obtain ⟨⟨hres, hlast, hfired⟩, huntil, hterm, htent⟩ := h.comb_heard hm t
  obtain ⟨hregs, hcore, hdt⟩ := h.regs_heard hm t
  generalize d.hostHeard (cl * 8 + m) k t = y at *
  have hrd (r : RegId) : y.rd r = d.rd r := Chip.rd_congr hregs r
  have hen {i : Nat} (hi : i < 4) : y.termEn (cl * 8 + m) i = decide (i = 0) :=
    (congrArg (bit · (2 + i)) (hrd _)).trans (h.termEn hi)
  have hlevel : srcIsLevel (y.termSrc (cl * 8 + m) 0) = false := by
    rw [show y.termSrc (cl * 8 + m) 0 = 0xD0 + k from (congrArg (fld · 7 0) (hrd _)).trans h.src]
    exact srcIsLevel_host k
  have hhold : d.combHold (cl * 8 + m) = y.combHold (cl * 8 + m) :=
    congrArg (fun w => max 1 (fld w 27 20 * 1000)) (hrd _).symm
  rw [hhold, ← hcore] at huntil
  have htrue : y.combResult (cl * 8 + m) y.core = true := by
    have hpos : 1 ≤ y.combHold (cl * 8 + m) := Nat.le_max_left _ _
    rw [Chip.combResult_single (filter_zero fun _ => hen), Chip.term_event hlevel, huntil]
    exact decide_eq_true (by omega)
  have htime : y.combTime (cl * 8 + m) t = t := by
    unfold Chip.combTime
    rw [filter_zero fun i hi => ?_]
    · simp only [List.foldl_cons, List.foldl_nil, hterm, Nat.max_self]
    · rw [hen hi]
      obtain rfl | hne := eq_or_ne i 0
      · rw [hlevel, huntil]
        simp
      · simp [hne]
  have htt : (List.range 4).any (fun i => y.termEn (cl * 8 + m) i && y.term (cl * 8 + m) y.core i
      && (y.comb (cl * 8 + m)).termTent.getD i false) = false := by
    refine List.any_eq_false.mpr fun i hi => ?_
    rw [hen (List.mem_range.mp hi)]
    obtain rfl | hne := eq_or_ne i 0
    · rw [htent]
      simp
    · simp [hne]
  have heval := Chip.combEval_fires (t := t) (tent := false) ((congrArg (bit · 0) (hrd _)).trans ((h.alone m hm).mpr rfl))
    htrue hres (by rw [hcore]; exact hlast) hfired ((congrArg (fld · 15 12) (hrd _)).trans h.count)
  rw [heval, htime, htt]
  refine ⟨_, ?_, rfl⟩
  exact hdt

/-- What is enabled in the cluster stays so through whatever leaves the combiners' configuration. -/
theorem Chip.Poised.off (h : d.Poised cl m k) {y : Chip}
    (hy : ∀ n, y.rd (R.comb_CAP_TRG_CFG n) = d.rd (R.comb_CAP_TRG_CFG n)) {n : Nat} (hn : n < 8) (hne : n ≠ m) :
    y.rb (R.comb_CAP_TRG_CFG (cl * 8 + n)) 0 = false := by
  refine (congrArg (bit · 0) (hy _)).trans (Bool.eq_false_iff.mpr fun hon => hne ((h.alone n hn).mp hon))

theorem Chip.Poised.step (h : d.Poised cl m k) (hm : m < 8) (fuel t : Nat) :
    ∃ c : Chip, c.dt = d.dt ∧ d.raiseStep cl fuel (0xD0 + k) t false m = c.combFire (cl * 8 + m) t false
      ∧ ∀ n, (c.combFire (cl * 8 + m) t false).rd (R.comb_CAP_TRG_CFG n) = d.rd (R.comb_CAP_TRG_CFG n) := by
  obtain ⟨c, hdt, hfire⟩ := h.fires hm t
  have hnames : (List.range 4).any (fun j => d.termEn (cl * 8 + m) j && decide (d.termSrc (cl * 8 + m) j = 0xD0 + k)) = true :=
    List.any_eq_true.mpr ⟨0, by simp, by rw [h.termEn (by decide), h.src]; simp⟩
  have hgo : (bit (d.rd (R.comb_CAP_TRG_CFG (cl * 8 + m))) 0 && (!false || bit (d.rd (R.comb_CAP_TRG_CFG (cl * 8 + m))) 10)
      && decide (0xD0 + k ≠ 0xC0 + m)
      && (List.range 4).any (fun j => d.termEn (cl * 8 + m) j && decide (d.termSrc (cl * 8 + m) j = 0xD0 + k))) = true := by
    rw [hnames, show bit (d.rd (R.comb_CAP_TRG_CFG (cl * 8 + m))) 0 = true from (h.alone m hm).mpr rfl]
    simp
    omega
  have hcfg (n : Nat) : (c.combFire (cl * 8 + m) t false).rd (R.comb_CAP_TRG_CFG n) = d.rd (R.comb_CAP_TRG_CFG n) := by
    have hy := Chip.rd_combCfg (d := d.hostHeard (cl * 8 + m) k t)
      (y := ((d.hostHeard (cl * 8 + m) k t).combEval (cl * 8 + m) t false).2) n fun f K => K.combEval _ _ _ _
    rw [hfire] at hy
    exact hy.trans (Chip.rd_congr (h.regs_heard hm t).1 _)
  have hself : (c.combFire (cl * 8 + m) t false).raiseN cl fuel (0xC0 + m) t false = c.combFire (cl * 8 + m) t false := by
    refine Chip.raiseN_idle (fun n hn => ?_) fuel
    obtain rfl | hne := eq_or_ne n m
    · exact Or.inr rfl
    · exact Or.inl (h.off hcfg hn hne)
  refine ⟨c, hdt, (if_pos hgo).trans ?_, hcfg⟩
  unfold Chip.hostHeard at hfire
  simp only [hfire]
  exact hself

/-- The host trigger of such a combiner does nothing in its cluster but make it fire. -/
theorem Chip.Poised.raise (h : d.Poised cl m k) (hm : m < 8) (t : Nat) :
    ∃ c : Chip, c.dt = d.dt ∧ d.raise cl (0xD0 + k) t = c.combFire (cl * 8 + m) t false := by
  obtain ⟨c, hdt, hstep, hcfg⟩ := h.step hm 7 t
  refine ⟨c, hdt, ((Chip.raiseN_succ d cl 7 (0xD0 + k) t false).trans ?_).trans hstep⟩
  rw [← hstep] at hcfg
  refine foldl_single _ List.nodup_range (List.mem_range.mpr hm) d (fun n hn hne => ?_) fun n hn hne => ?_
  · exact Chip.raiseStep_off 7 (Or.inl (h.off (fun _ => rfl) (List.mem_range.mp hn) hne))
  · exact Chip.raiseStep_off 7 (Or.inl (h.off hcfg (List.mem_range.mp hn) hne))

end Host

/-! # Writes of CAP_TRG_CFG and CAP_TRG_CMD -/

/-- A field that a write stores whole holds what was written. -/
theorem Chip.rf_store_keep {d : Chip} {t : RegId} {row : Row} (w : Word) {keep : Word} {hi lo : Nat} (hr : t.row = some row)
    (hm : ∀ i < 32, lo ≤ i → i ≤ hi → bit (w32 (row.rw ||| row.ot) &&& ~~~keep) i = true) (h : hi < 32) :
    (d.store t w keep).rf t hi lo = fld w hi lo := by
  simp only [Chip.rf, Chip.store, hr, Chip.rd_wr_same]
  refine Nat.eq_of_testBit_eq fun j => ?_
  rw [testBit_fld, testBit_fld]
  by_cases hj : j < hi + 1 - lo
  · have hi' : lo + j < 32 := by omega
    have hb := hm (lo + j) hi' (by omega) (by omega)
    generalize w32 (row.rw ||| row.ot) &&& ~~~keep = mask at hb ⊢
    simp only [bit_or, bit_and, bit_not _ hi', hb]
    simp
  · simp [hj]

section Writes

variable {d : Chip} {e cb : Nat} {w : Word}

theorem Chip.combCfgWrite_stays (hw : bit w 0 = true) (hd : d.rb (R.comb_CAP_TRG_CFG cb) 0 = true) :
    d.combCfgWrite e cb w = (.ok, d.store (R.comb_CAP_TRG_CFG cb) w 1) := by
  simp [Chip.combCfgWrite, hw, hd]

theorem Chip.combCfgWrite_enable (hw : bit w 0 = true) (hd : d.rb (R.comb_CAP_TRG_CFG cb) 0 = false) :
    d.combCfgWrite e cb w = (d.store (R.comb_CAP_TRG_CFG cb) w 1).combEnable e cb := by
  simp [Chip.combCfgWrite, hw, hd]

theorem Chip.combEnable_empty (h : d.rf (R.comb_CAP_TRG_CFG cb) 5 2 = 0) :
    d.combEnable e cb = (.badParam, (d.unflag (R.comb_CAP_TRG_CFG cb) 0).flag (R.CAP_EVENT e) 9) :=
  if_pos h

/-- The combiner that a write enables: it has not fired, and none of its terms has been seen. -/
def Chip.combStarted (d : Chip) (cb : Nat) : Chip := (d.flag (R.comb_CAP_TRG_CFG cb) 0).setComb cb Comb.init

/-- A combiner of event terms starts false, as no event has come to it yet. -/
theorem Chip.combEnable_events (h : d.rf (R.comb_CAP_TRG_CFG cb) 5 2 ≠ 0)
    (hs : ∀ i < 4, srcIsLevel (d.termSrc cb i) = false) :
    d.combEnable e cb = (.ok, (d.combStarted cb).setComb cb Comb.init) := by
  have hsrc (i : Nat) : (d.combStarted cb).termSrc cb i = d.termSrc cb i :=
    congrArg (fld · (8 * i + 7) (8 * i))
      (Chip.rd_flag_other d (r := R.comb_CAP_TRG_CFG cb) (q := R.comb_CAP_TRG_SRC cb) 0 (RegId.key_ne_of_offs (by decide)))
  have hcomb : (d.combStarted cb).comb cb = Comb.init := Chip.comb_setComb_same _ cb _
  have hlow : (d.combStarted cb).combResult cb (d.combStarted cb).core = false := Chip.combResult_false fun i hi => by
    rw [Chip.term_event (by rw [hsrc]; exact hs i hi), hcomb]
    exact decide_eq_false (by
      rw [show Comb.init.until_ = List.replicate 4 0 from rfl, List.getD_replicate _ hi]
      exact Nat.not_lt_zero _)
  have hon : (d.combStarted cb).rb (R.comb_CAP_TRG_CFG cb) 0 = true := Chip.rb_flag_same d _ 0 (by decide)
  have hdrop : (d.combStarted cb).combLow cb = Comb.init := by
    simp [Chip.combLow, hcomb, Comb.init]
  have heval := Chip.combEval_false hon hlow (d.combStarted cb).dt false
  rw [hdrop] at heval
  refine (if_neg h).trans ?_
  unfold Chip.combStarted at heval ⊢
  simp only [heval]

theorem hostWord : ∀ k < 8, bit (w32 (2 ^ k)) 8 = false ∧ fld (w32 (2 ^ k)) 7 0 = 2 ^ k ∧ 2 ^ k % 256 = 2 ^ k := by decide

theorem Chip.trgCmd_host (d : Chip) (e : Nat) {k : Nat} (hk : k < 8) :
    d.trgCmd e (w32 (2 ^ k)) = d.raise (e / 8) (0xD0 + k) d.dt := by
  obtain ⟨hbit, hfld, -⟩ := hostWord k hk
  unfold Chip.trgCmd Chip.hostTrigger
  simp only [hbit, hfld, Bool.false_eq_true, if_false]
  have hoff (x : Chip) (j : Nat) (hne : j ≠ k) :
      (if (2 ^ k).testBit j = true then x.raise (e / 8) (0xD0 + j) x.dt else x) = x :=
    if_neg (by simp [hne.symm])
  exact (foldl_single _ List.nodup_range (List.mem_range.mpr hk) d (fun j _ hne => hoff d j hne)
    fun j _ hne => hoff _ j hne).trans (if_pos (by simp))

theorem Chip.trgCmd_clear (d : Chip) (e : Nat) : d.trgCmd e (w32 256) = d.clearFired (d.trgComb e) := by
  have h8 : bit (w32 256) 8 = true := by decide
  have h0 : fld (w32 256) 7 0 = 0 := by decide
  unfold Chip.trgCmd Chip.hostTrigger
  simp only [h8, h0, if_true, Nat.zero_testBit, Bool.false_eq_true, if_false]
  exact List.foldl_fixed _

end Writes

/-- The terms that a write of CAP_TRG_CFG enables are those of its word. -/
theorem Chip.rf_trgCfg_stored (d : Chip) (cb : Nat) (w : Word) :
    (d.store (R.comb_CAP_TRG_CFG cb) (setFld w 0 0 1) 1).rf (R.comb_CAP_TRG_CFG cb) 5 2 = fld w 5 2 :=
  (Chip.rf_store_keep (t := R.comb_CAP_TRG_CFG cb) _ rfl (by decide) (by decide)).trans
    (fld_setFld_other w 1 (by decide) (by decide) (by decide))

/-! # Global lines and the hold of a term (R172) -/

theorem Chip.globalLine_due {d : Chip} {n : Nat} {l : LineFire} (hl : d.lines.find? (fun v => v.line = n) = some l)
    (ht : l.due ≤ d.core) (hoff : ∀ cb, d.rb (R.comb_CAP_TRG_CFG cb) 0 = false) :
    d.globalLine n = ({ d with lines := d.lines.erase l } : Chip).fireRegions true n 0 l.t l.tent := by
  unfold Chip.globalLine
  simp only [hl, if_neg (Nat.not_lt.mpr ht)]
  generalize hz : ({ d with lines := d.lines.erase l } : Chip).fireRegions true n 0 l.t l.tent = z
  have hcfg (cb : Nat) : z.rb (R.comb_CAP_TRG_CFG cb) 0 = false := by
    rw [← hoff cb, ← hz]
    exact congrArg (bit · 0)
      ((Chip.blindToCapture_rd (r := R.comb_CAP_TRG_CFG cb) rfl).fireRegions _ true n 0 l.t l.tent)
  exact List.foldlRecOn (motive := (· = z)) _ _ rfl fun x hx c _ => by
    rw [hx]
    exact Chip.raise_idle hcfg

theorem Chip.globalLine_early {d : Chip} {n : Nat} {l : LineFire} (hl : d.lines.find? (fun v => v.line = n) = some l)
    (ht : d.core < l.due) : d.globalLine n = d := by
  unfold Chip.globalLine
  simp only [hl, if_pos ht]

theorem Chip.globalLine_none {d : Chip} {n : Nat} (hl : d.lines.find? (fun v => v.line = n) = none) : d.globalLine n = d := by
  unfold Chip.globalLine
  simp only [hl]

theorem Chip.termExpire_false {d : Chip} {cb i : Nat} (ht : (d.comb cb).until_.getD i 0 < d.core)
    (hon : d.rb (R.comb_CAP_TRG_CFG cb) 0 = true) (hr : d.combResult cb d.core = false) :
    d.termExpire cb i = d.setComb cb (d.combLow cb) :=
  (if_pos ht).trans (congrArg Prod.snd (Chip.combEval_false hon hr d.dt false))

theorem Chip.termExpire_idle {d : Chip} {cb i : Nat}
    (h : d.core ≤ (d.comb cb).until_.getD i 0 ∨ d.rb (R.comb_CAP_TRG_CFG cb) 0 = false) : d.termExpire cb i = d := by
  unfold Chip.termExpire
  obtain ht | hoff := h
  · exact if_neg (Nat.not_lt.mpr ht)
  · rw [Chip.combEval_off hoff]
    split
    · rfl
    · rfl

/-! # The commands -/

theorem exec_combinerEnable (sess e : Nat) (w : Word) (s : State) : exec (.combinerEnable sess e w) s
    = command (engineOk e) false (fun x => x.hostWrite sess (R.CAP_TRG_CFG e) (setFld w 0 0 1)) s := rfl

theorem exec_hostTrigger (sess e : Nat) {k : Nat} (hk : k < 8) (s : State) : exec (.hostTrigger sess e (2 ^ k)) s
    = command (engineOk e) false (fun x => x.hostWrite sess (R.CAP_TRG_CMD e) (w32 (2 ^ k))) s := by
  have h : exec (.hostTrigger sess e (2 ^ k)) s
      = command (engineOk e) false (fun x => x.hostWrite sess (R.CAP_TRG_CMD e) (w32 (2 ^ k % 256))) s := rfl
  rw [h, (hostWord k hk).2.2]

theorem exec_clearFired (sess e : Nat) (s : State) : exec (.clearFired sess e) s
    = command (engineOk e) false (fun x => x.hostWrite sess (R.CAP_TRG_CMD e) (w32 256)) s := rfl

theorem exec_globalTriggerLine (n : Nat) (s : State) : exec (.globalTriggerLine n) s
    = command (triggerLineOk n) false (fun x => x.on (fun d => d.globalLine n)) s := rfl

theorem exec_termHoldExpiry (cb i : Nat) (s : State) : exec (.termHoldExpiry cb i) s
    = command (engineOk cb && decide (i < 4)) false (fun x => x.on (fun d => d.termExpire cb i)) s := rfl

section Commands

variable (q : List Instr) {x : Dev} (hx : x.live) {sess e : Nat}

include hx

section Write

variable (he : e < 136) (hb : x.chip.subBusy e = false)

include he hb

/-- A write of CAP_TRG_CFG that sets ENABLE leaves what its effect leaves. -/
theorem does_combinerEnable {w : Word} {st : Status} {c : Chip} {P : Dev → Prop}
    (ha : x.allows sess (R.CAP_TRG_CFG e) (setFld w 0 0 1))
    (hw : x.cleared.chip.combCfgWrite e (x.chip.trgComb e) (setFld w 0 0 1) = (st, c)) (hp : P ⟨c.written st e, x.mem⟩) :
    Does (.combinerEnable sess e w) ⟨q, x⟩ (fun y => y.answered st ∧ P y) :=
  have hwr : x.cleared.writeEng e (R.CAP_TRG_CFG e) (x.cleared.chip.reach (R.CAP_TRG_CFG e)) (setFld w 0 0 1)
      = (st, ⟨c, x.mem⟩) := congrArg (fun r : Status × Chip => (r.1, Dev.mk r.2 x.mem)) hw
  does_hostWrite_eng q hx (exec_combinerEnable sess e w ⟨q, x⟩) (decide_eq_true he) ha hb rfl hwr hp

/-- A write of CAP_TRG_CMD is answered OK and leaves what its effect leaves. -/
theorem does_trgCmd {i : Instr} {w : Word} {c : Chip} {P : Dev → Prop}
    (hi : exec i ⟨q, x⟩ = command (engineOk e) false (fun y => y.hostWrite sess (R.CAP_TRG_CMD e) w) ⟨q, x⟩)
    (ha : x.allows sess (R.CAP_TRG_CMD e) w) (hw : x.cleared.chip.trgCmd e w = c) (hp : P ⟨c.written .ok e, x.mem⟩) :
    Does i ⟨q, x⟩ (fun y => y.answered .ok ∧ P y) :=
  have hwr : x.cleared.writeEng e (R.CAP_TRG_CMD e) (x.cleared.chip.reach (R.CAP_TRG_CMD e)) w = (.ok, ⟨c, x.mem⟩) :=
    congrArg (fun z : Chip => (Status.ok, Dev.mk z x.mem)) hw
  does_hostWrite_eng q hx hi (decide_eq_true he) ha hb rfl hwr hp

section Enable

variable {w : Word} (ha : x.allows sess (R.CAP_TRG_CFG e) (setFld w 0 0 1))

include ha

theorem does_combinerEnable_stays (hd : x.chip.rb (R.comb_CAP_TRG_CFG (x.chip.trgComb e)) 0 = true) :
    Does (.combinerEnable sess e w) ⟨q, x⟩ (fun y => y.answered .ok
      ∧ y.chip.rb (R.comb_CAP_TRG_CFG (x.chip.trgComb e)) 0 = true ∧ x.only y) := by
  refine does_combinerEnable q hx he hb ha
    (Chip.combCfgWrite_stays (d := x.cleared.chip) (bit_setFld_one w (by decide)) hd) ⟨?_, ?_⟩
  · refine (congrArg (bit · 0) (Chip.rd_written _ .ok e (by decide))).trans ?_
    exact (Chip.rb_store_kept x.cleared.chip _ 1 (t := R.comb_CAP_TRG_CFG _) rfl (by decide) (by decide) (by decide)).trans hd
  · exact Dev.only_of_eq ((Chip.written_besides _ .ok e x.chip).trans (Chip.store_keep_besides x.cleared.chip _ 1 x.chip))

variable (hd : x.chip.rb (R.comb_CAP_TRG_CFG (x.chip.trgComb e)) 0 = false)

include hd

theorem does_combinerEnable_empty (hn : fld w 5 2 = 0) :
    Does (.combinerEnable sess e w) ⟨q, x⟩ (fun y => y.answered .badParam ∧ y.chip.rb (R.CAP_EVENT e) 9 = true
      ∧ y.chip.rb (R.comb_CAP_TRG_CFG (x.chip.trgComb e)) 0 = false ∧ x.only y
      ∧ x.regsBut y [R.comb_CAP_TRG_CFG (x.chip.trgComb e), R.CAP_EVENT e]) := by
  have hterms := (Chip.rf_trgCfg_stored x.cleared.chip (x.chip.trgComb e) w).trans hn
  have hbes := Chip.store_keep_besides x.cleared.chip (t := R.comb_CAP_TRG_CFG (x.chip.trgComb e)) (setFld w 0 0 1) 1 x.chip
  have hrd {r : RegId} := Chip.rd_store_keep_other x.cleared.chip (t := R.comb_CAP_TRG_CFG (x.chip.trgComb e)) (r := r)
    (setFld w 0 0 1) 1
  have hw := (Chip.combCfgWrite_enable (d := x.cleared.chip) (e := e) (bit_setFld_one w (by decide)) hd).trans
    (Chip.combEnable_empty hterms)
  generalize x.cleared.chip.store (R.comb_CAP_TRG_CFG (x.chip.trgComb e)) (setFld w 0 0 1) 1 = d1 at hw hbes hrd
  refine does_combinerEnable q hx he hb ha hw ⟨?_, ?_, ?_, fun r hr _ => ?_⟩
  · exact (congrArg (bit · 9) (Chip.rd_written_eng _ .badParam e (by decide))).trans (Chip.rb_flag_same _ _ 9 (by decide))
  · refine (congrArg (bit · 0) (Chip.rd_written _ .badParam e (by decide))).trans ?_
    exact (congrArg (bit · 0) (Chip.rd_wr_eng _ _ rfl (by decide))).trans (Chip.rb_unflag_same _ _ (by decide))
  · exact Dev.only_of_eq ((Chip.written_besides _ .badParam e x.chip).trans
      ((Chip.wr_besides _ (R.CAP_EVENT e) _ _).trans ((Chip.wr_besides d1 _ _ _).trans hbes)))
  · refine (Chip.rd_written_failed _ e (by decide) r).trans ((Chip.rd_flag_other _ 9 (hr (R.CAP_EVENT e) (by simp))).trans ?_)
    have hne := hr (R.comb_CAP_TRG_CFG (x.chip.trgComb e)) (by simp)
    exact (Chip.rd_sf_other _ 0 0 0 hne).trans (hrd hne)

theorem does_combinerEnable_events (hn : fld w 5 2 ≠ 0)
    (hs : ∀ i < 4, srcIsLevel (x.chip.termSrc (x.chip.trgComb e) i) = false) :
    Does (.combinerEnable sess e w) ⟨q, x⟩ (fun y => y.answered .ok
      ∧ y.chip.rb (R.comb_CAP_TRG_CFG (x.chip.trgComb e)) 0 = true
      ∧ (y.chip.comb (x.chip.trgComb e)).fired = false ∧ (y.chip.comb (x.chip.trgComb e)).occ = 0
      ∧ (∀ n, n ≠ x.chip.trgComb e → y.chip.comb n = x.chip.comb n)
      ∧ x.only y (fun c => { c with combs := y.chip.combs })) := by
  have hterms : (x.cleared.chip.store (R.comb_CAP_TRG_CFG (x.chip.trgComb e)) (setFld w 0 0 1) 1).rf
      (R.comb_CAP_TRG_CFG (x.chip.trgComb e)) 5 2 ≠ 0 := (Chip.rf_trgCfg_stored x.cleared.chip (x.chip.trgComb e) w).trans_ne hn
  have hsrc (i : Nat) (hi : i < 4) : srcIsLevel ((x.cleared.chip.store (R.comb_CAP_TRG_CFG (x.chip.trgComb e))
      (setFld w 0 0 1) 1).termSrc (x.chip.trgComb e) i) = false := by
    rw [← hs i hi]
    exact congrArg (fun v => srcIsLevel (fld v (8 * i + 7) (8 * i)))
      (Chip.rd_store_keep_other x.cleared.chip (r := R.comb_CAP_TRG_SRC (x.chip.trgComb e)) _ 1 (RegId.key_ne_of_offs (by decide)))
  have hbes := Chip.store_keep_besides x.cleared.chip (t := R.comb_CAP_TRG_CFG (x.chip.trgComb e)) (setFld w 0 0 1) 1 x.chip
  have hw := (Chip.combCfgWrite_enable (d := x.cleared.chip) (e := e) (bit_setFld_one w (by decide)) hd).trans
    (Chip.combEnable_events (e := e) hterms hsrc)
  generalize x.cleared.chip.store (R.comb_CAP_TRG_CFG (x.chip.trgComb e)) (setFld w 0 0 1) 1 = d1 at hw hbes
  have hcombs : (d1.besides x.chip).combs = x.chip.combs := congrArg Chip.combs hbes
  have hkept := Chip.written_keeps ((d1.combStarted (x.chip.trgComb e)).setComb (x.chip.trgComb e) Comb.init) .ok e Chip.combs
    (fun _ _ _ _ => rfl) fun _ => rfl
  have hcomb := Chip.comb_congr hkept
  have hself := (hcomb (x.chip.trgComb e)).trans (Chip.comb_setComb_same _ _ _)
  refine does_combinerEnable q hx he hb ha hw ⟨?_, congrArg Comb.fired hself, congrArg Comb.occ hself, fun n hn => ?_, ?_⟩
  · exact (congrArg (bit · 0) (Chip.rd_written _ .ok e (by decide))).trans
      (Chip.rb_flag_same d1 (R.comb_CAP_TRG_CFG (x.chip.trgComb e)) 0 (by decide))
  · exact (hcomb n).trans ((Chip.comb_setComb_other _ _ hn).trans ((Chip.comb_setComb_other _ _ hn).trans (Chip.comb_congr hcombs n)))
  · refine Dev.only_of_besides (fun _ _ => rfl) ((Chip.written_besides _ .ok e x.chip).trans ?_) (x.sameMem_mk _)
    exact congrArg₂ (fun (c : Chip) l => { c with combs := l }) hbes hkept.symm

end Enable

/-- The host trigger that a combiner waits for makes it fire, at the Device Time of the write. -/
theorem does_hostTrigger {m k : Nat} (hm : m < 8) (hk : k < 8) (ha : x.allows sess (R.CAP_TRG_CMD e) (w32 (2 ^ k)))
    (hp : x.chip.Poised (e / 8) m k) :
    Does (.hostTrigger sess e (2 ^ k)) ⟨q, x⟩ (fun y => y.answered .ok ∧ (y.chip.comb (e / 8 * 8 + m)).fired = true ∧ x.sameMem y
      ∧ ∃ v, v ∈ y.chip.log.entries ∧ v.src = 0x3000 + e / 8 ∧ v.code = 0x0604 ∧ v.time = x.chip.dt ∧ v.det % 256 = m
          ∧ v.ext = x.chip.dt * 2 ^ 64) := by
  have hcleared : x.cleared.chip.Poised (e / 8) m k :=
    ⟨hp.alone, hp.terms, hp.src, hp.count, hp.fired, hp.low, hp.last⟩
  obtain ⟨c, hdt, hraise⟩ := hcleared.raise hm x.chip.dt
  refine does_trgCmd q hx he hb (exec_hostTrigger sess e hk ⟨q, x⟩) ha ((Chip.trgCmd_host x.cleared.chip e hk).trans hraise)
    ⟨?_, x.sameMem_mk _, ?_⟩
  · have hcombs := Chip.written_keeps (c.combFire (e / 8 * 8 + m) x.chip.dt false) .ok e Chip.combs (fun _ _ _ _ => rfl) fun _ => rfl
    exact (congrArg Comb.fired (Chip.comb_congr hcombs _)).trans (Chip.fired_combFire c _ _ _)
  · have hlog := Chip.written_keeps (c.combFire (e / 8 * 8 + m) x.chip.dt false) .ok e Chip.log (fun _ _ _ _ => rfl) fun _ => rfl
    obtain ⟨v, hv, hsrc, hcode, htime, hdet, hext⟩ := Chip.event_combFire c (e / 8 * 8 + m) x.chip.dt false
    refine ⟨v, hlog ▸ hv, ?_, hcode, htime.trans hdt, ?_, hext⟩
    · omega
    · rw [if_neg Bool.false_ne_true] at hdet
      omega

theorem does_clearFired (ha : x.allows sess (R.CAP_TRG_CMD e) (w32 256)) :
    Does (.clearFired sess e) ⟨q, x⟩ (fun y => y.answered .ok
      ∧ y.chip.comb (x.chip.trgComb e) = { x.chip.comb (x.chip.trgComb e) with fired := false, occ := 0 }
      ∧ (∀ cb, cb ≠ x.chip.trgComb e → y.chip.comb cb = x.chip.comb cb) ∧ x.only y (fun c => { c with combs := y.chip.combs })) := by
  have hcombs := Chip.written_keeps (x.cleared.chip.clearFired (x.chip.trgComb e)) .ok e Chip.combs (fun _ _ _ _ => rfl) fun _ => rfl
  refine does_trgCmd q hx he hb (exec_clearFired sess e ⟨q, x⟩) ha (Chip.trgCmd_clear x.cleared.chip e) ⟨?_, fun cb hne => ?_, ?_⟩
  · exact (Chip.comb_congr hcombs _).trans (Chip.comb_setComb_same _ _ _)
  · exact (Chip.comb_congr hcombs _).trans (Chip.comb_setComb_other _ _ hne)
  · refine Dev.only_of_besides (fun _ _ => rfl) ((Chip.written_besides _ .ok e x.chip).trans ?_) (x.sameMem_mk _)
    exact congrArg (fun l => { x.chip with combs := l }) hcombs.symm

end Write

theorem does_globalTriggerLine {n : Nat} (hn : n < 8) {l : LineFire} (hl : x.chip.lines.find? (fun v => v.line = n) = some l)
    (ht : l.due ≤ x.chip.core) (hoff : ∀ cb, x.chip.rb (R.comb_CAP_TRG_CFG cb) 0 = false) :
    Does (.globalTriggerLine n) ⟨q, x⟩ (fun y => y.chip.lines = x.chip.lines.erase l ∧ x.sameMem y
      ∧ ∀ r, (x.chip.rcfg r).global = true → (x.chip.rcfg r).trigSel = n → (x.chip.rcfg r).trigMode = 0 →
          (x.chip.rgn r).st = .armed → (x.chip.rgn r).armT ≤ l.t → (y.chip.rgn r).st = .post ∧ (y.chip.rgn r).trigTent = l.tent) := by
  refine does_on (exec_globalTriggerLine n ⟨q, x⟩) (decide_eq_true hn) hx
    (Chip.globalLine_due (d := x.cleared.chip) hl ht hoff) ⟨?_, x.sameMem_mk _, fun r hg hs hmode harmed hsince => ?_⟩
  · exact Chip.fireRegions_keeps Chip.lines (fun _ _ _ => rfl) (fun _ _ _ => rfl) _ true n 0 l.t l.tent
  · exact Chip.triggered_fireRegions (d := { x.cleared.chip with lines := x.chip.lines.erase l }) hg hs ⟨hmode, harmed, hsince⟩

theorem does_termHoldExpiry {cb i : Nat} (hc : cb < 136) (hi : i < 4) (ht : (x.chip.comb cb).until_.getD i 0 < x.chip.core)
    (hon : x.chip.rb (R.comb_CAP_TRG_CFG cb) 0 = true) (hr : x.chip.combResult cb x.chip.core = false) :
    Does (.termHoldExpiry cb i) ⟨q, x⟩ (fun y => (y.chip.comb cb).result = false ∧ (y.chip.comb cb).fired = (x.chip.comb cb).fired
      ∧ (y.chip.comb cb).occ = (x.chip.comb cb).occ ∧ (∀ n, n ≠ cb → y.chip.comb n = x.chip.comb n)
      ∧ x.only y (fun c => { c with combs := y.chip.combs }) ∧ x.regsBut y []) := by
  refine does_on (exec_termHoldExpiry cb i ⟨q, x⟩) (by simp [engineOk, hc, hi]) hx
    (Chip.termExpire_false (d := x.cleared.chip) ht hon hr) ?_
  have hself := Chip.comb_setComb_same x.cleared.chip cb (x.cleared.chip.combLow cb)
  exact ⟨congrArg Comb.result hself, (congrArg Comb.fired hself).trans rfl, (congrArg Comb.occ hself).trans rfl,
    fun n hn => Chip.comb_setComb_other _ _ hn, Dev.only_of_besides (fun _ _ => rfl) rfl (x.sameMem_mk _), fun _ _ _ => rfl⟩

end Commands

/-- Settles O28: a combiner of event terms starts false, one that waits for one host trigger alone fires when it comes and
reaches no other combiner, and a line's firing finds every region that waits for it. -/
theorem triggerCombiners : Obligations.TriggerCombiners := by
  intro q x hx
  refine ⟨fun sess e w he hb ha => ⟨fun hd => ⟨fun hn hs => ?_, fun hn => ?_⟩, fun hd => ?_⟩,
    fun sess e m k he hm hk hb ha halone hterms hsrc hcount hfired hlow hlast => ?_,
    fun sess e he hb ha => does_clearFired q hx he hb ha,
    fun n hn => ⟨fun l hl => ⟨fun ht => ?_, fun ht hoff => does_globalTriggerLine q hx hn hl ht hoff⟩, fun hl => ?_⟩,
    fun cb i hc hi => ⟨fun ht hon hr => does_termHoldExpiry q hx hc hi ht hon hr, fun h => ?_⟩⟩
  · exact does_combinerEnable_events q hx he hb ha hd hn hs
  · exact does_combinerEnable_empty q hx he hb ha hd hn
  · exact does_combinerEnable_stays q hx he hb ha hd
  · exact does_hostTrigger q hx he hb hm hk ha ⟨halone, hterms, hsrc, hcount, hfired, hlow, hlast⟩
  · exact does_idle (exec_globalTriggerLine n ⟨q, x⟩) (decide_eq_true hn) (Chip.globalLine_early (d := x.cleared.chip) hl ht)
  · exact does_idle (exec_globalTriggerLine n ⟨q, x⟩) (decide_eq_true hn) (Chip.globalLine_none (d := x.cleared.chip) hl)
  · exact does_idle (exec_termHoldExpiry cb i ⟨q, x⟩) (by simp [engineOk, hc, hi]) (Chip.termExpire_idle (d := x.cleared.chip) h)

end Sys2Proof.Machine
end

section
set_option Elab.async false
/-! What the capture writer keeps (R155-R182): a property that its basic updates keep is kept by every bale that it opens,
closes, writes and withdraws, and by all that a trigger source that occurs sets off. -/
namespace Sys2Proof.Machine

/-- The updates of capture and of its triggers keep `P`: it does not see engine windows, the log, the lines, the buffers or
the combiners, and it outlasts a region's change that does not return the region to IDLE and takes no bale out of its
queue but all of them, and a bale's entry into the queue. -/
structure Chip.KeptByCapture (P : Chip → Prop) : Prop where
  wr : ∀ (d : Chip) (r : RegId) (w : Word), r.blk = .eng → P (d.wr r w) = P d
  log : ∀ (d : Chip) (l : EvLog), P { d with log := l } = P d
  lines : ∀ (d : Chip) (l : List LineFire), P { d with lines := l } = P d
  setCap : ∀ (d : Chip) (k : Nat) (c : Cap), P (d.setCap k c) = P d
  setComb : ∀ (d : Chip) (k : Nat) (c : Comb), P (d.setComb k c) = P d
  setRgn : ∀ (d : Chip) (k : Nat) (c : Rgn), (c.st = (d.rgn k).st ∨ c.st ≠ .idle) → (c.q = (d.rgn k).q ∨ c.q = []) → P d →
    P (d.setRgn k c)
  enqueue : ∀ (d : Chip) (k : Nat) (b : Bale) (marker : Bool) (last : Nat), P d → P (d.enqueue (d.rcfg k) b marker last)

theorem Chip.rcfg_closeBale (d : Chip) (r : Nat) : (d.closeBale r).rcfg r = d.rcfg r :=
  Chip.closeBale_keeps (fun c => c.rcfg r) (fun _ _ _ => rfl) d r

theorem Chip.rcfg_gapTrigger (d : Chip) (r last : Nat) : (d.gapTrigger r last).2.rcfg r = d.rcfg r := by
  unfold Chip.gapTrigger
  dsimp only
  split <;> rfl

namespace Chip.KeptByCapture

variable {P : Chip → Prop} {d : Chip}

theorem foldl {β : Type} {g : Chip → β → Chip} (_K : Chip.KeptByCapture P) (hg : ∀ x b, P x → P (g x b)) (l : List β)
    (h : P d) : P (l.foldl g d) :=
  List.foldlRecOn l g h fun x hx b _ => hg x b hx

variable (K : Chip.KeptByCapture P)

include K

/-! ## Events, flags and counts -/

theorem tapWord (d : Chip) (e : Nat) (w : SWord) : P (d.tapWord e w) = P d :=
  Chip.tapWord_keeps P K.setCap (fun d _ _ _ => (K.wr _ _ _ rfl).trans (K.wr d _ _ rfl)) d e w

theorem evt (d : Chip) (src code ctx det ext : Nat) : P (d.evt src code ctx det ext) = P d :=
  Chip.evtAt_keeps P K.tapWord K.log d d.dt src code ctx det ext

theorem flag (d : Chip) (r : RegId) (i : Nat) (h : r.blk = .eng) : P (d.flag r i) = P d := K.wr d r _ h

theorem count (d : Chip) (r : RegId) (n : Nat) (h : r.blk = .eng) : P (d.count r n) = P d := K.wr d r _ h

theorem addLost (d : Chip) (e n : Nat) : P (d.addLost e n) = P d := (K.wr _ _ _ rfl).trans (K.wr d _ _ rfl)

/-! ## Bales and firings -/

theorem closeBale (h : P d) (r : Nat) : P (d.closeBale r) := by
  unfold Chip.closeBale
  dsimp only
  split
  · exact h
  · exact K.enqueue (d.setRgn r _) r _ _ _ (K.setRgn d r _ (.inl (by rfl)) (.inl (by rfl)) h)

theorem openWith (h : P d) (r : Nat) (tent split : Bool) (l : List Byte) (tags : List OTag) :
    P (d.openWith r tent split l tags) :=
  K.setRgn d r _ (.inl (by rfl)) (.inl (by rfl)) h

theorem markTrigger (h : P d) (r k : Nat) (tent : Bool) : P (d.markTrigger r k tent) := by
  unfold Chip.markTrigger
  dsimp only
  split
  · exact h
  · exact K.setRgn d r _ (.inl (by rfl)) (.inl (by rfl)) h

theorem fireRgn (h : P d) (r t : Nat) (tent : Bool) : P (d.fireRgn r t tent) := by
  unfold Chip.fireRgn
  extract_lets c x cont x1 wait
  split
  · exact h
  · have hst : x1.st = x.st ∨ x1.st ≠ .idle := by
      unfold x1
      dsimp only
      split
      · exact .inl rfl
      · exact .inr (by decide)
    have hwait : P wait := K.setRgn d r _ hst (.inl (by rfl)) h
    split
    · exact (K.flag _ _ _ rfl).mpr (K.setRgn d r _ hst (.inl (by rfl)) h)
    · split
      · exact hwait
      · split
        · exact hwait
        · split
          · refine K.markTrigger (K.openWith (K.closeBale ?_ r) r _ _ _ _) r 0 tent
            exact K.setRgn d r _ hst (.inl (by rfl)) h
          · exact K.markTrigger (K.setRgn d r _ hst (.inl (by rfl)) h) r _ tent

theorem fireRegions (h : P d) (global : Bool) (sel cl t : Nat) (tent : Bool) : P (d.fireRegions global sel cl t tent) :=
  K.foldl (fun x z hx => by
    dsimp only
    split
    · exact K.fireRgn hx _ _ _
    · exact hx) _ h

/-! ## Combiners and sources -/

theorem combFire (h : P d) (cb t : Nat) (tent : Bool) : P (d.combFire cb t tent) := by
  unfold Chip.combFire
  extract_lets cfg x d1 d2 d3
  have h2 : P d2 := (K.evt d1 _ _ _ _ _).mpr ((K.setComb d cb _).mpr h)
  have h3 : P d3 := by
    unfold d3
    split
    · exact (K.lines d2 _).mpr h2
    · exact h2
  exact K.fireRegions h3 _ _ _ _ _

theorem combEval (h : P d) (cb t : Nat) (tent : Bool) : P (d.combEval cb t tent).2 := by
  have hset (c : Comb) : P (d.setComb cb c) := (K.setComb d cb c).mpr h
  have hfire (c : Comb) (t : Nat) (tt : Bool) : P ((d.setComb cb c).combFire cb t tt) := K.combFire (hset c) cb t tt
  unfold Chip.combEval
  extract_lets cfg x was n at_ tt
  split
  · exact h
  · split
    · exact hset _
    · split
      · exact hset _
      · split
        · exact hset _
        · exact hfire _ _ _

theorem termEvent (h : P d) (cb i t : Nat) (tent : Bool) : P (d.termEvent cb i t tent) := (K.setComb d cb _).mpr h

theorem raiseN (cl n : Nat) (h : P d) (i t : Nat) (tent : Bool) : P (d.raiseN cl n i t tent) := by
  induction n generalizing d i t tent with
  | zero => exact h
  | succ n ih =>
    rw [Chip.raiseN_succ]
    refine K.foldl (fun x m hx => ?_) _ h
    unfold Chip.raiseStep
    extract_lets cb cfg z
    split
    · have hz : P z.2 := K.combEval (K.termEvent (K.combEval hx cb t false) cb i t tent) cb t tent
      split
      · exact ih hz _ _ _
      · exact hz
    · exact hx

theorem raise (h : P d) (cl i t : Nat) (tent : Bool) : P (d.raise cl i t tent) := K.raiseN cl 8 h i t tent

theorem raiseEng (h : P d) (e s t : Nat) (tent : Bool) : P (d.raiseEng e s t tent) := by
  unfold Chip.raiseEng
  exact K.raise h _ _ _ _

/-! ## Bales that have been written -/

theorem gapWritten (h : P d) (c : RCfg) (seq lost : Nat) : P (d.gapWritten c seq lost) :=
  K.raiseEng ((K.evt _ _ _ _ _ _).mpr ((K.flag _ _ _ rfl).mpr ((K.count d _ _ rfl).mpr h))) _ _ _ _

theorem poisonWritten (h : P d) (c : RCfg) (seq : Nat) : P (d.poisonWritten c seq) :=
  K.raiseEng ((K.evt _ _ _ _ _ _).mpr ((K.flag d _ _ rfl).mpr h)) _ _ _ _

theorem advanceRgn (h : P d) (r : Nat) : P (d.advanceRgn r) := by
  unfold Chip.advanceRgn
  extract_lets c x n done x1 x2
  split
  · split
    · exact K.setRgn d r _ (.inr (show RSt.armed ≠ RSt.idle by decide)) (.inl (by rfl)) h
    · exact K.setRgn d r _ (.inl (by rfl)) (.inl (by rfl)) h
  · split
    · have h2 : P (d.setRgn r x2) := K.setRgn d r x2 (.inr (show RSt.pinned ≠ RSt.idle by decide)) (.inr (by rfl)) h
      refine (K.evt _ _ _ _ _ _).mpr ?_
      split
      · exact (K.flag _ _ _ rfl).mpr h2
      · exact h2
    · exact K.setRgn d r _ (.inl (by rfl)) (.inl (by rfl)) h
  · exact K.setRgn d r _ (.inl (by rfl)) (.inl (by rfl)) h

/-! ## Words that the writer takes -/

theorem retractLogged (d : Chip) (c : RCfg) (first last reason : Nat) : P (d.retractLogged c first last reason) = P d :=
  (K.evt _ _ _ _ _ _).trans ((K.flag _ _ _ rfl).trans (K.count d _ _ rfl))

theorem confirmLogged (d : Chip) (c : RCfg) (first last : Nat) : P (d.confirmLogged c first last) = P d :=
  K.evt d _ _ _ _ _

theorem resolveEnded (h : P d) (e sub : Nat) (reason : Option Nat) : P (d.resolveEnded e sub reason) := by
  refine K.foldl (fun x r hx => ?_) _ h
  have h1 : P (x.setRgn r { x.rgn r with tent0 := none }) := K.setRgn x r _ (.inl (by rfl)) (.inl (by rfl)) hx
  dsimp only
  split
  · exact (K.retractLogged _ _ _ _ _).mpr h1
  · exact (K.confirmLogged _ _ _ _).mpr h1

theorem putOct (h : P d) (r : Nat) (o : Byte) (g : OTag) : P (d.putOct r o g) := by
  unfold Chip.putOct
  dsimp only
  split
  · exact h
  · exact K.setRgn d r _ (.inl (by rfl)) (.inl (by rfl)) h

theorem packOct (h : P d) (r : Nat) (w : SWord) (o : Byte) (g : Nat × Nat) : P (d.packOct r w o g) := by
  unfold Chip.packOct
  extract_lets c x hit new d1 d2 y d3 d4
  split
  · exact h
  · have h1 : P d1 := by
      unfold d1
      split
      · exact K.closeBale h r
      · exact h
    split
    · exact h1
    · have h2 : P d2 := by
        unfold d2
        split
        · exact K.openWith h1 r _ _ _ _
        · exact h1
      have h3 : P d3 := by
        unfold d3
        split
        · exact h2
        · exact K.markTrigger (K.setRgn d2 r _ (.inl (by rfl)) (.inl (by rfl)) h2) _ _ _
      have h4 : P d4 := K.putOct h3 r o _
      split
      · exact K.closeBale h4 r
      · exact h4

theorem gapTrigger (h : P d) (r last : Nat) : P (d.gapTrigger r last).2 := by
  unfold Chip.gapTrigger
  dsimp only
  split
  · exact h
  · exact K.setRgn d r _ (.inl (by rfl)) (.inl (by rfl)) h

theorem enqueue_rcfg {c : RCfg} {k : Nat} (hc : c = d.rcfg k) (h : P d) (b : Bale) (marker : Bool) (last : Nat) :
    P (d.enqueue c b marker last) :=
  hc ▸ K.enqueue d k b marker last h

theorem writeGap (h : P d) (r lost first last cause : Nat) (tent split : Bool) :
    P (d.writeGap r lost first last cause tent split) := by
  have hg : P ((d.closeBale r).gapTrigger r last).2 := K.gapTrigger (K.closeBale h r) r last
  have hc : d.rcfg r = ((d.closeBale r).gapTrigger r last).2.rcfg r :=
    ((Chip.rcfg_gapTrigger _ r last).trans (Chip.rcfg_closeBale d r)).symm
  unfold Chip.writeGap
  dsimp only
  split
  · exact K.closeBale h r
  · refine K.gapWritten ?_ _ _ _
    exact K.setRgn _ r _ (.inl (by rfl)) (.inl (by rfl)) (K.enqueue_rcfg hc hg _ true last)

theorem writeRetract (h : P d) (r reason stamp : Nat) (split : Bool) : P (d.writeRetract r reason stamp split) := by
  unfold Chip.writeRetract
  dsimp only
  split
  · exact K.closeBale h r
  · have h1 (b : Bale) := K.enqueue_rcfg (Chip.rcfg_closeBale d r).symm (K.closeBale h r) b true stamp
    split
    · refine (K.retractLogged _ _ _ _ _).mpr ?_
      exact K.setRgn _ r _ (.inl (by rfl)) (.inl (by rfl)) (h1 _)
    · refine K.raiseEng ((K.retractLogged _ _ _ _ _).mpr ?_) _ _ _ _
      exact K.setRgn _ r _ (.inl (by rfl)) (.inl (by rfl)) (h1 _)

theorem confirmTent (h : P d) (r : Nat) : P (d.confirmTent r) := by
  unfold Chip.confirmTent
  dsimp only
  split
  · exact K.closeBale h r
  · exact (K.confirmLogged _ _ _ _).mpr (K.setRgn _ r _ (.inl (by rfl)) (.inl (by rfl)) (K.closeBale h r))

theorem takeNow (h : P d) (e : Nat) (w : SWord) : P (d.takeNow e w) := by
  unfold Chip.takeNow
  dsimp only
  split
  · split
    · exact K.resolveEnded h _ _ _
    · exact K.resolveEnded h _ _ _
    · exact h
  · next r _ =>
    split
    · refine K.foldl (fun x p hx => K.packOct hx r w p.1 p.2) _ ?_
      have h0 : P (if (w.brk || w.resync) = true then d.closeBale r else d) := by
        split
        · exact K.closeBale h r
        · exact h
      split
      · exact K.setRgn _ r _ (.inl (by rfl)) (.inl (by rfl)) h0
      · exact h0
    · exact K.writeGap h r _ _ _ _ _ _
    · exact K.writeRetract (K.resolveEnded h _ _ _) r _ _ _
    · exact K.confirmTent (K.resolveEnded h _ _ _) r
    · exact K.enqueue_rcfg (Chip.rcfg_closeBale d r).symm (K.closeBale h r) _ _ _

theorem takeWaits (h : P d) (e r n : Nat) : P (d.takeWaits e r n) := by
  induction n generalizing d with
  | zero => exact h
  | succ n ih =>
    unfold Chip.takeWaits
    dsimp only
    split
    · exact h
    · exact ih (K.takeNow (K.setRgn d r _ (.inl (by rfl)) (.inl (by rfl)) h) e _)

theorem takeWord (h : P d) (e : Nat) (w : SWord) : P (d.takeWord e w) := by
  unfold Chip.takeWord
  split
  · exact K.takeNow h e w
  · next r _ =>
    dsimp only
    split
    · exact K.takeNow h e w
    · exact K.takeWaits (K.setRgn d r _ (.inl (by rfl)) (.inl (by rfl)) h) e r _

theorem drainSub (h : P d) (e sub : Nat) : P (d.drainSub e sub) :=
  K.foldl (fun x k hx => K.foldl (fun _ w hz => K.takeWord hz k w) _ ((K.setCap x k _).mpr hx)) _ h

end Chip.KeptByCapture
end Sys2Proof.Machine
end

section
set_option Elab.async false
/-! Capture regions (R177-R179): what a write of CAP_RGN_CFG does by its ENABLE, STOP and ARM bits, and where a region
stands once it has been stopped. -/
namespace Sys2Proof.Machine

/-! # Writes in flight (R180, R181) -/

section Writes

variable {P : Chip → Prop} (K : Chip.KeptByCapture P) {s : Dev} {r : Nat}

include K

/-- A property that capture keeps holds once a write is accepted, if it holds once the write has left the queue. -/
theorem Chip.KeptByCapture.accept {w : BaleWr}
    (h : P (s.chip.setRgn r { s.chip.rgn r with q := (s.chip.rgn r).q.filter (fun y => y.bale.seq ≠ w.bale.seq),
                                                acc := (s.chip.rgn r).acc ++ [w.bale.seq] })) :
    P (s.accept r w).chip := by
  refine K.advanceRgn ?_ r
  split
  · exact K.gapWritten ((K.addLost _ _ _).mpr h) _ _ _
  · split
    · exact K.poisonWritten h _ _
    · exact h

end Writes

/-- Folding leaves where the region stands. -/
theorem mergeTail_st (n : Nat) (x : Rgn) : (mergeTail n x).st = x.st := by
  induction n generalizing x with
  | zero => rfl
  | succ n ih =>
    unfold mergeTail
    split
    · split
      · exact ih _
      · rfl
    · rfl

/-! # A region that has been armed (R178) -/

/-- Region `r` is not IDLE, and its ENABLE is `b`. -/
def Chip.Runs (r : Nat) (b : Bool) (d : Chip) : Prop := (d.rgn r).st ≠ .idle ∧ d.rb (R.rgn_CAP_RGN_CFG r) 0 = b

section Runs

variable {r : Nat} {b : Bool} {d : Chip} {s : Dev}

theorem Chip.Runs.setRgn (h : d.Runs r b) (k : Nat) {c : Rgn} (hc : c.st = (d.rgn k).st ∨ c.st ≠ .idle) :
    (d.setRgn k c).Runs r b := by
  obtain ⟨hst, hcfg⟩ := h
  refine ⟨?_, hcfg⟩
  by_cases hk : r = k
  · subst hk
    rw [Chip.rgn_setRgn_same]
    exact hc.elim (fun heq => heq ▸ hst) id
  · rwa [Chip.rgn_setRgn_other d c hk]

theorem Chip.Runs.enqueue (h : d.Runs r b) (c : RCfg) (bale : Bale) (marker : Bool) (last : Nat) :
    (d.enqueue c bale marker last).Runs r b := by
  unfold Chip.enqueue
  dsimp only
  split
  · exact h
  · split
    · exact h.setRgn _ (.inl rfl)
    · split
      · exact h.setRgn _ (.inl rfl)
      · split
        · exact h.setRgn _ (.inl rfl)
        · exact h.setRgn _ (.inl rfl)

theorem Chip.keptByCapture_runs (r : Nat) (b : Bool) : Chip.KeptByCapture (Chip.Runs r b) where
  wr d q w hq := by
    have hcfg : (d.wr q w).rb (R.rgn_CAP_RGN_CFG r) 0 = d.rb (R.rgn_CAP_RGN_CFG r) 0 :=
      congrArg (bit · 0) (Chip.rd_wr_eng d w hq (by decide))
    exact congrArg (fun v => (d.rgn r).st ≠ .idle ∧ v = b) hcfg
  log _ _ := rfl
  lines _ _ := rfl
  setCap _ _ _ := rfl
  setComb _ _ _ := rfl
  setRgn _ k _ hst _ h := h.setRgn k hst
  enqueue d k bale marker last h := h.enqueue (d.rcfg k) bale marker last

theorem Chip.Runs.refuseBale (h : d.Runs r b) (k seq : Nat) : (d.refuseBale k seq).Runs r b :=
  h.setRgn k (.inl (mergeTail_st _ _))

theorem Chip.Runs.accept (h : s.chip.Runs r b) (k : Nat) (w : BaleWr) : (s.accept k w).chip.Runs r b :=
  (Chip.keptByCapture_runs r b).accept (h.setRgn k (.inl rfl))

theorem Chip.Runs.tryPending (h : s.chip.Runs r b) (k n : Nat) : (s.tryPending k n).chip.Runs r b := by
  induction n generalizing s with
  | zero => exact h
  | succ n ih =>
    unfold Dev.tryPending
    dsimp only
    split
    · exact h
    · split
      · exact h
      · exact ih (h.accept k _)

/-- Region `r` has ended, STOPPED or PINNED, with no bale open and none waiting. -/
def Chip.Stopped (r : Nat) (d : Chip) : Prop :=
  ((d.rgn r).st = .stopped ∨ (d.rgn r).st = .pinned) ∧ (d.rgn r).q = [] ∧ (d.rgn r).open_ = none

/-- A region that is neither IDLE nor running has stopped or is PINNED. -/
theorem Rgn.st_of_ended {x : Rgn} (h : x.st ≠ .idle) :
    (if x.live then RSt.stopped else x.st) = .stopped ∨ (if x.live then RSt.stopped else x.st) = .pinned := by
  unfold Rgn.live
  cases hs : x.st with
  | idle => exact absurd hs h
  | pre => exact .inl rfl
  | armed => exact .inl rfl
  | post => exact .inl rfl
  | pinned => exact .inr rfl
  | stopped => exact .inl rfl

/-- One bale write in flight completes, or is refused where its slot is fenced; one that waits stays. -/
def Dev.finishOne (r : Nat) (x : Dev) (w : BaleWr) : Dev :=
  if w.sent then
    (if x.chip.slotFenced (x.chip.rcfg r) w.bale.seq then x.on (fun d => d.refuseBale r w.bale.seq) else x.accept r w)
  else x

/-- What stays refused is lost, and a region that ran has stopped. -/
def Chip.dropWaiting (d : Chip) (r : Nat) : Chip :=
  let x := d.rgn r
  let lost := (x.q.filter (·.folded)).foldl (fun a w => a + w.lost) 0
  let d1 := if lost = 0 then d else d.addLost (d.rcfg r).eng lost
  d1.setRgn r { x with q := [], open_ := none, trigs := [], mark := none, waits := [],
                       st := if x.live then .stopped else x.st }

theorem Dev.finishWrites_eq (s : Dev) (r : Nat) :
    s.finishWrites r = (((s.chip.rgn r).q.foldl (Dev.finishOne r) s).settle r).on (fun d => d.dropWaiting r) := rfl

theorem Chip.Runs.finishOne (h : s.chip.Runs r b) (k : Nat) (w : BaleWr) : (Dev.finishOne k s w).chip.Runs r b := by
  unfold Dev.finishOne
  split
  · split
    · exact h.refuseBale k _
    · exact h.accept k w
  · exact h

theorem Chip.Runs.dropWaiting (h : d.Runs r b) :
    (d.dropWaiting r).Stopped r ∧ (d.dropWaiting r).rb (R.rgn_CAP_RGN_CFG r) 0 = b := by
  unfold Chip.dropWaiting
  extract_lets x lost d1
  obtain ⟨-, hcfg⟩ : d1.Runs r b := by
    unfold d1
    split
    · exact h
    · exact ((Chip.keptByCapture_runs r b).addLost _ _ _).mpr h
  refine ⟨?_, hcfg⟩
  unfold Chip.Stopped
  rw [Chip.rgn_setRgn_same]
  exact ⟨Rgn.st_of_ended h.1, rfl, rfl⟩

/-- Once the writes in flight have ended the region has stopped. -/
theorem Dev.stopped_finishWrites (h : s.chip.Runs r b) :
    (s.finishWrites r).chip.Stopped r ∧ (s.finishWrites r).chip.rb (R.rgn_CAP_RGN_CFG r) 0 = b := by
  have hall : ((s.chip.rgn r).q.foldl (Dev.finishOne r) s).chip.Runs r b :=
    List.foldlRecOn (motive := fun z : Dev => z.chip.Runs r b) _ _ h fun _ hz w _ => hz.finishOne r w
  rw [Dev.finishWrites_eq, Dev.on_chip]
  exact (hall.tryPending r _).dropWaiting

theorem Rgn.live_not_idle {x : Rgn} (h : x.live = true) : x.st ≠ .idle := by
  intro hs
  simp [Rgn.live, hs] at h

/-- A running region that is stopped ends STOPPED or PINNED, with no bale open and none waiting, and keeps its ENABLE. -/
theorem Dev.stopped_rgnStop (hl : (s.chip.rgn r).live = true) (hold : Bool) :
    (s.rgnStop r hold).chip.Stopped r
      ∧ (s.rgnStop r hold).chip.rb (R.rgn_CAP_RGN_CFG r) 0 = s.chip.rb (R.rgn_CAP_RGN_CFG r) 0 := by
  have K := Chip.keptByCapture_runs r (s.chip.rb (R.rgn_CAP_RGN_CFG r) 0)
  unfold Dev.rgnStop
  rw [if_neg (not_not_intro hl)]
  extract_lets c owed d1
  have h1 : d1.Runs r (s.chip.rb (R.rgn_CAP_RGN_CFG r) 0) :=
    K.foldl (fun x w hx => (K.tapWord x c.eng w).mpr hx) owed ⟨Rgn.live_not_idle hl, rfl⟩
  exact Dev.stopped_finishWrites (K.closeBale (K.drainSub h1 c.eng c.sub) r)

theorem Dev.rgnStop_ended (hl : (s.chip.rgn r).live = false) (hold : Bool) : s.rgnStop r hold = s :=
  if_pos (by simp [hl])

end Runs

end Sys2Proof.Machine
end

section
set_option Elab.async false
/-! Writes of CAP_RGN_CFG (R177-R179, R304): the cases of ENABLE, STOP and ARM, and the four commands made of them. -/
namespace Sys2Proof.Machine

/-- A bit of a field that is 0 is clear. -/
theorem bit_of_fld_zero {w : Word} {hi lo i : Nat} (h : fld w hi lo = 0) (hl : lo ≤ i) (hh : i ≤ hi) : bit w i = false := by
  have ht := testBit_fld w hi lo (i - lo)
  rw [h, Nat.zero_testBit, Nat.add_sub_cancel' hl] at ht
  simpa [bit, show i - lo < hi + 1 - lo by omega] using ht.symm

/-! # What one write does (R304) -/

section Cases

variable {s : Dev} {e r : Nat} {w : Word}

/-- The chip with the write of a region's CAP_RGN_CFG stored; ENABLE is its own case. -/
def Chip.rgnStored (d : Chip) (r : Nat) (w : Word) : Chip := d.store (R.rgn_CAP_RGN_CFG r) w 1

/-- STOP, then ARM, of a region whose ENABLE the write leaves 1. -/
def Dev.rgnActs (s : Dev) (e r : Nat) (w : Word) : Status × Dev :=
  let s2 := if bit w 2 then s.rgnStop r true else s
  if bit w 1 then ((s2.chip.rgnArm e r).1, ⟨(s2.chip.rgnArm e r).2, s2.mem⟩) else (.ok, s2)

theorem Dev.rgnCfgWrite_off (h0 : bit w 0 = false) (hd : s.chip.rb (R.rgn_CAP_RGN_CFG r) 0 = false) :
    s.rgnCfgWrite e r w = if bit w 1 then (.badParam, ⟨(s.chip.rgnStored r w).flag (R.CAP_EVENT e) 9, s.mem⟩)
      else (.ok, ⟨s.chip.rgnStored r w, s.mem⟩) := by
  simp only [Dev.rgnCfgWrite, h0, hd, Bool.false_eq_true, not_false_iff, if_true, if_false]
  rfl

theorem Dev.rgnCfgWrite_disable (h0 : bit w 0 = false) (h1 : bit w 1 = false)
    (hd : s.chip.rb (R.rgn_CAP_RGN_CFG r) 0 = true) :
    s.rgnCfgWrite e r w = (.ok, Dev.rgnDisable ⟨s.chip.rgnStored r w, s.mem⟩ r) := by
  simp only [Dev.rgnCfgWrite, h0, h1, hd, Bool.false_eq_true, not_false_iff, if_true, if_false]
  rfl

theorem Dev.rgnCfgWrite_enabled (h0 : bit w 0 = true) (hd : s.chip.rb (R.rgn_CAP_RGN_CFG r) 0 = true) :
    s.rgnCfgWrite e r w = Dev.rgnActs ⟨s.chip.rgnStored r w, s.mem⟩ e r w := by
  simp only [Dev.rgnCfgWrite, h0, hd, not_true, if_true, if_false, ne_eq]
  rfl

theorem Dev.rgnCfgWrite_enables {c : Chip} (h0 : bit w 0 = true) (hd : s.chip.rb (R.rgn_CAP_RGN_CFG r) 0 = false)
    (hc : (s.chip.rgnStored r w).rgnEnable e r = (.ok, c)) : s.rgnCfgWrite e r w = Dev.rgnActs ⟨c, s.mem⟩ e r w := by
  have hen : (s.on (fun d => d.store (R.rgn_CAP_RGN_CFG r) w 1)).chip.rgnEnable e r = (.ok, c) := hc
  simp only [Dev.rgnCfgWrite, h0, hd, hen, Bool.false_eq_true, not_true, if_false, ne_eq]
  rfl

theorem Dev.rgnCfgWrite_refused {st : Status} {c : Chip} (h0 : bit w 0 = true)
    (hd : s.chip.rb (R.rgn_CAP_RGN_CFG r) 0 = false) (hc : (s.chip.rgnStored r w).rgnEnable e r = (st, c)) (hst : st ≠ .ok) :
    s.rgnCfgWrite e r w = (st, ⟨c, s.mem⟩) := by
  have hen : (s.on (fun d => d.store (R.rgn_CAP_RGN_CFG r) w 1)).chip.rgnEnable e r = (st, c) := hc
  simp only [Dev.rgnCfgWrite, h0, hd, hen, Bool.false_eq_true, not_true, if_false, ne_eq, hst, not_false_iff, if_true]
  rfl

theorem Dev.rgnActs_none (h1 : bit w 1 = false) (h2 : bit w 2 = false) : s.rgnActs e r w = (.ok, s) := by
  simp [Dev.rgnActs, h1, h2]

theorem Dev.rgnActs_stop (h1 : bit w 1 = false) (h2 : bit w 2 = true) : s.rgnActs e r w = (.ok, s.rgnStop r true) := by
  simp [Dev.rgnActs, h1, h2]

theorem Dev.rgnActs_arm (h1 : bit w 1 = true) (h2 : bit w 2 = false) :
    s.rgnActs e r w = ((s.chip.rgnArm e r).1, ⟨(s.chip.rgnArm e r).2, s.mem⟩) := by
  simp [Dev.rgnActs, h1, h2]

theorem Dev.rgnDisable_live (hl : (s.chip.rgn r).live = true) :
    s.rgnDisable r = Dev.rgnStop ⟨s.chip.unflag (R.rgn_CAP_RGN_CFG r) 0, s.mem⟩ r true :=
  if_pos hl

theorem Dev.rgnDisable_ended (hl : (s.chip.rgn r).live = false) :
    s.rgnDisable r = ⟨(s.chip.unflag (R.rgn_CAP_RGN_CFG r) 0).setRgn r Rgn.init, s.mem⟩ :=
  if_neg (ne_true_of_eq_false hl)

end Cases

/-! # Enabling and arming (R177, R178, R383) -/

section Region

variable {d : Chip} {e r : Nat}

/-- The stacks that the region's ring lies in are ready. -/
def Chip.rgnReady (d : Chip) (r : Nat) : Bool := d.stacksReady (d.rcfg r).base ((d.rcfg r).slots / 128)

theorem Chip.rgnCheck_ne_ok (d : Chip) (r : Nat) : d.rgnCheck r ≠ some .ok := by
  have hif {p : Prop} [Decidable p] {a b : Option Status} (ha : a ≠ some .ok) (hb : b ≠ some .ok) :
      (if p then a else b) ≠ some .ok := by
    split
    · exact ha
    · exact hb
  unfold Chip.rgnCheck
  iterate 13 refine hif nofun ?_
  nofun

theorem Chip.rgnEnable_notReady (h : d.rgnReady r = false) : d.rgnEnable e r = (.notReady, d) :=
  if_pos (ne_true_of_eq_false h)

theorem Chip.rgnEnable_ok (h : d.rgnReady r = true) (hc : d.rgnCheck r = none) :
    d.rgnEnable e r = (.ok, d.flag (R.rgn_CAP_RGN_CFG r) 0) := by
  refine (if_neg (not_not_intro h)).trans ?_
  rw [hc]

theorem Chip.rgnEnable_failed {st : Status} (h : d.rgnReady r = true) (hc : d.rgnCheck r = some st) :
    d.rgnEnable e r = (st, (d.unflag (R.rgn_CAP_RGN_CFG r) 0).flag (R.CAP_EVENT e) 9) := by
  refine (if_neg (not_not_intro h)).trans ?_
  rw [hc]

/-- A region as ARM leaves it: SEQ restarts at 0. -/
def Chip.armedRegion (d : Chip) (r : Nat) : Rgn :=
  let imm := decide ((d.rcfg r).trigMode = 1)
  { Rgn.init with st := if imm then .post else if (d.rcfg r).pre = 0 then .armed else .pre, armT := d.dt,
                  trigs := if imm then [(d.dt, false)] else [], ordNext := (d.cap (d.rcfg r).eng).ord }

/-- The chip once a region has been armed. -/
def Chip.rgnArmed (d : Chip) (r : Nat) : Chip :=
  (d.setRgn r (d.armedRegion r)).setCap (d.rcfg r).eng
    { d.cap (d.rcfg r).eng with brks := (d.cap (d.rcfg r).eng).brks.filter (fun b => b.1 ≠ (d.rcfg r).sub) }

theorem Chip.rgnArm_busy (he : d.rb (R.rgn_CAP_RGN_CFG r) 0 = true) (hl : (d.rgn r).live = true) :
    d.rgnArm e r = (.busy, d) :=
  (if_neg (not_not_intro he)).trans (if_pos hl)

theorem Chip.rgnArm_ended (he : d.rb (R.rgn_CAP_RGN_CFG r) 0 = true) (hl : (d.rgn r).live = false) :
    d.rgnArm e r = (.ok, d.rgnArmed r) :=
  (if_neg (not_not_intro he)).trans (if_neg (by simp [hl]))

/-- ENABLE is no part of what else a region's configuration says. -/
theorem Chip.mode_flag_enable (d : Chip) (r : Nat) :
    ((d.flag (R.rgn_CAP_RGN_CFG r) 0).rcfg r).trigMode = (d.rcfg r).trigMode := by
  refine (congrArg (fld · 8 7) (Chip.rd_wr_same d (R.rgn_CAP_RGN_CFG r) _)).trans ?_
  exact fld_setFld_other _ 1 (by decide) (by decide) (by decide)

theorem Chip.pre_flag_enable (d : Chip) (r : Nat) : ((d.flag (R.rgn_CAP_RGN_CFG r) 0).rcfg r).pre = (d.rcfg r).pre :=
  congrArg (fld · 27 0) (Chip.rd_flag_other d 0 (RegId.key_ne_of_offs (by decide)))

end Region

/-! # The commands -/

theorem exec_regionEnable (sess e : Nat) (w : Word) (s : State) : exec (.regionEnable sess e w) s
    = command (engineOk e) false (fun x => x.hostWrite sess (R.CAP_RGN_CFG e) (setFld w 0 0 1)) s := rfl

theorem exec_regionDisable (sess e : Nat) (w : Word) (s : State) : exec (.regionDisable sess e w) s
    = command (engineOk e) false (fun x => x.hostWrite sess (R.CAP_RGN_CFG e) (setFld w 0 0 0)) s := rfl

theorem exec_arm (sess e : Nat) (w : Word) (s : State) : exec (.arm sess e w) s
    = command (engineOk e) false (fun x => x.hostWrite sess (R.CAP_RGN_CFG e) (setFld w 1 1 1)) s := rfl

theorem exec_stop (sess e : Nat) (w : Word) (s : State) : exec (.stop sess e w) s
    = command (engineOk e) false (fun x => x.hostWrite sess (R.CAP_RGN_CFG e) (setFld w 2 2 1)) s := rfl

/-- A write of CAP_RGN_CFG that passes its checks leaves what its effect leaves, in memory as well. -/
theorem Dev.hostWrite_rgnCfg {x y : Dev} {sess e : Nat} {w : Word} {st : Status} (ha : x.allows sess (R.CAP_RGN_CFG e) w)
    (hb : x.chip.subBusy e = false) (hw : x.rgnCfgWrite e (x.chip.rf (R.CAP_RGN_IDX e) 11 0) w = (st, y)) :
    x.hostWrite sess (R.CAP_RGN_CFG e) w = ⟨y.chip.written st e, y.mem⟩ := by
  have hreg : x.writeReg (R.CAP_RGN_CFG e) w = (st, y) :=
    (if_neg (fun h => Bool.false_ne_true (hb.symm.trans h.1))).trans hw
  have hown : ownerOnly (R.CAP_RGN_CFG e) = false := rfl
  have hrow : (R.CAP_RGN_CFG e).row.isSome = true := rfl
  have hblk : (R.CAP_RGN_CFG e).blk = .eng := rfl
  simp only [Dev.hostWrite, Dev.regWrite_allows x sess 0x0011 _ w ha, hreg, hown, hrow, hblk, true_and, and_true,
    Bool.false_eq_true, false_and, if_false]
  rfl

section Commands

variable (q : List Instr) {x : Dev} (hx : x.live) {sess e : Nat} (he : e < 136) (hb : x.chip.subBusy e = false) {w : Word}

/-! ## The stored word -/

theorem Chip.rgnStored_cleared (x : Dev) (r : Nat) (w : Word) :
    x.cleared.chip.rgnStored r w = { x.chip.rgnStored r w with out := [] } := by
  unfold Chip.rgnStored Chip.store
  split <;> rfl

theorem Chip.rgnCheck_stored (x : Dev) (r : Nat) (w : Word) :
    (x.cleared.chip.rgnStored r w).rgnCheck r = (x.chip.rgnStored r w).rgnCheck r := by
  rw [Chip.rgnStored_cleared]
  rfl

theorem Chip.rgnReady_stored (x : Dev) (r : Nat) (w : Word) :
    (x.cleared.chip.rgnStored r w).rgnReady r = (x.chip.rgnStored r w).rgnReady r := by
  rw [Chip.rgnStored_cleared]
  rfl

theorem Chip.rcfg_stored (x : Dev) (r : Nat) (w : Word) :
    (x.cleared.chip.rgnStored r w).rcfg r = (x.chip.rgnStored r w).rcfg r := by
  rw [Chip.rgnStored_cleared]
  rfl

theorem Chip.rd_rgnStored_other (x : Dev) {r : Nat} (w : Word) {k : RegId} (h : k.key ≠ (R.rgn_CAP_RGN_CFG r).key) :
    (x.cleared.chip.rgnStored r w).rd k = x.chip.rd k :=
  Chip.rd_store_keep_other x.cleared.chip w 1 h

theorem Chip.rgnStored_besides (x : Dev) (r : Nat) (w : Word) :
    (x.cleared.chip.rgnStored r w).besides x.chip = x.cleared.chip.besides x.chip :=
  Chip.store_keep_besides x.cleared.chip w 1 x.chip

theorem Chip.rb_rgnStored (x : Dev) (r : Nat) (w : Word) :
    (x.cleared.chip.rgnStored r w).rb (R.rgn_CAP_RGN_CFG r) 0 = x.chip.rb (R.rgn_CAP_RGN_CFG r) 0 :=
  Chip.rb_store_kept x.cleared.chip w 1 (t := R.rgn_CAP_RGN_CFG r) rfl (by decide) (by decide) (by decide)

theorem Chip.rb_written_rgn (c : Chip) (st : Status) (e r : Nat) :
    (c.written st e).rb (R.rgn_CAP_RGN_CFG r) 0 = c.rb (R.rgn_CAP_RGN_CFG r) 0 :=
  congrArg (bit · 0) (Chip.rd_written c st e (by decide))

theorem Chip.rgn_written (c : Chip) (st : Status) (e r : Nat) : (c.written st e).rgn r = c.rgn r :=
  Chip.written_keeps c st e (fun z => z.rgn r) (fun _ _ _ _ => rfl) fun _ => rfl

theorem Chip.stopped_written {c : Chip} {r : Nat} (st : Status) (e : Nat) (h : c.Stopped r) : (c.written st e).Stopped r := by
  unfold Chip.Stopped
  rw [Chip.rgn_written]
  exact h

theorem Dev.only_written_eq {c : Chip} (st : Status) (e : Nat) (h : c.besides x.chip = x.cleared.chip.besides x.chip) :
    x.only ⟨c.written st e, x.mem⟩ :=
  Dev.only_of_eq ((Chip.written_besides c st e x.chip).trans h)

theorem Dev.only_setRgn {c : Chip} (st : Status) (e : Nat) (h : c.besides x.chip = x.cleared.chip.besides x.chip) (r : Nat)
    (y : Rgn) : x.only ⟨(c.setRgn r y).written st e, x.mem⟩ (fun z => { z with rgns := ((c.setRgn r y).written st e).rgns }) := by
  rw [Chip.written_keeps (c.setRgn r y) st e Chip.rgns (fun _ _ _ _ => rfl) fun _ => rfl]
  exact Dev.only_written st e (fun _ _ => rfl) (congrArg (fun z : Chip => { z with rgns := (c.setRgn r y).rgns }) h)

theorem Chip.rgn_of_besides {c y : Chip} (h : c.besides y = y.besides y) (n : Nat) : c.rgn n = y.rgn n := by
  have hr : (c.besides y).rgns = (y.besides y).rgns := congrArg Chip.rgns h
  exact congrArg (fun l => SMap.get Rgn.init l n) hr

theorem Chip.dt_of_besides {c y : Chip} (h : c.besides y = y.besides y) : c.dt = y.dt := by
  have hd : (c.besides y).dt = (y.besides y).dt := congrArg Chip.dt h
  exact hd

/-! ## A region that the write leaves enabled -/

/-- The chip `c` is what the write `w` of region `r` leaves before STOP and ARM: the region is enabled, and nothing else
has changed that either looks at. -/
structure Dev.EnabledBy (x : Dev) (r : Nat) (w : Word) (c : Chip) : Prop where
  enable  : c.rb (R.rgn_CAP_RGN_CFG r) 0 = true
  besides : c.besides x.chip = x.cleared.chip.besides x.chip
  mode    : (c.rcfg r).trigMode = ((x.chip.rgnStored r w).rcfg r).trigMode
  pre     : (c.rcfg r).pre = ((x.chip.rgnStored r w).rcfg r).pre

/-- What lets a write leave region `r` enabled: it is enabled, or its stacks are ready and its checks pass. -/
def Dev.Enables (x : Dev) (r : Nat) (w : Word) : Prop :=
  x.chip.rb (R.rgn_CAP_RGN_CFG r) 0 = true
    ∨ ((x.chip.rgnStored r w).rgnReady r = true ∧ (x.chip.rgnStored r w).rgnCheck r = none)

theorem Dev.rgnCfgWrite_on (e : Nat) {r : Nat} (h0 : bit w 0 = true) (h : x.Enables r w) :
    ∃ c, x.EnabledBy r w c ∧ x.cleared.rgnCfgWrite e r w = Dev.rgnActs ⟨c, x.mem⟩ e r w := by
  have hbes := Chip.rgnStored_besides x r w
  have hcfg := Chip.rcfg_stored x r w
  have hkept := Chip.rb_rgnStored x r w
  cases hd : x.chip.rb (R.rgn_CAP_RGN_CFG r) 0 with
  | true =>
    exact ⟨_, ⟨hkept.trans hd, hbes, congrArg RCfg.trigMode hcfg, congrArg RCfg.pre hcfg⟩,
      Dev.rgnCfgWrite_enabled (s := x.cleared) h0 hd⟩
  | false =>
    obtain ⟨hready, hcheck⟩ := h.resolve_left (by simp [hd])
    have hw := Dev.rgnCfgWrite_enables (s := x.cleared) h0 hd (Chip.rgnEnable_ok (e := e)
      ((Chip.rgnReady_stored x r w).trans hready) ((Chip.rgnCheck_stored x r w).trans hcheck))
    generalize x.cleared.chip.rgnStored r w = d1 at hbes hcfg hw
    exact ⟨_, ⟨Chip.rb_flag_same _ _ 0 (by decide), (Chip.wr_besides d1 _ _ _).trans hbes,
      (Chip.mode_flag_enable d1 r).trans (congrArg RCfg.trigMode hcfg),
      (Chip.pre_flag_enable d1 r).trans (congrArg RCfg.pre hcfg)⟩, hw⟩

/-! ## One command with its write -/

include hx he hb

theorem does_rgnCfg {i : Instr} {y : Dev} {st : Status} {P : Dev → Prop} {r : Nat}
    (hr : x.chip.rf (R.CAP_RGN_IDX e) 11 0 = r)
    (hi : exec i ⟨q, x⟩ = command (engineOk e) false (fun z => z.hostWrite sess (R.CAP_RGN_CFG e) w) ⟨q, x⟩)
    (ha : x.allows sess (R.CAP_RGN_CFG e) w)
    (hw : x.cleared.rgnCfgWrite e r w = (st, y))
    (hp : P ⟨y.chip.written st e, y.mem⟩) : Does i ⟨q, x⟩ (fun z => z.answered st ∧ P z) := by
  subst hr
  refine does_of_command hi (decide_eq_true he) hx ?_
  rw [Dev.hostWrite_rgnCfg (x := x.cleared) (Dev.allows_cleared ha) hb hw]
  exact ⟨Chip.answered_answer _ _ _, hp⟩

/-! ## REGION_ENABLE -/

section Enable

variable {r : Nat} (hr : x.chip.rf (R.CAP_RGN_IDX e) 11 0 = r) (ha : x.allows sess (R.CAP_RGN_CFG e) (setFld w 0 0 1))
  (h21 : fld w 2 1 = 0)

include hr ha

theorem does_regionEnable_failed {st : Status} (hoff : x.chip.rb (R.rgn_CAP_RGN_CFG r) 0 = false)
    (hready : (x.cleared.chip.rgnStored r (setFld w 0 0 1)).rgnReady r = true)
    (hc : (x.cleared.chip.rgnStored r (setFld w 0 0 1)).rgnCheck r = some st) :
    Does (.regionEnable sess e w) ⟨q, x⟩ (fun y => y.answered st ∧ y.chip.rb (R.rgn_CAP_RGN_CFG r) 0 = false
      ∧ y.chip.rb (R.CAP_EVENT e) 9 = true ∧ x.only y ∧ x.regsBut y [R.rgn_CAP_RGN_CFG r, R.CAP_EVENT e]) := by
  have hst : st ≠ .ok := fun h => Chip.rgnCheck_ne_ok _ _ (h ▸ hc)
  have hw := Dev.rgnCfgWrite_refused (s := x.cleared) (bit_setFld_one w (by decide)) hoff
    (Chip.rgnEnable_failed (e := e) hready hc) hst
  have hbes := Chip.rgnStored_besides x r (setFld w 0 0 1)
  have hrd {k : RegId} := Chip.rd_rgnStored_other x (r := r) (k := k) (setFld w 0 0 1)
  generalize x.cleared.chip.rgnStored r (setFld w 0 0 1) = d1 at hw hbes hrd
  refine does_rgnCfg q hx he hb hr (exec_regionEnable sess e w ⟨q, x⟩) ha hw ⟨?_, ?_, ?_, fun k hk _ => ?_⟩
  · rw [Chip.rb_written_rgn]
    exact (congrArg (bit · 0) (Chip.rd_wr_eng _ _ rfl (by decide))).trans (Chip.rb_unflag_same _ _ (by decide))
  · exact (congrArg (bit · 9) (Chip.rd_written_eng _ st e (by decide))).trans (Chip.rb_flag_same _ _ 9 (by decide))
  · exact Dev.only_written_eq st e ((Chip.wr_besides _ (R.CAP_EVENT e) _ _).trans ((Chip.wr_besides d1 _ _ _).trans hbes))
  · have hne := hk (R.rgn_CAP_RGN_CFG r) (by simp)
    refine (Chip.rd_written_failed _ e hst k).trans ((Chip.rd_flag_other _ 9 (hk (R.CAP_EVENT e) (by simp))).trans ?_)
    exact (Chip.rd_sf_other _ 0 0 0 hne).trans (hrd hne)

theorem does_regionEnable_notReady (hoff : x.chip.rb (R.rgn_CAP_RGN_CFG r) 0 = false)
    (hready : (x.chip.rgnStored r (setFld w 0 0 1)).rgnReady r = false) :
    Does (.regionEnable sess e w) ⟨q, x⟩ (fun y => y.answered .notReady ∧ y.chip.rb (R.rgn_CAP_RGN_CFG r) 0 = false
      ∧ x.only y ∧ x.regsBut y [R.rgn_CAP_RGN_CFG r]) := by
  have hw := Dev.rgnCfgWrite_refused (s := x.cleared) (bit_setFld_one w (by decide)) hoff
    (Chip.rgnEnable_notReady (e := e) ((Chip.rgnReady_stored x _ _).trans hready)) (by decide)
  refine does_rgnCfg q hx he hb hr (exec_regionEnable sess e w ⟨q, x⟩) ha hw ⟨?_, ?_, fun k hk _ => ?_⟩
  · exact (Chip.rb_written_rgn _ _ _ _).trans ((Chip.rb_rgnStored x _ _).trans hoff)
  · exact Dev.only_written_eq .notReady e (Chip.rgnStored_besides x _ _)
  · exact (Chip.rd_written_failed _ e (by decide) k).trans
      (Chip.rd_rgnStored_other x _ (hk (R.rgn_CAP_RGN_CFG r) (by simp)))

include h21

theorem does_regionEnable_enables (h : x.Enables r (setFld w 0 0 1)) :
    Does (.regionEnable sess e w) ⟨q, x⟩ (fun y => y.answered .ok ∧ y.chip.rb (R.rgn_CAP_RGN_CFG r) 0 = true ∧ x.only y) := by
  have hb1 : bit (setFld w 0 0 1) 1 = false :=
    (bit_setFld_other w 1 (by decide) (by decide) (by decide)).trans (bit_of_fld_zero h21 (by decide) (by decide))
  have hb2 : bit (setFld w 0 0 1) 2 = false :=
    (bit_setFld_other w 1 (by decide) (by decide) (by decide)).trans (bit_of_fld_zero h21 (by decide) (by decide))
  obtain ⟨c, hc, hw⟩ := Dev.rgnCfgWrite_on e (bit_setFld_one w (by decide)) h
  exact does_rgnCfg q hx he hb hr (exec_regionEnable sess e w ⟨q, x⟩) ha (hw.trans (Dev.rgnActs_none hb1 hb2))
    ⟨(Chip.rb_written_rgn c .ok e _).trans hc.enable, Dev.only_written_eq .ok e hc.besides⟩

end Enable

/-! ## ARM -/

section Arm

variable {r : Nat} (hr : x.chip.rf (R.CAP_RGN_IDX e) 11 0 = r) (ha : x.allows sess (R.CAP_RGN_CFG e) (setFld w 1 1 1))

include hr ha

theorem does_arm_disabled (h0 : bit w 0 = false) (hoff : x.chip.rb (R.rgn_CAP_RGN_CFG r) 0 = false) :
    Does (.arm sess e w) ⟨q, x⟩ (fun y => y.answered .badParam ∧ y.chip.rb (R.CAP_EVENT e) 9 = true ∧ x.only y) := by
  have hb0 : bit (setFld w 1 1 1) 0 = false := (bit_setFld_other w 1 (by decide) (by decide) (by decide)).trans h0
  have hw := (Dev.rgnCfgWrite_off (s := x.cleared) (e := e) hb0 hoff).trans (if_pos (bit_setFld_one w (by decide)))
  have hbes := Chip.rgnStored_besides x r (setFld w 1 1 1)
  generalize x.cleared.chip.rgnStored r (setFld w 1 1 1) = d1 at hw hbes
  refine does_rgnCfg q hx he hb hr (exec_arm sess e w ⟨q, x⟩) ha hw ⟨?_, ?_⟩
  · exact (congrArg (bit · 9) (Chip.rd_written_eng _ .badParam e (by decide))).trans (Chip.rb_flag_same _ _ 9 (by decide))
  · exact Dev.only_written_eq .badParam e ((Chip.wr_besides d1 (R.CAP_EVENT e) _ _).trans hbes)

variable (h0 : bit w 0 = true) (h2 : bit w 2 = false) (h : x.Enables r (setFld w 1 1 1))

include h0 h2 h

theorem does_arm_busy (hl : (x.chip.rgn r).live = true) :
    Does (.arm sess e w) ⟨q, x⟩ (fun y => y.answered .busy ∧ x.only y) := by
  have hb0 : bit (setFld w 1 1 1) 0 = true := (bit_setFld_other w 1 (by decide) (by decide) (by decide)).trans h0
  have hb2 : bit (setFld w 1 1 1) 2 = false := (bit_setFld_other w 1 (by decide) (by decide) (by decide)).trans h2
  obtain ⟨c, hc, hw⟩ := Dev.rgnCfgWrite_on e hb0 h
  rw [Dev.rgnActs_arm (bit_setFld_one w (by decide)) hb2,
    Chip.rgnArm_busy hc.enable ((congrArg Rgn.live (Chip.rgn_of_besides hc.besides _)).trans hl)] at hw
  exact does_rgnCfg q hx he hb hr (exec_arm sess e w ⟨q, x⟩) ha hw (Dev.only_written_eq .busy e hc.besides)

theorem does_arm_ended (hl : (x.chip.rgn r).live = false) :
    Does (.arm sess e w) ⟨q, x⟩ (fun y => y.answered .ok ∧ x.sameMem y ∧ y.chip.rb (R.rgn_CAP_RGN_CFG r) 0 = true
      ∧ (y.chip.rgn r).next = 0 ∧ (y.chip.rgn r).done = 0 ∧ (y.chip.rgn r).q = [] ∧ (y.chip.rgn r).armT = x.chip.dt
      ∧ (y.chip.rgn r).st = (if ((x.chip.rgnStored r (setFld w 1 1 1)).rcfg r).trigMode = 1 then .post
          else if ((x.chip.rgnStored r (setFld w 1 1 1)).rcfg r).pre = 0 then .armed else .pre)
      ∧ ∀ n, n ≠ r → y.chip.rgn n = x.chip.rgn n) := by
  have hb0 : bit (setFld w 1 1 1) 0 = true := (bit_setFld_other w 1 (by decide) (by decide) (by decide)).trans h0
  have hb2 : bit (setFld w 1 1 1) 2 = false := (bit_setFld_other w 1 (by decide) (by decide) (by decide)).trans h2
  obtain ⟨c, hc, hw⟩ := Dev.rgnCfgWrite_on e hb0 h
  rw [Dev.rgnActs_arm (bit_setFld_one w (by decide)) hb2,
    Chip.rgnArm_ended hc.enable ((congrArg Rgn.live (Chip.rgn_of_besides hc.besides _)).trans hl)] at hw
  have hrgn : ((c.rgnArmed r).written .ok e).rgn r
      = c.armedRegion r :=
    (Chip.rgn_written _ .ok e _).trans (Chip.rgn_setRgn_same c _ _)
  refine does_rgnCfg q hx he hb hr (exec_arm sess e w ⟨q, x⟩) ha hw ⟨x.sameMem_mk _, ?_, ?_⟩
  · exact (Chip.rb_written_rgn _ .ok e _).trans hc.enable
  · rw [hrgn, ← hc.mode, ← hc.pre, ← Chip.dt_of_besides hc.besides]
    refine ⟨rfl, rfl, rfl, rfl, by simp [Chip.armedRegion], fun n hn => ?_⟩
    exact (Chip.rgn_written _ .ok e n).trans ((Chip.rgn_setRgn_other c _ hn).trans (Chip.rgn_of_besides hc.besides n))

end Arm

/-! ## STOP and REGION_DISABLE -/

section Stop

variable {r : Nat} (hr : x.chip.rf (R.CAP_RGN_IDX e) 11 0 = r)

include hr

section OfStop

variable (ha : x.allows sess (R.CAP_RGN_CFG e) (setFld w 2 2 1)) (hon : x.chip.rb (R.rgn_CAP_RGN_CFG r) 0 = true)
  (h0 : bit w 0 = true) (h1 : bit w 1 = false)

include ha hon h0 h1

theorem does_stop_live (hl : (x.chip.rgn r).live = true) :
    Does (.stop sess e w) ⟨q, x⟩ (fun y => y.answered .ok ∧ y.chip.Stopped r) := by
  have hb0 : bit (setFld w 2 2 1) 0 = true := (bit_setFld_other w 1 (by decide) (by decide) (by decide)).trans h0
  have hb1 : bit (setFld w 2 2 1) 1 = false := (bit_setFld_other w 1 (by decide) (by decide) (by decide)).trans h1
  obtain ⟨c, hc, hw⟩ := Dev.rgnCfgWrite_on e hb0 (.inl hon)
  rw [Dev.rgnActs_stop hb1 (bit_setFld_one w (by decide))] at hw
  have hlive : (c.rgn r).live = true :=
    (congrArg Rgn.live (Chip.rgn_of_besides hc.besides _)).trans hl
  exact does_rgnCfg q hx he hb hr (exec_stop sess e w ⟨q, x⟩) ha hw
    (Chip.stopped_written .ok e (Dev.stopped_rgnStop (s := ⟨c, x.mem⟩) hlive true).1)

theorem does_stop_ended (hl : (x.chip.rgn r).live = false) :
    Does (.stop sess e w) ⟨q, x⟩ (fun y => y.answered .ok ∧ x.only y) := by
  have hb0 : bit (setFld w 2 2 1) 0 = true := (bit_setFld_other w 1 (by decide) (by decide) (by decide)).trans h0
  have hb1 : bit (setFld w 2 2 1) 1 = false := (bit_setFld_other w 1 (by decide) (by decide) (by decide)).trans h1
  obtain ⟨c, hc, hw⟩ := Dev.rgnCfgWrite_on e hb0 (.inl hon)
  rw [Dev.rgnActs_stop hb1 (bit_setFld_one w (by decide)),
    Dev.rgnStop_ended ((congrArg Rgn.live (Chip.rgn_of_besides hc.besides _)).trans hl)] at hw
  exact does_rgnCfg q hx he hb hr (exec_stop sess e w ⟨q, x⟩) ha hw (Dev.only_written_eq .ok e hc.besides)

end OfStop

section Disable

variable (ha : x.allows sess (R.CAP_RGN_CFG e) (setFld w 0 0 0)) (h1 : bit w 1 = false)

include ha h1

theorem does_regionDisable_off (hoff : x.chip.rb (R.rgn_CAP_RGN_CFG r) 0 = false) :
    Does (.regionDisable sess e w) ⟨q, x⟩ (fun y => y.answered .ok ∧ y.chip.rb (R.rgn_CAP_RGN_CFG r) 0 = false ∧ x.only y) := by
  have hb1 : ¬ bit (setFld w 0 0 0) 1 = true :=
    ne_true_of_eq_false ((bit_setFld_other w 0 (by decide) (by decide) (by decide)).trans h1)
  have hw := (Dev.rgnCfgWrite_off (s := x.cleared) (e := e) (bit_setFld_zero w (by decide)) hoff).trans (if_neg hb1)
  exact does_rgnCfg q hx he hb hr (exec_regionDisable sess e w ⟨q, x⟩) ha hw
    ⟨(Chip.rb_written_rgn _ .ok e _).trans ((Chip.rb_rgnStored x _ _).trans hoff),
      Dev.only_written_eq .ok e (Chip.rgnStored_besides x _ _)⟩

variable (hon : x.chip.rb (R.rgn_CAP_RGN_CFG r) 0 = true)

include hon

theorem does_regionDisable_live (hl : (x.chip.rgn r).live = true) :
    Does (.regionDisable sess e w) ⟨q, x⟩ (fun y => y.answered .ok ∧ y.chip.rb (R.rgn_CAP_RGN_CFG r) 0 = false
      ∧ y.chip.Stopped r) := by
  have hb1 : bit (setFld w 0 0 0) 1 = false := (bit_setFld_other w 0 (by decide) (by decide) (by decide)).trans h1
  have hw := Dev.rgnCfgWrite_disable (s := x.cleared) (e := e) (bit_setFld_zero w (by decide)) hb1 hon
  have hbes := Chip.rgnStored_besides x r (setFld w 0 0 0)
  generalize x.cleared.chip.rgnStored r (setFld w 0 0 0) = d1 at hw hbes
  have hlive : (d1.rgn r).live = true :=
    (congrArg Rgn.live (Chip.rgn_of_besides hbes _)).trans hl
  rw [Dev.rgnDisable_live hlive] at hw
  obtain ⟨hstopped, hcfg⟩ := Dev.stopped_rgnStop
    (s := ⟨d1.unflag (R.rgn_CAP_RGN_CFG r) 0, x.mem⟩) hlive true
  exact does_rgnCfg q hx he hb hr (exec_regionDisable sess e w ⟨q, x⟩) ha hw
    ⟨(Chip.rb_written_rgn _ .ok e _).trans (hcfg.trans (Chip.rb_unflag_same d1 _ (by decide))),
      Chip.stopped_written .ok e hstopped⟩

theorem does_regionDisable_ended (hl : (x.chip.rgn r).live = false) :
    Does (.regionDisable sess e w) ⟨q, x⟩ (fun y => y.answered .ok ∧ y.chip.rgn r = Rgn.init
      ∧ y.chip.rb (R.rgn_CAP_RGN_CFG r) 0 = false ∧ (∀ n, n ≠ r → y.chip.rgn n = x.chip.rgn n)
      ∧ x.only y (fun c => { c with rgns := y.chip.rgns })) := by
  have hb1 : bit (setFld w 0 0 0) 1 = false := (bit_setFld_other w 0 (by decide) (by decide) (by decide)).trans h1
  have hw := Dev.rgnCfgWrite_disable (s := x.cleared) (e := e) (bit_setFld_zero w (by decide)) hb1 hon
  have hbes := Chip.rgnStored_besides x r (setFld w 0 0 0)
  generalize x.cleared.chip.rgnStored r (setFld w 0 0 0) = d1 at hw hbes
  rw [Dev.rgnDisable_ended ((congrArg Rgn.live (Chip.rgn_of_besides hbes _)).trans hl)] at hw
  refine does_rgnCfg q hx he hb hr (exec_regionDisable sess e w ⟨q, x⟩) ha hw ⟨?_, ?_, fun n hn => ?_, ?_⟩
  · exact (Chip.rgn_written _ .ok e _).trans (Chip.rgn_setRgn_same _ _ _)
  · exact (Chip.rb_written_rgn _ .ok e _).trans (Chip.rb_unflag_same d1 _ (by decide))
  · exact (Chip.rgn_written _ .ok e n).trans ((Chip.rgn_setRgn_other _ _ hn).trans (Chip.rgn_of_besides hbes n))
  · exact Dev.only_setRgn .ok e ((Chip.wr_besides d1 _ _ _).trans hbes) _ _

end Disable

end Stop

end Commands

/-- Settles O30: ENABLE, STOP and ARM of one write act in turn, and a region that stops is neither IDLE nor running once
its writes have ended. -/
theorem captureRegions : Obligations.CaptureRegions := by
  intro q x sess e w he hx hb
  refine ⟨fun ha h21 => ⟨fun hoff => ⟨fun hready => ⟨fun hc => ?_, fun st hc => ?_⟩, fun hready => ?_⟩, fun hon => ?_⟩,
    fun ha => ⟨fun h0 h2 h => ⟨fun hl => ?_, fun hl => ?_⟩, fun h0 hoff => ?_⟩,
    fun ha hon h0 h1 => ⟨fun hl => ?_, fun hl => ?_⟩,
    fun ha h1 => ⟨fun hon hl => ?_, fun hon hl => ?_, fun hoff => ?_⟩⟩
  · exact does_regionEnable_enables q hx he hb rfl ha h21 (.inr ⟨hready, hc⟩)
  · exact does_regionEnable_failed q hx he hb rfl ha hoff ((Chip.rgnReady_stored x _ _).trans hready)
      ((Chip.rgnCheck_stored x _ _).trans hc)
  · exact does_regionEnable_notReady q hx he hb rfl ha hoff hready
  · exact does_regionEnable_enables q hx he hb rfl ha h21 (.inl hon)
  · exact does_arm_ended q hx he hb rfl ha h0 h2 h hl
  · exact does_arm_busy q hx he hb rfl ha h0 h2 h hl
  · exact does_arm_disabled q hx he hb rfl ha h0 hoff
  · exact does_stop_live q hx he hb rfl ha hon h0 h1 hl
  · exact does_stop_ended q hx he hb rfl ha hon h0 h1 hl
  · exact does_regionDisable_live q hx he hb rfl ha h1 hon hl
  · exact does_regionDisable_ended q hx he hb rfl ha h1 hon hl
  · exact does_regionDisable_off q hx he hb rfl ha h1 hoff

end Sys2Proof.Machine
end

section
set_option Elab.async false
/-! Bales on their way to the Yard (R160, R163, R180, R181, R222): a bale is closed, written, refused and written again.
The idea is one invariant of the queue: while the first bale that waits in it has its slot behind a fence, or none waits,
the retry of pending bales writes nothing, and whatever an accepted write sets off keeps it so. -/
namespace Sys2Proof.Machine

/-! # Nothing in the queue is due -/

/-- The first bale that waits in a queue, if any, has its slot behind a fence. -/
def NoneDue (q : List BaleWr) (fenced : Nat → Bool) : Prop :=
  ∀ w, q.find? (fun v => !v.sent) = some w → fenced w.bale.seq = true

section Queue

variable {q : List BaleWr} {fenced : Nat → Bool}

theorem noneDue_of_sent (h : q.find? (fun v => !v.sent) = none) : NoneDue q fenced := by
  intro w hw
  simp [h] at hw

theorem Rgn.find_unsent_iff (x : Rgn) : x.q.find? (fun v => !v.sent) = none ↔ x.pending = false := by
  simp [Rgn.pending, List.find?_eq_none]

theorem find_unsent_map (q : List BaleWr) {g : BaleWr → BaleWr} (hg : ∀ v, (g v).sent = v.sent) :
    (q.map g).find? (fun v => !v.sent) = (q.find? (fun v => !v.sent)).map g := by
  rw [List.find?_map]
  exact congrArg (fun p => (q.find? p).map g) (funext fun v => congrArg (!·) (hg v))

theorem NoneDue.map (h : NoneDue q fenced) {g : BaleWr → BaleWr} (hs : ∀ v, (g v).sent = v.sent)
    (hg : ∀ v, (g v).bale.seq = v.bale.seq) : NoneDue (q.map g) fenced := by
  intro w hw
  rw [find_unsent_map q hs, Option.map_eq_some_iff] at hw
  obtain ⟨v, hv, rfl⟩ := hw
  rw [hg v]
  exact h v hv

/-- A bale that joins the queue waits behind one that waits, or behind a fence. -/
theorem NoneDue.append (h : NoneDue q fenced) {m : BaleWr}
    (hm : q.find? (fun v => !v.sent) = none → m.sent = false → fenced m.bale.seq = true) : NoneDue (q ++ [m]) fenced := by
  intro w hw
  rw [List.find?_append, Option.or_eq_some_iff] at hw
  obtain hold | ⟨hnone, hnew⟩ := hw
  · exact h w hold
  · obtain ⟨hsent, rfl⟩ : m.sent = false ∧ m = w := by simpa using hnew
    exact hm hnone hsent

end Queue

/-- Nothing is due in the queue of region `r`. -/
def Chip.NoneDue (r : Nat) (d : Chip) : Prop := Machine.NoneDue (d.rgn r).q (d.slotFenced (d.rcfg r))

section Region

variable {d : Chip} {r : Nat}

/-- Where a region's slots lie and which are fenced is in no engine window. -/
theorem Chip.slotFenced_wr_eng (d : Chip) {k : RegId} (w : Word) (hk : k.blk = .eng) (r : Nat) :
    (d.wr k w).slotFenced ((d.wr k w).rcfg r) = d.slotFenced (d.rcfg r) := by
  funext seq
  have htdm : (d.wr k w).rd R.TDM_STATUS = d.rd R.TDM_STATUS := Chip.rd_wr_eng d w hk (by decide)
  have hbase : (d.wr k w).rd (R.rgn_CAP_RGN_BASE r) = d.rd (R.rgn_CAP_RGN_BASE r) := Chip.rd_wr_eng d w hk (by decide)
  have hsize : (d.wr k w).rd (R.rgn_CAP_RGN_SIZE r) = d.rd (R.rgn_CAP_RGN_SIZE r) := Chip.rd_wr_eng d w hk (by decide)
  simp only [Chip.slotFenced, Chip.targetOf, Chip.fenced, Chip.splitHold, Chip.tdmSt, Chip.rcfg, RCfg.slotAddr, Chip.rf, htdm,
    hbase, hsize]
  rfl

theorem Chip.NoneDue.setRgn (h : d.NoneDue r) (k : Nat) {x : Rgn}
    (hx : k = r → Machine.NoneDue x.q (d.slotFenced (d.rcfg r))) : (d.setRgn k x).NoneDue r := by
  unfold Chip.NoneDue
  by_cases hk : k = r
  · subst hk
    rw [Chip.rgn_setRgn_same]
    exact hx rfl
  · rw [Chip.rgn_setRgn_other d x (Ne.symm hk)]
    exact h

theorem Chip.NoneDue.enqueue (h : d.NoneDue r) (k : Nat) (b : Bale) (marker : Bool) (last : Nat) :
    (d.enqueue (d.rcfg k) b marker last).NoneDue r := by
  have hp : (d.rgn k).q.find? (fun v => !v.sent) = none → (d.rgn k).pending = false := (Rgn.find_unsent_iff _).mp
  unfold Chip.enqueue
  extract_lets x b1 tent0 octs q sent
  split
  · exact h
  · split
    · refine h.setRgn k fun hk => ?_
      subst hk
      have hsent (v : BaleWr) : (if v.sent then v else { v with fold := false }).sent = v.sent := by split <;> rfl
      refine NoneDue.append (NoneDue.map h hsent fun v => by split <;> rfl) fun hq (hs : sent = false) => ?_
      rw [find_unsent_map _ hsent, Option.map_eq_none_iff] at hq
      simpa [sent, x, show (d.rgn (d.rcfg k).rgn).pending = false from hp hq] using hs
    · split
      · refine h.setRgn k fun hk => ?_
        subst hk
        exact NoneDue.map h (fun v => by dsimp only; split <;> rfl) fun v => by dsimp only; split <;> rfl
      · split
        · next hw =>
          refine h.setRgn k fun hk => ?_
          subst hk
          exact NoneDue.append h fun hq _ => hw.resolve_left (ne_true_of_eq_false (hp hq))
        · refine h.setRgn k fun hk => ?_
          subst hk
          exact NoneDue.append h fun _ hs => Bool.noConfusion hs

theorem Chip.keptByCapture_noneDue (r : Nat) : Chip.KeptByCapture (Chip.NoneDue r) where
  wr d k w hk := congrArg (Machine.NoneDue (d.rgn r).q) (Chip.slotFenced_wr_eng d w hk r)
  log _ _ := rfl
  lines _ _ := rfl
  setCap _ _ _ := rfl
  setComb _ _ _ := rfl
  setRgn d k x _ hq h := h.setRgn k fun hk => by
    subst hk
    obtain heq | hnil := hq
    · exact heq ▸ h
    · exact hnil ▸ noneDue_of_sent rfl
  enqueue _ k b marker last h := h.enqueue k b marker last

theorem Dev.settle_of_noneDue {s : Dev} (h : s.chip.NoneDue r) : s.settle r = s := by
  unfold Dev.settle
  cases (s.chip.rgn r).q.length with
  | zero => rfl
  | succ n =>
    unfold Dev.tryPending
    dsimp only
    split
    · rfl
    · next w hw => exact if_pos (h w hw)

end Region

end Sys2Proof.Machine
end

section
set_option Elab.async false
/-! The commands of the bale writer (R160, R180, R181, R222): flush, reply and retry. -/
namespace Sys2Proof.Machine

/-! # What an accepted write leaves -/

/-- The bale that a write stores: a fold is stored as a GAP bale (R167, R181). -/
def BaleWr.stored (w : BaleWr) : Bale :=
  if w.folded then { w.bale with payload := gapPayload w.lost w.last 0x02 } else w.bale

/-- From `x` to `y` the bytes of bale `b` are written to its slot of region `r`, and no other byte of memory changes. -/
def Dev.Writes (x y : Dev) (r : Nat) (b : Bale) : Prop :=
  (∀ i v, (b.bytes (x.chip.rcfg r))[i]? = some v → y.mem.rd1 ((x.chip.rcfg r).slotAddr b.seq + i) = v)
    ∧ (∀ a, (a < (x.chip.rcfg r).slotAddr b.seq
        ∨ (x.chip.rcfg r).slotAddr b.seq + (b.bytes (x.chip.rcfg r)).length ≤ a) → y.mem.rd1 a = x.mem.rd1 a)

section Accept

variable {x : Dev} {d : Chip} {r : Nat} {w : BaleWr}

theorem BaleWr.seq_stored (w : BaleWr) : w.stored.seq = w.bale.seq := by
  unfold BaleWr.stored
  split <;> rfl

theorem Dev.mem_accept (x : Dev) (r : Nat) (w : BaleWr) :
    (x.accept r w).mem = x.mem.store ((x.chip.rcfg r).slotAddr w.stored.seq) (w.stored.bytes (x.chip.rcfg r)) := by
  rw [BaleWr.seq_stored]
  rfl

theorem Dev.writes_accept (x : Dev) (r : Nat) (w : BaleWr) : x.Writes (x.accept r w) r w.stored := by
  unfold Dev.Writes
  rw [Dev.mem_accept]
  generalize w.stored.bytes (x.chip.rcfg r) = l
  refine ⟨fun i v hv => ?_, fun a ha => ?_⟩
  · obtain ⟨hi, rfl⟩ := List.getElem?_eq_some_iff.mp hv
    rw [Mem.rd1_store, if_pos ⟨Nat.le_add_right _ i, Nat.add_lt_add_left hi _⟩, Nat.add_sub_cancel_left]
    exact (List.getElem_eq_getD 0).symm
  · exact (Mem.rd1_store _ _ _ _).trans (if_neg (by omega))

/-- After an accepted write nothing is due, where nothing waited. -/
theorem Dev.noneDue_accept (h : (x.chip.rgn r).pending = false) (w : BaleWr) : (x.accept r w).chip.NoneDue r := by
  have hall : x.chip.NoneDue r := noneDue_of_sent ((Rgn.find_unsent_iff _).mpr h)
  refine (Chip.keptByCapture_noneDue r).accept (hall.setRgn r fun _ => noneDue_of_sent ?_)
  rw [List.find?_eq_none]
  intro v hv
  exact List.find?_eq_none.mp ((Rgn.find_unsent_iff _).mpr h) v (List.mem_filter.mp hv).1

/-! ## Where no combiner is enabled -/

/-- No combiner is enabled. -/
def Chip.Quiet (d : Chip) : Prop := ∀ cb, d.rb (R.comb_CAP_TRG_CFG cb) 0 = false

theorem Chip.rgn_evt (d : Chip) (src code ctx det ext r : Nat) : (d.evt src code ctx det ext).rgn r = d.rgn r :=
  Chip.evtAt_keeps (fun c => c.rgn r) (Chip.tapWord_keeps (fun c => c.rgn r) (fun _ _ _ => rfl) fun _ _ _ _ => rfl)
    (fun _ _ => rfl) d d.dt src code ctx det ext

theorem Chip.Quiet.wr (h : d.Quiet) {k : RegId} (hk : k.blk = .eng) (w : Word) : (d.wr k w).Quiet :=
  fun cb => (congrArg (bit · 0) (Chip.rd_wr_eng d w hk (by decide))).trans (h cb)

theorem Chip.Quiet.evt (h : d.Quiet) (src code ctx det ext : Nat) : (d.evt src code ctx det ext).Quiet :=
  fun cb => (congrArg (bit · 0) ((Chip.blindToCapture_rd (r := R.comb_CAP_TRG_CFG cb) rfl).evt d src code ctx det ext)).trans (h cb)

theorem Chip.Quiet.setRgn (h : d.Quiet) (r : Nat) (y : Rgn) : (d.setRgn r y).Quiet := h

theorem Chip.Quiet.addLost (h : d.Quiet) (e n : Nat) : (d.addLost e n).Quiet := Chip.Quiet.wr (h.wr rfl _) rfl _

theorem Chip.rgn_wr (d : Chip) (k : RegId) (w : Word) (r : Nat) : (d.wr k w).rgn r = d.rgn r := rfl

theorem Chip.rgn_addLost (d : Chip) (e n r : Nat) : (d.addLost e n).rgn r = d.rgn r := by
  unfold Chip.addLost Chip.setPair
  rw [Chip.rgn_wr, Chip.rgn_wr]

theorem Chip.rgn_gapWritten (h : d.Quiet) (c : RCfg) (seq lost : Nat) : (d.gapWritten c seq lost).rgn r = d.rgn r := by
  have hq : (((d.count (R.CAP_GAP_CNT c.eng)).flag (R.CAP_EVENT c.eng) 0).evt c.eng 0x0600 (subCtx c.sub) (seq % 2 ^ 32)
      (lost * 2 ^ 64)).Quiet := Chip.Quiet.evt (Chip.Quiet.wr (h.wr rfl _) rfl _) _ _ _ _ _
  unfold Chip.gapWritten Chip.raiseEng
  rw [Chip.raise_idle hq]
  exact Chip.rgn_evt _ _ _ _ _ _ r

theorem Chip.rgn_poisonWritten (h : d.Quiet) (c : RCfg) (seq : Nat) : (d.poisonWritten c seq).rgn r = d.rgn r := by
  have hq : ((d.flag (R.CAP_EVENT c.eng) 1).evt c.eng 0x0601 (subCtx c.sub) (seq % 2 ^ 32) 0).Quiet :=
    Chip.Quiet.evt (h.wr rfl _) _ _ _ _ _
  unfold Chip.poisonWritten Chip.raiseEng
  rw [Chip.raise_idle hq]
  exact Chip.rgn_evt _ _ _ _ _ _ r

/-- Advancing a region leaves its queue, or empties it where the region is complete. -/
theorem Chip.q_advanceRgn (d : Chip) (r : Nat) : ((d.advanceRgn r).rgn r).q = (d.rgn r).q ∨ ((d.advanceRgn r).rgn r).q = [] := by
  unfold Chip.advanceRgn
  extract_lets c x n done x1 x2
  split
  · rw [Chip.rgn_setRgn_same]
    split
    · exact .inl rfl
    · exact .inl rfl
  · split
    · refine .inr ((congrArg Rgn.q (Chip.rgn_evt _ _ _ _ _ _ r)).trans ?_)
      have h2 : (d.setRgn r x2).rgn r = x2 := Chip.rgn_setRgn_same d r x2
      split
      · exact congrArg Rgn.q h2
      · exact congrArg Rgn.q h2
    · rw [Chip.rgn_setRgn_same]
      exact .inl rfl
  · rw [Chip.rgn_setRgn_same]
    exact .inl rfl

/-- Where no combiner is enabled, the GAP or the poison that is logged reaches no region. -/
theorem Chip.rgn_logged (h : d.Quiet) (c : RCfg) (w : BaleWr) (r : Nat) :
    (if w.folded then (d.addLost c.eng w.lost).gapWritten c w.bale.seq w.lost
      else if (w.bale.flags &&& fPoison) ≠ 0 then d.poisonWritten c w.bale.seq else d).rgn r = d.rgn r := by
  split
  · exact (Chip.rgn_gapWritten (h.addLost _ _) c _ _).trans (Chip.rgn_addLost d _ _ r)
  · split
    · exact Chip.rgn_poisonWritten h c _
    · rfl

/-- Where no combiner is enabled, an accepted write leaves no write of its SEQ, and adds none. -/
theorem Dev.q_accept (h : x.chip.Quiet) (r : Nat) (w : BaleWr) :
    ((x.accept r w).chip.rgn r).q = (x.chip.rgn r).q.filter (fun v => v.bale.seq ≠ w.bale.seq)
      ∨ ((x.accept r w).chip.rgn r).q = [] := by
  unfold Dev.accept
  extract_lets c bale b y d d1
  have hq : (d1.rgn r).q = (x.chip.rgn r).q.filter (fun v => v.bale.seq ≠ w.bale.seq) :=
    congrArg Rgn.q ((Chip.rgn_logged (h.setRgn r _) c w r).trans (Chip.rgn_setRgn_same _ _ _))
  exact hq ▸ Chip.q_advanceRgn d1 r

end Accept

/-! # Closing a bale (R160, R222) -/

section Close

variable {d : Chip} {r : Nat}

section Enqueue

variable {c : RCfg} (hf : (d.rgn c.rgn).full c = false) (hp : (d.rgn c.rgn).pending = false) (b : Bale) (last : Nat)

include hf hp

theorem Chip.enqueue_written (hs : d.slotFenced c (d.rgn c.rgn).next = false) :
    ((d.enqueue c b false last).rgn c.rgn).open_ = (d.rgn c.rgn).open_
      ∧ ((d.enqueue c b false last).rgn c.rgn).next = (d.rgn c.rgn).next + 1
      ∧ ((d.enqueue c b false last).rgn c.rgn).q = (d.rgn c.rgn).q
          ++ [⟨{ b with seq := (d.rgn c.rgn).next, engine := c.eng }, true, false, false, false, 0, b.time, last⟩] := by
  simp [Chip.enqueue, hf, hp, hs]

theorem Chip.enqueue_fenced (hs : d.slotFenced c (d.rgn c.rgn).next = true) :
    ((d.enqueue c b false last).rgn c.rgn).open_ = (d.rgn c.rgn).open_
      ∧ ((d.enqueue c b false last).rgn c.rgn).next = (d.rgn c.rgn).next + 1
      ∧ ((d.enqueue c b false last).rgn c.rgn).q = (d.rgn c.rgn).q
          ++ [foldOf { b with seq := (d.rgn c.rgn).next, engine := c.eng } b.payload.length last]
      ∧ ((d.enqueue c b false last).rgn c.rgn).resync = true := by
  simp [Chip.enqueue, hf, hp, hs]

end Enqueue

variable {o : OpenBale} (ho : (d.rgn r).open_ = some o)

include ho

theorem Chip.closeBale_open :
    d.closeBale r = (d.setRgn r { d.rgn r with open_ := none }).enqueue (d.rcfg r) (o.bale (d.rgn r).next (d.rcfg r).eng) false
      (o.tags.getLast?.getD ⟨0, 0, false⟩).stamp := by
  unfold Chip.closeBale
  dsimp only
  rw [ho]

section Closed

variable (hp : (d.rgn r).pending = false) (hf : (d.rgn r).full (d.rcfg r) = false)

include hp hf

/-- An open bale whose slot is behind no fence is on its way to the Yard once it is closed. -/
theorem Chip.closeBale_written (hs : d.slotFenced (d.rcfg r) (d.rgn r).next = false) :
    ((d.closeBale r).rgn r).open_ = none ∧ ((d.closeBale r).rgn r).next = (d.rgn r).next + 1
      ∧ ∃ w, ((d.closeBale r).rgn r).q = (d.rgn r).q ++ [w] ∧ w.sent = true
        ∧ w.bale = o.bale (d.rgn r).next (d.rcfg r).eng := by
  have h0 : (d.setRgn r { d.rgn r with open_ := none }).rgn (d.rcfg r).rgn = { d.rgn r with open_ := none } :=
    Chip.rgn_setRgn_same d r _
  obtain ⟨hopen, hnext, hq⟩ := Chip.enqueue_written (d := d.setRgn r { d.rgn r with open_ := none }) (c := d.rcfg r)
    (h0.symm ▸ hf) (h0.symm ▸ hp) (o.bale (d.rgn r).next (d.rcfg r).eng) (o.tags.getLast?.getD ⟨0, 0, false⟩).stamp
    (h0.symm ▸ hs)
  rw [Chip.closeBale_open ho]
  rw [h0] at hopen hnext hq
  exact ⟨hopen, hnext, _, hq, rfl, rfl⟩

/-- One whose slot is behind a fence becomes a GAP bale that waits. -/
theorem Chip.closeBale_fenced (hs : d.slotFenced (d.rcfg r) (d.rgn r).next = true) :
    ((d.closeBale r).rgn r).open_ = none ∧ ((d.closeBale r).rgn r).next = (d.rgn r).next + 1
      ∧ ((d.closeBale r).rgn r).q = (d.rgn r).q ++ [foldOf (o.bale (d.rgn r).next (d.rcfg r).eng) o.octets.length
        (o.tags.getLast?.getD ⟨0, 0, false⟩).stamp]
      ∧ ((d.closeBale r).rgn r).resync = true := by
  have h0 : (d.setRgn r { d.rgn r with open_ := none }).rgn (d.rcfg r).rgn = { d.rgn r with open_ := none } :=
    Chip.rgn_setRgn_same d r _
  obtain ⟨hopen, hnext, hq, hresync⟩ := Chip.enqueue_fenced (d := d.setRgn r { d.rgn r with open_ := none })
    (c := d.rcfg r) (h0.symm ▸ hf) (h0.symm ▸ hp) (o.bale (d.rgn r).next (d.rcfg r).eng)
    (o.tags.getLast?.getD ⟨0, 0, false⟩).stamp (h0.symm ▸ hs)
  rw [Chip.closeBale_open ho]
  rw [h0] at hopen hnext hq
  exact ⟨hopen, hnext, hq, hresync⟩

end Closed

theorem Chip.baleFlush_due (ht : o.opened + d.rf (R.CAP_CFG (d.rcfg r).eng) 19 0 * 1000 ≤ d.core) :
    d.baleFlush r = d.closeBale r := by
  unfold Chip.baleFlush
  rw [ho]
  exact if_pos ht

theorem Chip.baleFlush_early (ht : d.core < o.opened + d.rf (R.CAP_CFG (d.rcfg r).eng) 19 0 * 1000) : d.baleFlush r = d := by
  unfold Chip.baleFlush
  rw [ho]
  exact if_neg (Nat.not_le.mpr ht)

end Close

theorem Chip.baleFlush_closed {d : Chip} {r : Nat} (ho : (d.rgn r).open_ = none) : d.baleFlush r = d := by
  unfold Chip.baleFlush
  rw [ho]

/-! # The commands -/

theorem exec_baleFlushTimeout (r : Nat) (s : State) : exec (.baleFlushTimeout r) s
    = command (regionOk r) false (fun x => (x.on (fun d => d.baleFlush r)).settle r) s := rfl

theorem exec_baleWriteReply (r seq : Nat) (ok : Bool) (s : State) : exec (.baleWriteReply r seq ok) s
    = command (regionOk r) false (fun x => x.baleReply r seq ok) s := rfl

theorem exec_pendingBaleRetry (r : Nat) (s : State) : exec (.pendingBaleRetry r) s
    = command (regionOk r) false (fun x => x.settle r) s := rfl

section Replies

variable {s : Dev} {r seq : Nat}

theorem Dev.baleReply_unknown (h : (s.chip.rgn r).q.find? (fun v => v.bale.seq = seq && v.sent) = none) (ok : Bool) :
    s.baleReply r seq ok = s := by
  unfold Dev.baleReply
  rw [h]

variable {w : BaleWr} (h : (s.chip.rgn r).q.find? (fun v => v.bale.seq = seq && v.sent) = some w)

include h

theorem Dev.baleReply_accepted : s.baleReply r seq true = (s.accept r w).settle r := by
  unfold Dev.baleReply
  rw [h]
  rfl

theorem Dev.baleReply_refused : s.baleReply r seq false = ⟨s.chip.refuseBale r seq, s.mem⟩ := by
  unfold Dev.baleReply
  rw [h]
  rfl

end Replies

/-- A refused write that is alone in its queue waits itself, or as a GAP bale (R181). -/
theorem Chip.rgn_refuseBale {d : Chip} {r : Nat} {w : BaleWr} (hq : (d.rgn r).q = [w]) (hs : w.sent = true) :
    (d.refuseBale r w.bale.seq).rgn r = { d.rgn r with
      q := [if w.marker then { w with sent := false } else foldOf w.bale w.bale.payload.length w.last], resync := true } := by
  unfold Chip.refuseBale
  rw [Chip.rgn_setRgn_same]
  simp only [hq, hs, List.map_cons, List.map_nil, and_self, if_true, List.length_cons, List.length_nil, mergeTail,
    List.reverse_cons, List.reverse_nil, List.nil_append]

/-- A single bale that waits behind no fence is written. -/
theorem Dev.settle_single {s : Dev} {r : Nat} {w : BaleWr} (hq : (s.chip.rgn r).q = [w]) (hs : w.sent = false)
    (hf : s.chip.slotFenced (s.chip.rcfg r) w.bale.seq = false) : s.settle r = s.accept r w := by
  have hfind : (s.chip.rgn r).q.find? (fun v => !v.sent) = some w := by simp [hq, hs]
  unfold Dev.settle
  rw [congrArg List.length hq]
  show s.tryPending r 1 = _
  unfold Dev.tryPending
  dsimp only
  rw [hfind]
  exact if_neg (ne_true_of_eq_false hf)

section Commands

variable (q : List Instr) {x : Dev} (hx : x.live) {r : Nat} (hr : r < 4096)

include hx hr

/-! ## BALE_FLUSH_TIMEOUT -/

section Flush

variable (hp : (x.chip.rgn r).pending = false)

include hp

/-- A flush that closes no bale is a retry, which finds none that waits. -/
theorem does_baleFlush_idle (h : x.cleared.chip.baleFlush r = x.cleared.chip) :
    Does (.baleFlushTimeout r) ⟨q, x⟩ x.idle := by
  refine does_same (exec_baleFlushTimeout r ⟨q, x⟩) (decide_eq_true hr) hx ?_
  have hon : x.cleared.on (fun d => d.baleFlush r) = x.cleared := congrArg (Dev.mk · x.mem) h
  exact (congrArg (Dev.settle · r) hon).trans (Dev.settle_of_not_pending (s := x.cleared) hp)

variable {o : OpenBale} (ho : (x.chip.rgn r).open_ = some o)
  (ht : o.opened + x.chip.rf (R.CAP_CFG (x.chip.rcfg r).eng) 19 0 * 1000 ≤ x.chip.core)

include ho ht

/-- A bale that its region flushes is closed, and no retry writes another. -/
theorem does_baleFlush_closes {P : Dev → Prop} (h : P ⟨x.cleared.chip.closeBale r, x.mem⟩) :
    Does (.baleFlushTimeout r) ⟨q, x⟩ P := by
  have hdue : x.cleared.chip.NoneDue r := noneDue_of_sent ((Rgn.find_unsent_iff _).mpr hp)
  have hclosed : (x.cleared.chip.closeBale r).NoneDue r := (Chip.keptByCapture_noneDue r).closeBale hdue r
  refine does_of_command (exec_baleFlushTimeout r ⟨q, x⟩) (decide_eq_true hr) hx ?_
  have hon : x.cleared.on (fun d => d.baleFlush r) = ⟨x.cleared.chip.closeBale r, x.mem⟩ :=
    congrArg (Dev.mk · x.mem) (Chip.baleFlush_due (d := x.cleared.chip) ho ht)
  rw [hon, Dev.settle_of_noneDue (s := ⟨x.cleared.chip.closeBale r, x.mem⟩) hclosed]
  exact h

variable (hf : (x.chip.rgn r).full (x.chip.rcfg r) = false)

include hf

theorem does_baleFlush_written (hs : x.chip.slotFenced (x.chip.rcfg r) (x.chip.rgn r).next = false) :
    Does (.baleFlushTimeout r) ⟨q, x⟩ (fun y => (y.chip.rgn r).open_ = none ∧ (y.chip.rgn r).next = (x.chip.rgn r).next + 1
      ∧ x.sameMem y ∧ ∃ w, (y.chip.rgn r).q = (x.chip.rgn r).q ++ [w] ∧ w.sent = true
        ∧ w.bale = o.bale (x.chip.rgn r).next (x.chip.rcfg r).eng) := by
  obtain ⟨hopen, hnext, hq⟩ := Chip.closeBale_written (d := x.cleared.chip) ho hp hf hs
  exact does_baleFlush_closes q hx hr hp ho ht ⟨hopen, hnext, x.sameMem_mk _, hq⟩

theorem does_baleFlush_fenced (hs : x.chip.slotFenced (x.chip.rcfg r) (x.chip.rgn r).next = true) :
    Does (.baleFlushTimeout r) ⟨q, x⟩ (fun y => (y.chip.rgn r).open_ = none ∧ (y.chip.rgn r).next = (x.chip.rgn r).next + 1
      ∧ x.sameMem y ∧ (y.chip.rgn r).q = (x.chip.rgn r).q ++ [foldOf (o.bale (x.chip.rgn r).next (x.chip.rcfg r).eng)
        o.octets.length (o.tags.getLast?.getD ⟨0, 0, false⟩).stamp]
      ∧ (y.chip.rgn r).resync = true) := by
  obtain ⟨hopen, hnext, hq⟩ := Chip.closeBale_fenced (d := x.cleared.chip) ho hp hf hs
  exact does_baleFlush_closes q hx hr hp ho ht ⟨hopen, hnext, x.sameMem_mk _, hq⟩

end Flush

/-! ## BALE_WRITE_REPLY -/

theorem does_baleReply_unknown {seq : Nat} (h : (x.chip.rgn r).q.find? (fun v => v.bale.seq = seq && v.sent) = none) (ok : Bool) :
    Does (.baleWriteReply r seq ok) ⟨q, x⟩ x.idle :=
  does_same (exec_baleWriteReply r seq ok ⟨q, x⟩) (decide_eq_true hr) hx (Dev.baleReply_unknown (s := x.cleared) h ok)

variable {w : BaleWr}

theorem does_baleReply_accepted (hp : (x.chip.rgn r).pending = false)
    (h : (x.chip.rgn r).q.find? (fun v => v.bale.seq = w.bale.seq && v.sent) = some w) :
    Does (.baleWriteReply r w.bale.seq true) ⟨q, x⟩ (fun y => x.Writes y r w.stored
      ∧ (x.chip.Quiet → ∀ v ∈ (y.chip.rgn r).q, v.bale.seq ≠ w.bale.seq)) := by
  refine does_of_command (exec_baleWriteReply r w.bale.seq true ⟨q, x⟩) (decide_eq_true hr) hx ?_
  rw [Dev.baleReply_accepted (s := x.cleared) h, Dev.settle_of_noneDue (Dev.noneDue_accept (x := x.cleared) hp w)]
  refine ⟨Dev.writes_accept x.cleared r w, fun hquiet v hv => ?_⟩
  obtain hq | hq := Dev.q_accept (x := x.cleared) hquiet r w
  · rw [hq] at hv
    exact of_decide_eq_true (List.mem_filter.mp hv).2
  · rw [hq] at hv
    exact absurd hv List.not_mem_nil

theorem does_baleReply_refused (hq : (x.chip.rgn r).q = [w]) (hs : w.sent = true) :
    Does (.baleWriteReply r w.bale.seq false) ⟨q, x⟩ (fun y => x.sameMem y ∧ (y.chip.rgn r).next = (x.chip.rgn r).next
      ∧ (w.marker = true → (y.chip.rgn r).q = [{ w with sent := false }])
      ∧ (w.marker = false → (y.chip.rgn r).q = [foldOf w.bale w.bale.payload.length w.last]
          ∧ (y.chip.rgn r).resync = true)) := by
  have hfind : (x.chip.rgn r).q.find? (fun v => v.bale.seq = w.bale.seq && v.sent) = some w := by simp [hq, hs]
  refine does_of_command (exec_baleWriteReply r w.bale.seq false ⟨q, x⟩) (decide_eq_true hr) hx ?_
  rw [Dev.baleReply_refused (s := x.cleared) hfind]
  have hrgn := Chip.rgn_refuseBale (d := x.cleared.chip) hq hs
  dsimp only
  rw [hrgn]
  exact ⟨x.sameMem_mk _, rfl, fun hm => by simp [hm], fun hm => by simp [hm]⟩

/-! ## PENDING_BALE_RETRY -/

theorem does_retry_written (hq : (x.chip.rgn r).q = [w]) (hs : w.sent = false)
    (hf : x.chip.slotFenced (x.chip.rcfg r) w.bale.seq = false) :
    Does (.pendingBaleRetry r) ⟨q, x⟩ (fun y => x.Writes y r w.stored ∧ (x.chip.Quiet → (y.chip.rgn r).q = [])) := by
  refine does_of_command (exec_pendingBaleRetry r ⟨q, x⟩) (decide_eq_true hr) hx ?_
  rw [Dev.settle_single (s := x.cleared) hq hs hf]
  refine ⟨Dev.writes_accept x.cleared r w, fun hquiet => ?_⟩
  have hnil : (x.chip.rgn r).q.filter (fun v => v.bale.seq ≠ w.bale.seq) = [] := by simp [hq]
  exact (Dev.q_accept (x := x.cleared) hquiet r w).elim (fun h => h.trans hnil) id

theorem does_retry_idle (h : x.chip.NoneDue r) : Does (.pendingBaleRetry r) ⟨q, x⟩ x.idle :=
  does_same (exec_pendingBaleRetry r ⟨q, x⟩) (decide_eq_true hr) hx (Dev.settle_of_noneDue (s := x.cleared) h)

end Commands

/-- Settles O27: a bale that is closed or retried goes to its slot or waits behind the fence, and what an accepted write
sets off leaves nothing due that a retry would write. -/
theorem baleWrites : Obligations.BaleWrites := by
  intro q x r hr hx
  refine ⟨fun hp => ⟨fun o ho => ⟨fun ht hf => ⟨fun hs => ?_, fun hs => ?_⟩, fun ht => ?_⟩, fun ho => ?_, fun w h => ?_⟩,
    fun w hq hs => ?_, fun seq ok h => ?_, fun w hq hs hf => ?_, fun w h hf => ?_, fun hp => ?_⟩
  · exact does_baleFlush_written q hx hr hp ho ht hf hs
  · exact does_baleFlush_fenced q hx hr hp ho ht hf hs
  · exact does_baleFlush_idle q hx hr hp (Chip.baleFlush_early (d := x.cleared.chip) ho ht)
  · exact does_baleFlush_idle q hx hr hp (Chip.baleFlush_closed (d := x.cleared.chip) ho)
  · exact does_baleReply_accepted q hx hr hp h
  · exact does_baleReply_refused q hx hr hq hs
  · exact does_baleReply_unknown q hx hr h ok
  · exact does_retry_written q hx hr hq hs hf
  · exact does_retry_idle q hx hr fun v hv => Option.some.inj (h.symm.trans hv) ▸ hf
  · exact does_retry_idle q hx hr (noneDue_of_sent ((Rgn.find_unsent_iff _).mpr hp))

end Sys2Proof.Machine
end
